-- ==== Sys2Proof/Word.lean ====
section
/-! DEFINITION. The word types, the numbering of the parts, and sorted key-value lists. -/

namespace Sys2Proof

/-- A register word: every register is 32 bits wide (R16). -/
abbrev Word := BitVec 32

/-- A byte of memory. -/
abbrev Byte := BitVec 8

/-- Sparse data by number: keys strictly rising. -/
abbrev Map (α : Type) := List (Nat × α)

/-- The entry of key `k`, if the map lists one. -/
def mget? {α : Type} (m : Map α) (k : Nat) : Option α :=
  match m with
  | [] => none
  | (j, v) :: t => if j = k then some v else if k < j then none else mget? t k

/-- The entry of key `k`, or `d` where the map lists none. -/
def mgetD {α : Type} (m : Map α) (k : Nat) (d : α) : α := (mget? m k).getD d

/-- The map with entry `v` at key `k`; keys stay strictly rising. -/
def mset {α : Type} (m : Map α) (k : Nat) (v : α) : Map α :=
  match m with
  | [] => [(k, v)]
  | (j, w) :: t =>
    if j = k then (k, v) :: t else if k < j then (k, v) :: (j, w) :: t else (j, w) :: mset t k v

/-- The map without key `k`. -/
def merase {α : Type} (m : Map α) (k : Nat) : Map α :=
  match m with
  | [] => []
  | (j, w) :: t => if j = k then t else if k < j then (j, w) :: t else (j, w) :: merase t k

/-- Keys strictly rising: the canonical form of a map. -/
def mkeysRising {α : Type} : Map α → Bool
  | [] => true
  | [_] => true
  | (j, _) :: (k, v) :: t => decide (j < k) && mkeysRising ((k, v) :: t)

/-- A logical core, numbered 112 * gy + gx on the 112 x 96 grid of R8. -/
abbrev CoreId := Fin 10752

/-- A logical region number, row * 7 + column (R6). -/
abbrev RegionId := Fin 42

/-- A physical region index, row * 8 + column (R5). -/
abbrev PhysId := Fin 48

/-- A Burmon stack (R32). -/
abbrev StackId := Fin 56

/-- An Ethernet port (R32). -/
abbrev PortId := Fin 8

/-- A router of the service network, numbered 34 * y + x on the 34 x 26 grid of R11. -/
abbrev RouterId := Fin 884

end Sys2Proof
end

