-- ==== Sys2Proof/Syntax.lean ====
section
/-! DEFINITION. The commands: one constructor for each row of the table of operations and events. -/

namespace Sys2Proof

/-- Where a bundle's fields issue: the core, and PRED and PNEG of the bundle's scalar field (R246, R248). -/
structure Issue where
  core : CoreId
  pred : BitVec 2
  pneg : Bool
  deriving DecidableEq, Repr

/-- The register form of the scalar field: DST, SA, SB and the reserved bits [31:21] (R248). -/
structure RegForm where
  dst : BitVec 4
  sa  : BitVec 4
  sb  : BitVec 4
  rsv : BitVec 11
  deriving DecidableEq, Repr

/-- The immediate form of the scalar field (R248). -/
structure ImmForm where
  dst : BitVec 4
  sa  : BitVec 4
  imm : BitVec 15
  deriving DecidableEq, Repr

/-- The wide-immediate form of the scalar field; `rsv` is bits [31:29] (R248). -/
structure WideForm where
  dst : BitVec 4
  imm : BitVec 16
  rsv : BitVec 3
  deriving DecidableEq, Repr

/-- The matrix field without its operation code (R122). -/
structure MatField where
  tgt   : BitVec 3
  da    : BitVec 4
  db    : BitVec 4
  msk   : BitVec 3
  plane : BitVec 1
  stat  : BitVec 2
  clr   : BitVec 1
  rsv   : BitVec 9
  deriving DecidableEq, Repr

/-- The vector field without its operation code (R150); `mod` is bits [31:26]. -/
structure VecField where
  dst : BitVec 5
  sa  : BitVec 6
  sb  : BitVec 6
  msk : BitVec 3
  mod : BitVec 6
  deriving DecidableEq, Repr

/-- The move field without its operation code (R270). -/
structure MoveField where
  desc : BitVec 4
  link : BitVec 2
  sreg : BitVec 4
  hq   : BitVec 3
  push : BitVec 1
  kind : BitVec 2
  rsv  : BitVec 12
  deriving DecidableEq, Repr

/-- A flit on a fabric link with VALID = 1 (R258). -/
structure Flit where
  data    : BitVec 512
  par     : BitVec 16
  empty   : Bool
  tarnish : Bool
  epoch   : BitVec 8
  deriving DecidableEq, Repr

/-- A packet of the service network: its header fields and its payload (R342). -/
structure Packet where
  type    : BitVec 5
  cls     : BitVec 2
  dl      : Bool
  tarnish : Bool
  bar     : Bool
  hops    : BitVec 6
  px      : BitVec 6
  py      : BitVec 5
  pep     : BitVec 5
  dkind   : BitVec 2
  lx      : BitVec 7
  ly      : BitVec 7
  group   : BitVec 10
  sx      : BitVec 7
  sy      : BitVec 7
  skind   : Bool
  sep     : BitVec 5
  part    : BitVec 12
  addr    : BitVec 64
  tag     : BitVec 16
  mseq    : BitVec 16
  arg     : BitVec 16
  tdata   : List Word
  pcrc0   : Word
  pcrc1   : Word
  hcrc    : Word
  payload : List Byte
  deriving DecidableEq, Repr

/-- The register space that an access names: a core's, a router's, a stack's, the blocks of R678, or the sideband's. -/
inductive RegTarget where
  | core (c : CoreId)
  | router (r : RouterId)
  | stack (s : StackId)
  | window
  | sideband
  deriving DecidableEq, Repr

/-- One translation entry of an XLAT packet: logical region, the physical region that carries it, the bypassed column of
each core row, 31 for none (R359, R375). -/
structure XlatEntry where
  l     : RegionId
  pcol  : Fin 8
  prow  : Fin 8
  valid : Bool
  byp   : List (BitVec 5)
  deriving DecidableEq, Repr

/-- Who sent a request (R362). -/
inductive Source where
  | core (c : CoreId)
  | stack (s : StackId)
  deriving DecidableEq, Repr

/-- What is booked with the timebase (R446): a section launch of a partition, or a load-step notice to a region's bank with
the change DI of current in A (R641). -/
inductive BookKind where
  | launch (part : BitVec 12)
  | notice (region : PhysId) (di : Int)
  deriving DecidableEq, Repr

/-- The data set of an Announce, in the order of the best master algorithm of IEEE 1588-2019 (R435, R436). -/
structure Announce where
  ident    : BitVec 64
  prio1    : BitVec 8
  cls      : BitVec 8
  accuracy : BitVec 8
  variance : BitVec 16
  prio2    : BitVec 8
  steps    : BitVec 16
  log      : Int
  timeout  : Nat
  deriving DecidableEq, Repr

/-- What R462 asks of an IPv4 packet in a frame, its addresses, its UDP destination port; OP and XID of a bring-up message in it,
none where MAGIC or VER is wrong (R672). -/
structure Ipv4 where
  hdrLen : Nat
  sumOk  : Bool
  frag   : Bool
  total  : Nat
  src    : Word
  dst    : Word
  udp    : Option (BitVec 16)
  brup   : Option (BitVec 8 × Word)
  deriving DecidableEq, Repr

/-- A frame as a port receives it: FCS, length in bytes, 802.1Q tags and the PCP of the tag, addresses, EtherType, whether a
MAC control frame is a PAUSE, an IPv4 packet in it, codewords the FEC corrected and could not correct (R457, R462). -/
structure Frame where
  fcsOk  : Bool
  len    : Nat
  tags   : Nat
  pcp    : BitVec 3
  dst    : BitVec 48
  src    : BitVec 48
  etype  : BitVec 16
  pause  : Bool
  ip     : Option Ipv4
  corr   : Nat
  uncorr : Nat
  deriving DecidableEq, Repr

/-- A RoCEv2 packet: BTH opcode, queue pair, PSN and acknowledge request; source address, ICRC, CE mark, frame length and
priority; RETH or AETH; payload (R477, R479). -/
structure RocePkt where
  op     : BitVec 8
  qpn    : BitVec 24
  psn    : BitVec 24
  ackReq : Bool
  src    : Word
  icrcOk : Bool
  ce     : Bool
  len    : Nat
  prio   : BitVec 3
  va     : BitVec 64
  rkey   : Word
  dmaLen : Word
  aeth   : BitVec 8
  payload : List Byte
  deriving DecidableEq, Repr

/-- What a schedule report states of a section (R288, R641): END, RECONF, STEP, the regions' IPEAK and load steps as (region,
section cycle, change in A). -/
structure SectionInfo where
  fin    : Nat
  reconf : Nat
  isStep : Bool
  peaks  : List Nat
  steps  : List (Nat × Nat × Int)
  deriving DecidableEq, Repr

/-- A request plan (R525): its sections in order and the bytes of its output. -/
structure PlanInfo where
  secs  : List Nat
  bytes : Nat
  deriving DecidableEq, Repr

/-- An image to pour (R689, R690): its number, its chunks, the scratchpad address of chunk 0, its Burmon copy, its digest, and the
cores it goes to, counted from the partition's corner. -/
structure PourInfo where
  image  : Nat
  chunks : Nat
  base   : Nat
  copy   : Nat
  digest : List Byte
  cores  : List Nat
  deriving DecidableEq, Repr

/-- What a program image holds that the heartwood reads (R288, R296, R323, R555, R557, R572): REGIONS, MODE, KMIN, sections,
plans, the endpoints bound as (core, endpoint), edges of compiled channels, its pours, assay groups as (group, checker, the cores of its tiles), the output ranges of a step, and the ranges of boundary state (DESIGN CHOICE,
log entry 15). Cores count from the partition's corner. -/
structure ProgImage where
  regions : Nat
  mode    : Nat
  kmin    : Nat
  secs    : List SectionInfo
  plans   : List PlanInfo
  binds   : List (Nat × Nat)
  edges   : List (Nat × Nat)
  pours   : List PourInfo
  groups  : List (Nat × Nat × List Nat)
  outs    : List (Nat × Nat)
  keeps   : List (Nat × Nat)
  deriving DecidableEq, Repr

/-- The outcome of a unit's test: passed, duration in us, first failing item (R628). -/
structure TestResult where
  pass : Bool
  us   : Nat
  item : Nat
  deriving DecidableEq, Repr

/-- What step BIST finds: defective cores as (physical region, core row, column), regions whose routers, crossings or bank
fail, cores repaired, stacks with a DRAM row that cannot be repaired (R682). -/
structure BistFindings where
  cores  : List (Nat × Nat × Nat)
  regions : List Nat
  stks : List Nat
  deriving DecidableEq, Repr

/-- The commands: every row of the table of operations and events. -/
inductive Instr where
  | registerWrite (tgt : RegTarget) (off size : Nat) (val : Word) (hw : Word)
  | rcRead (tgt : RegTarget) (off size : Nat) (ev : Word)
  | wideReadLatch (tgt : RegTarget) (off size : Nat)
  | snop (i : Issue) (rsv : BitVec 23)
  | add (i : Issue) (f : RegForm)
  | sub (i : Issue) (f : RegForm)
  | and (i : Issue) (f : RegForm)
  | or (i : Issue) (f : RegForm)
  | xor (i : Issue) (f : RegForm)
  | shl (i : Issue) (f : RegForm)
  | shr (i : Issue) (f : RegForm)
  | sra (i : Issue) (f : RegForm)
  | mul (i : Issue) (f : RegForm)
  | slt (i : Issue) (f : RegForm)
  | sltu (i : Issue) (f : RegForm)
  | addi (i : Issue) (f : ImmForm)
  | andi (i : Issue) (f : ImmForm)
  | ori (i : Issue) (f : ImmForm)
  | xori (i : Issue) (f : ImmForm)
  | shli (i : Issue) (f : ImmForm)
  | shri (i : Issue) (f : ImmForm)
  | srai (i : Issue) (f : ImmForm)
  | movl (i : Issue) (f : WideForm)
  | movh (i : Issue) (f : WideForm)
  | pcmp (i : Issue) (f : RegForm)
  | ld (i : Issue) (f : ImmForm)
  | st (i : Issue) (f : ImmForm)
  | ldResult (c : CoreId)
  | rdr (i : Issue) (f : ImmForm)
  | wrr (i : Issue) (f : ImmForm)
  | jmp (i : Issue) (f : ImmForm)
  | call (i : Issue) (f : ImmForm)
  | jr (i : Issue) (f : RegForm)
  | loop (i : Issue) (f : ImmForm)
  | wait (i : Issue) (f : ImmForm)
  | done (i : Issue) (rsv : BitVec 23)
  | mnop (i : Issue) (f : MatField)
  | mmac (i : Issue) (f : MatField)
  | mload (i : Issue) (f : MatField)
  | mzero (i : Issue) (f : MatField)
  | mspill (i : Issue) (f : MatField)
  | mfill (i : Issue) (f : MatField)
  | planeReady (c : CoreId)
  | mmacResult (c : CoreId)
  | mfillResult (c : CoreId)
  | vnop (i : Issue) (f : VecField)
  | vmov (i : Issue) (f : VecField)
  | vadd (i : Issue) (f : VecField)
  | vsub (i : Issue) (f : VecField)
  | vmul (i : Issue) (f : VecField)
  | vfma (i : Issue) (f : VecField)
  | vmin (i : Issue) (f : VecField)
  | vmax (i : Issue) (f : VecField)
  | vabs (i : Issue) (f : VecField)
  | vneg (i : Issue) (f : VecField)
  | vsel (i : Issue) (f : VecField)
  | vcmp (i : Issue) (f : VecField)
  | vand (i : Issue) (f : VecField)
  | vor (i : Issue) (f : VecField)
  | vxor (i : Issue) (f : VecField)
  | vshl (i : Issue) (f : VecField)
  | vshr (i : Issue) (f : VecField)
  | vcvt (i : Issue) (f : VecField)
  | vtrn (i : Issue) (f : VecField)
  | vstm (i : Issue) (f : VecField)
  | vdiv (i : Issue) (f : VecField)
  | vrcp (i : Issue) (f : VecField)
  | vsqrt (i : Issue) (f : VecField)
  | vrsqrt (i : Issue) (f : VecField)
  | vexp (i : Issue) (f : VecField)
  | vexp2 (i : Issue) (f : VecField)
  | vlog (i : Issue) (f : VecField)
  | vlog2 (i : Issue) (f : VecField)
  | vtanh (i : Issue) (f : VecField)
  | vsigm (i : Issue) (f : VecField)
  | vgelu (i : Issue) (f : VecField)
  | vsilu (i : Issue) (f : VecField)
  | vsin (i : Issue) (f : VecField)
  | vcos (i : Issue) (f : VecField)
  | vrsum (i : Issue) (f : VecField)
  | vrmax (i : Issue) (f : VecField)
  | vrmin (i : Issue) (f : VecField)
  | vcsum (i : Issue) (f : VecField)
  | vcmax (i : Issue) (f : VecField)
  | vcmin (i : Issue) (f : VecField)
  | vcmpr (i : Issue) (f : VecField)
  | vexpd (i : Issue) (f : VecField)
  | vsmax (i : Issue) (f : VecField)
  | vlnorm (i : Issue) (f : VecField)
  | vrnorm (i : Issue) (f : VecField)
  | vld (i : Issue) (f : VecField)
  | vst (i : Issue) (f : VecField)
  | vquant (i : Issue) (f : VecField)
  | vectorResult (c : CoreId)
  | xnop (i : Issue) (f : MoveField)
  | xout (i : Issue) (f : MoveField)
  | xin (i : Issue) (f : MoveField)
  | xtok (i : Issue) (f : MoveField)
  | xstop (i : Issue) (f : MoveField)
  | scratchpadCommit (c : CoreId)
  | flitArrival (c : CoreId) (inp : Fin 4) (fl : Option Flit)
  | tokenArrival (c : CoreId) (inp : Fin 4) (tok : Option Word)
  | slotEntryApply (c : CoreId)
  | sectionBarrier (part : Nat)
  | bankSwap (c : CoreId)
  | sectionLaunch (part : Nat)
  | checkpoint (c : CoreId)
  | checkpointSilent (c : CoreId)
  | silentTimeout (c : CoreId)
  | post (c : CoreId) (e : Fin 32) (val : Word)
  | chmsg (c : CoreId) (p : Packet)
  | channelCommit (c : CoreId) (e : Fin 32)
  | chrep (c : CoreId) (e : Fin 32) (code : BitVec 4)
  | postTimeout (c : CoreId) (e : Fin 32)
  | headRelease (c : CoreId) (e : Fin 32) (val : Word)
  | hqPush (c : CoreId) (q : Fin 8) (val : Word)
  | hqPop (c : CoreId) (q : Fin 8)
  | bufferConfig (c : CoreId) (n : Fin 16) (isBase : Bool) (val : Word)
  | swap (c : CoreId) (n : Fin 16)
  | packetIngress (r : RouterId) (p : Packet)
  | packetForward (r : RouterId) (out : Fin 8) (perr : Fin 3)
  | creditReturn (r : RouterId) (out : Fin 8) (vc : Fin 6)
  | wr (p : Packet)
  | rd (p : Packet)
  | hqp (p : Packet)
  | regw (p : Packet)
  | regr (p : Packet)
  | mcwr (c : CoreId) (p : Packet)
  | ack (p : Packet)
  | rdata (p : Packet)
  | record
  | xlat (es : List XlatEntry) (gen : Word)
  | requestTimeout (src : Source) (tag : BitVec 16)
  | fence (c : CoreId)
  | fenceDone (c : CoreId)
  | barrierSlotWrite (c : CoreId) (k : Fin 4) (val : Word)
  | arrive (r : RouterId) (grp : BitVec 8) (gen : BitVec 16)
  | release (c : CoreId) (grp : BitVec 8) (gen : BitVec 16)
  | multicastCut (r : RouterId) (out : Fin 8) (grp : BitVec 10)
  | missed (c : CoreId) (grp : BitVec 10) (first : BitVec 16) (count : BitVec 8)
  | missPop (c : CoreId)
  | burmonRead (st : StackId) (off len : Nat) (part : BitVec 12) (mergeable : Bool) (found : List (Nat × Nat))
  | burmonWrite (st : StackId) (off : Nat) (bytes : List Byte) (tarn : Bool) (part : BitVec 12) (crcGood : Bool) (found : List (Nat × Nat))
  | correctedWriteback (st : StackId) (blk : Nat)
  | refreshSlot (st : StackId) (pair : Fin 16)
  | scrub (st : StackId) (blk errs : Nat)
  | dramRowRepair (st : StackId) (ch : Fin 32) (die : Fin 20) (bank : Fin 16) (row : Fin 16384)
  | retrainRequest (st : StackId) (pair : Fin 16)
  | stackRetrainGo (st : StackId) (val : Word)
  | retrainDone (st : StackId)
  | contextDescriptorWrite (st : StackId) (ctx : Fin 512) (part : BitVec 12) (words : List Word)
  | streamStart (st : StackId) (ctx : Fin 512) (part : BitVec 12)
  | streamStop (st : StackId) (ctx : Fin 512) (part : BitVec 12)
  | credit (st : StackId) (ctx : Fin 512) (part : BitVec 12) (n : BitVec 5)
  | memCredit (c : CoreId) (val : Word)
  | schedChunk (st : StackId) (ctx : Fin 512) (errs : List (Nat × Nat)) (badPar : List Nat)
  | serviceChunk (st : StackId) (ctx : Fin 512) (errs : List (Nat × Nat)) (host : List Byte)
  | sharedChunk (st : StackId) (ctx : Fin 512) (errs : List (Nat × Nat))
  | remoteHalt (st : StackId) (ctx : Fin 512) (unreach : Bool)
  | remoteResume (st : StackId) (ctx : Fin 512)
  | remoteFail (st : StackId) (ctx : Fin 512)
  | xferStart (c : CoreId) (x : Fin 4) (val : Word)
  | xferComplete (c : CoreId) (x : Fin 4)
  | ptpSync (p : PortId) (domain : BitVec 8) (ident : BitVec 64) (log : Int) (twoStep : Bool) (t1 : Nat)
  | followUp (p : PortId) (domain : BitVec 8) (ident : BitVec 64) (t : Nat)
  | delayResp (p : PortId) (domain : BitVec 8) (ident : BitVec 64) (t : Nat)
  | announce (p : PortId) (domain : BitVec 8) (a : Announce)
  | delayReq
  | servingPortMove (why : Fin 3)
  | holdoverLimit
  | ppsEdge
  | ppsLapse
  | errRecompute
  | alignmentWord (isStack : Bool) (unit : Nat) (skew : Int)
  | frameClockEnable (k : Fin 16) (val : Word)
  | lineStart (k : Fin 16)
  | eventBook (k : BookKind) (time : Nat)
  | eventCancel (id : Nat)
  | snap
  | frameReceive (p : PortId) (f : Frame)
  | linkLock (p : PortId)
  | linkLoss (p : PortId) (inFrame : Bool)
  | retrain (p : PortId)
  | portFence (p : PortId)
  | unfence (p : PortId)
  | readyAnnouncement
  | readyRepeat (p : PortId)
  | bringupRequestExpire (p : PortId) (src : Word)
  | pfcRepeat (p : PortId) (prio : Fin 8)
  | pfcReceive (p : PortId) (vec : BitVec 8) (quanta : List (BitVec 16))
  | pauseExpire (p : PortId) (prio : Fin 8)
  | pfcWatchdog (p : PortId) (prio : Fin 8)
  | cnpReceive (q : BitVec 16)
  | rateRecovery (q : BitVec 16)
  | rocePacket (p : PortId) (k : RocePkt)
  | ackTimeout (q : BitVec 16)
  | counterRateCheck (p : PortId)
  | doorbell (r : Fin 16384) (val : Word)
  | completionDoorbell (r : Fin 16384) (val : Word)
  | commandTake
  | completionWrite (r : Fin 16384)
  | eventReport
  | nop (r : Fin 16384) (pos : Word)
  | queryDevice (r : Fin 16384) (pos : Word)
  | readRegs (r : Fin 16384) (pos : Word)
  | writeRegs (r : Fin 16384) (pos : Word)
  | openPartition (r : Fin 16384) (pos : Word)
  | closePartition (r : Fin 16384) (pos : Word)
  | loadProgram (r : Fin 16384) (pos : Word) (img : ProgImage)
  | resetPartitionRollback (r : Fin 16384) (pos : Word)
  | resetPartitionReset (r : Fin 16384) (pos : Word)
  | resetPartitionQuench (r : Fin 16384) (pos : Word)
  | resetPartitionPeers (r : Fin 16384) (pos : Word)
  | resetPartitionAdmit (r : Fin 16384) (pos : Word)
  | resetPartitionResume (r : Fin 16384) (pos : Word)
  | setChecks (r : Fin 16384) (pos : Word)
  | createBuffer (r : Fin 16384) (pos : Word)
  | destroyBuffer (r : Fin 16384) (pos : Word)
  | releaseBuffer (r : Fin 16384) (pos : Word)
  | openSession (r : Fin 16384) (pos : Word)
  | closeSession (r : Fin 16384) (pos : Word)
  | submit (r : Fin 16384) (pos : Word)
  | setFrameClock (r : Fin 16384) (pos : Word)
  | createRing (r : Fin 16384) (pos : Word)
  | destroyRing (r : Fin 16384) (pos : Word)
  | openChannel (r : Fin 16384) (pos : Word)
  | closeChannel (r : Fin 16384) (pos : Word)
  | createQp (r : Fin 16384) (pos : Word)
  | destroyQp (r : Fin 16384) (pos : Word)
  | registerMemory (r : Fin 16384) (pos : Word)
  | deregisterMemory (r : Fin 16384) (pos : Word)
  | mapWindow (r : Fin 16384) (pos : Word)
  | mapPages (r : Fin 16384) (pos : Word)
  | unmapWindow (r : Fin 16384) (pos : Word)
  | fenceUnit (r : Fin 16384) (pos : Word)
  | testUnitTest (r : Fin 16384) (pos : Word) (res : TestResult)
  | testUnitReadmit (r : Fin 16384) (pos : Word) (res : TestResult)
  | testUnitReadPm (r : Fin 16384) (pos : Word)
  | testUnitSamples (r : Fin 16384) (pos : Word)
  | attestReport (r : Fin 16384) (pos : Word) (entropy : List Byte)
  | attestJobKey (r : Fin 16384) (pos : Word)
  | attestLog (r : Fin 16384) (pos : Word)
  | oldKeyErase (part : Nat)
  | ephemeralKeyExpire (id : Word)
  | sealReceive (part : Nat) (l : RegionId)
  | suspectCauseTimeout (part : Nat)
  | assayReport (c : CoreId) (val : Word)
  | hallmarkRound (part : Nat)
  | hallmarkDigestDone (part : Nat)
  | digest (q : BitVec 16) (m : List Byte)
  | hallmarkVote (part : Nat)
  | expel (q : BitVec 16) (m : List Byte)
  | tsReq (q : BitVec 16) (m : List Byte) (data : List Byte)
  | tsResult (q : BitVec 16) (m : List Byte)
  | tsRetry (part : Nat)
  | tsTimeout (part : Nat)
  | regionHeartbeat (p : PhysId)
  | heartbeatLoss (isStack : Bool) (unit : Nat)
  | burnishPiece (p : PhysId) (abandoned ok : Bool) (repeats : List Bool)
  | burnishTimeout (p : PhysId)
  | rootstockMarch (row : Fin 6) (pass : Bool)
  | halt (part : Nat)
  | coreReset (c : CoreId)
  | clusterReset (p : PhysId) (cx cy : Fin 4)
  | partitionReset (part : Nat)
  | deviceReset
  | resetEscalate (dom : Fin 4) (unit : Nat)
  | graft (p : PhysId)
  | inPlaceBypass (p : PhysId) (row : Fin 16) (col : Fin 17)
  | regionTestDone (p : PhysId) (pass : Bool)
  | beat
  | latchChange (yields : Bool)
  | takeover
  | heartwoodLost
  | patinaDecay
  | quench (q : BitVec 16) (m : List Byte)
  | liveSend (part : Nat)
  | live (q : BitVec 16) (m : List Byte)
  | peerDead (part : Nat) (q : BitVec 16)
  | join (q : BitVec 16) (m : List Byte)
  | state (q : BitVec 16) (m : List Byte) (data : List Byte)
  | joined (q : BitVec 16) (m : List Byte)
  | admitTimeout (part : Nat)
  | recoveryRestart (part : Nat)
  | vsetUpdate (p : PhysId) (mv : Nat)
  | droop (p : PhysId) (mv : Nat) (sensor : Fin 64)
  | loadStepNotice (p : PhysId)
  | noticeEnd (p : PhysId)
  | abnormalDrop (p : PhysId)
  | overcur (p : PhysId) (amps : Nat)
  | phaseFail (working : Nat)
  | inputOutOfRange
  | vinLow
  | pinOver (watts : Nat)
  | clockLoss (p : PhysId) (alive : BitVec 4)
  | clockDead (p : PhysId)
  | pollardRequest (p : PhysId) (temp : BitVec 8)
  | pollard (p : PhysId)
  | pollardHoldEnd (part : Nat)
  | thermalHard (p : PhysId) (temp : BitVec 8)
  | thermalTrip (p : PhysId) (temp : BitVec 8)
  | pollardReturn (p : PhysId) (pass : Bool)
  | stackOverheat (st : StackId) (temp : BitVec 8)
  | stackCritical (st : StackId)
  | cool (tin : BitVec 8) (flow : BitVec 16)
  | enable (sealBroken mated : Bool) (slot : Fin 4)
  | discover (p : PortId) (src xid : Word) (len : Nat)
  | bringupRead (p : PortId) (src xid : Word) (len : Nat) (addr : BitVec 64) (count : Nat)
  | bringupWrite (p : PortId) (src xid : Word) (len : Nat) (addr : BitVec 64) (count : Nat) (words : List Word)
  | stage (p : PortId) (src xid : Word) (len : Nat) (off : Word) (bytes : List Byte)
  | power (ok : Bool)
  | bist (level : Fin 4) (f : BistFindings)
  | trainStacks (ok : Bool)
  | trainPorts (ports : BitVec 8)
  | loadFw (bad : List (Nat × Nat × Nat))
  | start (west east fuses : Bool)
  | retrainStack (st : StackId)
  | retrainPort (p : PortId)
  | resetRegion (p : PhysId)
  | resetAll
  | stepTimeout
  | autoRestart
  | pourEnable (c : CoreId) (val : Word)
  | pourPacket (c : CoreId) (p : Packet)
  | pulling (c : CoreId)
  | pourDone (c : CoreId)
  | pourTimeout (c : CoreId)
  | hotJoin
  | enec (events : BitVec 8)
  | disec (events : BitVec 8)
  | rstdaa
  | entdaa (addr : BitVec 7)
  | setdasa (static addr : BitVec 7)
  | getpid
  | getbcr
  | getdcr
  | getstatus
  | getmwl
  | getmrl
  | i3cPrivateWrite (off : BitVec 16) (vals : List Word)
  | i3cPrivateRead (n : Nat)
  | budgetWrite (val : Word)
  | ibi (ack : Bool)
  | ibiRepeat (ack : Bool)
  | shutdown
  | removal
  | disable
  | rstAssert
  | rstRelease
  | vlow (p : PhysId)
  | warm (p : PhysId) (temp : BitVec 8)
  | rnrTimerExpire (q : BitVec 16)
  | pfcWdRelease (p : PortId) (prio : Fin 8)
  | recordSend (c : CoreId)
  | baseDieHeartbeat (st : StackId)
  | mateSenseBounce
  deriving DecidableEq, Repr

end Sys2Proof
end

