-- ==== Sys2Proof/Machine/RegTable.lean ====
section
/-! DEFINITION. The register tables of the spec: offset, repetitions, reset value and the bits of each access code.
The lists are set from the register tables of the spec's files; a field whose reset value the spec does not give
stands at the value log entries 4 and 6 name. -/

namespace Sys2Proof.Machine

/-- One row of a register map: name, offset of its first copy, repetitions as (count, stride), reset value, and the
bits of the access codes RW, RO, WO, W1C and RC (R17). A bit in none of them is reserved. -/
structure RegDef where
  name  : String
  base  : Nat
  dims  : List (Nat × Nat)
  reset : Word
  rw    : Word
  ro    : Word
  wo    : Word
  w1c   : Word
  rc    : Word
  deriving DecidableEq, Repr

/-- The core register space, part 0. -/
def coreRegs0 : List RegDef :=
  [ ⟨"arith.seed", 0x400, [], 0x00000000#32, 0xFFFFFFFF#32, 0x00000000#32, 0x00000000#32, 0x00000000#32, 0x00000000#32⟩,
    ⟨"arith.srctr", 0x404, [], 0x00000000#32, 0xFFFFFFFF#32, 0x00000000#32, 0x00000000#32, 0x00000000#32, 0x00000000#32⟩,
    ⟨"arith.flags", 0x408, [], 0x00000000#32, 0x00000000#32, 0x00000000#32, 0x00000000#32, 0x0000007F#32, 0x00000000#32⟩,
    ⟨"mtx.descN.base", 0x800, [(16, 16)], 0x00000000#32, 0x07FFFFFF#32, 0x00000000#32, 0x00000000#32, 0x00000000#32, 0x00000000#32⟩,
    ⟨"mtx.descN.stride", 0x804, [(16, 16)], 0x00000000#32, 0x003FFFFF#32, 0x00000000#32, 0x00000000#32, 0x00000000#32, 0x00000000#32⟩,
    ⟨"mtx.descN.sbase", 0x808, [(16, 16)], 0x00000000#32, 0x003FFFFF#32, 0x00000000#32, 0x00000000#32, 0x00000000#32, 0x00000000#32⟩,
    ⟨"mtx.descN.klen", 0x80C, [(16, 16)], 0x00000000#32, 0xFFFFFFFF#32, 0x00000000#32, 0x00000000#32, 0x00000000#32, 0x00000000#32⟩,
    ⟨"mtx.maskM.rowsW", 0x900, [(8, 64), (8, 4)], 0xFFFFFFFF#32, 0xFFFFFFFF#32, 0x00000000#32, 0x00000000#32, 0x00000000#32, 0x00000000#32⟩,
    ⟨"mtx.maskM.cols", 0x920, [(8, 64)], 0xFFFFFFFF#32, 0xFFFFFFFF#32, 0x00000000#32, 0x00000000#32, 0x00000000#32, 0x00000000#32⟩,
    ⟨"mtx.status", 0xB00, [], 0x00000000#32, 0x00000000#32, 0x00000000#32, 0x00000000#32, 0x0000001F#32, 0xFFFF0000#32⟩,
    ⟨"vec.descN.base", 0x1000, [(16, 16)], 0x00000000#32, 0x07FFFFFF#32, 0x00000000#32, 0x00000000#32, 0x00000000#32, 0x00000000#32⟩,
    ⟨"vec.descN.rstride", 0x1004, [(16, 16)], 0x00000000#32, 0x003FFFFF#32, 0x00000000#32, 0x00000000#32, 0x00000000#32, 0x00000000#32⟩,
    ⟨"vec.descN.sbase", 0x1008, [(16, 16)], 0x00000000#32, 0x003FFFFF#32, 0x00000000#32, 0x00000000#32, 0x00000000#32, 0x00000000#32⟩,
    ⟨"vec.descN.sstride", 0x100C, [(16, 16)], 0x00000000#32, 0x0000FFFF#32, 0x00000000#32, 0x00000000#32, 0x00000000#32, 0x00000000#32⟩,
    ⟨"vec.maskM.wordW", 0x1100, [(8, 32), (8, 4)], 0x00000000#32, 0xFFFFFFFF#32, 0x00000000#32, 0x00000000#32, 0x00000000#32, 0x00000000#32⟩,
    ⟨"vec.constC", 0x1200, [(8, 4)], 0x00000000#32, 0xFFFFFFFF#32, 0x00000000#32, 0x00000000#32, 0x00000000#32, 0x00000000#32⟩,
    ⟨"vec.ccount", 0x1220, [], 0x00000000#32, 0x00000000#32, 0x000003FF#32, 0x00000000#32, 0x00000000#32, 0x00000000#32⟩,
    ⟨"vec.tarn.tile", 0x1224, [], 0x00000000#32, 0x00000000#32, 0xFFFFFFFF#32, 0x00000000#32, 0x00000000#32, 0x00000000#32⟩,
    ⟨"vec.tarn.aux", 0x1228, [], 0x00000000#32, 0x00000000#32, 0x0000FFFF#32, 0x00000000#32, 0x00000000#32, 0x00000000#32⟩,
    ⟨"vec.status", 0x122C, [], 0x00000000#32, 0x00000000#32, 0x00000000#32, 0x00000000#32, 0x0000000F#32, 0xFFFF0000#32⟩,
    ⟨"vec.guardG.ctl", 0x1240, [(4, 32)], 0x00000100#32, 0x0000FF07#32, 0x00000000#32, 0x00000000#32, 0x00000008#32, 0x00000000#32⟩,
    ⟨"vec.guardG.tiles", 0x1244, [(4, 32)], 0x00000000#32, 0xFFFFFFFF#32, 0x00000000#32, 0x00000000#32, 0x00000000#32, 0x00000000#32⟩,
    ⟨"vec.guardG.lo", 0x1248, [(4, 32)], 0xFF800000#32, 0xFFFFFFFF#32, 0x00000000#32, 0x00000000#32, 0x00000000#32, 0x00000000#32⟩,
    ⟨"vec.guardG.hi", 0x124C, [(4, 32)], 0x7F800000#32, 0xFFFFFFFF#32, 0x00000000#32, 0x00000000#32, 0x00000000#32, 0x00000000#32⟩ ]

/-- The core register space, part 1. -/
def coreRegs1 : List RegDef :=
  [ ⟨"vec.guardG.count", 0x1250, [(4, 32)], 0x00000000#32, 0x00000000#32, 0x00000000#32, 0x00000000#32, 0x00000000#32, 0xFFFFFFFF#32⟩,
    ⟨"vec.tstatT.lo", 0x1300, [(32, 8)], 0x00000000#32, 0x00000000#32, 0xFFFFFFFF#32, 0x00000000#32, 0x00000000#32, 0x00000000#32⟩,
    ⟨"vec.tstatT.hi", 0x1304, [(32, 8)], 0x00000000#32, 0x00000000#32, 0xFFFFFFFF#32, 0x00000000#32, 0x00000000#32, 0x00000000#32⟩,
    ⟨"spd.cfg", 0x2000, [], 0x0000000C#32, 0x00000000#32, 0x0000000F#32, 0x00000000#32, 0x00000000#32, 0x00000000#32⟩,
    ⟨"spd.status", 0x2004, [], 0x00000000#32, 0x00000000#32, 0x00000000#32, 0x00000000#32, 0x0000001F#32, 0xFFFF0000#32⟩,
    ⟨"spd.err.addr", 0x2008, [], 0x00000000#32, 0x00000000#32, 0x81FFFFFF#32, 0x00000000#32, 0x00000000#32, 0x00000000#32⟩,
    ⟨"spd.err.cyc", 0x200C, [], 0x00000000#32, 0x00000000#32, 0xFFFFFFFF#32, 0x00000000#32, 0x00000000#32, 0x00000000#32⟩,
    ⟨"spd.wheel", 0x2010, [], 0x00000000#32, 0x00000000#32, 0x00000007#32, 0x00000000#32, 0x00000000#32, 0x00000000#32⟩,
    ⟨"spd.remapB.entI", 0x2100, [(16, 32), (8, 4)], 0x00000000#32, 0x00000000#32, 0x000037FF#32, 0x00000000#32, 0x00000000#32, 0x00000000#32⟩,
    ⟨"spd.bufN.base", 0x2400, [(16, 16)], 0x00000000#32, 0x803FFFFF#32, 0x00000000#32, 0x00000000#32, 0x00000000#32, 0x00000000#32⟩,
    ⟨"spd.bufN.half", 0x2404, [(16, 16)], 0x00000000#32, 0x003FFFFF#32, 0x00000000#32, 0x00000000#32, 0x00000000#32, 0x00000000#32⟩,
    ⟨"spd.bufN.ctl", 0x2408, [(16, 16)], 0x00000000#32, 0x00000000#32, 0x0000001D#32, 0x00000002#32, 0x00000000#32, 0x00000000#32⟩,
    ⟨"spd.bufN.front", 0x240C, [(16, 16)], 0x00000000#32, 0x00000000#32, 0x003FFFFF#32, 0x00000000#32, 0x00000000#32, 0x00000000#32⟩,
    ⟨"spd.hqQ.push", 0x2500, [(8, 16)], 0x00000000#32, 0x00000000#32, 0x00000000#32, 0xFFFFFFFF#32, 0x00000000#32, 0x00000000#32⟩,
    ⟨"spd.hqQ.pop", 0x2504, [(8, 16)], 0x00000000#32, 0x00000000#32, 0x00000000#32, 0x00000000#32, 0x00000000#32, 0xFFFFFFFF#32⟩,
    ⟨"spd.hqQ.peek", 0x2508, [(8, 16)], 0x00000000#32, 0x00000000#32, 0xFFFFFFFF#32, 0x00000000#32, 0x00000000#32, 0x00000000#32⟩,
    ⟨"spd.hqQ.stat", 0x250C, [(8, 16)], 0x00000000#32, 0x00000000#32, 0x0000001F#32, 0x00000000#32, 0x00000100#32, 0xFFFF0000#32⟩,
    ⟨"ctl.entry", 0x2800, [], 0x00000000#32, 0x00000000#32, 0x003FFFFF#32, 0x00000000#32, 0x00000000#32, 0x00000000#32⟩,
    ⟨"ctl.pc", 0x2804, [], 0x00000000#32, 0x00000000#32, 0x003FFFFF#32, 0x00000000#32, 0x00000000#32, 0x00000000#32⟩,
    ⟨"ctl.status", 0x2808, [], 0x00000000#32, 0x00000000#32, 0x00000010#32, 0x00000000#32, 0x0000000F#32, 0xFFFF0000#32⟩,
    ⟨"ctl.issue.lo", 0x280C, [], 0x00000000#32, 0x00000000#32, 0xFFFFFFFF#32, 0x00000000#32, 0x00000000#32, 0x00000000#32⟩,
    ⟨"ctl.issue.hi", 0x2810, [], 0x00000000#32, 0x00000000#32, 0xFFFFFFFF#32, 0x00000000#32, 0x00000000#32, 0x00000000#32⟩,
    ⟨"ctl.pred", 0x2814, [], 0x00000000#32, 0x00000000#32, 0x0000000E#32, 0x00000000#32, 0x00000000#32, 0x00000000#32⟩,
    ⟨"fab.epoch", 0x3000, [], 0x00000000#32, 0x00000000#32, 0xFFFFFFFF#32, 0x00000000#32, 0x00000000#32, 0x00000000#32⟩ ]

/-- The core register space, part 2. -/
def coreRegs2 : List RegDef :=
  [ ⟨"fab.sect.lo", 0x3004, [], 0x00000000#32, 0x00000000#32, 0xFFFFFFFF#32, 0x00000000#32, 0x00000000#32, 0x00000000#32⟩,
    ⟨"fab.sect.hi", 0x3008, [], 0x00000000#32, 0x00000000#32, 0xFFFFFFFF#32, 0x00000000#32, 0x00000000#32, 0x00000000#32⟩,
    ⟨"fab.status", 0x300C, [], 0x00000000#32, 0x00000000#32, 0x00000000#32, 0x00000000#32, 0x000000FF#32, 0x00000000#32⟩,
    ⟨"fab.stale", 0x3010, [], 0x00000000#32, 0x00000000#32, 0x00000000#32, 0x00000000#32, 0x00000000#32, 0xFFFFFFFF#32⟩,
    ⟨"fab.tbl.len", 0x3014, [], 0x00000000#32, 0x00000000#32, 0x1FFF1FFF#32, 0x00000000#32, 0x00000000#32, 0x00000000#32⟩,
    ⟨"fab.tbl.per", 0x3018, [], 0x00000001#32, 0x00000000#32, 0x00011FFF#32, 0x00000000#32, 0x00000000#32, 0x00000000#32⟩,
    ⟨"fab.tbl.iter", 0x301C, [], 0x00000000#32, 0x00000000#32, 0xFFFFFFFF#32, 0x00000000#32, 0x00000000#32, 0x00000000#32⟩,
    ⟨"fab.tbl.end.lo", 0x3020, [], 0x00000000#32, 0x00000000#32, 0xFFFFFFFF#32, 0x00000000#32, 0x00000000#32, 0x00000000#32⟩,
    ⟨"fab.tbl.end.hi", 0x3024, [], 0x00000000#32, 0x00000000#32, 0xFFFFFFFF#32, 0x00000000#32, 0x00000000#32, 0x00000000#32⟩,
    ⟨"fab.ctrK", 0x3030, [(8, 4)], 0x00000000#32, 0x00000000#32, 0xFFFFFFFF#32, 0x00000000#32, 0x00000000#32, 0x00000000#32⟩,
    ⟨"fab.steerS.cfg", 0x3050, [(4, 4)], 0x00000000#32, 0x00000000#32, 0x000007FF#32, 0x00000000#32, 0x00000000#32, 0x00000000#32⟩,
    ⟨"fab.tokin", 0x3060, [], 0x00000000#32, 0x00000000#32, 0x00000000#32, 0x00000000#32, 0x00000000#32, 0xFFFFFFFF#32⟩,
    ⟨"fab.sentI", 0x3064, [(4, 4)], 0x00000000#32, 0x00000000#32, 0xFFFFFFFF#32, 0x00000000#32, 0x00000000#32, 0x00000000#32⟩,
    ⟨"fab.xdescN.base", 0x3080, [(16, 16)], 0x00000000#32, 0x003FFFFF#32, 0x00000000#32, 0x00000000#32, 0x00000000#32, 0x00000000#32⟩,
    ⟨"fab.xdescN.stride", 0x3084, [(16, 16)], 0x00000000#32, 0x003FFFFF#32, 0x00000000#32, 0x00000000#32, 0x00000000#32, 0x00000000#32⟩,
    ⟨"fab.xdescN.count", 0x3088, [(16, 16)], 0x00000000#32, 0x001FFFFF#32, 0x00000000#32, 0x00000000#32, 0x00000000#32, 0x00000000#32⟩,
    ⟨"fab.xinI.rcvd", 0x3180, [(4, 4)], 0x00000000#32, 0x00000000#32, 0x001FFFFF#32, 0x00000000#32, 0x00000000#32, 0x00000000#32⟩,
    ⟨"chn.status", 0x3300, [], 0x00000000#32, 0x00000000#32, 0x00000000#32, 0x00000000#32, 0x00000003#32, 0xFFFF0000#32⟩,
    ⟨"chn.handlerH", 0x3400, [(256, 4)], 0x00000000#32, 0x803FFFFF#32, 0x00000000#32, 0x00000000#32, 0x00000000#32, 0x00000000#32⟩,
    ⟨"chn.epE.cfg", 0x3800, [(32, 64)], 0x00000000#32, 0x00000000#32, 0x0000FFFF#32, 0x00000000#32, 0x00000000#32, 0x00000000#32⟩,
    ⟨"chn.epE.ring", 0x3804, [(32, 64)], 0x00000000#32, 0x00000000#32, 0x07FFFFFF#32, 0x00000000#32, 0x00000000#32, 0x00000000#32⟩,
    ⟨"chn.epE.stword", 0x3808, [(32, 64)], 0x00000000#32, 0x00000000#32, 0x003FFFFF#32, 0x00000000#32, 0x00000000#32, 0x00000000#32⟩,
    ⟨"chn.epE.peer", 0x380C, [(32, 64)], 0x00000000#32, 0x00000000#32, 0x0007FFFF#32, 0x00000000#32, 0x00000000#32, 0x00000000#32⟩,
    ⟨"chn.epE.handle", 0x3810, [(32, 64)], 0x00000000#32, 0x00000000#32, 0xFFFFFFFF#32, 0x00000000#32, 0x00000000#32, 0x00000000#32⟩ ]

/-- The core register space, part 3. -/
def coreRegs3 : List RegDef :=
  [ ⟨"chn.epE.head", 0x3814, [(32, 64)], 0x00000000#32, 0xFFFFFFFF#32, 0x00000000#32, 0x00000000#32, 0x00000000#32, 0x00000000#32⟩,
    ⟨"chn.epE.tail", 0x3818, [(32, 64)], 0x00000000#32, 0x00000000#32, 0xFFFFFFFF#32, 0x00000000#32, 0x00000000#32, 0x00000000#32⟩,
    ⟨"chn.epE.src", 0x381C, [(32, 64)], 0x00000000#32, 0x003FFFFF#32, 0x00000000#32, 0x00000000#32, 0x00000000#32, 0x00000000#32⟩,
    ⟨"chn.epE.arg", 0x3820, [(32, 64)], 0x00000000#32, 0x0000FFFF#32, 0x00000000#32, 0x00000000#32, 0x00000000#32, 0x00000000#32⟩,
    ⟨"chn.epE.post", 0x3824, [(32, 64)], 0x00000000#32, 0x00000000#32, 0x00000000#32, 0xFFFFFFFF#32, 0x00000000#32, 0x00000000#32⟩,
    ⟨"chn.epE.result", 0x3828, [(32, 64)], 0x00000000#32, 0x00000000#32, 0xFFFF000F#32, 0x00000000#32, 0x00000000#32, 0x00000000#32⟩,
    ⟨"chn.epE.stat", 0x382C, [(32, 64)], 0x00000000#32, 0x00000000#32, 0x00000000#32, 0x00000000#32, 0x00000000#32, 0xFFFFFFFF#32⟩,
    ⟨"svc.fence", 0x3200, [], 0x00000002#32, 0x00000000#32, 0x00000002#32, 0x00000001#32, 0x00000000#32, 0x00000000#32⟩,
    ⟨"svc.src.status", 0x3204, [], 0x00000000#32, 0x00000000#32, 0x00000000#32, 0x00000000#32, 0x00000007#32, 0xFFFFFF00#32⟩,
    ⟨"svc.miss", 0x3208, [], 0x00000000#32, 0x00000000#32, 0x00000000#32, 0x00000000#32, 0x00000000#32, 0xFFFFFFFF#32⟩,
    ⟨"svc.barS", 0x3210, [(4, 4)], 0x00000000#32, 0x00000000#32, 0x0CFFFFFF#32, 0x03000000#32, 0x00000000#32, 0x00000000#32⟩,
    ⟨"mem.xferX.addr.lo", 0x2C00, [(4, 32)], 0x00000000#32, 0xFFFFFFFF#32, 0x00000000#32, 0x00000000#32, 0x00000000#32, 0x00000000#32⟩,
    ⟨"mem.xferX.addr.hi", 0x2C04, [(4, 32)], 0x00000000#32, 0xFFFFFFFF#32, 0x00000000#32, 0x00000000#32, 0x00000000#32, 0x00000000#32⟩,
    ⟨"mem.xferX.spd", 0x2C08, [(4, 32)], 0x00000000#32, 0x07FFFFFF#32, 0x00000000#32, 0x00000000#32, 0x00000000#32, 0x00000000#32⟩,
    ⟨"mem.xferX.cw", 0x2C0C, [(4, 32)], 0x00000000#32, 0x803FFFFF#32, 0x00000000#32, 0x00000000#32, 0x00000000#32, 0x00000000#32⟩,
    ⟨"mem.xferX.ctl", 0x2C10, [(4, 32)], 0x00000000#32, 0x00000000#32, 0x00000000#32, 0xFFFFFFFF#32, 0x00000000#32, 0x00000000#32⟩,
    ⟨"mem.xferX.stat", 0x2C14, [(4, 32)], 0x00000000#32, 0x00000000#32, 0x0000003F#32, 0x00000000#32, 0x00000000#32, 0x00000000#32⟩,
    ⟨"mem.credit", 0x2C80, [], 0x00000000#32, 0x00000000#32, 0x00000000#32, 0xFFFFFFFF#32, 0x00000000#32, 0x00000000#32⟩,
    ⟨"asy.cfg", 0xC00, [], 0x00000000#32, 0x00000000#32, 0x000001FF#32, 0x00000000#32, 0x00000000#32, 0x00000000#32⟩,
    ⟨"asy.seed", 0xC04, [], 0x00000000#32, 0x00000000#32, 0xFFFFFFFF#32, 0x00000000#32, 0x00000000#32, 0x00000000#32⟩,
    ⟨"asy.step", 0xC08, [], 0x00000000#32, 0x00000000#32, 0xFFFFFFFF#32, 0x00000000#32, 0x00000000#32, 0x00000000#32⟩,
    ⟨"asy.report", 0xC0C, [], 0x00000000#32, 0x00000000#32, 0x00000000#32, 0xFFFFFFFF#32, 0x00000000#32, 0x00000000#32⟩,
    ⟨"asy.count", 0xC10, [], 0x00000000#32, 0x00000000#32, 0x00000000#32, 0x00000000#32, 0x00000000#32, 0xFFFFFFFF#32⟩,
    ⟨"hlt.ckpt", 0x100, [], 0x00000000#32, 0x00000000#32, 0x003FFFFF#32, 0x00000000#32, 0x00000000#32, 0x00000000#32⟩ ]

/-- The core register space, part 4. -/
def coreRegs4 : List RegDef :=
  [ ⟨"hlt.status", 0x104, [], 0x00000000#32, 0x00000000#32, 0xFFFF0000#32, 0x00000000#32, 0x00000003#32, 0x00000000#32⟩,
    ⟨"hlt.burn", 0x108, [], 0x00000000#32, 0x00000000#32, 0xFFFF000F#32, 0x00000000#32, 0x00000000#32, 0x0000FF00#32⟩,
    ⟨"pour.cfg", 0x600, [], 0x00000000#32, 0x00000000#32, 0x83FFFFFF#32, 0x00000000#32, 0x00000000#32, 0x00000000#32⟩,
    ⟨"pour.base", 0x604, [], 0x00000000#32, 0x00000000#32, 0x003FFFFF#32, 0x00000000#32, 0x00000000#32, 0x00000000#32⟩,
    ⟨"pour.copy.lo", 0x608, [], 0x00000000#32, 0x00000000#32, 0xFFFFFFFF#32, 0x00000000#32, 0x00000000#32, 0x00000000#32⟩,
    ⟨"pour.copy.hi", 0x60C, [], 0x00000000#32, 0x00000000#32, 0xFFFFFFFF#32, 0x00000000#32, 0x00000000#32, 0x00000000#32⟩,
    ⟨"pour.partner", 0x610, [], 0x00000000#32, 0x00000000#32, 0x7FFF7FFF#32, 0x00000000#32, 0x00000000#32, 0x00000000#32⟩,
    ⟨"pour.status", 0x614, [], 0x00000000#32, 0x00000000#32, 0x007FFFFF#32, 0x00000000#32, 0x00000000#32, 0x00000000#32⟩,
    ⟨"pour.haveW", 0x640, [(24, 4)], 0x00000000#32, 0x00000000#32, 0xFFFFFFFF#32, 0x00000000#32, 0x00000000#32, 0x00000000#32⟩ ]

/-- The core register space. -/
def coreRegs : List RegDef := coreRegs0 ++ coreRegs1 ++ coreRegs2 ++ coreRegs3 ++ coreRegs4

/-- The router register space (R375), part 0. -/
def routerRegs0 : List RegDef :=
  [ ⟨"svc.id", 0x0, [], 0x00000000#32, 0x00000000#32, 0x00000FFF#32, 0x00000000#32, 0x00000000#32, 0x00000000#32⟩,
    ⟨"svc.region", 0x4, [], 0x0000003F#32, 0x0003FFFF#32, 0x00000000#32, 0x00000000#32, 0x00000000#32, 0x00000000#32⟩,
    ⟨"svc.status", 0x8, [], 0x00000000#32, 0x00000000#32, 0x00000000#32, 0x00000000#32, 0x0000007F#32, 0x00000000#32⟩,
    ⟨"svc.drops", 0xC, [], 0x00000000#32, 0x00000000#32, 0x00000000#32, 0x00000000#32, 0x00000000#32, 0xFFFFFFFF#32⟩,
    ⟨"svc.mc.hold", 0x10, [], 0x00001000#32, 0x0000FFFF#32, 0x00000000#32, 0x00000000#32, 0x00000000#32, 0x00000000#32⟩,
    ⟨"svc.xlat.gen", 0x14, [], 0x00000000#32, 0x00000000#32, 0xFFFFFFFF#32, 0x00000000#32, 0x00000000#32, 0x00000000#32⟩,
    ⟨"svc.portP.pkts", 0x100, [(8, 32)], 0x00000000#32, 0x00000000#32, 0xFFFFFFFF#32, 0x00000000#32, 0x00000000#32, 0x00000000#32⟩,
    ⟨"svc.portP.flits", 0x104, [(8, 32)], 0x00000000#32, 0x00000000#32, 0xFFFFFFFF#32, 0x00000000#32, 0x00000000#32, 0x00000000#32⟩,
    ⟨"svc.portP.stall", 0x108, [(8, 32)], 0x00000000#32, 0x00000000#32, 0xFFFFFFFF#32, 0x00000000#32, 0x00000000#32, 0x00000000#32⟩,
    ⟨"svc.portP.depth", 0x10C, [(8, 32)], 0x00000000#32, 0x00000000#32, 0x3FFFFFFF#32, 0x00000000#32, 0x00000000#32, 0x00000000#32⟩,
    ⟨"svc.portP.hiwat", 0x110, [(8, 32)], 0x00000000#32, 0x00000000#32, 0x00000000#32, 0x00000000#32, 0x00000000#32, 0x3FFFFFFF#32⟩,
    ⟨"svc.portP.cut", 0x114, [(8, 32)], 0x00000000#32, 0x00000000#32, 0x00000000#32, 0x00000000#32, 0x00000000#32, 0x0000FFFF#32⟩,
    ⟨"svc.xlatL.map", 0x1000, [(42, 16)], 0x00000000#32, 0x00000000#32, 0x8000003F#32, 0x00000000#32, 0x00000000#32, 0x00000000#32⟩,
    ⟨"svc.xlatL.bypW", 0x1004, [(42, 16), (3, 4)], 0x3FFFFFFF#32, 0x00000000#32, 0x3FFFFFFF#32, 0x00000000#32, 0x00000000#32, 0x00000000#32⟩,
    ⟨"svc.mcG", 0x2000, [(1024, 4)], 0x00000000#32, 0x8FFFFFFF#32, 0x00000000#32, 0x00000000#32, 0x00000000#32, 0x00000000#32⟩,
    ⟨"svc.barB.cfg", 0x3000, [(256, 8)], 0x00000000#32, 0x83FFFFFF#32, 0x00000000#32, 0x00000000#32, 0x00000000#32, 0x00000000#32⟩,
    ⟨"svc.barB.cnt", 0x3004, [(256, 8)], 0x00000000#32, 0xFFFF0000#32, 0x0000FFFF#32, 0x00000000#32, 0x00000000#32, 0x00000000#32⟩ ]

/-- The router register space (R375). -/
def routerRegs : List RegDef := routerRegs0

/-- The stack register space (R428), part 0. -/
def stackRegs0 : List RegDef :=
  [ ⟨"bmn.id", 0x0, [], 0x00000000#32, 0x00000000#32, 0x00000FFF#32, 0x00000000#32, 0x00000000#32, 0x00000000#32⟩,
    ⟨"bmn.status", 0x4, [], 0x00000000#32, 0x00000000#32, 0xFFFF0006#32, 0x00000000#32, 0x00000019#32, 0x00000000#32⟩,
    ⟨"bmn.ce", 0x8, [], 0x00000000#32, 0x00000000#32, 0x00000000#32, 0x00000000#32, 0x00000000#32, 0xFFFFFFFF#32⟩,
    ⟨"bmn.ue", 0xC, [], 0x00000000#32, 0x00000000#32, 0x00000000#32, 0x00000000#32, 0x00000000#32, 0xFFFFFFFF#32⟩,
    ⟨"bmn.ue.addr.lo", 0x10, [], 0x00000000#32, 0x00000000#32, 0xFFFFFFC1#32, 0x00000000#32, 0x00000000#32, 0x00000000#32⟩,
    ⟨"bmn.ue.addr.hi", 0x14, [], 0x00000000#32, 0x00000000#32, 0x0000003F#32, 0x00000000#32, 0x00000000#32, 0x00000000#32⟩,
    ⟨"bmn.merge", 0x18, [], 0x00000100#32, 0x00001FFF#32, 0x00000000#32, 0x00000000#32, 0x00000000#32, 0x00000000#32⟩,
    ⟨"bmn.merge.hits", 0x1C, [], 0x00000000#32, 0x00000000#32, 0x00000000#32, 0x00000000#32, 0x00000000#32, 0xFFFFFFFF#32⟩,
    ⟨"bmn.scrub", 0x20, [], 0x0000004C#32, 0x0000007F#32, 0xFFFF0000#32, 0x00000000#32, 0x00000000#32, 0x00000000#32⟩,
    ⟨"bmn.retrain", 0x24, [], 0x00000000#32, 0x0000000F#32, 0xFFFF0020#32, 0x00000010#32, 0x00000000#32, 0x00000000#32⟩,
    ⟨"bmn.temp", 0x28, [], 0x00000000#32, 0x00000000#32, 0x000000FF#32, 0x00000000#32, 0x00000000#32, 0x00000000#32⟩,
    ⟨"bmn.ownG", 0x100, [(160, 4)], 0x00000000#32, 0x00003FFF#32, 0x00000000#32, 0x00000000#32, 0x00000000#32, 0x00000000#32⟩ ]

/-- The stack register space (R428). -/
def stackRegs : List RegDef := stackRegs0

/-- The register blocks of R678, part 0. -/
def windowRegs0 : List RegDef :=
  [ ⟨"wfr.map.rowN", 0x1100, [(6, 4)], 0x00000007#32, 0x00000000#32, 0x00FFFF1F#32, 0x00000000#32, 0x00000000#32, 0x00000000#32⟩,
    ⟨"tmb.status", 0x10000, [], 0x00000000#32, 0x00000000#32, 0x000000FF#32, 0x00000000#32, 0x00000F00#32, 0xFFFF0000#32⟩,
    ⟨"tmb.ptp.cfg", 0x10004, [], 0x0000027F#32, 0x000007FF#32, 0x00000000#32, 0x00000000#32, 0x00000000#32, 0x00000000#32⟩,
    ⟨"tmb.ptp.ports", 0x10008, [], 0x00000008#32, 0xFFFFFFFF#32, 0x00000000#32, 0x00000000#32, 0x00000000#32, 0x00000000#32⟩,
    ⟨"tmb.thr", 0x1000C, [], 0x03E800C8#32, 0xFFFFFFFF#32, 0x00000000#32, 0x00000000#32, 0x00000000#32, 0x00000000#32⟩,
    ⟨"tmb.hold", 0x10010, [], 0x000A000A#32, 0xFFFFFFFF#32, 0x00000000#32, 0x00000000#32, 0x00000000#32, 0x00000000#32⟩,
    ⟨"tmb.count", 0x10014, [], 0x00000000#32, 0x00000000#32, 0x00000000#32, 0x00000000#32, 0x00000000#32, 0xFFFFFFFF#32⟩,
    ⟨"tmb.time.lo", 0x10018, [], 0x00000000#32, 0x00000000#32, 0xFFFFFFFF#32, 0x00000000#32, 0x00000000#32, 0x00000000#32⟩,
    ⟨"tmb.time.hi", 0x1001C, [], 0x00000000#32, 0x00000000#32, 0xFFFFFFFF#32, 0x00000000#32, 0x00000000#32, 0x00000000#32⟩,
    ⟨"tmb.map.snap", 0x10020, [], 0x00000000#32, 0x00000000#32, 0x00000000#32, 0x00000001#32, 0x00000000#32, 0x00000000#32⟩,
    ⟨"tmb.map.d0.lo", 0x10024, [], 0x00000000#32, 0x00000000#32, 0xFFFFFFFF#32, 0x00000000#32, 0x00000000#32, 0x00000000#32⟩,
    ⟨"tmb.map.d0.hi", 0x10028, [], 0x00000000#32, 0x00000000#32, 0xFFFFFFFF#32, 0x00000000#32, 0x00000000#32, 0x00000000#32⟩,
    ⟨"tmb.map.p0.lo", 0x1002C, [], 0x00000000#32, 0x00000000#32, 0xFFFFFFFF#32, 0x00000000#32, 0x00000000#32, 0x00000000#32⟩,
    ⟨"tmb.map.p0.hi", 0x10030, [], 0x00000000#32, 0x00000000#32, 0xFFFFFFFF#32, 0x00000000#32, 0x00000000#32, 0x00000000#32⟩,
    ⟨"tmb.map.rate.lo", 0x10034, [], 0x00000000#32, 0x00000000#32, 0xFFFFFFFF#32, 0x00000000#32, 0x00000000#32, 0x00000000#32⟩,
    ⟨"tmb.map.rate.hi", 0x10038, [], 0x000000A0#32, 0x00000000#32, 0x0000FFFF#32, 0x00000000#32, 0x00000000#32, 0x00000000#32⟩,
    ⟨"tmb.offset", 0x1003C, [], 0x00000000#32, 0x00000000#32, 0xFFFFFFFF#32, 0x00000000#32, 0x00000000#32, 0x00000000#32⟩,
    ⟨"tmb.err", 0x10040, [], 0x00000000#32, 0x00000000#32, 0xFFFFFFFF#32, 0x00000000#32, 0x00000000#32, 0x00000000#32⟩,
    ⟨"tmb.gm.lo", 0x10044, [], 0x00000000#32, 0x00000000#32, 0xFFFFFFFF#32, 0x00000000#32, 0x00000000#32, 0x00000000#32⟩,
    ⟨"tmb.gm.hi", 0x10048, [], 0x00000000#32, 0x00000000#32, 0xFFFFFFFF#32, 0x00000000#32, 0x00000000#32, 0x00000000#32⟩,
    ⟨"tmb.fclkK.num", 0x10100, [(16, 32)], 0x00000000#32, 0x0003FFFF#32, 0x00000000#32, 0x00000000#32, 0x00000000#32, 0x00000000#32⟩,
    ⟨"tmb.fclkK.den", 0x10104, [(16, 32)], 0x00000000#32, 0x0000FFFF#32, 0x00000000#32, 0x00000000#32, 0x00000000#32, 0x00000000#32⟩,
    ⟨"tmb.fclkK.lines", 0x10108, [(16, 32)], 0x00000000#32, 0x80003FFF#32, 0x00000000#32, 0x00000000#32, 0x00000000#32, 0x00000000#32⟩,
    ⟨"tmb.fclkK.frame.lo", 0x1010C, [(16, 32)], 0x00000000#32, 0x00000000#32, 0xFFFFFFFF#32, 0x00000000#32, 0x00000000#32, 0x00000000#32⟩ ]

/-- The register blocks of R678, part 1. -/
def windowRegs1 : List RegDef :=
  [ ⟨"tmb.fclkK.frame.hi", 0x10110, [(16, 32)], 0x00000000#32, 0x00000000#32, 0xFFFFFFFF#32, 0x00000000#32, 0x00000000#32, 0x00000000#32⟩,
    ⟨"tmb.fclkK.line", 0x10114, [(16, 32)], 0x00000000#32, 0x00000000#32, 0xFFFFFFFF#32, 0x00000000#32, 0x00000000#32, 0x00000000#32⟩,
    ⟨"tmb.fclkK.status", 0x10118, [(16, 32)], 0x00000000#32, 0x00000000#32, 0x00000001#32, 0x00000000#32, 0x00000002#32, 0xFFFF0000#32⟩,
    ⟨"eth.portP.cfg", 0x20000, [(8, 1024)], 0x00000008#32, 0x0000007F#32, 0x00000000#32, 0x00000380#32, 0x00000000#32, 0x00000000#32⟩,
    ⟨"eth.portP.status", 0x20004, [(8, 1024)], 0x00000000#32, 0x00000000#32, 0x00000007#32, 0x00000000#32, 0x00000018#32, 0xFFFF0000#32⟩,
    ⟨"eth.portP.mac.lo", 0x20008, [(8, 1024)], 0x00000000#32, 0x00000000#32, 0xFFFFFFFF#32, 0x00000000#32, 0x00000000#32, 0x00000000#32⟩,
    ⟨"eth.portP.mac.hi", 0x2000C, [(8, 1024)], 0x00000000#32, 0x00000000#32, 0x0000FFFF#32, 0x00000000#32, 0x00000000#32, 0x00000000#32⟩,
    ⟨"eth.portP.ip", 0x20010, [(8, 1024)], 0x00000000#32, 0xFFFFFFFF#32, 0x00000000#32, 0x00000000#32, 0x00000000#32, 0x00000000#32⟩,
    ⟨"eth.portP.pfc", 0x20014, [(8, 1024)], 0x00640008#32, 0xFFFF00FF#32, 0x00000000#32, 0x00000000#32, 0x00000000#32, 0x00000000#32⟩,
    ⟨"eth.portP.ets", 0x20018, [(8, 1024)], 0x01111111#32, 0xFFFFFFFF#32, 0x00000000#32, 0x00000000#32, 0x00000000#32, 0x00000000#32⟩,
    ⟨"eth.portP.rxf.lo", 0x20040, [(8, 1024)], 0x00000000#32, 0x00000000#32, 0xFFFFFFFF#32, 0x00000000#32, 0x00000000#32, 0x00000000#32⟩,
    ⟨"eth.portP.rxf.hi", 0x20044, [(8, 1024)], 0x00000000#32, 0x00000000#32, 0xFFFFFFFF#32, 0x00000000#32, 0x00000000#32, 0x00000000#32⟩,
    ⟨"eth.portP.rxb.lo", 0x20048, [(8, 1024)], 0x00000000#32, 0x00000000#32, 0xFFFFFFFF#32, 0x00000000#32, 0x00000000#32, 0x00000000#32⟩,
    ⟨"eth.portP.rxb.hi", 0x2004C, [(8, 1024)], 0x00000000#32, 0x00000000#32, 0xFFFFFFFF#32, 0x00000000#32, 0x00000000#32, 0x00000000#32⟩,
    ⟨"eth.portP.txf.lo", 0x20050, [(8, 1024)], 0x00000000#32, 0x00000000#32, 0xFFFFFFFF#32, 0x00000000#32, 0x00000000#32, 0x00000000#32⟩,
    ⟨"eth.portP.txf.hi", 0x20054, [(8, 1024)], 0x00000000#32, 0x00000000#32, 0xFFFFFFFF#32, 0x00000000#32, 0x00000000#32, 0x00000000#32⟩,
    ⟨"eth.portP.txb.lo", 0x20058, [(8, 1024)], 0x00000000#32, 0x00000000#32, 0xFFFFFFFF#32, 0x00000000#32, 0x00000000#32, 0x00000000#32⟩,
    ⟨"eth.portP.txb.hi", 0x2005C, [(8, 1024)], 0x00000000#32, 0x00000000#32, 0xFFFFFFFF#32, 0x00000000#32, 0x00000000#32, 0x00000000#32⟩,
    ⟨"eth.portP.errC", 0x20060, [(8, 1024), (16, 4)], 0x00000000#32, 0x00000000#32, 0x00000000#32, 0x00000000#32, 0x00000000#32, 0xFFFFFFFF#32⟩,
    ⟨"eth.portP.pauseI.rx", 0x20100, [(8, 1024), (8, 8)], 0x00000000#32, 0x00000000#32, 0xFFFFFFFF#32, 0x00000000#32, 0x00000000#32, 0x00000000#32⟩,
    ⟨"eth.portP.pauseI.tx", 0x20104, [(8, 1024), (8, 8)], 0x00000000#32, 0x00000000#32, 0xFFFFFFFF#32, 0x00000000#32, 0x00000000#32, 0x00000000#32⟩,
    ⟨"mbx.ringN.tail", 0x100000, [(16384, 16)], 0x00000000#32, 0x00000000#32, 0x00000000#32, 0xFFFFFFFF#32, 0x00000000#32, 0x00000000#32⟩,
    ⟨"mbx.ringN.chead", 0x100004, [(16384, 16)], 0x00000000#32, 0x00000000#32, 0x00000000#32, 0xFFFFFFFF#32, 0x00000000#32, 0x00000000#32⟩,
    ⟨"mbx.ringN.stat", 0x100008, [(16384, 16)], 0x00000000#32, 0x00000000#32, 0x00FF7FFF#32, 0x00000000#32, 0x00000000#32, 0x00000000#32⟩ ]

/-- The register blocks of R678, part 2. -/
def windowRegs2 : List RegDef :=
  [ ⟨"mbx.ringN.head", 0x10000C, [(16384, 16)], 0x00000000#32, 0x00000000#32, 0xFFFFFFFF#32, 0x00000000#32, 0x00000000#32, 0x00000000#32⟩,
    ⟨"mbx.load", 0x140000, [], 0x00000000#32, 0x00000000#32, 0x0001FFFF#32, 0x00000000#32, 0x00000000#32, 0x00000000#32⟩,
    ⟨"mbx.shed", 0x140004, [], 0x00000000#32, 0x00000000#32, 0x00000000#32, 0x00000000#32, 0x00000000#32, 0xFFFFFFFF#32⟩,
    ⟨"mbx.ign", 0x140008, [], 0x00000000#32, 0x00000000#32, 0x00000000#32, 0x00000000#32, 0x00000000#32, 0xFFFFFFFF#32⟩,
    ⟨"itg.reruns", 0x50000, [], 0x00000000#32, 0x00000000#32, 0x00000000#32, 0x00000000#32, 0x00000000#32, 0xFFFFFFFF#32⟩,
    ⟨"itg.assay", 0x50004, [], 0x00000000#32, 0x00000000#32, 0x00000000#32, 0x00000000#32, 0x00000000#32, 0xFFFFFFFF#32⟩,
    ⟨"itg.guard", 0x50008, [], 0x00000000#32, 0x00000000#32, 0x00000000#32, 0x00000000#32, 0x00000000#32, 0xFFFFFFFF#32⟩,
    ⟨"itg.hallmark", 0x5000C, [], 0x00000000#32, 0x00000000#32, 0x00000000#32, 0x00000000#32, 0x00000000#32, 0xFFFFFFFF#32⟩,
    ⟨"itg.touch", 0x50010, [], 0x00000000#32, 0x00000000#32, 0x00000000#32, 0x00000000#32, 0x00000000#32, 0xFFFFFFFF#32⟩,
    ⟨"itg.auth", 0x50014, [], 0x00000000#32, 0x00000000#32, 0x00000000#32, 0x00000000#32, 0x00000000#32, 0x0000FFFF#32⟩,
    ⟨"hlt.hw", 0x200000, [], 0x00000000#32, 0x00000000#32, 0xFFFFFF03#32, 0x00000000#32, 0x00000000#32, 0x00000000#32⟩,
    ⟨"hlt.resets", 0x200004, [], 0x00000000#32, 0x00000000#32, 0x00000000#32, 0x00000000#32, 0x00000000#32, 0xFFFFFFFF#32⟩,
    ⟨"hlt.recov", 0x200008, [], 0x00000000#32, 0x00000000#32, 0x0000000F#32, 0x00000000#32, 0x00000000#32, 0xFFFF0000#32⟩,
    ⟨"hlt.pm", 0x20000C, [], 0x00000000#32, 0x00000000#32, 0x0000FFFF#32, 0x00000000#32, 0x00000000#32, 0xFFFF0000#32⟩,
    ⟨"hlt.pat.regionN", 0x200100, [(48, 4)], 0x00000000#32, 0x00000000#32, 0x0007FFFF#32, 0x00000000#32, 0x00000000#32, 0x00000000#32⟩,
    ⟨"hlt.pat.stackN", 0x200200, [(56, 4)], 0x00000000#32, 0x00000000#32, 0x0007FFFF#32, 0x00000000#32, 0x00000000#32, 0x00000000#32⟩,
    ⟨"hlt.pat.portN", 0x200300, [(8, 4)], 0x00000000#32, 0x00000000#32, 0x0007FFFF#32, 0x00000000#32, 0x00000000#32, 0x00000000#32⟩,
    ⟨"hlt.pat.hwN", 0x200320, [(2, 4)], 0x00000000#32, 0x00000000#32, 0x0007FFFF#32, 0x00000000#32, 0x00000000#32, 0x00000000#32⟩,
    ⟨"hlt.pat.coreC", 0x210000, [(13056, 4)], 0x00000000#32, 0x00000000#32, 0x0007FFFF#32, 0x00000000#32, 0x00000000#32, 0x00000000#32⟩,
    ⟨"rgn.pwr.vset", 0x40000, [(48, 256)], 0x001402EE#32, 0x001F03FF#32, 0x00000000#32, 0x00000000#32, 0x00000000#32, 0x00000000#32⟩,
    ⟨"rgn.pwr.ctl", 0x40004, [(48, 256)], 0x00000000#32, 0x00000001#32, 0x00000006#32, 0x00000000#32, 0x00000000#32, 0x00000000#32⟩,
    ⟨"rgn.pwr.status", 0x40008, [(48, 256)], 0x00000000#32, 0x00000000#32, 0x00000000#32, 0x00000000#32, 0x0000001F#32, 0xFFFF0000#32⟩,
    ⟨"rgn.pwr.meas", 0x4000C, [(48, 256)], 0x00000000#32, 0x00000000#32, 0xFFFFFFFF#32, 0x00000000#32, 0x00000000#32, 0x00000000#32⟩,
    ⟨"rgn.pwr.vmin", 0x40010, [(48, 256)], 0x00000000#32, 0x00000000#32, 0x0000FFFF#32, 0x00000000#32, 0x00000000#32, 0x00000000#32⟩ ]

/-- The register blocks of R678, part 3. -/
def windowRegs3 : List RegDef :=
  [ ⟨"rgn.clk.src", 0x40020, [(48, 256)], 0x0000034B#32, 0x000000FF#32, 0xFFFF1F00#32, 0x00000000#32, 0x00000000#32, 0x00000000#32⟩,
    ⟨"rgn.thm.temp", 0x40030, [(48, 256)], 0x00000000#32, 0x00000000#32, 0x000FFFFF#32, 0x00000000#32, 0x00000000#32, 0x00000000#32⟩,
    ⟨"rgn.thm.thr", 0x40034, [(48, 256)], 0x007D7369#32, 0x000000FF#32, 0x00FFFF00#32, 0x00000000#32, 0x00000000#32, 0x00000000#32⟩,
    ⟨"rgn.thm.status", 0x40038, [(48, 256)], 0x00000000#32, 0x00000000#32, 0xFFFF0007#32, 0x00000000#32, 0x00000000#32, 0x00000000#32⟩,
    ⟨"pwr.in", 0x30000, [], 0x00000000#32, 0x00000000#32, 0xFFFFFFFF#32, 0x00000000#32, 0x00000000#32, 0x00000000#32⟩,
    ⟨"pwr.bus", 0x30004, [], 0x00000000#32, 0x00000000#32, 0xFFFFFFFF#32, 0x00000000#32, 0x00000000#32, 0x00000000#32⟩,
    ⟨"pwr.budget", 0x30008, [], 0x00004650#32, 0x00000000#32, 0xFFFFFFFF#32, 0x00000000#32, 0x00000000#32, 0x00000000#32⟩,
    ⟨"pwr.cool", 0x3000C, [], 0x00000000#32, 0x00000000#32, 0xFFFFFFFF#32, 0x00000000#32, 0x00000000#32, 0x00000000#32⟩,
    ⟨"pwr.status", 0x30010, [], 0x00000000#32, 0x00000000#32, 0x00000000#32, 0x00000000#32, 0x0000001F#32, 0x00000000#32⟩,
    ⟨"brg.id", 0x0, [], 0x00000000#32, 0x00000000#32, 0x0000001F#32, 0x00000000#32, 0x00000000#32, 0x00000000#32⟩,
    ⟨"brg.go", 0x4, [], 0x00000000#32, 0x00000000#32, 0x00000000#32, 0xFFFFFFFF#32, 0x00000000#32, 0x00000000#32⟩,
    ⟨"brg.step", 0x8, [], 0x00000000#32, 0x00000000#32, 0xFFFF3F7F#32, 0x00000000#32, 0x00000000#32, 0x00000000#32⟩,
    ⟨"brg.bist", 0xC, [], 0x00000000#32, 0x00000000#32, 0x3FFFFFFF#32, 0x00000000#32, 0x00000000#32, 0x00000000#32⟩,
    ⟨"brg.fw", 0x10, [], 0x00000000#32, 0x03FFFF03#32, 0x00000000#32, 0x00000000#32, 0x00000000#32, 0x00000000#32⟩,
    ⟨"brg.ring0.wordW", 0x40, [(16, 4)], 0x00000000#32, 0xFFFFFFFF#32, 0x00000000#32, 0x00000000#32, 0x00000000#32, 0x00000000#32⟩,
    ⟨"brg.ring0.out0", 0x80, [], 0x00000000#32, 0x00000000#32, 0xFFFFFFFF#32, 0x00000000#32, 0x00000000#32, 0x00000000#32⟩,
    ⟨"brg.ring0.out1", 0x84, [], 0x00000000#32, 0x00000000#32, 0x000FFFFF#32, 0x00000000#32, 0x00000000#32, 0x00000000#32⟩,
    ⟨"brg.ring0.out2", 0x88, [], 0x00000000#32, 0x00000000#32, 0xFFFFFFFF#32, 0x00000000#32, 0x00000000#32, 0x00000000#32⟩,
    ⟨"brg.ring0.out3", 0x8C, [], 0x00000000#32, 0x00000000#32, 0xFFFFFFFF#32, 0x00000000#32, 0x00000000#32, 0x00000000#32⟩,
    ⟨"brg.ring0.out4", 0x90, [], 0x00000000#32, 0x00000000#32, 0x00FFFFFF#32, 0x00000000#32, 0x00000000#32, 0x00000000#32⟩,
    ⟨"wfr.dist.lo", 0x1120, [], 0x00000000#32, 0x00000000#32, 0xFFFFFFFF#32, 0x00000000#32, 0x00000000#32, 0x00000000#32⟩,
    ⟨"wfr.dist.hi", 0x1124, [], 0x00000000#32, 0x00000000#32, 0xFFFFFFFF#32, 0x00000000#32, 0x00000000#32, 0x00000000#32⟩ ]

/-- The register blocks of R678. -/
def windowRegs : List RegDef := windowRegs0 ++ windowRegs1 ++ windowRegs2 ++ windowRegs3

/-- The sideband register map (R738, R741), part 0. -/
def sidebandRegs0 : List RegDef :=
  [ ⟨"sbd.id", 0x0, [], 0x00004256#32, 0x00000000#32, 0x003FFFFF#32, 0x00000000#32, 0x00000000#32, 0x00000000#32⟩,
    ⟨"sbd.state", 0x4, [], 0x00000000#32, 0x00000000#32, 0x0000001F#32, 0x00000000#32, 0x00000000#32, 0xFFFF0000#32⟩,
    ⟨"sbd.alert", 0x8, [], 0x00000000#32, 0x00000000#32, 0x00000000#32, 0x00000000#32, 0x000001FF#32, 0x00000000#32⟩,
    ⟨"sbd.mask", 0xC, [], 0x000001F7#32, 0x000001FF#32, 0x00000000#32, 0x00000000#32, 0x00000000#32, 0x00000000#32⟩,
    ⟨"sbd.ctl", 0x10, [], 0x00000000#32, 0x00000000#32, 0x00000000#32, 0xFFFFFFFF#32, 0x00000000#32, 0x00000000#32⟩,
    ⟨"sbd.budget", 0x14, [], 0x00004650#32, 0x0000FFFF#32, 0x00000000#32, 0x00000000#32, 0x00000000#32, 0x00000000#32⟩,
    ⟨"sbd.therm", 0x18, [], 0x00000000#32, 0x00000000#32, 0x0000FFFF#32, 0x00000000#32, 0x00000000#32, 0x00000000#32⟩,
    ⟨"sbd.eqP", 0x40, [(8, 4)], 0x00000003#32, 0x00000007#32, 0x00000000#32, 0x00000000#32, 0x00000000#32, 0x00000000#32⟩ ]

/-- The sideband register map (R738, R741). -/
def sidebandRegs : List RegDef := sidebandRegs0

/-- Whether distance `d` from a row's first copy is that of some copy. -/
def regMatch : List (Nat × Nat) → Nat → Bool
  | [], d => d == 0
  | (c, st) :: t, d => if t.isEmpty then d % st == 0 && decide (d / st < c) else decide (d / st < c) && regMatch t (d % st)

/-- The row of the map that holds offset `off`. -/
def regFind (tbl : List RegDef) (off : Nat) : Option RegDef :=
  tbl.find? fun r => decide (r.base ≤ off) && regMatch r.dims (off - r.base)

end Sys2Proof.Machine
end

