-- ==== Sys2Proof/Machine/Flags.lean ====
section
/-! DEFINITION. Bit fields, sticky flags and saturating counts: how the hardware changes a register (R17, R19, R20). -/

namespace Sys2Proof.Machine

/-- Bits [hi:lo] of a word as a number. -/
def fld (w : Word) (hi lo : Nat) : Nat := (w.toNat / 2 ^ lo) % 2 ^ (hi + 1 - lo)

/-- Bit k of a word. -/
def bit (w : Word) (k : Nat) : Bool := w.getLsbD k

/-- A word of ones at bits [hi:lo]. -/
def onesAt (hi lo : Nat) : Word := BitVec.ofNat 32 ((2 ^ (hi + 1 - lo) - 1) * 2 ^ lo)

/-- The word with bits [hi:lo] replaced by the low bits of v. -/
def setFld (w : Word) (hi lo v : Nat) : Word :=
  (w &&& ~~~(onesAt hi lo)) ||| (BitVec.ofNat 32 (v % 2 ^ (hi + 1 - lo) * 2 ^ lo))

/-- One bit as a word. -/
def bitW (k : Nat) (b : Bool) : Word := if b then BitVec.ofNat 32 (2 ^ k) else 0#32

/-- A number clipped to its greatest value. -/
def satTo (m n : Nat) : Nat := if n > m then m else n

/-- Sign extension of a field of w bits to a number. -/
def sextNat (w v : Nat) : Int := if v % 2 ^ w < 2 ^ (w - 1) then (v % 2 ^ w : Nat) else ((v % 2 ^ w : Nat) : Int) - 2 ^ w

/-- The stored word of a register: what was written, or the reset value of its map row. -/
def regRaw (tbl : List RegDef) (m : Map Word) (off : Nat) : Word :=
  mgetD m off (((regFind tbl off).map RegDef.reset).getD 0#32)

/-- A register changed by a function of its stored word. -/
def regUpd (tbl : List RegDef) (m : Map Word) (off : Nat) (f : Word → Word) : Map Word :=
  mset m off (f (regRaw tbl m off))

/-- Sticky flags set by the hardware. -/
def regSetBits (tbl : List RegDef) (m : Map Word) (off : Nat) (mask : Word) : Map Word :=
  regUpd tbl m off (fun w => w ||| mask)

/-- A field [hi:lo] set by the hardware. -/
def regSetFld (tbl : List RegDef) (m : Map Word) (off hi lo v : Nat) : Map Word :=
  regUpd tbl m off (fun w => setFld w hi lo v)

/-- A count in [hi:lo] raised by n, saturating at its greatest value. -/
def regCount (tbl : List RegDef) (m : Map Word) (off hi lo n : Nat) : Map Word :=
  regUpd tbl m off (fun w => setFld w hi lo (satTo (2 ^ (hi + 1 - lo) - 1) (fld w hi lo + n)))

/-- What a read returns of a stored word: the fields of codes RW, RO, W1C and RC; WO fields read zero (R17); the
reserved bits are those of the free word (R18). -/
def regReadVal (r : RegDef) (stored free : Word) : Word :=
  let shown := r.rw ||| r.ro ||| r.w1c ||| r.rc
  let known := shown ||| r.wo
  (stored &&& shown) ||| (free &&& ~~~known)

/-- The stored word after a read: RC fields cleared (R17, R20). -/
def regAfterRead (r : RegDef) (stored : Word) : Word := stored &&& ~~~r.rc

/-- The stored word after a write: RW fields set, W1C bits cleared by ones, the rest kept (R17). -/
def regAfterWrite (r : RegDef) (stored val : Word) : Word :=
  ((stored &&& ~~~r.rw) ||| (val &&& r.rw)) &&& ~~~(val &&& r.w1c)

end Sys2Proof.Machine
end

