-- ==== Sys2Proof/Config.lean ====
section
/-! DEFINITION. What the spec leaves open: constants with no body, so that no proof can see their values. -/

namespace Sys2Proof.Config

/-- The free values: the value the spec calls undefined at the n-th place that takes one (R18, R111, R186, R754).
DESIGN CHOICE, log entry 7. -/
opaque freeWord : Nat → BitVec 32

/-- The correctly rounded value of function code `op` of R157 at `x` where the enclosures of the model do not decide it.
DESIGN CHOICE, log entry 9. -/
opaque undecidedFn : Nat → BitVec 32 → BitVec 32

/-- The cryptographic functions answer byte strings of the lengths that their standards give them; the bytes are uninterpreted. -/
def sized (n : Nat) (l : List (BitVec 8)) : List (BitVec 8) := (l ++ List.replicate n 0#8).take n

/-- SHAKE256 of FIPS 202: a message and an output length in bytes. DESIGN CHOICE, log entry 10. -/
opaque shakeBytes : List (BitVec 8) → Nat → List (BitVec 8)
def shake256 (m : List (BitVec 8)) (n : Nat) : List (BitVec 8) := sized n (shakeBytes m n)

/-- KMAC256 of SP 800-185: key, message, output length in bytes, customisation string. DESIGN CHOICE, log entry 10. -/
opaque kmacBytes : List (BitVec 8) → List (BitVec 8) → Nat → String → List (BitVec 8)
def kmac256 (key m : List (BitVec 8)) (n : Nat) (custom : String) : List (BitVec 8) := sized n (kmacBytes key m n custom)

/-- Ed448 verification of RFC 8032: whether the message is prehashed, public key, context, message, signature. DESIGN CHOICE,
log entry 10. -/
opaque ed448Verify : Bool → List (BitVec 8) → String → List (BitVec 8) → List (BitVec 8) → Bool

/-- Ed448 signing: private key, context, message. DESIGN CHOICE, log entry 10. -/
opaque signBytes : List (BitVec 8) → String → List (BitVec 8) → List (BitVec 8)
def ed448Sign (key : List (BitVec 8)) (context : String) (m : List (BitVec 8)) : List (BitVec 8) := sized 114 (signBytes key context m)

/-- The X448 function of RFC 7748: scalar, point. DESIGN CHOICE, log entry 10. -/
opaque x448Bytes : List (BitVec 8) → List (BitVec 8) → List (BitVec 8)
def x448 (k u : List (BitVec 8)) : List (BitVec 8) := sized 56 (x448Bytes k u)

/-- The bring-up engine's boot ROM (R670, R713). DESIGN CHOICE, log entry 10. -/
opaque bootRom : List (BitVec 8)

/-- Pyrvagus's MIPI manufacturer identifier, 15 bits (R736 does not give it). DESIGN CHOICE, log entry 7. -/
opaque mipiId : Nat

/-- The seed in `asy.seed` of a job (R577 does not say how it is derived from JOB), by job number. DESIGN CHOICE, log entry 7. -/
opaque jobSeed : BitVec 32 → BitVec 32

/-- Where the heartwood places a thing in its reserve: a 4 KiB page number, by the thing's number (R42). DESIGN CHOICE, log
entry 7. -/
opaque layout : Nat → Nat

end Sys2Proof.Config
end

