-- ==== Sys2Proof/Machine/Numeric.lean ====
section
/-! DEFINITION. Exact numbers, the operand formats and their rounding (file 02 of the spec). -/

namespace Sys2Proof.Machine

/-- An exact value: NaN, an infinity, or (-1)^neg * (n / d) * 2^e with d > 0; n = 0 is the zero of that sign (R44, R48). -/
inductive Num where
  | nan
  | inf (neg : Bool)
  | fin (neg : Bool) (n d : Nat) (e : Int)
  deriving DecidableEq, Repr

/-- The operand formats by their format codes 0x0 to 0xB (R44, R99). -/
inductive Fmt where
  | fp32 | fp16 | bf16 | f8e4 | f8e5 | f6e3 | f6e2 | f4e2 | i8 | i4 | t5 | l4
  deriving DecidableEq, Repr

/-- The format of a code; 0xC to 0xF are reserved (R99). -/
def fmtOfCode (c : Nat) : Option Fmt :=
  match c with
  | 0 => some .fp32 | 1 => some .fp16 | 2 => some .bf16 | 3 => some .f8e4
  | 4 => some .f8e5 | 5 => some .f6e3 | 6 => some .f6e2 | 7 => some .f4e2
  | 8 => some .i8 | 9 => some .i4 | 10 => some .t5 | 11 => some .l4
  | _ => none

/-- The geometry of a floating-point format: width, mantissa bits, bias, greatest significand and its exponent,
whether it has infinities and NaN, and its canonical NaN (R44, R46). -/
structure FloatGeom where
  mbits : Nat
  ebits : Nat
  bias  : Nat
  maxK  : Nat
  maxE  : Int
  hasInf : Bool
  hasNan : Bool
  canon : Nat
  deriving DecidableEq, Repr

/-- The table of R44 and R46; none for the formats that are not floating point. -/
def floatGeom (f : Fmt) : Option FloatGeom :=
  match f with
  | .fp32 => some ⟨23, 8, 127, 16777215, 104, true, true, 0x7FC00000⟩
  | .fp16 => some ⟨10, 5, 15, 2047, 5, true, true, 0x7E00⟩
  | .bf16 => some ⟨7, 8, 127, 255, 120, true, true, 0x7FC0⟩
  | .f8e4 => some ⟨3, 4, 7, 14, 5, false, true, 0x7F⟩
  | .f8e5 => some ⟨2, 5, 15, 7, 13, true, true, 0x7E⟩
  | .f6e3 => some ⟨2, 3, 3, 7, 2, false, false, 0⟩
  | .f6e2 => some ⟨3, 2, 1, 15, -1, false, false, 0⟩
  | .f4e2 => some ⟨1, 2, 1, 3, 1, false, false, 0⟩
  | _ => none

/-- The value of a floating-point code (R44, R46). -/
def decodeFloat (f : Fmt) (g : FloatGeom) (code : Nat) : Num :=
  let m := code % 2 ^ g.mbits
  let ex := (code / 2 ^ g.mbits) % 2 ^ g.ebits
  let neg := (code / 2 ^ (g.mbits + g.ebits)) % 2 == 1
  let top := 2 ^ g.ebits - 1
  if f = .f8e4 then
    if ex = 15 ∧ m = 7 then .nan
    else if ex = 0 then .fin neg m 1 (1 - g.bias - g.mbits)
    else .fin neg (m + 2 ^ g.mbits) 1 (ex - g.bias - g.mbits)
  else if g.hasInf ∧ ex = top then (if m = 0 then .inf neg else .nan)
  else if ex = 0 then .fin neg m 1 (1 - (g.bias : Int) - g.mbits)
  else .fin neg (m + 2 ^ g.mbits) 1 ((ex : Int) - g.bias - g.mbits)

/-- The magnitudes of L4 as significand and exponent (R53). -/
def l4Mag (c : Nat) : Nat × Int :=
  match c % 8 with
  | 0 => (0, 0) | 1 => (1, -3) | 2 => (181, -10) | 3 => (1, -2)
  | 4 => (181, -9) | 5 => (1, -1) | 6 => (181, -8) | _ => (1, 0)

/-- Two's complement value of a w-bit code (R50). -/
def signedOf (w code : Nat) : Int :=
  let c := code % 2 ^ w
  if c < 2 ^ (w - 1) then (c : Int) else (c : Int) - 2 ^ w

/-- An integer as an exact value times 2^e. -/
def numOfInt (z : Int) (e : Int) : Num := .fin (decide (z < 0)) z.natAbs 1 e

/-- The value of an element code; a T5 code is its trit digit 0, 1 or 2 (R50, R51, R53). -/
def decodeElem (f : Fmt) (scaled : Bool) (code : Nat) : Num :=
  match f with
  | .i8 => numOfInt (signedOf 8 code) (if scaled then -6 else 0)
  | .i4 => numOfInt (signedOf 4 code) (if scaled then -2 else 0)
  | .t5 => if code = 1 then .fin false 1 1 0 else if code = 2 then .fin true 1 1 0 else .fin false 0 1 0
  | .l4 => let (k, e) := l4Mag code; .fin (decide (code % 16 ≥ 8)) k 1 e
  | f =>
    match floatGeom f with
    | some g => decodeFloat f g code
    | none => .nan

/-- The width in bits of an element; T5 packs five to a byte (R44). -/
def fmtBits (f : Fmt) : Nat :=
  match f with
  | .fp32 => 32 | .fp16 => 16 | .bf16 => 16 | .f8e4 => 8 | .f8e5 => 8 | .f6e3 => 6 | .f6e2 => 6
  | .f4e2 => 4 | .i8 => 8 | .i4 => 4 | .t5 => 8 | .l4 => 4

/-- The block length of a format's scales (R56); 0 where it has none. -/
def blockLen (f : Fmt) : Nat :=
  match f with
  | .t5 => 64 | .l4 => 64 | .fp32 => 0 | .fp16 => 0 | .bf16 => 0 | _ => 32

/-- The value of a scale byte: E8M0, or F8E4 for T5 and L4 (R56 to R58). -/
def decodeScale (f : Fmt) (b : Nat) : Num :=
  match f with
  | .t5 => decodeElem .f8e4 false b
  | .l4 => decodeElem .f8e4 false b
  | _ => if b = 255 then .nan else .fin false 1 1 ((b : Int) - 127)

/-- Whether the value is a zero. -/
def Num.isZero : Num → Bool
  | .fin _ n _ _ => n == 0
  | _ => false

/-- The value with its sign inverted. -/
def Num.negate : Num → Num
  | .nan => .nan
  | .inf s => .inf (!s)
  | .fin s n d e => .fin (!s) n d e

/-- The exact product; infinity times zero is NaN (R60, R154). -/
def Num.mul : Num → Num → Num
  | .nan, _ => .nan
  | _, .nan => .nan
  | .inf s, .inf t => .inf (s != t)
  | .inf s, .fin t n _ _ => if n = 0 then .nan else .inf (s != t)
  | .fin s n _ _, .inf t => if n = 0 then .nan else .inf (s != t)
  | .fin s n d e, .fin t m c f => .fin (s != t) (n * m) (d * c) (e + f)

/-- The exact sum; an exact zero sum of operands of opposite sign is +0 (R48, R81). -/
def Num.add : Num → Num → Num
  | .nan, _ => .nan
  | _, .nan => .nan
  | .inf s, .inf t => if s = t then .inf s else .nan
  | .inf s, .fin _ _ _ _ => .inf s
  | .fin _ _ _ _, .inf t => .inf t
  | .fin s n d e, .fin t m c f =>
    let lo := min e f
    let a : Nat := n * 2 ^ (e - lo).toNat * c
    let b : Nat := m * 2 ^ (f - lo).toNat * d
    let z : Int := (if s then -(a : Int) else a) + (if t then -(b : Int) else b)
    if z = 0 then .fin (s && t) 0 1 0 else .fin (decide (z < 0)) z.natAbs (d * c) lo

/-- The exact quotient (R154). -/
def Num.div : Num → Num → Num
  | .nan, _ => .nan
  | _, .nan => .nan
  | .inf _, .inf _ => .nan
  | .inf s, .fin t _ _ _ => .inf (s != t)
  | .fin s _ _ _, .inf t => .fin (s != t) 0 1 0
  | .fin s n d e, .fin t m c f =>
    if m = 0 then (if n = 0 then .nan else .inf (s != t))
    else .fin (s != t) (n * c) (d * m) (e - f)

/-- Numeric order of values that are not NaN: -1, 0 or 1; the two zeros are equal. -/
def Num.cmp (x y : Num) : Int :=
  match x, y with
  | .nan, _ => 0
  | _, .nan => 0
  | .inf s, .inf t => if s = t then 0 else if s then -1 else 1
  | .inf s, .fin _ _ _ _ => if s then -1 else 1
  | .fin _ _ _ _, .inf t => if t then 1 else -1
  | .fin s n d e, .fin t m c f =>
    match (Num.add (.fin s n d e) (Num.negate (.fin t m c f))) with
    | .fin neg k _ _ => if k = 0 then 0 else if neg then -1 else 1
    | _ => 0

/-- A rounding mode: to nearest even, or stochastic with a draw r (R63, R66). -/
inductive Rnd where
  | rne
  | sr (r : Nat)
  deriving DecidableEq, Repr

/-- floor (log2 (n / d)) for positive n and d. -/
def floorLog2 (n d : Nat) : Int :=
  let l : Int := (Nat.log2 n : Int) - Nat.log2 d
  let below : Bool := if l ≥ 0 then decide (n < d * 2 ^ l.toNat) else decide (n * 2 ^ (-l).toNat < d)
  if below then l - 1 else l

/-- (n / d) * 2^e in units of 2^u, as numerator and denominator. -/
def inUnits (n d : Nat) (e u : Int) : Nat × Nat :=
  if e ≥ u then (n * 2 ^ (e - u).toNat, d) else (n, d * 2 ^ (u - e).toNat)

/-- N / D rounded to an integer in a mode: a tie goes to the even integer (R65); SR truncates the fraction to 16 bits (R66). -/
def roundNat (N D : Nat) (r : Rnd) : Nat :=
  let k := N / D
  let rem := N % D
  match r with
  | .rne => if 2 * rem > D ∨ (2 * rem = D ∧ k % 2 = 1) then k + 1 else k
  | .sr x => if rem * 65536 / D + x ≥ 65536 then k + 1 else k

/-- Whether (n / d) * 2^e exceeds k * 2^u. -/
def exceeds (n d : Nat) (e : Int) (k : Nat) (u : Int) : Bool :=
  if e ≥ u then decide (n * 2 ^ (e - u).toNat > k * d) else decide (n > k * d * 2 ^ (u - e).toNat)

/-- The arithmetic flags of R87, as bits of `arith.flags`. -/
def flagOvf : Word := 1#32
def flagInfLoss : Word := 2#32
def flagNanLoss : Word := 4#32
def flagBadTrit : Word := 8#32
def flagIntSat : Word := 16#32
def flagScaleNan : Word := 32#32
def flagAccInf : Word := 64#32

/-- A magnitude rounded to a floating-point format: the code without sign, or none where it overflows (R65, R66, R72). -/
def roundMag (g : FloatGeom) (n d : Nat) (e : Int) (r : Rnd) : Option Nat :=
  if n = 0 then some 0
  else
    let emin : Int := 1 - (g.bias : Int)
    let u : Int := max (floorLog2 n d + e) emin - g.mbits
    let nd := inUnits n d e u
    let k := roundNat nd.1 nd.2 r
    let tooBig : Bool :=
      match r with
      | .rne => exceeds k 1 u g.maxK g.maxE
      | .sr _ => exceeds n d e g.maxK g.maxE
    if tooBig then none
    else if k < 2 ^ g.mbits then some k
    else some ((u + g.mbits + g.bias).toNat * 2 ^ g.mbits + (k - 2 ^ g.mbits))

/-- The code of the greatest finite magnitude. -/
def maxFiniteCode (g : FloatGeom) : Nat :=
  (g.maxE + g.mbits + g.bias).toNat * 2 ^ g.mbits + (g.maxK - 2 ^ g.mbits)

/-- The code of infinity, for a format that has one. -/
def infCode (g : FloatGeom) : Nat := (2 ^ g.ebits - 1) * 2 ^ g.mbits

/-- Conversion of an exact value to a floating-point format, with the flags it raises (R71 to R73). -/
def convFloat (f : Fmt) (g : FloatGeom) (x : Num) (r : Rnd) (sat : Bool) : Nat × Word :=
  let sgn (s : Bool) : Nat := if s then 2 ^ (g.mbits + g.ebits) else 0
  match x with
  | .nan => if g.hasNan then (g.canon, 0#32) else (0, flagNanLoss)
  | .inf s =>
    if g.hasInf then (if sat then (sgn s + maxFiniteCode g, 0#32) else (sgn s + infCode g, 0#32))
    else if f = .f8e4 then (if sat then (sgn s + maxFiniteCode g, flagInfLoss) else (g.canon, flagInfLoss))
    else (sgn s + maxFiniteCode g, flagInfLoss)
  | .fin s n d e =>
    let fl := if exceeds n d e g.maxK g.maxE then flagOvf else 0#32
    match roundMag g n d e r with
    | some c => (sgn s + c, fl)
    | none =>
      if f = .f8e4 then (if sat then (sgn s + maxFiniteCode g, fl) else (g.canon, fl))
      else if g.hasInf ∧ ¬ sat then (sgn s + infCode g, fl)
      else (sgn s + maxFiniteCode g, fl)

/-- Conversion to an integer of the range lo to hi, the value taken times 2^sh (R72 to R74). -/
def convInt (lo hi : Int) (sh : Int) (x : Num) (r : Rnd) : Int × Word :=
  match x with
  | .nan => (0, flagNanLoss)
  | .inf s => (if s then lo else hi, flagInfLoss)
  | .fin s n d e =>
    let nd := inUnits n d (e + sh) 0
    let bound : Nat := if s then lo.natAbs else hi.natAbs
    if nd.1 > bound * nd.2 then (if s then lo else hi, flagOvf)
    else
      let k := roundNat nd.1 nd.2 r
      let z : Int := if s then -(k : Int) else k
      (max lo (min hi z), 0#32)

/-- Conversion to T5: the trit digit 0, 1 or 2 (R72, R75). -/
def convT5 (x : Num) (r : Rnd) : Nat × Word :=
  match x with
  | .nan => (0, flagNanLoss)
  | .inf s => (if s then 2 else 1, flagInfLoss)
  | .fin s n d e =>
    let nd := inUnits n d e 0
    if nd.1 > nd.2 then (if s then 2 else 1, flagOvf)
    else
      let k := roundNat nd.1 nd.2 r
      (if k = 0 then 0 else if s then 2 else 1, 0#32)

/-- The magnitude code c of L4 in units of 2^-10. -/
def l4Units (c : Nat) : Nat :=
  match c with
  | 0 => 0 | 1 => 128 | 2 => 181 | 3 => 256 | 4 => 362 | 5 => 512 | 6 => 724 | _ => 1024

/-- The greatest magnitude code of L4 not above N / D units of 2^-10, searched downwards from c. -/
def l4Floor (N D : Nat) : Nat → Nat
  | 0 => 0
  | c + 1 => if l4Units (c + 1) * D ≤ N then c + 1 else l4Floor N D c

/-- Conversion to L4 (R53, R72, R75): ties to the even code. -/
def convL4 (x : Num) (r : Rnd) : Nat × Word :=
  match x with
  | .nan => (0, flagNanLoss)
  | .inf s => ((if s then 8 else 0) + 7, flagInfLoss)
  | .fin s n d e =>
    let nd := inUnits n d e (-10)
    let sg : Nat := if s then 8 else 0
    if nd.1 > 1024 * nd.2 then (sg + 7, flagOvf)
    else
      let c := l4Floor nd.1 nd.2 7
      if c = 7 then (sg + 7, 0#32)
      else
        let gap := l4Units (c + 1) - l4Units c
        let N := nd.1 - l4Units c * nd.2
        let D := gap * nd.2
        let up : Bool :=
          match r with
          | .rne => decide (2 * N > D ∨ (2 * N = D ∧ c % 2 = 1))
          | .sr q => decide (N * 65536 / D + q ≥ 65536)
        (sg + (if up then c + 1 else c), 0#32)

/-- Conversion of an exact value to the code of an element format (R71 to R75). -/
def convElem (f : Fmt) (scaled : Bool) (x : Num) (r : Rnd) (sat : Bool) : Nat × Word :=
  match f with
  | .i8 => let (z, fl) := convInt (-128) 127 (if scaled then 6 else 0) x r; ((z % 256).toNat, fl)
  | .i4 => let (z, fl) := convInt (-8) 7 (if scaled then 2 else 0) x r; ((z % 16).toNat, fl)
  | .t5 => convT5 x r
  | .l4 => convL4 x r
  | f =>
    match floatGeom f with
    | some g => convFloat f g x r sat
    | none => (0, 0#32)

/-- The FP32 value of a word (R44). -/
def num32 (w : Word) : Num := decodeElem .fp32 false w.toNat

/-- The geometry of FP32. -/
def geom32 : FloatGeom := ⟨23, 8, 127, 16777215, 104, true, true, 0x7FC00000⟩

/-- An exact value rounded to FP32 with RNE (R64, R65). -/
def rne32 (x : Num) : Word := BitVec.ofNat 32 (convFloat .fp32 geom32 x .rne false).1

/-- The canonical NaN of FP32 (R46). -/
def nan32 : Word := 0x7FC00000#32

/-- Whether a word is an FP32 NaN. -/
def isNan32 (w : Word) : Bool := decide (w.toNat % 2 ^ 31 > 0x7F800000)

/-- Whether a word is an FP32 infinity. -/
def isInf32 (w : Word) : Bool := decide (w.toNat % 2 ^ 31 = 0x7F800000)

/-- FP32 addition, subtraction, multiplication, division and fused multiply-add (R154). -/
def fadd (a b : Word) : Word := rne32 ((num32 a).add (num32 b))
def fsub (a b : Word) : Word := rne32 ((num32 a).add (num32 b).negate)
def fmul (a b : Word) : Word := rne32 ((num32 a).mul (num32 b))
def fdiv (a b : Word) : Word := rne32 ((num32 a).div (num32 b))
def ffma (a b c : Word) : Word := rne32 (((num32 a).mul (num32 b)).add (num32 c))

/-- FP32 minimum and maximum: NaN if either is NaN, and +0 above -0 (R155). -/
def fmax (a b : Word) : Word :=
  if isNan32 a || isNan32 b then nan32
  else
    let c := (num32 a).cmp (num32 b)
    if c > 0 then a else if c < 0 then b else if a.msb then b else a
def fmin (a b : Word) : Word :=
  if isNan32 a || isNan32 b then nan32
  else
    let c := (num32 a).cmp (num32 b)
    if c < 0 then a else if c > 0 then b else if a.msb then a else b

/-- Clamp to the INT32 range with the INT_SAT flag (R82, R156). -/
def satInt32 (z : Int) : Word × Word :=
  if z > 2147483647 then (0x7FFFFFFF#32, flagIntSat)
  else if z < -2147483648 then (0x80000000#32, flagIntSat)
  else (BitVec.ofInt 32 z, 0#32)

/-- Integer square root of n, bit by bit from bit b downwards. -/
def isqrtFrom (n : Nat) : Nat → Nat → Nat
  | 0, acc => if (acc + 1) * (acc + 1) ≤ n then acc + 1 else acc
  | b + 1, acc =>
    let c := acc + 2 ^ (b + 1)
    isqrtFrom n b (if c * c ≤ n then c else acc)

/-- floor (sqrt n). -/
def isqrt (n : Nat) : Nat := isqrtFrom n (Nat.log2 n / 2) 0

/-- The square root of (n / d) * 2^e kept to 80 bits with a sticky last bit, so that one rounding of it is the correct
rounding of the root. -/
def sqrtMag (n d : Nat) (e : Int) : Num :=
  let k : Nat := 200 + Nat.log2 d
  let par : Int := (e - k) % 2
  let N := n * 2 ^ (k + par.toNat)
  let q := N / d
  let s := isqrt q
  let sticky : Nat := if s * s * d = N then 0 else 1
  .fin false (2 * s + sticky) 1 ((e - k - par) / 2 - 1)

/-- FP32 square root (R154, R157). -/
def fsqrt (a : Word) : Word :=
  match num32 a with
  | .nan => nan32
  | .inf s => if s then nan32 else a
  | .fin s n d e => if n = 0 then a else if s then nan32 else rne32 (sqrtMag n d e)

/-- FP32 reciprocal square root, correctly rounded (R157). -/
def frsqrt (a : Word) : Word :=
  match num32 a with
  | .nan => nan32
  | .inf s => if s then nan32 else 0#32
  | .fin s n d e =>
    if n = 0 then (if s then 0xFF800000#32 else 0x7F800000#32)
    else if s then nan32 else rne32 (sqrtMag d n (-e))

/-- FP32 reciprocal, correctly rounded (R157). -/
def frcp (a : Word) : Word := fdiv 0x3F800000#32 a

/-- The value before the last truncation in the steps of R68, for a seed, a counter and an element index. -/
def srHash (seed ctr : Word) (e : Nat) : Word :=
  let x0 := seed ^^^ (ctr * 0x9E3779B9#32) ^^^ (BitVec.ofNat 32 e * 0x85EBCA6B#32)
  let x1 := x0 ^^^ (x0 >>> 16)
  let x2 := x1 * 0x7FEB352D#32
  let x3 := x2 ^^^ (x2 >>> 15)
  let x4 := x3 * 0x846CA68B#32
  x4 ^^^ (x4 >>> 16)

/-- The draw r of R68. -/
def srDraw (seed ctr : Word) (e : Nat) : Nat := (srHash seed ctr e).toNat % 65536

end Sys2Proof.Machine
end

