-- ==== Sys2Proof/Machine/State.lean ====
section
/-! DEFINITION. The state of the device: every register, memory, queue, mode and pin the spec gives it, as plain data;
the reasons for which a command may stop; the state after reset. -/

namespace Sys2Proof.Machine

/-! ### One core -/

/-- A 32-bit word with the state of its data-path parity: `bad` when its check would fail (R229, R544). -/
structure PWord where
  val : Word
  bad : Bool
  deriving DecidableEq, Repr

/-- A scratchpad write on its way: it commits at the end of cycle `commit` (R211); the words whose parity it stores
inverted, the tarnish it carries, and the rows its operation has with it covered in full untarnished (R234). -/
structure SpadWrite where
  commit : Nat
  client : Nat
  addr   : Nat
  bytes  : List Byte
  bad    : List Nat
  tarn   : Bool
  clears : List Nat
  deriving DecidableEq, Repr

/-- The scratchpad: committed bytes in canonical form, the words with failing parity, the two copies of the tarnish
marks by row (R203), and the writes on their way, in the order in which they commit (R216). -/
structure Spad where
  base  : List Host.Cell
  bad   : List Nat
  tarnA : List Nat
  tarnB : List Nat
  log   : List SpadWrite
  deriving DecidableEq, Repr

/-- A scalar result on its way: register 0 to 15, or 16 + p for predicate p (R251). -/
structure ScalarRes where
  due : Nat
  reg : Nat
  val : PWord
  deriving DecidableEq, Repr

/-- One level of the loop stack (R254): the body's first and last bundle address, the iterations left, whether the
body is longer than 64 bundles, and whether the first iteration is over. -/
structure LoopLevel where
  first  : Nat
  last   : Nat
  left   : Nat
  long   : Bool
  again  : Bool
  deriving DecidableEq, Repr

/-- A holding plane (R100 to R104): the format, scaling, stationarity and K of its latest load, its data as read. -/
structure Plane where
  loaded : Bool
  fmt    : Nat
  scaled : Bool
  stat   : Nat
  k      : Nat
  tarn   : Bool
  data   : List (Byte × Bool)
  scales : List (Byte × Bool)
  deriving DecidableEq, Repr

/-- A matrix operand descriptor as latched at issue (R125, R141). -/
structure MatDesc where
  base    : Nat
  fmt     : Nat
  scaled  : Bool
  stride  : Nat
  sbase   : Nat
  k       : Nat
  sstride : Nat
  deriving DecidableEq, Repr

/-- The matrix operations (R123). -/
inductive MatKind where
  | mmac | mload | mzero | mspill | mfill
  deriving DecidableEq, Repr

/-- An accepted matrix operation until its result (R127 to R140): latched fields, the issue cycle, the cycles in which
its units' reads begin on the A and B lanes, compute start, compute end (plane ready for a load) and result cycle;
`applied` once its values stand in the bank, undefined to readers until the result cycle (R111). -/
structure MatOp where
  kind    : MatKind
  enabled : Bool
  tgt     : Nat
  da      : MatDesc
  db      : MatDesc
  rows    : BitVec 256
  cols    : BitVec 32
  plane   : Nat
  stat    : Nat
  clr     : Bool
  issue   : Nat
  aStart  : List Nat
  bStart  : List Nat
  cstart  : Nat
  cend    : Nat
  result  : Nat
  applied : Bool
  deriving DecidableEq, Repr

/-- What a vector operation writes at its result cycle (R166, R186, R189): elements of tiles (none: not written), the
row status of each tile, a mask register, the count, and the tarnish of each. -/
structure VecRes where
  issue  : Nat
  due    : Nat
  tiles  : List (Nat × List (Option PWord))
  status : List (Nat × List Nat)
  tarn   : Bool
  mask   : Option (Nat × BitVec 256)
  count  : Option Nat
  guards : List (Nat × List (Option Word))
  flags  : Word
  deriving DecidableEq, Repr

/-- A load on its way: the tile is decoded from the bytes at its read cycles when its result is due (R176, R182). -/
structure VecLoad where
  issue   : Nat
  due     : Nat
  enabled : Bool
  tile    : Nat
  base    : Nat
  fmt     : Nat
  scaled  : Bool
  rstride : Nat
  sbase   : Nat
  sstride : Nat
  deriving DecidableEq, Repr

/-- A push into a handle queue that lands in a given cycle (R273, R227). -/
structure HqPush where
  due : Nat
  queue : Nat
  val : Word
  deriving DecidableEq, Repr

/-- A fill of a buffer in progress: the half's address and number and the register words at its first row (R222). -/
structure Fill where
  addr : Nat
  half : Nat
  base : Word
  size : Word
  stored : Bool
  deriving DecidableEq, Repr

/-- An out-stream: its descriptor, the next flit, the first cycle it serves, whether its bundle was enabled (R272). -/
structure OutStream where
  base   : Nat
  stride : Nat
  count  : Nat
  next   : Nat
  start  : Nat
  enabled : Bool
  deriving DecidableEq, Repr

/-- An in-stream (R273); `cover` is the row and half a previous flit of the stream covered untarnished. -/
structure InStream where
  base   : Nat
  stride : Nat
  count  : Nat
  next   : Nat
  start  : Nat
  enabled : Bool
  push   : Option (Nat × Word)
  cover  : Option Nat
  deriving DecidableEq, Repr

/-- A message being received at an endpoint (R307, R308): who sent it, its reply so far, the bytes still to come and
the record placed for it. -/
structure RxMsg where
  code   : Nat
  left   : Nat
  len    : Nat
  hdr0   : Word
  hdr1   : Word
  hdr2   : Word
  skipAt : Option Nat
  skipLen : Nat
  place  : Nat
  newTail : Nat
  tarn   : Bool
  deriving DecidableEq, Repr

/-- The hidden state of an endpoint: the sequence number of the next message, a post in progress with its length and
the cycle of its last packet, the message being received, and its sequence number, HEAD and TAIL at each step boundary, by
step, where the channel was empty there (R303 to R309, R330). -/
structure Endpoint where
  seq     : Nat
  posting : Option Nat
  rx      : Option RxMsg
  saved   : Map (Nat × Nat × Nat)
  deriving DecidableEq, Repr

/-- The kinds of record a part of the device sends to the active heartwood (R344). -/
inductive RecKind where
  | parity | dataParity | guardTrip | pcFault | slotMiss | xsync | badBuf | assay | reqTimeout | checkpoint
  | silent | linkError | hopsDrop | heartbeat | baseBeat | uncorrectable | retrain | repairFull | portRate
  | clock | thermal | supply | skew | crcFour | pageMiss | streamFailed | watchdog
  deriving DecidableEq, Repr

/-- A record: its kind, the unit that sends it and its words. -/
structure Rec where
  kind : RecKind
  src  : Nat
  args : List Nat
  deriving DecidableEq, Repr

/-- A request a source has sent and that has no response yet (R361, R362). -/
structure OutReq where
  tag   : Nat
  sent  : Nat
  what  : Nat
  arg   : Nat
  deriving DecidableEq, Repr

/-- A transfer slot at work (R410, R411). -/
structure Xfer where
  toBurmon : Bool
  addr   : Nat
  spd    : Nat
  len    : Nat
  left   : Nat
  status : Nat
  buf    : Option Nat
  deriving DecidableEq, Repr

/-- A core's pour receiver beside its registers (R691, R692): the pieces that have come by chunk, as a set of bits, the digests
they brought, the cycle of its latest pour packet, the cycle of END, whether the pour repeats from the copy alone. -/
structure PourRx where
  pieces : Map Nat
  digs   : Map (List Byte)
  last   : Nat
  ended  : Option Nat
  copy   : Bool
  deriving DecidableEq, Repr

def PourRx.reset : PourRx := ⟨[], [], 0, none, false⟩

/-- One logical core with its core router and its service engine. -/
structure Core where
  regs      : Map Word
  shadow    : Map Word
  gpr       : Map PWord
  pend      : List ScalarRes
  loops     : List LoopLevel
  pc        : Nat
  nextIssue : Nat
  openAt    : Option Nat
  usedM     : Bool
  usedV     : Bool
  usedX     : Bool
  idle      : Bool
  issued    : Nat
  faultAt   : Option Nat
  rows      : Map (List Byte)
  fetches   : List (Nat × Nat)
  spad      : Spad
  acc       : Map (List PWord)
  accTarn   : BitVec 8
  planes    : Map Plane
  mops      : List MatOp
  laneEnd   : Map Nat
  tiles     : Map (List PWord)
  tileStat  : Map (List Nat)
  tileTarn  : BitVec 32
  masks     : Map (BitVec 256)
  maskTarn  : BitVec 8
  vops      : List VecRes
  vloads    : List VecLoad
  unitFree  : Map Nat
  flagPend  : List (Nat × Word)
  hqs       : Map (List Word)
  hqCyc     : Map (Nat × Nat × Nat)
  hqPend    : List HqPush
  rcvdPend  : List (Nat × Nat)
  fills     : Map Fill
  rdyPend   : List (Nat × Nat × Fill)
  flitQ     : Map (List Flit)
  tokQ      : Map (List Word)
  localTok  : Map (List Word)
  steerOut  : Map Flit
  outs      : Map OutStream
  ins       : Map InStream
  tokin     : List Word
  slots     : Map (BitVec 64)
  launchAt  : Option Nat
  awaiting  : Bool
  sectNext  : Nat
  swapDue   : Bool
  eps       : Map Endpoint
  reqs      : List OutReq
  nextTag   : Nat
  fenceAt   : Option Nat
  held      : List (Packet × Nat × Nat)
  recs      : List Rec
  lastRec   : Option Nat
  outbox    : List Rec
  check     : Bool
  missQ     : List Word
  xfers     : Map Xfer
  pour      : PourRx
  fenced    : Bool
  inReset   : Bool
  deriving DecidableEq, Repr

/-- An empty scratchpad. -/
def Spad.reset : Spad := ⟨[], [], [], [], []⟩

/-- A core as a core reset leaves it (R761, R281, R291). -/
def Core.reset : Core :=
  { regs := [], shadow := [], gpr := [], pend := [], loops := [], pc := 0, nextIssue := 0, openAt := none,
    usedM := false, usedV := false, usedX := false, idle := false, issued := 0, faultAt := none, rows := [], fetches := [],
    spad := Spad.reset, acc := [], accTarn := 0#8, planes := [], mops := [], laneEnd := [], tiles := [],
    tileStat := [], tileTarn := 0#32, masks := [], maskTarn := 0#8, vops := [], vloads := [], unitFree := [],
    flagPend := [], hqs := [], hqCyc := [], hqPend := [], rcvdPend := [], fills := [], rdyPend := [], flitQ := [], tokQ := [], localTok := [], steerOut := [],
    outs := [], ins := [], tokin := [], slots := [], launchAt := none, awaiting := true, sectNext := 0, swapDue := false, eps := [],
    reqs := [], nextTag := 0, fenceAt := none, held := [], recs := [], lastRec := none, outbox := [], check := false, missQ := [], xfers := [],
    pour := PourRx.reset, fenced := false, inReset := false }

/-! ### The service network -/

/-- A packet in a router's input buffer: the branches it still has to take (multicast), the reserved flits it holds, the
cycle in which it came, and the router and port that sent it (R351, R352, R369). -/
structure BufPkt where
  pkt      : Packet
  branches : List Nat
  locals   : List Nat
  res      : Nat
  since    : Nat
  up       : Option (Nat × Nat)
  deriving DecidableEq, Repr

/-- A router: registers, input buffers by 8 * port + virtual channel, the flits of the next router's buffer in use by
8 * port + virtual channel (ordinary, reserved), the last choice of each output, MISSED packets not yet sent by
1024 * port + group (first, count), and barrier counts awaited (R334 to R376). -/
structure Router where
  regs   : Map Word
  shadow : Map Word
  bufs   : Map (List BufPkt)
  used   : Map (Nat × Nat)
  last   : Map Nat
  missed : Map (Nat × Nat)
  deriving DecidableEq, Repr

def Router.reset : Router := ⟨[], [], [], [], [], []⟩

/-- Credits on their way back to a router (R352). -/
structure CreditBack where
  due    : Nat
  router : Nat
  port   : Nat
  vc     : Nat
  ord    : Nat
  res    : Nat
  deriving DecidableEq, Repr

/-- The heartwood's record of a multicast group: the PART that owns it and its member cores (R363, R368). -/
structure Group where
  part    : Nat
  members : List Nat
  deriving DecidableEq, Repr

/-! ### Burmon memory -/

/-- A stream context (R394 to R422). `words` is the descriptor; `sent` counts the chunks sent, `seqDue` that the sequence
word of a fill comes next, `hqpDue` that the HQP of a fill comes next, `mseq` the packets of a shared stream. -/
structure StreamCtx where
  part    : Option Nat
  words   : List Word
  state   : Nat
  reason  : Nat
  credOvf : Bool
  tarn    : Bool
  credits : Nat
  pos     : Nat
  sent    : Nat
  page    : Nat
  mseq    : Nat
  seqDue  : Bool
  hqpDue  : Bool
  haltAt  : Nat
  deriving DecidableEq, Repr

def StreamCtx.reset : StreamCtx := ⟨none, [], 0, 0, false, false, 0, 0, 0, 0, 0, false, false, 0⟩

/-- A stack: registers, contents in canonical form by stack offset, tarnished blocks, corrected blocks that await their
write-back, the merge table with the latest entry last, stream contexts, the refresh position of each channel pair, the
scrub pass in which each row was last corrected, rows to repair, spare rows in use by bank, the rows repaired, the pair in
training and its end, the requests of its streams that await a response, the blocks corrected so far, and how many thousands of
them patina has counted. -/
structure Stack where
  regs    : Map Word
  shadow  : Map Word
  mem     : List Host.Cell
  tarn    : List Nat
  wback   : List Nat
  merge   : List (Nat × Nat)
  ctxs    : Map StreamCtx
  refr    : Map Nat
  rowErr  : Map Nat
  toFix   : List Nat
  spares  : Map Nat
  fixed   : List Nat
  trainBy : Option Nat
  reqs    : List OutReq
  nextTag : Nat
  corr    : Nat
  told    : Nat
  deriving DecidableEq, Repr

def Stack.reset : Stack := ⟨[], [], [], [], [], [], [], [], [], [], [], [], none, [], 0, 0, 0⟩

/-! ### The timebase -/

/-- A master heard on a port: clock identity, data set in the order of the best master algorithm, Announce and Sync
intervals (log 2 of seconds), the announce receipt timeout, Announce messages heard, and the cycles of the latest (R435,
R436, R439). -/
structure Master where
  ident    : Nat
  dataset  : List Nat
  annLog   : Int
  timeout  : Nat
  heard    : Nat
  lastAnn  : Nat
  syncLog  : Int
  lastSync : Nat
  deriving DecidableEq, Repr

/-- A frame clock's position: the latest frame and line reported (R445). -/
structure FrameClk where
  frame : Nat
  line  : Nat
  held  : Bool
  deriving DecidableEq, Repr

/-- A booked event (R446). -/
structure Booked where
  id   : Nat
  kind : BookKind
  time : Nat
  deriving DecidableEq, Repr

/-- The timebase unit. The map: anchor `d0` in device time, `p0` in units of 2^-40 ns, `rate` in 2^-40 ns per cyc (R432);
whether it is set; the valid Syncs kept for the measured rate (device time, PTP ns); the latest 16 offsets; consecutive small
offsets; masters by port; the ports on which Syncs have lapsed; the serving port; the latest grandmaster served; the hold timer; the bound ERR at the last discipline; PPS; the path delay and
the messages of a measurement; frame clocks; booked events; targets out of alignment. -/
structure Timebase where
  d0       : Nat
  p0       : Int
  rate     : Nat
  isSet    : Bool
  syncs    : List (Nat × Int)
  offs     : List Nat
  small    : Nat
  masters  : Map (List Master)
  silent   : List Nat
  serving  : Option Nat
  gm       : Option Nat
  held     : Nat
  heldFrom : Option Nat
  errBase  : Nat
  errFrom  : Nat
  ppsOn    : Bool
  ppsLast  : Nat
  ppsOffs  : List Nat
  delay    : Int
  twoStep  : Option (Nat × Nat × Nat)
  t1       : Int
  t2       : Int
  t3       : Option Int
  clocks   : Map FrameClk
  events   : List Booked
  nextEv   : Nat
  lost     : List Nat
  deriving DecidableEq, Repr

/-- After power-up: no time is known, the rate is the nominal one (R437, R454). -/
def Timebase.reset : Timebase :=
  { d0 := 0, p0 := 0, rate := 0xA000000000, isSet := false, syncs := [], offs := [], small := 0, masters := [], silent := []
    serving := none, gm := none, held := 0, heldFrom := none, errBase := 0xFFFFFFFF, errFrom := 0, ppsOn := false, ppsLast := 0
    ppsOffs := [], delay := 0, twoStep := none, t1 := 0, t2 := 0, t3 := none, clocks := [], events := [], nextEv := 0
    lost := [] }
/-! ### Ports and queue pairs -/

/-- A dyadic rational, num / 2^exp: the exact rates and factors of R476. -/
structure Dyad where
  num : Nat
  exp : Nat
  deriving DecidableEq, Repr

/-- A port beside its registers: the mode it trained in, with its C2M preset (R734); outstanding bring-up requests as (source address, cycle); READY owed
at lock, and the times of its repeats; receive occupancy and PFC repeats due by priority; pauses by priority: their ends, the
cycle since which they hold without a break, and the last pause while the watchdog makes it ignore them; the frames queued by
priority; its requests to the service network; how each error counter grew since `since`; fenced by the removal path
(R456 to R490). -/
structure Port where
  mode    : Nat
  preset  : Nat
  brup    : List (Nat × Nat)
  annOwed : Bool
  repeats : List Nat
  occ     : Map Nat
  pfcNext : Map Nat
  pauses  : Map Nat
  heldBy  : Map Nat
  ignored : Map Nat
  txq     : Map (List Nat)
  reqs    : List OutReq
  resend  : List (Packet × Nat)
  nextTag : Nat
  grown   : Map Nat
  since   : Nat
  deriving DecidableEq, Repr

def Port.reset : Port := ⟨0, 0, [], false, [], [], [], [], [], [], [], [], [], 0, [], 0⟩

/-- A packet a requester has sent and that is not acknowledged: its PSN and the bytes of its frame (R481). -/
structure SentPkt where
  psn : Nat
  len : Nat
  deriving DecidableEq, Repr

/-- A READ being answered: the PSN of the request, where it reads and how much, the bytes that came, and whether the first
range has come (R521). -/
structure ReadJob where
  psn  : Nat
  addr : Nat
  len  : Nat
  got  : Map (List Byte)
  bad  : Bool
  deriving DecidableEq, Repr

/-- A queue pair (R477 to R483, R535): where it belongs, its parameters, both sequence numbers, what is unacknowledged, the
retries left, the write in progress, acknowledgements owed, reads being answered, doorbell writes as (ring, of CHEAD, value), its error state with the syndrome, and the
congestion state of R476. `seqTx`, `seqRx` number its job messages (R615, R616). -/
structure Qp where
  part    : Nat
  port    : Nat
  prio    : Nat
  mtu     : Nat
  timeout : Nat
  retry   : Nat
  rnrRetry : Nat
  remote  : Nat
  rqp     : Nat
  psn     : Nat
  epsn    : Nat
  una     : List SentPkt
  left    : Nat
  rnrLeft : Nat
  sentAt  : Nat
  rnrAt   : Option Nat
  nakSent : Bool
  wrAt    : Option (Nat × Nat)
  owed    : List Nat
  reads   : List ReadJob
  err     : Bool
  synd    : Nat
  rc      : Dyad
  rt      : Dyad
  alpha   : Dyad
  quiet   : Nat
  rateDue : Nat
  cnpAt   : Option Nat
  bells   : List (Nat × Bool × Nat)
  seqTx   : Nat
  seqRx   : Nat
  deriving DecidableEq, Repr

/-- A memory key (R536); `ring` for the doorbell key of a ring pair (R533). -/
structure MemKey where
  part  : Nat
  addr  : Nat
  bytes : Nat
  read  : Bool
  write : Bool
  ring  : Option Nat
  deriving DecidableEq, Repr

/-! ### The mailbox -/

/-- A command in flight (R505): position, record, and its outcome once it is judged and done: status,
handle, result; whether it has started; the session whose credit an admitted `submit` holds. -/
structure Flight where
  pos   : Nat
  words : List Word
  done  : Option (Nat × Word × List Word)
  begun : Bool
  sess  : Option Nat
  deriving DecidableEq, Repr

/-- A ring pair (R495 to R506, R533, R539): scope, sizes, addresses, queue pair, the index of its doorbell key, positions,
state, commands in flight, events counted, events not delivered, and the positions of its events beyond CHEAD. -/
structure Ring where
  part   : Nat
  clog   : Nat
  qlog   : Nat
  events : Bool
  cmd    : Nat
  cq     : Nat
  cqKey  : Word
  qp     : Nat
  dbKey  : Nat
  tail   : Nat
  head   : Nat
  cpos   : Nat
  chead  : Nat
  err    : Bool
  dbBad  : Bool
  cqErr  : Bool
  flight : List Flight
  evSeq  : Nat
  lost   : Nat
  evAt   : List Nat
  ending : Option (Nat × Nat)
  deriving DecidableEq, Repr

/-- A buffer in device memory (R517), and the request that reserves it. -/
structure HostBuf where
  part  : Nat
  addr  : Nat
  bytes : Nat
  held  : Option (Nat × Nat)
  deriving DecidableEq, Repr

/-- A session (R525), and the close-session that waits for its requests. -/
structure Session where
  part    : Nat
  prog    : Nat
  clock   : Nat
  cls     : Nat
  credits : Nat
  used    : Nat
  ending  : Option (Nat × Nat)
  deriving DecidableEq, Repr

/-- A loaded program (R516): its schedule report, and the pours it still awaits, with the command that waits for them. -/
structure Program where
  part   : Nat
  img    : ProgImage
  digest : List Byte
  waits  : List Nat
  cmd    : Option (Nat × Nat)
  deriving DecidableEq, Repr

/-- A runtime channel (R325): sending and receiving core and endpoint; the close-channel that waits (R327); reported broken
(R531). -/
structure Channel where
  part  : Nat
  src   : Nat
  sep   : Nat
  dst   : Nat
  rep   : Nat
  ending : Option (Nat × Nat)
  told  : Bool
  deriving DecidableEq, Repr

/-- A remote window (R419, R537): queue pairs and page entries by page index. -/
structure Window where
  part  : Nat
  qp    : Nat
  alt   : Nat
  pages : Map Nat
  deriving DecidableEq, Repr

/-- An event the device reports (R538). -/
structure Event where
  kind  : Nat
  part  : Nat
  obj   : Word
  words : List Word
  deriving DecidableEq, Repr

/-- A pour in progress, by 65,536 * partition + image number (R689 to R693): the digest expected, the cores it goes to, those
done, those that repeat it; its multicast group. -/
structure Pour where
  group   : Nat
  digest  : List Byte
  targets : List Nat
  done    : List Nat
  again   : List Nat
  deriving DecidableEq, Repr

/-! ### Partitions, requests and jobs -/

/-- The settings of `set-checks` (R553). -/
structure Checks where
  cls     : Nat
  asyEn   : Bool
  asyK    : Nat
  guard   : Nat
  replica : Nat
  nrep    : Nat
  serve   : Bool
  job     : Nat
  hmN     : Nat
  tsWait  : Nat
  ref     : Nat
  tsQp    : Nat
  area    : Nat
  mib     : Nat
  peers   : List Nat
  deriving DecidableEq, Repr

/-- A newly opened partition's settings (R552). -/
def Checks.none : Checks := ⟨0, false, 0, 0, 0, 0, false, 0, 0, 0, 0, 0, 0, 0, []⟩

/-- An admitted request (R526 to R529): its command, session, result buffer, program and plan, the launches and barriers of its
sections in device time, its deadline; how many sections have run, how many had at the last committed boundary, and how many
had at each later step boundary as (step, sections); whether it has launched; the CHECKS bits and reruns noted. `replay` is the
queue pair and the step of a touchstone replay, which has no command and no buffer (R572). -/
structure Request where
  ring    : Nat
  pos     : Nat
  tag     : Word
  sess    : Nat
  buf     : Nat
  prog    : Nat
  plan    : Nat
  launches : List Nat
  barriers : List Nat
  dead    : Nat
  ran     : Nat
  kept    : Nat
  marks   : List (Nat × Nat)
  started : Bool
  checks  : Nat
  reruns  : Nat
  replay  : Option (Nat × Nat)
  deriving DecidableEq, Repr

/-- A round of hallmark (R564 to R569): its number, the step at whose boundary it started, the cycle of its own digest, and
whether it is voted. -/
structure Round where
  num   : Nat
  step  : Nat
  own   : Option Nat
  voted : Bool
  deriving DecidableEq, Repr

/-- A step held for touchstone (R572, R573): step, plan, suspect run's digest, the first and the latest TS_REQ, whether the latest
answer was BUSY, the digest of the answer once a local run is to decide. -/
structure Touch where
  step   : Nat
  plan   : Nat
  own    : List Byte
  first  : Nat
  last   : Nat
  busy   : Bool
  answer : Option (List Byte)
  deriving DecidableEq, Repr

/-- Check events of a run of a step: what parity or an unknown cause, an assay, a guard and progress found (R549, R559, R561,
R589). -/
structure Findings where
  parity  : List Nat
  assay   : List (Nat × List Nat)
  guard   : List (Nat × List Nat)
  prog    : List (Nat × List Nat)
  overcur : List Nat
  other   : Bool
  deriving DecidableEq, Repr

def Findings.none : Findings := ⟨[], [], [], [], [], false⟩

/-- An admission (R623): the command, the partner's queue pair, its deadline. -/
structure Admission where
  ring  : Nat
  pos   : Nat
  qp    : Nat
  until_ : Nat
  deriving DecidableEq, Repr

/-- An open partition. Timeline: `free` is the device time from which a launch can be booked (R451). Steps: `step` runs or is
next, `committed` is the last committed one, `sealed` the last whose seals are complete and clear, `runs` the runs of the step,
`seals` its seals as (region, SUSPECT), `now_` and `before` the findings of this run and the last, `sealAt` the cycle in which
SUSPECT seals without a cause were complete, `odd` whether a graft or a takeover fell into the step, `epochs` the epoch after
each step boundary (R547 to R574). Recovery: the device time of a halt, whether it is halted, and what follows the halt
(`recov`: 0 nothing, 1 roll back and resume, 2 a graft or a bypass, 3 roll back and hold); restarts; HELD, held for heat,
launches withheld, expelled, suspended. Job: peers, the cycles in which they were last heard, peers dead, LIVE_MS, the cycle of
the last LIVE, the queue pair of a joining module, the hold at a boundary as (queue pair, cycle) and one to come as (queue pair, step), the admission, quenches seen, keys with KEY_ID and the end of the old one
(R614 to R623, R717 to R720). `waiters` are the commands that end once a recovery has, as (ring, position, status if it fails) (R626,
R627). -/
structure Partn where
  col0    : Nat
  row0    : Nat
  ncol    : Nat
  nrow    : Nat
  unit0   : Nat
  units   : Nat
  horizon : Nat
  mode    : Nat
  free    : Nat
  reqs    : List Request
  checks  : Checks
  newChk  : Option (Checks × Nat × Nat)
  step    : Nat
  committed : Nat
  sealed  : Nat
  runs    : Nat
  seals   : List (Nat × Bool)
  sealAt  : Option Nat
  now_    : Findings
  before  : Findings
  odd     : Bool
  later   : List (Nat × Bool)
  epochs  : Map Nat
  haltAt  : Option Nat
  halted  : Bool
  recov   : Nat
  restarts : Nat
  heldJob : Bool
  heat    : Bool
  standing : Bool
  expelled : Bool
  suspended : Bool
  round   : Option Round
  digests : Map (Bool × List Byte)
  touch   : Option Touch
  peers   : List Nat
  heard   : Map Nat
  dead    : List Nat
  liveMs  : Nat
  liveAt  : Nat
  partner : Option Nat
  holdAt  : Option (Nat × Nat)
  holdFor : Option (Nat × Nat)
  joiner   : Option Admission
  quenches : List (Nat × Nat)
  key     : Option (List Byte)
  oldKey  : Option (List Byte × Nat)
  keyId   : List Byte
  closing : Option (Nat × Nat)
  samples : List (Nat × Nat)
  waiters : List (Nat × Nat × Nat)
  deriving DecidableEq, Repr
/-! ### The module -/

/-- A post-mortem record of a core (R601): physical core, the words of its registers, the rows sampled. -/
structure PostMortem where
  core : Nat
  regs : List Word
  rows : List (List Byte)
  deriving DecidableEq, Repr

/-- An entry of the measurement log (R713). -/
structure LogEntry where
  kind   : Nat
  index  : Nat
  time   : Nat
  digest : List Byte
  deriving DecidableEq, Repr

/-- An attestation report's ephemeral key (R704, R718): partition, the key pair, when it was made, used, made before a
takeover. -/
structure EphKey where
  part   : Nat
  secret : List Byte
  public_ : List Byte
  made   : Nat
  used   : Bool
  stale  : Bool
  deriving DecidableEq, Repr

/-- The heartwood's objects and journal, the recovery in progress, its records; the current generation of each handle index
by type * 2^20 + index (R492); the ring served last; the cycles of heartbeats by unit, and of the probes of silent cores; requests
for pollards; attestation reports made; `turned` while a change of the latch awaits its takeover; the partition and step in which a region last drooped; whether
a change in the dark regions awaits new clock preferences. -/
structure Heartwood where
  gens    : Map Nat
  rings   : Map Ring
  parts   : Map Partn
  sessions : Map Session
  bufs    : Map HostBuf
  chans   : Map Channel
  qps     : Map Qp
  keys    : Map MemKey
  progs   : Map Program
  wins    : Map Window
  events  : List Event
  pours   : Map Pour
  lastRing : Nat
  fenced  : List Word
  beatAt  : Nat
  turned  : Bool
  dead    : List Nat
  beats   : Map Nat
  probes  : Map Nat
  links   : List (Nat × Nat)
  pollard : List Nat
  droops  : Map (Nat × Nat)
  prefDue : Bool
  fault   : Bool
  pms     : Map PostMortem
  eph     : Map EphKey
  reports : Nat
  log     : List LogEntry
  logN    : Nat
  mlog    : List Byte
  qid     : Nat
  ready   : Bool
  annSeq  : Nat
  deriving DecidableEq, Repr

def Heartwood.reset : Heartwood :=
  { gens := [], rings := [], parts := [], sessions := [], bufs := [], chans := [], qps := [], keys := [], progs := [], wins := []
    events := [], pours := [], lastRing := 0, fenced := [], beatAt := 0, turned := false, dead := [], beats := [], probes := []
    links := [], pollard := [], droops := [], prefDue := false, fault := false, pms := [], eph := [], reports := 0, log := [], logN := 0, mlog := List.replicate 32 0
    qid := 0, ready := false, annSeq := 0 }

/-- What survives without power or lies outside the register blocks: fuses, serial number, base MAC address, power-ups, the
certificate, secrets, root key digests with revocation, firmware slots, the repair record's bytes, the seal loop; the package in use,
whether it came from the staging area, and that area; which heartwoods are loaded with it; whether EN is high and since when; when the latest step started; whether COOL
tripped; MATE_SENSE; RST_N; SLOT; whether steps 5 and 6 run without host action (R684); bus phases at work; notices a bank follows
with their end; defective cores; the I3C target's address, offset, IBI enable, the IBI to repeat, Hot-Join; the sideband registers;
regions without any clock (R36, R634, R670 to R753). -/
structure Module where
  lcf     : Nat
  scrap   : Bool
  svn     : Nat
  serial  : Nat
  mac     : Nat
  boots   : Nat
  grade   : Bool
  cert    : List Byte
  uds     : List Byte
  roots   : List (List Byte × Bool)
  transKey : List Byte
  store   : Map (List Byte)
  repair  : List Byte
  tamper  : Bool
  package : List Byte
  staged  : Bool
  stage   : List Host.Cell
  loaded  : List Nat
  enabled : Bool
  enAt    : Nat
  stepAt  : Nat
  coolTrip : Bool
  mated   : Bool
  rstLow  : Bool
  slot    : Nat
  auto    : Bool
  phases  : Nat
  boost   : Map (Nat × Bool)
  bad     : List Nat
  i3cAddr : Option Nat
  i3cOff  : Nat
  ibi     : Bool
  ibiAt   : Option Nat
  hotJoin : Bool
  sbd     : Map Word
  noClock : Map Nat
  deriving DecidableEq, Repr

/-- Before the first enable: the fixed, fused and strapped values of log entry 6. -/
def Module.reset : Module :=
  { lcf := 2, scrap := false, svn := 0, serial := 0, mac := 0, boots := 0, grade := false, cert := [], uds := List.replicate 32 0
    roots := [], transKey := List.replicate 32 0, store := [], repair := [], tamper := false, package := [], staged := false, stage := []
    loaded := [], enabled := false, enAt := 0, stepAt := 0, coolTrip := false, mated := true
    rstLow := false, slot := 0, auto := false, phases := 12, boost := [], bad := [], i3cAddr := none, i3cOff := 0, ibi := true
    ibiAt := none, hotJoin := false, sbd := [], noClock := [] }

/-- Burnish in a region (R590 to R594, R613): the physical core of the region under test as 17 * row + column, the item, its
pieces done, when the pass began; the core last visited in order, the visits since the last return to WATCH cores, and those still
to be visited again. -/
structure Burn where
  core  : Nat
  item  : Nat
  piece : Nat
  began : Nat
  last  : Nat
  since : Nat
  todo  : List Nat
  deriving DecidableEq, Repr

/-! ### The whole device -/

/-- What the requester of a register access or of a management command sees: a status and words. The model's own. -/
structure Reply where
  status : Nat
  words  : List Word
  deriving DecidableEq, Repr

/-- A flit or a token on a fabric link: the cycle in which it is at the input of the receiving router (R259). -/
structure Wire where
  due  : Nat
  dest : Nat
  inp  : Nat
  flit : Option Flit
  tok  : Option Word
  deriving DecidableEq, Repr

/-- A logical region: the state of every core of it that no command has singled out, and its SUSPECT flags for the step
whose barrier comes next (R547), and the partition it belongs to (0: none). -/
structure Region where
  tmpl    : Core
  suspect : Bool
  part    : Nat
  deriving DecidableEq, Repr

def Region.reset : Region := ⟨Core.reset, false, 0⟩

/-- The device, with the queue of the commands that wait. `now` is the model's clock in cyc, `free` the number of free
values taken so far, `reply` the answer of the latest access: these three are the model's own. -/
structure State where
  now     : Nat
  free    : Nat
  reply   : Option Reply
  pending : List Instr
  cores   : Map Core
  regions : Map Region
  wires   : List Wire
  net     : List Packet
  rtTmpl  : Router
  routers : Map Router
  credits : List CreditBack
  groups  : Map Group
  barRoot : Map Nat
  stks  : Map Stack
  records : List Rec
  win     : Map Word
  winShadow : Map Word
  tmb     : Timebase
  ports   : Map Port
  hw      : Heartwood
  mod     : Module
  seals   : List (Nat × Nat × Nat × Bool)
  bypass  : Map Nat
  burn    : Map Burn
  deriving DecidableEq, Repr

/-- The device right after reset. -/
def State.reset : State :=
  { now := 0, free := 0, reply := none, pending := [], cores := [], regions := [], wires := [], net := [], rtTmpl := Router.reset, routers := [], credits := [], groups := [], barRoot := [], stks := [],
    records := [], win := [], winShadow := [], tmb := Timebase.reset, ports := [], hw := Heartwood.reset, mod := Module.reset, seals := [], bypass := []
    burn := [] }

/-- Faults: none is raised. What the spec calls a fault is an effect on State. -/
inductive Fault where
  /-- Raised by no command; kept so that the type has a member. Safe. -/
  | none
  deriving DecidableEq, Repr

/-- Reasons to refuse a command. -/
inductive Refusal where
  /-- A command whose meaning the model does not give. Raised only by an arm of `exec`. Safe. -/
  | notModelled (mnemonic : String)
  deriving DecidableEq, Repr

end Sys2Proof.Machine
end

