-- ==== Sys2Proof/Machine/Spad.lean ====
section
/-! DEFINITION. Byte memories in canonical form, and the scratchpad with its writes on their way (file 05 of the spec). -/

namespace Sys2Proof.Machine

/-- What an unlisted byte of a memory reads as. DESIGN CHOICE, log entry 5. -/
def unlistedByte : Byte := 0#8

/-- The byte at an address of a memory. -/
def cellGet (m : List Host.Cell) (a : Nat) : Byte :=
  match m with
  | [] => unlistedByte
  | (b, v) :: t => if b = a then v else if a < b then unlistedByte else cellGet t a

/-- A memory with one byte written; an entry equal to what an unlisted byte reads as is removed. -/
def cellSet (m : List Host.Cell) (a : Nat) (v : Byte) : List Host.Cell :=
  match m with
  | [] => if v = unlistedByte then [] else [(a, v)]
  | (b, w) :: t =>
    if b = a then (if v = unlistedByte then t else (a, v) :: t)
    else if a < b then (if v = unlistedByte then (b, w) :: t else (a, v) :: (b, w) :: t)
    else (b, w) :: cellSet t a v

/-- The bytes of a list written from an address upwards. -/
def cellPuts (m : List Host.Cell) (a : Nat) : List Byte → List Host.Cell
  | [] => m
  | v :: t => cellPuts (cellSet m a v) (a + 1) t

/-- The n bytes from an address upwards. -/
def cellGets (m : List Host.Cell) (a n : Nat) : List Byte := (List.range n).map fun i => cellGet m (a + i)

/-- The canonical form: addresses strictly rising, no entry equal to what an unlisted byte reads as. -/
def cellsWf : List Host.Cell → Bool
  | [] => true
  | [(_, v)] => v != unlistedByte
  | (a, v) :: (b, w) :: t => v != unlistedByte && decide (a < b) && cellsWf ((b, w) :: t)

/-- The little-endian word of four bytes (R14). -/
def wordOfBytes (bs : List Byte) : Word :=
  BitVec.ofNat 32 ((bs.getD 0 0#8).toNat + 256 * (bs.getD 1 0#8).toNat + 65536 * (bs.getD 2 0#8).toNat
    + 16777216 * (bs.getD 3 0#8).toNat)

/-- The four bytes of a word, least significant first (R14). -/
def bytesOfWord (w : Word) : List Byte :=
  [w.setWidth 8, (w >>> 8).setWidth 8, (w >>> 16).setWidth 8, (w >>> 24).setWidth 8]

/-- The n bytes of a number, least significant first. -/
def bytesOfNat (n v : Nat) : List Byte := (List.range n).map fun i => BitVec.ofNat 8 (v / 256 ^ i)

/-- The number of little-endian bytes. -/
def natOfBytes : List Byte → Nat
  | [] => 0
  | b :: t => b.toNat + 256 * natOfBytes t

/-- A key added to, or removed from, a rising list of numbers. -/
def keyAdd (l : List Nat) (k : Nat) : List Nat :=
  match l with
  | [] => [k]
  | j :: t => if j = k then j :: t else if k < j then k :: j :: t else j :: keyAdd t k

def keyDel (l : List Nat) (k : Nat) : List Nat := l.filter (fun j => j != k)

/-- The first address beyond the scratchpad: 3 MiB (R201). -/
def spadEnd : Nat := 0x300000

/-- The numbers of the units of size n that the bytes [a, a + len) touch. -/
def touched (n a len : Nat) : List Nat :=
  if len = 0 then [] else (List.range ((a + len - 1) / n - a / n + 1)).map fun i => a / n + i

/-- Whether a write covers a byte. -/
def SpadWrite.covers (w : SpadWrite) (a : Nat) : Bool := decide (w.addr ≤ a ∧ a < w.addr + w.bytes.length)

/-- A committed write applied to the arrays: data, parity of each word touched, tarnish marks (R203, R215, R229, R234). -/
def spadApply (sp : Spad) (w : SpadWrite) : Spad :=
  let words := touched 4 w.addr w.bytes.length
  let rows := touched 128 w.addr w.bytes.length
  { sp with
    base := cellPuts sp.base w.addr w.bytes
    bad := words.foldl (fun l k => if w.bad.contains k then keyAdd l k else keyDel l k) sp.bad
    tarnA := if w.tarn then rows.foldl keyAdd sp.tarnA else w.clears.foldl keyDel sp.tarnA
    tarnB := if w.tarn then rows.foldl keyAdd sp.tarnB else w.clears.foldl keyDel sp.tarnB }

/-- The place of a new write in the log: after every write that commits before it, and after those of the same commit
cycle whose client number is not higher (R216). -/
def spadInsert (log : List SpadWrite) (w : SpadWrite) : List SpadWrite :=
  match log with
  | [] => [w]
  | v :: t =>
    if v.commit < w.commit ∨ (v.commit = w.commit ∧ v.client ≤ w.client) then v :: spadInsert t w else w :: v :: t

/-- A write put into the log. -/
def spadPush (sp : Spad) (w : SpadWrite) : Spad := { sp with log := spadInsert sp.log w }

def spadPushes (sp : Spad) (ws : List SpadWrite) : Spad := ws.foldl spadPush sp

/-- Every write that commits before cycle `b` moved into the arrays. -/
def spadRetire (sp : Spad) (b : Nat) : Spad :=
  let sp' := (sp.log.filter (fun w => decide (w.commit < b))).foldl spadApply sp
  { sp' with log := sp.log.filter (fun w => decide (b ≤ w.commit)) }

/-- The byte that a read in port cycle `cyc` returns (R214). -/
def spadByte (sp : Spad) (cyc a : Nat) : Byte :=
  sp.log.foldl (fun v w => if decide (w.commit < cyc) && w.covers a then w.bytes.getD (a - w.addr) 0#8 else v)
    (cellGet sp.base a)

/-- The n bytes from `a` upwards as a read in port cycle `cyc` returns them. -/
def spadBytes (sp : Spad) (cyc a n : Nat) : List Byte := (List.range n).map fun i => spadByte sp cyc (a + i)

/-- One copy of the tarnish mark of a row as seen in a cycle. -/
def tarnSeen (marks : List Nat) (log : List SpadWrite) (cyc row : Nat) : Bool :=
  log.foldl (fun v w =>
    if decide (w.commit < cyc) && (touched 128 w.addr w.bytes.length).contains row then
      (if w.tarn then true else if w.clears.contains row then false else v) else v) (marks.contains row)

/-- Whether the two copies of a row's mark disagree (R231). -/
def spadTarnSplit (sp : Spad) (cyc row : Nat) : Bool :=
  tarnSeen sp.tarnA sp.log cyc row != tarnSeen sp.tarnB sp.log cyc row

/-- Whether the access treats a row as tarnished (R231, R234). -/
def spadTarn (sp : Spad) (cyc row : Nat) : Bool :=
  tarnSeen sp.tarnA sp.log cyc row || tarnSeen sp.tarnB sp.log cyc row

/-- Whether the parity of a word fails as seen in a cycle; a disagreement of the marks counts as a parity error on every
word of the row (R229, R231). -/
def spadBad (sp : Spad) (cyc word : Nat) : Bool :=
  spadTarnSplit sp cyc (word / 32) ||
  sp.log.foldl (fun v w =>
    if decide (w.commit < cyc) && (touched 4 w.addr w.bytes.length).contains word then w.bad.contains word else v)
    (sp.bad.contains word)

/-- The word at a 4-byte aligned address as a read in port cycle `cyc` returns it. -/
def spadWord (sp : Spad) (cyc a : Nat) : PWord := ⟨wordOfBytes (spadBytes sp cyc a 4), spadBad sp cyc (a / 4)⟩

/-- Whether a list of writes covers all 128 bytes of a row. -/
def rowCovered (ws : List SpadWrite) (row : Nat) : Bool :=
  (List.range 128).all fun i => ws.any fun w => w.covers (row * 128 + i)

/-- The index of the last write of a list, in commit order, that touches a row. -/
def lastTouch (ws : List SpadWrite) (row : Nat) : Nat :=
  (ws.zipIdx.foldl (fun (best : Nat × Nat) (p : SpadWrite × Nat) =>
    if (touched 128 p.1.addr p.1.bytes.length).contains row && decide (best.1 ≤ p.1.commit) then (p.1.commit, p.2) else best)
    (0, 0)).2

/-- The writes of one operation count as one for the tarnish marks: where together they cover a row and none carries
tarnish, the last of them to commit clears the mark (R234). -/
def markClears (ws : List SpadWrite) : List SpadWrite :=
  if ws.any (fun w => w.tarn) then ws
  else
    let rows := (ws.flatMap fun w => touched 128 w.addr w.bytes.length).eraseDups
    let full := rows.filter (rowCovered ws)
    ws.zipIdx.map fun p => { p.1 with clears := full.filter fun r => lastTouch ws r == p.2 }

/-- A write of good words through a client, with the rows that it covers by itself. -/
def plainWrite (commit client addr : Nat) (bytes : List Byte) (tarn : Bool) : SpadWrite :=
  { commit, client, addr, bytes, bad := [], tarn,
    clears := if tarn then [] else
      (touched 128 addr bytes.length).filter fun r => decide (addr ≤ r * 128 ∧ r * 128 + 128 ≤ addr + bytes.length) }

end Sys2Proof.Machine
end

