-- ==== Sys2Proof/Machine/CoreBase.lean ====
section
/-! DEFINITION. The named operations on one core: registers, general registers, records and check events. -/

namespace Sys2Proof.Machine

/-- Offsets of the core registers that the hardware itself changes. -/
def rSeed : Nat := 0x400
def rSrctr : Nat := 0x404
def rArithFlags : Nat := 0x408
def rMtxStatus : Nat := 0xB00
def rVecStatus : Nat := 0x122C
def rVecCcount : Nat := 0x1220
def rSpdCfg : Nat := 0x2000
def rSpdStatus : Nat := 0x2004
def rSpdErrAddr : Nat := 0x2008
def rSpdErrCyc : Nat := 0x200C
def rCtlEntry : Nat := 0x2800
def rCtlStatus : Nat := 0x2808
def rFabEpoch : Nat := 0x3000
def rFabStatus : Nat := 0x300C
def rFabStale : Nat := 0x3010
def rFabTblLen : Nat := 0x3014
def rFabTblPer : Nat := 0x3018
def rFabTblIter : Nat := 0x301C
def rFabEndLo : Nat := 0x3020
def rFabEndHi : Nat := 0x3024
def rSrcStatus : Nat := 0x3204
def rSvcFence : Nat := 0x3200
def rChnStatus : Nat := 0x3300

/-- The stored word of a core register. -/
def cReg (c : Core) (off : Nat) : Word := regRaw coreRegs c.regs off

/-- A core register's stored word replaced, flags set, a field set, a count raised. -/
def cSet (c : Core) (off : Nat) (w : Word) : Core := { c with regs := mset c.regs off w }
def cFlag (c : Core) (off : Nat) (mask : Word) : Core := { c with regs := regSetBits coreRegs c.regs off mask }
def cFld (c : Core) (off hi lo v : Nat) : Core := { c with regs := regSetFld coreRegs c.regs off hi lo v }
def cCount (c : Core) (off hi lo n : Nat) : Core := { c with regs := regCount coreRegs c.regs off hi lo n }

/-- The scratchpad pipeline latency L of the core's mode (R211). -/
def latency (c : Core) : Nat := fld (cReg c rSpdCfg) 3 1

/-- The section cycle count at cycle t (R283, R291). -/
def sectCount (c : Core) (t : Nat) : Nat :=
  match c.launchAt with
  | some l => t - l
  | none => 0

/-- A record given to the core's service engine at cycle t: sent, held waiting, or lost (R355). -/
def cEmit (c : Core) (t : Nat) (r : Rec) : Core :=
  let ready : Bool := match c.lastRec with
    | none => true
    | some l => decide (l + 256 ≤ t)
  if ready && c.recs.isEmpty then { c with outbox := c.outbox ++ [r], lastRec := some t }
  else if c.recs.length < 4 then { c with recs := c.recs ++ [r] }
  else cCount c rSrcStatus 15 8 1

/-- A check event raised on the core (R547). -/
def cCheck (c : Core) : Core := { c with check := true }

/-- A general register (0 to 15) or predicate (16 + p) as a bundle issued in cycle t reads it: the latest result that has
arrived by then, of the latest-issued operation where two arrive together (R251); g0 reads zero. -/
def gprAt (c : Core) (r t : Nat) : PWord :=
  if r = 0 then ⟨0#32, false⟩
  else (c.pend.foldl (fun (best : Nat × PWord) p =>
      if p.reg = r ∧ p.due ≤ t ∧ best.1 ≤ p.due then (p.due, p.val) else best)
    (0, mgetD c.gpr r ⟨0#32, false⟩)).2

/-- Predicate register p at cycle t. -/
def predAt (c : Core) (p t : Nat) : Bool := (gprAt c (16 + p) t).val != 0#32

/-- A scalar result given to register r; writes to g0 are ignored. -/
def gprResult (c : Core) (r due : Nat) (v : PWord) : Core :=
  if r = 0 then c else { c with pend := c.pend ++ [⟨due, r, v⟩] }

/-- Scalar results that have arrived by cycle t moved into the registers. -/
def settleScalar (c : Core) (t : Nat) : Core :=
  let done := (c.pend.filter fun p => decide (p.due ≤ t)).map fun p => p.reg
  { c with
    gpr := done.foldl (fun m r => mset m r (gprAt c r t)) c.gpr
    pend := c.pend.filter fun p => decide (t < p.due) }

/-- A parity error found on a scratchpad read of the given words by a client in cycle t (R230). -/
def noteParity (c : Core) (client t : Nat) (words : List Nat) : Core :=
  match words with
  | [] => c
  | w :: _ =>
    let c1 := if bit (cReg c rSpdStatus) 0 then c
      else cSet (cSet c rSpdErrAddr (BitVec.ofNat 32 (w * 4 + client * 2 ^ 22 + 2 ^ 31))) rSpdErrCyc
        (BitVec.ofNat 32 (sectCount c t))
    let c2 := cCount (cFlag c1 rSpdStatus 1#32) rSpdStatus 31 16 words.length
    cCheck (cEmit c2 t ⟨.parity, 0, [w * 4, client, sectCount c t]⟩)

/-- A disagreement of tarnish marks sets TPERR as well (R231). -/
def noteSplit (c : Core) (split : Bool) : Core := if split then cFlag c rSpdStatus 2#32 else c

/-- A data-path parity error that an engine reports (R544). -/
def noteDataParity (c : Core) (t engine : Nat) : Core := cCheck (cEmit c t ⟨.dataParity, 0, [engine, sectCount c t]⟩)

/-- What a scratchpad read of bytes at given addresses and cycles finds wrong: the parity errors and split marks noted. -/
def noteReads (c : Core) (client t : Nat) (reads : List (Nat × Nat)) : Core :=
  let words := (reads.map fun p => (p.1 / 4, p.2)).eraseDups
  let badW := (words.filter fun p => spadBad c.spad p.2 p.1).map Prod.fst
  let split := reads.any fun p => spadTarnSplit c.spad p.2 (p.1 / 128)
  noteSplit (noteParity c client t badW) split

end Sys2Proof.Machine
end

