-- ==== Sys2Proof/Machine/Buffers.lean ====
section
/-! DEFINITION. Buffers with two halves, and fills into them (R218 to R223). -/

namespace Sys2Proof.Machine

/-- Offsets of a buffer's registers. -/
def bufBase (n : Nat) : Nat := 0x2400 + 0x10 * n
def bufHalf (n : Nat) : Nat := 0x2404 + 0x10 * n
def bufCtl (n : Nat) : Nat := 0x2408 + 0x10 * n

/-- Whether BASE and HALF make a valid buffer (R219). -/
def bufValid (base half : Word) : Bool :=
  let b := fld base 21 0
  let h := fld half 21 0
  b % 128 == 0 && h % 128 == 0 && decide (128 ≤ h ∧ b + 2 * h ≤ spadEnd)

/-- A buffer judged after a write to its base or half register (R219): EN cleared and BAD set, or BAD cleared by a valid
enable. -/
def bufJudge (c : Core) (n : Nat) (isBase : Bool) : Core :=
  let base := cReg c (bufBase n)
  if bit base 31 then
    if bufValid base (cReg c (bufHalf n)) then (if isBase then cFld c (bufCtl n) 4 4 0 else c)
    else cFlag (cFld (cFld c (bufBase n) 31 31 0) (bufCtl n) 4 4 1) rSpdStatus 8#32
  else c

/-- A write to `spd.bufN.base`, or to `spd.bufN.half` (R219). -/
def writeBuf (c : Core) (n : Nat) (isBase : Bool) (val : Word) : Core :=
  if isBase then bufJudge (cSet c (bufBase n) (val &&& 0x803FFFFF#32)) n true
  else bufJudge (cSet c (bufHalf n) (val &&& 0x003FFFFF#32)) n false

/-- A write of 1 to SWAP (R220). -/
def swapBuf (c : Core) (n : Nat) : Core :=
  if bit (cReg c (bufBase n)) 31 then
    let cur := fld (cReg c (bufCtl n)) 0 0
    cFld (cFld c (bufCtl n) 0 0 (1 - cur)) (bufCtl n) (2 + cur) (2 + cur) 0
  else c

/-- The front half's address (R218, R223). -/
def bufFront (c : Core) (n : Nat) : Nat :=
  (fld (cReg c (bufBase n)) 21 0 + fld (cReg c (bufCtl n)) 0 0 * fld (cReg c (bufHalf n)) 21 0) % 2 ^ 22

/-- A fill judged at its first row (R221, R222): none where the buffer is disabled. -/
def fillBegin (c : Core) (n : Nat) : Option Fill :=
  if bit (cReg c (bufBase n)) 31 then
    let back := 1 - fld (cReg c (bufCtl n)) 0 0
    some { addr := fld (cReg c (bufBase n)) 21 0 + back * fld (cReg c (bufHalf n)) 21 0, half := back
           base := cReg c (bufBase n), size := cReg c (bufHalf n), stored := true }
  else none

/-- A fill that met a disabled or changed buffer: BAD_BUF, and a fault record (R222). -/
def badBuf (c : Core) (t n : Nat) : Core :=
  cCheck (cEmit (cFlag c rSpdStatus 8#32) t ⟨.badBuf, 0, [n]⟩)

/-- A fill's last row: RDY where the buffer stands as it stood at the first row (R221, R222). -/
def fillEnd (c : Core) (t n : Nat) (f : Fill) : Core :=
  if cReg c (bufBase n) = f.base ∧ cReg c (bufHalf n) = f.size then cFld c (bufCtl n) (2 + f.half) (2 + f.half) 1
  else badBuf c t n

/-- Fills whose last row has committed before cycle t (R221, R222). -/
def settleRdy (c : Core) (t : Nat) : Core :=
  { (c.rdyPend.filter fun p => decide (p.1 < t)).foldl (fun k p => fillEnd k t p.2.1 p.2.2) c with
    rdyPend := c.rdyPend.filter fun p => decide (t ≤ p.1) }

end Sys2Proof.Machine
end

