-- ==== Sys2Proof/Machine/MatrixCalc.lean ====
section
/-! DEFINITION. The matrix arrays: shapes, layouts, operand pairs, timing and results (file 03 of the spec). -/

namespace Sys2Proof.Machine

/-- Rows and columns of a target shape (R91). -/
def shapeOf (tgt : Nat) : Nat × Nat :=
  match tgt with
  | 4 => (256, 8) | 5 => (128, 16) | 6 => (64, 32) | _ => (64, 8)

/-- The arrays of a target (R91). -/
def arraysOf (tgt : Nat) : List Nat := if tgt < 4 then [tgt] else [0, 1, 2, 3]

/-- The array and local position of entry (r, c) of a target's output (R91). -/
def entryPlace (tgt r c : Nat) : Nat × Nat × Nat :=
  match tgt with
  | 4 => (r / 64, r % 64, c)
  | 5 => (r / 64 + 2 * (c / 8), r % 64, c % 8)
  | 6 => (c / 8, r, c % 8)
  | _ => (tgt, r, c)

/-- Accumulator tile and element of entry (r, c) of array n (R107). -/
def accPlace (n r c : Nat) : Nat × Nat := (2 * n + r / 32, (r % 32) / 2 * 16 + 8 * (r % 2) + c)

/-- Whether a format is of 16 or 32 bits, integer, or takes F8 or I8 width (R93). -/
def isWide (f : Fmt) : Bool := f == .fp32 || f == .fp16 || f == .bf16
def is16 (f : Fmt) : Bool := f == .fp16 || f == .bf16
def isF8 (f : Fmt) : Bool := f == .f8e4 || f == .f8e5
def is68 (f : Fmt) : Bool := f == .f8e4 || f == .f8e5 || f == .f6e3 || f == .f6e2 || f == .i8
def is4 (f : Fmt) : Bool := f == .f4e2 || f == .i4
def isInt (f : Fmt) : Bool := f == .i8 || f == .i4

/-- The rate of an accepted operand pair in eighths of a multiply-accumulate per cell per cycle; none where the table of
R93 has no such pair. -/
def pairRate8 (a b : Fmt) : Option Nat :=
  if a == .fp32 && b == .fp32 then some 1
  else if is16 a && (is16 b || isF8 b) then some 4
  else if isF8 a && is16 b then some 4
  else if is68 a && (is68 b || is4 b) then some 8
  else if is4 a && is68 b then some 8
  else if is4 a && is4 b then some 16
  else if a == .l4 && is68 b then some 8
  else if a == .l4 && is4 b then some 16
  else if a == .t5 && (is68 b || is4 b) then some 32
  else none

/-- The accumulation paths (R77). -/
inductive AccPath where
  | product | integer | block
  deriving DecidableEq, Repr

def accPath (a b : Fmt) (sa sb : Bool) : AccPath :=
  if isWide a || isWide b then .product
  else if isInt a && isInt b && !sa && !sb then .integer
  else .block

/-- The slice length of an operation (R95). -/
def sliceLen (a b : Fmt) : Nat := if a == .t5 || b == .t5 then 320 else 64

/-- Bytes of n packed elements of one row or column (R54). -/
def packBytes (f : Fmt) (n : Nat) : Nat := if f == .t5 then (n + 4) / 5 else (n * fmtBits f + 7) / 8

/-- Bytes of one row or column in one slice (R95). -/
def rowBytes (f : Fmt) (s : Nat) : Nat := packBytes f s

/-- Bytes a lane reads of a row holding ks elements below K: rounded up to 16 on a last slice (R134). -/
def readBytes (f : Fmt) (s ks : Nat) : Nat := if ks = s then rowBytes f s else (packBytes f ks + 15) / 16 * 16

/-- Scale bytes read of a row holding ks elements below K; none where the operand is not scaled (R96, R134). -/
def readScales (f : Fmt) (scaled : Bool) (ks : Nat) : Nat :=
  if scaled then (ks + blockLen f - 1) / blockLen f else 0

/-- Slices of K elements and the elements below K in slice j (R97). -/
def sliceCount (s k : Nat) : Nat := (k + s - 1) / s
def sliceElems (s k j : Nat) : Nat := min s (k - s * j)

/-- A read of n bytes from position p of a unit that starts in cycle `start` at `rate` bytes a cycle (R210). -/
def readCycle (start rate p : Nat) : Nat := start + p / rate

/-- Bytes per cycle of a lane for a target (R130). -/
def laneRate (tgt : Nat) : Nat := if tgt < 4 then 64 else 256

/-- Cycles that n bytes take on a lane (R132). -/
def laneCycles (tgt n : Nat) : Nat := (n + laneRate tgt - 1) / laneRate tgt

/-- The rows of A that one unit of an input-stationary operation reads: one per array, shared rows once (R130, R133). -/
def isRows (tgt t : Nat) : List Nat :=
  match tgt with
  | 4 => [t, 64 + t, 128 + t, 192 + t]
  | 5 => [t, 64 + t]
  | _ => [t]

/-- Bytes before slice j in a sequence of slices of n rows each. -/
def slicesBefore (f : Fmt) (s k n j : Nat) : Nat :=
  ((List.range j).map fun i => n * readBytes f s (sliceElems s k i)).foldl (· + ·) 0
def scalesBefore (f : Fmt) (sc : Bool) (s k n j : Nat) : Nat :=
  ((List.range j).map fun i => n * readScales f sc (sliceElems s k i)).foldl (· + ·) 0

/-- The depth d of a held format (R103); none where the format is not held in that stationarity. -/
def heldDepth (f : Fmt) (stat : Nat) : Option Nat :=
  if isWide f then none
  else if stat = 2 ∧ (f = .t5 ∨ f = .l4) then none
  else if is68 f then some 8
  else if f == .t5 then some 40
  else some 16

/-- The held block length (R101 to R103). -/
def heldBlock (f : Fmt) (stat : Nat) : Nat := (if stat = 2 then 64 else 8) * (heldDepth f stat).getD 0

/-- The reads of an operand's slices on one lane: (address, position) of each byte of n rows; element bytes of slice j of
row r lie at base + j * stride + r * u (R95). -/
def sliceReads (d : MatDesc) (f : Fmt) (s j : Nat) (rows : List Nat) (pos : Nat) : List (Nat × Nat) :=
  let ub := readBytes f s (sliceElems s d.k j)
  let u := rowBytes f s
  rows.zipIdx.flatMap fun ri => (List.range ub).map fun i => (d.base + j * d.stride + ri.1 * u + i, pos + ri.2 * ub + i)

def scaleReads (d : MatDesc) (f : Fmt) (s j : Nat) (rows : List Nat) (pos : Nat) : List (Nat × Nat) :=
  let nbr := readScales f d.scaled (sliceElems s d.k j)
  let nb := s / blockLen f
  rows.zipIdx.flatMap fun ri => (List.range nbr).map fun i =>
    (d.sbase + j * d.sstride + ri.1 * nb + i, pos + ri.2 * nbr + i)

/-- Positions turned into cycles of a lane. -/
def atCycles (start rate : Nat) (l : List (Nat × Nat)) : List (Nat × Nat) :=
  l.map fun p => (p.1, readCycle start rate p.2)

/-- The number of units of an operation, and the bytes of unit j on the A and B lanes (R131, R133). `fa` and `fb` are the
operand formats; for a load the held one is given twice. -/
def unitCount (op : MatOp) (s : Nat) : Nat :=
  match op.kind with
  | .mmac => if op.stat = 0 then sliceCount s op.da.k else if op.stat = 1 then 1 else 64
  | _ => 1

def unitBytes (op : MatOp) (fa fb : Fmt) (s j : Nat) : Nat × Nat :=
  let sh := shapeOf op.tgt
  let all (d : MatDesc) (f : Fmt) (n : Nat) : Nat × Nat :=
    (slicesBefore f s d.k n (sliceCount s d.k), scalesBefore f d.scaled s d.k n (sliceCount s d.k))
  match op.kind with
  | .mmac =>
    if op.stat = 0 then
      let ks := sliceElems s op.da.k j
      (sh.1 * readBytes fa s ks,
       sh.2 * readBytes fb s ks + sh.1 * readScales fa op.da.scaled ks + sh.2 * readScales fb op.db.scaled ks)
    else if op.stat = 1 then let b := all op.db fb sh.2; (0, b.1 + b.2)
    else all op.da fa (isRows op.tgt j).length
  | .mload => if op.stat = 1 then all op.da fa sh.1 else let b := all op.db fb sh.2; (0, b.1 + b.2)
  | _ => (0, 0)

/-- The compute cycles of unit j (R138). -/
def unitCompute (op : MatOp) (fa fb : Fmt) (s j : Nat) : Nat :=
  let rate := (pairRate8 fa fb).getD 8
  match op.kind with
  | .mmac =>
    if op.stat = 0 then (sliceElems s op.da.k j * 8 + rate - 1) / rate
    else if op.stat = 1 then 8 * (((heldDepth fa 1).getD 0) * 8 / rate)
    else ((heldDepth fb 2).getD 0) * 8 / rate
  | _ => 0

/-- The times of an operation's units as they are worked out one after the other: the last read cycles of the lanes, the
compute ends so far (latest first), the starts on the lanes (latest first), and the first compute start. -/
structure UnitTimes where
  aEnd : Nat
  bEnd : Nat
  cends : List Nat
  aStarts : List Nat
  bStarts : List Nat
  first : Nat
  deriving DecidableEq, Repr

/-- One more unit (R132, R135 to R138): n.1 and n.2 bytes on the lanes, `comp` compute cycles, plane ready at `pr`,
previous compute operation ended at `prev`. -/
def unitStep (issue rate lat pr prev : Nat) (u : UnitTimes) (n : Nat × Nat) (comp : Nat) : UnitTimes :=
  let stage := match u.cends with
    | _ :: e :: _ => e + 1
    | _ => 0
  let a0 := max (issue + 1) (max (u.aEnd + 1) stage)
  let b0 := max (issue + 1) (max (u.bEnd + 1) stage)
  let aE := if n.1 = 0 then u.aEnd else a0 + (n.1 + rate - 1) / rate - 1
  let bE := if n.2 = 0 then u.bEnd else b0 + (n.2 + rate - 1) / rate - 1
  let ready := max (if n.1 = 0 then 0 else aE + lat) (if n.2 = 0 then 0 else bE + lat)
  let c0 := max ready (max pr ((u.cends.head?).getD prev + 1))
  { aEnd := aE, bEnd := bE, cends := (c0 + comp - 1) :: u.cends, aStarts := a0 :: u.aStarts, bStarts := b0 :: u.bStarts,
    first := if u.cends.isEmpty then c0 else u.first }

/-- All units of an operation issued in cycle t. -/
def unitTimes (op : MatOp) (fa fb : Fmt) (s lat aEnd bEnd pr prev : Nat) : UnitTimes :=
  (List.range (unitCount op s)).foldl
    (fun u j => unitStep op.issue (laneRate op.tgt) lat pr prev u (unitBytes op fa fb s j) (unitCompute op fa fb s j))
    { aEnd, bEnd, cends := [], aStarts := [], bStarts := [], first := 0 }

/-! #### Reading elements -/

/-- An element as an engine reads it: its value, whether a word it lies in fails its parity, and the flags it raises. -/
structure Elem where
  num   : Num
  bad   : Bool
  flags : Word
  deriving DecidableEq, Repr

/-- The element at index i of a packed row, given its bytes (R51, R52, R54). -/
def elemOf (f : Fmt) (scaled : Bool) (byte : Nat → Byte × Bool) (i : Nat) : Elem :=
  match f with
  | .t5 =>
    let b := byte (i / 5)
    let v := b.1.toNat
    if v ≥ 243 then ⟨.fin false 0 1 0, b.2, flagBadTrit⟩
    else ⟨decodeElem .t5 scaled (v / 3 ^ (i % 5) % 3), b.2, 0#32⟩
  | .f6e3 | .f6e2 =>
    let p := 6 * (i % 4)
    let g := 3 * (i / 4)
    let b0 := byte (g + p / 8)
    let b1 := byte (g + (p + 5) / 8)
    let w := if p / 8 = (p + 5) / 8 then b0.1.toNat else b0.1.toNat + 256 * b1.1.toNat
    ⟨decodeElem f scaled (w / 2 ^ (p % 8) % 64), b0.2 || b1.2, 0#32⟩
  | .f4e2 | .i4 | .l4 =>
    let b := byte (i / 2)
    ⟨decodeElem f scaled (b.1.toNat / 2 ^ (4 * (i % 2)) % 16), b.2, 0#32⟩
  | f =>
    let n := fmtBits f / 8
    let bs := (List.range n).map fun q => byte (n * i + q)
    ⟨decodeElem f scaled (natOfBytes (bs.map Prod.fst)), bs.any Prod.snd, 0#32⟩

/-- A scale byte as an element: a NaN scale raises SCALE_NAN (R57 to R59). -/
def scaleOf (f : Fmt) (b : Byte × Bool) : Elem :=
  let v := decodeScale f b.1.toNat
  ⟨v, b.2, if v = .nan then flagScaleNan else 0#32⟩

/-- One, the scale of an operand without scales (R61). -/
def unitScale : Elem := ⟨.fin false 1 1 0, false, 0#32⟩

/-- The FP32 accumulation of one exact addend, with ACC_INF where a finite sum becomes infinite (R81). -/
def accFp (acc : Word) (x : Num) : Word × Word :=
  let r := rne32 ((num32 acc).add x)
  let fin : Bool := !isNan32 acc && !isInf32 acc && (match x with | .fin _ _ _ _ => true | _ => false)
  (r, if fin && isInf32 r then flagAccInf else 0#32)

/-- The integer value of an exact element that is one. -/
def numInt (x : Num) : Int :=
  match x with
  | .fin s n d e => let q := inUnits n d e 0; if s then -((q.1 / q.2 : Nat) : Int) else ((q.1 / q.2 : Nat) : Int)
  | _ => 0

/-- The running state of a reduction: the accumulator, the flags, whether a failing word reached it. -/
structure RedAcc where
  acc   : Word
  flags : Word
  bad   : Bool
  deriving DecidableEq, Repr

/-- The reduction of R78 over K elements into one entry: element readers `a` and `b`, scale readers `sa` and `sb`. -/
def reduceEntry (path : AccPath) (bl k : Nat) (a b sa sb : Nat → Elem) (acc : PWord) : RedAcc :=
  match path with
  | .product =>
    (List.range k).foldl (fun r i =>
      let x := a i; let y := b i; let u := sa i; let v := sb i
      let o := accFp r.acc ((x.num.mul u.num).mul (y.num.mul v.num))
      ⟨o.1, r.flags ||| o.2 ||| x.flags ||| y.flags ||| u.flags ||| v.flags, r.bad || x.bad || y.bad || u.bad || v.bad⟩)
      ⟨acc.val, 0#32, acc.bad⟩
  | .integer =>
    (List.range k).foldl (fun r i =>
      let x := a i; let y := b i
      let o := satInt32 (r.acc.toInt + numInt x.num * numInt y.num)
      ⟨o.1, r.flags ||| o.2, r.bad || x.bad || y.bad⟩) ⟨acc.val, 0#32, acc.bad⟩
  | .block =>
    (List.range ((k + bl - 1) / bl)).foldl (fun r j =>
      let len := min bl (k - bl * j)
      let p := (List.range len).foldl (fun (q : Num × Word × Bool) i =>
          let x := a (bl * j + i); let y := b (bl * j + i)
          let m := x.num.mul y.num
          (if i = 0 then m else q.1.add m, q.2.1 ||| x.flags ||| y.flags, q.2.2 || x.bad || y.bad))
        (.fin false 0 1 0, 0#32, false)
      let u := sa (bl * j); let v := sb (bl * j)
      let o := accFp r.acc ((u.num.mul v.num).mul p.1)
      ⟨o.1, r.flags ||| o.2 ||| p.2.1 ||| u.flags ||| v.flags, r.bad || p.2.2 || u.bad || v.bad⟩)
      ⟨acc.val, 0#32, acc.bad⟩

/-- The block length of the per-block path (R79). -/
def pathBlock (fa fb : Fmt) (sa sb : Bool) : Nat :=
  if sa && sb then min (blockLen fa) (blockLen fb)
  else if sa then blockLen fa
  else if sb then blockLen fb
  else min (blockLen fa) (blockLen fb)

end Sys2Proof.Machine
end

