-- ==== Sys2Proof/Machine/MatrixBank.lean ====
section
/-! DEFINITION. Matrix operations after their issue: what they read, what they write and when (R100 to R114, R126, R140). -/

namespace Sys2Proof.Machine

/-- Operand formats of an operation. A held operand's descriptor holds, from the issue on, the format, scaling and K of
its plane's latest load (R104). -/
def opFmts (op : MatOp) : Fmt × Fmt :=
  let fa := (fmtOfCode op.da.fmt).getD .i8
  let fb := (fmtOfCode op.db.fmt).getD .i8
  match op.kind with
  | .mload => if op.stat = 1 then (fa, fa) else (fb, fb)
  | _ => (fa, fb)

/-- The bytes an operation reads on its A and B lanes, with the cycle of each (R131 to R134, R210). -/
def opReads (op : MatOp) (fa fb : Fmt) (s : Nat) : List (Nat × Nat) × List (Nat × Nat) :=
  let sh := shapeOf op.tgt
  let rate := laneRate op.tgt
  let whole (d : MatDesc) (f : Fmt) (rows : List Nat) : List (Nat × Nat) :=
    (List.range (sliceCount s d.k)).flatMap fun j =>
      sliceReads d f s j rows (slicesBefore f s d.k rows.length j)
  let wholeS (d : MatDesc) (f : Fmt) (rows : List Nat) (pos : Nat) : List (Nat × Nat) :=
    (List.range (sliceCount s d.k)).flatMap fun j =>
      scaleReads d f s j rows (pos + scalesBefore f d.scaled s d.k rows.length j)
  let total (d : MatDesc) (f : Fmt) (n : Nat) : Nat := slicesBefore f s d.k n (sliceCount s d.k)
  match op.kind with
  | .mmac =>
    if op.stat = 0 then
      ((List.range (sliceCount s op.da.k)).flatMap fun j =>
          atCycles (op.aStart.getD j 0) rate (sliceReads op.da fa s j (List.range sh.1) 0),
       (List.range (sliceCount s op.da.k)).flatMap fun j =>
          let ks := sliceElems s op.da.k j
          let pb := sh.2 * readBytes fb s ks
          let pa := pb + sh.1 * readScales fa op.da.scaled ks
          atCycles (op.bStart.getD j 0) rate
            (sliceReads op.db fb s j (List.range sh.2) 0 ++ scaleReads op.da fa s j (List.range sh.1) pb
              ++ scaleReads op.db fb s j (List.range sh.2) pa))
    else if op.stat = 1 then
      ([], atCycles (op.bStart.getD 0 0) rate
        (whole op.db fb (List.range sh.2) ++ wholeS op.db fb (List.range sh.2) (total op.db fb sh.2)))
    else
      ((List.range 64).flatMap fun t => atCycles (op.aStart.getD t 0) rate (whole op.da fa (isRows op.tgt t)),
       (List.range 64).flatMap fun t => atCycles (op.bStart.getD t 0) rate (wholeS op.da fa (isRows op.tgt t) 0))
  | .mload =>
    if op.stat = 1 then
      (atCycles (op.aStart.getD 0 0) rate (whole op.da fa (List.range sh.1)),
       atCycles (op.bStart.getD 0 0) rate (wholeS op.da fa (List.range sh.1) 0))
    else
      ([], atCycles (op.bStart.getD 0 0) rate
        (whole op.db fb (List.range sh.2) ++ wholeS op.db fb (List.range sh.2) (total op.db fb sh.2)))
  | _ => ([], [])

/-- A byte as seen in a cycle, with the state of its word's parity. -/
def seenByte (sp : Spad) (cyc a : Nat) : Byte × Bool := (spadByte sp cyc a, spadBad sp cyc (a / 4))

/-- Whether any read meets a row with the tarnish mark (R113). -/
def readsTarn (sp : Spad) (l : List (Nat × Nat)) : Bool :=
  ((l.map fun p => (p.1 / 128, p.2)).eraseDups).any fun p => spadTarn sp p.2 p.1

/-- The entry readers of an accepted `mmac` for entry (r, col): elements and scales of A and B (R95, R96, R101 to R104). -/
structure EntryReaders where
  a : Nat → Elem
  b : Nat → Elem
  sa : Nat → Elem
  sb : Nat → Elem

/-- A held operand's element and scale from its plane: local row `lr` of `n`, slice length s. -/
def planeElem (p : Plane) (f : Fmt) (scaled : Bool) (s n lr k : Nat) : Elem :=
  elemOf f scaled (fun i => p.data.getD ((k / s) * (n * rowBytes f s) + lr * rowBytes f s + i) (0#8, false)) (k % s)

def planeScale (p : Plane) (f : Fmt) (scaled : Bool) (s n lr k : Nat) : Elem :=
  if scaled then
    let nb := s / blockLen f
    scaleOf f (p.scales.getD ((k / s) * (n * nb) + lr * nb + k % s / blockLen f) (0#8, false))
  else unitScale

/-- An element of a streamed operand: row r of the slice layout, the row's index `ri` among `n` rows read, the unit's start
cycle, and the position of slice j in the unit. -/
def streamElem (sp : Spad) (d : MatDesc) (f : Fmt) (s rate r ri start sp0 k : Nat) : Elem :=
  let j := k / s
  let ub := readBytes f s (sliceElems s d.k j)
  elemOf f d.scaled
    (fun i => seenByte sp (readCycle start rate (sp0 + ri * ub + i)) (d.base + j * d.stride + r * rowBytes f s + i)) (k % s)

def streamScale (sp : Spad) (d : MatDesc) (f : Fmt) (s rate r ri start sp0 k : Nat) : Elem :=
  if d.scaled then
    let j := k / s
    let nbr := readScales f d.scaled (sliceElems s d.k j)
    let nb := s / blockLen f
    let q := k % s / blockLen f
    scaleOf f (seenByte sp (readCycle start rate (sp0 + ri * nbr + q)) (d.sbase + j * d.sstride + r * nb + q))
  else unitScale

def noPlane : Plane := ⟨false, 0, false, 0, 0, false, [], []⟩

/-- The plane of array n that an operation names. -/
def planeOf (c : Core) (n p : Nat) : Plane := mgetD c.planes (2 * n + p) noPlane

def entryReaders (c : Core) (op : MatOp) (fa fb : Fmt) (s r col : Nat) : EntryReaders :=
  let sh := shapeOf op.tgt
  let rate := laneRate op.tgt
  let place := entryPlace op.tgt r col
  let sp := c.spad
  if op.stat = 0 then
    let pB (k : Nat) : Nat := sh.2 * readBytes fb s (sliceElems s op.da.k (k / s))
    let pA (k : Nat) : Nat := pB k + sh.1 * readScales fa op.da.scaled (sliceElems s op.da.k (k / s))
    { a := fun k => streamElem sp op.da fa s rate r r (op.aStart.getD (k / s) 0) 0 k
      b := fun k => streamElem sp op.db fb s rate col col (op.bStart.getD (k / s) 0) 0 k
      sa := fun k => streamScale sp op.da fa s rate r r (op.bStart.getD (k / s) 0) (pB k) k
      sb := fun k => streamScale sp op.db fb s rate col col (op.bStart.getD (k / s) 0) (pA k) k }
  else if op.stat = 1 then
    let pl := planeOf c place.1 op.plane
    let tot := slicesBefore fb s op.db.k sh.2 (sliceCount s op.db.k)
    { a := planeElem pl fa op.da.scaled s 64 place.2.1
      b := fun k => streamElem sp op.db fb s rate col col (op.bStart.getD 0 0) (slicesBefore fb s op.db.k sh.2 (k / s)) k
      sa := planeScale pl fa op.da.scaled s 64 place.2.1
      sb := fun k => streamScale sp op.db fb s rate col col (op.bStart.getD 0 0)
        (tot + scalesBefore fb op.db.scaled s op.db.k sh.2 (k / s)) k }
  else
    let pl := planeOf c place.1 op.plane
    let t := place.2.1
    let n := (isRows op.tgt t).length
    let ri := (isRows op.tgt t).findIdx (fun x => x == r)
    { a := fun k => streamElem sp op.da fa s rate r ri (op.aStart.getD t 0) (slicesBefore fa s op.da.k n (k / s)) k
      b := planeElem pl fb op.db.scaled s 8 place.2.2
      sa := fun k => streamScale sp op.da fa s rate r ri (op.bStart.getD t 0)
        (scalesBefore fa op.da.scaled s op.da.k n (k / s)) k
      sb := planeScale pl fb op.db.scaled s 8 place.2.2 }

/-- The entries of the target shape that the operation's mask leaves active (R115). -/
def activeEntries (op : MatOp) : List (Nat × Nat) :=
  let sh := shapeOf op.tgt
  ((List.range sh.1).filter fun r => op.rows.getLsbD r).flatMap fun r =>
    ((List.range sh.2).filter fun q => op.cols.getLsbD q).map fun q => (r, q)

/-- Whether an operation writes element e of accumulator tile a (R107, R109, R116). -/
def opWrites (op : MatOp) (a e : Nat) : Bool :=
  op.enabled &&
  (match op.kind with
   | .mmac | .mzero =>
     (activeEntries op).any fun rc =>
       let p := entryPlace op.tgt rc.1 rc.2
       accPlace p.1 p.2.1 p.2.2 == (a, e)
   | .mfill => (arraysOf op.tgt).contains (a / 2)
   | _ => false)

/-- The accumulator tiles an operation writes. -/
def tilesWritten (op : MatOp) : List Nat :=
  match op.kind with
  | .mmac | .mzero => ((activeEntries op).map fun rc =>
      let p := entryPlace op.tgt rc.1 rc.2
      (accPlace p.1 p.2.1 p.2.2).1).eraseDups
  | .mfill => (arraysOf op.tgt).flatMap fun n => [2 * n, 2 * n + 1]
  | _ => []

/-- A tile's elements with nothing written: undefined at reset (R110). DESIGN CHOICE zero, log entry 4. -/
def blankTile : List PWord := List.replicate 256 ⟨0#32, false⟩

/-- An element of an accumulator tile as it stands in the bank. -/
def accElem (c : Core) (a e : Nat) : PWord := (mgetD c.acc a blankTile).getD e ⟨0#32, false⟩

def accPut (acc : Map (List PWord)) (a e : Nat) (v : PWord) : Map (List PWord) :=
  mset acc a ((mgetD acc a blankTile).set e v)

/-- TARNISH of tiles set or cleared (R113). -/
def accTarnPut (m : BitVec 8) (tiles : List Nat) (b : Bool) : BitVec 8 :=
  tiles.foldl (fun w a => if b then w ||| BitVec.ofNat 8 (2 ^ a) else w &&& ~~~(BitVec.ofNat 8 (2 ^ a))) m

/-- The data a load captures for array n: `rows` are the operand rows of the array, with full rows of u bytes; bytes not
read are zero. -/
def captureRows (sp : Spad) (reads : List (Nat × Nat)) (d : MatDesc) (f : Fmt) (s : Nat) (rows : List Nat) :
    List (Byte × Bool) :=
  (List.range (sliceCount s d.k)).flatMap fun j =>
    rows.flatMap fun r => (List.range (rowBytes f s)).map fun i =>
      let a := d.base + j * d.stride + r * rowBytes f s + i
      match reads.find? (fun p => p.1 == a) with
      | some p => seenByte sp p.2 a
      | none => (0#8, false)

def captureScales (sp : Spad) (reads : List (Nat × Nat)) (d : MatDesc) (f : Fmt) (s : Nat) (rows : List Nat) :
    List (Byte × Bool) :=
  if d.scaled then
    (List.range (sliceCount s d.k)).flatMap fun j =>
      rows.flatMap fun r => (List.range (s / blockLen f)).map fun i =>
        let a := d.sbase + j * d.sstride + r * (s / blockLen f) + i
        match reads.find? (fun p => p.1 == a) with
        | some p => seenByte sp p.2 a
        | none => (0#8, false)
  else []

/-- The rows of A, or columns of B, of the target shape that array n covers (R91). -/
def arrayRows (tgt n : Nat) : List Nat :=
  match tgt with
  | 4 => (List.range 64).map fun r => 64 * n + r
  | 5 => (List.range 64).map fun r => 64 * (n % 2) + r
  | _ => List.range 64

def arrayCols (tgt n : Nat) : List Nat :=
  match tgt with
  | 5 => (List.range 8).map fun q => 8 * (n / 2) + q
  | 6 => (List.range 8).map fun q => 8 * n + q
  | _ => List.range 8

/-- The parity errors of an operation's reads noted, once it has read (R230). -/
def noteOpReads (c : Core) (op : MatOp) (fa fb : Fmt) (s : Nat) : Core :=
  let rd := opReads op fa fb s
  noteReads (noteReads c 0 op.cend rd.1) 1 op.cend rd.2

/-- A load's data put into its planes when it is ready (R104, R113). -/
def applyLoad (c : Core) (op : MatOp) : Core :=
  if !op.enabled then c
  else
    let f := (opFmts op).1
    let s := sliceLen f f
    let rd := opReads op f f s
    let tarn := readsTarn c.spad (rd.1 ++ rd.2)
    let d := if op.stat = 1 then op.da else op.db
    let el := if op.stat = 1 then rd.1 else rd.2
    let c1 := (arraysOf op.tgt).foldl (fun (k : Core) n =>
      let rows := if op.stat = 1 then arrayRows op.tgt n else arrayCols op.tgt n
      let pl : Plane := { planeOf k n op.plane with
        tarn := tarn
        data := captureRows c.spad el d f s rows
        scales := captureScales c.spad rd.2 d f s rows }
      { k with planes := mset k.planes (2 * n + op.plane) pl }) c
    noteOpReads c1 op f f s

/-- The results of an `mmac` put into the bank (R78, R105, R109, R113, R116). -/
def applyMmac (c : Core) (op : MatOp) : Core :=
  let ff := opFmts op
  let s := sliceLen ff.1 ff.2
  let sa := op.da.scaled
  let sb := op.db.scaled
  let k := op.da.k
  let path := accPath ff.1 ff.2 sa sb
  let bl := pathBlock ff.1 ff.2 sa sb
  let rd := opReads op ff.1 ff.2 s
  if !op.enabled then noteOpReads c op ff.1 ff.2 s
  else
    let tarn := readsTarn c.spad (rd.1 ++ rd.2) ||
      (op.stat != 0 && (arraysOf op.tgt).any fun n => (planeOf c n op.plane).tarn)
    let res := (activeEntries op).foldl (fun (m : Map (List PWord) × Word × Bool) rc =>
        let p := entryPlace op.tgt rc.1 rc.2
        let ae := accPlace p.1 p.2.1 p.2.2
        let old : PWord := if op.clr then ⟨0#32, false⟩ else accElem c ae.1 ae.2
        let rs := entryReaders c op ff.1 ff.2 s rc.1 rc.2
        let o := reduceEntry path bl k rs.a rs.b rs.sa rs.sb old
        (accPut m.1 ae.1 ae.2 ⟨o.acc, o.bad⟩, m.2.1 ||| o.flags, m.2.2 || o.bad))
      (c.acc, 0#32, false)
    let tw := tilesWritten op
    let c1 : Core := { c with
      acc := res.1
      accTarn := if tarn then accTarnPut c.accTarn tw true
        else if op.clr then accTarnPut c.accTarn tw false else c.accTarn
      flagPend := if res.2.1 = 0#32 then c.flagPend else c.flagPend ++ [(op.result, res.2.1)] }
    noteOpReads c1 op ff.1 ff.2 s

/-- `mzero`: active entries to +0, their tiles' TARNISH cleared (R113, R140). -/
def applyMzero (c : Core) (op : MatOp) : Core :=
  if !op.enabled then c
  else
    { c with
      acc := (activeEntries op).foldl (fun m rc =>
        let p := entryPlace op.tgt rc.1 rc.2
        let ae := accPlace p.1 p.2.1 p.2.2
        accPut m ae.1 ae.2 ⟨0#32, false⟩) c.acc
      accTarn := accTarnPut c.accTarn (tilesWritten op) false }

/-- Addresses and cycles that an `mspill` or `mfill` of array n moves: element e of the two tiles (R126, R140). -/
def spillPlace (op : MatOp) (n e : Nat) : Nat × Nat :=
  let p := 4 * e
  (op.da.base + (if op.tgt < 4 then 0 else 2048 * n) + p, op.issue + 1 + p / 64)

/-- `mfill`: the bank of each target array read from the scratchpad (R126, R140). -/
def applyMfill (c : Core) (op : MatOp) : Core :=
  let reads := (arraysOf op.tgt).flatMap fun n => (List.range 512).map fun e => spillPlace op n e
  let c0 := noteReads c 2 op.cend reads
  if !op.enabled then c0
  else
    { c0 with
      acc := (arraysOf op.tgt).foldl (fun m n =>
        [0, 1].foldl (fun m h => mset m (2 * n + h) ((List.range 256).map fun e =>
          let q := spillPlace op n (256 * h + e)
          spadWord c.spad q.2 q.1)) m) c.acc
      accTarn := accTarnPut c.accTarn (tilesWritten op) (readsTarn c.spad reads) }

/-- An operation's values put where it writes them. -/
def applyMat (c : Core) (op : MatOp) : Core :=
  match op.kind with
  | .mmac => applyMmac c op
  | .mload => applyLoad c op
  | .mzero => applyMzero c op
  | .mfill => applyMfill c op
  | .mspill => c

/-- Whether two targets share an array. -/
def sharesArray (a b : Nat) : Bool := (arraysOf a).any fun n => (arraysOf b).contains n

/-- Whether an operation is due at cycle t: its own result has come, or that of a later one on the same array. -/
def matDue (l : List MatOp) (op : MatOp) (t : Nat) : Bool :=
  decide (op.result ≤ t) ||
  (decide (op.cend < t) && l.any fun o => decide (op.issue < o.issue ∧ o.result ≤ t) && sharesArray o.tgt op.tgt)

/-- The first `n` operations of the list given their results where they are due at cycle t, in issue order. -/
def settleMatrixFrom (t : Nat) (all : List MatOp) : List MatOp → Core → Core
  | [], c => c
  | op :: rest, c =>
    if !op.applied && matDue all op t then
      let c1 := applyMat c op
      settleMatrixFrom t all rest { c1 with mops := c1.mops.map fun o => if o = op then { o with applied := true } else o }
    else settleMatrixFrom t all rest c

/-- Every matrix result that has come by cycle t stands in the bank; finished operations leave the list. -/
def settleMatrix (c : Core) (t : Nat) : Core :=
  let c1 := settleMatrixFrom t c.mops c.mops c
  { c1 with mops := c1.mops.filter fun o => decide (t < o.result) }

/-- An entry of an accumulator tile as a reader in cycle t sees it: undefined from the compute start of an operation that
writes it until that operation's result cycle (R111). `fr` numbers the free value. -/
def accSeen (c : Core) (fr t a e : Nat) : PWord :=
  if c.mops.any fun op => decide (op.cstart ≤ t ∧ t < op.result) && opWrites op a e
  then ⟨Config.freeWord (fr + e), false⟩ else accElem c a e

end Sys2Proof.Machine
end

