-- ==== Sys2Proof/Machine/Transcend.lean ====
section
/-! DEFINITION. The functions of R157, correctly rounded: each is enclosed between two fixed-point bounds, and the
result is the word to which both bounds round. -/

namespace Sys2Proof.Machine

/-- An enclosure lo * 2^-1024 <= value <= hi * 2^-1024. -/
structure Enc where
  lo : Int
  hi : Int
  deriving DecidableEq, Repr

/-- The number of fraction bits of the enclosures. -/
def encBits : Nat := 1024

/-- One in fixed point. -/
def encOne : Int := 2 ^ 1024

/-- floor and ceiling of z / 2^1024. -/
def shrFloor (z : Int) : Int := z.fdiv encOne
def shrCeil (z : Int) : Int := -((-z).fdiv encOne)

def Enc.ofInt (z : Int) : Enc := ⟨z * encOne, z * encOne⟩
def Enc.add (a b : Enc) : Enc := ⟨a.lo + b.lo, a.hi + b.hi⟩
def Enc.neg (a : Enc) : Enc := ⟨-a.hi, -a.lo⟩
def Enc.sub (a b : Enc) : Enc := a.add b.neg

/-- Product of enclosures. -/
def Enc.mul (a b : Enc) : Enc :=
  let p := a.lo * b.lo
  let q := a.lo * b.hi
  let r := a.hi * b.lo
  let s := a.hi * b.hi
  ⟨shrFloor (min (min p q) (min r s)), shrCeil (max (max p q) (max r s))⟩

/-- Quotient of a non-negative enclosure by a positive one. -/
def Enc.divPos (a b : Enc) : Enc :=
  ⟨(a.lo * encOne).fdiv b.hi, -((-(a.hi * encOne)).fdiv b.lo)⟩

/-- Quotient by a positive integer. -/
def Enc.divNat (a : Enc) (k : Nat) : Enc := ⟨a.lo.fdiv k, -((-a.hi).fdiv k)⟩

/-- Half of an enclosed value, k times. -/
def Enc.shr (a : Enc) (k : Nat) : Enc := a.divNat (2 ^ k)

/-- The enclosure of m * 2^e. -/
def Enc.ofDyadic (m : Nat) (e : Int) : Enc :=
  let k := e + 1024
  if k ≥ 0 then ⟨m * 2 ^ k.toNat, m * 2 ^ k.toNat⟩
  else ⟨(m : Int).fdiv (2 ^ (-k).toNat), (m : Int).fdiv (2 ^ (-k).toNat) + 1⟩

/-- Sum of y^i / i! from term index i on, for 0 <= y <= 1/16, with the rest bounded by one unit a step. -/
def expSeries (y : Enc) : Nat → Nat → Enc → Enc → Enc
  | 0, _, term, acc => ⟨acc.lo, (acc.add term).hi + 1⟩
  | f + 1, i, term, acc => expSeries y f (i + 1) ((term.mul y).divNat (i + 1)) (acc.add term)

/-- The square of an enclosed value, k times over. -/
def squareTimes : Nat → Enc → Enc
  | 0, a => a
  | k + 1, a => squareTimes k (a.mul a)

/-- e^x for 0 <= x < 256. -/
def encExp (x : Enc) : Enc :=
  squareTimes 12 (expSeries (x.shr 12) 200 0 (Enc.ofInt 1) (Enc.ofInt 0))

/-- The series z + z^3/3 + z^5/5 + ... for 0 <= z <= 1/3. -/
def atanhSeries (z2 : Enc) : Nat → Nat → Enc → Enc → Enc
  | 0, _, pw, acc => ⟨acc.lo, (acc.add pw).hi + 1⟩
  | f + 1, i, pw, acc => atanhSeries z2 f (i + 2) (pw.mul z2) (acc.add (pw.divNat i))

/-- atanh z for 0 <= z <= 1/3. -/
def encAtanh (z : Enc) : Enc := atanhSeries (z.mul z) 330 1 z (Enc.ofInt 0)

/-- The natural logarithm of 2. -/
def encLn2 : Enc :=
  let a := encAtanh ((Enc.ofInt 1).divNat 3)
  a.add a

/-- The natural logarithm of m * 2^e for m > 0. -/
def encLn (m : Nat) (e : Int) : Enc :=
  let k := Nat.log2 m
  let f := Enc.ofDyadic m (-(k : Int))
  let a := encAtanh ((f.sub (Enc.ofInt 1)).divPos (f.add (Enc.ofInt 1)))
  (a.add a).add (Enc.mul (Enc.ofInt (e + k)) encLn2)

/-- The series of arctan (1 / k): alternating powers of 1 / k^2, p the power so far. -/
def atanInvSeries (k2 : Nat) : Nat → Nat → Bool → Enc → Enc → Enc
  | 0, _, _, p, acc => ⟨acc.lo - p.hi - 1, acc.hi + p.hi + 1⟩
  | f + 1, i, neg, p, acc =>
    let t := p.divNat i
    atanInvSeries k2 f (i + 2) (!neg) (p.divNat k2) (if neg then acc.sub t else acc.add t)

def encAtanInv (k : Nat) : Enc := atanInvSeries (k * k) 260 1 false ((Enc.ofInt 1).divNat k) (Enc.ofInt 0)

/-- pi, by Machin's formula. -/
def encPi : Enc :=
  (Enc.mul (Enc.ofInt 16) (encAtanInv 5)).sub (Enc.mul (Enc.ofInt 4) (encAtanInv 239))

/-- Alternating series of sine (start i = 1, term = r) and cosine (start i = 0, term = 1) for 0 <= r < 2. -/
def trigSeries (r2 : Enc) : Nat → Nat → Bool → Enc → Enc → Enc
  | 0, _, _, t, acc => ⟨acc.lo - t.hi - 1, acc.hi + t.hi + 1⟩
  | f + 1, i, neg, t, acc =>
    trigSeries r2 f (i + 2) (!neg) ((t.mul r2).divNat ((i + 1) * (i + 2))) (if neg then acc.sub t else acc.add t)

def encSin (r : Enc) : Enc := trigSeries (r.mul r) 130 1 false r (Enc.ofInt 0)
def encCos (r : Enc) : Enc := trigSeries (r.mul r) 130 0 false (Enc.ofInt 1) (Enc.ofInt 0)

/-- Sum of x^(2n+1) / (1 * 3 * ... * (2n+1)), for 0 <= x <= 17. -/
def gaussSeries (x2 : Enc) : Nat → Nat → Enc → Enc → Enc
  | 0, _, t, acc => ⟨acc.lo, (acc.add t).hi + 1⟩
  | f + 1, i, t, acc => gaussSeries x2 f (i + 2) ((t.mul x2).divNat (i + 2)) (acc.add t)

/-- The square root of a positive enclosed value. -/
def encSqrt (a : Enc) : Enc :=
  ⟨(isqrt (a.lo.toNat * 2 ^ 1024) : Nat), (isqrt (a.hi.toNat * 2 ^ 1024) + 1 : Nat)⟩

/-- The normal distribution function less one half, at 0 <= x <= 17. -/
def encPhiHalf (x : Enc) : Enc :=
  let x2 := x.mul x
  let dens := (Enc.ofInt 1).divPos ((encExp (x2.shr 1)).mul (encSqrt (encPi.add encPi)))
  dens.mul (gaussSeries x2 1400 1 x (Enc.ofInt 0))

/-- An endpoint rounded to FP32. -/
def rneEnd (z : Int) : Word := rne32 (.fin (decide (z < 0)) z.natAbs 1 (-1024))

/-- The word to which both ends round; none where they differ or the sign is open. -/
def Enc.decide? (a : Enc) : Option Word :=
  if a.lo < 0 ∧ a.hi ≥ 0 then none
  else if rneEnd a.lo = rneEnd a.hi then some (rneEnd a.lo) else none

/-- The functions of class T. -/
inductive TFn where
  | exp | exp2 | log | log2 | tanh | sigm | gelu | silu | sin | cos
  deriving DecidableEq, Repr

/-- The function's operation code less 0x20 (R153). -/
def TFn.code : TFn → Nat
  | .exp => 0 | .exp2 => 1 | .log => 2 | .log2 => 3 | .tanh => 4
  | .sigm => 5 | .gelu => 6 | .silu => 7 | .sin => 8 | .cos => 9

/-- e^x as an enclosure, for a signed dyadic |x| < 256. -/
def encExpSigned (neg : Bool) (x : Enc) : Enc :=
  let p := encExp x
  if neg then (Enc.ofInt 1).divPos p else p

/-- Reduction of a non-negative dyadic by pi/2: quotient modulo 4 and remainder, none where the enclosure is too wide. -/
def reducePio2 (n : Nat) (e : Int) : Option (Nat × Enc) :=
  let x := Enc.ofDyadic n e
  let h := encPi.shr 1
  let qa := x.lo.fdiv h.hi
  let qb := x.hi.fdiv h.lo
  if qa = qb then some ((qa % 4).toNat, x.sub (Enc.mul (Enc.ofInt qa) h)) else none

/-- Sine of the q-th quadrant and remainder r. -/
def sinQuadrant (q : Nat) (r : Enc) : Enc :=
  match q % 4 with
  | 0 => encSin r | 1 => encCos r | 2 => (encSin r).neg | _ => (encCos r).neg

/-- Enclosure of a class T function at a finite non-zero x = (-1)^s n 2^e, or none. The cases far out, where the result
rounds to a limit, are taken by `tfn`. -/
def tfnEnc (f : TFn) (s : Bool) (n : Nat) (e : Int) : Option Enc :=
  let x := Enc.ofDyadic n e
  let one := Enc.ofInt 1
  let signed (v : Enc) : Enc := if s then v.neg else v
  match f with
  | .exp => some (encExpSigned s x)
  | .exp2 => some (encExpSigned s (x.mul encLn2))
  | .log => some (encLn n e)
  | .log2 =>
    let l := encLn n e
    if l.lo ≥ 0 then some (l.divPos encLn2) else some ((l.neg.divPos encLn2).neg)
  | .tanh =>
    let p := encExp (x.add x)
    some (signed ((p.sub one).divPos (p.add one)))
  | .sigm =>
    let p := encExpSigned (!s) x
    some (one.divPos (one.add p))
  | .silu =>
    let p := encExpSigned (!s) x
    some (signed (x.divPos (one.add p)))
  | .gelu =>
    let h := encPhiHalf x
    let half := one.shr 1
    some (signed (x.mul (if s then half.sub h else half.add h)))
  | .sin => (reducePio2 n e).map fun qr => signed (sinQuadrant qr.1 qr.2)
  | .cos => (reducePio2 n e).map fun qr => sinQuadrant (qr.1 + 1) qr.2

/-- Whether |n * 2^e| >= k. -/
def magGe (n : Nat) (e : Int) (k : Nat) : Bool := exceeds n 1 e k 0 || (let nd := inUnits n 1 e 0; nd.1 == k * nd.2)

/-- Positive infinity, negative infinity, one and minus zero as words. -/
def inf32 : Word := 0x7F800000#32
def ninf32 : Word := 0xFF800000#32
def one32 : Word := 0x3F800000#32
def nzero32 : Word := 0x80000000#32

/-- The exact integer value of (-1)^s n 2^e where it is one. -/
def intValue? (s : Bool) (n : Nat) (e : Int) : Option Int :=
  let nd := inUnits n 1 e 0
  if nd.1 % nd.2 = 0 then some (if s then -((nd.1 / nd.2 : Nat) : Int) else ((nd.1 / nd.2 : Nat) : Int)) else none

/-- A class T function of R157 on a word. -/
def tfn (f : TFn) (a : Word) : Word :=
  let fall := Config.undecidedFn f.code a
  let byEnc (s : Bool) (n : Nat) (e : Int) : Word := ((tfnEnc f s n e).bind Enc.decide?).getD fall
  match num32 a with
  | .nan => nan32
  | .inf s =>
    match f with
    | .exp => if s then 0#32 else inf32
    | .exp2 => if s then 0#32 else inf32
    | .log => if s then nan32 else inf32
    | .log2 => if s then nan32 else inf32
    | .tanh => if s then 0xBF800000#32 else one32
    | .sigm => if s then 0#32 else one32
    | .gelu => if s then nzero32 else inf32
    | .silu => if s then nzero32 else inf32
    | .sin => nan32
    | .cos => nan32
  | .fin s n _ e =>
    if n = 0 then
      match f with
      | .exp => one32
      | .exp2 => one32
      | .log => ninf32
      | .log2 => ninf32
      | .tanh => a
      | .sigm => 0x3F000000#32
      | .gelu => a
      | .silu => a
      | .sin => a
      | .cos => one32
    else
      match f with
      | .exp => if magGe n e 200 then (if s then 0#32 else inf32) else byEnc s n e
      | .exp2 =>
        if magGe n e 200 then (if s then 0#32 else inf32)
        else match intValue? s n e with
          | some z => rne32 (.fin false 1 1 z)
          | none => byEnc s n e
      | .log => if s then nan32 else if a = one32 then 0#32 else byEnc s n e
      | .log2 =>
        if s then nan32
        else if n = 2 ^ Nat.log2 n then rne32 (numOfInt (e + Nat.log2 n) 0)
        else byEnc s n e
      | .tanh => if magGe n e 64 then (if s then 0xBF800000#32 else one32) else byEnc s n e
      | .sigm => if magGe n e 200 then (if s then 0#32 else one32) else byEnc s n e
      | .gelu => if magGe n e 17 then (if s then nzero32 else a) else byEnc s n e
      | .silu => if magGe n e 200 then (if s then nzero32 else a) else byEnc s n e
      | .sin => byEnc s n e
      | .cos => byEnc s n e

end Sys2Proof.Machine
end

