-- ==== Sys2Proof/Machine/VectorCalc.lean ====
section
/-! DEFINITION. What the vector operations compute on tiles of 256 words (R153 to R181). -/

namespace Sys2Proof.Machine

/-- A result word with the arithmetic flags it raises. -/
abbrev WF := Word × Word

def noFlag (w : Word) : WF := (w, 0#32)

/-- INT32 operations that clamp (R156). -/
def iadd (a b : Word) : WF := satInt32 (a.toInt + b.toInt)
def isub (a b : Word) : WF := satInt32 (a.toInt - b.toInt)
def imul (a b : Word) : WF := satInt32 (a.toInt * b.toInt)
def iabs (a : Word) : WF := satInt32 a.toInt.natAbs
def ineg (a : Word) : WF := satInt32 (-a.toInt)
def imin (a b : Word) : Word := if a.toInt ≤ b.toInt then a else b
def imax (a b : Word) : Word := if a.toInt ≤ b.toInt then b else a

/-- FP32 absolute value and negation: canonical NaN for a NaN (R47). -/
def fabs (a : Word) : Word := if isNan32 a then nan32 else a &&& 0x7FFFFFFF#32
def fneg (a : Word) : Word := if isNan32 a then nan32 else a ^^^ 0x80000000#32

/-- The comparison of COND 0 to 7: EQ, NE, LT, LE, GT, GE, ORD, UN (R162). -/
def condHolds (cond : Nat) (unordered : Bool) (c : Int) : Bool :=
  match cond with
  | 0 => !unordered && decide (c = 0)
  | 1 => unordered || decide (c ≠ 0)
  | 2 => !unordered && decide (c < 0)
  | 3 => !unordered && decide (c ≤ 0)
  | 4 => !unordered && decide (c > 0)
  | 5 => !unordered && decide (c ≥ 0)
  | 6 => !unordered
  | _ => unordered

def fcompare (cond : Nat) (a b : Word) : Bool :=
  condHolds cond (isNan32 a || isNan32 b) ((num32 a).cmp (num32 b))
def icompare (cond : Nat) (a b : Word) : Bool := condHolds cond false (a.toInt - b.toInt)

/-- Conversion of an FP32 element by FMT of `vcvt` (R160): exact FP32 value of the result, or an INT32 word. -/
def cvtElem (fmt : Nat) (r : Rnd) (sat : Bool) (a : Word) : WF :=
  match fmt with
  | 0 => noFlag (rne32 (numOfInt a.toInt 0))
  | 8 => let o := convInt (-128) 127 0 (num32 a) r; (BitVec.ofInt 32 o.1, o.2)
  | 9 => let o := convInt (-8) 7 0 (num32 a) r; (BitVec.ofInt 32 o.1, o.2)
  | 15 => let o := convInt (-2147483648) 2147483647 0 (num32 a) r; (BitVec.ofInt 32 o.1, o.2)
  | k =>
    match fmtOfCode k with
    | some f => let o := convElem f false (num32 a) r sat; (rne32 (decodeElem f false o.1), o.2)
    | none => noFlag a

/-- A tree of R83 over a list whose inactive elements are none (R164): adjacent pairs, level by level. -/
def pairUp (f : PWord → PWord → PWord × Word) : List (Option PWord) → List (Option PWord) × Word
  | a :: b :: t =>
    let r := pairUp f t
    match a, b with
    | some x, some y => let o := f x y; (some o.1 :: r.1, o.2 ||| r.2)
    | some x, none => (some x :: r.1, r.2)
    | none, y => (y :: r.1, r.2)
  | l => (l, 0#32)

def treeFold (f : PWord → PWord → PWord × Word) (l : List (Option PWord)) : Option PWord × Word :=
  let r1 := pairUp f l
  let r2 := pairUp f r1.1
  let r3 := pairUp f r2.1
  let r4 := pairUp f r3.1
  (r4.1.headD none, r1.2 ||| r2.2 ||| r3.2 ||| r4.2)

/-- The tile results joined one at a time in run order (R84). -/
def runFold (f : PWord → PWord → PWord × Word) (l : List (Option PWord × Word)) : Option PWord × Word :=
  l.foldl (fun acc t =>
    match acc.1, t.1 with
    | some x, some y => let o := f x y; (some o.1, acc.2 ||| t.2 ||| o.2)
    | some x, none => (some x, acc.2 ||| t.2)
    | none, y => (y, acc.2 ||| t.2)) (none, 0#32)

/-- A two-operand function on words with parity. -/
def lift2 (f : Word → Word → WF) (a b : PWord) : PWord × Word := let o := f a.val b.val; (⟨o.1, a.bad || b.bad⟩, o.2)

/-- A reduction of the chunks of 16 that `parts` gives, tiles in run order (R83, R84). -/
def reduceRun (f : Word → Word → WF) (parts : List (List (Option PWord))) : Option PWord × Word :=
  runFold (lift2 f) (parts.map (treeFold (lift2 f)))

/-- A NaN result becomes the canonical NaN (R47, R85). -/
def canonW (w : Word) : Word := if isNan32 w then nan32 else w

/-- The reductions: sum, maximum, minimum (R163, R164). -/
inductive RedKind where
  | sum | max | min
  deriving DecidableEq, Repr

def redFn (k : RedKind) (int : Bool) : Word → Word → WF :=
  match k, int with
  | .sum, false => fun a b => noFlag (fadd a b)
  | .sum, true => iadd
  | .max, false => fun a b => noFlag (fmax a b)
  | .max, true => fun a b => noFlag (imax a b)
  | .min, false => fun a b => noFlag (fmin a b)
  | .min, true => fun a b => noFlag (imin a b)

/-- The result where no element is active (R164). -/
def redEmpty (k : RedKind) (int : Bool) : Word :=
  match k, int with
  | .sum, _ => 0#32
  | .max, false => ninf32
  | .max, true => 0x80000000#32
  | .min, false => inf32
  | .min, true => 0x7FFFFFFF#32

/-- One reduction's result word, flags and whether no element was active. -/
def redResult (k : RedKind) (int : Bool) (parts : List (List (Option PWord))) : PWord × Word × Bool :=
  match reduceRun (redFn k int) parts with
  | (some p, fl) => (⟨if int then p.val else canonW p.val, p.bad⟩, fl, false)
  | (none, fl) => (⟨redEmpty k int, false⟩, fl, true)

/-- Row i, and column j, of a tile with its inactive elements none. -/
def tileRow (tile : List PWord) (mask : BitVec 256) (i : Nat) : List (Option PWord) :=
  (List.range 16).map fun j => if mask.getLsbD (16 * i + j) then tile[16 * i + j]? else none
def tileCol (tile : List PWord) (mask : BitVec 256) (j : Nat) : List (Option PWord) :=
  (List.range 16).map fun i => if mask.getLsbD (16 * i + j) then tile[16 * i + j]? else none

/-- What a row operation gives one row: its words by position, words of the statistics, the status nibble. -/
structure RowOut where
  ys     : List PWord
  m      : Word
  s      : Word
  status : Nat
  deriving DecidableEq, Repr

/-- Lists cut into chunks of 16. -/
def chunk16 {α : Type} (l : List α) : Nat → List (List α)
  | 0 => []
  | n + 1 => l.take 16 :: chunk16 (l.drop 16) n

/-- A small count as an FP32 word. -/
def fpOfNat (n : Nat) : Word := rne32 (.fin false n 1 0)

/-- Soft maximum of one row: position values with none where masked (R171, R172). -/
def smaxRow (n : Nat) (row : List (Option PWord)) : RowOut :=
  let v : List Word := row.map fun o => match o with
    | some p => p.val
    | none => ninf32
  let bad := row.any fun o => match o with
    | some p => p.bad
    | none => false
  let k := (v.filter fun w => w == inf32).length
  let mk (w : Word) : PWord := ⟨w, bad⟩
  if v.any isNan32 then ⟨v.map fun _ => mk nan32, nan32, nan32, 1⟩
  else if k > 0 then
    ⟨v.map fun w => mk (if w = inf32 then fdiv one32 (fpOfNat k) else 0#32), inf32, fpOfNat k, 2⟩
  else if v.all fun w => w == ninf32 then ⟨v.map fun _ => mk 0#32, ninf32, 0#32, 4⟩
  else
    let full (l : List Word) : List (List (Option PWord)) := chunk16 (l.map fun w => some (⟨w, false⟩ : PWord)) n
    let m := ((reduceRun (redFn .max false) (full v)).1.getD ⟨0#32, false⟩).val
    let e := v.map fun w => tfn .exp (fsub w m)
    let s := ((reduceRun (redFn .sum false) (full e)).1.getD ⟨0#32, false⟩).val
    ⟨e.map fun w => mk (fdiv w s), m, s, 0⟩

/-- The sum over the active positions of a row in the order of R83 and R84. -/
def sumActive (n : Nat) (row : List (Option PWord)) : Word :=
  match (reduceRun (redFn .sum false) (chunk16 row n)).1 with
  | some p => canonW p.val
  | none => 0#32

def mapOpt (f : Word → Word) (row : List (Option PWord)) : List (Option PWord) :=
  row.map fun o => o.map fun p => (⟨f p.val, p.bad⟩ : PWord)

/-- Layer or RMS normalisation of one row (R173 to R175). -/
def normRow (layer : Bool) (n : Nat) (eps : Word) (row : List (Option PWord)) : RowOut :=
  let act := row.filterMap id
  let a := act.length
  let bad := act.any fun p => p.bad
  let mk (w : Word) : PWord := ⟨w, bad⟩
  let anyInf := act.any fun p => isInf32 p.val
  if a = 0 then ⟨row.map fun _ => ⟨0#32, false⟩, 0#32, 0#32, 4⟩
  else if act.any fun p => isNan32 p.val || isInf32 p.val then
    ⟨row.map fun _ => mk nan32, 0#32, 0#32, 1 + (if anyInf then 2 else 0)⟩
  else
    let cnt := fpOfNat a
    let d := if layer then (let mu := fdiv (sumActive n row) cnt; mapOpt (fun x => fsub x mu) row) else row
    let var := fdiv (sumActive n (mapOpt (fun x => fmul x x) d)) cnt
    let q := fadd var eps
    if isNan32 q || q.msb || q = 0#32 then ⟨row.map fun _ => mk 0#32, 0#32, 0#32, 8⟩
    else
      let rs := frsqrt q
      let ys := d.map fun o => match o with
        | some p => mk (fmul p.val rs)
        | none => (⟨0#32, false⟩ : PWord)
      ⟨ys, 0#32, 0#32, (if ys.any fun p => isNan32 p.val then 1 else 0) + (if ys.any fun p => isInf32 p.val then 2 else 0)⟩

/-! #### Packing -/

/-- Element codes packed into bytes (R54). -/
def packCodes (f : Fmt) (codes : List Nat) : List Byte :=
  match f with
  | .t5 => (List.range ((codes.length + 4) / 5)).map fun b =>
      BitVec.ofNat 8 ((codes.getD (5 * b) 0) + 3 * (codes.getD (5 * b + 1) 0) + 9 * (codes.getD (5 * b + 2) 0)
        + 27 * (codes.getD (5 * b + 3) 0) + 81 * (codes.getD (5 * b + 4) 0))
  | .f6e3 | .f6e2 =>
    (List.range (codes.length / 4)).flatMap fun g =>
      bytesOfNat 3 ((codes.getD (4 * g) 0) + 64 * (codes.getD (4 * g + 1) 0) + 4096 * (codes.getD (4 * g + 2) 0)
        + 262144 * (codes.getD (4 * g + 3) 0))
  | .f4e2 | .i4 | .l4 =>
    (List.range (codes.length / 2)).map fun b => BitVec.ofNat 8 ((codes.getD (2 * b) 0) + 16 * (codes.getD (2 * b + 1) 0))
  | f => codes.flatMap fun c => bytesOfNat (fmtBits f / 8) c

/-- The index of the element that byte b of a packed row comes from first, and the elements per unit of bytes: used for
the parity of the words written. -/
def elemsOfByte (f : Fmt) (b : Nat) : List Nat :=
  match f with
  | .t5 => (List.range 5).map fun i => 5 * b + i
  | .f6e3 | .f6e2 => (List.range 4).map fun i => 4 * (b / 3) + i
  | .f4e2 | .i4 | .l4 => [2 * b, 2 * b + 1]
  | f => [b / (fmtBits f / 8)]

/-! #### Quantisation -/

/-- emax of R62. -/
def quantEmax (f : Fmt) : Int :=
  match f with
  | .f8e4 => 8 | .f8e5 => 15 | .f6e3 => 4 | .f6e2 => 2 | .f4e2 => 2 | _ => 0

/-- The scale byte of a block from its elements (R62). -/
def quantScale (f : Fmt) (xs : List Word) : Nat :=
  let special := xs.any fun w => isNan32 w || isInf32 w
  let amax := xs.foldl (fun m w => if (w &&& 0x7FFFFFFF#32).toNat > m then (w &&& 0x7FFFFFFF#32).toNat else m) 0
  if f = .t5 ∨ f = .l4 then
    if special then 0x7F
    else (convElem .f8e4 false (num32 (BitVec.ofNat 32 amax)) .rne true).1
  else if special then 255
  else if amax = 0 then 0
  else
    match num32 (BitVec.ofNat 32 amax) with
    | .fin _ n d e => (max (-127) (min 127 (floorLog2 n d + e - quantEmax f)) + 127).toNat
    | _ => 255

/-- One element quantised under its block's scale byte (R62). -/
def quantElem (f : Fmt) (scale : Nat) (r : Rnd) (x : Word) : Nat × Word :=
  match decodeScale f scale with
  | .nan => convElem f true .nan r true
  | .inf _ => convElem f true .nan r true
  | .fin s n d e =>
    if n = 0 then (0, 0#32)
    else convElem f true (num32 (rne32 ((num32 x).div (.fin s n d e)))) r true

end Sys2Proof.Machine
end

