-- ==== Sys2Proof/Machine/VectorBank.lean ====
section
/-! DEFINITION. Tile registers, masks and row status: what a reader sees, and what stands at a result cycle
(R143 to R149, R165, R166, R176, R182 to R200). -/

namespace Sys2Proof.Machine

/-- A mask register: 0 holds all ones (R165); the others are undefined at reset, DESIGN CHOICE zero, log entry 4. -/
def maskOf (c : Core) (m : Nat) : BitVec 256 := if m = 0 then BitVec.allOnes 256 else mgetD c.masks m 0#256

/-- A tile's element as it stands. -/
def tileElem (c : Core) (t e : Nat) : PWord := (mgetD c.tiles t blankTile).getD e ⟨0#32, false⟩

/-- Whether some operation has an element of a tile undefined in cycle `cyc` (R186). -/
def tileOpen (c : Core) (cyc t e : Nat) : Bool :=
  (c.vops.any fun v => decide (v.issue + 1 ≤ cyc ∧ cyc < v.due) &&
    v.tiles.any fun p => p.1 == t && ((p.2.getD e none).isSome)) ||
  (c.vloads.any fun v => v.enabled && decide (v.issue + 1 ≤ cyc ∧ cyc < v.due) && v.tile == t)

/-- A tile's element as a reader in cycle `cyc` sees it; `fr` numbers the free value (R186). -/
def tileSeen (c : Core) (fr cyc t e : Nat) : PWord :=
  if tileOpen c cyc t e then ⟨Config.freeWord (fr + e), false⟩ else tileElem c t e

/-- The status nibble of a row as seen in a cycle: undefined while an operation writes the tile (R186). -/
def statusSeen (c : Core) (fr cyc t i : Nat) : Nat :=
  if (c.vops.any fun v => decide (v.issue + 1 ≤ cyc ∧ cyc < v.due) && v.status.any fun p => p.1 == t) ||
     (c.vloads.any fun v => v.enabled && decide (v.issue + 1 ≤ cyc ∧ cyc < v.due) && v.tile == t)
  then (Config.freeWord (fr + i)).toNat % 16
  else (mgetD c.tileStat t []).getD i 0

/-- The 256 elements a source selector gives in read cycle `cyc` (R146). -/
def sourceTile (c : Core) (fr cyc sel : Nat) : List PWord :=
  if sel < 32 then (List.range 256).map (tileSeen c fr cyc sel)
  else if sel < 40 then (List.range 256).map (accSeen c fr cyc (sel - 32))
  else List.replicate 256 ⟨cReg c (0x1200 + 4 * (sel - 40)), false⟩

/-- Whether a source carries TARNISH (R189). -/
def sourceTarn (c : Core) (sel : Nat) : Bool :=
  if sel < 32 then c.tileTarn.getLsbD sel else if sel < 40 then c.accTarn.getLsbD (sel - 32) else false

/-- Bit k of a mark word set or cleared. -/
def putBit8 (w : BitVec 8) (k : Nat) (b : Bool) : BitVec 8 :=
  if b then w ||| BitVec.ofNat 8 (2 ^ k) else w &&& ~~~(BitVec.ofNat 8 (2 ^ k))
def putBit32 (w : BitVec 32) (k : Nat) (b : Bool) : BitVec 32 :=
  if b then w ||| BitVec.ofNat 32 (2 ^ k) else w &&& ~~~(BitVec.ofNat 32 (2 ^ k))

/-- A tile with the written elements replaced. -/
def overTile (old : List PWord) (new : List (Option PWord)) : List PWord :=
  (List.range 256).map fun e => match new.getD e none with
    | some p => p
    | none => old.getD e ⟨0#32, false⟩

/-- Whether a checked element violates guard g (R194, R200). -/
def guardViolates (mode : Nat) (lo hi x : Word) : Bool :=
  match mode with
  | 1 => isNan32 x || isNan32 lo || isNan32 hi || !((num32 lo).cmp (num32 x) ≤ 0 && (num32 x).cmp (num32 hi) ≤ 0)
  | 2 => isNan32 x || isNan32 hi || decide ((num32 (x &&& 0x7FFFFFFF#32)).cmp (num32 hi) > 0)
  | _ => isNan32 x || isInf32 x

/-- One guard's check of one result tile at its result cycle (R193 to R197). -/
def guardCheck (c : Core) (t g tile : Nat) (elems : List (Option Word)) : Core :=
  let ctl := cReg c (0x1240 + 0x20 * g)
  if bit ctl 0 && bit (cReg c (0x1244 + 0x20 * g)) tile then
    let lo := cReg c (0x1248 + 0x20 * g)
    let hi := cReg c (0x124C + 0x20 * g)
    let n := (elems.filter fun o => match o with
      | some x => guardViolates (fld ctl 2 1) lo hi x
      | none => false).length
    let c1 := cCount c (0x1250 + 0x20 * g) 31 0 n
    if n ≥ max 1 (fld ctl 15 8) ∧ ¬ bit ctl 3 then
      let c2 := cFlag c1 (0x1240 + 0x20 * g) 8#32
      cCheck (cEmit c2 t ⟨.guardTrip, 0, [g, tile, n, (if c.tileTarn.getLsbD tile then 1 else 0)]⟩)
    else c1
  else c

/-- Every guard's check of the tiles an operation wrote. -/
def guardChecks (c : Core) (t : Nat) (l : List (Nat × List (Option Word))) : Core :=
  l.foldl (fun k p => [0, 1, 2, 3].foldl (fun k g => guardCheck k t g p.1 p.2) k) c

/-- An operation's results put where it writes them (R166, R168, R186, R189). -/
def applyVec (c : Core) (v : VecRes) : Core :=
  let c1 : Core := { c with
    tiles := v.tiles.foldl (fun m p => mset m p.1 (overTile (mgetD m p.1 blankTile) p.2)) c.tiles
    tileStat := v.status.foldl (fun m p => mset m p.1 p.2) c.tileStat
    tileTarn := v.tiles.foldl (fun w p => putBit32 w p.1 v.tarn) c.tileTarn
    masks := match v.mask with
      | some m => mset c.masks m.1 m.2
      | none => c.masks
    maskTarn := match v.mask with
      | some m => putBit8 c.maskTarn m.1 v.tarn
      | none => c.maskTarn
    flagPend := if v.flags = 0#32 then c.flagPend else c.flagPend ++ [(v.due, v.flags)] }
  let c2 := match v.count with
    | some n => cSet c1 rVecCcount (BitVec.ofNat 32 (n + if v.tarn then 512 else 0))
    | none => c1
  guardChecks c2 v.due v.guards

/-- Row bytes and read or write cycles of a tile format (R176). -/
def tileRowBytes (f : Fmt) : Nat := packBytes f 16
def tileCycles (f : Fmt) : Nat := (16 * tileRowBytes f + 255) / 256
/-- Row alignment of a tile format (R176). -/
def tileAlign (f : Fmt) : Nat :=
  match f with
  | .fp32 => 64 | .fp16 => 32 | .bf16 => 32 | _ => 16

/-- The reads of a load: element bytes row by row, then the scale bytes (R176, R182, R210). -/
def loadReads (v : VecLoad) (f : Fmt) : List (Nat × Nat) :=
  let rb := tileRowBytes f
  ((List.range 16).flatMap fun i => (List.range rb).map fun b => (v.base + i * v.rstride + b, v.issue + 1 + (i * rb + b) / 256))
  ++ (if v.scaled then (List.range 16).map fun i => (v.sbase + i * v.sstride, v.issue + tileCycles f + 1) else [])

/-- One decoded element of a load with its flags (R176): integers stay INT32 without scales, FP32 words are copied. -/
def loadElem (sp : Spad) (v : VecLoad) (f : Fmt) (i j : Nat) : PWord × Word :=
  let rb := tileRowBytes f
  let byte (b : Nat) : Byte × Bool := seenByte sp (v.issue + 1 + (i * rb + b) / 256) (v.base + i * v.rstride + b)
  if f = .fp32 then
    let bs := (List.range 4).map fun q => byte (4 * j + q)
    (⟨wordOfBytes (bs.map Prod.fst), bs.any Prod.snd⟩, 0#32)
  else
    let el := elemOf f v.scaled byte j
    if isInt f && !v.scaled then (⟨BitVec.ofInt 32 (numInt el.num), el.bad⟩, el.flags)
    else
      let sc := if v.scaled then scaleOf f (seenByte sp (v.issue + tileCycles f + 1) (v.sbase + i * v.sstride)) else unitScale
      let o := convFloat .fp32 geom32 (el.num.mul sc.num) .rne false
      (⟨BitVec.ofNat 32 o.1, el.bad || sc.bad⟩, el.flags ||| sc.flags ||| o.2)

/-- NAN and INF of a row of FP32 words (R166). -/
def nanInf (ws : List Word) : Nat := (if ws.any isNan32 then 1 else 0) + (if ws.any isInf32 then 2 else 0)

/-- The result of a load as a vector result at its result cycle. -/
def loadResult (c : Core) (v : VecLoad) : VecRes :=
  let f := (fmtOfCode v.fmt).getD .fp32
  let cells := (List.range 256).map fun e => loadElem c.spad v f (e / 16) (e % 16)
  let int := isInt f && !v.scaled
  { issue := v.issue, due := v.due
    tiles := [(v.tile, cells.map fun x => some x.1)]
    status := [(v.tile, (List.range 16).map fun i =>
      if int then 0 else nanInf (((cells.drop (16 * i)).take 16).map fun x => x.1.val))]
    tarn := readsTarn c.spad (loadReads v f)
    mask := none, count := none, guards := []
    flags := cells.foldl (fun w x => w ||| x.2) 0#32 }

/-- A vector result put into the list, by result cycle, after those of the same cycle (R187). -/
def vecInsert (l : List VecRes) (v : VecRes) : List VecRes :=
  match l with
  | [] => [v]
  | w :: t => if w.due ≤ v.due then w :: vecInsert t v else v :: w :: t

/-- Loads due by cycle t turned into results, in the place their issue gives them. -/
def loadsDue (c : Core) (t : Nat) : Core :=
  (c.vloads.filter fun v => decide (v.due ≤ t)).foldl (fun k v =>
    let f := (fmtOfCode v.fmt).getD .fp32
    let k1 := noteReads k 3 v.due (loadReads v f)
    { k1 with
      vops := if v.enabled then
          (k1.vops.filter fun w => decide (w.due < v.due ∨ (w.due = v.due ∧ w.issue < v.issue))) ++ [loadResult k1 v]
            ++ (k1.vops.filter fun w => decide (¬ (w.due < v.due ∨ (w.due = v.due ∧ w.issue < v.issue))))
        else k1.vops
      vloads := k1.vloads.filter fun w => w != v }) c

/-- Every vector result that has come by cycle t stands (R186, R187). -/
def settleVector (c : Core) (t : Nat) : Core :=
  let c0 := loadsDue c t
  let c1 := (c0.vops.filter fun v => decide (v.due ≤ t)).foldl applyVec c0
  { c1 with vops := c1.vops.filter fun v => decide (t < v.due) }

/-- Flags set at the end of a cycle before t stand in `arith.flags` (R88, R759). -/
def settleFlags (c : Core) (t : Nat) : Core :=
  { (c.flagPend.filter fun p => decide (p.1 < t)).foldl (fun k p => cFlag k rArithFlags p.2) c with
    flagPend := c.flagPend.filter fun p => decide (t ≤ p.1) }

/-- The start count and the pushes accepted so far of a queue in cycle t (R227). -/
def hqCycle (c : Core) (q t : Nat) : Nat × Nat :=
  let e := mgetD c.hqCyc q (0, 0, 0)
  if (mget? c.hqCyc q).isSome ∧ e.1 = t then e.2 else ((mgetD c.hqs q []).length, 0)

/-- A push into a handle queue in cycle t (R225, R227): refused for zero, or where the start count and the pushes accepted
in that cycle reach 16. -/
def hqPush (c : Core) (q t : Nat) (v : Word) : Core :=
  let n := hqCycle c q t
  if v = 0#32 ∨ n.1 + n.2 ≥ 16 then
    cFlag (cCount (cFlag c (0x250C + 0x10 * q) 0x100#32) (0x250C + 0x10 * q) 31 16 1) rSpdStatus 16#32
  else { c with hqs := mset c.hqs q (mgetD c.hqs q [] ++ [v]), hqCyc := mset c.hqCyc q (t, n.1, n.2 + 1) }

/-- A pop in cycle t (R226 to R228): the head as it stood at the start of the cycle, or zero. -/
def hqPop (c : Core) (q t : Nat) : Word × Core :=
  let n := hqCycle c q t
  match mgetD c.hqs q [] with
  | [] => (0#32, c)
  | v :: rest =>
    if n.1 = 0 then (0#32, c)
    else (v, { c with hqs := mset c.hqs q rest, hqCyc := mset c.hqCyc q (t, n.1, n.2) })

/-- Fabric-in pushes whose cycle is before t have landed (R228, R273). -/
def settlePushes (c : Core) (t : Nat) : Core :=
  let c1 := (c.hqPend.filter fun p => decide (p.due < t)).foldl (fun k p => hqPush k p.queue p.due p.val) c
  { c1 with hqPend := c1.hqPend.filter fun p => decide (t ≤ p.due) }

/-- Flits committed before t counted in `fab.xinI.rcvd` (R273). -/
def settleRcvd (c : Core) (t : Nat) : Core :=
  { (c.rcvdPend.filter fun p => decide (p.1 < t)).foldl
      (fun k p => { k with regs := regUpd coreRegs k.regs (0x3180 + 4 * p.2) (fun w => setFld w 20 0 (fld w 20 0 + 1)) }) c with
    rcvdPend := c.rcvdPend.filter fun p => decide (t ≤ p.1) }

/-- The earliest cycle that some outstanding reader of the scratchpad still looks at. -/
def spadKeep (c : Core) (t : Nat) : Nat :=
  let m := c.mops.foldl (fun a o => min a o.issue) t
  let v := c.vloads.foldl (fun a o => min a o.issue) m
  let f := c.fetches.foldl (fun a p => min a p.2) v
  f - 8

/-- Rows fetched by cycle t copied, their parity checked as a read of the service/DMA client; beyond the scratchpad there is no
row (R204, R206, R230, R762). -/
def settleFetches (c : Core) (t : Nat) : Core :=
  let due := c.fetches.filter fun p => decide (p.2 < t ∧ 128 * p.1 < spadEnd)
  let c1 := due.foldl (fun k p => noteReads k 7 p.2 ((List.range 32).map fun i => (128 * p.1 + 4 * i, p.2))) c
  { c1 with
    rows := due.foldl (fun m p => mset m p.1 (spadBytes c.spad p.2 (128 * p.1) 128)) c.rows
    fetches := c.fetches.filter fun p => decide (t ≤ p.2) }

/-- PC_FAULT and the fault record at the end of the cycle in which the faulting bundle would have issued (R257). -/
def settleFault (c : Core) (t : Nat) : Core :=
  match c.faultAt with
  | some f => if f < t then cCheck (cEmit (cFlag { c with faultAt := none } rCtlStatus 8#32) f ⟨.pcFault, 0, [c.pc]⟩) else c
  | none => c

/-- A core as it stands in cycle t: every result that has come by then is in its place. -/
def settleCore (c : Core) (t : Nat) : Core :=
  let c1 := settleFault (settleFlags (settlePushes (settleVector (settleMatrix (settleScalar c t) t) t) t) t) t
  let c2 := settleFetches (settleRdy (settleRcvd c1 t) t) t
  { c2 with spad := spadRetire c2.spad (min (spadKeep c2 t) (t - 16)) }

end Sys2Proof.Machine
end

