-- ==== Sys2Proof/Machine/Operands.lean ====
section
/-! DEFINITION. The bundle: in which cycle a field issues, whether its bundle is enabled, which bundle comes next
(R245 to R257, R762). -/

namespace Sys2Proof.Machine

/-- PRED = 0 with PNEG = 1 is reserved (R246). -/
def predReserved (i : Issue) : Bool := i.pred == 0#2 && i.pneg

/-- Whether a bundle issued in cycle t is enabled (R246). -/
def enabledAt (c : Core) (i : Issue) (t : Nat) : Bool :=
  if i.pred = 0#2 then !i.pneg else predAt c i.pred.toNat t != i.pneg

/-- Rows j, j + 1 and j + 2 fetched from port cycle t on (R762). -/
def fetchThree (c : Core) (pc t : Nat) : Core :=
  { c with fetches := c.fetches ++ [(pc / 128, t), (pc / 128 + 1, t + 1), (pc / 128 + 2, t + 2)] }

/-- The next address after a bundle at `pc`, with the loop stack: at the last bundle of the innermost body the next
iteration begins, or the level ends (R254). The third part says that a long body starts again. -/
def seqNext (pc : Nat) : List LoopLevel → Nat × List LoopLevel × Bool
  | [] => (pc + 16, [], false)
  | l :: rest =>
    if pc = l.last then
      if l.left > 1 then (l.first, { l with left := l.left - 1, again := true } :: rest, l.long)
      else seqNext pc rest
    else (pc + 16, l :: rest, false)

/-- Whether sequential issue fetches ahead at offset 0x70: not in the later iterations of a short body (R762). -/
def fetchesAhead (c : Core) (pc : Nat) : Bool :=
  pc % 128 == 0x70 && !(c.loops.any fun l => l.again && !l.long)

/-- Issue goes on at `pc` in cycle `next`; an address at or above 0x30_0000 stops the core at the end of the cycle in
which that bundle would have issued (R257). -/
def goTo (c : Core) (pc next : Nat) (badTarget : Bool) : Core :=
  let c1 : Core := { c with pc := pc % 2 ^ 22, nextIssue := next, openAt := none, usedM := false, usedV := false, usedX := false }
  if badTarget || decide (spadEnd ≤ pc % 2 ^ 22) then { c1 with idle := true, faultAt := some next } else c1

/-- The bundle issued in cycle t ends and issue goes on in sequence, in cycle `next` or later (R252, R254). -/
def goOn (c : Core) (t next : Nat) : Core :=
  let n := seqNext c.pc c.loops
  let c1 : Core := { c with loops := n.2.1
                            fetches := if fetchesAhead c c.pc then c.fetches ++ [(c.pc / 128 + 3, t + 1)] else c.fetches }
  if n.2.2 then goTo (fetchThree c1 n.1 (t + 2)) n.1 (max next (t + latency c + 2)) false
  else goTo c1 n.1 next false

/-- A new bundle opened in the first cycle at or after `now` in which the core can issue; `ctl.issue` counts it (R290). -/
def openNew (c : Core) (now : Nat) : Nat × Core :=
  let t := max now c.nextIssue
  (t, { settleCore c t with openAt := some t, usedM := false, usedV := false, usedX := false, issued := c.issued + 1 })

/-- The cycle and core in which a field issues: in the bundle that is open in this cycle where that field is still free
there, and otherwise in a new bundle (the model's rule, log entry 1). -/
def openField (c : Core) (now : Nat) (used : Bool) : Nat × Core :=
  match c.openAt with
  | some t0 =>
    if now ≤ t0 ∧ used = false then (t0, c)
    else
      let c1 := goOn c t0 (t0 + 1)
      if c1.idle then (max now (t0 + 1), c1) else openNew c1 now
  | none => openNew c now

/-- A scalar operation discarded: one flag, and DISCARDS (R250, R252, R255, R760). -/
def scalarDiscard (c : Core) (flag : Word) : Core :=
  cCheck (cCount (cFlag c rCtlStatus flag) rCtlStatus 31 16 1)

/-- A matrix operation discarded (R129). -/
def matrixDiscard (c : Core) (flag : Word) : Core :=
  cCheck (cCount (cFlag c rMtxStatus flag) rMtxStatus 31 16 1)

/-- A vector operation discarded (R184). -/
def vectorDiscard (c : Core) (flag : Word) : Core :=
  cCheck (cCount (cFlag c rVecStatus flag) rVecStatus 31 16 1)

/-- The sign-extended immediate of the immediate form as a word (R248). -/
def immWord (f : ImmForm) : Word := f.imm.signExtend 32

end Sys2Proof.Machine
end

