-- ==== Sys2Proof/Machine/Ops.lean ====
section
/-! DEFINITION. The named operations on the state of the device: cores and regions, time, free values, records. -/

namespace Sys2Proof.Machine

/-- Global logical coordinates of a core (R8), and the core at given ones. -/
def coreX (c : Nat) : Nat := c % 112
def coreY (c : Nat) : Nat := c / 112
def coreAt (x y : Nat) : Nat := 112 * y + x

/-- The logical region that holds a core (R6, R8). -/
def regionOfCore (c : Nat) : Nat := (coreY c / 16) * 7 + coreX c / 16

/-- A logical region's state. -/
def State.region (s : State) (r : Nat) : Region := mgetD s.regions r Region.reset

/-- A region's state replaced. -/
def State.setRegion (s : State) (r : Nat) (g : Region) : State := { s with regions := mset s.regions r g }

/-- A core's state: its own, or that of the cores of its region that nothing has singled out. -/
def State.core (s : State) (c : Nat) : Core := (mget? s.cores c).getD (s.region (regionOfCore c)).tmpl

/-- A core's state replaced. The records it has sent go on their way, and a check event sets SUSPECT of its region
(R547). -/
def State.setCore (s : State) (c : Nat) (k : Core) : State :=
  let s1 : State := { s with
    cores := mset s.cores c { k with outbox := [], check := false }
    records := s.records ++ k.outbox.map fun r => { r with src := c } }
  if k.check then s1.setRegion (regionOfCore c) { s1.region (regionOfCore c) with suspect := true } else s1

/-- The model's clock moved on to cycle t; it never runs backwards (log entry 1). -/
def State.reach (s : State) (t : Nat) : State := { s with now := max s.now t }

/-- Free values handed out: the next ones have new numbers (log entry 7). -/
def State.takeFree (s : State) (n : Nat) : State := { s with free := s.free + n }

/-- What the requester of an access sees. -/
def State.answer (s : State) (status : Nat) (words : List Word) : State := { s with reply := some ⟨status, words⟩ }

/-- A record on its way to the active heartwood (R344). -/
def State.record (s : State) (r : Rec) : State := { s with records := s.records ++ [r] }

end Sys2Proof.Machine
end

