-- ==== Sys2Proof/Machine/ServiceBase.lean ====
section
/-! DEFINITION. Packets of the service network: their checks, their making, and a core's service engine
(R342 to R346, R355, R361, R362). -/

namespace Sys2Proof.Machine

/-- One step of CRC-32C over a bit (reflected polynomial 0x82F63B78). -/
def crcBit (r : Word) : Word := if r.getLsbD 0 then (r >>> 1) ^^^ 0x82F63B78#32 else r >>> 1

/-- CRC-32C of bytes (R342). -/
def crc32c (bs : List Byte) : Word :=
  (bs.foldl (fun r b => crcBit (crcBit (crcBit (crcBit (crcBit (crcBit (crcBit (crcBit (r ^^^ b.setWidth 32)))))))))
    0xFFFFFFFF#32) ^^^ 0xFFFFFFFF#32

/-- The types of R344. -/
def tWR : BitVec 5 := 0x00#5
def tRD : BitVec 5 := 0x01#5
def tHQP : BitVec 5 := 0x02#5
def tCHMSG : BitVec 5 := 0x03#5
def tREGW : BitVec 5 := 0x04#5
def tREGR : BitVec 5 := 0x05#5
def tMCWR : BitVec 5 := 0x06#5
def tACK : BitVec 5 := 0x10#5
def tRDATA : BitVec 5 := 0x11#5
def tCHREP : BitVec 5 := 0x12#5
def tARRIVE : BitVec 5 := 0x18#5
def tRELEASE : BitVec 5 := 0x19#5
def tMISSED : BitVec 5 := 0x1A#5
def tRECORD : BitVec 5 := 0x1B#5
def tXLAT : BitVec 5 := 0x1C#5

/-- The response statuses of R345. -/
def stOk : Nat := 0
def stRange : Nat := 1
def stPart : Nat := 2
def stMisroute : Nat := 3
def stCrc : Nat := 4
def stUnreach : Nat := 5
def stType : Nat := 6

/-- Fields packed from the least significant bit: (width, value) pairs. -/
def packFields : List (Nat × Nat) → Nat
  | [] => 0
  | (w, v) :: t => v % 2 ^ w + 2 ^ w * packFields t

def bnat (b : Bool) : Nat := if b then 1 else 0

/-- Payload flits of a packet (R341). -/
def payloadFlits (p : Packet) : Nat := (p.payload.length + 31) / 32

/-- Header words 0 to 14, with DL and HOPS taken as zero (R342). -/
def headerWords (p : Packet) : List Word :=
  let w (l : List (Nat × Nat)) : Word := BitVec.ofNat 32 (packFields l)
  [ w [(5, p.type.toNat), (2, p.cls.toNat), (1, 0), (5, payloadFlits p), (1, bnat p.tarnish), (1, bnat p.bar)],
    w [(6, p.px.toNat), (5, p.py.toNat), (5, p.pep.toNat)],
    w [(2, p.dkind.toNat), (7, p.lx.toNat), (7, p.ly.toNat), (10, p.group.toNat)],
    w [(7, p.sx.toNat), (7, p.sy.toNat), (1, bnat p.skind), (5, p.sep.toNat), (12, p.part.toNat)],
    p.addr.setWidth 32, (p.addr >>> 32).setWidth 32,
    w [(10, p.payload.length), (6, 0), (16, p.tag.toNat)],
    w [(16, p.mseq.toNat), (16, p.arg.toNat)],
    p.pcrc0, p.pcrc1 ] ++ (List.range 5).map fun i => p.tdata.getD i 0#32

/-- HCRC of a packet, and the CRCs of its payload blocks (R342). -/
def hcrcOf (p : Packet) : Word := crc32c ((headerWords p).flatMap bytesOfWord)
def pcrcOf (bs : List Byte) : Word × Word := (crc32c (bs.take 256), crc32c (bs.drop 256))

/-- Whether the header, and the payload, pass their checks at the destination (R346, R347). -/
def hcrcOk (p : Packet) : Bool := hcrcOf p == p.hcrc
def pcrcOk (p : Packet) : Bool :=
  (p.payload.isEmpty || (pcrcOf p.payload).1 == p.pcrc0) && (decide (p.payload.length ≤ 256) || (pcrcOf p.payload).2 == p.pcrc1)

/-- A packet with every field zero. -/
def Packet.blank : Packet :=
  { type := 0, cls := 0, dl := false, tarnish := false, bar := false, hops := 0, px := 0, py := 0, pep := 0, dkind := 0
    lx := 0, ly := 0, group := 0, sx := 0, sy := 0, skind := false, sep := 0, part := 0, addr := 0, tag := 0, mseq := 0
    arg := 0, tdata := [], pcrc0 := 0, pcrc1 := 0, hcrc := 0, payload := [] }

/-- A packet with its header check computed. -/
def sealHeader (p : Packet) : Packet := { p with hcrc := hcrcOf p }

/-- A packet taken off the network, if it was on it. -/
def State.takeNet (s : State) (p : Packet) : State := { s with net := s.net.erase p }

/-- A packet put on the network. -/
def State.putNet (s : State) (p : Packet) : State := { s with net := s.net ++ [p] }

/-- A packet from a core before its ingress router has stamped it (R356, R357). Before the ingress, `pcrc0` and `pcrc1` are
1 where a word of that block failed the source's parity (R545), and zero otherwise. -/
def fromCore (c : Nat) (p : Packet) : Packet :=
  { p with sx := BitVec.ofNat 7 (coreX c), sy := BitVec.ofNat 7 (coreY c), skind := false }

/-- A core named as destination. -/
def toCore (c : Nat) (p : Packet) : Packet :=
  { p with dkind := 0, lx := BitVec.ofNat 7 (coreX c), ly := BitVec.ofNat 7 (coreY c) }

/-- The response to a request: back to its source, on the response class, with its tag (R342, R345). -/
def response (req : Packet) (ty : BitVec 5) (status : Nat) (data : List Byte) (tarn : Bool) : Packet :=
  let crc := pcrcOf data
  sealHeader { Packet.blank with
    type := ty, cls := 1, dkind := if req.skind then 1 else 0, lx := req.sx, ly := req.sy, pep := req.sep
    sx := req.lx, sy := req.ly, skind := req.dkind != 0, part := req.part, tag := req.tag
    arg := BitVec.ofNat 16 status, tarnish := tarn, pcrc0 := crc.1, pcrc1 := crc.2, payload := data }

/-- Packets of one request that a core's service engine sends now, under one tag: held while a fence holds later requests
(R361), and otherwise on their way, their response awaited. `what` and `arg` say what the response is for. -/
def sendRequest (s : State) (c : Nat) (ps : List Packet) (what arg : Nat) : State :=
  let k := s.core c
  let qs := ps.map fun p => fromCore c { p with tag := BitVec.ofNat 16 k.nextTag }
  let k1 : Core := { k with nextTag := (k.nextTag + 1) % 65536 }
  if k.fenceAt.isSome then s.setCore c { k1 with held := k1.held ++ qs.map fun q => (q, what, arg) }
  else { s.setCore c { k1 with reqs := k1.reqs ++ [⟨k.nextTag, s.now, what, arg⟩] } with net := s.net ++ qs }

/-- What a response is for, in the list of outstanding requests. -/
def reqPlain : Nat := 0
def reqChannel : Nat := 1
def reqXfer : Nat := 2
def reqBarrier : Nat := 3

end Sys2Proof.Machine
end

