-- ==== Sys2Proof/Machine/Channels.lean ====
section
/-! DEFINITION. Channels and active messages (file 07 of the spec). -/

namespace Sys2Proof.Machine

/-- Offset of a register of endpoint e (R332). -/
def epReg (e k : Nat) : Nat := 0x3800 + 0x40 * e + k
def epCfg : Nat := 0x00
def epRing : Nat := 0x04
def epStword : Nat := 0x08
def epPeer : Nat := 0x0C
def epHandle : Nat := 0x10
def epHead : Nat := 0x14
def epTail : Nat := 0x18
def epSrc : Nat := 0x1C
def epArg : Nat := 0x20
def epResult : Nat := 0x28
def epStat : Nat := 0x2C

/-- ROLE and STATE of an endpoint (R332). -/
def roleSend : Nat := 1
def roleRecv : Nat := 2
def chOpen : Nat := 0
def chDraining : Nat := 1
def chBroken : Nat := 2

def epRole (c : Core) (e : Nat) : Nat := fld (cReg c (epReg e epCfg)) 1 0
def epState (c : Core) (e : Nat) : Nat := fld (cReg c (epReg e epCfg)) 3 2

def Endpoint.blank : Endpoint := ⟨0, none, none, []⟩
def epOf (c : Core) (e : Nat) : Endpoint := mgetD c.eps e Endpoint.blank
def setEp (c : Core) (e : Nat) (p : Endpoint) : Core := { c with eps := mset c.eps e p }

/-- The post result codes (R310). -/
def pcOk : Nat := 0
def pcPending : Nat := 1
def pcFull : Nat := 2
def pcTooBig : Nat := 3
def pcNoHandler : Nat := 4
def pcClosed : Nat := 5
def pcBroken : Nat := 6
def pcBusy : Nat := 7
def pcBadAddr : Nat := 8
def pcTimeout : Nat := 9
def pcNotSend : Nat := 10

/-- CODE, and DONE and REFUSED of an endpoint. -/
def setCode (c : Core) (e code : Nat) : Core := cFld c (epReg e epResult) 3 0 code
def countDone (c : Core) (e : Nat) : Core := cCount c (epReg e epStat) 15 0 1
def countRefused (c : Core) (e : Nat) : Core := cCount c (epReg e epStat) 31 16 1

/-- The bytes a record of LEN payload bytes occupies (R298). -/
def recordSize (len : Nat) : Nat := 16 + (len + 15) / 16 * 16

def ringBase (c : Core) (e : Nat) : Nat := fld (cReg c (epReg e epRing)) 21 0
def ringSize (c : Core) (e : Nat) : Nat := 2 ^ fld (cReg c (epReg e epRing)) 26 22

/-- The first failing check of a post, if any (R306). -/
def postJudge (c : Core) (e len : Nat) : Option Nat :=
  let src := fld (cReg c (epReg e epSrc)) 21 0
  if epRole c e ≠ roleSend then some pcNotSend
  else if (epOf c e).posting.isSome then some pcBusy
  else if epState c e = chBroken then some pcBroken
  else if epState c e = chDraining then some pcClosed
  else if len > 65520 ∨ recordSize len > ringSize c e then some pcTooBig
  else if src % 16 ≠ 0 ∨ src + len > spadEnd then some pcBadAddr
  else none

/-- The core at the other end of an endpoint's channel, and its endpoint number (R296). -/
def peerOf (c : Core) (e : Nat) : Nat × Nat :=
  let w := cReg c (epReg e epPeer)
  (coreAt (fld w 6 0) (fld w 13 7), fld w 18 14)

/-- The header words of the message an endpoint posts, word 3 left to the packet (R297, R304). -/
def postHeader (c : Core) (core e len handler : Nat) (tarn : Bool) : List Word :=
  let inc := fld (cReg c (epReg e epCfg)) 15 8
  [ BitVec.ofNat 32 (packFields [(16, len), (8, handler), (2, 1), (1, bnat tarn)]),
    BitVec.ofNat 32 (packFields [(16, (epOf c e).seq), (16, fld (cReg c (epReg e epArg)) 15 0)]),
    BitVec.ofNat 32 (packFields [(7, coreX core), (7, coreY core), (5, e), (8, inc), (4, 0), (1, 1)]) ]

/-- The packets of a message: a header copy and up to 496 payload bytes each (R304). -/
def postPackets (c : Core) (core e len handler t : Nat) : List Packet :=
  let src := fld (cReg c (epReg e epSrc)) 21 0
  let tarn := (touched 128 src len).any fun r => spadTarn c.spad (t + 1) r
  let h := postHeader c core e len handler tarn
  (List.range (max 1 ((len + 495) / 496))).map fun i =>
    let off := 496 * i
    let n := min 496 (len - off)
    let body := (h ++ [BitVec.ofNat 32 off]).flatMap bytesOfWord ++ spadBytes c.spad (t + 1) (src + off) n
    let badIn (lo hi : Nat) : Word :=
      if (touched 4 (src + off + lo) (min (hi - lo) (n - lo))).any fun w => spadBad c.spad (t + 1) w then 1#32 else 0#32
    toCore (peerOf c e).1 { Packet.blank with
      type := tCHMSG, tarnish := tarn, payload := body, pcrc0 := badIn 0 240, pcrc1 := badIn 240 496 }

/-- A post: checked, and its message sent (R302 to R306). -/
def postMessage (s : State) (core e : Nat) (val : Word) : State :=
  let c := s.core core
  let len := fld val 15 0
  match postJudge c e len with
  | some code => s.setCore core (countRefused (setCode c e code) e)
  | none =>
    let p := epOf c e
    let c1 := cFld (setCode c e pcPending) (epReg e epResult) 31 16 p.seq
    sendRequest (s.setCore core (setEp c1 e { p with posting := some s.now })) core
      (postPackets c core e len (fld val 23 16) s.now) reqChannel e

/-- The status word written in one 8-byte write through the service client in port cycle t (R311, R312). -/
def writeStatus (c : Core) (e t state : Nat) : Core :=
  let seq := fld (cReg c (epReg e epResult)) 31 16
  let w1 := BitVec.ofNat 32 (packFields [(16, seq + 65535), (2, state)])
  let wr := plainWrite (t + latency c - 1) 7 (fld (cReg c (epReg e epStword)) 21 0)
    (bytesOfWord (cReg c (epReg e epTail)) ++ bytesOfWord w1) false
  { c with spad := spadPush c.spad wr }

/-- An endpoint's channel broken at that end; the receiving end's status word shows it (R312, R329). -/
def breakEnd (c : Core) (e t : Nat) : Core :=
  if epRole c e = roleSend ∨ epRole c e = roleRecv then
    let c1 := cFld c (epReg e epCfg) 3 2 chBroken
    if epRole c e = roleRecv then writeStatus c1 e t 2 else c1
  else c

/-- A channel broken at both ends, named by one of them (R329). -/
def breakChannel (s : State) (core e : Nat) : State :=
  let peer := peerOf (s.core core) e
  let s1 := s.setCore core (breakEnd (s.core core) e s.now)
  s1.setCore peer.1 (breakEnd (s1.core peer.1) peer.2 s.now)

/-- Where a record of r bytes goes (R301): none for FULL, else the gap's place and SKIP length, the record's place, and
the new TAIL. -/
def placeRecord (base size head tail r : Nat) : Option (Option (Nat × Nat) × Nat × Nat) :=
  let used := (tail + 2 ^ 32 - head) % 2 ^ 32
  let free := size - used
  let t := tail % size
  if t + r ≤ size then
    if free < r then none else some (none, base + t, (tail + r) % 2 ^ 32)
  else
    let g := size - t
    if free < g + r then none else some (some (base + t, g - 16), base, (tail + g + r) % 2 ^ 32)

/-- The receiving endpoint that a header's source names, if any. -/
def recvEndpoint (c : Core) (hdr2 : Word) : Option Nat :=
  (List.range 32).find? fun e =>
    epRole c e == roleRecv && fld (cReg c (epReg e epPeer)) 18 0 == fld hdr2 18 0

/-- Word i of a packet's payload. -/
def payWord (p : Packet) (i : Nat) : Word := wordOfBytes ((p.payload.drop (4 * i)).take 4)

/-- The reply to a message (R308). -/
def chReply (req : Packet) (code : Nat) : Packet :=
  sealHeader { response req tCHREP stOk [] false with tdata := [BitVec.ofNat 32 code] }

/-- The endpoint's judgement of a message at its first packet (R307): the reply's code and the record's place. -/
def judgeMessage (c : Core) (e : Nat) (h0 h1 : Word) : Nat × Option (Option (Nat × Nat) × Nat × Nat) :=
  if epState c e = chBroken then (pcBroken, none)
  else if fld h1 15 0 ≠ fld (cReg c (epReg e epResult)) 31 16 then (pcBroken, none)
  else if ¬ bit (cReg c (0x3400 + 4 * fld h0 23 16)) 31 then (pcNoHandler, none)
  else
    match placeRecord (ringBase c e) (ringSize c e) (cReg c (epReg e epHead)).toNat (cReg c (epReg e epTail)).toNat
        (recordSize (fld h0 15 0)) with
    | none => (pcFull, none)
    | some p => (pcOk, some p)

/-- The message begun at its first packet. -/
def startMessage (c : Core) (e : Nat) (p : Packet) : RxMsg :=
  let h0 := payWord p 0
  let j := judgeMessage c e h0 (payWord p 1)
  let pl := j.2.getD (none, 0, 0)
  { code := j.1, left := fld h0 15 0, len := fld h0 15 0, hdr0 := h0, hdr1 := payWord p 1, hdr2 := payWord p 2
    skipAt := pl.1.map Prod.fst, skipLen := (pl.1.map Prod.snd).getD 0, place := pl.2.1, newTail := pl.2.2
    tarn := false }

/-- A channel message packet arrives at its core: the first packet of a message judges it, later ones place payload; the
reply of a refused message follows its last packet (R307, R308). -/
def takeMessage (s : State) (core : Nat) (p : Packet) : State :=
  let c := s.core core
  let h2 := payWord p 2
  match recvEndpoint c h2 with
  | none => s.putNet (chReply p pcClosed)
  | some e =>
    if fld h2 26 19 ≠ fld (cReg c (epReg e epCfg)) 15 8 then
      s.setCore core (cCount (cFlag c rChnStatus 2#32) rChnStatus 31 16 1)
    else
      let ep := epOf c e
      let m := ep.rx.getD (startMessage c e p)
      let off := fld (payWord p 3) 15 0
      let body := p.payload.drop 16
      let m1 : RxMsg := { m with left := m.left - body.length, tarn := m.tarn || p.tarnish }
      let c1 : Core := if m.code = pcOk ∧ body.length > 0 then
          let wr := plainWrite (s.now + latency c - 1) 7 (m.place + 16 + off) body p.tarnish
          { c with spad := spadPush c.spad wr }
        else c
      if m.code = pcOk then s.setCore core (setEp c1 e { ep with rx := some m1 })
      else
        let bad := ep.rx.isNone && epState c e != chBroken && m.code == pcBroken
        let s1 := s.setCore core (setEp c1 e { ep with rx := if m1.left = 0 then none else some m1 })
        let s2 := if bad then breakChannel s1 core e else s1
        if m1.left = 0 then
          (s2.setCore core (countRefused (s2.core core) e)).putNet (chReply p m.code)
        else s2

/-- A record committed when every byte of its message has arrived (R297, R301, R307, R308, R312, R313). -/
def commitMessage (s : State) (core e : Nat) : State :=
  let c := s.core core
  let ep := epOf c e
  match ep.rx with
  | none => s
  | some m =>
    if m.code ≠ pcOk ∨ m.left ≠ 0 then s
    else
      let t := s.now
      let at1 := t + latency c - 1
      let hdr := [m.hdr0, m.hdr1, m.hdr2, cReg c (epReg e epHandle)].flatMap bytesOfWord
      let skip := match m.skipAt with
        | some a => [plainWrite at1 7 a
            ([BitVec.ofNat 32 (packFields [(16, m.skipLen), (8, 0), (2, 2)]), m.hdr1, m.hdr2,
              cReg c (epReg e epHandle)].flatMap bytesOfWord) false]
        | none => []
      let c1 : Core := { c with spad := spadPushes c.spad (skip ++ [plainWrite at1 7 m.place hdr false]) }
      let c2 := cSet (setEp c1 e { ep with rx := none, seq := (ep.seq + 1) % 65536 }) (epReg e epTail) (BitVec.ofNat 32 m.newTail)
      let c3 := countDone (cFld c2 (epReg e epResult) 31 16 (fld m.hdr1 15 0 + 1)) e
      let c4 := writeStatus c3 e (t + 1) 0
      let cfg := cReg c (epReg e epCfg)
      let c5 := if bit cfg 4 then hqPush c4 (fld cfg 7 5) (t + 2) (cReg c (epReg e epHandle)) else c4
      (s.setCore core c5).putNet (sealHeader { Packet.blank with
        type := tCHREP, cls := 1, dkind := 0, lx := BitVec.ofNat 7 (fld m.hdr2 6 0), ly := BitVec.ofNat 7 (fld m.hdr2 13 7)
        sx := BitVec.ofNat 7 (coreX core), sy := BitVec.ofNat 7 (coreY core)
        tdata := [BitVec.ofNat 32 pcOk] })

/-- A reply reaches the sending endpoint (R308, R310): CODE set, sequence numbers advanced on OK, and the outstanding
request over. A reply without a post in progress is late (R362). -/
def takeReply (s : State) (core e code : Nat) : State :=
  let c := s.core core
  let ep := epOf c e
  match ep.posting with
  | none => s.setCore core (cCount c rSrcStatus 31 16 1)
  | some _ =>
    let c0 := setCode { c with reqs := c.reqs.filter fun r => !(r.what == reqChannel && r.arg == e) } e code
    let ep1 : Endpoint := { ep with posting := none }
    if code = pcOk then s.setCore core (countDone (setEp c0 e { ep1 with seq := (ep.seq + 1) % 65536 }) e)
    else
      let c1 := countRefused (setEp c0 e ep1) e
      s.setCore core (if code = pcBroken then cFld c1 (epReg e epCfg) 3 2 chBroken else c1)

/-- 2^20 cyc, the bound of a post's reply and of a request's response (R309, R362). -/
def replyBound : Nat := 1048576

/-- A post without reply ends with TIMEOUT, and its channel breaks (R309, R310). -/
def postTimeout (s : State) (core e : Nat) : State :=
  let c := s.core core
  match (epOf c e).posting with
  | none => s
  | some t0 =>
    let s1 := s.reach (t0 + replyBound)
    let c1 := setCode { c with reqs := c.reqs.filter fun r => !(r.what == reqChannel && r.arg == e) } e pcTimeout
    breakChannel (s1.setCore core (countRefused (setEp c1 e { epOf c e with posting := none }) e)) core e

/-- A write of HEAD (R314): ignored with BAD_HEAD unless a multiple of 16 between HEAD and TAIL; ignored at an endpoint
that is no receiving end. -/
def releaseHead (c : Core) (e : Nat) (val : Word) : Core :=
  if epRole c e ≠ roleRecv then c
  else
    let head := cReg c (epReg e epHead)
    let tail := cReg c (epReg e epTail)
    if val.toNat % 16 = 0 ∧ (val - head).toNat ≤ (tail - head).toNat then cSet c (epReg e epHead) val
    else cFlag c rChnStatus 1#32

/-- POST: a write to `chn.epE.post` (R302, R306). -/
def execPost (c : CoreId) (e : Fin 32) (val : Word) (s : State) : Host.Outcome State Fault Refusal :=
  .next (postMessage s c.val e.val val)

/-- CHMSG: a packet of a message arrives (R307). -/
def execChmsg (c : CoreId) (p : Packet) (s : State) : Host.Outcome State Fault Refusal :=
  .next (takeMessage (s.takeNet p) c.val p)

/-- CHANNEL_COMMIT: every byte of the message has arrived (R307, R312). -/
def execChannelCommit (c : CoreId) (e : Fin 32) (s : State) : Host.Outcome State Fault Refusal :=
  .next (commitMessage s c.val e.val)

/-- CHREP: a channel reply reaches the sender (R308). -/
def execChrep (c : CoreId) (e : Fin 32) (code : BitVec 4) (s : State) : Host.Outcome State Fault Refusal :=
  .next (takeReply s c.val e.val code.toNat)

/-- POST_TIMEOUT (R309). -/
def execPostTimeout (c : CoreId) (e : Fin 32) (s : State) : Host.Outcome State Fault Refusal :=
  .next (postTimeout s c.val e.val)

/-- HEAD_RELEASE: a write to `chn.epE.head` (R314). -/
def execHeadRelease (c : CoreId) (e : Fin 32) (val : Word) (s : State) : Host.Outcome State Fault Refusal :=
  .next (s.setCore c.val (releaseHead (s.core c.val) e.val val))

end Sys2Proof.Machine
end

