-- ==== Sys2Proof/Machine/PourRx.lean ====
section
/-! DEFINITION. The pour receiver of one core (R689 to R692, R696). -/

namespace Sys2Proof.Machine

def rPourCfg : Nat := 0x600
def rPourStatus : Nat := 0x614

/-- STATE of `pour.status`. -/
def psIdle : Nat := 0
def psReceiving : Nat := 1
def psPulling : Nat := 2
def psDone : Nat := 3
def psFailed : Nat := 4

def pourState (k : Core) : Nat := fld (cReg k rPourStatus) 2 0
def setPourState (k : Core) (v : Nat) : Core := cFld k rPourStatus 2 0 v
def pourImage (k : Core) : Nat := fld (cReg k rPourCfg) 15 0
def pourChunks (k : Core) : Nat := fld (cReg k rPourCfg) 25 16
def pourBase (k : Core) : Nat := fld (cReg k 0x604) 21 0
def pourCopy (k : Core) : Nat := (cReg k 0x608).toNat + 2 ^ 32 * fld (cReg k 0x60C) 19 0

/-- HAVE of a chunk, and its setting, with the count of HAVE bits. -/
def haveChunk (k : Core) (c : Nat) : Bool := bit (cReg k (0x640 + c / 32 * 4)) (c % 32)
def setHave (k : Core) (c : Nat) : Core :=
  if haveChunk k c then k
  else
    let k1 := cFld k (0x640 + c / 32 * 4) (c % 32) (c % 32) 1
    cFld k1 rPourStatus 12 3 (fld (cReg k rPourStatus) 12 3 + 1)

/-- Every HAVE bit cleared, with their count. -/
def clearHave (k : Core) : Core :=
  { cFld ((List.range 24).foldl (fun a w => cSet a (0x640 + 4 * w) 0#32) k) rPourStatus 12 3 0 with pour := PourRx.reset }

/-- A write of the heartwood to `pour.cfg`: EN = 1 starts the receiver (R696). -/
def writePourCfg (k : Core) (t : Nat) (val : Word) : Core :=
  let k1 := cSet k rPourCfg (val &&& 0x83FFFFFF#32)
  if bit val 31 then (let k2 := setPourState (clearHave k1) psReceiving; { k2 with pour := { k2.pour with last := t } }) else k1

/-- The digest of a chunk's bytes (R689). -/
def chunkDigest (image c : Nat) (bytes : List Byte) : List Byte :=
  Config.shake256 (bytesOfNat 2 image ++ bytesOfNat 2 c ++ bytes) 12

/-- Service writes of bytes: each 64-byte aligned block as one write, in ascending order (R207, R234). -/
def payloadWrites (commit addr : Nat) (bytes : List Byte) (tarn : Bool) : List SpadWrite :=
  markClears ((touched 64 addr bytes.length).map fun b =>
    let lo := max addr (b * 64)
    let hi := min (addr + bytes.length) (b * 64 + 64)
    { plainWrite commit 7 lo ((bytes.drop (lo - addr)).take (hi - lo)) tarn with clears := [] })

/-- Whether a packet is a pour packet (R690). -/
def isPour (p : Packet) : Bool := p.arg.getLsbD 15

/-- The digest words that a piece of a chunk brings (R690). -/
def pieceDigest (p : Packet) : List Byte := (List.range 3).flatMap fun i => bytesOfWord (p.tdata.getD (2 + i) 0#32)

/-- A pour packet at a core (R691, R692): END, a piece, or one that the receiver discards. -/
def pourPacket (k : Core) (t : Nat) (p : Packet) : Core :=
  if ¬ bit (cReg k rPourCfg) 31 ∨ pourState k ≠ psReceiving ∨ fld (p.tdata.getD 0 0#32) 15 0 ≠ pourImage k then k
  else if p.payload.isEmpty then { setPourState k psPulling with pour := { k.pour with last := t, ended := some t } }
  else
    let c := fld (p.tdata.getD 1 0#32) 9 0
    let n := fld (p.tdata.getD 1 0#32) 18 16
    let a := p.addr.toNat % 2 ^ 22
    let k0 : Core := { k with pour := { k.pour with last := t } }
    if haveChunk k c ∨ pourChunks k ≤ c ∨ spadEnd < a + p.payload.length then k0
    else
      let commit := t + latency k - 1
      let m := mgetD k.pour.pieces c 0
      let m1 := if m / 2 ^ n % 2 = 1 then m else m + 2 ^ n
      let k1 : Core := { k0 with
        spad := spadPushes k0.spad (payloadWrites commit a p.payload p.tarnish)
        pour := { k0.pour with pieces := mset k0.pour.pieces c m1, digs := mset k0.pour.digs c (pieceDigest p) } }
      if m1 = 255 ∧ chunkDigest (pourImage k) c (spadBytes k1.spad (commit + 1) (pourBase k + 4096 * c) 4096) = pieceDigest p then setHave k1 c
      else k1

/-- A chunk pulled into the scratchpad (R692). -/
def takeChunk (k : Core) (t c : Nat) (bytes : List Byte) : Core :=
  let k1 : Core := { k with spad := spadPushes k.spad (payloadWrites (t + latency k - 1) (pourBase k + 4096 * c) bytes false) }
  cFld (setHave k1 c) rPourStatus 22 13 (fld (cReg k rPourStatus) 22 13 + 1)

/-- The image's bytes as the scratchpad holds them, and their digest (R693). -/
def imageDigest (k : Core) (t : Nat) : List Byte :=
  Config.shake256 (spadBytes k.spad t (pourBase k) (4096 * pourChunks k)) 32

end Sys2Proof.Machine
end

