-- ==== Sys2Proof/Machine/SpadRegs.lean ====
section
/-! DEFINITION. Buffers and handle queues (R218 to R228, R244). -/

namespace Sys2Proof.Machine

/-- A core as every result that has come by now leaves it. -/
def State.coreNow (s : State) (c : Nat) : Core := settleCore (s.core c) s.now

/-- A push by the service client or the scalar unit, after the fabric-in pushes of the same cycle (R227). -/
def pushNow (c : Core) (q t : Nat) (v : Word) : Core := hqPush (settlePushes c (t + 1)) q t v

/-- A pop in cycle t (R226, R227). -/
def popNow (c : Core) (q t : Nat) : Word × Core := hqPop (settlePushes c (t + 1)) q t

/-- HQ_PUSH: a write to `spd.hqQ.push` (R225). -/
def execHqPush (c : CoreId) (q : Fin 8) (val : Word) (s : State) : Host.Outcome State Fault Refusal :=
  .next (s.setCore c.val (pushNow (s.coreNow c.val) q.val s.now val))

/-- HQ_POP: a read of `spd.hqQ.pop` (R226). -/
def execHqPop (c : CoreId) (q : Fin 8) (s : State) : Host.Outcome State Fault Refusal :=
  let r := popNow (s.coreNow c.val) q.val s.now
  .next ((s.setCore c.val r.2).answer 0 [r.1])

/-- BUFFER_CONFIG: a write to a buffer's base register, or to its half register (R219). -/
def execBufferConfig (c : CoreId) (n : Fin 16) (isBase : Bool) (val : Word) (s : State) : Host.Outcome State Fault Refusal :=
  .next (s.setCore c.val (writeBuf (s.coreNow c.val) n.val isBase val))

/-- SWAP: a write of 1 to SWAP of a buffer (R220). -/
def execSwap (c : CoreId) (n : Fin 16) (s : State) : Host.Outcome State Fault Refusal :=
  .next (s.setCore c.val (swapBuf (s.coreNow c.val) n.val))

end Sys2Proof.Machine
end

