-- ==== Sys2Proof/Machine/BurmonBase.lean ====
section
/-! DEFINITION. Burmon memory: the address map, ownership, merging, ECC and tarnish (R377 to R389, R408 to R418). -/

namespace Sys2Proof.Machine

/-- Bytes of a stack: 160 GiB (R377). -/
def stackBytes : Nat := 171798691840

/-- 8,960 GiB, the length of each Burmon view (R380). -/
def burmonBytes : Nat := 9620726743040

def interBase : Nat := 0x100000000000
def ctxBase : Nat := 0x300000000000
def remoteBase : Nat := 0x8000000000000

/-- The stack and stack offset of a Burmon address (R380 to R382). -/
def burmonAddr (a : Nat) : Option (Nat × Nat) :=
  if a < burmonBytes then some (a / stackBytes, a % stackBytes)
  else if interBase ≤ a ∧ a < interBase + burmonBytes then
    let x := a - interBase
    let g := x / 4096
    some (g % 56, g / 56 * 4096 + x % 4096)
  else none

/-- The stack, context and byte of an address of the stream context window (R380, R394). -/
def ctxAddr (a : Nat) : Option (Nat × Nat × Nat) :=
  if ctxBase ≤ a ∧ a < ctxBase + 0x380000 then
    let x := a - ctxBase
    some (x / 0x10000, x % 0x10000 / 0x80, x % 0x80)
  else none

/-- Whether an address lies in a remote window (R380, R419). -/
def isRemote (a : Nat) : Bool := decide (remoteBase ≤ a ∧ a < 2 * remoteBase)

/-- Channel of a block, and the number of its DRAM row: channel, die, bank and row (R378). -/
def blockChannel (b : Nat) : Nat := b % 32
def rowNumber (ch die bank row : Nat) : Nat := ((ch * 20 + die) * 16 + bank) * 16384 + row
def blockRow (b : Nat) : Nat :=
  let co := b / 32 * 64
  rowNumber (b % 32) (co / 268435456) (co / 1024 % 16) (co / 16384 % 16384)

/-- Offsets of the stack registers (R428). -/
def kStatus : Nat := 0x4
def kCe : Nat := 0x8
def kUe : Nat := 0xC
def kUeLo : Nat := 0x10
def kUeHi : Nat := 0x14
def kMerge : Nat := 0x18
def kHits : Nat := 0x1C
def kScrub : Nat := 0x20
def kRetrain : Nat := 0x24
def kOwn (g : Nat) : Nat := 0x100 + 4 * g

def State.stack (s : State) (n : Nat) : Stack := mgetD s.stks n Stack.reset
def State.setStack (s : State) (n : Nat) (k : Stack) : State := { s with stks := mset s.stks n k }

def kReg (k : Stack) (off : Nat) : Word := regRaw stackRegs k.regs off
def kSet (k : Stack) (off : Nat) (w : Word) : Stack := { k with regs := mset k.regs off w }
def kFlag (k : Stack) (off : Nat) (m : Word) : Stack := { k with regs := regSetBits stackRegs k.regs off m }
def kFld (k : Stack) (off hi lo v : Nat) : Stack := { k with regs := regSetFld stackRegs k.regs off hi lo v }
def kCount (k : Stack) (off hi lo n : Nat) : Stack := { k with regs := regCount stackRegs k.regs off hi lo n }

/-- Whether the ownership table lets a request reach a stack offset (R385). -/
def ownOk (k : Stack) (off part : Nat) (write : Bool) : Bool :=
  part == 0 ||
    let w := kReg k (kOwn (off / 1073741824))
    bit w 13 && fld w 11 0 == part && (!write || bit w 12)

/-- A corrected block counted, to be written back (R414); its row noted for repair where the scrub pass before this one
corrected it too (R418). -/
def noteCorrected (k : Stack) (blk : Nat) (scrub : Bool) : Stack :=
  let k1 := { kCount k kCe 31 0 1 with corr := k.corr + 1, wback := keyAdd k.wback blk }
  if scrub then
    let pass := fld (kReg k kScrub) 31 16
    let row := blockRow blk
    let again := match mget? k.rowErr row with
      | some p => decide ((p + 1) % 65536 = pass)
      | none => false
    { k1 with rowErr := mset k1.rowErr row pass, toFix := if again then keyAdd k1.toFix row else k1.toFix }
  else k1

/-- The 64 free bytes of an uncorrectable block. -/
def freeBytes (fr n : Nat) : List Byte := (List.range ((n + 3) / 4)).flatMap fun i => bytesOfWord (Config.freeWord (fr + i))

/-- An uncorrectable block: delivered as read, stored tarnished, counted, captured, its row to be repaired (R415, R418). -/
def noteUncorrectable (k : Stack) (blk fr : Nat) : Stack :=
  let k1 := kFlag (kCount k kUe 15 0 1) kStatus 1#32
  let k2 := if bit (kReg k kUeLo) 0 then k1
    else kSet (kSet k1 kUeLo (BitVec.ofNat 32 (blk * 64 + 1))) kUeHi (BitVec.ofNat 32 (blk * 64 / 2 ^ 32 % 64))
  { k2 with mem := cellPuts k2.mem (blk * 64) (freeBytes fr 64)
            tarn := keyAdd k2.tarn blk, toFix := keyAdd k2.toFix (blockRow blk) }

/-- A block read from the DRAM: `errs` is how many of its 73 symbols are wrong (log entry 11); the code corrects three and
detects more (R412, R414, R415). -/
def readBlock (s : State) (st blk errs : Nat) (scrub : Bool) : State :=
  let k := s.stack st
  if errs = 0 then s
  else if errs ≤ 3 then s.setStack st (noteCorrected k blk scrub)
  else
    ((s.setStack st (noteUncorrectable k blk s.free)).takeFree 16).record ⟨.uncorrectable, st, [blk]⟩

/-- The errors that a command's list gives for a block. -/
def errsOf (found : List (Nat × Nat)) (blk : Nat) : Nat := ((found.find? fun p => p.1 == blk).map Prod.snd).getD 0

/-- The merge window WIN (R408, R428). -/
def mergeWin (k : Stack) : Nat := min 4096 (fld (kReg k kMerge) 12 0)

/-- One block of a read taken in cycle t: joined to an entry of the merge table, or read from the DRAM and entered there
(R408, R409). -/
def takeBlock (t st : Nat) (mergeable : Bool) (found : List (Nat × Nat)) (s : State) (blk : Nat) : State :=
  let k := s.stack st
  if mergeable ∧ 0 < mergeWin k then
    if k.merge.any fun e => e.1 == blk && decide (t - e.2 ≤ mergeWin k) then s.setStack st (kCount k kHits 31 0 1)
    else
      let s1 := readBlock s st blk (errsOf found blk) false
      let k1 := s1.stack st
      let m := (k1.merge.filter fun e => e.1 != blk) ++ [(blk, t)]
      s1.setStack st { k1 with merge := if m.length > 8192 then m.drop 1 else m }
  else readBlock s st blk (errsOf found blk) false

/-- Whether a request's bytes lie in the stack and in one 512-byte aligned range (R383). -/
def burmonRange (off len : Nat) : Bool :=
  decide (1 ≤ len ∧ len ≤ 512 ∧ off + len ≤ stackBytes ∧ off / 512 = (off + len - 1) / 512)

/-- A read that a stack takes: status, bytes and tarnish (R385 to R387, R408 to R416). -/
def burmonRead (s : State) (st off len part : Nat) (mergeable : Bool) (found : List (Nat × Nat)) :
    State × Nat × List Byte × Bool :=
  if ¬ burmonRange off len then (s, stRange, [], false)
  else if ¬ ownOk (s.stack st) off part false then (s, stPart, [], false)
  else
    let blks := touched 64 off len
    let s1 := blks.foldl (takeBlock s.now st mergeable found) s
    (s1, stOk, cellGets (s1.stack st).mem off len, blks.any fun b => (s1.stack st).tarn.contains b)

/-- One block of a write: a whole block takes the tarnish of the data; a part of one is a read-modify-write (R416). -/
def writeBlock (st off len : Nat) (tarn : Bool) (found : List (Nat × Nat)) (s : State) (blk : Nat) : State :=
  let whole := decide (off ≤ blk * 64 ∧ blk * 64 + 64 ≤ off + len)
  let s1 := if whole then s else readBlock s st blk (errsOf found blk) false
  let k := s1.stack st
  let mark := tarn || (!whole && k.tarn.contains blk)
  s1.setStack st { k with
    tarn := if mark then keyAdd k.tarn blk else keyDel k.tarn blk
    wback := keyDel k.wback blk
    merge := k.merge.filter fun e => e.1 != blk }

/-- A write that a stack takes (R385, R387, R413, R416). -/
def burmonWrite (s : State) (st off : Nat) (bytes : List Byte) (tarn : Bool) (part : Nat) (crcGood : Bool)
    (found : List (Nat × Nat)) : State × Nat :=
  if ¬ burmonRange off bytes.length then (s, stRange)
  else if ¬ ownOk (s.stack st) off part true then (s, stPart)
  else if ¬ crcGood then (s, stCrc)
  else
    let s1 := (touched 64 off bytes.length).foldl (writeBlock st off bytes.length tarn found) s
    let k := s1.stack st
    (s1.setStack st { k with mem := cellPuts k.mem off bytes }, stOk)

/-- Whether a channel makes no ordinary access in cycle t: its pair refreshes (R388) or retrains (R423). -/
def channelBusy (k : Stack) (ch t : Nat) : Bool :=
  (t % 4096) / 256 == ch % 16 ||
  match k.trainBy with
  | some e => decide (e - 4096 ≤ t ∧ t < e) && fld (kReg k kRetrain) 3 0 == ch % 16
  | none => false

/-- The first cycle from t on in which a channel takes an access: refresh slots and a retraining outage are waited out
(R379, R388, R424). -/
def channelFree (k : Stack) (ch t : Nat) : Nat :=
  let slotEnd (u : Nat) : Nat := if (u % 4096) / 256 = ch % 16 then u / 256 * 256 + 256 else u
  let trainEnd (u : Nat) : Nat := match k.trainBy with
    | some e => if e - 4096 ≤ u ∧ u < e ∧ fld (kReg k kRetrain) 3 0 = ch % 16 then e else u
    | none => u
  slotEnd (trainEnd (slotEnd t))

/-- BURMON_READ: a stack takes a read and returns it after 72 cyc (R379, R385, R386, R408, R414, R415). -/
def execBurmonRead (st : StackId) (off len : Nat) (part : BitVec 12) (mergeable : Bool) (found : List (Nat × Nat)) (s : State) :
    Host.Outcome State Fault Refusal :=
  let s1 := s.reach (channelFree (s.stack st.val) (blockChannel (off / 64)) s.now)
  let r := burmonRead s1 st.val off len part.toNat mergeable found
  .next ((r.1.reach (s1.now + 72)).answer r.2.1 (BitVec.ofNat 32 (bnat r.2.2.2) :: r.2.2.1.map fun b => b.setWidth 32))

/-- BURMON_WRITE: a stack takes a write and answers with ACK (R385, R387, R413, R416). -/
def execBurmonWrite (st : StackId) (off : Nat) (bytes : List Byte) (tarn : Bool) (part : BitVec 12) (crcGood : Bool)
    (found : List (Nat × Nat)) (s : State) : Host.Outcome State Fault Refusal :=
  let s1 := s.reach (channelFree (s.stack st.val) (blockChannel (off / 64)) s.now)
  let r := burmonWrite s1 st.val off bytes tarn part.toNat crcGood found
  .next (r.1.answer r.2 [])

/-- CORRECTED_WRITEBACK: a corrected block written back, unless a write was taken first (R414). -/
def execCorrectedWriteback (st : StackId) (blk : Nat) (s : State) : Host.Outcome State Fault Refusal :=
  let k := s.stack st.val
  .next (s.setStack st.val { k with wback := keyDel k.wback blk })

/-- REFRESH_SLOT: a pair refreshes in its slot of the frame: 2 rows of every bank, 4 while the stack is HOT (R388, R389). -/
def execRefreshSlot (st : StackId) (pair : Fin 16) (s : State) : Host.Outcome State Fault Refusal :=
  let begin0 := s.now / 4096 * 4096 + 256 * pair.val
  let begin1 := if s.now < begin0 + 256 then begin0 else begin0 + 4096
  let s1 := s.reach (begin1 + 256)
  let k := s1.stack st.val
  let n := if bit (kReg k kStatus) 2 then 4 else 2
  .next (s1.setStack st.val { k with refr := mset k.refr pair.val ((mgetD k.refr pair.val 0 + n) % 16384) })

/-- The last block of a stack. -/
def lastBlock : Nat := stackBytes / 64 - 1

/-- SCRUB: the base die reads a block and corrects or marks it; a pass ends with the last block (R417). -/
def execScrub (st : StackId) (blk : Nat) (errs : Nat) (s : State) : Host.Outcome State Fault Refusal :=
  let w := kReg (s.stack st.val) kScrub
  if ¬ bit w 6 ∨ lastBlock < blk then .next s
  else
    let s1 := readBlock s st.val blk errs true
    let k := s1.stack st.val
    .next (s1.setStack st.val (if blk = lastBlock then kFld k kScrub 31 16 (fld w 31 16 + 1) else k))

/-- DRAM_ROW_REPAIR: the row copied to a spare in a refresh slot and mapped there, or REPAIR_FULL (R418). -/
def execDramRowRepair (st : StackId) (ch : Fin 32) (die : Fin 20) (bank : Fin 16) (row : Fin 16384) (s : State) :
    Host.Outcome State Fault Refusal :=
  let r := rowNumber ch.val die.val bank.val row.val
  let k := s.stack st.val
  if ¬ k.toFix.contains r then .next s
  else
    let b := (ch.val * 20 + die.val) * 16 + bank.val
    let n := mgetD k.spares b 0
    let k1 := { k with toFix := keyDel k.toFix r, rowErr := merase k.rowErr r }
    if n < 8 then .next (s.setStack st.val { k1 with spares := mset k1.spares b (n + 1), fixed := keyAdd k1.fixed r })
    else .next ((s.setStack st.val (kFlag k1 kStatus 16#32)).record ⟨.repairFull, st.val, []⟩)

/-- RETRAIN_REQUEST: a pair's bit in RT_REQ (R423). -/
def execRetrainRequest (st : StackId) (pair : Fin 16) (s : State) : Host.Outcome State Fault Refusal :=
  let k := s.stack st.val
  .next (s.setStack st.val { k with regs := regSetBits stackRegs k.regs kStatus (BitVec.ofNat 32 (2 ^ (16 + pair.val))) })

/-- A write to `bmn.retrain`: PAIR, and with GO a retraining in the next frame unless one is in progress (R423, R424). -/
def retrainGo (k : Stack) (now : Nat) (val : Word) : Stack :=
  if bit (kReg k kRetrain) 5 then k
  else
    let k1 := kFld k kRetrain 3 0 (fld val 3 0)
    if bit val 4 then
      { kFld (kFld k1 kRetrain 5 5 1) kStatus 1 1 1 with trainBy := some ((now / 4096 + 2) * 4096) }
    else k1

/-- STACK_RETRAIN_GO (R424). -/
def execStackRetrainGo (st : StackId) (val : Word) (s : State) : Host.Outcome State Fault Refusal :=
  .next (s.setStack st.val (retrainGo (s.stack st.val) s.now val))

/-- RETRAIN_DONE: after one refresh frame (R423, R428). -/
def execRetrainDone (st : StackId) (s : State) : Host.Outcome State Fault Refusal :=
  let k := s.stack st.val
  match k.trainBy with
  | none => .next s
  | some e =>
    let w := kReg k kRetrain
    let p := fld w 3 0
    let k1 := kFld (kFld (kFld k kRetrain 5 5 0) kRetrain 31 16 (fld w 31 16 + 1)) kStatus 1 1 0
    .next (((s.reach e).setStack st.val { kFld k1 kStatus (16 + p) (16 + p) 0 with trainBy := none }).record ⟨.retrain, st.val, [p]⟩)

end Sys2Proof.Machine
end

