-- ==== Sys2Proof/Machine/FabricBase.lean ====
section
/-! DEFINITION. The core router: queues, tokens, steering units, the slot table (R258 to R278). -/

namespace Sys2Proof.Machine

/-- Flags of `fab.status` (R291). -/
def fSlotMiss : Word := 1#32
def fQovf : Word := 2#32
def fTokKind : Word := 4#32
def fXsync : Word := 8#32
def fPerr : Word := 16#32
def fBadOp : Word := 32#32
def fBusy : Word := 64#32
def fBadEntry : Word := 128#32

/-- The router's epoch tag (R258). -/
def epochTag (c : Core) : BitVec 8 := (cReg c rFabEpoch).setWidth 8

/-- Even parity of a word. -/
def parityW (w : Word) : Bool := (List.range 32).foldl (fun p i => p != w.getLsbD i) false

/-- Fields of a token (R275). -/
def tokKind (t : Word) : Nat := fld t 25 24
def tokEpoch (t : Word) : BitVec 8 := (t >>> 16).setWidth 8
def tokTarn (t : Word) : Bool := bit t 26
def tokOk (t : Word) : Bool := !parityW t

/-- A token with its parity; `bad` stores it inverted (R275, R544). -/
def mkToken (value kind : Nat) (epoch : BitVec 8) (bad : Bool) : Word :=
  let w := BitVec.ofNat 32 (value % 65536 + epoch.toNat * 65536 + kind % 4 * 2 ^ 24)
  if parityW w != bad then w ||| 0x80000000#32 else w

/-- A flit that holds no data (R258, R268). Its DATA field stands at zero and nothing reads it. -/
def emptyFlit (c : Core) : Flit := { data := 0, par := 0, empty := true, tarnish := false, epoch := epochTag c }

/-- Bytes of a flit, and its data words. -/
def flitBytes (f : Flit) : List Byte := (List.range 64).map fun i => (f.data >>> (8 * i)).setWidth 8
def flitWord (f : Flit) (i : Nat) : Word := (f.data >>> (32 * i)).setWidth 32

/-- The words of a flit whose parity fails. -/
def flitBad (f : Flit) : List Nat := (List.range 16).filter fun i => f.par.getLsbD i != parityW (flitWord f i)

/-- A flit's data from bytes; the parity of each word in `bad` is inverted (R274, R544). -/
def mkFlit (bytes : List Byte) (bad : List Nat) (tarn : Bool) (epoch : BitVec 8) : Flit :=
  let d : BitVec 512 := BitVec.ofNat 512 (natOfBytes bytes)
  let word (i : Nat) : Word := (d >>> (32 * i)).setWidth 32
  { data := d, empty := false, tarnish := tarn, epoch := epoch
    par := (List.range 16).foldl (fun (p : BitVec 16) i =>
      if parityW (word i) != bad.contains i then p ||| BitVec.ofNat 16 (2 ^ i) else p) 0#16 }

/-- Flits, or tokens, counted in `fab.stale` (R260, R280, R281). -/
def staleFlits (c : Core) (n : Nat) : Core := cCount c rFabStale 15 0 n
def staleToks (c : Core) (n : Nat) : Core := cCount c rFabStale 31 16 n

/-- A scheduled item was missing: SLOT_MISS, and a fault record (R268, R277). -/
def slotMiss (c : Core) (t : Nat) : Core :=
  cCheck (cEmit (cFlag c rFabStatus fSlotMiss) t ⟨.slotMiss, 0, [sectCount c t]⟩)

/-- A parity error found on the fabric (R274, R291). -/
def fabricParity (c : Core) (t : Nat) : Core := noteDataParity (cFlag c rFabStatus fPerr) t 5

/-- A flit at an input: discarded as stale, lost to a full queue, or queued (R260, R281). -/
def arriveFlit (c : Core) (inp : Nat) (f : Flit) : Core :=
  if c.awaiting || f.epoch != epochTag c then staleFlits c 1
  else
    let q := mgetD c.flitQ inp []
    if q.length ≥ 16 then cFlag c rFabStatus fQovf else { c with flitQ := mset c.flitQ inp (q ++ [f]) }

/-- A token at an input; KIND none is no token (R260, R275, R281). -/
def arriveTok (c : Core) (inp : Nat) (k : Word) : Core :=
  if tokKind k = 0 then c
  else if c.awaiting || tokEpoch k != epochTag c then staleToks c 1
  else
    let q := mgetD c.tokQ inp []
    if q.length ≥ 16 then cFlag c rFabStatus fQovf else { c with tokQ := mset c.tokQ inp (q ++ [k]) }

/-- The slot-table entry number of section cycle n (R265); none where the table idles. -/
def entryIndex (c : Core) (n : Nat) : Option Nat :=
  let pro := fld (cReg c rFabTblLen) 12 0
  let epi := fld (cReg c rFabTblLen) 28 16
  let per := fld (cReg c rFabTblPer) 12 0
  let iter := (cReg c rFabTblIter).toNat
  if n < pro then some n
  else if n < pro + per * iter then some (pro + (n - pro) % per)
  else if n < pro + per * iter + epi then some (pro + per + (n - pro - per * iter))
  else none

/-- The active bank, and an entry of it; an entry that was never loaded is zero. -/
def slotEntry (c : Core) (i : Nat) : BitVec 64 := mgetD c.slots (fld (cReg c rFabTblPer) 16 16 * 4096 + i) 0#64

/-- Bits [hi:lo] of an entry. -/
def efld (e : BitVec 64) (hi lo : Nat) : Nat := (e.toNat / 2 ^ lo) % 2 ^ (hi + 1 - lo)

/-- The barrier cycle END in section cycles (R280). -/
def sectEnd (c : Core) : Nat := (cReg c rFabEndLo).toNat + 2 ^ 32 * (cReg c rFabEndHi).toNat

/-! ### Streams at the router -/

/-- The flit that link l's out-stream gives to a slot in cycle t, with the stream moved on (R272, R274). -/
def outFlit (c : Core) (l t : Nat) : Option (Flit × Core) :=
  match mget? c.outs l with
  | none => none
  | some o =>
    if o.start ≤ t then
      let a := o.base + o.next * o.stride
      let cyc := t - latency c
      let bad := (List.range 16).filter fun i => spadBad c.spad cyc (a / 4 + i)
      let f := mkFlit (spadBytes c.spad cyc a 64) bad (spadTarn c.spad cyc (a / 128)) (epochTag c)
      let c1 := noteReads c 6 t ((List.range 64).map fun b => (a + b, cyc))
      let c2 : Core := { c1 with outs := if o.next + 1 = o.count then merase c1.outs l else mset c1.outs l { o with next := o.next + 1 } }
      some (if o.enabled then f else emptyFlit c, c2)
    else none

/-- A flit ejected to the in-stream of input i in cycle t (R268, R273). -/
def ejectFlit (c : Core) (i t : Nat) (f : Flit) : Core :=
  match mget? c.ins i with
  | none => slotMiss c t
  | some o =>
    if o.start ≤ t then
      let a := o.base + o.next * o.stride
      let lat := latency c
      let bad := flitBad f
      let real := o.enabled && !f.empty
      let other := a / 64 + 1 - 2 * (a / 64 % 2)
      let clears := if !f.tarnish && o.cover == some other then [a / 128] else []
      let c1 : Core := if real then
          let wr : SpadWrite := { commit := t + lat, client := 5, addr := a, bytes := flitBytes f
                                  bad := bad.map (fun k => a / 4 + k), tarn := f.tarnish, clears := clears }
          { c with spad := spadPush c.spad wr, rcvdPend := c.rcvdPend ++ [(t + lat, i)] }
        else c
      let c2 := if real && !bad.isEmpty then fabricParity c1 t else c1
      let c3 : Core := if o.next + 1 = o.count then
          match o.push with
          | some p => if o.enabled then { c2 with ins := merase c2.ins i, hqPend := c2.hqPend ++ [⟨t + lat + 1, p.1, p.2⟩] }
                      else { c2 with ins := merase c2.ins i }
          | none => { c2 with ins := merase c2.ins i }
        else
          let cov := if !real then o.cover else if f.tarnish then none else some (a / 64)
          { c2 with ins := mset c2.ins i { o with next := o.next + 1, cover := cov } }
      c3
    else slotMiss c t

/-! ### One slot-table entry -/

/-- Head flit and head token of an input. -/
def headFlit (c : Core) (i : Nat) : Option Flit := (mgetD c.flitQ i []).head?
def headTok (c : Core) (i : Nat) : Option Word := (mgetD c.tokQ i []).head?

/-- What an entry sends on one link: the core afterwards (misses, the out-stream), and the flit (R266, R268). -/
def linkFlit (c : Core) (l code t : Nat) : Core × Option Flit :=
  if code = 0 then (c, none)
  else if code ≤ 4 then
    match headFlit c (code - 1) with
    | some f => (c, some f)
    | none => (slotMiss c t, some (emptyFlit c))
  else if code = 5 then
    match outFlit c l t with
    | some r => (r.2, some r.1)
    | none => (slotMiss c t, some (emptyFlit c))
  else if code ≤ 13 then
    match mget? c.steerOut (code - 6) with
    | some f => (c, some f)
    | none => (slotMiss c t, some (emptyFlit c))
  else (cFlag c rFabStatus fBadEntry, none)

/-- The gate of an entry applied to the flit of its link (R269); `fr` numbers the free words of a DATA it leaves
undefined. -/
def gateFlit (c : Core) (e : BitVec 64) (l fr : Nat) (f : Flit) : Flit :=
  if bit (BitVec.ofNat 32 (efld e 45 45)) 0 && efld e 44 43 == l && cReg c (0x3030 + 4 * efld e 42 40) == 0#32 then
    { f with empty := true
             data := (List.range 16).foldl (fun (d : BitVec 512) i =>
               d ||| ((Config.freeWord (fr + i)).setWidth 512 <<< (32 * i))) 0#512 }
  else f

/-- What an entry sends on one link's token lane (R266, R268). -/
def linkTok (c : Core) (l code t : Nat) : Core × Option Word :=
  if code = 0 then (c, none)
  else if code ≤ 4 then
    match headTok c (code - 1) with
    | some k => (c, some k)
    | none => (slotMiss c t, none)
  else if code = 5 then
    match (mgetD c.localTok l []).head? with
    | some k => (c, some k)
    | none => (slotMiss c t, none)
  else (cFlag c rFabStatus fBadEntry, none)

/-- A steering unit's configuration (R276). -/
structure Steer where
  op   : Nat
  din  : Nat
  din2 : Nat
  tin  : Nat
  ctr  : Nat
  deriving DecidableEq, Repr

def steerCfg (c : Core) (u : Nat) : Steer :=
  let w := cReg c (0x3050 + 4 * u)
  ⟨fld w 1 0, fld w 3 2, fld w 5 4, fld w 7 6, fld w 10 8⟩

/-- The outputs that a firing writes: 0 and 1 of a STEER, 0 of a MERGE or GATE, none of a LOAD. -/
def steerOuts (op : Nat) : List Nat := if op = 0 then [0, 1] else if op = 3 then [] else [0]

/-- What a firing does: flags raised, outputs, a counter loaded, and whether it takes its inputs (R276, R277). -/
structure Firing where
  miss  : Bool
  kind  : Bool
  outs  : List (Nat × Flit)
  load  : Option (Nat × Nat)
  taken : Bool
  deriving DecidableEq, Repr

/-- A firing judged on the heads at the start of the cycle (R276, R277). -/
def judgeFiring (c : Core) (u : Nat) : Firing :=
  let g := steerCfg c u
  let e := emptyFlit c
  let mark (tarn : Bool) (f : Flit) : Flit := { f with tarnish := f.tarnish || tarn }
  let empties (tarn : Bool) := (steerOuts g.op).map fun o => (2 * u + o, mark tarn e)
  let need := if g.op = 3 then [] else if g.op = 1 then [g.din, g.din2] else [g.din]
  match headTok c g.tin with
  | none => ⟨true, false, empties false, none, false⟩
  | some k =>
    if need.any fun i => (headFlit c i).isNone then ⟨true, false, empties false, none, false⟩
    else if tokKind k ≠ (if g.op = 3 then 2 else 1) then ⟨false, true, empties (tokTarn k), none, true⟩
    else
      let f := mark (tokTarn k) ((headFlit c g.din).getD e)
      let f2 := mark (tokTarn k) ((headFlit c g.din2).getD e)
      let em := mark (tokTarn k) e
      let v := bit k 0
      let outs := match g.op with
        | 0 => [(2 * u, if v then em else f), (2 * u + 1, if v then f else em)]
        | 1 => [(2 * u, if v then f2 else f)]
        | 2 => [(2 * u, if v then f else em)]
        | _ => []
      ⟨false, false, outs, if g.op = 3 then some (g.ctr, fld k 15 0) else none, true⟩

/-- The inputs whose head flit, or head token, a firing removes. -/
def firingFlits (c : Core) (u : Nat) (g : Firing) : List Nat :=
  let k := steerCfg c u
  if g.taken then (if k.op = 3 then [] else if k.op = 1 then [k.din, k.din2] else [k.din]) else []
def firingToks (c : Core) (u : Nat) (g : Firing) : List Nat := if g.taken then [(steerCfg c u).tin] else []

/-- A firing's effect on flags, outputs and counters; `sent` lists the outputs sent in this cycle. -/
def applyFiring (t : Nat) (sent : List Nat) (c : Core) (g : Firing) : Core :=
  let c1 := if g.miss then slotMiss c t else c
  let c2 := if g.kind then cFlag c1 rFabStatus fTokKind else c1
  let c3 := if g.outs.any (fun o => (mget? c.steerOut o.1).isSome && !sent.contains o.1) then slotMiss c2 t else c2
  let c4 : Core := { c3 with steerOut := g.outs.foldl (fun m o => mset m o.1 o.2) c3.steerOut }
  match g.load with
  | some l => cSet c4 (0x3030 + 4 * l.1) (BitVec.ofNat 32 l.2)
  | none => c4

/-- A token taken with its parity failing is reported (R274, R291). -/
def checkToks (c : Core) (t : Nat) (ks : List Word) : Core := if ks.any (fun k => !tokOk k) then fabricParity c t else c

/-- Heads removed from the queues. -/
def dropHeads {α : Type} (m : Map (List α)) (is : List Nat) : Map (List α) :=
  is.eraseDups.foldl (fun m i => mset m i ((mgetD m i []).drop 1)) m

/-- One entry applied in cycle t: the core afterwards, and the flit and token sent on each link (R265 to R269, R276,
R277). -/
def applyEntry (c : Core) (e : BitVec 64) (t fr : Nat) : Core × List (Nat × Option Flit × Option Word) :=
  let codes := [efld e 3 0, efld e 7 4, efld e 11 8, efld e 15 12]
  let tcodes := [efld e 22 20, efld e 25 23, efld e 28 26, efld e 31 29]
  let ej := (List.range 4).filter fun i => e.getLsbD (16 + i)
  let tej := (List.range 4).filter fun i => e.getLsbD (36 + i)
  let units := (List.range 4).filter fun i => e.getLsbD (32 + i)
  let fires := units.map fun u => (u, judgeFiring c u)
  -- what goes out on the links, judged on the heads at the start of the cycle
  let r := codes.zipIdx.foldl (fun (a : Core × List (Option Flit)) p =>
    let q := linkFlit a.1 p.2 p.1 t
    (q.1, a.2 ++ [q.2.map (gateFlit c e p.2 fr)])) (c, [])
  let rt := tcodes.zipIdx.foldl (fun (a : Core × List (Option Word)) p =>
    let q := linkTok a.1 p.2 p.1 t
    (q.1, a.2 ++ [q.2])) (r.1, [])
  -- ejected flits and tokens
  let c1 := ej.foldl (fun k i =>
    match headFlit c i with
    | some f => ejectFlit k i t f
    | none => ejectFlit (slotMiss k t) i t (emptyFlit c)) rt.1
  let toks := tej.filterMap (headTok c)
  let c2 := if tej.any (fun i => (headTok c i).isNone) then slotMiss c1 t else c1
  let c3 : Core := { checkToks c2 t toks with tokin := (c2.tokin ++ toks).take 4 }
  -- the gate's counter, then the firings
  let ctr := 0x3030 + 4 * efld e 42 40
  let c4 := if e.getLsbD 45 && cReg c ctr != 0#32 then cSet c3 ctr (cReg c ctr - 1#32) else c3
  let sent := codes.filterMap fun k => if 6 ≤ k ∧ k ≤ 13 then some (k - 6) else none
  let c5 := fires.foldl (fun k p => applyFiring t sent k p.2) { c4 with steerOut := c4.steerOut }
  let c6 := checkToks c5 t (fires.flatMap fun p => (firingToks c p.1 p.2).filterMap (headTok c))
  -- what leaves the queues and outputs
  let fresh := fires.flatMap fun p => p.2.outs.map Prod.fst
  let inF := (codes.filterMap fun k => if 1 ≤ k ∧ k ≤ 4 then some (k - 1) else none) ++ ej
    ++ fires.flatMap fun p => firingFlits c p.1 p.2
  let inT := (tcodes.filterMap fun k => if 1 ≤ k ∧ k ≤ 4 then some (k - 1) else none) ++ tej
    ++ fires.flatMap fun p => firingToks c p.1 p.2
  let locals := (List.range 4).filter fun l => tcodes.getD l 0 == 5
  let c7 : Core := { c6 with
    flitQ := dropHeads c6.flitQ inF
    tokQ := dropHeads c6.tokQ inT
    localTok := dropHeads c6.localTok locals
    steerOut := (sent.filter fun o => !fresh.contains o).foldl merase c6.steerOut
    regs := (List.range 4).foldl (fun m l =>
      if ((r.2.getD l none).isSome) then regUpd coreRegs m (0x3064 + 4 * l) (fun w => w + 1#32) else m) c6.regs }
  (c7, (List.range 4).map fun l => (l, r.2.getD l none, rt.2.getD l none))

/-! ### Links -/

/-- The core that link l of core c reaches, and the input at which it arrives there (R8, R259, R261). -/
def linkDest (c l : Nat) : Option (Nat × Nat) :=
  let x := coreX c
  let y := coreY c
  match l with
  | 0 => if y + 1 < 96 then some (coreAt x (y + 1), 2) else none
  | 1 => if x + 1 < 112 then some (coreAt (x + 1) y, 3) else none
  | 2 => if 0 < y then some (coreAt x (y - 1), 0) else none
  | _ => if 0 < x then some (coreAt (x - 1) y, 1) else none

/-- Items put on a link in cycle t: one cycle inside a region; at a crossing 32 cycles, counted in each router's section
cycle count; nothing, with XSYNC, where the launches differ by more than 4 cycles (R259, R261, R262). -/
def sendLink (s : State) (c t l : Nat) (f : Option Flit) (k : Option Word) : State :=
  if f.isNone ∧ k.isNone then s
  else
    match linkDest c l with
    | none => s
    | some (d, inp) =>
      if regionOfCore c = regionOfCore d then { s with wires := s.wires ++ [⟨t + 1, d, inp, f, k⟩] }
      else
        let a := (s.core c).launchAt.getD 0
        let b := (s.core d).launchAt.getD a
        if a ≤ b + 4 ∧ b ≤ a + 4 then { s with wires := s.wires ++ [⟨t + 32 + b - a, d, inp, f, k⟩] }
        else s.setCore d (cCheck (cEmit (cFlag (s.core d) rFabStatus fXsync) t ⟨.xsync, 0, [c]⟩))

/-- The earliest item of a kind on its way to an input. -/
def nextWire (s : State) (d inp : Nat) (flit : Bool) : Option Wire :=
  (s.wires.filter fun w => w.dest == d && w.inp == inp && (if flit then w.flit.isSome else w.tok.isSome)).foldl
    (fun (b : Option Wire) w => match b with
      | none => some w
      | some v => if w.due < v.due then some w else b) none

/-- An item taken off a wire. -/
def takeWire (s : State) (w : Wire) (flit : Bool) : State :=
  let rest : Wire := if flit then { w with flit := none } else { w with tok := none }
  let ws := s.wires.erase w
  { s with wires := if rest.flit.isNone && rest.tok.isNone then ws else ws ++ [rest] }

end Sys2Proof.Machine
end

