-- ==== Sys2Proof/Machine/Streams.lean ====
section
/-! DEFINITION. Stream contexts and stream engines, and the transfers of a core (R393 to R411, R419 to R422, R426). -/

namespace Sys2Proof.Machine

def State.ctx (s : State) (st c : Nat) : StreamCtx := mgetD (s.stack st).ctxs c StreamCtx.reset
def State.setCtx (s : State) (st c : Nat) (x : StreamCtx) : State :=
  let k := s.stack st
  s.setStack st { k with ctxs := mset k.ctxs c x }

/-- STATE and REASON of a context (R394). -/
def xIdle : Nat := 0
def xRun : Nat := 1
def xHalted : Nat := 2
def xDone : Nat := 3
def xFault : Nat := 4
def xFailed : Nat := 5
def xStopped : Nat := 6
def whyMiss : Nat := 1
def whyUnreach : Nat := 2
def whyDesc : Nat := 3
def whyDest : Nat := 4
def whyReset : Nat := 5

/-- KIND of a stream (R393). -/
def kSched : Nat := 0
def kService : Nat := 1
def kShared : Nat := 2
def kRemote : Nat := 3

/-! ### The descriptor (R395) -/

def dWord (x : StreamCtx) (i : Nat) : Word := x.words.getD i 0#32
def dKind (x : StreamCtx) : Nat := fld (dWord x 0) 1 0
def dOut (x : StreamCtx) : Bool := bit (dWord x 0) 2
def dChunk (x : StreamCtx) : Nat := 64 * fld (dWord x 0) 6 3
def dNbuf (x : StreamCtx) : Nat := fld (dWord x 0) 11 7
def dBuf (x : StreamCtx) : Nat := fld (dWord x 0) 15 12
def dHq (x : StreamCtx) : Nat := fld (dWord x 0) 18 16
def dPush (x : StreamCtx) : Bool := bit (dWord x 0) 19
def dFill (x : StreamCtx) : Nat := fld (dWord x 0) 29 20
def dSrc (x : StreamCtx) : Nat := (dWord x 1).toNat + 2 ^ 32 * fld (dWord x 2) 19 0
def dN0 (x : StreamCtx) : Nat := fld (dWord x 3) 15 0
def dN1 (x : StreamCtx) : Nat := fld (dWord x 3) 31 16
def dTotal (x : StreamCtx) : Nat := dN0 x * dN1 x
def dStride0 (x : StreamCtx) : Int := (dWord x 4).toInt
def dStride1 (x : StreamCtx) : Int := (dWord x 5).toInt
def dDest (x : StreamCtx) : Nat := coreAt (fld (dWord x 6) 6 0) (fld (dWord x 6) 13 7)
def dGroup (x : StreamCtx) : Nat := fld (dWord x 6) 23 14
def dHandle (x : StreamCtx) : Word := dWord x 7
def dStart (x : StreamCtx) : Nat := (dWord x 8).toNat
def dPeriod (x : StreamCtx) : Nat := fld (dWord x 9) 15 0
def dLane (x : StreamCtx) : Nat := fld (dWord x 9) 18 16
def dDaddr (x : StreamCtx) : Nat := fld (dWord x 10) 21 0
def dSword (x : StreamCtx) : Nat := fld (dWord x 11) 21 0
def dCredits (x : StreamCtx) : Nat := fld (dWord x 12) 4 0

/-- The device address of chunk i (R396); none below zero. -/
def chunkAddr (x : StreamCtx) (i : Nat) : Option Nat :=
  let a : Int := (dSrc x : Int) + ((i % dN0 x : Nat) : Int) * dStride0 x + ((i / dN0 x : Nat) : Int) * dStride1 x
  if a < 0 then none else some a.toNat

/-- The stack offset of chunk i in stack st. -/
def chunkOff (x : StreamCtx) (st i : Nat) : Option Nat :=
  match chunkAddr x i with
  | none => none
  | some a =>
    match burmonAddr a with
    | some (n, off) => if n = st then some off else none
    | none => none

/-- The partition of a core's region. -/
def State.partOf (s : State) (c : Nat) : Nat := (s.region (regionOfCore c)).part

/-- Fields in range and reserved fields zero (R395, R397). -/
def descFields (x : StreamCtx) : Bool :=
  let w := dWord x
  let c64 := dChunk x / 64
  fld (w 0) 31 30 == 0 && fld (w 2) 31 20 == 0 && fld (w 6) 31 24 == 0 && fld (w 9) 31 19 == 0 && fld (w 10) 31 22 == 0 &&
  fld (w 11) 31 22 == 0 && fld (w 12) 31 5 == 0 && w 13 == 0#32 && w 14 == 0#32 && w 15 == 0#32 &&
  decide (1 ≤ c64 ∧ c64 ≤ (if dKind x = kSched then 4 else 8)) && decide (1 ≤ dNbuf x ∧ dNbuf x ≤ 16) && decide (1 ≤ dFill x) &&
  decide (1 ≤ dN0 x ∧ 1 ≤ dN1 x) && (w 4).toNat % 64 == 0 && (w 5).toNat % 64 == 0 &&
  decide (fld (w 6) 6 0 < 112 ∧ fld (w 6) 13 7 < 96) && decide (dCredits x ≤ dNbuf x) &&
  (dKind x != kSched || (decide (1 ≤ dPeriod x) && decide (dLane x ≤ 5)))

/-- Every chunk in its place (R396, R397). -/
def descChunks (s : State) (st : Nat) (x : StreamCtx) (part : Nat) : Bool :=
  (List.range (dTotal x)).all fun i =>
    match chunkAddr x i with
    | none => false
    | some a =>
      a / 512 == (a + dChunk x - 1) / 512 &&
      if dKind x = kRemote then isRemote a
      else match chunkOff x st i with
        | some off => decide (off + dChunk x ≤ stackBytes) && ownOk (s.stack st) off part (dKind x == kSched && dOut x)
        | none => false

/-- The destination's or the group's place, the buffers and the ring (R397). -/
def descDest (s : State) (x : StreamCtx) (part : Nat) : Bool :=
  let ring := dDaddr x + dNbuf x * dFill x * dChunk x
  (if dKind x = kShared then
     match mget? s.groups (dGroup x) with
     | some g => g.members.all fun c => s.partOf c == part
     | none => false
   else s.partOf (dDest x) == part) &&
  decide (dBuf x + dNbuf x ≤ 16) &&
  (dKind x != kShared ||
    (decide (ring ≤ spadEnd) && decide (dSword x + 4 ≤ spadEnd) && dDaddr x % 64 == 0 && dSword x % 4 == 0 &&
     decide (ring ≤ dSword x ∨ dSword x + 4 ≤ dDaddr x))) &&
  (!(dKind x == kSched && dOut x) || (decide (ring ≤ spadEnd) && dDaddr x % 64 == 0))

/-- The whole check of R397. -/
def descOk (s : State) (st : Nat) (x : StreamCtx) : Bool :=
  match x.part with
  | none => false
  | some p => descFields x && descDest s x p && descChunks s st x p

/-- A stream at its start (R394, R404). -/
def streamBegin (x : StreamCtx) : StreamCtx :=
  { x with state := xRun, reason := 0, credOvf := false, tarn := false, credits := dCredits x, pos := 0, sent := 0, page := 0
           mseq := 0, seqDue := false, hqpDue := false }

/-- Whether a context takes accesses of a partition (R394). -/
def ctxPart (x : StreamCtx) (part : Nat) : Bool := part == 0 || x.part == some part

/-- A descriptor written into a context (R394, R397): the status, and the state. -/
def loadDescriptor (s : State) (st c part : Nat) (ws : List Word) : State × Nat :=
  let x := s.ctx st c
  if !ctxPart x part then (s, stPart)
  else if x.state = xRun ∨ x.state = xHalted ∨ ws.length ≠ 16 then (s, stRange)
  else
    let y : StreamCtx := { StreamCtx.reset with part := x.part, words := ws }
    let z : StreamCtx := if dKind y = kSched ∧ ¬ descOk s st y then { y with state := xFault, reason := whyDesc } else y
    (s.setCtx st c z, stOk)

/-- Credits added, clipped to NBUF (R404). -/
def addCredits (x : StreamCtx) (n : Nat) : StreamCtx :=
  if x.credits + n > dNbuf x then { x with credits := dNbuf x, credOvf := true } else { x with credits := x.credits + n }

/-- A write to the control block: CTL and CREDIT (R394, R397, R398, R404). -/
def controlWrite (s : State) (st c part : Nat) (start stop : Bool) (credit : Nat) : State × Nat :=
  let x := s.ctx st c
  if !ctxPart x part then (s, stPart)
  else if start ∧ ¬ stop ∧ dKind x = kSched then (s, stRange)
  else
    let y : StreamCtx :=
      if stop then (if x.state = xRun ∨ x.state = xHalted then { x with state := xStopped } else x)
      else if start ∧ x.state = xIdle then
        (if descOk s st x then streamBegin x else { x with state := xFault, reason := whyDesc })
      else x
    (s.setCtx st c (addCredits y credit), stOk)

/-- The state words of the control block (R394). -/
def ctxWords (x : StreamCtx) : List Word :=
  [ BitVec.ofNat 32 (packFields [(3, x.state), (3, x.reason), (1, bnat x.credOvf), (1, bnat x.tarn), (5, x.credits)]),
    BitVec.ofNat 32 x.pos, BitVec.ofNat 32 x.page, BitVec.ofNat 32 (x.page / 2 ^ 32) ] ++ List.replicate 12 0#32

/-- A request to the stream context window (R394): status, bytes for a read. -/
def ctxRead (s : State) (st c byte len part : Nat) : Nat × List Byte :=
  let x := s.ctx st c
  if !ctxPart x part then (stPart, [])
  else if len = 64 ∧ byte = 0 then (stOk, ((List.range 16).map (dWord x)).flatMap bytesOfWord)
  else if len = 64 ∧ byte = 64 then (stOk, (ctxWords x).flatMap bytesOfWord)
  else (stRange, [])

def ctxWrite (s : State) (st c byte part : Nat) (bytes : List Byte) : State × Nat :=
  let word (i : Nat) : Word := wordOfBytes ((bytes.drop (4 * i)).take 4)
  if !ctxPart (s.ctx st c) part then (s, stPart)
  else if bytes.length = 64 ∧ byte = 0 then loadDescriptor s st c part ((List.range 16).map word)
  else if bytes.length = 64 ∧ byte = 64 then
    controlWrite s st c part (bit (word 0) 0) (bit (word 0) 1) (fld (word 1) 4 0)
  else if bytes.length = 4 ∧ byte = 68 then controlWrite s st c part false false (fld (word 0) 4 0)
  else (s, stRange)

/-! ### Packets of a stack -/

/-- The rim routers of a stack: first and second (R32, R33). -/
def stackRim (st second : Nat) : Nat × Nat :=
  if st < 16 then (2 * st + 1 + second, 0)
  else if st < 28 then (33, 2 * (st - 16) + 1 + second)
  else if st < 44 then (2 * (st - 28) + 1 + second, 25)
  else (0, 2 * (st - 44) + 1 + second)

/-- The stack whose rim router is at a place, and which of the two it is. -/
def stackAt (x y : Nat) : Option (Nat × Nat) :=
  ((List.range 56).flatMap fun st => [(st, 0), (st, 1)]).find? fun p => stackRim p.1 p.2 == (x, y)

/-- A packet of a stream: from the stack's first router for contexts 0 to 255, else from the second (R384). -/
def fromStack (st c : Nat) (part : Nat) (p : Packet) : Packet :=
  let r := stackRim st (c / 256)
  { p with sx := BitVec.ofNat 7 r.1, sy := BitVec.ofNat 7 r.2, skind := true, sep := 0, part := BitVec.ofNat 12 part }

/-- A stream's request on its way, its response awaited; `arg` is the chunk, or the total for an HQP. -/
def sendStream (s : State) (st c part arg : Nat) (p : Packet) : State :=
  let k := s.stack st
  let q := fromStack st c part { p with tag := BitVec.ofNat 16 k.nextTag }
  (s.setStack st { k with nextTag := (k.nextTag + 1) % 65536, reqs := k.reqs ++ [⟨k.nextTag, s.now, c, arg⟩] }).putNet q

/-- DONE when the last chunk is delivered and the last HQP answered (R405). -/
def streamDone (s : State) (st c : Nat) : State :=
  let x := s.ctx st c
  if x.state = xRun ∧ x.pos = dTotal x ∧ ¬ x.hqpDue ∧ ¬ x.seqDue ∧ ¬ (s.stack st).reqs.any (fun r => r.what == c) then
    s.setCtx st c { x with state := xDone }
  else s

/-- A response to a stream's request (R405). -/
def streamAnswer (s : State) (st tag status : Nat) : State :=
  let k := s.stack st
  match k.reqs.find? fun r => r.tag == tag with
  | none => s
  | some r =>
    let s1 := s.setStack st { k with reqs := k.reqs.filter fun q => q.tag != tag }
    let x := s1.ctx st r.what
    if x.state ≠ xRun ∧ x.state ≠ xHalted then s1
    else if status ≠ stOk then s1.setCtx st r.what { x with state := xFault, reason := whyDest, pos := min r.arg (dTotal x - 1) }
    else
      let y : StreamCtx := if r.arg < dTotal x then { x with pos := max x.pos (r.arg + 1) } else x
      streamDone (s1.setCtx st r.what y) st r.what

/-- The bytes of the next chunk and its tarnish: from memory, or from the host (R409, R420). -/
def fetchChunk (s : State) (st c i part : Nat) (errs : List (Nat × Nat)) (host : List Byte) : State × Nat × List Byte × Bool :=
  let x := s.ctx st c
  if dKind x = kRemote then (s, stOk, (host ++ List.replicate (dChunk x) 0#8).take (dChunk x), false)
  else match chunkOff x st i with
    | some off => burmonRead s st off (dChunk x) part true errs
    | none => (s, stRange, [], false)

/-- Whether chunk i begins, or ends, a fill (R403, R405). -/
def fillFirst (x : StreamCtx) (i : Nat) : Bool := i % dFill x == 0
def fillLast (x : StreamCtx) (i : Nat) : Bool := i % dFill x == dFill x - 1 || i + 1 == dTotal x

/-- One action of a SERVICE or REMOTE stream: the HQP of a fill that is due, or the next chunk, which takes a credit where
it begins a fill (R403, R404). -/
def serviceChunk (s : State) (st c : Nat) (errs : List (Nat × Nat)) (host : List Byte) : State :=
  let x := s.ctx st c
  let part := x.part.getD 0
  if x.state ≠ xRun ∨ (dKind x ≠ kService ∧ dKind x ≠ kRemote) then s
  else if x.hqpDue then
    sendStream (s.setCtx st c { x with hqpDue := false }) st c part (dTotal x)
      (toCore (dDest x) { Packet.blank with type := tHQP, tdata := [dHandle x, BitVec.ofNat 32 (dHq x)] })
  else
    let i := x.sent
    if dTotal x ≤ i ∨ (fillFirst x i ∧ x.credits = 0) then s
    else
      let f := fetchChunk s st c i part errs host
      if f.2.1 ≠ stOk then f.1.setCtx st c { x with state := xFault, reason := whyDesc }
      else
        let data := f.2.2.1
        let crc := pcrcOf data
        let arg := packFields [(4, dBuf x + (i / dFill x) % dNbuf x), (1, 1), (1, bnat (fillFirst x i)), (1, bnat (fillLast x i))]
        let y : StreamCtx := { x with sent := i + 1, credits := if fillFirst x i then x.credits - 1 else x.credits
                                      tarn := x.tarn || f.2.2.2, hqpDue := fillLast x i && dPush x }
        sendStream (f.1.setCtx st c y) st c part i
          (toCore (dDest x) { Packet.blank with
            type := tWR, tarnish := f.2.2.2, addr := BitVec.ofNat 64 (i % dFill x * dChunk x), arg := BitVec.ofNat 16 arg
            payload := data, pcrc0 := crc.1, pcrc1 := crc.2 })

/-- An MCWR of a shared stream (R406). -/
def sendShared (s : State) (st c part mseq addr : Nat) (data : List Byte) (tarn : Bool) : State :=
  let crc := pcrcOf data
  let x := s.ctx st c
  s.putNet (fromStack st c part { Packet.blank with
    type := tMCWR, dkind := 3, group := BitVec.ofNat 10 (dGroup x), addr := BitVec.ofNat 64 addr, mseq := BitVec.ofNat 16 mseq
    tarnish := tarn, payload := data, pcrc0 := crc.1, pcrc1 := crc.2 })

/-- One action of a SHARED stream: the sequence word of a fill that is due, or the next chunk (R404 to R406). -/
def sharedChunk (s : State) (st c : Nat) (errs : List (Nat × Nat)) : State :=
  let x := s.ctx st c
  let part := x.part.getD 0
  if x.state ≠ xRun ∨ dKind x ≠ kShared then s
  else if x.seqDue then
    let s1 := s.setCtx st c { x with seqDue := false, mseq := x.mseq + 1, pos := x.sent }
    streamDone (sendShared s1 st c part x.mseq (dSword x) (bytesOfWord (BitVec.ofNat 32 x.sent)) false) st c
  else
    let i := x.sent
    if dTotal x ≤ i ∨ (fillFirst x i ∧ x.credits = 0) then s
    else
      let f := fetchChunk s st c i part errs []
      if f.2.1 ≠ stOk then f.1.setCtx st c { x with state := xFault, reason := whyDesc }
      else
        let y : StreamCtx := { x with sent := i + 1, pos := i + 1, mseq := x.mseq + 1
                                      credits := if fillFirst x i then x.credits - 1 else x.credits
                                      tarn := x.tarn || f.2.2.2, seqDue := fillLast x i }
        sendShared (f.1.setCtx st c y) st c part x.mseq (dDaddr x + i % (dNbuf x * dFill x) * dChunk x) f.2.2.1 f.2.2.2

/-! ### Scheduled streams -/

/-- The key of a scheduled stream's fill in the core's list of fills. -/
def schedKey (st c : Nat) : Nat := st * 512 + c

/-- A chunk into the core in port cycle t (R221, R222, R399); the rows of a chunk take its blocks' tarnish (R416). -/
def schedIn (s : State) (st c i t : Nat) (off : Nat) (errs : List (Nat × Nat)) (badPar : List Nat) : State :=
  let x := s.ctx st c
  let d := dDest x
  let len := dChunk x
  let s1 := (touched 64 off len).foldl (fun a b => readBlock a st b (errsOf errs b) false) s
  let k := s1.stack st
  let bytes := cellGets k.mem off len
  let core := settleCore (s1.core d) t
  let n := dBuf x + (i / dFill x) % dNbuf x
  let key := schedKey st c
  let c0 : Core := if fillFirst x i then
      match fillBegin core n with
      | some f => { core with fills := mset core.fills key f }
      | none => badBuf { core with fills := merase core.fills key } t n
    else core
  match mget? c0.fills key with
  | none => s1.setCore d c0
  | some f =>
    let a := f.addr + i % dFill x * len
    let rows := touched 128 a len
    let tarnOf (r : Nat) : Bool := (List.range 2).any fun h =>
      let b := r * 128 + h * 64
      decide (a ≤ b ∧ b < a + len) && k.tarn.contains ((off + (b - a)) / 64)
    let commit := t + latency c0 - 1
    let piece (r : Nat) : SpadWrite :=
      let lo := max a (r * 128)
      let hi := min (a + len) (r * 128 + 128)
      { plainWrite commit 5 lo ((bytes.drop (lo - a)).take (hi - lo)) (tarnOf r) with
        bad := (badPar.map fun w => a / 4 + w).filter fun w => lo / 4 ≤ w && w < hi / 4 }
    let c1 : Core := { c0 with spad := spadPushes c0.spad (rows.map piece) }
    let c2 := if badPar.isEmpty then c1 else noteDataParity c1 t 5
    let c3 : Core := if fillLast x i then
        { c2 with fills := merase c2.fills key, rdyPend := c2.rdyPend ++ [(commit, n, f)]
                  hqPend := if dPush x then c2.hqPend ++ [⟨commit + 1, dHq x, dHandle x⟩] else c2.hqPend }
      else c2
    s1.setCore d c3

/-- A chunk out of the core in port cycle t, into memory (R399, R416, R546). -/
def schedOut (s : State) (st c i t : Nat) (off : Nat) (badPar : List Nat) : State :=
  let x := s.ctx st c
  let d := dDest x
  let len := dChunk x
  let core := settleCore (s.core d) t
  let a := dDaddr x + i % (dNbuf x * dFill x) * len
  let bytes := spadBytes core.spad t a len
  let tarnRow (b : Nat) : Bool := spadTarn core.spad t ((a + b) / 128)
  let badWord (b : Nat) : Bool := (List.range 16).any fun w => spadBad core.spad t ((a + b) / 4 + w) || badPar.contains (b / 4 + w)
  let core1 := noteReads core 6 t ((List.range len).map fun b => (a + b, t))
  let core2 := if badPar.isEmpty then core1 else noteDataParity core1 t 5
  let s1 := s.setCore d core2
  (List.range (len / 64)).foldl (fun st8 j =>
    (burmonWrite st8 st (off + 64 * j) ((bytes.drop (64 * j)).take 64) (tarnRow (64 * j) || badWord (64 * j)) 0 true []).1) s1

/-- A SCHED stream's next chunk at its planned cycle (R398, R399). -/
def schedChunk (s : State) (st c : Nat) (errs : List (Nat × Nat)) (badPar : List Nat) : State :=
  let x := s.ctx st c
  let core := s.core (dDest x)
  let i := x.sent
  match core.launchAt with
  | none => s
  | some l =>
    if x.state ≠ xRun ∨ dKind x ≠ kSched ∨ dTotal x ≤ i ∨ core.awaiting then s
    else
      match chunkOff x st i with
      | none => s
      | some off =>
        let t := l + dStart x + i * dPeriod x
        let s1 := s.reach t
        let tarn := !dOut x && ((touched 64 off (dChunk x)).any fun b => (s.stack st).tarn.contains b)
        let y : StreamCtx := { x with sent := i + 1, pos := i + 1, tarn := x.tarn || tarn }
        let s2 := s1.setCtx st c y
        if dOut x then schedOut s2 st c i t off badPar else schedIn s2 st c i t off errs badPar

/-- The SCHED streams into or out of the cores of a partition changed: to RUN at a launch, to DONE at the barrier (R398). -/
def schedStreams (s : State) (part : Nat) (f : StreamCtx → StreamCtx) : State :=
  { s with stks := s.stks.map fun p => (p.1, { p.2 with
      ctxs := p.2.ctxs.map fun q =>
        if q.2.part = some part ∧ q.2.words.length = 16 ∧ dKind q.2 = kSched then (q.1, f q.2) else q }) }

/-! ### Remote streams -/

/-- A REMOTE stream halts: HALTED, the chunk and its page, HALTS counted, a RECORD (R421). -/
def remoteHalt (s : State) (st c : Nat) (unreach : Bool) : State :=
  let x := s.ctx st c
  if x.state ≠ xRun ∨ dKind x ≠ kRemote then s
  else
    let a := (chunkAddr x x.pos).getD 0
    let page := (a - remoteBase) % 2 ^ 45 / 2097152 * 2097152
    let y : StreamCtx := { x with state := xHalted, reason := if unreach then whyUnreach else whyMiss, page := page, haltAt := s.now }
    let s1 := s.setCtx st c y
    let k := s1.stack st
    (s1.setStack st { kCount k kUe 31 16 1 with reqs := k.reqs }).record ⟨.pageMiss, st, [c, if unreach then whyUnreach else whyMiss]⟩

/-- The halt resolved: the stream runs again from chunk POS (R422). -/
def remoteResume (s : State) (st c : Nat) : State :=
  let x := s.ctx st c
  if x.state ≠ xHalted then s
  else s.setCtx st c { x with state := xRun, reason := 0, sent := x.pos, hqpDue := false }

/-- 100 ms in cyc (R422). -/
def haltBound : Nat := 160000000

/-! ### Transfers of a core (R410, R411) -/

def xferReg (x k : Nat) : Nat := 0x2C00 + 0x20 * x + k

/-- The device address of a transfer slot. -/
def xferAddr (c : Core) (x : Nat) : Nat := (cReg c (xferReg x 0)).toNat + 2 ^ 32 * (cReg c (xferReg x 4)).toNat

/-- Whether a start is refused (R410, R411). -/
def xferRefused (c : Core) (x : Nat) (val : Word) : Bool :=
  let a := xferAddr c x
  let len := fld val 20 0
  let spd := cReg c (xferReg x 8)
  let toMem := bit val 21
  let sp := fld spd 21 0
  let bufen := bit spd 26 && !toMem
  bit (cReg c (xferReg x 0x14)) 0 || fld val 31 22 != 0 ||
  match burmonAddr a, burmonAddr (a + len - 1), ctxAddr a with
  | some _, some _, _ =>
      a % 64 != 0 || len % 64 != 0 || len == 0 || (!bufen && (sp % 64 != 0 || decide (spadEnd < sp + len)))
  | _, _, some (_, _, b) =>
      !(decide ((len = 64 ∧ (b = 0 ∨ b = 64)) ∨ (len = 4 ∧ b = 68 ∧ toMem))) || (!bufen && decide (spadEnd < sp + len))
  | _, _, _ => true

/-- The pieces of a transfer: one packet per 512-byte aligned range, in address order (R383, R410). -/
def xferPieces (a len : Nat) : List (Nat × Nat) :=
  (touched 512 a len).map fun r =>
    let lo := max a (r * 512)
    (lo, min (a + len) (r * 512 + 512) - lo)

/-- One packet of a transfer (R344, R410). -/
def xferPacket (c : Core) (t : Nat) (toMem : Bool) (a sp : Nat) (p : Nat × Nat) : Packet :=
  let from0 := sp + (p.1 - a)
  if toMem then
    let bad (lo hi : Nat) : Word :=
      if (touched 4 (from0 + lo) (min p.2 hi - lo)).any fun w => spadBad c.spad t w then 1#32 else 0#32
    { Packet.blank with
      type := tWR, dkind := 1, addr := BitVec.ofNat 64 p.1, payload := spadBytes c.spad t from0 p.2
      tarnish := (touched 128 from0 p.2).any fun r => spadTarn c.spad t r, pcrc0 := bad 0 256, pcrc1 := bad 256 512 }
  else { Packet.blank with type := tRD, dkind := 1, addr := BitVec.ofNat 64 p.1, tdata := [BitVec.ofNat 32 p.2] }

/-- A transfer started, or refused with STATUS 0xE (R410, R411). -/
def xferStart (s : State) (core x : Nat) (val : Word) : State :=
  let c := settleCore (s.core core) s.now
  if xferRefused c x val then s.setCore core (cFld c (xferReg x 0x14) 4 1 0xE)
  else
    let a := xferAddr c x
    let len := fld val 20 0
    let toMem := bit val 21
    let spd := cReg c (xferReg x 8)
    let bufen := bit spd 26 && !toMem
    let pieces := xferPieces a len
    let buf := if bufen then some (fld spd 25 22) else none
    let sp := fld spd 21 0
    let c1 : Core := { cSet c (xferReg x 0x14) 1#32 with
      xfers := mset c.xfers x ⟨toMem, a, sp, len, pieces.length, 0, buf⟩ }
    pieces.foldl (fun st p => sendRequest st core [xferPacket c s.now toMem a sp p] reqXfer (x + 4 * p.1)) (s.setCore core c1)

/-- A buffer fill by a transfer: its address, fixed at the first row to come (R221, R222). -/
def xferFill (c : Core) (x n t : Nat) : Core :=
  let key := 100000 + x
  if (mget? c.fills key).isSome then c
  else match fillBegin c n with
    | some f => { c with fills := mset c.fills key f }
    | none => badBuf { c with fills := mset c.fills key ⟨0, 0, 0#32, 0#32, false⟩ } t n

/-- A response of a transfer: data written for a read, the first status other than OK kept, TARNISH noted (R411, R217). -/
def xferAnswer (c : Core) (x addr status t : Nat) (data : List Byte) (tarn : Bool) : Core :=
  match mget? c.xfers x with
  | none => c
  | some f =>
    let isRead := !f.toBurmon && status == stOk
    let c0 := if isRead then (match f.buf with | some n => xferFill c x n t | none => c) else c
    let fill := mgetD c0.fills (100000 + x) ⟨0, 0, 0#32, 0#32, false⟩
    let dropped := f.buf.isSome && !fill.stored
    let base := if f.buf.isSome then fill.addr else f.spd
    let c1 : Core := if isRead && !dropped then
        let wr := plainWrite (t + latency c0 - 1) 7 (base + (addr - f.addr)) data tarn
        { c0 with spad := spadPush c0.spad wr }
      else c0
    let st := if isRead && dropped then stRange else status
    let c2 := if tarn then cFlag c1 (xferReg x 0x14) 32#32 else c1
    { c2 with xfers := mset c2.xfers x { f with left := f.left - 1, status := if f.status = 0 then st else f.status } }

/-- A transfer completed when every packet has its response: BUSY cleared, STATUS, and the completion word (R411, R217). -/
def xferComplete (c : Core) (x t : Nat) : Core :=
  match mget? c.xfers x with
  | none => c
  | some f =>
    if f.left ≠ 0 then c
    else
      let stat := cReg c (xferReg x 0x14)
      let c1 := cSet { c with xfers := merase c.xfers x, fills := merase c.fills (100000 + x) } (xferReg x 0x14)
        (setFld (setFld stat 0 0 0) 4 1 f.status)
      let commit := t + latency c
      let c2 : Core := match f.buf, mget? c.fills (100000 + x) with
        | some n, some g => if g.stored then { c1 with rdyPend := c1.rdyPend ++ [(commit - 1, n, g)] } else c1
        | _, _ => c1
      let cw := cReg c (xferReg x 0xC)
      if bit cw 31 then
        let w := BitVec.ofNat 32 (packFields [(4, f.status), (1, fld stat 5 5), (26, 0), (1, 1)])
        let wr := plainWrite commit 7 (fld cw 21 2 * 4) (bytesOfWord w) false
        if fld cw 21 2 * 4 + 4 ≤ spadEnd then { c2 with spad := spadPush c2.spad wr } else cFlag c2 rSpdStatus 4#32
      else c2

/-- A write to `mem.credit`: a 4-byte WR to byte 68 of the context (R394, R426). -/
def memCredit (s : State) (core : Nat) (val : Word) : State :=
  let st := fld val 14 9
  if fld val 31 20 ≠ 0 ∨ 56 ≤ st then s
  else
    let a := ctxBase + 0x10000 * st + 0x80 * fld val 8 0 + 68
    sendRequest s core [{ Packet.blank with
      type := tWR, dkind := 1, addr := BitVec.ofNat 64 a, payload := bytesOfWord (BitVec.ofNat 32 (fld val 19 15)) }] reqPlain 0

/-! ### The commands -/

/-- CONTEXT_DESCRIPTOR_WRITE (R394, R397). -/
def execContextDescriptorWrite (st : StackId) (ctx : Fin 512) (part : BitVec 12) (words : List Word) (s : State) :
    Host.Outcome State Fault Refusal :=
  let r := loadDescriptor s st.val ctx.val part.toNat words
  .next (r.1.answer r.2 [])

/-- STREAM_START: START written to the control block (R394, R397, R398). -/
def execStreamStart (st : StackId) (ctx : Fin 512) (part : BitVec 12) (s : State) : Host.Outcome State Fault Refusal :=
  let r := controlWrite s st.val ctx.val part.toNat true false 0
  .next (r.1.answer r.2 [])

/-- STREAM_STOP: STOP written to the control block (R394). -/
def execStreamStop (st : StackId) (ctx : Fin 512) (part : BitVec 12) (s : State) : Host.Outcome State Fault Refusal :=
  let r := controlWrite s st.val ctx.val part.toNat false true 0
  .next (r.1.answer r.2 [])

/-- CREDIT (R394, R404). -/
def execCredit (st : StackId) (ctx : Fin 512) (part : BitVec 12) (n : BitVec 5) (s : State) : Host.Outcome State Fault Refusal :=
  let r := controlWrite s st.val ctx.val part.toNat false false n.toNat
  .next (r.1.answer r.2 [])

/-- MEM_CREDIT (R426). -/
def execMemCredit (c : CoreId) (val : Word) (s : State) : Host.Outcome State Fault Refusal := .next (memCredit s c.val val)

/-- SCHED_CHUNK (R399). -/
def execSchedChunk (st : StackId) (ctx : Fin 512) (errs : List (Nat × Nat)) (badPar : List Nat) (s : State) :
    Host.Outcome State Fault Refusal := .next (schedChunk s st.val ctx.val errs badPar)

/-- SERVICE_CHUNK (R403, R420). -/
def execServiceChunk (st : StackId) (ctx : Fin 512) (errs : List (Nat × Nat)) (host : List Byte) (s : State) :
    Host.Outcome State Fault Refusal := .next (serviceChunk s st.val ctx.val errs host)

/-- SHARED_CHUNK (R406). -/
def execSharedChunk (st : StackId) (ctx : Fin 512) (errs : List (Nat × Nat)) (s : State) : Host.Outcome State Fault Refusal :=
  .next (sharedChunk s st.val ctx.val errs)

/-- REMOTE_HALT (R421). -/
def execRemoteHalt (st : StackId) (ctx : Fin 512) (unreach : Bool) (s : State) : Host.Outcome State Fault Refusal :=
  .next (remoteHalt s st.val ctx.val unreach)

/-- REMOTE_RESUME (R422). -/
def execRemoteResume (st : StackId) (ctx : Fin 512) (s : State) : Host.Outcome State Fault Refusal :=
  .next (remoteResume s st.val ctx.val)

/-- REMOTE_FAIL: a halt not resolved within 100 ms (R422). -/
def execRemoteFail (st : StackId) (ctx : Fin 512) (s : State) : Host.Outcome State Fault Refusal :=
  let x := s.ctx st.val ctx.val
  if x.state ≠ xHalted then .next s
  else .next (((s.reach (x.haltAt + haltBound)).setCtx st.val ctx.val { x with state := xFailed }).record
    ⟨.streamFailed, st.val, [ctx.val]⟩)

/-- XFER_START: a write to `mem.xferX.ctl` (R410, R411). -/
def execXferStart (c : CoreId) (x : Fin 4) (val : Word) (s : State) : Host.Outcome State Fault Refusal :=
  .next (xferStart s c.val x.val val)

/-- XFER_COMPLETE (R411). -/
def execXferComplete (c : CoreId) (x : Fin 4) (s : State) : Host.Outcome State Fault Refusal :=
  .next (s.setCore c.val (xferComplete (s.core c.val) x.val s.now))

end Sys2Proof.Machine
end

