-- ==== Sys2Proof/Machine/CoreRegs.lean ====
section
/-! DEFINITION. A core's register space as software and the heartwood see it: live views, side effects, fences and barrier
slots (R16 to R21, R361, R364, R558, R755). -/

namespace Sys2Proof.Machine

/-! ### Fences, barrier slots, the miss queue -/

/-- Held requests sent in order, once no fence holds them (R361). -/
def sendHeld (s : State) (c : Nat) : State :=
  let k := s.core c
  if k.fenceAt.isSome then s
  else
    let go := k.held.filter fun h => h.2.1 != reqBarrier
    let tags := (go.map fun h => (h.1.tag.toNat, h.2.1, h.2.2)).eraseDups
    { s.setCore c { k with held := k.held.filter fun h => h.2.1 == reqBarrier
                           reqs := k.reqs ++ tags.map fun x => ⟨x.1, s.now, x.2.1, x.2.2⟩ } with
      net := s.net ++ go.map Prod.fst }

/-- Barrier arrivals with FENCE that nothing sent before them keeps back any more (R361, R364). -/
def sendArrivals (s : State) (c : Nat) : State :=
  let k := s.core c
  let ready (h : Packet × Nat × Nat) : Bool := h.2.1 == reqBarrier && !(k.reqs.any fun r => decide (r.sent < h.2.2))
  let go := k.held.filter ready
  { s.setCore c { k with held := k.held.filter fun h => !ready h } with net := s.net ++ go.map Prod.fst }

/-- A write of 1 to FENCE (R361). -/
def startFence (s : State) (c : Nat) : State :=
  let k := s.core c
  s.setCore c { cFld k rSvcFence 1 1 0 with fenceAt := some s.now }

/-- The fence sets DONE once every request sent before it has its response or has timed out, and the requests it held go
(R361). -/
def fenceDone (s : State) (c : Nat) : State :=
  let k := s.core c
  match k.fenceAt with
  | none => s
  | some t => if k.reqs.any fun r => decide (r.sent ≤ t) then s
      else sendHeld (s.setCore c { cFld k rSvcFence 1 1 1 with fenceAt := none }) c

/-- A barrier slot. -/
def barReg (i : Nat) : Nat := 0x3210 + 4 * i

/-- The ARRIVE packet of a slot (R344, R364). -/
def arrivePacket (c grp gen : Nat) : Packet :=
  fromCore c { Packet.blank with type := tARRIVE, cls := 2, bar := true, group := BitVec.ofNat 10 grp, mseq := BitVec.ofNat 16 gen }

/-- A write to a barrier slot (R364). -/
def barWrite (s : State) (c i : Nat) (val : Word) : State :=
  let k := s.core c
  let w := cReg k (barReg i)
  if ¬ bit val 24 then s
  else if bit w 26 then s.setCore c (cFlag k rSrcStatus 2#32)
  else
    let k1 := cFld (cFld k (barReg i) 26 26 1) (barReg i) 27 27 0
    let p := arrivePacket c (fld w 7 0) (fld w 23 8)
    if bit val 25 && !k1.reqs.isEmpty then s.setCore c { k1 with held := k1.held ++ [(p, reqBarrier, s.now + 1)] }
    else (s.setCore c k1).putNet p

/-- The head miss entry taken (R371, R376). -/
def missPop (k : Core) : Word × Core :=
  match k.missQ with
  | [] => (0#32, k)
  | w :: rest => (w ||| 0x80000000#32, { k with missQ := rest })

/-- A miss entry pushed; into a full queue it is lost (R371). -/
def missPush (k : Core) (grp first count : Nat) : Core :=
  if k.missQ.length ≥ 4 then cFlag k rSrcStatus 4#32
  else { k with missQ := k.missQ ++ [BitVec.ofNat 32 (packFields [(16, first), (10, grp), (5, min count 31)])] }

/-- A write to `asy.report`: a check event, an assay record, MISMATCH counted (R558, R577). -/
def assayReport (k : Core) (t : Nat) (val : Word) : Core :=
  cCheck (cEmit (cCount k 0xC10 31 16 1) t ⟨.assay, 0, [fld val 19 0, fld val 28 20]⟩)

/-! ### Reads -/

/-- Low words of the 64-bit quantities of the core register space (R21). -/
def corePairLow (off : Nat) : Bool :=
  off == 0x280C || off == 0x3004 || off == 0x3020 || off == 0x608 || (decide (0x2C00 ≤ off ∧ off < 0x2C80) && off % 0x20 == 0)

/-- The word of a mask register, or of row status. -/
def maskWord (k : Core) (m w : Nat) : Word := ((maskOf k m) >>> (32 * w)).setWidth 32
def statWord (k : Core) (fr t tile half : Nat) : Word :=
  BitVec.ofNat 32 (packFields ((List.range 8).map fun i => (4, statusSeen k fr t tile (8 * half + i))))

/-- A core's `ctl.pred` as read in cycle t. -/
def predWord (k : Core) (t : Nat) : Word :=
  bitW 1 (predAt k 1 t) ||| bitW 2 (predAt k 2 t) ||| bitW 3 (predAt k 3 t)

/-- The stored or live bits of a core register in cycle t (R165, R208, R223, R226, R244, R257, R291). -/
def coreBits (k : Core) (fr t off : Nat) : Word :=
  if decide (0x1100 ≤ off ∧ off < 0x1200) then maskWord k ((off - 0x1100) / 32) ((off - 0x1100) % 32 / 4)
  else if off = 0x1224 then k.tileTarn
  else if off = 0x1228 then BitVec.ofNat 32 (k.accTarn.toNat + 256 * k.maskTarn.toNat)
  else if decide (0x1300 ≤ off ∧ off < 0x1400) then statWord k fr t ((off - 0x1300) / 8) ((off - 0x1300) % 8 / 4)
  else if off = 0x2010 then BitVec.ofNat 32 (sectCount k t % 8)
  else if decide (0x2400 ≤ off ∧ off < 0x2500) && off % 16 == 12 then BitVec.ofNat 32 (bufFront k ((off - 0x2400) / 16))
  else if decide (0x2500 ≤ off ∧ off < 0x2580) && off % 16 == 8 then
    (let q := (off - 0x2500) / 16
     if (hqCycle k q t).1 = 0 then 0#32 else (mgetD k.hqs q []).headD 0#32)
  else if decide (0x2500 ≤ off ∧ off < 0x2580) && off % 16 == 12 then
    setFld (cReg k off) 4 0 ((mgetD k.hqs ((off - 0x2500) / 16) []).length)
  else if off = 0x2804 then BitVec.ofNat 32 k.pc
  else if off = 0x280C then BitVec.ofNat 32 k.issued
  else if off = 0x2810 then BitVec.ofNat 32 (k.issued / 2 ^ 32)
  else if off = 0x2814 then predWord k t
  else if off = 0x3004 then BitVec.ofNat 32 (sectCount k t)
  else if off = 0x3008 then BitVec.ofNat 32 (sectCount k t / 2 ^ 32)
  else if decide (0x10000 ≤ off) then
    (let e := mgetD k.slots ((off - 0x10000) / 8) 0#64
     (e >>> (32 * ((off - 0x10000) % 8 / 4))).setWidth 32)
  else cReg k off

/-- Whether an offset holds a word of the slot tables (R291). -/
def isSlotWord (off : Nat) : Bool := decide (0x10000 ≤ off ∧ off < 0x20000)

/-- A read of a core register in cycle t: the word and the core afterwards; `fr` numbers the free value of the reserved bits
(R17, R18, R20, R21, R226, R371, R755). -/
def coreRead (k : Core) (fr t off : Nat) : Word × Core :=
  if isSlotWord off then (coreBits k fr t off, k)
  else match regFind coreRegs off with
  | none => (0#32, k)
  | some r =>
    if decide (0x2500 ≤ off ∧ off < 0x2580) && off % 16 == 4 then popNow k ((off - 0x2500) / 16) t
    else if off = 0x3060 then (k.tokin.headD 0#32, { k with tokin := k.tokin.drop 1 })
    else if off = 0x3208 then missPop k
    else match mget? k.shadow off with
      | some v => (regReadVal r v (Config.freeWord fr), { k with shadow := merase k.shadow off })
      | none =>
        let v := coreBits k fr t off
        let k1 : Core := if r.rc = 0#32 then k else cSet k off (regAfterRead r (cReg k off))
        let k2 : Core := if corePairLow off then { k1 with shadow := mset k1.shadow (off + 4) (coreBits k fr t (off + 4)) } else k1
        (regReadVal r v (Config.freeWord fr), k2)

/-! ### Writes -/

/-- A word of a mask register replaced; mask 0 cannot be written (R165). -/
def writeMask (k : Core) (m w : Nat) (val : Word) : Core :=
  if m = 0 then k
  else
    let old := maskOf k m
    let ones : BitVec 256 := (BitVec.ofNat 256 0xFFFFFFFF) <<< (32 * w)
    { k with masks := mset k.masks m ((old &&& ~~~ones) ||| ((val.setWidth 256) <<< (32 * w))) }

/-- A half of a slot-table entry replaced. -/
def writeSlot (k : Core) (i half : Nat) (val : Word) : Core :=
  let old := mgetD k.slots i 0#64
  let ones : BitVec 64 := (BitVec.ofNat 64 0xFFFFFFFF) <<< (32 * half)
  { k with slots := mset k.slots i ((old &&& ~~~ones) ||| ((val.setWidth 64) <<< (32 * half))) }

/-- A plain write: RW fields set, W1C bits cleared; the heartwood also sets RO fields (R17, R243, R291, R374). -/
def plainRegWrite (k : Core) (r : RegDef) (off : Nat) (val : Word) (hw : Bool) : Core :=
  let r1 : RegDef := if hw then { r with rw := r.rw ||| r.ro } else r
  let k1 := cSet k off (regAfterWrite r1 (cReg k off) val)
  if off = rSpdStatus ∧ bit val 0 then cFld k1 rSpdErrAddr 31 31 0 else k1

/-- A write to a core register at the end of cycle t = `s.now`, by the core itself or by the heartwood (R16 to R21, R219,
R220, R225, R302, R314, R361, R364, R410, R426, R558, R755). -/
def coreWrite (s : State) (c off : Nat) (val : Word) (hw : Bool) : State :=
  let k := settleCore (s.core c) s.now
  if isSlotWord off then (if hw then s.setCore c (writeSlot k ((off - 0x10000) / 8) ((off - 0x10000) % 8 / 4) val) else s)
  else match regFind coreRegs off with
  | none => s
  | some r =>
    if decide (0x900 ≤ off ∧ off < 0x940) then s
    else if decide (0x1100 ≤ off ∧ off < 0x1200) then s.setCore c (writeMask k ((off - 0x1100) / 32) ((off - 0x1100) % 32 / 4) val)
    else if decide (0x2400 ≤ off ∧ off < 0x2500) && off % 16 == 0 then s.setCore c (writeBuf k ((off - 0x2400) / 16) true val)
    else if decide (0x2400 ≤ off ∧ off < 0x2500) && off % 16 == 4 then s.setCore c (writeBuf k ((off - 0x2400) / 16) false val)
    else if decide (0x2400 ≤ off ∧ off < 0x2500) && off % 16 == 8 then
      (if bit val 1 then s.setCore c (swapBuf k ((off - 0x2400) / 16)) else s)
    else if decide (0x2500 ≤ off ∧ off < 0x2580) && off % 16 == 0 then s.setCore c (pushNow k ((off - 0x2500) / 16) s.now val)
    else if decide (0x3800 ≤ off ∧ off < 0x4000) && off % 64 == 0x14 then s.setCore c (releaseHead k ((off - 0x3800) / 64) val)
    else if decide (0x3800 ≤ off ∧ off < 0x4000) && off % 64 == 0x24 then postMessage (s.setCore c k) c ((off - 0x3800) / 64) val
    else if off = rSvcFence then (if bit val 0 then startFence (s.setCore c k) c else s)
    else if decide (0x3210 ≤ off ∧ off < 0x3220) then
      (if hw then s.setCore c (plainRegWrite k r off val true) else barWrite (s.setCore c k) c ((off - 0x3210) / 4) val)
    else if decide (0x2C00 ≤ off ∧ off < 0x2C80) && off % 32 == 0 then s.setCore c { k with shadow := mset k.shadow (off + 0x100000) val }
    else if decide (0x2C00 ≤ off ∧ off < 0x2C80) && off % 32 == 4 then
      (let low := mgetD k.shadow (off - 4 + 0x100000) (cReg k (off - 4))
       s.setCore c (cSet (cSet { k with shadow := merase k.shadow (off - 4 + 0x100000) } (off - 4) low) off val))
    else if decide (0x2C00 ≤ off ∧ off < 0x2C80) && off % 32 == 16 then xferStart (s.setCore c k) c ((off - 0x2C00) / 32) val
    else if off = 0x2C80 then memCredit (s.setCore c k) c val
    else if off = 0xC0C then s.setCore c (assayReport k s.now val)
    else if off = rPourCfg then (if hw then s.setCore c (writePourCfg k s.now val) else s)
    else s.setCore c (plainRegWrite k r off val hw)

end Sys2Proof.Machine
end

