-- ==== Sys2Proof/Machine/RouterBase.lean ====
section
/-! DEFINITION. Routers of the service network: places, routes, virtual channels, credits (R334 to R353). -/

namespace Sys2Proof.Machine

/-- Offsets of router registers (R375). -/
def nRegion : Nat := 0x4
def nStatus : Nat := 0x8
def nDrops : Nat := 0xC
def nHold : Nat := 0x10
def nGen : Nat := 0x14
def nPort (p k : Nat) : Nat := 0x100 + 0x20 * p + k
def nMap (l : Nat) : Nat := 0x1000 + 0x10 * l
def nByp (l w : Nat) : Nat := 0x1004 + 0x10 * l + 4 * w
def nMc (g : Nat) : Nat := 0x2000 + 4 * g
def nBarCfg (b : Nat) : Nat := 0x3000 + 8 * b
def nBarCnt (b : Nat) : Nat := 0x3004 + 8 * b

/-- Flags of `svc.status` (R375). -/
def nfPerr : Word := 1#32
def nfHcrc : Word := 2#32
def nfHdrop : Word := 4#32
def nfMisroute : Word := 8#32
def nfPart : Word := 16#32
def nfUnreach : Word := 32#32
def nfCut : Word := 64#32

/-- A router's number from its place, and its place (R11). -/
def routerNo (x y : Nat) : Nat := 34 * y + x
def routerX (r : Nat) : Nat := r % 34
def routerY (r : Nat) : Nat := r / 34
def isRim (r : Nat) : Bool := routerX r == 0 || routerX r == 33 || routerY r == 0 || routerY r == 25

/-- A router: its own state, or that of the routers that nothing has singled out. -/
def State.router (s : State) (r : Nat) : Router := (mget? s.routers r).getD s.rtTmpl
def State.setRouter (s : State) (r : Nat) (k : Router) : State := { s with routers := mset s.routers r k }

def nReg (k : Router) (off : Nat) : Word := regRaw routerRegs k.regs off
def nSet (k : Router) (off : Nat) (w : Word) : Router := { k with regs := mset k.regs off w }
def nFlag (k : Router) (m : Word) : Router := { k with regs := regSetBits routerRegs k.regs nStatus m }
def nCount (k : Router) (off hi lo n : Nat) : Router := { k with regs := regCount routerRegs k.regs off hi lo n }
def nWrap (k : Router) (off n : Nat) : Router := { k with regs := regUpd routerRegs k.regs off (fun w => w + BitVec.ofNat 32 n) }

/-- Rim positions (R336). -/
def rimPos (r : Nat) : Nat :=
  let x := routerX r
  let y := routerY r
  if y = 0 then x else if x = 33 then 33 + y else if y = 25 then 58 + (33 - x) else 91 + (25 - y)
def rimAt (p : Nat) : Nat :=
  if p ≤ 33 then routerNo p 0 else if p ≤ 58 then routerNo 33 (p - 33) else if p ≤ 91 then routerNo (91 - p) 25
  else routerNo 0 (116 - p)

/-- The attachment router of a rim router (R337). -/
def attachOf (r : Nat) : Nat := routerNo (max 1 (min 32 (routerX r))) (max 1 (min 24 (routerY r)))

/-- The rim routers that a cluster router serves, in ascending rim position (R338). -/
def rimsOf (r : Nat) : List Nat := ((List.range 116).map rimAt).filter fun q => attachOf q == r

/-- The output port of a packet at router r for router d, r and d not the same (R348). -/
def nextPort (r d : Nat) : Nat :=
  if isRim r then
    let fwd := (rimPos d + 116 - rimPos r) % 116
    if isRim d && decide (fwd ≤ 16) then 0 else if isRim d && decide (100 ≤ fwd) then 1 else 2
  else
    let goal := if isRim d then attachOf d else d
    if goal = r then 5 + (rimsOf r).idxOf d
    else
      let dx := (routerX goal + 32 - routerX r) % 32
      let dy := (routerY goal + 24 - routerY r) % 24
      if dx ≠ 0 then (if dx ≤ 16 then 0 else 1) else if dy ≤ 12 then 2 else 3

/-- The router and the input port at the far end of a port's link (R335 to R338). -/
def linkEnd (r p : Nat) : Option (Nat × Nat) :=
  let x := routerX r
  let y := routerY r
  if isRim r then
    match p with
    | 0 => some (rimAt ((rimPos r + 1) % 116), 1)
    | 1 => some (rimAt ((rimPos r + 115) % 116), 0)
    | 2 => some (attachOf r, 5 + (rimsOf (attachOf r)).idxOf r)
    | _ => none
  else
    match p with
    | 0 => some (routerNo (x % 32 + 1) y, 1)
    | 1 => some (routerNo ((x + 30) % 32 + 1) y, 0)
    | 2 => some (routerNo x (y % 24 + 1), 3)
    | 3 => some (routerNo x ((y + 22) % 24 + 1), 2)
    | 5 | 6 | 7 => ((rimsOf r)[p - 5]?).map fun q => (q, 2)
    | _ => none

/-- The ring a port belongs to: 1 row, 2 column, 3 rim, 0 none. -/
def ringOf (r p : Nat) : Nat :=
  if isRim r then (if p ≤ 1 then 3 else 0) else if p ≤ 1 then 1 else if p ≤ 3 then 2 else 0

/-- Whether a port's link is the date line of its ring (R349). -/
def dateLine (r p : Nat) : Bool :=
  if isRim r then (p == 0 && rimPos r == 115) || (p == 1 && rimPos r == 0)
  else (p == 0 && routerX r == 32) || (p == 1 && routerX r == 1) || (p == 2 && routerY r == 24) || (p == 3 && routerY r == 1)

/-- DL on the link of output `out` for a packet that came in by `inp` (R349). -/
def nextDl (r inp out : Nat) (dl : Bool) : Bool :=
  if ringOf r out = 0 then false else (ringOf r inp == ringOf r out && dl) || dateLine r out

/-- Flits of a packet (R341), and its virtual channel (R349). -/
def flitsOf (p : Packet) : Nat := 2 + payloadFlits p
def vcOf (p : Packet) (dl : Bool) : Nat := 2 * (p.cls.toNat % 3) + bnat dl

/-- The credits a packet takes on an output's virtual channel: ordinary and reserved; none where it lacks them (R351,
R352). -/
def creditsFor (k : Router) (out vc : Nat) (p : Packet) : Option (Nat × Nat) :=
  let u := mgetD k.used (8 * out + vc) (0, 0)
  let n := flitsOf p
  let r := if p.bar && decide (4 ≤ vc) then min n (8 - u.2) else 0
  if n - r ≤ 18 - u.1 then some (n - r, r) else none

/-- Flits held in an input buffer. -/
def bufDepth (k : Router) (key : Nat) : Nat := ((mgetD k.bufs key []).map fun b => flitsOf b.pkt).foldl (· + ·) 0

/-- `svc.portP.depth` as it stands, and the highest depths noted (R373, R375). -/
def depthWord (k : Router) (p : Nat) : Word := BitVec.ofNat 32 (packFields ((List.range 6).map fun v => (5, bufDepth k (8 * p + v))))
def noteDepth (k : Router) (p v : Nat) : Router :=
  let d := bufDepth k (8 * p + v)
  { k with regs := regUpd routerRegs k.regs (nPort p 0x10) fun w => setFld w (5 * v + 4) (5 * v) (max d (fld w (5 * v + 4) (5 * v))) }

/-- The router a unicast packet is bound for. -/
def pktDest (p : Packet) : Nat := routerNo p.px.toNat p.py.toNat

/-- The local port of an endpoint (R338, R343). -/
def localPort (r ep : Nat) : Nat := if isRim r && ep == 1 then 5 else 4

/-- The branches of a packet at router r: output ports and local endpoints (R348, R368). -/
def branchesOf (k : Router) (r : Nat) (p : Packet) : List Nat × List Nat :=
  if p.dkind = 3#2 then
    let w := nReg k (nMc p.group.toNat)
    if bit w 31 then
      let loc := (List.range 20).filter fun e => bit w (8 + e)
      (((List.range 8).filter fun q => bit w q && (linkEnd r q).isSome) ++ (if loc.isEmpty then [] else [4]), loc)
    else ([], [])
  else if pktDest p = r then ([localPort r p.pep.toNat], [])
  else ([nextPort r (pktDest p)], [])

/-- A packet put into an input buffer: a group's packet of another partition is discarded (R358, R368), and so is one
without a branch. -/
def enterRouter (s : State) (r inp : Nat) (p : Packet) (res : Nat) (up : Option (Nat × Nat)) : State :=
  let k := s.router r
  let give (st : State) : State := match up with
    | some u => { st with credits := st.credits ++ [⟨st.now + 6, u.1, u.2, vcOf p p.dl, flitsOf p - res, res⟩] }
    | none => st
  let wrong := p.dkind == 3#2 && p.part != 0#12 &&
    (match mget? s.groups p.group.toNat with
     | some g => g.part != p.part.toNat
     | none => false)
  if wrong then give (s.setRouter r (nCount (nFlag k nfPart) nDrops 15 0 1))
  else
    let b := branchesOf k r p
    if b.1.isEmpty then give s
    else
      let key := 8 * inp + vcOf p p.dl
      let k1 : Router := { k with bufs := mset k.bufs key (mgetD k.bufs key [] ++ [⟨p, b.1, b.2, res, s.now, up⟩]) }
      s.setRouter r (noteDepth k1 inp (vcOf p p.dl))

/-- The head of a buffer taken out: its credits go back, the next packet reaches the head now (R352, R369). -/
def popHead (s : State) (r key : Nat) : State :=
  let k := s.router r
  match mgetD k.bufs key [] with
  | [] => s
  | h :: rest =>
    let rest1 := match rest with
      | [] => []
      | g :: t => { g with since := s.now } :: t
    let s1 := s.setRouter r { k with bufs := mset k.bufs key rest1 }
    match h.up with
    | some u => { s1 with credits := s1.credits ++ [⟨s.now + 6, u.1, u.2, key % 8, flitsOf h.pkt - h.res, h.res⟩] }
    | none => s1

/-- The head's branch `out` done: the packet leaves the buffer with its last branch. -/
def doneBranch (s : State) (r key out : Nat) : State :=
  let k := s.router r
  match mgetD k.bufs key [] with
  | [] => s
  | h :: rest =>
    let bs := h.branches.filter fun q => q != out
    if bs.isEmpty then popHead s r key
    else s.setRouter r { k with bufs := mset k.bufs key ({ h with branches := bs } :: rest) }

/-- The class order of R353. -/
def pktRank (p : Packet) : Nat := if p.bar then 0 else if p.cls = 2#2 then 1 else if p.cls = 1#2 then 2 else 3

/-- Whether a packet at the head of a buffer holds the credits of output `out`. -/
def holdsCredits (k : Router) (r key out : Nat) (p : Packet) : Bool :=
  (linkEnd r out).isNone || (creditsFor k out (vcOf p (nextDl r (key / 8) out p.dl)) p).isSome

/-- The buffers whose head packet goes by output `out`. -/
def headsFor (k : Router) (out : Nat) : List (Nat × BufPkt) :=
  (List.range 64).filterMap fun key =>
    match (mgetD k.bufs key []).head? with
    | some h => if h.branches.contains out then some (key, h) else none
    | none => none

/-- The choice of R353: by class order, among equals round robin by input port and virtual channel. -/
def chooseHead (k : Router) (r out : Nat) : Option (Nat × BufPkt) :=
  let last := mgetD k.last out 63
  let score (c : Nat × BufPkt) : Nat := 64 * pktRank c.2.pkt + (c.1 + 127 - last) % 64
  ((headsFor k out).filter fun c => holdsCredits k r c.1 out c.2.pkt).foldl
    (fun b c => match b with
      | none => some c
      | some d => if score c < score d then some c else b) none

/-- A packet sent over a link: credits taken, HOPS and DL rewritten, counters (R349, R350, R352, R373). -/
def sendOver (s : State) (r inp out : Nat) (p : Packet) : State :=
  match linkEnd r out with
  | none => s
  | some e =>
    let k := s.router r
    let dl := nextDl r inp out p.dl
    let vc := vcOf p dl
    match creditsFor k out vc p with
    | none => s
    | some c =>
      let u := mgetD k.used (8 * out + vc) (0, 0)
      let k1 : Router := { k with used := mset k.used (8 * out + vc) (u.1 + c.1, u.2 + c.2) }
      let k2 := nWrap (nWrap k1 (nPort out 0) 1) (nPort out 4) (flitsOf p)
      enterRouter (s.setRouter r k2) e.1 e.2 { p with dl := dl, hops := p.hops + 1#6 } c.2 (some (r, out))

/-- The copies of a packet that a local port delivers (R343, R368). -/
def localCopies (h : BufPkt) : List Packet :=
  if h.pkt.dkind = 3#2 then h.locals.map fun e => { h.pkt with pep := BitVec.ofNat 5 e } else [h.pkt]

/-- A head packet sent by output `out`: over the link, or to the endpoints of the local port. -/
def sendHead (s : State) (r key out : Nat) (h : BufPkt) : State :=
  let s0 := if (linkEnd r out).isSome then sendOver s r (key / 8) out h.pkt
    else
      let k := s.router r
      let n := (localCopies h).length
      { s.setRouter r (nWrap (nWrap k (nPort out 0) n) (nPort out 4) (n * flitsOf h.pkt)) with net := s.net ++ localCopies h }
  let k := s0.router r
  doneBranch (s0.setRouter r { k with last := mset k.last out key }) r key out

/-- A packet discarded by a router for parity or HOPS (R347, R350). -/
def dropHead (s : State) (r key : Nat) (flags : Word) : State :=
  (popHead (s.setRouter r (nFlag (s.router r) flags)) r key).record ⟨.hopsDrop, r, []⟩

/-- A pending MISSED of an output (R370). -/
def missedFor (k : Router) (out : Nat) : Option (Nat × Nat × Nat) :=
  (k.missed.find? fun p => p.1 / 1024 == out).map fun p => (p.1 % 1024, p.2.1, p.2.2)

/-- The MISSED packet of a branch (R344, R370). -/
def missedPacket (grp first count : Nat) : Packet :=
  sealHeader { Packet.blank with
    type := tMISSED, cls := 2, dkind := 3, group := BitVec.ofNat 10 grp, mseq := BitVec.ofNat 16 first, arg := BitVec.ofNat 16 count }

/-- A MISSED sent down the cut branch, replicated through the tree below it (R370). -/
def sendMissed (s : State) (r out : Nat) (m : Nat × Nat × Nat) : State :=
  let k := s.router r
  let p := missedPacket m.1 m.2.1 m.2.2
  let s1 := s.setRouter r { k with missed := merase k.missed (1024 * out + m.1) }
  if (linkEnd r out).isSome then sendOver s1 r out out p
  else
    let loc := (List.range 20).filter fun e => bit (nReg k (nMc m.1)) (8 + e)
    { s1 with net := s1.net ++ loc.map fun e => { p with pep := BitVec.ofNat 5 e } }

/-- What an output does next (R347, R350, R352, R353, R370, R373): `perr` says that a link parity error was found on the
chosen packet, 1 in its header, 2 in its payload. -/
def forward (s : State) (r out : Nat) (perr : Nat) : State :=
  let k := s.router r
  let miss := missedFor k out
  let missOk := match miss with
    | some m => (linkEnd r out).isNone || (creditsFor k out (vcOf (missedPacket 0 0 0) false) (missedPacket m.1 m.2.1 m.2.2)).isSome
    | none => false
  match chooseHead k r out, miss with
  | some c, m =>
    if missOk && pktRank c.2.pkt != 0 then
      (match m with
       | some x => sendMissed s r out x
       | none => s)
    else if perr = 1 then dropHead s r c.1 (nfPerr ||| nfHdrop)
    else if c.2.pkt.hops = 63#6 then dropHead s r c.1 nfHdrop
    else
      let h : BufPkt := if perr = 2 ∧ c.2.pkt.payload ≠ [] then { c.2 with pkt := { c.2.pkt with pcrc0 := ~~~c.2.pkt.pcrc0 } } else c.2
      let s1 := if perr = 2 then s.setRouter r (nFlag k nfPerr) else s
      sendHead s1 r c.1 out h
  | none, some x =>
    if missOk then sendMissed s r out x else s.setRouter r (nWrap k (nPort out 8) 1)
  | none, none => if (headsFor k out).isEmpty then s else s.setRouter r (nWrap k (nPort out 8) 1)

/-! ### The ingress router (R346, R357) -/

/-- Physical place of a logical core by a router's table: service x and y, and endpoint; none where the entry is not valid
(R9, R11, R343, R357). -/
def translate (k : Router) (lx ly : Nat) : Option (Nat × Nat × Nat) :=
  if 112 ≤ lx ∨ 96 ≤ ly then none
  else
    let l := ly / 16 * 7 + lx / 16
    let m := nReg k (nMap l)
    if bit m 31 then
      let y := ly % 16
      let byp := fld (nReg k (nByp l (y / 6))) (5 * (y % 6) + 4) (5 * (y % 6))
      let x := lx % 16
      let pc := if x < byp then x else x + 1
      let cx := min (pc / 4) 3
      let cy := y / 4
      some (1 + 4 * fld m 2 0 + cx, 1 + 4 * fld m 5 3 + cy, 5 * (y % 4) + (pc - 4 * cx))
    else none

/-- A packet stamped and its checks computed: the CRC of a block whose source parity failed is inverted (R346, R545). -/
def stampPacket (p : Packet) : Packet :=
  let c := pcrcOf p.payload
  sealHeader { p with
    pcrc0 := if p.pcrc0 = 1#32 then ~~~c.1 else c.1
    pcrc1 := if p.pcrc1 = 1#32 then ~~~c.2 else c.2
    hops := 0, dl := false }

/-- The answer that a request gets in place of its effect (R345). -/
def refuse (req : Packet) (status : Nat) : List Packet :=
  if req.cls ≠ 0#2 ∨ req.type = tMCWR then []
  else
    let ty := if req.type = tRD ∨ req.type = tREGR then tRDATA else if req.type = tCHMSG then tCHREP else tACK
    [response req ty status [] false]

end Sys2Proof.Machine
end

