-- ==== Sys2Proof/Machine/Router.lean ====
section
/-! DEFINITION. Packets through the service network (R346 to R371). -/

namespace Sys2Proof.Machine

/-- The rim router and endpoint that serve a device address (R383, R384): the stack's, for Burmon memory and its stream
contexts. -/
def rimOfAddr (a : Nat) : Option (Nat × Nat) :=
  match burmonAddr a, ctxAddr a with
  | some (st, off), _ => some (stackRim st (blockChannel (off / 64) / 16))
  | none, some (st, c, _) => some (stackRim st (c / 256))
  | none, none => none

/-- The destination that the ingress router fills in; a status where there is none (R357, R383). -/
def fillDest (s : State) (k : Router) (p : Packet) : Packet × Nat :=
  if p.dkind = 0#2 then
    match translate k p.lx.toNat p.ly.toNat with
    | some d => ({ p with px := BitVec.ofNat 6 d.1, py := BitVec.ofNat 5 d.2.1, pep := BitVec.ofNat 5 d.2.2 }, stOk)
    | none => (p, stUnreach)
  else if p.dkind = 1#2 ∧ (p.type = tRD ∨ p.type = tWR) ∧ ¬ p.skind then
    match rimOfAddr p.addr.toNat with
    | some d => ({ p with px := BitVec.ofNat 6 d.1, py := BitVec.ofNat 5 d.2, pep := 0 }, stOk)
    | none => (p, stRange)
  else if p.type = tARRIVE then
    match mget? s.barRoot p.group.toNat with
    | some r => ({ p with dkind := 2, px := BitVec.ofNat 6 (routerX r), py := BitVec.ofNat 5 (routerY r), pep := 24 }, stOk)
    | none => (p, stOk)
  else (p, stOk)

/-- PACKET_INGRESS: PART stamped, the destination translated, the CRCs computed (R346, R357). The packet waits at its source
while the local input buffer has no room. -/
def ingress (s : State) (r : Nat) (p : Packet) : State :=
  let k := s.router r
  let part := if p.skind then p.part else BitVec.ofNat 12 (fld (nReg k nRegion) 17 6)
  let f := fillDest s k { p with part := part }
  let s1 := s.takeNet p
  if f.2 ≠ stOk then
    { s1.setRouter r (if f.2 = stUnreach then nFlag k nfUnreach else k) with net := s1.net ++ refuse f.1 f.2 }
  else
    let q := stampPacket f.1
    let inp := if isRim r && q.sep == 1 then 5 else 4
    let room := 18 + if q.bar && q.cls == 2 then 8 else 0
    if bufDepth k (8 * inp + vcOf q false) + flitsOf q ≤ room then enterRouter s1 r inp q 0 none else s

/-- PACKET_INGRESS (R346, R357). -/
def execPacketIngress (r : RouterId) (p : Packet) (s : State) : Host.Outcome State Fault Refusal := .next (ingress s r.val p)

/-- PACKET_FORWARD: an output of a router takes its next packet (R347 to R354, R368). -/
def execPacketForward (r : RouterId) (out : Fin 8) (perr : Fin 3) (s : State) : Host.Outcome State Fault Refusal :=
  .next (forward s r.val out.val perr.val)

/-- CREDIT_RETURN: the earliest credits on their way back to an output, 6 cyc after their flits left (R352). -/
def execCreditReturn (r : RouterId) (out : Fin 8) (vc : Fin 6) (s : State) : Host.Outcome State Fault Refusal :=
  match s.credits.find? fun c => c.router == r.val && c.port == out.val && c.vc == vc.val with
  | none => .next s
  | some c =>
    let s1 := s.reach c.due
    let k := s1.router r.val
    let u := mgetD k.used (8 * out.val + vc.val) (0, 0)
    .next { s1.setRouter r.val { k with used := mset k.used (8 * out.val + vc.val) (u.1 - c.ord, u.2 - c.res) } with
            credits := s1.credits.erase c }

/-- MULTICAST_CUT: a branch of a group's packet that has not begun within HOLD of the packet reaching the head; RELEASE
packets are never cut, barrier packets neither (R367, R369, R370). -/
def execMulticastCut (r : RouterId) (out : Fin 8) (grp : BitVec 10) (s : State) : Host.Outcome State Fault Refusal :=
  let k := s.router r.val
  match (headsFor k out.val).find? fun c => c.2.pkt.dkind == 3#2 && c.2.pkt.group == grp && !c.2.pkt.bar with
  | none => .next s
  | some c =>
    let s1 := s.reach (c.2.since + max 256 (fld (nReg k nHold) 15 0))
    let key := 1024 * out.val + grp.toNat
    let m := match mget? k.missed key with
      | some q => (q.1, min 255 (q.2 + 1))
      | none => (c.2.pkt.mseq.toNat, 1)
    let k1 := nCount (nFlag { k with missed := mset k.missed key m } nfCut) (nPort out.val 0x14) 15 0 1
    .next (doneBranch (s1.setRouter r.val k1) r.val c.1 out.val)

/-- XLAT: every entry of the packet applied at every router at once, with the new generation (R359). -/
def applyXlat (es : List XlatEntry) (gen : Word) (k : Router) : Router :=
  let k1 := es.foldl (fun (a : Router) e =>
    let l := e.l.val
    let m := BitVec.ofNat 32 (packFields [(3, e.pcol.val), (3, e.prow.val), (25, 0), (1, bnat e.valid)])
    let byp (w : Nat) : Word := BitVec.ofNat 32 (packFields ((List.range 6).map fun i => (5, (e.byp.getD (6 * w + i) 31#5).toNat)))
    nSet (nSet (nSet (nSet a (nMap l) m) (nByp l 0) (byp 0)) (nByp l 1) (byp 1)) (nByp l 2) (byp 2)) k
  nSet k1 nGen gen

/-- The same update at every router. -/
def State.allRouters (s : State) (f : Router → Router) : State :=
  { s with rtTmpl := f s.rtTmpl, routers := s.routers.map fun p => (p.1, f p.2) }

/-- XLAT (R359): up to 7 entries in a packet; a packet of another partition than 0 has no effect. -/
def execXlat (es : List XlatEntry) (gen : Word) (s : State) : Host.Outcome State Fault Refusal :=
  .next (s.allRouters (applyXlat (es.take 7) gen))

end Sys2Proof.Machine
end

