-- ==== Sys2Proof/Machine/WindowBase.lean ====
section
/-! DEFINITION. The registers of the blocks of R678: stored words, flags, counts. -/

namespace Sys2Proof.Machine

def wReg (s : State) (off : Nat) : Word := regRaw windowRegs s.win off
def wSet (s : State) (off : Nat) (w : Word) : State := { s with win := mset s.win off w }
def wFlag (s : State) (off : Nat) (m : Word) : State := { s with win := regSetBits windowRegs s.win off m }
def wFld (s : State) (off hi lo v : Nat) : State := { s with win := regSetFld windowRegs s.win off hi lo v }
def wCount (s : State) (off hi lo n : Nat) : State := { s with win := regCount windowRegs s.win off hi lo n }

/-- A signed number saturated to 32 bits. -/
def satReg32 (i : Int) : Word :=
  if i > 2147483647 then 0x7FFFFFFF#32 else if i < -2147483648 then 0x80000000#32 else BitVec.ofInt 32 i

/-- A rational with a positive denominator rounded to an integer: exact where it is one, and otherwise one of its two
neighbours, which of them is free (log entry 7). -/
def roundFree (fr : Nat) (num : Int) (den : Nat) : Int :=
  num / (den : Int) + (if num % (den : Int) = 0 then 0 else if (Config.freeWord fr).getLsbD 0 then 1 else 0)

end Sys2Proof.Machine
end

