-- ==== Sys2Proof/Machine/HwBase.lean ====
section
/-! DEFINITION. What the heartwood works with: the places of logical regions and cores (R5 to R9, R27), device memory,
handles, events, the outcome of commands, partitions, patina and fences (R491 to R494, R503, R538, R580 to R584, R612). -/

namespace Sys2Proof.Machine

/-! ### Places -/

/-- A word of `wfr.map` (R27). -/
def rowReg (q : Nat) : Nat := 0x1100 + 4 * q
def rowWord (s : State) (q : Nat) : Word := wReg s (rowReg q)
def rstkCol (s : State) (q : Nat) : Nat := fld (rowWord s q) 2 0
def rstkState (s : State) (q : Nat) : Nat := fld (rowWord s q) 4 3
def rstkIntact : Nat := 0
def rstkPending : Nat := 1
def rstkAbsent : Nat := 2

/-- Whether a physical region is fenced in its row's word. -/
def physFenced (s : State) (p : Nat) : Bool := bit (rowWord s (p / 8)) (8 + p % 8)
def setPhysFenced (s : State) (p : Nat) (b : Bool) : State := wFld s (rowReg (p / 8)) (8 + p % 8) (8 + p % 8) (bnat b)

/-- The physical region that carries a logical region (R7), and the logical region a physical one carries. -/
def physOf (s : State) (l : Nat) : Nat :=
  let r := rstkCol s (l / 7)
  8 * (l / 7) + (if l % 7 < r then l % 7 else l % 7 + 1)

def logOf (s : State) (p : Nat) : Option Nat :=
  let r := rstkCol s (p / 8)
  if p % 8 = r then none else some (7 * (p / 8) + (if p % 8 < r then p % 8 else p % 8 - 1))

/-- The bypassed column of a core row, 17 where there is none (R9, R25). -/
def bypassOf (s : State) (p row : Nat) : Nat := mgetD s.bypass (p * 16 + row) 17

/-- The number of the physical core that carries a logical core (R631). -/
def physCore (s : State) (c : Nat) : Nat :=
  let p := physOf s (regionOfCore c)
  let y := coreY c % 16
  let x := coreX c % 16
  272 * p + 17 * y + (if x < bypassOf s p y then x else x + 1)

/-- The logical core on a physical one. -/
def logCore (s : State) (n : Nat) : Option Nat :=
  let p := n / 272
  let y := n % 272 / 17
  let pc := n % 17
  let b := bypassOf s p y
  match logOf s p with
  | none => none
  | some l =>
    let x := if pc < b then pc else pc - 1
    if pc = b ∨ (b = 17 ∧ pc = 16) then none else some (coreAt (16 * (l % 7) + x) (16 * (l / 7) + y))

/-- Every core of a logical region, changed alike. -/
def mapRegion (s : State) (l : Nat) (f : Core → Core) : State :=
  let g := s.region l
  { s.setRegion l { g with tmpl := f g.tmpl } with
    cores := s.cores.map fun e => if regionOfCore e.1 = l then (e.1, f e.2) else e }

/-- The cluster routers of a physical region (R10, R11). -/
def clusterRouters (p : Nat) : List Nat :=
  (List.range 16).map fun i => routerNo (1 + 4 * (p % 8) + i % 4) (1 + 4 * (p / 8) + i / 4)

/-! ### Device memory as the heartwood reaches it -/

/-- The address of memory unit k in the interleaved view (R514, R515), and of a page of the reserve. -/
def memUnit : Nat := 60129542144
def unitAddr (k : Nat) : Nat := interBase + k * memUnit
def reservePage (n : Nat) : Nat := unitAddr 159 + 4096 * (Config.layout n % 14680064)

/-- The bytes of a range of device address, in pieces of one block. -/
def devRead (s : State) (a n : Nat) : List Byte :=
  (touched 64 a n).flatMap fun b =>
    let lo := max a (64 * b)
    let hi := min (a + n) (64 * b + 64)
    match burmonAddr lo with
    | some (st, off) => cellGets (s.stack st).mem off (hi - lo)
    | none => []

/-- Whether any block of a range carries the tarnish mark. -/
def devTarn (s : State) (a n : Nat) : Bool :=
  (touched 64 a n).any fun b =>
    match burmonAddr (64 * b) with
    | some (st, off) => (s.stack st).tarn.contains (off / 64)
    | none => false

/-- Bytes written to a range of device address, one write for each block. -/
def devWrite (s : State) (a : Nat) (bytes : List Byte) : State :=
  (touched 64 a bytes.length).foldl (fun s1 b =>
    let lo := max a (64 * b)
    let hi := min (a + bytes.length) (64 * b + 64)
    match burmonAddr lo with
    | some (st, off) => (burmonWrite s1 st off ((bytes.drop (lo - a)).take (hi - lo)) false 0 true []).1
    | none => s1) s

/-- Zeroes, with a clear mark, over stack offsets [lo, hi) of every stack (R701, R722). -/
def zeroStacks (s : State) (lo hi : Nat) : State :=
  { s with stks := s.stks.map fun e =>
      (e.1, { e.2 with mem := e.2.mem.filter fun c => decide (c.1 < lo ∨ hi ≤ c.1)
                       tarn := e.2.tarn.filter fun b => decide (b * 64 < lo ∨ hi ≤ b * 64)
                       wback := e.2.wback.filter fun b => decide (b * 64 < lo ∨ hi ≤ b * 64) }) }

/-- Words of a record or a header in memory. -/
def wordsOfBytes (bs : List Byte) (n : Nat) : List Word := (List.range n).map fun i => wordOfBytes ((bs.drop (4 * i)).take 4)

/-- Word i of a record, and two words as a number. -/
def arg (ws : List Word) (i : Nat) : Word := ws.getD i 0#32
def arg64 (ws : List Word) (i : Nat) : Nat := (arg ws i).toNat + 2 ^ 32 * (arg ws (i + 1)).toNat

/-! ### Buffers (R517 to R523) -/

def bIdle : Nat := 0
def bWriting : Nat := 1
def bReady : Nat := 2
def bFailed : Nat := 3

/-- A buffer's header words, and their replacement as one write of one block (R518, R520). -/
def bufHeader (s : State) (b : HostBuf) : List Word := wordsOfBytes (devRead s b.addr 64) 16
def putHeader (s : State) (b : HostBuf) (ws : List Word) : State :=
  devWrite s b.addr (((ws ++ List.replicate 16 0#32).take 16).flatMap bytesOfWord)
def hdrState (ws : List Word) : Nat := fld (arg ws 0) 1 0

/-! ### Handles (R491 to R494) -/

def hPart : Nat := 1
def hSession : Nat := 2
def hRing : Nat := 3
def hChannel : Nat := 4
def hBuffer : Nat := 5
def hQp : Nat := 7
def hKey : Nat := 8
def hProgram : Nat := 9
def hWindow : Nat := 10

def genKey (ty idx : Nat) : Nat := ty * 1048576 + idx
def genOf (s : State) (ty idx : Nat) : Nat := mgetD s.hw.gens (genKey ty idx) 1
def handleOf (s : State) (ty idx : Nat) : Word := BitVec.ofNat 32 (ty * 2 ^ 28 + genOf s ty idx * 2 ^ 20 + idx)

/-- A destruction advances the generation: 255 is followed by 1 (R492). -/
def bumpGen (s : State) (ty idx : Nat) : State :=
  let g := genOf s ty idx
  { s with hw := { s.hw with gens := mset s.hw.gens (genKey ty idx) (if g = 255 then 1 else g + 1) } }

/-- Whether an object of a type stands at an index. -/
def objectAt (s : State) (ty idx : Nat) : Bool :=
  let h := s.hw
  if ty = hPart then (mget? h.parts idx).isSome
  else if ty = hSession then (mget? h.sessions idx).isSome
  else if ty = hRing then (mget? h.rings idx).isSome
  else if ty = hChannel then (mget? h.chans idx).isSome
  else if ty = hBuffer then (mget? h.bufs idx).isSome
  else if ty = hQp then (mget? h.qps idx).isSome
  else if ty = hKey then (mget? h.keys idx).isSome
  else if ty = hProgram then (mget? h.progs idx).isSome
  else if ty = hWindow then (mget? h.wins idx).isSome
  else false

/-- The lowest index from `lo` on that holds no object, below `hi`. -/
def freeIndex {α : Type} (m : Map α) (lo hi : Nat) : Option Nat :=
  ((List.range (m.length + 1)).map fun i => lo + i).find? fun i => decide (i < hi) && (mget? m i).isNone

/-- Command statuses (R511). -/
def csOk : Nat := 0
def csStale : Nat := 1
def csBadHandle : Nat := 2
def csBadCode : Nat := 3
def csBadArg : Nat := 4
def csBadAddr : Nat := 5
def csDenied : Nat := 6
def csCross : Nat := 7
def csNoResource : Nat := 8
def csInUse : Nat := 9
def csBusy : Nat := 10
def csLate : Nat := 11
def csMissed : Nat := 12
def csAborted : Nat := 13
def csFailed : Nat := 14
def csMode : Nat := 15
def csBadRing : Nat := 16
def csNoEndpoint : Nat := 17
def csCycle : Nat := 18

def hIndex (w : Word) : Nat := fld w 19 0

/-- The check of a handle against the type its field asks for (R493). A GEN that is not current is STALE with or without an object at the
index (R328, R494; DEDUCED, log entry 17). -/
def handleCheck (s : State) (ty : Nat) (w : Word) : Nat :=
  if fld w 31 28 ≠ ty then csBadHandle
  else if fld w 27 20 ≠ genOf s ty (hIndex w) then csStale
  else if objectAt s ty (hIndex w) then csOk else csBadHandle

/-! ### Outcomes of commands and events -/

/-- A command's outcome: its completion is owed (R503). -/
def finishCmd (s : State) (r pos status : Nat) (handle : Word) (res : List Word) : State :=
  match mget? s.hw.rings r with
  | none => s
  | some k =>
    let k1 : Ring := { k with flight := k.flight.map fun f =>
      if f.pos = pos ∧ f.done.isNone then { f with begun := true, done := some (status, handle, res) } else f }
    { s with hw := { s.hw with rings := mset s.hw.rings r k1 } }

/-- An event waits for its rings (R538). -/
def raiseEvent (s : State) (kind part : Nat) (obj : Word) (ws : List Word) : State :=
  { s with hw := { s.hw with events := s.hw.events ++ [⟨kind, part, obj, ws⟩] } }

def evChannelBroken : Nat := 1
def evQpError : Nat := 2
def evStreamFailed : Nat := 3
def evPageMiss : Nat := 4
def evGraft : Nat := 5
def evTakeover : Nat := 6
def evFenced : Nat := 7
def evQuench : Nat := 8
def evPort : Nat := 9
def evLost : Nat := 10

/-! ### Partitions -/

def State.hpart (s : State) (p : Nat) : Option Partn := mget? s.hw.parts p
def State.setPart (s : State) (p : Nat) (k : Partn) : State := { s with hw := { s.hw with parts := mset s.hw.parts p k } }
def updPart (s : State) (p : Nat) (f : Partn → Partn) : State :=
  match s.hpart p with
  | some k => s.setPart p (f k)
  | none => s

/-- The logical regions of a partition (R515). -/
def partRegions (k : Partn) : List Nat :=
  (List.range (k.ncol * k.nrow)).map fun i => 7 * (k.row0 + i / k.ncol) + k.col0 + i % k.ncol

/-- The core of a partition with a number counted from its corner. -/
def coreInPart (k : Partn) (i : Nat) : Nat := coreAt (16 * k.col0 + i % (16 * k.ncol)) (16 * k.row0 + i / (16 * k.ncol))

/-- The open partition that holds a logical region. -/
def partOfRegion (s : State) (l : Nat) : Option Nat :=
  (s.hw.parts.find? fun e => (partRegions e.2).contains l).map Prod.fst

/-- The partition whose region a physical region carries. -/
def partOfPhys (s : State) (p : Nat) : Option Nat :=
  match logOf s p with
  | some l => partOfRegion s l
  | none => none

/-- SUSPECT of the region a physical region carries, for the step in progress (R547). -/
def suspectPhys (s : State) (p : Nat) : State :=
  match logOf s p with
  | some l => if (partOfRegion s l).isSome then s.setRegion l { s.region l with suspect := true } else s
  | none => s

/-! ### Units, patina and fences -/

def uCore : Nat := 0
def uCluster : Nat := 1
def uRegion : Nat := 2
def uStack : Nat := 3
def uPort : Nat := 4
def uHeart : Nat := 5
def uRouter : Nat := 6
def uPeer : Nat := 7
def uPart : Nat := 8
def uModule : Nat := 9

/-- A unit word (R580). -/
def unitWord (kind id : Nat) : Word := BitVec.ofNat 32 (kind + 16 * id)
def coreUnit (n : Nat) : Word := unitWord uCore (packFields [(6, n / 272), (5, n % 17), (4, n % 272 / 17)])
def unitKind (u : Word) : Nat := fld u 3 0
def unitId (u : Word) : Nat := fld u 31 4

/-- The physical core of a core's unit word. -/
def unitCore (u : Word) : Nat := 272 * fld u 9 4 + 17 * fld u 18 15 + fld u 14 10

/-- Causes of a fence (R629). -/
def fcHost : Nat := 0
def fcBurnish : Nat := 1
def fcProgress : Nat := 2
def fcSilent : Nat := 3
def fcAssay : Nat := 4
def fcParity : Nat := 5
def fcPatina : Nat := 6
def fcHung : Nat := 7
def fcDrop : Nat := 8
def fcThermal : Nat := 9
def fcPeerDead : Nat := 10
def fcExpelled : Nat := 11
def fcSkew : Nat := 12
def fcTest : Nat := 13

/-- The score register of a unit that has one (R631). -/
def patReg (u : Word) : Option Nat :=
  match unitKind u with
  | 0 => some (0x210000 + 4 * unitCore u)
  | 2 => some (0x200100 + 4 * fld u 9 4)
  | 3 => some (0x200200 + 4 * fld u 9 4)
  | 4 => some (0x200300 + 4 * fld u 6 4)
  | 5 => some (0x200320 + 4 * fld u 4 4)
  | _ => none

def unitFenced (s : State) (u : Word) : Bool := s.hw.fenced.contains u

/-- An alert bit of the sideband (R740, R741). -/
def sbdFlag (s : State) (m : Word) : State :=
  { s with mod := { s.mod with sbd := regSetBits sidebandRegs s.mod.sbd 0x8 m
                               ibiAt := if (regRaw sidebandRegs s.mod.sbd 0xC &&& m &&& ~~~ regRaw sidebandRegs s.mod.sbd 0x8) ≠ 0#32 ∧
                                           s.mod.ibiAt.isNone then some s.now else s.mod.ibiAt } }
def sbdState (s : State) : Nat := fld (regRaw sidebandRegs s.mod.sbd 0x4) 2 0
/-- Whether the removal path has begun (R745, R747), and whether RST_N holds the reset (R750, R752). -/
def sbdLeaves (s : State) : Bool := sbdState s == 2 || sbdState s == 3
def rstHeld (s : State) : Bool := s.mod.rstLow && decide (sbdState s ≤ 1)
def setSbdState (s : State) (v : Nat) : State := { s with mod := { s.mod with sbd := regSetFld sidebandRegs s.mod.sbd 0x4 2 0 v } }

/-- The recovery state in `hlt.recov` (R631). -/
def setRecov (s : State) (v : Nat) : State := wFld s 0x200008 3 0 v

/-- Ports' states (R458). -/
def pReg (p k : Nat) : Nat := 0x20000 + 0x400 * p + k
def poDown : Nat := 0
def poTraining : Nat := 1
def poQuiet : Nat := 2
def poUp : Nat := 3
def poFenced : Nat := 4
def portState (s : State) (p : Nat) : Nat := fld (wReg s (pReg p 4)) 2 0
def setPortState (s : State) (p v : Nat) : State :=
  let s1 := wFld s (pReg p 4) 2 0 v
  if portState s p = v then s1 else raiseEvent s1 evPort 0 (BitVec.ofNat 32 p) [BitVec.ofNat 32 p, BitVec.ofNat 32 v]

/-- A queue pair enters the error state: its writes of completions fail with it (R483, R504). -/
def qpFail (s : State) (q synd : Nat) : State :=
  match mget? s.hw.qps q with
  | none => s
  | some k =>
    if k.err then s
    else
      let s1 : State := { s with hw := { s.hw with
        qps := mset s.hw.qps q { k with err := true, synd := synd, una := [], owed := [], reads := [] } } }
      raiseEvent s1 evQpError k.part (handleOf s hQp q) [BitVec.ofNat 32 synd]

/-- The partition a unit takes part in. -/
def partOfUnit (s : State) (u : Word) : Option Nat :=
  match unitKind u with
  | 0 => (logCore s (unitCore u)).bind fun c => partOfRegion s (regionOfCore c)
  | 1 => partOfPhys s (fld u 9 4)
  | 2 => partOfPhys s (fld u 9 4)
  | _ => none

def noPm : Nat := 0xFFFFFFFF

/-- The level of a score (R613). -/
def levelOf (score : Nat) : Nat := if score < 2000 then 0 else if score < 8000 then 1 else if score < 32000 then 2 else 3

def regionUnit (p : Nat) : Word := unitWord uRegion p
def stackUnit (st : Nat) : Word := unitWord uStack st
def portUnit (p : Nat) : Word := unitWord uPort p
def heartUnit (h : Nat) : Word := unitWord uHeart h

/-- The active heartwood (R609). -/
def activeHw (s : State) : Nat := fld (wReg s 0x200000) 0 0

end Sys2Proof.Machine
end

