-- ==== Sys2Proof/Machine/PortBase.lean ====
section
/-! DEFINITION. What ports do with frames: counters, transmission, training, announcements (R456 to R474, R486 to R489). -/

namespace Sys2Proof.Machine

def State.port (s : State) (p : Nat) : Port := mgetD s.ports p Port.reset
def State.setPort (s : State) (p : Nat) (k : Port) : State := { s with ports := mset s.ports p k }

/-- Cyc in one millisecond. -/
def msCyc : Nat := 1600000

/-- An error counter raised, and its growth in the present second noted (R488, R489). `c` is the counter, `half` 1 for the
field in the high bits. -/
def portErr (s : State) (p c half n : Nat) : State :=
  let hi := if c = 15 then (if half = 1 then 31 else 23) else if c = 12 ∨ c = 13 then 16 * half + 15 else 31
  let lo := if c = 15 then 24 * half else if c = 12 ∨ c = 13 then 16 * half else 0
  let k := s.port p
  (wCount s (pReg p (0x60 + 4 * c)) hi lo n).setPort p { k with grown := mset k.grown (2 * c + half) (mgetD k.grown (2 * c + half) 0 + n) }

/-- A 64-bit count in a pair of registers, wrapping. -/
def portCount64 (s : State) (p o n : Nat) : State :=
  let v := (wReg s (pReg p o)).toNat + 2 ^ 32 * (wReg s (pReg p (o + 4))).toNat + n
  wSet (wSet s (pReg p o) (BitVec.ofNat 32 v)) (pReg p (o + 4)) (BitVec.ofNat 32 (v / 2 ^ 32))

/-- Rate of a port's trained mode in Gb/s (R456). -/
def portRate (s : State) (p : Nat) : Nat :=
  match (s.port p).mode % 3 with
  | 0 => 400
  | 1 => 200
  | _ => 100

/-- A frame that leaves the port (R489). -/
def putFrame (s : State) (p len : Nat) : State := portCount64 (portCount64 s p 0x50 1) p 0x58 (max 64 len)

/-- Whether a priority is held by a received pause (R473, R474). -/
def prioPaused (s : State) (p i : Nat) : Bool :=
  match mget? (s.port p).pauses i with
  | some t => decide (s.now < t)
  | none => false

/-- A frame of a priority to send: it leaves, or waits while its priority is paused (R470, R473). A port whose transmitter
carries no frames sends nothing (R458). -/
def sendFrame (s : State) (p prio len : Nat) : State :=
  if portState s p ≠ poUp ∧ portState s p ≠ poQuiet then s
  else if prioPaused s p prio then
    let k := s.port p
    s.setPort p { k with txq := mset k.txq prio (mgetD k.txq prio [] ++ [len]) }
  else putFrame s p len

/-- The frames that waited on a priority leave. -/
def flushPrio (s : State) (p prio : Nat) : State :=
  let k := s.port p
  (mgetD k.txq prio []).foldl (fun a n => putFrame a p n) (s.setPort p { k with txq := merase k.txq prio })

/-- The address of a port: the module's base address plus its number (R461). -/
def portMac (s : State) (p : Nat) : Nat := (s.mod.mac + p) % 2 ^ 48
def portIp (s : State) (p : Nat) : Word := wReg s (pReg p 0x10)
def pfcOn (s : State) (p i : Nat) : Bool := bit (wReg s (pReg p 0x14)) i
def wdCyc (s : State) (p : Nat) : Nat :=
  let m := fld (wReg s (pReg p 0x14)) 31 16
  (if m = 0 then 100 else m) * msCyc

/-- A port is fenced: what it was sending and receiving is discarded (R460). -/
def portFence (s : State) (p : Nat) : State :=
  let k := s.port p
  (setPortState s p poFenced).setPort p { k with brup := [], txq := [], pauses := [], heldBy := [], ignored := [], pfcNext := [] }

/-- A READY announcement on a port, and the ARP that follows it (R468). -/
def sendReady (s : State) (p : Nat) : State :=
  let s1 := sendFrame s p 0 98
  if portIp s p = 0#32 then s1 else sendFrame s1 p 0 64

/-- A port's first announcement of a sequence: it leaves, the port enters UP, the repeats are due (R466, R469). -/
def readyPort (s : State) (p : Nat) : State :=
  let s1 := setPortState (sendReady s p) p poUp
  let k := s1.port p
  s1.setPort p { k with annOwed := false, repeats := [s1.now + 100 * msCyc, s1.now + 1000 * msCyc] }

/-- A new announcement (R466, R469): on every port in QUIET or UP now, on the others at lock. -/
def announceReady (s : State) : State :=
  let s0 : State := { s with hw := { s.hw with annSeq := s.hw.annSeq + 1, ready := true } }
  let s1 := (List.range 8).foldl (fun a p =>
    let st := portState a p
    if st = poQuiet ∨ st = poUp then readyPort a p
    else if st = poFenced then a
    else a.setPort p { a.port p with annOwed := true }) s0
  let s2 := wFld s1 0x0 4 4 1
  if sbdState s2 = 0 ∨ (sbdState s2 = 4 ∧ ¬ s2.hw.fault) then setSbdState s2 1 else s2

/-- Why a port discards a frame: the counter of R462, none where it accepts. -/
def judgeFrame (s : State) (p : Nat) (f : Frame) : Option Nat :=
  if !f.fcsOk ∨ 0 < f.uncorr then some 0
  else if f.len < 64 ∨ 9216 < f.len ∨ 1 < f.tags then some 1
  else if f.dst.toNat ≠ portMac s p ∧ f.dst ≠ 0xFFFFFFFFFFFF#48 ∧ f.dst ≠ 0x01005E000181#48 ∧ f.dst ≠ 0x0180C2000001#48 then some 2
  else if f.src.getLsbD 40 ∨ (List.range 8).any (fun q => portMac s q == f.src.toNat) then some 1
  else if (match f.ip with
      | some h => f.etype == 0x0800#16 && (h.hdrLen != 20 || !h.sumOk || h.frag || decide (f.len < h.total + 18 + 4 * f.tags))
      | none => f.etype == 0x0800#16) then some 1
  else if f.etype ≠ 0x0800#16 ∧ f.etype ≠ 0x0806#16 ∧ f.etype ≠ 0x8808#16 then some 2
  else none

/-- A bring-up reply leaves, with XID and a body (R464, R465, R672). -/
def brupReply (s : State) (p : Nat) (src xid : Word) (status : Nat) (body : List Word) : State :=
  let k := s.port p
  let s1 := s.setPort p { k with brup := k.brup.filter fun e => e.1 != src.toNat }
  (sendFrame s1 p 0 (62 + 4 * body.length)).answer status (xid :: body)

/-- A bring-up datagram (R463, R464, R672): one with a wrong MAGIC or VER is discarded, an unknown OP is answered at once. -/
def takeBringup (s : State) (p : Nat) (src : Word) (brup : Option (BitVec 8 × Word)) : State :=
  let k := s.port p
  match brup with
  | none => portErr s p 1 0 1
  | some (op, xid) =>
    if k.brup.any (fun e => e.1 == src.toNat) ∨ 64 ≤ k.brup.length then portErr s p 4 0 1
    else
      let s1 := s.setPort p { k with brup := k.brup ++ [(src.toNat, s.now)] }
      if rstHeld s ∨ (1 ≤ op.toNat ∧ op.toNat ≤ 4) then s1 else brupReply s1 p src xid 1 []

/-- The priority of a frame (R462). -/
def framePrio (s : State) (p : Nat) (f : Frame) : Nat :=
  if f.tags = 1 then f.pcp.toNat else fld (wReg s (pReg p 0)) 6 4

/-- A PFC frame leaves, naming one priority (R472, R489). -/
def sendPfc (s : State) (p i : Nat) : State := putFrame (wSet s (pReg p (0x104 + 8 * i)) (wReg s (pReg p (0x104 + 8 * i)) + 1#32)) p 64

/-- A RoCEv2 frame into the receive buffer of its priority (R472). -/
def bufferFrame (s : State) (p i len : Nat) : State :=
  let k := s.port p
  let occ := mgetD k.occ i 0
  if !pfcOn s p i ∧ 262144 < occ + len then portErr s p 5 0 1
  else
    let s1 := s.setPort p { k with occ := mset k.occ i (occ + len) }
    if pfcOn s p i ∧ 196608 ≤ occ + len ∧ (mget? k.pfcNext i).isNone then
      let s2 := sendPfc s1 p i
      s2.setPort p { s2.port p with pfcNext := mset k.pfcNext i (s.now + 64000) }
    else s1

/-- Bytes leave the receive buffer (R472). -/
def drainBuffer (s : State) (p i len : Nat) : State :=
  let k := s.port p
  let occ := mgetD k.occ i 0 - len
  let s1 := s.setPort p { k with occ := mset k.occ i occ }
  if occ < 131072 ∧ (mget? k.pfcNext i).isSome then
    let s2 := sendPfc s1 p i
    s2.setPort p { s2.port p with pfcNext := merase k.pfcNext i }
  else s1

/-- A received frame (R462, R463, R467, R471, R484). -/
def receiveFrame (s : State) (p : Nat) (f : Frame) : State :=
  let s0 := (if 0 < f.corr then portErr s p 14 0 f.corr else s)
  let s1 := (if 0 < f.uncorr then portErr s0 p 15 0 f.uncorr else s0)
  let st := portState s p
  if st ≠ poQuiet ∧ st ≠ poUp then s
  else match judgeFrame s p f with
    | some c => portErr s1 p c 0 1
    | none =>
      let s2 := portCount64 (portCount64 s1 p 0x40 1) p 0x48 f.len
      let udp (n : BitVec 16) : Bool := match f.ip with
        | some h => h.udp == some n
        | none => false
      if st = poQuiet then
        match f.ip with
        | some h =>
          if udp 48112#16 ∧ (h.dst = portIp s p ∨ h.dst = 0xFFFFFFFF#32 ∨ portIp s p = 0#32) then takeBringup s2 p h.src h.brup
          else portErr s2 p 3 0 1
        | none => portErr s2 p 3 0 1
      else if f.etype = 0x8808#16 ∧ f.pause then portErr s2 p 1 0 1
      else if udp 4791#16 then bufferFrame s2 p (framePrio s p f) f.len
      else match f.ip with
        | some h => if udp 48112#16 then takeBringup s2 p h.src h.brup else s2
        | none => s2

end Sys2Proof.Machine
end

