-- ==== Sys2Proof/Machine/RoceBase.lean ====
section
/-! DEFINITION. RoCEv2: queue pairs as requester and responder, memory keys, what crosses the port inward (R475 to R485,
R521, R545). The opcodes and the codes of AETH are those of the InfiniBand specification (PRESUMED, log entry 13). -/

namespace Sys2Proof.Machine

def State.qp (s : State) (q : Nat) : Option Qp := mget? s.hw.qps q
def State.setQp (s : State) (q : Nat) (k : Qp) : State := { s with hw := { s.hw with qps := mset s.hw.qps q k } }

/-- Rates in Mb/s as dyadic rationals (R476). -/
def dNat (n : Nat) : Dyad := ⟨n, 0⟩
def dyLe (a b : Dyad) : Bool := decide (a.num * 2 ^ b.exp ≤ b.num * 2 ^ a.exp)
def dyMin (a b : Dyad) : Dyad := if dyLe a b then a else b
def dyMax (a b : Dyad) : Dyad := if dyLe a b then b else a
def dyAdd (a b : Dyad) : Dyad := ⟨a.num * 2 ^ b.exp + b.num * 2 ^ a.exp, a.exp + b.exp⟩

/-- The line rate of a queue pair's port in Mb/s. -/
def lineRate (s : State) (k : Qp) : Dyad := dNat (1000 * portRate s k.port)

/-- 55 us, and 50 us, in cyc (R475, R476). -/
def quietCyc : Nat := 88000
def cnpCyc : Nat := 80000

/-- A notification received (R476): the rate is cut. -/
def cutRate (k : Qp) (now : Nat) : Qp :=
  let a := k.alpha
  let cut : Dyad := ⟨k.rc.num * (2 ^ (a.exp + 1) - a.num), k.rc.exp + a.exp + 1⟩
  { k with rt := k.rc, rc := dyMax cut (dNat 100), alpha := ⟨15 * a.num + 2 ^ a.exp, a.exp + 4⟩
           quiet := 0, rateDue := now + quietCyc }

/-- A quiet interval (R476). -/
def raiseRate (s : State) (k : Qp) : Qp :=
  let n := k.quiet + 1
  let rt := if 5 < n then dyMin (dyAdd k.rt (dNat 4000)) (lineRate s k) else k.rt
  let sum := dyAdd k.rc rt
  { k with quiet := n, alpha := ⟨15 * k.alpha.num, k.alpha.exp + 4⟩, rt := rt, rc := ⟨sum.num, sum.exp + 1⟩, rateDue := k.rateDue + quietCyc }

/-- Bytes of a RoCEv2 frame around its payload: Ethernet, IPv4, UDP, BTH, ICRC and FCS. -/
def roceFrame (ext payload : Nat) : Nat := 62 + ext + (payload + 3) / 4 * 4

/-- A packet that the responder sends: an acknowledgement with its syndrome, seen by the other side. -/
def sendAck (s : State) (k : Qp) (psn synd : Nat) : State :=
  (sendFrame s k.port k.prio (roceFrame 4 0)).answer synd [17#32, BitVec.ofNat 32 k.rqp, BitVec.ofNat 32 psn]

/-- A message that a queue pair sends as requester: its packets get the next PSNs and wait for acknowledgement (R481). -/
def qpSend (s : State) (q bytes ext : Nat) : State :=
  match s.qp q with
  | none => s
  | some k =>
    if k.err then s
    else
      let n := max 1 ((bytes + k.mtu - 1) / k.mtu)
      let pk (i : Nat) : SentPkt := ⟨(k.psn + i) % 16777216, roceFrame (if i = 0 then ext else 0) (min k.mtu (bytes - i * k.mtu))⟩
      let l := (List.range n).map pk
      let k1 : Qp := { k with psn := (k.psn + n) % 16777216, una := k.una ++ l, sentAt := if k.una.isEmpty then s.now else k.sentAt }
      l.foldl (fun a x => sendFrame a k.port k.prio x.len) (s.setQp q k1)

/-- The packets not acknowledged sent again, a retransmission counted (R481). -/
def resendAll (s : State) (q : Nat) (k : Qp) : State :=
  let s1 := portErr (s.setQp q { k with sentAt := s.now, rnrAt := none }) k.port 13 1 1
  k.una.foldl (fun a x => sendFrame a k.port k.prio x.len) s1

/-- A retry on the expiry of the ACK timeout or a sequence NAK; the error state when they are spent (R481). -/
def retryQp (s : State) (q synd : Nat) : State :=
  match s.qp q with
  | none => s
  | some k => if k.left = 0 then qpFail s q synd else resendAll s q { k with left := k.left - 1 }

/-- How far PSN b lies ahead of a, modulo 2^24. -/
def psnAhead (a b : Nat) : Nat := (b + 16777216 - a) % 16777216

/-- An acknowledgement of every packet up to a PSN. -/
def ackUpTo (s : State) (q : Nat) (k : Qp) (psn : Nat) : State :=
  let rest := k.una.filter fun x => decide (psnAhead psn x.psn ≠ 0 ∧ psnAhead psn x.psn < 8388608)
  let moved := decide (rest.length < k.una.length)
  s.setQp q { k with una := rest, sentAt := if moved then s.now else k.sentAt, left := if moved then k.retry else k.left
                     rnrLeft := if moved then k.rnrRetry else k.rnrLeft, rnrAt := if moved then none else k.rnrAt }

/-- RNR timer of an AETH code in cyc (the InfiniBand table, in units of 0.01 ms). -/
def rnrCyc (code : Nat) : Nat :=
  16000 * ([65536, 1, 2, 3, 4, 6, 8, 12, 16, 24, 32, 48, 64, 96, 128, 192, 256, 384, 512, 768, 1024, 1536, 2048, 3072, 4096, 6144,
    8192, 12288, 16384, 24576, 32768, 49152].getD (code % 32) 1)

/-- An ACK or NAK received (R481). -/
def takeAck (s : State) (q : Nat) (k : Qp) (psn aeth : Nat) : State :=
  match aeth / 32 with
  | 0 => ackUpTo s q k psn
  | 1 =>
    if k.una.isEmpty then s
    else if k.rnrRetry ≠ 7 ∧ k.rnrLeft = 0 then qpFail s q aeth
    else s.setQp q { k with rnrAt := some (s.now + rnrCyc aeth), rnrLeft := if k.rnrRetry = 7 then k.rnrLeft else k.rnrLeft - 1 }
  | 3 =>
    if aeth % 32 = 0 then
      -- everything before the PSN named is acknowledged
      let s1 := ackUpTo s q k ((psn + 16777215) % 16777216)
      retryQp s1 q aeth
    else qpFail s q aeth
  | _ => s

/-! ### Inward through the port -/

/-- The corner router's place and endpoint of a port (R32, R343). -/
def portPlace (p : Nat) : Nat × Nat × Nat :=
  ((if p / 2 = 1 ∨ p / 2 = 2 then 33 else 0), (if p / 2 ≥ 2 then 25 else 0), p % 2)

/-- The port at an endpoint of a corner router. -/
def portAt (x y ep : Nat) : Option Nat := (List.range 8).find? fun p => portPlace p == (x, y, ep)

/-- A service request of a port for a queue pair, to the stack that holds its address (R383, R478). -/
def portRequest (s : State) (p q : Nat) (what : Nat) (k : Qp) (pk : Packet) : State :=
  let me := portPlace p
  let d := (rimOfAddr pk.addr.toNat).getD (0, 0)
  let po := s.port p
  let full : Packet := { pk with dkind := 1, px := BitVec.ofNat 6 d.1, py := BitVec.ofNat 5 d.2, pep := 0
                                 sx := BitVec.ofNat 7 me.1, sy := BitVec.ofNat 7 me.2.1, skind := true, sep := BitVec.ofNat 5 me.2.2
                                 part := BitVec.ofNat 12 k.part, tag := BitVec.ofNat 16 po.nextTag }
  (s.setPort p { po with nextTag := (po.nextTag + 1) % 65536, reqs := po.reqs ++ [⟨po.nextTag, s.now, q, what⟩]
                         resend := po.resend ++ [(full, 0)] }).putNet full

/-- Pieces of a range that lie in one 512-byte range each. -/
def pieces512 (a n : Nat) : List (Nat × Nat) :=
  (touched 512 a n).map fun b => (max a (512 * b), min (a + n) (512 * b + 512) - max a (512 * b))

/-- A payload placed in device memory by WR packets, split at 512-byte boundaries (R484). -/
def portWrite (s : State) (p q : Nat) (k : Qp) (a : Nat) (bytes : List Byte) : State :=
  (pieces512 a bytes.length).foldl (fun s1 e =>
    let data := (bytes.drop (e.1 - a)).take e.2
    portRequest s1 p q 0 k { Packet.blank with type := tWR, addr := BitVec.ofNat 64 e.1, payload := data
                                               pcrc0 := (pcrcOf data).1, pcrc1 := (pcrcOf data).2 }) s

/-- An RD packet for a piece of a READ. -/
def portRead (s : State) (p q : Nat) (k : Qp) (a n : Nat) : State :=
  portRequest s p q 1 k { Packet.blank with type := tRD, addr := BitVec.ofNat 64 a, tdata := [BitVec.ofNat 32 n] }

/-- Whether a queue pair still has service requests outstanding. -/
def qpBusy (s : State) (k : Qp) (q : Nat) : Bool := (s.port k.port).reqs.any fun r => r.what == q

/-- The doorbell registers of the mailbox block (R540, R678). -/
def mbxBase : Nat := 0x200000100000

/-- Whether a memory key lets a queue pair reach a range (R479, R533, R536). -/
def keyOk (s : State) (k : Qp) (rkey : Word) (a n : Nat) (write : Bool) : Bool :=
  if handleCheck s hKey rkey ≠ csOk then false
  else match mget? s.hw.keys (hIndex rkey) with
    | none => false
    | some m => m.part == k.part && (if write then m.write else m.read) && decide (m.addr ≤ a ∧ a + n ≤ m.addr + m.bytes)

/-- A NAK that ends the queue pair (R479). -/
def nakFatal (s : State) (q : Nat) (k : Qp) (psn code : Nat) : State := qpFail (sendAck s k psn (96 + code)) q (96 + code)

/-- A request done with: the next PSN, and an acknowledgement now or after the writes outstanding. -/
def accepted (s : State) (q : Nat) (n psn : Nat) (ackReq : Bool) : State :=
  match s.qp q with
  | none => s
  | some k =>
    let k1 : Qp := { k with epsn := (k.epsn + n) % 16777216, nakSent := false }
    if !ackReq then s.setQp q k1
    else if qpBusy s k q then s.setQp q { k1 with owed := k1.owed ++ [psn] }
    else sendAck (s.setQp q k1) k1 psn 31

/-- Whether a receive buffer is posted: the queue pair serves a partition that takes messages (R565, R614; DEDUCED, log
entry 14). -/
def recvPosted (s : State) (k : Qp) : Bool :=
  match s.hpart k.part with
  | some t => t.checks.cls != 0 || t.checks.serve || !t.peers.isEmpty || t.partner.isSome || t.joiner.isSome
  | none => false

/-- A write's payload, by its memory key: device memory, or a doorbell of 4 bytes. -/
def placeWrite (s : State) (p q : Nat) (k : Qp) (a : Nat) (bytes : List Byte) : State :=
  if mbxBase ≤ a ∧ a < mbxBase + 0x40000 then
    let r := (a - mbxBase) / 16
    if bytes.length = 4 ∧ a % 16 < 8 ∧ a % 4 = 0 then
      s.setQp q { k with bells := k.bells ++ [(r, a % 16 == 4, (wordOfBytes bytes).toNat)] }
    else s
  else portWrite s p q k a bytes

/-- A READ taken: the first range is read first, the others once it has come (R521). -/
def startRead (s : State) (p q : Nat) (k : Qp) (psn a n : Nat) : State :=
  let s1 := s.setQp q { k with reads := k.reads ++ [⟨psn, a, n, [], false⟩] }
  match pieces512 a n with
  | [] => s1
  | e :: _ => portRead s1 p q k e.1 e.2

/-- Packets of the response to a READ. -/
def readPackets (k : Qp) (n : Nat) : Nat := max 1 ((n + k.mtu - 1) / k.mtu)

/-- A request with the expected PSN (R479): operation, key, receive buffer, then its effect. -/
def roceExecute (s : State) (p q : Nat) (k : Qp) (x : RocePkt) : State :=
  let op := x.op.toNat
  let psn := x.psn.toNat
  if 12 < op then nakFatal s q k psn 1
  else if op ≤ 5 then
    if (op = 0 ∨ op = 4 ∨ op = 5) ∧ !recvPosted s k then sendAck s k psn 0x2C
    else accepted s q 1 psn x.ackReq
  else if op = 12 then
    if !keyOk s k x.rkey x.va.toNat x.dmaLen.toNat false then portErr (nakFatal s q k psn 2) p 10 0 1
    else if x.dmaLen = 0#32 then accepted s q 1 psn true
    else
      let s1 := startRead s p q k psn x.va.toNat x.dmaLen.toNat
      match s1.qp q with
      | some k1 => s1.setQp q { k1 with epsn := (k1.epsn + readPackets k x.dmaLen.toNat) % 16777216, nakSent := false }
      | none => s1
  else
    let first := op = 6 ∨ op = 10 ∨ op = 11
    if first ∧ !keyOk s k x.rkey x.va.toNat x.dmaLen.toNat true then portErr (nakFatal s q k psn 2) p 10 0 1
    else
      let w : Option (Nat × Nat) := if first then some (x.va.toNat, x.dmaLen.toNat) else k.wrAt
      match w with
      | none => nakFatal s q k psn 1
      | some (a, left) =>
        let n := x.payload.length
        if left < n then nakFatal s q k psn 1
        else
          let k1 : Qp := { k with wrAt := if op = 6 ∨ op = 7 then some (a + n, left - n) else none }
          accepted (placeWrite (s.setQp q k1) p q k1 a x.payload) q 1 psn x.ackReq

/-- A duplicate (R480): writes and sends are acknowledged, a READ is executed again. -/
def roceDuplicate (s : State) (p q : Nat) (k : Qp) (x : RocePkt) : State :=
  if x.op.toNat = 12 ∧ keyOk s k x.rkey x.va.toNat x.dmaLen.toNat false then startRead s p q k x.psn.toNat x.va.toNat x.dmaLen.toNat
  else sendAck s k ((k.epsn + 16777215) % 16777216) 31

/-- A packet marked CE (R475). -/
def noteCe (s : State) (p q : Nat) (k : Qp) : State :=
  let s1 := portErr s p 12 0 1
  let due := match k.cnpAt with
    | some t => decide (t + cnpCyc ≤ s.now)
    | none => true
  if due then portErr (sendFrame (s1.setQp q { k with cnpAt := some s.now }) p k.prio 78) p 12 1 1 else s1

/-- A RoCEv2 packet at a port (R477 to R483). -/
def rocePacket (s0 : State) (p : Nat) (x : RocePkt) : State :=
  if portState s0 p ≠ poUp then s0
  else
    let s := drainBuffer s0 p x.prio.toNat x.len
    let q := x.qpn.toNat
    if q = 1 then s
    else match s.qp q with
      | none => portErr s p 7 0 1
      | some k =>
        if k.err ∨ k.port ≠ p ∨ x.src.toNat ≠ k.remote then portErr s p 7 0 1
        else if !x.icrcOk then portErr s p 8 0 1
        else
          let s1 := if x.ce then noteCe s p q k else s
          match s1.qp q with
          | none => s1
          | some k1 =>
            let op := x.op.toNat
            if 13 ≤ op ∧ op ≤ 18 then
              (if op = 17 then takeAck s1 q k1 x.psn.toNat x.aeth.toNat else ackUpTo s1 q k1 x.psn.toNat)
            else if x.psn.toNat = k1.epsn then roceExecute s1 p q k1 x
            else if psnAhead x.psn.toNat k1.epsn < 8388608 then roceDuplicate s1 p q k1 x
            else
              let s2 := portErr s1 p 9 0 1
              if k1.nakSent then s2 else sendAck (s2.setQp q { k1 with nakSent := true }) k1 k1.epsn 96

/-! ### Answers from the service network -/

/-- The frames of a READ's response leave; or the NAK where a payload failed its check (R485). -/
def finishRead (s : State) (q : Nat) (k : Qp) (j : ReadJob) : State :=
  let k1 : Qp := { k with reads := k.reads.drop 1 }
  if j.bad then (sendAck (s.setQp q k1) k1 j.psn 99).record ⟨.crcFour, k.port, [q]⟩
  else
    let n := readPackets k j.len
    let s1 := (List.range n).foldl (fun a i =>
      sendFrame a k.port k.prio (roceFrame (if i = 0 ∨ i + 1 = n then 4 else 0) (min k.mtu (j.len - i * k.mtu)))) (s.setQp q k1)
    let bytes := (pieces512 j.addr j.len).flatMap fun e => mgetD j.got e.1 []
    s1.answer 0 (wordsOfBytes bytes ((bytes.length + 3) / 4))

/-- One range of a READ has come (R521). -/
def readAnswer (s : State) (q : Nat) (k : Qp) (a : Nat) (bad : Bool) (data : List Byte) : State :=
  match k.reads with
  | [] => s
  | j :: rest =>
    let j1 : ReadJob := { j with got := mset j.got a data, bad := j.bad || bad }
    let k1 : Qp := { k with reads := j1 :: rest }
    let ps := pieces512 j.addr j.len
    if j1.got.length = ps.length then finishRead (s.setQp q k1) q k1 j1
    else if j.got.isEmpty then (ps.drop 1).foldl (fun a1 e => portRead a1 k.port q k1 e.1 e.2) (s.setQp q k1)
    else s.setQp q k1

/-- A response at a port: a WR answered CRC is sent again up to 3 times; acknowledgements owed leave when no request of the
queue pair is outstanding (R484, R485, R545). -/
def portAnswer (s : State) (p tag status : Nat) (data : List Byte) : State :=
  let po := s.port p
  match po.reqs.find? (fun r => r.tag == tag), po.resend.find? (fun e => e.1.tag.toNat == tag) with
  | some r, some e =>
    if r.arg = 0 ∧ status = stCrc ∧ e.2 < 3 then
      (s.setPort p { po with resend := po.resend.map fun x => if x.1.tag.toNat == tag then (x.1, x.2 + 1) else x }).putNet e.1
    else
      let s1 := s.setPort p { po with reqs := po.reqs.filter fun x => x.tag != tag, resend := po.resend.filter fun x => x.1.tag.toNat != tag }
      match s1.qp r.what with
      | none => s1
      | some k =>
        if k.err then s1
        else if r.arg = 1 then readAnswer s1 r.what k e.1.addr.toNat (status != stOk) data
        else if status ≠ stOk then
          (sendAck (s1.setQp r.what { k with owed := [] }) k (k.owed.headD k.epsn) 99).record ⟨.crcFour, p, [r.what]⟩
        else if qpBusy s1 k r.what then s1
        else k.owed.foldl (fun a psn => sendAck a k psn 31) (s1.setQp r.what { k with owed := [] })
  | _, _ => s

end Sys2Proof.Machine
end

