-- ==== Sys2Proof/Machine/TimebaseBase.lean ====
section
/-! DEFINITION. The map from device time to PTP time, the state of the timebase and frame clocks (R430 to R445). -/

namespace Sys2Proof.Machine

/-- Offsets of timebase registers (R454). -/
def tStatus : Nat := 0x10000
def tCfg : Nat := 0x10004
def tPorts : Nat := 0x10008
def tThr : Nat := 0x1000C
def tHold : Nat := 0x10010
def tCount : Nat := 0x10014
def tOffset : Nat := 0x1003C
def tErr : Nat := 0x10040
def tGmLo : Nat := 0x10044
def tGmHi : Nat := 0x10048
def tClk (k r : Nat) : Nat := 0x10100 + 0x20 * k + r

/-- States of the timebase (R437). -/
def tUnset : Nat := 0
def tAcquiring : Nat := 1
def tLocked : Nat := 2
def tHoldover : Nat := 3
def tAdrift : Nat := 4

def tState (s : State) : Nat := fld (wReg s tStatus) 2 0
def setTState (s : State) (v : Nat) : State := wFld s tStatus 2 0 v

/-- 2^40, and cyc in one second (R13, R432). -/
def two40 : Nat := 1099511627776
def secondCyc : Nat := 1600000000

/-- Device time: the model's clock, which starts in the cycle the root PLL locks (R430, log entry 1). -/
def devTime (s : State) : Nat := s.now

/-- The map's value at a device time, in units of 2^-40 ns (R432). -/
def mapAt (t : Timebase) (d : Nat) : Int := t.p0 + ((d : Int) - (t.d0 : Int)) * (t.rate : Int)

/-- The same in whole ns. -/
def mapNs (t : Timebase) (d : Nat) : Int := mapAt t d / (two40 : Int)

/-- The smallest device time whose map value is at least T ns (R432). -/
def devOf (t : Timebase) (ns : Int) : Nat :=
  let x := ns * (two40 : Int) - t.p0
  (((t.d0 : Int) - ((-x) / (t.rate : Int)))).toNat

/-! ### Frame clocks (R442 to R445) -/

def clkNum (s : State) (k : Nat) : Nat := fld (wReg s (tClk k 0)) 17 0
def clkDen (s : State) (k : Nat) : Nat := fld (wReg s (tClk k 4)) 15 0
def clkLines (s : State) (k : Nat) : Nat := fld (wReg s (tClk k 8)) 13 0
def clkOn (s : State) (k : Nat) : Bool := bit (wReg s (tClk k 8)) 31

/-- The PTP time at which line number N begins, N = F * LINES + l (R444). -/
def lineNs (num den lines n : Nat) : Nat := n * den * 1000000000 / (num * lines)

/-- The number of the latest line that has begun at a PTP time (R444). -/
def lineAt (num den lines ns : Nat) : Nat := ((ns + 1) * (num * lines) - 1) / (den * 1000000000)

/-- Line number of clock k under the map at the present device time. -/
def clkLineNow (s : State) (k : Nat) : Nat := lineAt (clkNum s k) (clkDen s k) (clkLines s k) (mapNs s.tmb (devTime s)).toNat

def clkPos (s : State) (k : Nat) : FrameClk := mgetD s.tmb.clocks k ⟨0, 0, false⟩

/-- A frame clock's registers follow its position (R445, R454). -/
def putClk (s : State) (k : Nat) (c : FrameClk) : State :=
  let s1 : State := { s with tmb := { s.tmb with clocks := mset s.tmb.clocks k c } }
  let s2 := wSet (wSet (wSet s1 (tClk k 0xC) (BitVec.ofNat 32 c.frame)) (tClk k 0x10) (BitVec.ofNat 32 (c.frame / 2 ^ 32)))
    (tClk k 0x14) (BitVec.ofNat 32 c.line)
  wFld s2 (tClk k 0x18) 0 0 (if c.held then 1 else 0)

/-- A running clock brought to the present: it reports the frame and line of device time, never an earlier pair; a step
over whole frames counts them as skipped (R445). -/
def clkUpdate (stepped : Bool) (s : State) (k : Nat) : State :=
  if clkOn s k ∧ clkLines s k ≠ 0 ∧ clkNum s k ≠ 0 ∧ clkDen s k ≠ 0 then
    let n := clkLineNow s k
    let f := n / clkLines s k
    let l := n % clkLines s k
    let c := clkPos s k
    if c.frame < f ∨ (c.frame = f ∧ c.line < l) ∨ (c.frame = f ∧ c.line = l ∧ !c.held) then
      let s1 := putClk s k ⟨f, l, false⟩
      if stepped ∧ c.frame + 1 < f then wCount s1 (tClk k 0x18) 31 16 (f - c.frame - 1) else s1
    else putClk s k { c with held := true }
  else s

def clkAll (stepped : Bool) (s : State) : State := (List.range 16).foldl (clkUpdate stepped) s

/-- A write to `tmb.fclkK.lines` (R443): LINES is accepted only while EN is 0; an enable is judged. -/
def clkEnable (s : State) (k : Nat) (val : Word) : State :=
  if clkOn s k then (if bit val 31 then s else wFld s (tClk k 8) 31 31 0)
  else
    let s1 := wFld s (tClk k 8) 13 0 (fld val 13 0)
    if bit val 31 then
      let n := clkNum s1 k
      let d := clkDen s1 k
      let l := clkLines s1 k
      if (tState s1 = tLocked ∨ tState s1 = tHoldover ∨ tState s1 = tAdrift) ∧ 24000 * d ≤ 1001 * n ∧ n ≤ 240 * d ∧
         3 * n * l ≤ 1000000 * d ∧ 1 ≤ n ∧ n ≤ 240000 ∧ 1 ≤ d ∧ d ≤ 65535 ∧ 1 ≤ l ∧ l ≤ 16383 then
        let s2 := wFld s1 (tClk k 8) 31 31 1
        let m := clkLineNow s2 k
        putClk s2 k ⟨m / l, m % l, false⟩
      else wFlag s1 (tClk k 0x18) 2#32
    else s1

/-- A write to NUM or DEN of a frame clock, accepted only while EN is 0 (R443). -/
def clkWrite (s : State) (k r : Nat) (val : Word) : State :=
  if clkOn s k then s
  else if r = 0 then wSet s (tClk k 0) (val &&& 0x3FFFF#32) else wSet s (tClk k 4) (val &&& 0xFFFF#32)

/-! ### Masters and the serving port (R436, R439) -/

/-- The listed ports in order (R439). -/
def listedPorts (s : State) : List Nat :=
  (List.range 8).filterMap fun i =>
    let e := fld (wReg s tPorts) (4 * i + 3) (4 * i)
    if e ≥ 8 then some (e % 8) else none

/-- An interval of 2^log seconds in cyc. -/
def logCyc (log : Int) : Nat := if log < 0 then secondCyc / 2 ^ (-log).toNat else secondCyc * 2 ^ log.toNat

/-- Masters on a port that are qualified: heard twice (PRESUMED from IEEE 1588-2019, log entry 12), within the receipt timeout that
they announce (R435). -/
def qualified (s : State) (p : Nat) : List Master :=
  (mgetD s.tmb.masters p []).filter fun m => decide (2 ≤ m.heard ∧ s.now ≤ m.lastAnn + m.timeout * logCyc m.annLog)

/-- Lexicographic order of data sets: the smaller is the better master. -/
def dataLt : List Nat → List Nat → Bool
  | a :: x, b :: y => if a < b then true else if b < a then false else dataLt x y
  | _, _ => false

/-- The best master of a port (R435). -/
def bestMaster (s : State) (p : Nat) : Option Master :=
  (qualified s p).foldl (fun b m => match b with
    | none => some m
    | some c => if dataLt m.dataset c.dataset then some m else b) none

/-- The first listed port with a qualified master whose Syncs have not lapsed (R439). -/
def firstPort (s : State) : Option Nat := (listedPorts s).find? fun p => !(qualified s p).isEmpty && !s.tmb.silent.contains p

/-- A master's entry changed. -/
def updMaster (t : Timebase) (p ident : Nat) (f : Master → Master) : Timebase :=
  { t with masters := mset t.masters p ((mgetD t.masters p []).map fun m => if m.ident = ident then f m else m) }

/-- `tmb.gm` set to a master; GM_CHANGE where another served before, be it before a whole-device reset (R439, R454). -/
def setGm (s : State) (ident : Nat) : State :=
  let s1 : State := { s with tmb := { s.tmb with gm := some ident } }
  let s2 := wSet (wSet s1 tGmLo (BitVec.ofNat 32 ident)) tGmHi (BitVec.ofNat 32 (ident / 2 ^ 32))
  if s.tmb.gm.any fun g => g != ident then wFlag s2 tStatus 0x200#32 else s2

/-! ### Discipline (R433, R438 to R441) -/

/-- The largest of a list. -/
def maxOf (l : List Nat) : Nat := l.foldl max 0

/-- |x| in whole ns, rounded up, for a bound. -/
def absNsUp (x : Int) : Nat := (x.natAbs + two40 - 1) / two40

/-- Timestamp uncertainty of a port's mode in ns (R486). -/
def portUncertainty (s : State) (p : Nat) : Nat :=
  match (mgetD s.ports p Port.reset).mode % 3 with
  | 0 => 4
  | 1 => 6
  | _ => 10

/-- ERR with saturation (R441). -/
def putErr (s : State) (v : Nat) : State := wSet s tErr (BitVec.ofNat 32 (min v 0xFFFFFFFF))

/-- ERR for the present state (R441). -/
def errNow (s : State) : Nat :=
  let t := s.tmb
  let st := tState s
  if st ≤ tAcquiring then 0xFFFFFFFF
  else if st = tLocked then maxOf t.offs + portUncertainty s (t.serving.getD 0)
  else if t.ppsOn then t.errBase + maxOf t.ppsOffs + 5
  else t.errBase + (roundFree s.free (100 * (devTime s - t.errFrom : Nat) : Int) secondCyc).toNat

/-- ERR recomputed. -/
def recomputeErr (s : State) : State := (putErr s (errNow s)).takeFree 1

/-- The measured rate of the root PLL: the least-squares slope over the Syncs kept, as a ratio of 2^-40 ns to cyc; the present
rate where they give no slope (R433). -/
def measuredRate (t : Timebase) : Int × Nat :=
  let n : Int := (t.syncs.length : Int)
  let d (p : Nat × Int) : Int := (p.1 : Int)
  let sd := t.syncs.foldl (fun a p => a + d p) 0
  let sp := t.syncs.foldl (fun a p => a + p.2) 0
  let sdp := t.syncs.foldl (fun a p => a + d p * p.2) 0
  let sdd := t.syncs.foldl (fun a p => a + d p * d p) 0
  let den := n * sdd - sd * sd
  if den > 0 then ((n * sdp - sd * sp) * (two40 : Int), den.toNat) else ((t.rate : Int), 1)

/-- The smaller, and the larger, of two ratios. -/
def ratMin (a b : Int × Nat) : Int × Nat := if a.1 * (b.2 : Int) ≤ b.1 * (a.2 : Int) then a else b
def ratMax (a b : Int × Nat) : Int × Nat := if a.1 * (b.2 : Int) ≤ b.1 * (a.2 : Int) then b else a

/-- RATE of a slew: E plus the offset over 1 s, clamped to 50 ppm of E and 200 ppm of the nominal rate (R433). -/
def slewRate (t : Timebase) (off40 : Int) (fr : Nat) : Nat :=
  let e := measuredRate t
  let r : Int × Nat := (e.1 * (secondCyc : Int) + off40 * (e.2 : Int), e.2 * secondCyc)
  let ppm (x : Int × Nat) (k : Int) : Int × Nat := (x.1 * (1000000 + k), x.2 * 1000000)
  let nom : Int × Nat := (0xA000000000, 1)
  let r1 := ratMax (ratMin r (ppm e 50)) (ppm e (-50))
  let r2 := ratMax (ratMin r1 (ppm nom 200)) (ppm nom (-200))
  (roundFree fr r2.1 r2.2).toNat

/-- The Syncs of the last 16 s, with a new one. -/
def keepSync (l : List (Nat × Int)) (d : Nat) (p : Int) : List (Nat × Int) :=
  (l.filter fun q => decide (d ≤ q.1 + 16 * secondCyc)) ++ [(d, p)]

/-- STEP_THR in 2^-40 ns, and whether an offset steps the map (R433). -/
def stepsMap (s : State) (off40 : Int) : Bool :=
  bit (wReg s tCfg) 9 && decide (off40.natAbs > fld (wReg s tThr) 31 16 * 1000 * two40)

/-- A map correction for an offset measured at the present device time against PTP time `ptp` (R433). -/
def correct (s : State) (off40 : Int) (ptp : Int) : State :=
  let d := devTime s
  let t0 : Timebase := { s.tmb with syncs := keepSync s.tmb.syncs d ptp }
  if stepsMap s off40 then
    let s1 : State := { s with tmb := { t0 with p0 := t0.p0 + off40 } }
    clkAll true (wCount (wFlag s1 tStatus 0x100#32) tStatus 31 16 1)
  else
    let t1 : Timebase := { t0 with d0 := d, p0 := mapAt t0 d, rate := slewRate t0 off40 s.free }
    clkAll false ({ s with tmb := t1 }.takeFree 1)

/-- The latest 16 of a list. -/
def last16 (l : List Nat) (x : Nat) : List Nat := let m := l ++ [x]; m.drop (m.length - 16)

/-- A valid Sync of the serving port: the offset measured, the map corrected, the state advanced (R433, R438, R441). -/
def applySync (s0 : State) (p : Nat) (t1 : Nat) : State :=
  let s := clkAll false s0
  let d := devTime s
  let t := s.tmb
  let ptp : Int := (t1 : Int) + t.delay
  let off40 := ptp * (two40 : Int) - mapAt t d
  let small := decide (off40.natAbs ≤ fld (wReg s tThr) 15 0 * two40)
  let run := if small then t.small + 1 else 0
  let s1 : State :=
    if t.isSet then correct s off40 ptp
    else { s with tmb := { t with p0 := t.p0 + off40, isSet := true, syncs := keepSync t.syncs d ptp } }
  let s2 : State := { s1 with tmb := { s1.tmb with
      small := run, offs := last16 t.offs (absNsUp off40), t1 := (t1 : Int), t2 := mapNs s1.tmb d, errFrom := d
      ppsOn := false, errBase := if tState s = tLocked then maxOf (last16 t.offs (absNsUp off40)) + portUncertainty s p else t.errBase } }
  let s3 := (wSet s2 tOffset (satReg32 (roundFree s2.free off40 two40))).takeFree 1
  let s4 := wFld (wFld s3 tStatus 4 3 1) tStatus 7 5 p
  let s5 : State := if 16 ≤ run ∧ (tState s = tAcquiring ∨ tState s = tHoldover ∨ tState s = tAdrift) then
      { setTState s4 tLocked with tmb := { s4.tmb with held := 0, heldFrom := none } }
    else s4
  recomputeErr s5

end Sys2Proof.Machine
end

