-- ==== Sys2Proof/Machine/Timebase.lean ====
section
/-! DEFINITION. The commands of the timebase (R430 to R455). -/

namespace Sys2Proof.Machine

/-- A PTP message ignored and counted (R436). -/
def ptpDrop (s : State) : State := wCount s tCount 15 0 1

/-- Whether a message's domain is ours (R435, R436). -/
def ptpDomain (s : State) (dom : Nat) : Bool := fld (wReg s tCfg) 7 0 == dom

/-- The present port and master take over at a valid Sync (R439). -/
def servePort (s : State) (p ident : Nat) : State :=
  let s1 := setGm s ident
  { s1 with tmb := { s1.tmb with serving := some p } }

/-- Whether the best master of port p is `ident`. -/
def isBest (s : State) (p ident : Nat) : Bool :=
  match bestMaster s p with
  | some m => m.ident == ident
  | none => false

/-- PTP_SYNC: a Sync with origin time t1 (R433, R436, R438, R439). -/
def execPtpSync (p : PortId) (domain : BitVec 8) (ident : BitVec 64) (log : Int) (twoStep : Bool) (t1 : Nat) (s : State) :
    Host.Outcome State Fault Refusal :=
  if ¬ (listedPorts s).contains p.val then .next s
  else if ¬ ptpDomain s domain.toNat ∨ ¬ isBest s p.val ident.toNat ∨ log < -7 ∨ -1 < log then .next (ptpDrop s)
  else
    let t0 := updMaster s.tmb p.val ident.toNat fun m => { m with syncLog := log, lastSync := s.now }
    let s1 : State := { s with tmb := { t0 with silent := t0.silent.erase p.val } }
    let goal := firstPort s1
    if goal ≠ some p.val ∧ s1.tmb.serving ≠ some p.val then .next s1
    else
      let s2 := if goal = some p.val then servePort s1 p.val ident.toNat else s1
      if twoStep then .next { s2 with tmb := { s2.tmb with twoStep := some (p.val, ident.toNat, s2.now) } }
      else .next (applySync s2 p.val t1)

/-- FOLLOW_UP: the precise origin time of a two-step Sync, whose offset is that at the Sync's receipt (R435). -/
def execFollowUp (p : PortId) (domain : BitVec 8) (ident : BitVec 64) (t : Nat) (s : State) : Host.Outcome State Fault Refusal :=
  if ¬ (listedPorts s).contains p.val then .next s
  else if ¬ ptpDomain s domain.toNat ∨ ¬ isBest s p.val ident.toNat then .next (ptpDrop s)
  else match s.tmb.twoStep with
    | some (q, i, d) =>
      if q = p.val ∧ i = ident.toNat then
        -- the origin time carried on to the present by the map's rate
        let late := (((s.now - d) * s.tmb.rate : Nat) : Int) / (two40 : Int)
        .next (applySync { s with tmb := { s.tmb with twoStep := none } } p.val (t + late.toNat))
      else .next s
    | none => .next s

/-- DELAY_REQ: sent on the serving port; its time is noted (R435, R436). -/
def execDelayReq (s : State) : Host.Outcome State Fault Refusal :=
  match s.tmb.serving with
  | some _ => .next { s with tmb := { s.tmb with t3 := some (mapNs s.tmb (devTime s)) } }
  | none => .next s

/-- DELAY_RESP: the master's time of a Delay_Req gives the mean path delay of the end-to-end mechanism: half of the Sync's
travel time and the request's together (R435, IEEE 1588-2019, log entry 12). -/
def execDelayResp (p : PortId) (domain : BitVec 8) (ident : BitVec 64) (t : Nat) (s : State) : Host.Outcome State Fault Refusal :=
  if ¬ (listedPorts s).contains p.val then .next s
  else if ¬ ptpDomain s domain.toNat ∨ ¬ isBest s p.val ident.toNat then .next (ptpDrop s)
  else if s.tmb.serving ≠ some p.val then .next s
  else match s.tmb.t3 with
    | some t3 =>
      let d := roundFree s.free ((s.tmb.t2 - s.tmb.t1) + ((t : Int) - t3)) 2
      .next ({ s with tmb := { s.tmb with t3 := none, delay := d } }.takeFree 1)
    | none => .next s

/-- ANNOUNCE: the best master algorithm runs on every listed port; a master qualified on the first port ends UNSET (R435,
R436, R438). -/
def execAnnounce (p : PortId) (domain : BitVec 8) (a : Announce) (s : State) : Host.Outcome State Fault Refusal :=
  if ¬ (listedPorts s).contains p.val then .next s
  else if ¬ ptpDomain s domain.toNat ∨ a.log < -3 ∨ 1 < a.log then .next (ptpDrop s)
  else
    let l := mgetD s.tmb.masters p.val []
    let data := [a.prio1.toNat, a.cls.toNat, a.accuracy.toNat, a.variance.toNat, a.prio2.toNat, a.ident.toNat, a.steps.toNat]
    let old := l.find? fun m => m.ident == a.ident.toNat
    let m : Master := { ident := a.ident.toNat, dataset := data, annLog := a.log, timeout := max 3 a.timeout
                        heard := (match old with
                          | some o => if s.now ≤ o.lastAnn + 4 * logCyc a.log then o.heard + 1 else 1
                          | none => 1)
                        lastAnn := s.now
                        syncLog := (old.map Master.syncLog).getD 0, lastSync := (old.map Master.lastSync).getD s.now }
    let s1 : State := { s with tmb := { s.tmb with
      masters := mset s.tmb.masters p.val ((l.filter fun q => q.ident != a.ident.toNat) ++ [m]) } }
    if tState s1 = tUnset ∧ (firstPort s1).isSome then
      .next (wSet (setTState s1 tAcquiring) tErr 0xFFFFFFFF#32)
    else .next s1

/-- The state left when no listed port has a master: LOCKED becomes HOLDOVER (R438, R441). -/
def loseMasters (s : State) : State :=
  if (firstPort s).isSome then s
  else
    let s1 := wFld s tStatus 4 3 0
    if tState s = tLocked then
      recomputeErr { setTState s1 tHoldover with tmb := { s1.tmb with
        held := 0, heldFrom := some s1.now, small := 0, errBase := (wReg s tErr).toNat, errFrom := s1.now } }
    else s1

/-- SERVING_PORT_MOVE: the serving port loses its master: its link (0), the announce receipt timeout (1) or three Sync intervals without
a valid Sync (2); the move itself waits for the next valid Sync on the new port (R439). -/
def execServingPortMove (why : Fin 3) (s : State) : Host.Outcome State Fault Refusal :=
  match s.tmb.serving with
  | none => .next s
  | some p =>
    if why = 0 then .next (loseMasters { s with tmb := { s.tmb with masters := mset s.tmb.masters p [], silent := s.tmb.silent.erase p } })
    else
      match bestMaster s p with
      | none => .next (loseMasters s)
      | some m =>
        if why = 1 then .next (loseMasters (s.reach (m.lastAnn + m.timeout * logCyc m.annLog + 1)))
        else
          let s1 := s.reach (m.lastSync + 3 * logCyc m.syncLog)
          .next (loseMasters { s1 with tmb := { s1.tmb with silent := keyAdd s1.tmb.silent p } })

/-- HOLDOVER_LIMIT: HOLDOVER has lasted HOLD_MAX seconds (R438, R440). -/
def execHoldoverLimit (s : State) : Host.Outcome State Fault Refusal :=
  match s.tmb.heldFrom with
  | none => .next s
  | some f =>
    if tState s ≠ tHoldover then .next s
    else
      let s1 := s.reach (f + (fld (wReg s tHold) 15 0 * secondCyc - s.tmb.held))
      .next (recomputeErr { setTState s1 tAdrift with tmb := { s1.tmb with heldFrom := none } })

/-- PPS_EDGE: a rising edge at the present device time (R440). -/
def execPpsEdge (s : State) : Host.Outcome State Fault Refusal :=
  if ¬ bit (wReg s tCfg) 10 ∨ (tState s ≠ tHoldover ∧ tState s ≠ tAdrift) then .next s
  else
    let d := devTime s
    let at40 := mapAt s.tmb d
    let unit : Int := 1000000000 * (two40 : Int)
    let sec := (at40 + unit / 2) / unit
    let off40 := sec * unit - at40
    if off40.natAbs ≤ fld (wReg s tHold) 31 16 * 1000 * two40 then
      let t := s.tmb
      let used := match t.heldFrom with
        | some f => t.held + (s.now - f)
        | none => t.held
      let s1 : State := { s with tmb := { t with
        ppsOn := true, ppsLast := s.now, ppsOffs := if t.ppsOn then last16 t.ppsOffs (absNsUp off40) else [absNsUp off40]
        held := used, heldFrom := none } }
      let s2 := wFld (correct s1 off40 (sec * 1000000000)) tStatus 4 3 2
      let s3 := (wSet s2 tOffset (satReg32 (roundFree s2.free off40 two40))).takeFree 1
      .next (recomputeErr { s3 with tmb := { s3.tmb with errFrom := s3.now } })
    else .next (wCount (wFlag s tStatus 0x400#32) tCount 31 16 1)

/-- PPS_LAPSE: 2 s without an accepted edge (R440, R441). -/
def execPpsLapse (s : State) : Host.Outcome State Fault Refusal :=
  if ¬ s.tmb.ppsOn then .next s
  else
    let s1 := s.reach (s.tmb.ppsLast + 2 * secondCyc)
    let s2 : State := { s1 with tmb := { s1.tmb with
      ppsOn := false, heldFrom := if tState s1 = tHoldover then some s1.now else none
      errBase := (wReg s1 tErr).toNat, errFrom := s1.tmb.ppsLast } }
    .next (recomputeErr (wFld s2 tStatus 4 3 0))

/-- ERR_RECOMPUTE (R441). -/
def execErrRecompute (s : State) : Host.Outcome State Fault Refusal := .next (recomputeErr s)

/-- The number of a target: region, or 1,000 + stack. -/
def alignTarget (isStack : Bool) (u : Nat) : Nat := if isStack then 1000 + u else u

/-- ALIGNMENT_WORD: a copy of device time more than 2 cyc off sets SKEW, with a RECORD (R431). -/
def execAlignmentWord (isStack : Bool) (unit : Nat) (skew : Int) (s : State) : Host.Outcome State Fault Refusal :=
  let u := alignTarget isStack unit
  if skew.natAbs > 2 then
    .next (({ wFlag s tStatus 0x800#32 with tmb := { s.tmb with lost := keyAdd s.tmb.lost u } }).record ⟨.skew, u, []⟩)
  else .next { s with tmb := { s.tmb with lost := keyDel s.tmb.lost u } }

/-- FRAME_CLOCK_ENABLE: a write to `tmb.fclkK.lines` (R443). -/
def execFrameClockEnable (k : Fin 16) (val : Word) (s : State) : Host.Outcome State Fault Refusal :=
  .next (clkEnable s k.val val)

/-- LINE_START: device time reaches the clock's next line (R444, R445). -/
def execLineStart (k : Fin 16) (s : State) : Host.Outcome State Fault Refusal :=
  if ¬ clkOn s k.val ∨ clkLines s k.val = 0 then .next s
  else
    let c := clkPos s k.val
    let n := c.frame * clkLines s k.val + c.line + 1
    let s1 := s.reach (devOf s.tmb (lineNs (clkNum s k.val) (clkDen s k.val) (clkLines s k.val) n))
    .next (clkUpdate false s1 k.val)

/-- The targets of an event that R447 counts: a region's bank, or a partition. -/
def sameTarget : BookKind → BookKind → Bool
  | .launch p, .launch q => p == q
  | .notice r _, .notice q _ => r == q
  | _, _ => false

/-- Whether the timebase takes a booking: a lead of 4,096 cyc, at most 16 events for a target, and a launch at a multiple of
4,096 (R446, R447). -/
def bookOk (s : State) (k : BookKind) (time : Nat) : Bool :=
  decide (s.now + 4096 ≤ time) && decide ((s.tmb.events.filter fun e => sameTarget e.kind k).length < 16) &&
  match k with
  | .launch _ => time % 4096 == 0
  | .notice _ _ => true

/-- A booking: taken with a number, or refused (R447). -/
def bookEvent (s : State) (k : BookKind) (time : Nat) : State :=
  if bookOk s k time then
    { s with tmb := { s.tmb with events := s.tmb.events ++ [⟨s.tmb.nextEv, k, time⟩], nextEv := s.tmb.nextEv + 1 } }
  else s

/-- EVENT_BOOK (R446, R447): the answer is 0 and the event's number, or 1 where it is refused. -/
def execEventBook (k : BookKind) (time : Nat) (s : State) : Host.Outcome State Fault Refusal :=
  if bookOk s k time then .next ((bookEvent s k time).answer 0 [BitVec.ofNat 32 s.tmb.nextEv])
  else .next (s.answer 1 [])

/-- EVENT_CANCEL: until 4,096 cyc before the event's time (R449). -/
def execEventCancel (id : Nat) (s : State) : Host.Outcome State Fault Refusal :=
  match s.tmb.events.find? fun e => e.id == id with
  | none => .next (s.answer 1 [])
  | some e =>
    if s.now + 4096 ≤ e.time then
      .next ({ s with tmb := { s.tmb with events := s.tmb.events.filter fun x => x.id != id } }.answer 0 [])
    else .next (s.answer 1 [])

/-- SNAP: D0, P0 and RATE copied as one map (R454, R455). -/
def snapMap (s : State) : State :=
  let t := s.tmb
  let p0 : Nat := (t.p0 / (two40 : Int)).toNat
  let w (o : Nat) (v : Nat) (st : State) : State := wSet st o (BitVec.ofNat 32 v)
  w 0x10038 (t.rate / 2 ^ 32) (w 0x10034 t.rate (w 0x10030 (p0 / 2 ^ 32) (w 0x1002C p0 (w 0x10028 (t.d0 / 2 ^ 32) (w 0x10024 t.d0 s)))))

def execSnap (s : State) : Host.Outcome State Fault Refusal := .next (snapMap s)

end Sys2Proof.Machine
end

