-- ==== Sys2Proof/Machine/Timeline.lean ====
section
/-! DEFINITION. Requests on a partition's timeline: predictions, bookings, launches and barriers of cores, the end of a request
(R279 to R285, R446 to R453, R518, R519, R526 to R529, R576, R642). -/

namespace Sys2Proof.Machine

/-! ### Times -/

/-- The next refresh-frame boundary at or after a device time (R390). -/
def roundUp4096 (t : Nat) : Nat := (t + 4095) / 4096 * 4096

/-- The device time at which a line of a frame begins on a clock (R432, R444, R450). -/
def lineDev (s : State) (c frame line : Nat) : Nat :=
  devOf s.tmb (lineNs (clkNum s c) (clkDen s c) (clkLines s c) (frame * clkLines s c + line))

/-- Frame and line of a device time on a clock that is configured (R444, R518). -/
def frameAt (s : State) (c d : Nat) : Nat × Nat :=
  if clkLines s c = 0 ∨ clkNum s c = 0 ∨ clkDen s c = 0 then (0, 0)
  else
    let n := lineAt (clkNum s c) (clkDen s c) (clkLines s c) (mapNs s.tmb d).toNat
    (n / clkLines s c, n % clkLines s c)

/-- The sections of a plan of an image, in order (R525). -/
def planSecs (img : ProgImage) (plan : Nat) : List SectionInfo :=
  match img.plans[plan]? with
  | none => []
  | some pl => pl.secs.filterMap fun i => img.secs[i]?

/-- Launches and barriers of sections from a launch time on, and the first time at which another launch may follow (R451). -/
def planTimes : List SectionInfo → Nat → List Nat × List Nat × Nat
  | [], t => ([], [], t)
  | x :: r, t =>
    let b := t + x.fin
    let n := planTimes r (roundUp4096 (b + x.reconf))
    (t :: n.1, b :: n.2.1, n.2.2)

/-- The program of a request. -/
def reqImg (s : State) (q : Request) : Option ProgImage := (mget? s.hw.progs q.prog).map Program.img

/-- The sections of a request. -/
def reqSecs (s : State) (q : Request) : List SectionInfo := ((reqImg s q).map fun i => planSecs i q.plan).getD []

/-- The first request with sections still to run. -/
def frontReq (k : Partn) : Option Request := k.reqs.find? fun q => decide (q.ran < q.launches.length)

def sameReq (a b : Request) : Bool := a.ring == b.ring && a.pos == b.pos && a.replay == b.replay

/-- A request of a partition replaced. -/
def updReq (k : Partn) (q : Request) : Partn := { k with reqs := k.reqs.map fun r => if sameReq r q then q else r }

/-! ### Bookings -/

/-- Whether launches are withheld: a halt, a hold, heat, a pollard request, an admission. -/
def withheld (k : Partn) : Bool :=
  k.haltAt.isSome || k.halted || k.recov != 0 || k.heldJob || k.heat || k.standing || k.holdAt.isSome || k.closing.isSome

/-- The notices of a section that launches at time t, one for each listed step (R642). -/
def bookNotices (s : State) (k : Partn) (x : SectionInfo) (t : Nat) : State :=
  x.steps.foldl (fun a e =>
    match (partRegions k)[e.1]? with
    | none => a
    | some l =>
      let at1 := t + e.2.1 - 3200
      let kind : BookKind := .notice (Fin.ofNat 48 (physOf a l)) e.2.2
      if s.now + 8192 ≤ at1 ∧ !(a.tmb.events.any fun b => b.kind == kind && b.time == at1) then bookEvent a kind at1 else a) s

/-- The launches of a partition's timeline booked, as far as the timebase takes them (R446, R447). -/
def bookAhead (s : State) (p : Nat) : State :=
  match s.hpart p with
  | none => s
  | some k =>
    if withheld k then s
    else
      (k.reqs.flatMap fun q => (q.launches.zip (reqSecs s q)).drop q.ran).foldl (fun a e =>
        let kind : BookKind := .launch (BitVec.ofNat 12 p)
        if a.tmb.events.any fun b => b.kind == kind && b.time == e.1 then a
        else
          let a1 := bookEvent a kind e.1
          if a1.tmb.nextEv = a.tmb.nextEv then a else bookNotices a1 k e.2 e.1) s

/-- Booked events of a partition cancelled: launches until 4,096 cyc before their time, and notices (R449, R642). -/
def cancelBooked (s : State) (p : Nat) : State :=
  let mine (e : Booked) : Bool := match e.kind with
    | .notice r _ => partOfPhys s r.val == some p
    | .launch q => q.toNat == p && decide (s.now + 4096 ≤ e.time)
  { s with tmb := { s.tmb with events := s.tmb.events.filter fun e => !mine e } }

/-- The launches still to come timed anew from the present (R451, R598). -/
def retime (s : State) (p : Nat) : State :=
  updPart s p fun k =>
    let r := k.reqs.foldl (fun (a : List Request × Nat) q =>
      let n := planTimes ((reqSecs s q).drop q.ran) a.2
      let q1 : Request := { q with launches := q.launches.take q.ran ++ n.1, barriers := q.barriers.take q.ran ++ n.2.1 }
      (a.1 ++ [q1], n.2.2)) ([], roundUp4096 (s.now + 16384))
    { k with reqs := r.1, free := if r.1.isEmpty then k.free else r.2 }

/-! ### The end of a request -/

/-- A buffer's header with its request's SEQ advanced and STATE WRITING (R519). -/
def startWriting (s : State) (q : Request) : State :=
  match mget? s.hw.bufs q.buf with
  | none => s
  | some b => if q.replay.isSome then s else putHeader s b [BitVec.ofNat 32 bWriting, arg (bufHeader s b) 1 + 1#32]

/-- The header of READY or FAILED (R518, R519). -/
def endHeader (s : State) (b : HostBuf) (q : Request) (st len : Nat) (tarn missed : Bool) : List Word :=
  let d := devTime s
  let f := frameAt s (((mget? s.hw.sessions q.sess).map Session.clock).getD 0) d
  let w (n : Nat) : Word := BitVec.ofNat 32 n
  [ w (packFields [(2, st), (1, bnat tarn), (1, bnat missed)]), arg (bufHeader s b) 1, w len, q.tag, w d, w (d / 2 ^ 32),
    w f.1, w (f.1 / 2 ^ 32), w (packFields [(14, f.2), (2, 0), (3, tState s)]) ]

/-- The payload bytes of a request's output. -/
def reqBytes (s : State) (q : Request) : Nat :=
  ((reqImg s q).bind fun i => (i.plans[q.plan]?).map PlanInfo.bytes).getD 0

/-- Whether a request's payload carries tarnish (R551). -/
def reqTarn (s : State) (q : Request) : Bool :=
  match mget? s.hw.bufs q.buf with
  | none => false
  | some b => devTarn s (b.addr + 64) (reqBytes s q)

/-- A request ends: off the timeline, its buffer's header written once the request has launched, its completion owed (R519,
R529, R576). -/
def endRequest (s : State) (p : Nat) (q : Request) (status cause : Nat) (tarn : Bool) : State :=
  let s0 := updPart s p fun k => { k with reqs := k.reqs.filter fun r => !sameReq r q }
  let mine (e : Booked) : Bool := match e.kind with
    | .launch r => r.toNat == p && decide (s.now + 4096 ≤ e.time) && q.launches.contains e.time
    | .notice _ _ => false
  let s1 : State := { s0 with tmb := { s0.tmb with events := s0.tmb.events.filter fun e => !mine e } }
  if q.replay.isSome then s1
  else match mget? s1.hw.bufs q.buf with
  | none => finishCmd s1 q.ring q.pos status 0#32 []
  | some b =>
    let good := decide (status = csOk ∨ status = csMissed)
    let b1 : HostBuf := { b with held := none }
    let s2 : State := { s1 with hw := { s1.hw with bufs := mset s1.hw.bufs q.buf b1 } }
    let len := if good then reqBytes s q else (Config.freeWord s.free).toNat
    let s3 := if q.started then
        (putHeader s2 b1 (endHeader s2 b1 q (if good then bReady else bFailed) len tarn (status == csMissed))).takeFree 1
      else s2
    let h := bufHeader s3 b1
    let cz := if status ≠ csFailed then 0 else if cause = 0 ∧ q.started then 7 else cause
    let checks := BitVec.ofNat 32 (packFields [(8, q.checks / 2 * 2 + bnat tarn), (8, min 255 q.reruns)])
    finishCmd s3 q.ring q.pos status (handleOf s3 hBuffer q.buf)
      [arg h 4, arg h 5, arg h 6, arg h 7, arg h 8, arg h 0, arg h 1, checks, BitVec.ofNat 32 cz]

/-- Every request of a partition that is not READY ends alike (R584, R618, R620). -/
def endRequests (s : State) (p status cause : Nat) : State :=
  match s.hpart p with
  | none => s
  | some k => k.reqs.foldl (fun a q => endRequest a p q status cause false) s

/-- Whether a request has launched, or its launch can no longer be cancelled (R449, R525). -/
def launched (s : State) (q : Request) : Bool := q.started || decide (q.launches.headD 0 < s.now + 4096)

/-- Those that have not launched end with ABORTED (R525, R568). -/
def abortUnlaunched (s : State) (p : Nat) (test : Request → Bool) : State :=
  match s.hpart p with
  | none => s
  | some k => (k.reqs.filter fun q => !launched s q && test q).foldl (fun a q => endRequest a p q csAborted 0 false) s

/-! ### Launches and barriers at a core -/

/-- The barrier steps of R280 at a core and its router in cycle t. -/
def barrierCore (t : Nat) (k0 : Core) : Core :=
  let k := settleCore k0 t
  let nf := (k.flitQ.map fun e => e.2.length).foldl (· + ·) 0 + k.steerOut.length
  let nt := (k.tokQ.map fun e => e.2.length).foldl (· + ·) 0 + (k.localTok.map fun e => e.2.length).foldl (· + ·) 0
  let k1 := staleToks (staleFlits k nf) nt
  let k2 := cSet k1 rFabEpoch (cReg k1 rFabEpoch + 1#32)
  { k2 with flitQ := [], tokQ := [], localTok := [], steerOut := [], outs := [], ins := [], awaiting := true, swapDue := true }

/-- The slot-table banks swapped (R283). -/
def swapBank (k : Core) : Core :=
  if k.swapDue then cFld { k with swapDue := false } rFabTblPer 16 16 (1 - fld (cReg k rFabTblPer) 16 16) else k

/-- A launch that the core applies in cycle t: counts restart, the loop stack empties, issue starts at `ctl.entry`; the three
rows of the entry were fetched before t (R283, R761, R762). -/
def launchCore (t : Nat) (k0 : Core) : Core :=
  let k := swapBank (settleCore k0 t)
  let e := fld (cReg k rCtlEntry) 21 0
  let l := latency k
  let js := [0, 1, 2].filter fun i => decide (128 * (e / 128 + i) < spadEnd)
  let row (i : Nat) : List Byte := spadBytes k.spad (t - l - 3 + i) (128 * (e / 128 + i)) 128
  let k1 := (List.range 4).foldl (fun a i => cSet a (0x3064 + 4 * i) 0#32) (cFld (cFld k rCtlStatus 4 4 0) 0x104 31 16 0)
  let k2 := js.foldl (fun a i => noteReads a 7 (t - l - 3 + i) ((List.range 32).map fun n => (128 * (e / 128 + i) + 4 * n, t - l - 3 + i))) k1
  let k3 : Core := { k2 with launchAt := some t, awaiting := false, sectNext := 0, issued := 0, loops := [], fetches := []
                             idle := k.fenced || k.inReset, rows := js.map fun i => (e / 128 + i, row i) }
  if k3.idle then { k3 with pc := e, nextIssue := t, openAt := none, usedM := false, usedV := false, usedX := false }
  else goTo k3 e t false

/-- Every core of a partition changed alike. -/
def mapPart (s : State) (k : Partn) (f : Core → Core) : State := (partRegions k).foldl (fun a l => mapRegion a l f) s

/-- The epoch of a partition's cores: that of its corner. -/
def partEpoch (s : State) (k : Partn) : Nat :=
  (cReg (s.core (coreAt (16 * k.col0) (16 * k.row0))) rFabEpoch).toNat

/-! ### Channels of a partition -/

/-- A channel restored to a step boundary at both ends: sequence numbers and positions of that boundary, INC + 1, the status word
written (R331). -/
def restoreEnd (t step : Nat) (k : Core) (e : Nat) : Core :=
  let p := epOf k e
  match mget? p.saved step with
  | none => breakEnd k e t
  | some v =>
    let k1 := cSet (cSet k (epReg e epHead) (BitVec.ofNat 32 v.2.1)) (epReg e epTail) (BitVec.ofNat 32 v.2.2)
    let k2 := cFld (cFld k1 (epReg e epCfg) 15 8 (fld (cReg k (epReg e epCfg)) 15 8 + 1)) (epReg e epResult) 31 16 v.1
    let k3 := setEp { k2 with reqs := k2.reqs.filter fun r => !(r.what == reqChannel && r.arg == e) } e
      { p with seq := v.1, posting := none, rx := none }
    if epRole k e = roleRecv then writeStatus k3 e t (if epState k e = chDraining then 1 else 0) else k3

/-- The channels of a partition at a step boundary: recorded where empty (R330). -/
def saveChannel (step : Nat) (s : State) (c : Channel) : State :=
  let a := s.core c.src
  let b := s.core c.dst
  let head := (cReg b (epReg c.rep epHead)).toNat
  let tail := (cReg b (epReg c.rep epTail)).toNat
  if head = tail ∧ (epOf a c.sep).posting.isNone ∧ epState b c.rep ≠ chBroken then
    let s1 := s.setCore c.src (setEp a c.sep { epOf a c.sep with saved := mset (epOf a c.sep).saved step ((epOf a c.sep).seq, 0, 0) })
    let b1 := s1.core c.dst
    s1.setCore c.dst (setEp b1 c.rep { epOf b1 c.rep with
      saved := mset (epOf b1 c.rep).saved step (fld (cReg b (epReg c.rep epResult)) 31 16, head, tail) })
  else s

/-- A channel on a rollback: restored, or broken and reported (R331, R531). -/
def rollChannel (step : Nat) (s : State) (e : Nat × Channel) : State :=
  let c := e.2
  if epState (s.core c.src) c.sep = chBroken then s
  else
    let ok := (mget? (epOf (s.core c.src) c.sep).saved step).isSome && (mget? (epOf (s.core c.dst) c.rep).saved step).isSome
    let s1 := s.setCore c.src (restoreEnd s.now step (s.core c.src) c.sep)
    let s2 := s1.setCore c.dst (restoreEnd s1.now step (s1.core c.dst) c.rep)
    if ok then s2
    else
      let s3 := raiseEvent s2 evChannelBroken c.part (handleOf s2 hChannel e.1) [3#32]
      { s3 with hw := { s3.hw with chans := mset s3.hw.chans e.1 { c with told := true } } }

/-- Channels with an endpoint on one of some cores break, with a cause (R329, R531). -/
def breakOn (s : State) (hit : Nat → Bool) (cause : Nat) : State :=
  (s.hw.chans.filter fun e => (hit e.2.src || hit e.2.dst) && !e.2.told).foldl (fun a e =>
    let c := e.2
    let a1 := breakChannel a c.src c.sep
    let a2 := raiseEvent a1 evChannelBroken c.part (handleOf a1 hChannel e.1) [BitVec.ofNat 32 cause]
    { a2 with hw := { a2.hw with chans := mset a2.hw.chans e.1 { c with told := true } } }) s

end Sys2Proof.Machine
end

