-- ==== Sys2Proof/Machine/JobsBase.lean ====
section
/-! DEFINITION. Recovery: messages between modules, quenches, halts, rollbacks, fences, patina, module faults (R565, R580 to R584,
R597, R598, R604, R612 to R620, R625). -/

namespace Sys2Proof.Machine

/-! ### Messages (R565, R615, R720) -/

/-- A number as little-endian bytes. -/
def bytesLe (n v : Nat) : List Byte := (List.range n).map fun i => BitVec.ofNat 8 (v / 256 ^ i)

/-- Bytes [a, a + n) of a message as a number. -/
def msgNat (m : List Byte) (a n : Nat) : Nat := natOfBytes ((m.drop a).take n)

/-- A list of bytes cut or filled with zeros to n. -/
def padTo (n : Nat) (l : List Byte) : List Byte := (l ++ List.replicate n 0#8).take n

def juIntegrity : String := "Didudra integrity"
def juJob : String := "Didudra job"

/-- An integrity message under a key. -/
def integrityMsg (key : List Byte) (k : Partn) (ty replica flags serial index : Nat) (extra digest : List Byte) : List Byte :=
  let body := bytesLe 1 ty ++ bytesLe 1 replica ++ bytesLe 1 flags ++ [0#8] ++ bytesLe 4 k.checks.job ++ bytesLe 8 serial ++
    bytesLe 4 index ++ padTo 12 extra ++ padTo 32 digest
  body ++ Config.kmac256 key body 32 juIntegrity

/-- What a job message says beside JOB, SEQ and TAG: TYPE, FLAGS, CAUSE, ORIGIN, STEP, ADDR, LEN, QID, DIGEST. -/
structure JobWords where
  ty     : Nat
  flags  : Nat
  cause  : Nat
  origin : Nat
  step   : Nat
  addr   : Nat
  len    : Nat
  qid    : Nat
  digest : List Byte
  deriving DecidableEq, Repr

/-- A job message under a key, with its sequence number. -/
def jobMsg (key : List Byte) (k : Partn) (seq : Nat) (j : JobWords) : List Byte :=
  let body := bytesLe 1 j.ty ++ bytesLe 1 j.flags ++ bytesLe 1 j.cause ++ [0#8] ++ bytesLe 4 k.checks.job ++ bytesLe 8 seq ++
    bytesLe 8 j.origin ++ bytesLe 8 j.step ++ bytesLe 8 j.addr ++ bytesLe 8 j.len ++ bytesLe 8 j.qid ++ bytesLe 8 0 ++ padTo 32 j.digest
  body ++ Config.kmac256 key body 32 juJob

/-- Messages that leave on queue pairs: sent as RoCEv2 SEND; what they say is the answer seen (log entry 11). -/
def sendAll (s : State) (l : List (Nat × List Byte)) : State :=
  if l.isEmpty then s
  else
    let s1 := l.foldl (fun a e => qpSend a e.1 e.2.length 0) s
    s1.answer 2 (l.flatMap fun e => BitVec.ofNat 32 e.1 :: wordsOfBytes e.2 ((e.2.length + 3) / 4))

/-- A job message from a partition to some of its peers; a partition without a key sends none (R721). -/
def sendJob (s : State) (p : Nat) (qs : List Nat) (j : JobWords) : State :=
  match s.hpart p with
  | none => s
  | some k =>
    match k.key with
    | none => s
    | some key =>
      let msg (a : State) (q : Nat) : Nat × List Byte := (q, jobMsg key k (((a.qp q).map Qp.seqTx).getD 0 + 1) j)
      let l := qs.map (msg s)
      let s1 := qs.foldl (fun a q => match a.qp q with
        | some x => a.setQp q { x with seqTx := x.seqTx + 1 }
        | none => a) s
      sendAll s1 l

/-- An integrity message from a partition to queue pairs. -/
def sendIntegrity (s : State) (p : Nat) (qs : List Nat) (ty replica flags serial index : Nat) (extra digest : List Byte) : State :=
  match s.hpart p with
  | none => s
  | some k =>
    match k.key with
    | none => s
    | some key => sendAll s (qs.map fun q => (q, integrityMsg key k ty replica flags serial index extra digest))

/-- Whether a message's tag holds under the partition's key, or the previous one while that lasts (R720, R721). -/
def tagOk (s : State) (k : Partn) (m : List Byte) (body : Nat) (custom : String) : Bool :=
  let good (key : List Byte) : Bool := Config.kmac256 key (m.take body) 32 custom == m.drop body
  m.length == body + 32 &&
  ((match k.key with
    | some x => good x
    | none => false) ||
   (match k.oldKey with
    | some x => decide (s.now < x.2) && k.key.isSome && good x.1
    | none => false))

def quFailed : Nat := 1
def quPeerDead : Nat := 2
def quRemoval : Nat := 3
def quHost : Nat := 4
def quModule : Nat := 5
def quThermal : Nat := 6

/-- The peers that a quench goes to: none of a FLEET partition (R614). -/
def quenchPeers (k : Partn) : List Nat := if k.checks.cls = 1 then [] else k.peers.filter fun q => !k.dead.contains q

/-- The last 64 pairs (R620). -/
def noteQuench (l : List (Nat × Nat)) (e : Nat × Nat) : List (Nat × Nat) := let m := l ++ [e]; m.drop (m.length - 64)

/-- A quench originates: a new QID, sent on every peer, with its event (R619, R629). -/
def originateQuench (s : State) (p cause : Nat) : State :=
  match s.hpart p with
  | none => s
  | some k =>
    if (quenchPeers k).isEmpty then s
    else
      let n := s.hw.qid + 1
      let s1 := ({ s with hw := { s.hw with qid := n } }).setPart p { k with quenches := noteQuench k.quenches (s.mod.serial, n) }
      let s2 := sendJob s1 p (quenchPeers k) ⟨0x10, 0, cause, s.mod.serial, k.committed, 0, 0, n, []⟩
      raiseEvent s2 evQuench p (handleOf s2 hPart p) [BitVec.ofNat 32 k.checks.job, BitVec.ofNat 32 cause, 0#32]

/-! ### Halts, holds and failures -/

/-- A recovery begins, or restarts when one is in progress (R625): a halt in 16,384 cyc (R597), bookings cancelled. `next` is
what follows the halt. A recovery that restarts for the fourth time is over: see `failPartition`. -/
def haltFor (s : State) (p next : Nat) : State :=
  match s.hpart p with
  | none => s
  | some k =>
    let again := decide (k.recov ≠ 0)
    let s1 := cancelBooked s p
    let k1 : Partn := { k with
      haltAt := if k.halted then k.haltAt else some (k.haltAt.getD (s.now + 16384)), recov := max k.recov next
      restarts := if again then k.restarts + 1 else k.restarts }
    let s2 := wFld (s1.setPart p k1) 0x200008 3 0 1
    if again then wCount s2 0x200008 31 16 1 else s2

/-- The commands that wait for a partition's recovery end: with OK, or with their status for a failure (R626, R627). -/
def endWaiters (s : State) (p : Nat) (ok : Bool) : State :=
  match s.hpart p with
  | none => s
  | some k =>
    k.waiters.foldl (fun a w => finishCmd a w.1 w.2.1 (if ok then csOk else w.2.2) 0#32 []) (s.setPart p { k with waiters := [] })

/-- A partition that is failed (R618): halted, its requests FAILED, a quench with cause FAILED, HELD. -/
def failPartition (s : State) (p cause : Nat) : State :=
  if (s.hpart p).isNone then s
  else
    let s1 := originateQuench (endRequests (endWaiters s p false) p csFailed cause) p quFailed
    updPart (haltFor s1 p 1) p fun k => { k with heldJob := true, restarts := 0 }

/-- A recovery begins; its fourth restart fails the partition (R625). -/
def startRecovery (s : State) (p next : Nat) : State :=
  let s1 := haltFor s p next
  if decide (4 ≤ ((s1.hpart p).map Partn.restarts).getD 0) then failPartition s1 p 0 else s1

/-- What an accepted quench does to its partition: the requests end with ABORTED, it rolls back without a launch and is HELD
(R620). -/
def quenchHold (s : State) (p : Nat) : State :=
  updPart (haltFor (endRequests s p csAborted 0) p 1) p fun k => { k with heldJob := true }

/-- A partition is expelled (R568): requests that have not launched end with ABORTED; the others run on. -/
def expel (s : State) (p : Nat) : State :=
  match s.hpart p with
  | none => s
  | some k =>
    if k.expelled then s
    else
      let s1 := abortUnlaunched (s.setPart p { k with expelled := true }) p fun _ => true
      let s2 := wCount s1 0x5000C 23 16 1
      raiseEvent s2 evFenced p (handleOf s2 hPart p) [unitWord uPart (fld (handleOf s2 hPart p) 27 0), BitVec.ofNat 32 fcExpelled, 0xFFFFFFFF#32]

/-- A module fault (R584): every request fails, every job is quenched, the alert and FAULT are raised. -/
def moduleFault (s : State) : State :=
  let s1 := s.hw.parts.foldl (fun a e => quenchHold (originateQuench (endRequests a e.1 csFailed 0) e.1 quModule) e.1) s
  let s2 := sbdFlag { s1 with hw := { s1.hw with fault := true } } 1#32
  if sbdLeaves s then s2 else setSbdState s2 4

/-! ### Fences -/

/-- A core held in reset by a fence (R580). -/
def holdCore (k : Core) : Core := { k with fenced := true, inReset := true, nextIssue := 0, idle := true }

/-- The latch names the other heartwood (R609): TAKEOVERS counts the change. -/
def turnLatch (s : State) : State :=
  let w := wReg s 0x200000
  wSet { s with hw := { s.hw with turned := true } } 0x200000
    (setFld (setFld (setFld w 0 0 (1 - fld w 0 0)) 1 1 0) 31 16 (fld w 31 16 + 1))

/-- The logical cores on a physical cluster. -/
def clusterCores (s : State) (p cx cy : Nat) : List Nat :=
  (List.range 20).filterMap fun i =>
    if i % 5 = 4 ∧ cx ≠ 3 then none else logCore s (272 * p + 17 * (4 * cy + i / 5) + 4 * cx + i % 5)

/-- The effect of a fence by kind of unit (R580). -/
def fenceEffect (s : State) (u : Word) (cause part : Nat) : State :=
  match unitKind u with
  | 0 => match logCore s (unitCore u) with
    | some c => (breakOn s (fun x => x == c) 2).setCore c (holdCore ((breakOn s (fun x => x == c) 2).core c))
    | none => s
  | 1 =>
    let cs := clusterCores s (fld u 9 4) (fld u 11 10) (fld u 13 12)
    cs.foldl (fun a c => a.setCore c (holdCore (a.core c))) (breakOn s (fun x => cs.contains x) 2)
  | 2 =>
    let s1 := setPhysFenced s (fld u 9 4) true
    match logOf s (fld u 9 4) with
    | some l => mapRegion (breakOn s1 (fun x => regionOfCore x == l) 2) l holdCore
    | none => s1
  | 3 => moduleFault s
  | 4 => portFence s (fld u 6 4)
  | 5 =>
    let h := fld u 4 4
    let s1 : State := { s with hw := { s.hw with dead := keyAdd s.hw.dead h } }
    if activeHw s = h then turnLatch s1 else wFld s1 0x200000 1 1 0
  | 6 => moduleFault s
  | 7 =>
    let q := unitId u % 1048576
    updPart (qpFail s q 0xFF) part fun k => { k with dead := keyAdd k.dead q }
  | 8 =>
    let p := unitId u % 1048576
    if cause = fcExpelled ∨ ((s.hpart p).map fun k => k.checks.cls) = some 1 then expel s p else quenchHold s p
  | 9 => moduleFault s
  | _ => s

/-- The physical region of a unit that lies in one. -/
def unitRegion (u : Word) : Option Nat := if unitKind u ≤ 2 then some (fld u 9 4) else none

/-- Whether the row of a physical region has a rootstock that can take a graft, and the region carries work (R28, R604). -/
def canGraft (s : State) (p : Nat) : Bool := rstkState s (p / 8) == rstkIntact && rstkCol s (p / 8) != p % 8

/-- Whether a dead unit is a core that can be bypassed in place (R604). -/
def canBypass (s : State) (u : Word) : Bool := unitKind u == uCore && bypassOf s (fld u 9 4) (fld u 18 15) == 17

/-- What follows a fence in an open partition: the halt for a graft, with its event, or for a bypass, or the failure of the
partition (R604, R605). -/
def afterFence (s : State) (u : Word) (p : Nat) : State :=
  match unitRegion u with
  | none => s
  | some g =>
    if canGraft s g then
      let s1 := startRecovery s p 2
      raiseEvent s1 evGraft p (handleOf s1 hPart p)
        [BitVec.ofNat 32 (g / 8), BitVec.ofNat 32 (g % 8 + 65536 * rstkCol s (g / 8)), 0#32]
    else if canBypass s u then startRecovery s p 2
    else failPartition s p 0

/-- A unit is declared dead (R581, R583): fenced, reported, the recovery of its partition begins. A fenced unit stays as it
is. -/
def fenceUnit (s : State) (u : Word) (cause part pm : Nat) : State :=
  if unitFenced s u then s
  else
    let s0 : State := { s with hw := { s.hw with fenced := s.hw.fenced ++ [u] } }
    let s1 := match patReg u with
      | some o => wFld s0 o 18 18 1
      | none => s0
    let who := (partOfUnit s u).getD part
    let s2 := fenceEffect s1 u cause part
    let s3 := raiseEvent s2 evFenced who (if (s2.hpart who).isSome then handleOf s2 hPart who else 0#32)
      [u, BitVec.ofNat 32 cause, BitVec.ofNat 32 pm]
    match partOfUnit s u with
    | some p => afterFence s3 u p
    | none => s3

/-- A port enters TRAINING, unless it is fenced (R459, R460, R489). -/
def portDown (s : State) (p : Nat) : State :=
  let st := portState s p
  if st = poFenced then s
  else
    let s1 := wCount (setPortState s p poTraining) (pReg p 4) 31 16 1
    if st = poQuiet ∨ st = poUp then portErr s1 p 15 1 1 else s1

/-- What the heartwood does when a unit's LEVEL rises (R613): a stack's pairs all ask to be retrained, a port retrains, the active
heartwood yields, a unit at FENCE is fenced. A region's graft is the row GRAFT. -/
def onLevel (s : State) (u : Word) (lv : Nat) : State :=
  if lv = 3 then fenceUnit s u fcPatina 0 noPm
  else if lv = 2 then
    (let n := unitId u
     if unitKind u = uStack then s.setStack n (kFld (s.stack n) kStatus 31 16 0xFFFF)
     else if unitKind u = uPort ∧ portState s n ≠ poTraining then portDown s n
     else if unitKind u = uHeart ∧ activeHw s = n ∧ bit (wReg s 0x200000) 1 then turnLatch s
     else s)
  else s

/-- Patina added to a unit; the heartwood acts on a rise of its LEVEL (R612, R613). -/
def addPatina (s : State) (u : Word) (n : Nat) : State :=
  match patReg u with
  | none => s
  | some o =>
    let w := wReg s o
    let sc := satTo 65535 (fld w 15 0 + n)
    let s1 := wFld (wFld s o 15 0 sc) o 17 16 (levelOf sc)
    if fld w 17 16 < levelOf sc then onLevel s1 u (levelOf sc) else s1

/-- Patina of the physical core that carries a logical one. -/
def addCorePatina (s : State) (c n : Nat) : State := addPatina s (coreUnit (physCore s c)) n

/-! ### Rollback -/

/-- The stream contexts of a partition changed (R598). -/
def mapCtxs (s : State) (p : Nat) (f : StreamCtx → StreamCtx) : State :=
  { s with stks := s.stks.map fun e => (e.1, { e.2 with
      ctxs := e.2.ctxs.map fun q => if q.2.part = some p then (q.1, f q.2) else q }) }

/-- A context loaded again. -/
def reloadCtx (x : StreamCtx) : StreamCtx :=
  { x with state := xIdle, reason := 0, credits := 0, pos := 0, sent := 0, mseq := 0, seqDue := false, hqpDue := false }

/-- The images of a partition's programs written again into those of some cores whose scratchpads do not hold them (R279, R598, R605). -/
def reloadImages (s : State) (p : Nat) (hit : Nat → Bool) : State :=
  match s.hpart p with
  | none => s
  | some k =>
    ((s.hw.progs.filter fun e => e.2.part == p).flatMap fun e => e.2.img.pours).foldl (fun a e =>
      let n := 4096 * e.chunks
      let bytes := devRead a e.copy n
      ((e.cores.map (coreInPart k)).filter hit).foldl (fun b c =>
        let x := b.core c
        if spadBytes x.spad b.now e.base n = bytes then b
        else b.setCore c { x with spad := spadPushes x.spad (payloadWrites b.now e.base bytes false) }) a) s

/-- The steps of a rollback (R598): images, contexts, channels, the epoch, the requests of uncommitted
steps, which run again. -/
def rollback (s : State) (p : Nat) : State :=
  match s.hpart p with
  | none => s
  | some k =>
    let s1 := mapCtxs (reloadImages s p fun _ => true) p reloadCtx
    let s2 := (s1.hw.chans.filter fun e => e.2.part == p).foldl (rollChannel k.committed) s1
    let e := BitVec.ofNat 32 (mgetD k.epochs k.committed 0 + 1)
    let s3 := mapPart s2 k fun c => cSet c rFabEpoch e
    let s4 := (partRegions k).foldl (fun a l => a.setRegion l { a.region l with suspect := false }) s3
    let back (q : Request) : Request := { q with ran := q.kept, marks := [], reruns := if q.started then q.reruns + 1 else q.reruns }
    { s4.setPart p { k with reqs := k.reqs.map back, step := k.committed + 1, sealed := k.committed, runs := k.runs + 1
                            seals := [], sealAt := none, later := []
                            touch := k.touch.filter fun t => t.answer.isSome } with
      seals := s4.seals.filter fun x => x.1 != p }

/-- A recovery ends: the launch is booked, unless the partition is held (R598, R605, R620). -/
def resume (s : State) (p : Nat) : State :=
  let s1 := updPart (endWaiters s p true) p fun k => { k with haltAt := none, halted := false, recov := 0, restarts := 0 }
  wFld (bookAhead (retime s1 p) p) 0x200008 3 0 0

/-- The halt applied at every target of a partition at its device time: the barrier steps, and the cores hold (R597). -/
def applyHalt (s0 : State) (p : Nat) : State :=
  match s0.hpart p with
  | none => s0
  | some k =>
    match k.haltAt with
    | none => s0
    | some h =>
      if k.halted then s0
      else
        let s := s0.reach h
        let s1 := mapPart s k fun c => { (if c.awaiting then c else barrierCore s.now c) with idle := true }
        (schedStreams s1 p fun x => { x with state := if x.state = xRun then xDone else x.state }).setPart p { k with halted := true }

/-- The halt row of a recovery: applied; a rollback without a graft or a bypass runs at once, and the partition resumes or
stays HELD (R597, R598, R620). -/
def haltNow (s : State) (p : Nat) : State :=
  let s1 := applyHalt s p
  match s1.hpart p with
  | none => s1
  | some k => if k.halted ∧ k.recov = 1 then resume (rollback s1 p) p else s1

end Sys2Proof.Machine
end

