-- ==== Sys2Proof/Machine/PortCtl.lean ====
section
/-! DEFINITION. What a port does on training, a fence and a write of its `cfg` (R459, R460, R489). -/

namespace Sys2Proof.Machine

/-- A port enters TRAINING, unless it is fenced (R459, R460). -/
def portTrain (s : State) (p : Nat) : State :=
  let st := portState s p
  if st = poQuiet ∨ st = poUp then addPatina (portDown s p) (portUnit p) 50 else portDown s p

/-- A fence ended: ignored while presence is broken; the port trains again (R460, R489). -/
def portUnfence (s : State) (p : Nat) : State :=
  if portState s p = poFenced ∧ s.mod.mated ∧ ¬ sbdLeaves s then
    let s1 : State := { s with hw := { s.hw with fenced := s.hw.fenced.erase (portUnit p) } }
    wFld (portTrain (wFld s1 (pReg p 4) 2 0 poDown) p) (0x200300 + 4 * p) 18 18 0
  else s

/-- A write to `eth.portP.cfg`: its RW fields, then FENCE, UNFENCE or RETRAIN (R459, R460, R489). -/
def portCfgWrite (s : State) (p : Nat) (val : Word) : State :=
  let s1 := wSet s (pReg p 0) (val &&& 0x7F#32)
  if bit val 8 then portFence s1 p
  else
    let s2 := if bit val 9 then portUnfence s1 p else s1
    if bit val 7 then portTrain s2 p else s2

end Sys2Proof.Machine
end

