-- ==== Sys2Proof/Machine/Service.lean ====
section
/-! DEFINITION. Packets at their destinations: writes, reads, handle pushes, register accesses, responses, barriers and
missed packets (R344, R345, R347, R358, R361 to R366, R370, R371, R403). -/

namespace Sys2Proof.Machine

/-- The logical core at an endpoint of a cluster router, by the router's own region and table (R9, R343, R358). -/
def coreAtEndpoint (k : Router) (r ep : Nat) : Option Nat :=
  let l := fld (nReg k nRegion) 5 0
  if 42 ≤ l ∨ isRim r ∨ 20 ≤ ep then none
  else
    let cx := (routerX r - 1) % 4
    let y := 4 * ((routerY r - 1) % 4) + ep / 5
    let pc := 4 * cx + ep % 5
    let byp := fld (nReg k (nByp l (y / 6))) (5 * (y % 6) + 4) (5 * (y % 6))
    if pc = byp ∨ (pc > 15 ∧ byp > 16) ∨ (ep % 5 = 4 ∧ cx ≠ 3) then none
    else
      let x := if pc < byp then pc else pc - 1
      some (coreAt (16 * (l % 7) + x) (16 * (l / 7) + y))

/-- The check of a packet to a core at its destination router: the flag it raises and the status of R358; none where it
passes. -/
def destCheck (s : State) (p : Packet) : Option (Word × Nat) :=
  let r := pktDest p
  let k := s.router r
  let c := coreAt p.lx.toNat p.ly.toNat
  let part := fld (nReg k nRegion) 17 6
  if coreAtEndpoint k r p.pep.toNat ≠ some c then some (nfMisroute, stMisroute)
  else if p.part ≠ 0#12 ∧ p.part.toNat ≠ part then some (nfPart, stPart)
  else if part = 0 ∨ (s.core c).fenced ∨ (s.core c).inReset then some (nfUnreach, stUnreach)
  else none

/-- A packet that fails its header check: discarded without reply, HCRC set, a RECORD (R347). -/
def dropHcrc (s : State) (p : Packet) : State :=
  let r := pktDest p
  (s.setRouter r (nFlag (s.router r) nfHcrc)).record ⟨.linkError, r, []⟩

/-- Responses on their way. -/
def State.reply1 (s : State) (ps : List Packet) : State := { s with net := s.net ++ ps }

/-- What a request to a core does when the packet passes the checks of R347 and R358; otherwise the discard and the answer
those rules give. -/
def atCore (s : State) (p : Packet) (eff : State → Nat → State) : State :=
  let s1 := s.takeNet p
  if !hcrcOk p then dropHcrc s1 p
  else match destCheck s1 p with
    | some e =>
      let r := pktDest p
      (s1.setRouter r (nCount (nFlag (s1.router r) e.1) nDrops 15 0 1)).reply1 (refuse p e.2)
    | none => eff s1 (coreAt p.lx.toNat p.ly.toNat)

/-- The same for an endpoint of a stack: the packet must reach one of its rim routers at LOC0 (R383). -/
def atStack (s : State) (p : Packet) (eff : State → Nat → State) : State :=
  let s1 := s.takeNet p
  if !hcrcOk p then dropHcrc s1 p
  else match stackAt p.px.toNat p.py.toNat, p.pep.toNat with
    | some st, 0 => eff s1 st.1
    | _, _ => s1.reply1 (refuse p stType)

/-- The length of a buffer-mode key: one fill for each source and buffer (R403). -/
def wrKey (p : Packet) (n : Nat) : Nat := 1000000 + ((p.sx.toNat * 128 + p.sy.toNat) * 32 + p.sep.toNat) * 16 + n

/-- A buffer-mode WR (R221, R222, R403): the answer's status, and the core. -/
def wrBuffer (k : Core) (t : Nat) (p : Packet) : Nat × Core :=
  let a := p.arg.toNat
  let n := a % 16
  let key := wrKey p n
  let k1 : Core := if a / 32 % 2 = 1 then
      match fillBegin k n with
      | some f => { k with fills := mset k.fills key f }
      | none => badBuf { k with fills := merase k.fills key } t n
    else k
  match mget? k1.fills key with
  | none => (stRange, k1)
  | some f =>
    let at0 := f.addr + p.addr.toNat % 2 ^ 22
    if at0 + p.payload.length > spadEnd then (stRange, cFlag k1 rSpdStatus 4#32)
    else
      let commit := t + latency k - 1
      let k2 : Core := { k1 with spad := spadPushes k1.spad (payloadWrites commit at0 p.payload p.tarnish) }
      (stOk, if a / 64 % 2 = 1 then { k2 with fills := merase k2.fills key, rdyPend := k2.rdyPend ++ [(commit, n, f)] } else k2)

/-- A WR to a core's scratchpad (R204, R344, R345). -/
def wrPlain (k : Core) (t : Nat) (p : Packet) : Nat × Core :=
  let a := p.addr.toNat % 2 ^ 22
  if p.payload.isEmpty then (stRange, k)
  else if a + p.payload.length > spadEnd then (stRange, cFlag k rSpdStatus 4#32)
  else (stOk, { k with spad := spadPushes k.spad (payloadWrites (t + latency k - 1) a p.payload p.tarnish) })

/-- Whether a WR is in buffer mode (R403). -/
def bufferMode (p : Packet) : Bool := p.arg.toNat / 16 % 2 == 1

/-- A WR at its core. -/
def wrCore (p : Packet) (s : State) (c : Nat) : State :=
  if !pcrcOk p then s.reply1 (refuse p stCrc)
  else
    let k := s.coreNow c
    let r := if bufferMode p then wrBuffer k s.now p else wrPlain k s.now p
    (s.setCore c r.2).reply1 (refuse p r.1)

/-- A WR at a stack: Burmon memory, or a stream context (R380, R385, R387, R394). -/
def wrStack (p : Packet) (s : State) (st : Nat) : State :=
  let a := p.addr.toNat
  match burmonAddr a, ctxAddr a with
  | some (n, off), _ =>
    if n ≠ st then s.reply1 (refuse p stRange)
    else
      let r := burmonWrite s st off p.payload p.tarnish p.part.toNat (pcrcOk p) []
      r.1.reply1 (refuse p r.2)
  | none, some (n, c, b) =>
    if n ≠ st then s.reply1 (refuse p stRange)
    else if !pcrcOk p then s.reply1 (refuse p stCrc)
    else
      let r := ctxWrite s st c b p.part.toNat p.payload
      r.1.reply1 (refuse p r.2)
  | none, none => s.reply1 (refuse p stRange)

/-- A request handed to the endpoint its header names: a core, a stack, or none that accepts it (R344, R345). -/
def dispatchReq (s : State) (p : Packet) (core stack : State → Nat → State) : State :=
  match p.dkind.toNat with
  | 0 => atCore s p core
  | 1 => atStack s p stack
  | _ => (s.takeNet p).reply1 (refuse p stType)

/-- WR (R344). -/
def execWr (p : Packet) (s : State) : Host.Outcome State Fault Refusal := .next (dispatchReq s p (wrCore p) (wrStack p))

/-- An RDATA answer: the payload's CRC is inverted for a block whose source parity failed (R345, R545). -/
def rdata (p : Packet) (status : Nat) (data : List Byte) (bad : Nat → Nat → Bool) (tarn : Bool) : Packet :=
  let q := response p tRDATA status data tarn
  sealHeader { q with pcrc0 := if bad 0 256 then ~~~q.pcrc0 else q.pcrc0, pcrc1 := if bad 256 512 then ~~~q.pcrc1 else q.pcrc1 }

/-- How many bytes an RD asks for (R344). -/
def rdLen (p : Packet) : Nat := (p.tdata.getD 0 0#32).toNat

/-- An RD at its core. -/
def rdCore (p : Packet) (s : State) (c : Nat) : State :=
  let k := s.coreNow c
  let a := p.addr.toNat % 2 ^ 22
  let n := rdLen p
  if n = 0 ∨ 512 < n then s.reply1 (refuse p stRange)
  else if a + n > spadEnd then (s.setCore c (cFlag k rSpdStatus 4#32)).reply1 (refuse p stRange)
  else
    let bad (lo hi : Nat) : Bool := (touched 4 (a + lo) (min n hi - lo)).any fun w => spadBad k.spad s.now w
    let k1 := noteReads k 7 s.now ((List.range n).map fun b => (a + b, s.now))
    let tarn := (touched 128 a n).any fun r => spadTarn k.spad s.now r
    (s.setCore c k1).reply1 [rdata p stOk (spadBytes k.spad s.now a n) bad tarn]

/-- An RD at a stack (R385, R394, R408). -/
def rdStack (p : Packet) (s : State) (st : Nat) : State :=
  let a := p.addr.toNat
  match burmonAddr a, ctxAddr a with
  | some (n, off), _ =>
    if n ≠ st then s.reply1 (refuse p stRange)
    else
      let r := burmonRead s st off (rdLen p) p.part.toNat true []
      r.1.reply1 [rdata p r.2.1 r.2.2.1 (fun _ _ => false) r.2.2.2]
  | none, some (n, c, b) =>
    if n ≠ st then s.reply1 (refuse p stRange)
    else
      let r := ctxRead s st c b (rdLen p) p.part.toNat
      s.reply1 [rdata p r.1 r.2 (fun _ _ => false) false]
  | none, none => s.reply1 (refuse p stRange)

/-- RD (R344). -/
def execRd (p : Packet) (s : State) : Host.Outcome State Fault Refusal := .next (dispatchReq s p (rdCore p) (rdStack p))

/-- A handle pushed after every earlier write of the source has committed (R225, R227, R403). -/
def hqpCore (p : Packet) (s : State) (c : Nat) : State :=
  let q := (p.tdata.getD 1 0#32).toNat
  let k := s.coreNow c
  if 8 ≤ q then s.reply1 (refuse p stRange)
  else (s.setCore c { k with hqPend := k.hqPend ++ [⟨s.now + latency k, q, p.tdata.getD 0 0#32⟩] }).reply1 (refuse p stOk)

/-- HQP (R344). -/
def execHqp (p : Packet) (s : State) : Host.Outcome State Fault Refusal :=
  .next (dispatchReq s p (hqpCore p) (fun s1 _ => s1.reply1 (refuse p stType)))

/-! ### Register accesses of the heartwood -/

/-- A stack register written: RW fields, W1C bits; a retraining started (R428); VALID cleared with UE. -/
def stackWrite (s : State) (st off : Nat) (val : Word) : State :=
  let k := s.stack st
  match regFind stackRegs off with
  | none => s
  | some r =>
    if off = kRetrain then s.setStack st (retrainGo k s.now val)
    else
      let k1 := kSet k off (regAfterWrite r (kReg k off) val)
      s.setStack st (if off = kStatus ∧ bit val 0 then kFld k1 kUeLo 0 0 0 else k1)

/-- Fixed fields of a stack: `bmn.id` (R428). -/
def stackIdWord (st : Nat) : Word :=
  let side := if st < 16 then 0 else if st < 28 then 1 else if st < 44 then 2 else 3
  let n := if st < 16 then st else if st < 28 then st - 16 else if st < 44 then st - 28 else st - 44
  BitVec.ofNat 32 (packFields [(6, st), (2, side), (4, n)])

/-- Fixed fields of a router: `svc.id` (R375). -/
def routerIdWord (r : Nat) : Word := BitVec.ofNat 32 (packFields [(6, routerX r), (5, routerY r), (1, bnat (isRim r))])

/-- A read of a stack register (R20, R21, R428). -/
def stackRead (k : Stack) (fr st off : Nat) : Word × Stack :=
  match regFind stackRegs off with
  | none => (0#32, k)
  | some r =>
    let free := Config.freeWord fr
    if off = 0 then (regReadVal r (stackIdWord st) free, k)
    else match mget? k.shadow off with
      | some v => (regReadVal r v free, { k with shadow := merase k.shadow off })
      | none =>
        let k1 := if r.rc = 0#32 then k else kSet k off (regAfterRead r (kReg k off))
        let k2 : Stack := if off = kUeLo then { k1 with shadow := mset k1.shadow kUeHi (kReg k kUeHi) } else k1
        (regReadVal r (kReg k off) free, k2)

/-- A router register written by the heartwood (R375). -/
def routerWrite (s : State) (r off : Nat) (val : Word) : State :=
  let k := s.router r
  match regFind routerRegs off with
  | none => s
  | some d => s.setRouter r (nSet k off (regAfterWrite d (nReg k off) val))

/-- A read of a router register (R20, R373, R375). -/
def routerRead (k : Router) (fr r off : Nat) : Word × Router :=
  match regFind routerRegs off with
  | none => (0#32, k)
  | some d =>
    let v := if off = 0 then routerIdWord r
      else if decide (0x100 ≤ off ∧ off < 0x200) && off % 0x20 == 0xC then depthWord k ((off - 0x100) / 0x20)
      else nReg k off
    (regReadVal d v (Config.freeWord fr), if d.rc = 0#32 then k else nSet k off (regAfterRead d (nReg k off)))

/-- An access to a register space through the service network: PART 0 only, one aligned word (R16, R344). -/
def regAccess (s : State) (p : Packet) (eff : State → Nat → State) (atS : State → Nat → State) (atR : State → Nat → State) : State :=
  if p.part ≠ 0#12 then (s.takeNet p).reply1 (refuse p stType)
  else if p.addr.toNat % 4 ≠ 0 then (s.takeNet p).reply1 (refuse p stRange)
  else if p.dkind = 2#2 then
    let s1 := s.takeNet p
    if !hcrcOk p then dropHcrc s1 p else atR s1 (pktDest p)
  else dispatchReq s p eff atS

/-- REGW (R344). -/
def execRegw (p : Packet) (s : State) : Host.Outcome State Fault Refusal :=
  let off := p.addr.toNat
  let val := wordOfBytes p.payload
  let done (st : State) : State := st.reply1 (refuse p stOk)
  if p.part = 0#12 ∧ ¬ pcrcOk p then .next ((s.takeNet p).reply1 (refuse p stCrc))
  else .next (regAccess s p (fun s1 c => done (coreWrite s1 c off val true)) (fun s1 st => done (stackWrite s1 st off val))
    (fun s1 r => done (routerWrite s1 r off val)))

/-- REGR (R344). -/
def execRegr (p : Packet) (s : State) : Host.Outcome State Fault Refusal :=
  let off := p.addr.toNat
  let ans (st : State) (w : Word) : State := (st.takeFree 1).reply1 [rdata p stOk (bytesOfWord w) (fun _ _ => false) false]
  .next (regAccess s p
    (fun s1 c => let r := coreRead (s1.coreNow c) s1.free s1.now off; ans (s1.setCore c r.2) r.1)
    (fun s1 st => let r := stackRead (s1.stack st) s1.free st off; ans (s1.setStack st r.2) r.1)
    (fun s1 n => let r := routerRead (s1.router n) s1.free n off; ans (s1.setRouter n r.2) r.1))

/-- MCWR at one member: written without an answer, or discarded (R344, R347, R358); a pour packet goes to the pour receiver
(R691). -/
def execMcwr (c : CoreId) (p : Packet) (s : State) : Host.Outcome State Fault Refusal :=
  let s1 := { s with net := s.net.erase p }
  let part := s.partOf c.val
  if !hcrcOk p then .next (dropHcrc s1 p)
  else if (p.part ≠ 0#12 ∧ p.part.toNat ≠ part) ∨ (s.core c.val).fenced ∨ (s.core c.val).inReset ∨ ¬ pcrcOk p then .next s1
  else if isPour p then .next (s1.setCore c.val (pourPacket (s1.coreNow c.val) s1.now p))
  else .next (s1.setCore c.val (wrPlain (s1.coreNow c.val) s1.now p).2)

/-! ### Responses -/

/-- A response at a core (R362, R411): the request is over; a late one is counted. -/
def answerCore (s : State) (c tag status : Nat) (data : List Byte) (tarn : Bool) : State :=
  let k := s.coreNow c
  match k.reqs.find? fun r => r.tag == tag with
  | none => s.setCore c (cCount k rSrcStatus 31 16 1)
  | some r =>
    let k1 : Core := { k with reqs := k.reqs.filter fun q => q.tag != tag }
    let k2 := if r.what = reqXfer then xferAnswer k1 (r.arg % 4) (r.arg / 4) status s.now data tarn else k1
    sendArrivals (s.setCore c k2) c

/-- A response at whoever sent the request. -/
def answerAt (s : State) (p : Packet) (data : List Byte) : State :=
  let s1 := s.takeNet p
  let status := if pcrcOk p then p.arg.toNat % 16 else stCrc
  if !hcrcOk p then dropHcrc s1 p
  else if p.dkind = 0#2 then
    (if p.lx.toNat < 112 ∧ p.ly.toNat < 96 then answerCore s1 (coreAt p.lx.toNat p.ly.toNat) p.tag.toNat status data p.tarnish else s1)
  else match stackAt p.lx.toNat p.ly.toNat with
    | some st => streamAnswer s1 st.1 p.tag.toNat status
    | none => match portAt p.lx.toNat p.ly.toNat p.pep.toNat with
      | some po => portAnswer s1 po p.tag.toNat status data
      | none => s1

/-- ACK (R345). -/
def execAck (p : Packet) (s : State) : Host.Outcome State Fault Refusal := .next (answerAt s p [])

/-- RDATA (R345). -/
def execRdata (p : Packet) (s : State) : Host.Outcome State Fault Refusal := .next (answerAt s p p.payload)

/-- STATUS of a transfer packet that timed out (R411). -/
def stTimeout : Nat := 0xF

/-- A request without a response within 2^20 cyc (R309, R362). -/
def requestTimeout (s : State) (src : Source) (tag : Nat) : State :=
  match src with
  | .core c =>
    match (s.core c.val).reqs.find? fun r => r.tag == tag with
    | none => s
    | some r =>
      let s1 := s.reach (r.sent + replyBound)
      let k := cEmit (cFlag (s1.coreNow c.val) rSrcStatus 1#32) s1.now ⟨.reqTimeout, 0, [tag]⟩
      if r.what = reqChannel then postTimeout (s1.setCore c.val k) c.val r.arg
      else
        let k1 : Core := { k with reqs := k.reqs.filter fun q => q.tag != tag }
        let k2 := if r.what = reqXfer then xferAnswer k1 (r.arg % 4) (r.arg / 4) stTimeout s1.now [] false else k1
        sendArrivals (s1.setCore c.val k2) c.val
  | .stack st =>
    match (s.stack st.val).reqs.find? fun r => r.tag == tag with
    | none => s
    | some r => (streamAnswer (s.reach (r.sent + replyBound)) st.val tag stTimeout).record ⟨.reqTimeout, st.val, [tag]⟩

/-- REQUEST_TIMEOUT (R362). -/
def execRequestTimeout (src : Source) (tag : BitVec 16) (s : State) : Host.Outcome State Fault Refusal :=
  .next (requestTimeout s src tag.toNat)

/-- FENCE: a write of 1 to `svc.fence` (R361). -/
def execFence (c : CoreId) (s : State) : Host.Outcome State Fault Refusal := .next (startFence s c.val)

/-- FENCE_DONE (R361). -/
def execFenceDone (c : CoreId) (s : State) : Host.Outcome State Fault Refusal := .next (fenceDone s c.val)

/-- RECORD_SEND: the oldest waiting record leaves, 256 cyc after the last (R355). -/
def execRecordSend (c : CoreId) (s : State) : Host.Outcome State Fault Refusal :=
  let k := s.core c.val
  match k.recs with
  | [] => .next s
  | r :: rest =>
    let s1 := match k.lastRec with
      | some l => s.reach (l + 256)
      | none => s
    .next (s1.setCore c.val { k with recs := rest, outbox := k.outbox ++ [r], lastRec := some s1.now })

/-! ### Barriers and missed packets -/

/-- BARRIER_SLOT_WRITE (R364). -/
def execBarrierSlotWrite (c : CoreId) (k : Fin 4) (val : Word) (s : State) : Host.Outcome State Fault Refusal :=
  .next (barWrite s c.val k.val val)

/-- The RELEASE of a barrier group: on the release group, with the generation; the barrier group in ARG (R365, R366). -/
def releasePacket (rgroup grp gen : Nat) : Packet :=
  sealHeader { Packet.blank with
    type := tRELEASE, cls := 2, bar := true, dkind := 3, group := BitVec.ofNat 10 rgroup, mseq := BitVec.ofNat 16 gen
    arg := BitVec.ofNat 16 grp }

/-- An arrival at the root (R365). -/
def arriveAt (s : State) (r grp gen : Nat) : State :=
  let k := s.router r
  let cfg := nReg k (nBarCfg grp)
  let cnt := nReg k (nBarCnt grp)
  if ¬ bit cfg 31 ∨ fld cnt 31 16 ≠ gen then s.setRouter r (nCount k nDrops 31 16 1)
  else if fld cnt 15 0 + 1 = fld cfg 15 0 then
    enterRouter (s.setRouter r (nSet k (nBarCnt grp) (BitVec.ofNat 32 ((gen + 1) % 65536 * 65536)))) r 4
      (releasePacket (fld cfg 25 16) grp gen) 0 none
  else s.setRouter r (nSet k (nBarCnt grp) (cnt + 1#32))

/-- Packets on their way that satisfy a test: the first taken off. -/
def State.dropNet (s : State) (f : Packet → Bool) : State :=
  match s.net.find? f with
  | some p => s.takeNet p
  | none => s

/-- ARRIVE: the root counts an arrival, and releases the group at the N-th (R365). -/
def execArrive (r : RouterId) (grp : BitVec 8) (gen : BitVec 16) (s : State) : Host.Outcome State Fault Refusal :=
  .next (arriveAt (s.dropNet fun p => p.type == tARRIVE && p.group.toNat == grp.toNat && p.mseq == gen) r.val grp.toNat gen.toNat)

/-- A release at a member: the slots that match it (R366). -/
def releaseSlot (grp gen : Nat) (k : Core) (i : Nat) : Core :=
  let w := cReg k (barReg i)
  if bit w 26 ∧ fld w 7 0 = grp ∧ fld w 23 8 = gen then
    cFld (cFld (cFld k (barReg i) 26 26 0) (barReg i) 27 27 1) (barReg i) 23 8 (gen + 1)
  else k

/-- RELEASE (R366). -/
def execRelease (c : CoreId) (grp : BitVec 8) (gen : BitVec 16) (s : State) : Host.Outcome State Fault Refusal :=
  .next (s.setCore c.val ((List.range 4).foldl (releaseSlot grp.toNat gen.toNat) (s.core c.val)))

/-- MISSED: an entry in the miss queue (R371). -/
def execMissed (c : CoreId) (grp : BitVec 10) (first : BitVec 16) (count : BitVec 8) (s : State) : Host.Outcome State Fault Refusal :=
  .next (s.setCore c.val (missPush (s.core c.val) grp.toNat first.toNat count.toNat))

/-- MISS_POP: a read of `svc.miss` (R371, R376). -/
def execMissPop (c : CoreId) (s : State) : Host.Outcome State Fault Refusal :=
  let r := missPop (s.core c.val)
  .next ((s.setCore c.val r.2).answer 0 [r.1])

end Sys2Proof.Machine
end

