-- ==== Sys2Proof/Machine/WindowRegs.lean ====
section
/-! DEFINITION. Reads of the register blocks of R678 and of the other register spaces as the mailbox reads them. -/

namespace Sys2Proof.Machine

/-- The blocks of R678 as offsets from the window's base: base and size. -/
def windowBlocks : List (Nat × Nat) :=
  [ (0x0, 0x1000), (0x1000, 0x1000), (0x10000, 0x1000), (0x20000, 0x2000), (0x30000, 0x1000), (0x40000, 0x4000), (0x50000, 0x1000),
    (0x100000, 0x80000), (0x200000, 0x20000) ]
def inWindow (off : Nat) : Bool := windowBlocks.any fun b => decide (b.1 ≤ off ∧ off < b.1 + b.2)
def windowBase : Nat := 0x200000000000

/-- The life cycle state that the fuses decode to (R698). -/
def lifeCycle (m : Module) : Nat :=
  if m.scrap then 4 else if m.lcf = 0 then 0 else if m.lcf = 1 then 1 else if m.lcf % 2 = 0 then 2 else 3

/-- Commands in flight on a ring, and on the device (R505, R540). -/
def inFlight (s : State) : Nat := s.hw.rings.foldl (fun n e => n + e.2.flight.length) 0

/-- The live words of a ring pair's registers (R540). -/
def ringWord (s : State) (n k : Nat) : Word :=
  match mget? s.hw.rings n with
  | none => 0#32
  | some r =>
    if k = 2 then BitVec.ofNat 32 (packFields [(2, if r.err then 2 else 1), (1, bnat r.dbBad), (1, bnat r.cqErr),
      (11, r.flight.length), (1, 0), (8, genOf s hRing n)])
    else if k = 3 then BitVec.ofNat 32 r.head
    else 0#32

/-- The stored or live bits of a window register. -/
def winBits (s : State) (off : Nat) : Word :=
  if off = 0 then setFld (setFld (wReg s 0) 2 0 (lifeCycle s.mod)) 3 3 (bnat s.mod.grade)
  else if off = 0x10018 then BitVec.ofNat 32 (devTime s)
  else if off = 0x1001C then BitVec.ofNat 32 (devTime s / 2 ^ 32)
  else if decide (0x20000 ≤ off ∧ off < 0x22000) && off % 0x400 == 8 then BitVec.ofNat 32 (portMac s ((off - 0x20000) / 0x400))
  else if decide (0x20000 ≤ off ∧ off < 0x22000) && off % 0x400 == 0xC then BitVec.ofNat 32 (portMac s ((off - 0x20000) / 0x400) / 2 ^ 32)
  else if decide (0x100000 ≤ off ∧ off < 0x140000) then ringWord s ((off - 0x100000) / 16) ((off - 0x100000) % 16 / 4)
  else if off = 0x140000 then BitVec.ofNat 32 (inFlight s)
  else if off = tErr ∧ tState s ≤ tAcquiring then 0xFFFFFFFF#32
  else wReg s off

/-- Low words of the 64-bit quantities of the window (R21). -/
def winPairLow (off : Nat) : Bool :=
  off == 0x10018 || off == 0x10024 || off == 0x1002C || off == 0x10034 || off == 0x10044 || off == 0x1120 ||
  (decide (0x10100 ≤ off ∧ off < 0x10300) && off % 0x20 == 0xC) ||
  (decide (0x20000 ≤ off ∧ off < 0x22000) &&
    (off % 0x400 == 8 || off % 0x400 == 0x40 || off % 0x400 == 0x48 || off % 0x400 == 0x50 || off % 0x400 == 0x58))

/-- A read of a window register: the word, and the state afterwards (R18, R20, R21, R445, R755). -/
def winRead (s0 : State) (off : Nat) : Word × State :=
  let s := if decide (0x10100 ≤ off ∧ off < 0x10300) then clkAll false s0 else s0
  match regFind windowRegs off with
  | none => (0#32, s)
  | some r =>
    let free := Config.freeWord s.free
    let s1 := s.takeFree 1
    match mget? s.winShadow off with
    | some v => (regReadVal r v free, { s1 with winShadow := merase s1.winShadow off })
    | none =>
      let v := winBits s off
      let s2 := if r.rc = 0#32 then s1 else wSet s1 off (regAfterRead r (wReg s off))
      let s3 : State := if winPairLow off then { s2 with winShadow := mset s2.winShadow (off + 4) (winBits s (off + 4)) } else s2
      (regReadVal r v free, s3)

/-- One register of a space as `read-regs` names it: KIND 0 to 3, target, offset (R524). -/
def readSpace (s : State) (kind target off : Nat) : Word × State :=
  if kind = 0 then winRead s (off - windowBase)
  else if kind = 1 then
    (let r := routerNo (target % 64) (target / 64 % 32)
     let x := routerRead (s.router r) s.free r off
     (x.1, (s.setRouter r x.2).takeFree 1))
  else if kind = 2 then
    (let x := stackRead (s.stack target) s.free target off
     (x.1, (s.setStack target x.2).takeFree 1))
  else
    (let c := coreAt (target % 128) (target / 128 % 128)
     let x := coreRead (s.coreNow c) s.free s.now off
     (x.1, (s.setCore c x.2).takeFree 1))

/-- Consecutive registers read in order. -/
def readSpaces (s : State) (kind target off : Nat) : Nat → List Word × State
  | 0 => ([], s)
  | n + 1 =>
    let x := readSpace s kind target off
    let y := readSpaces x.2 kind target (off + 4) n
    (x.1 :: y.1, y.2)

end Sys2Proof.Machine
end

