-- ==== Sys2Proof/Machine/MailboxBase.lean ====
section
/-! DEFINITION. The mailbox: doorbells, records taken, completions and events, the judging of commands, buffer headers (R495 to
R541). -/

namespace Sys2Proof.Machine

def State.ring (s : State) (r : Nat) : Option Ring := mget? s.hw.rings r
def State.setRing (s : State) (r : Nat) (k : Ring) : State := { s with hw := { s.hw with rings := mset s.hw.rings r k } }

/-- How far position b lies beyond a, modulo 2^32. -/
def posAhead (a b : Nat) : Nat := (b + 4294967296 - a % 4294967296) % 4294967296

/-- A doorbell ignored (R500, R502). -/
def doorbellBad (s : State) (r : Nat) (k : Ring) : State := wCount (s.setRing r { k with dbBad := true }) 0x140008 15 0 1

/-- A write of TAIL (R500). -/
def ringTail (s : State) (r val : Nat) : State :=
  match s.ring r with
  | none => s
  | some k =>
    if posAhead k.head k.tail ≤ posAhead k.head val ∧ posAhead k.head val ≤ 2 ^ k.clog then s.setRing r { k with tail := val }
    else doorbellBad s r k

/-- A write of CHEAD (R502). -/
def ringChead (s : State) (r val : Nat) : State :=
  match s.ring r with
  | none => s
  | some k =>
    if posAhead k.chead val ≤ posAhead k.chead k.cpos then
      s.setRing r { k with chead := val, evAt := k.evAt.filter fun p => decide (posAhead val p < 2147483648) }
    else doorbellBad s r k

/-- A doorbell write at the heartwood: one that came through a queue pair waits for that pair's earlier writes (R499). -/
def doorbell (s : State) (r : Nat) (ofChead : Bool) (val : Nat) : State :=
  let ring (a : State) : State := if ofChead then ringChead a r val else ringTail a r val
  match s.hw.qps.find? fun e => e.2.bells.contains (r, ofChead, val) with
  | none => ring s
  | some e =>
    if qpBusy s e.2 e.1 then s else ring (s.setQp e.1 { e.2 with bells := e.2.bells.erase (r, ofChead, val) })

/-! ### Records taken -/

/-- The codes of R510. -/
def mailboxCodes : List Nat :=
  [0x1, 0x2, 0x3, 0x4, 0x10, 0x11, 0x12, 0x13, 0x14, 0x18, 0x19, 0x1A, 0x20, 0x21, 0x22, 0x23, 0x28, 0x29, 0x30, 0x31, 0x38, 0x39,
   0x3A, 0x3B, 0x40, 0x41, 0x42, 0x48, 0x49, 0x50]

def fenceBit (ws : List Word) : Bool := bit (ws.getD 0 0#32) 16

/-- Whether the heartwood may take a record from a ring (R502, R504 to R506). -/
def canTake (s : State) (k : Ring) : Bool :=
  let all := inFlight s
  !k.err && k.ending.isNone && k.head != k.tail && decide (k.flight.length < min 1024 (2 ^ k.clog)) && decide (all < 65536) &&
  (k.part == 0 || decide (all < 64512)) &&
  decide (posAhead k.chead k.cpos + k.flight.length + (if k.events then 64 else 0) < 2 ^ k.qlog) &&
  !k.flight.any fun f => fenceBit f.words && !f.begun

/-- The next ring in round robin with a record that may be taken (R508). -/
def nextRing (s : State) : Option Nat :=
  let ok := (s.hw.rings.filter fun e => canTake s e.2).map Prod.fst
  match ok.find? fun r => decide (s.hw.lastRing < r) with
  | some r => some r
  | none => ok.head?

/-- The heartwood takes a record (R498, R508); one with an unknown CODE ends at once (R512). -/
def takeCommand (s : State) : State :=
  match nextRing s with
  | none => s
  | some r =>
    match s.ring r with
    | none => s
    | some k =>
      let ws := wordsOfBytes (devRead s (k.cmd + 64 * (k.head % 2 ^ k.clog)) 64) 16
      let known := mailboxCodes.contains (fld (ws.getD 0 0#32) 15 0)
      let f : Flight := ⟨k.head, ws, if known then none else some (csBadCode, 0#32, []), !known, none⟩
      let s1 := s.setRing r { k with head := (k.head + 1) % 4294967296, flight := k.flight ++ [f] }
      { s1 with hw := { s1.hw with lastRing := r } }

/-- A command in flight that a ring's heartwood can start: of this code, not started, and not fenced behind an earlier one
(R506). It is marked as started, and its meaning follows. -/
def command (s : State) (r : Nat) (pos : Word) (code : Nat) (body : State → Ring → List Word → State) : State :=
  match s.ring r with
  | none => s
  | some k =>
    match k.flight.find? fun f => f.pos == pos.toNat && !f.begun && f.done.isNone && fld (f.words.getD 0 0#32) 15 0 == code with
    | none => s
    | some f =>
      if fenceBit f.words ∧ (k.flight.head?.map Flight.pos) ≠ some f.pos then s
      else
        let k1 : Ring := { k with flight := k.flight.map fun g => if g.pos = f.pos then { g with begun := true } else g }
        body (s.setRing r k1) k f.words

/-- The same, for a row of the table that stands for some of a code's records: a record that is not one of them is left alone. -/
def commandIf (s : State) (r : Nat) (pos : Word) (code : Nat) (test : List Word → Bool) (body : State → Ring → List Word → State) : State :=
  match (s.ring r).bind fun k => k.flight.find? fun f => f.pos == pos.toNat with
  | some f => if test f.words then command s r pos code body else s
  | none => s

/-- The status of the first check that fails, OK where none does (R512). -/
def judge : List (Bool × Nat) → Nat
  | [] => csOk
  | (bad, st) :: t => if bad then st else judge t

/-- Reserved bits of word 0 (R497). -/
def badWord0 (ws : List Word) : Bool := fld (arg ws 0) 31 17 != 0

/-- A handle's check as a pair for `judge`. -/
def badHandle (s : State) (ty : Nat) (w : Word) : Bool × Nat := (handleCheck s ty w != csOk, handleCheck s ty w)

/-- Scope: DEVICE commands, and objects of another partition (R496). -/
def notDevice (k : Ring) : Bool × Nat := (k.part != 0, csDenied)
def outOfScope (k : Ring) (part : Nat) : Bool × Nat := (k.part != 0 && k.part != part, csCross)

/-- An address that breaks R15, its alignment or R380. -/
def badAddr (a n align : Nat) : Bool × Nat :=
  (decide (2 ^ 52 ≤ a) || a % align != 0 || (burmonAddr a).isNone || (burmonAddr (a + max 1 n - 1)).isNone, csBadAddr)

/-- The memory units of a scope: a partition's own, or unit 159 (R514, R536). -/
def unitsOf (s : State) (part : Nat) : Nat × Nat :=
  if part = 0 then (159, 1) else match s.hpart part with
    | some k => (k.unit0, k.units)
    | none => (0, 0)

/-- Whether a range lies in a scope's memory, in either view (R382, R514, R536). -/
def ownsRange (s : State) (part a n : Nat) : Bool :=
  let u := unitsOf s part
  match burmonAddr a, burmonAddr (a + max 1 n - 1) with
  | some (st, off), some (st2, off2) =>
    let inside (o : Nat) : Bool := decide (u.1 ≤ o / 1073741824 ∧ o / 1073741824 < u.1 + u.2)
    inside off && inside off2 && (decide (interBase ≤ a) || st == st2)
  | _, _ => false

def foreignRange (s : State) (part a n : Nat) : Bool × Nat := (!ownsRange s part a n, csCross)

/-! ### Completions and events -/

/-- A record of 64 bytes written into the completion ring through the ring's queue pair (R501, R504): the position it gets, or
ERROR with the queue pair in the error state. -/
def writeRecord (s : State) (r : Nat) (k : Ring) (code status : Nat) (tag pos handle : Word) (res : List Word) : State × Bool :=
  match s.qp k.qp with
  | none => (s.setRing r { k with err := true, cqErr := true }, false)
  | some q =>
    if q.err then (s.setRing r { k with err := true, cqErr := true }, false)
    else
      let phase := (k.cpos / 2 ^ k.qlog + 1) % 2
      let w0 := BitVec.ofNat 32 (packFields [(16, code), (8, status), (7, 0), (1, phase)])
      let ws := [w0, tag, pos, handle] ++ (res ++ List.replicate 12 0#32).take 12
      ((qpSend (s.setRing r { k with cpos := (k.cpos + 1) % 4294967296 }) k.qp 64 16).answer status ws, true)

/-- A ring pair destroyed with its doorbell key (R492, R533). -/
def dropRing (s : State) (r : Nat) : State :=
  match s.ring r with
  | none => s
  | some k =>
    let s1 : State := { s with hw := { s.hw with rings := merase s.hw.rings r, keys := merase s.hw.keys k.dbKey } }
    bumpGen (bumpGen s1 hKey k.dbKey) hRing r

/-- A ring that a `destroy-ring` waits for, with nothing left in flight (R533). -/
def settleRing (s : State) (r : Nat) : State :=
  match s.ring r with
  | none => s
  | some k =>
    match k.ending with
    | none => s
    | some (cr, cp) =>
      if cr = r then
        (if k.flight.isEmpty then dropRing s r
         else if k.flight.all fun f => f.pos == cp && f.done.isNone then finishCmd s r cp csOk (handleOf s hRing r) [] else s)
      else if k.flight.isEmpty then finishCmd (dropRing s r) cr cp csOk (handleOf s hRing r) [] else s

/-- A credit back to its session (R528); a `close-session` that waits ends once no request is left. -/
def returnCredit (s : State) (sess : Nat) : State :=
  match mget? s.hw.sessions sess with
  | none => s
  | some k =>
    let k1 : Session := { k with used := k.used - 1 }
    let s1 : State := { s with hw := { s.hw with sessions := mset s.hw.sessions sess k1 } }
    match k.ending with
    | none => s1
    | some (cr, cp) =>
      if k1.used = 0 then
        finishCmd (bumpGen { s1 with hw := { s1.hw with sessions := merase s1.hw.sessions sess } } hSession sess) cr cp csOk
          (handleOf s hSession sess) []
      else s1

/-- The oldest command of a ring that is done gets its completion record (R503, R504). -/
def writeCompletion (s : State) (r : Nat) : State :=
  match s.ring r with
  | none => s
  | some k =>
    match k.flight.find? fun f => f.done.isSome with
    | none => s
    | some f =>
      let d := f.done.getD (0, 0#32, [])
      let k1 : Ring := { k with flight := k.flight.filter fun g => g.pos != f.pos }
      let s1 := if k.err then s.setRing r k1
        else (writeRecord s r k1 (fld (arg f.words 0) 15 0) d.1 (arg f.words 1) (BitVec.ofNat 32 f.pos) d.2.1 d.2.2).1
      let s2 := match f.sess with
        | some q => returnCredit s1 q
        | none => s1
      settleRing s2 r

/-- An event record into one ring (R538, R539). -/
def eventTo (e : Event) (s : State) (r : Nat) : State :=
  match s.ring r with
  | none => s
  | some k =>
    if !k.events ∨ k.err ∨ (k.part ≠ 0 ∧ k.part ≠ e.part) then s
    else if 64 ≤ k.evAt.length then wCount (s.setRing r { k with lost := k.lost + 1 }) 0x140008 31 16 1
    else
      let put (a : State) (kind : Nat) (obj : Word) (ws : List Word) : State :=
        match a.ring r with
        | none => a
        | some k1 =>
          let k2 : Ring := { k1 with evSeq := k1.evSeq + 1, evAt := k1.evAt ++ [k1.cpos] }
          (writeRecord a r k2 0xFFFF csOk 0#32 (BitVec.ofNat 32 k2.evSeq) obj (BitVec.ofNat 32 kind :: ws)).1
      if k.lost = 0 then put s e.kind e.obj e.words
      else
        let s1 := put (s.setRing r { k with lost := 0 }) evLost 0#32 [BitVec.ofNat 32 k.lost]
        if 64 ≤ k.evAt.length + 1 then
          (match s1.ring r with
           | some k1 => wCount (s1.setRing r { k1 with lost := 1 }) 0x140008 31 16 1
           | none => s1)
        else put s1 e.kind e.obj e.words

/-- The oldest event goes to its rings (R538). -/
def reportEvent (s : State) : State :=
  match s.hw.events with
  | [] => s
  | e :: rest =>
    let s0 : State := { s with hw := { s.hw with events := rest } }
    (s0.hw.rings.map Prod.fst).foldl (eventTo e) s0

end Sys2Proof.Machine
end

