-- ==== Sys2Proof/Machine/MailboxObj.lean ====
section
/-! DEFINITION. The mailbox commands on rings, buffers, transport, channels, windows, registers and frame clocks (R497 to
R541). -/

namespace Sys2Proof.Machine

/-- DOORBELL (R500). -/
def execDoorbell (r : Fin 16384) (val : Word) (s : State) : Host.Outcome State Fault Refusal := .next (doorbell s r.val false val.toNat)

/-- COMPLETION_DOORBELL (R502). -/
def execCompletionDoorbell (r : Fin 16384) (val : Word) (s : State) : Host.Outcome State Fault Refusal :=
  .next (doorbell s r.val true val.toNat)

/-- COMMAND_TAKE (R508). -/
def execCommandTake (s : State) : Host.Outcome State Fault Refusal := .next (takeCommand s)

/-- NOP (R510). -/
def execNop (r : Fin 16384) (pos : Word) (s : State) : Host.Outcome State Fault Refusal :=
  .next (command s r.val pos 0x1 fun a _ ws => finishCmd a r.val pos.toNat (if badWord0 ws then csBadArg else csOk) 0#32 [])

/-- The answer of `query-device` (R510). -/
def deviceWords (s : State) : List Word :=
  [ BitVec.ofNat 32 (bnat s.mod.grade), BitVec.ofNat 32 (activeHw s), BitVec.ofNat 32 s.mod.serial, BitVec.ofNat 32 (s.mod.serial / 2 ^ 32) ] ++
  (List.range 6).map (rowWord s)

/-- QUERY_DEVICE (R510). -/
def execQueryDevice (r : Fin 16384) (pos : Word) (s : State) : Host.Outcome State Fault Refusal :=
  .next (command s r.val pos 0x2 fun a _ ws =>
    if badWord0 ws then finishCmd a r.val pos.toNat csBadArg 0#32 [] else finishCmd a r.val pos.toNat csOk 0#32 (deviceWords a))

/-! ### Registers (R524) -/

/-- Whether a target of a KIND exists. -/
def targetOk (kind target : Nat) : Bool :=
  if kind = 0 then true
  else if kind = 1 then decide (target < 2048 ∧ target % 64 < 34 ∧ target / 64 % 32 < 26)
  else if kind = 2 then decide (target < 56)
  else decide (target < 16384 ∧ target % 128 < 112 ∧ target / 128 < 96)

/-- Whether consecutive offsets lie where a KIND has registers. -/
def offsetsOk (kind off n : Nat) : Bool :=
  off % 4 == 0 && decide (off < 2 ^ 52) &&
  (kind != 0 || (decide (windowBase ≤ off) && (List.range n).all fun i => inWindow (off - windowBase + 4 * i)))

/-- The partition of a core that KIND 3 names. -/
def targetPart (s : State) (target : Nat) : Nat := (partOfRegion s (regionOfCore (coreAt (target % 128) (target / 128 % 128)))).getD 0

/-- The checks that `read-regs` and `write-regs` share. -/
def regChecks (s : State) (k : Ring) (ws : List Word) (count : Nat) : List (Bool × Nat) :=
  let kind := fld (arg ws 2) 1 0
  let target := (arg ws 3).toNat
  [ (badWord0 ws || fld (arg ws 2) 7 2 != 0 || fld (arg ws 2) 31 16 != 0, csBadArg),
    (kind != 3 && k.part != 0, csDenied), (!targetOk kind target, csBadArg),
    (k.part != 0 && targetPart s target != k.part, csCross),
    (!offsetsOk kind (arg64 ws 4) count, csBadAddr) ]

/-- READ_REGS (R524). -/
def execReadRegs (r : Fin 16384) (pos : Word) (s : State) : Host.Outcome State Fault Refusal :=
  .next (command s r.val pos 0x3 fun a k ws =>
    let n := fld (arg ws 2) 15 8
    let st := judge (regChecks a k ws n ++ [(n == 0 || decide (12 < n), csBadArg)])
    if st ≠ csOk then finishCmd a r.val pos.toNat st 0#32 []
    else
      let x := readSpaces a (fld (arg ws 2) 1 0) (arg ws 3).toNat (arg64 ws 4) n
      finishCmd x.2 r.val pos.toNat csOk 0#32 x.1)

/-- The registers that `write-regs` may write (R524). -/
def writable (kind off : Nat) : Bool :=
  let o := off - windowBase
  (kind == 0 && ((decide (0x20000 ≤ o ∧ o < 0x22000) && (o % 0x400 == 0 || o % 0x400 == 0x10 || o % 0x400 == 0x14 || o % 0x400 == 0x18)) ||
     o == 0x10004 || o == 0x10008 || o == 0x1000C || o == 0x10010)) ||
  (kind == 1 && off == 0x10) || (kind == 2 && (off == 0x18 || off == 0x20))

/-- A window register with plain fields written; a port's `cfg` acts (R17, R489). -/
def winPlain (s : State) (o : Nat) (val : Word) : State :=
  if decide (0x20000 ≤ o ∧ o < 0x22000) && o % 0x400 == 0 then portCfgWrite s ((o - 0x20000) / 0x400) val
  else match regFind windowRegs o with
    | some d => wSet s o (regAfterWrite d (wReg s o) val)
    | none => s

/-- WRITE_REGS (R524). -/
def execWriteRegs (r : Fin 16384) (pos : Word) (s : State) : Host.Outcome State Fault Refusal :=
  .next (command s r.val pos 0x4 fun a k ws =>
    let kind := fld (arg ws 2) 1 0
    let st := judge ([(badWord0 ws, csBadArg), notDevice k] ++ regChecks a k ws 1 ++
      [(fld (arg ws 2) 15 8 != 1, csBadArg), (!writable kind (arg64 ws 4), csDenied)])
    if st ≠ csOk then finishCmd a r.val pos.toNat st 0#32 []
    else
      let a1 := if kind = 0 then winPlain a (arg64 ws 4 - windowBase) (arg ws 6)
        else if kind = 1 then routerWrite a (routerNo (fld (arg ws 3) 5 0) (fld (arg ws 3) 10 6)) (arg64 ws 4) (arg ws 6)
        else stackWrite a (arg ws 3).toNat (arg64 ws 4) (arg ws 6)
      finishCmd a1 r.val pos.toNat csOk 0#32 [])

/-! ### Buffers -/

/-- CREATE_BUFFER (R517). -/
def execCreateBuffer (r : Fin 16384) (pos : Word) (s : State) : Host.Outcome State Fault Refusal :=
  .next (command s r.val pos 0x18 fun a k ws =>
    let p := hIndex (arg ws 2)
    let n := (arg ws 5).toNat
    let st := judge [(badWord0 ws, csBadArg), badHandle a hPart (arg ws 2), outOfScope k p, badAddr (arg64 ws 3) n 64,
      foreignRange a p (arg64 ws 3) n, (n % 64 != 0 || decide (n < 128), csBadArg)]
    match freeIndex a.hw.bufs 0 65536 with
    | none => finishCmd a r.val pos.toNat (if st = csOk then csNoResource else st) 0#32 []
    | some i =>
      if st ≠ csOk then finishCmd a r.val pos.toNat st 0#32 []
      else
        let b : HostBuf := ⟨p, arg64 ws 3, n, none⟩
        let a1 : State := { a with hw := { a.hw with bufs := mset a.hw.bufs i b } }
        finishCmd (putHeader a1 b []) r.val pos.toNat csOk (handleOf a1 hBuffer i) [])

/-- The checks of the two commands that name a buffer, and the buffer. -/
def onBuffer (s : State) (r : Nat) (pos : Word) (k : Ring) (ws : List Word) (body : State → Nat → HostBuf → State) : State :=
  let i := hIndex (arg ws 2)
  match mget? s.hw.bufs i with
  | none => finishCmd s r pos.toNat (judge [(badWord0 ws, csBadArg), badHandle s hBuffer (arg ws 2)]) 0#32 []
  | some b =>
    let st := judge [(badWord0 ws, csBadArg), badHandle s hBuffer (arg ws 2), outOfScope k b.part]
    if st ≠ csOk then finishCmd s r pos.toNat st 0#32 [] else body s i b

/-- DESTROY_BUFFER (R523). -/
def execDestroyBuffer (r : Fin 16384) (pos : Word) (s : State) : Host.Outcome State Fault Refusal :=
  .next (command s r.val pos 0x19 fun a k ws => onBuffer a r.val pos k ws fun b i buf =>
    let h := hdrState (bufHeader b buf)
    if buf.held.isSome ∨ h = bReady ∨ h = bFailed then finishCmd b r.val pos.toNat csInUse 0#32 []
    else
      let b1 := bumpGen { b with hw := { b.hw with bufs := merase b.hw.bufs i } } hBuffer i
      finishCmd b1 r.val pos.toNat csOk (arg ws 2) [])

/-- RELEASE_BUFFER (R519, R523). -/
def execReleaseBuffer (r : Fin 16384) (pos : Word) (s : State) : Host.Outcome State Fault Refusal :=
  .next (command s r.val pos 0x1A fun a k ws => onBuffer a r.val pos k ws fun b _ buf =>
    let h := bufHeader b buf
    let st := judge [(arg h 1 != arg ws 3 || hdrState h == bIdle, csStale), (hdrState h == bWriting, csInUse)]
    if st ≠ csOk then finishCmd b r.val pos.toNat st 0#32 []
    else finishCmd (putHeader b buf [0#32, arg h 1]) r.val pos.toNat csOk (arg ws 2) [])

/-! ### Rings, queue pairs, memory keys -/

/-- A scope word: zero for the device, or a partition handle (R533, R535, R536). -/
def scopeCheck (s : State) (w : Word) : Bool × Nat := if w = 0#32 then (false, csOk) else badHandle s hPart w
def scopeDevice (k : Ring) (w : Word) : Bool × Nat := (w == 0#32 && k.part != 0, csDenied)

/-- A new ring pair (R534). -/
def newRing (part clog qlog : Nat) (events : Bool) (cmd cq : Nat) (cqKey : Word) (qp dbKey : Nat) : Ring :=
  { part := part, clog := clog, qlog := qlog, events := events, cmd := cmd, cq := cq, cqKey := cqKey, qp := qp, dbKey := dbKey
    tail := 0, head := 0, cpos := 0, chead := 0, err := false, dbBad := false, cqErr := false, flight := [], evSeq := 0
    lost := 0, evAt := [], ending := none }

/-- The sizes of a ring pair (R495). -/
def ringSizesOk (clog qlog : Nat) (events : Bool) : Bool :=
  decide (6 ≤ clog ∧ clog ≤ 12 ∧ 6 ≤ qlog ∧ qlog ≤ 13) && decide (2 ^ clog + (if events then 64 else 0) ≤ 2 ^ qlog)

/-- CREATE_RING (R533). -/
def execCreateRing (r : Fin 16384) (pos : Word) (s : State) : Host.Outcome State Fault Refusal :=
  .next (command s r.val pos 0x28 fun a k ws =>
    let clog := fld (arg ws 2) 3 0
    let qlog := fld (arg ws 2) 7 4
    let ev := bit (arg ws 2) 8
    let part := hIndex (arg ws 3)
    let cmd := arg64 ws 4
    let key := mget? a.hw.keys (hIndex (arg ws 6))
    let qp := a.qp (hIndex (arg ws 10))
    let st := judge [(badWord0 ws || fld (arg ws 2) 31 9 != 0, csBadArg), scopeCheck a (arg ws 3), badHandle a hKey (arg ws 6),
      badHandle a hQp (arg ws 10), notDevice k,
      ((key.map MemKey.part) != some part || (qp.map Qp.part) != some part, csCross),
      badAddr cmd (64 * 2 ^ clog) 4096, (arg64 ws 7 % 64 != 0, csBadAddr), (!ringSizesOk clog qlog ev, csBadArg),
      (match key with
       | some m => !m.write || !decide (m.addr ≤ cmd ∧ cmd + 64 * 2 ^ clog ≤ m.addr + m.bytes)
       | none => true, csBadArg)]
    match freeIndex a.hw.rings 1 16384, freeIndex a.hw.keys 0 65536 with
    | some n, some d =>
      if st ≠ csOk then finishCmd a r.val pos.toNat st 0#32 []
      else
        let db := mbxBase + 16 * n
        let k1 := newRing part clog qlog ev cmd (arg64 ws 7) (arg ws 9) (hIndex (arg ws 10)) d
        let m : MemKey := ⟨part, db, 8, false, true, some n⟩
        let a1 : State := { a with hw := { a.hw with rings := mset a.hw.rings n k1, keys := mset a.hw.keys d m } }
        finishCmd a1 r.val pos.toNat csOk (handleOf a1 hRing n)
          [BitVec.ofNat 32 db, BitVec.ofNat 32 (db / 2 ^ 32), handleOf a1 hKey d]
    | _, _ => finishCmd a r.val pos.toNat (if st = csOk then csNoResource else st) 0#32 [])

/-- DESTROY_RING (R533). -/
def execDestroyRing (r : Fin 16384) (pos : Word) (s : State) : Host.Outcome State Fault Refusal :=
  .next (command s r.val pos 0x29 fun a k ws =>
    let n := hIndex (arg ws 2)
    let st := judge [(badWord0 ws, csBadArg), badHandle a hRing (arg ws 2), notDevice k, (n == 0, csDenied)]
    match a.ring n with
    | none => finishCmd a r.val pos.toNat st 0#32 []
    | some g =>
      if st ≠ csOk then finishCmd a r.val pos.toNat st 0#32 []
      else if g.ending.isSome then finishCmd a r.val pos.toNat csInUse 0#32 []
      else settleRing (a.setRing n { g with ending := some (r.val, pos.toNat) }) n)

/-- A new queue pair (R476, R535): words 3 to 7 of `create-qp`. -/
def newQp (s : State) (part : Nat) (w3 w4 w5 w6 w7 : Word) : Qp :=
  let base : Qp :=
    { part := part, port := fld w3 2 0, prio := fld w3 5 3, mtu := 256 * 2 ^ fld w3 8 6, timeout := fld w3 15 11, retry := fld w3 18 16
      rnrRetry := fld w3 21 19, remote := w4.toNat, rqp := fld w5 23 0, psn := fld w6 23 0, epsn := fld w7 23 0, una := []
      left := fld w3 18 16, rnrLeft := fld w3 21 19, sentAt := s.now, rnrAt := none, nakSent := false, wrAt := none, owed := []
      reads := [], err := false, synd := 0, rc := dNat 0, rt := dNat 0, alpha := dNat 1, quiet := 0, rateDue := s.now + quietCyc
      cnpAt := none, bells := [], seqTx := 0, seqRx := 0 }
  { base with rc := lineRate s base, rt := lineRate s base }

/-- Fields of words 3 and 5 to 7 of `create-qp` in range. -/
def qpWordsOk (w3 w5 w6 w7 : Word) : Bool :=
  fld w3 10 9 == 0 && fld w3 31 22 == 0 && fld w5 31 24 == 0 && fld w6 31 24 == 0 && fld w7 31 24 == 0

/-- CREATE_QP (R535). -/
def execCreateQp (r : Fin 16384) (pos : Word) (s : State) : Host.Outcome State Fault Refusal :=
  .next (command s r.val pos 0x38 fun a k ws =>
    let part := hIndex (arg ws 2)
    let st := judge [(badWord0 ws || !qpWordsOk (arg ws 3) (arg ws 5) (arg ws 6) (arg ws 7), csBadArg), scopeCheck a (arg ws 2),
      scopeDevice k (arg ws 2), outOfScope k part, (decide (4 < fld (arg ws 3) 8 6), csBadArg)]
    match freeIndex a.hw.qps 2 65536 with
    | none => finishCmd a r.val pos.toNat (if st = csOk then csNoResource else st) 0#32 []
    | some q =>
      if st ≠ csOk then finishCmd a r.val pos.toNat st 0#32 []
      else
        let a1 := a.setQp q (newQp a part (arg ws 3) (arg ws 4) (arg ws 5) (arg ws 6) (arg ws 7))
        finishCmd a1 r.val pos.toNat csOk (handleOf a1 hQp q) [])

/-- Whether another object holds a queue pair (R511). -/
def qpInUse (s : State) (q : Nat) : Bool :=
  (s.hw.rings.any fun e => e.2.qp == q) || (s.hw.wins.any fun e => e.2.qp == q || e.2.alt == q) ||
  (s.hw.parts.any fun e => e.2.peers.contains q || e.2.checks.peers.contains q || (e.2.checks.tsQp == q && e.2.checks.cls == 2))

/-- DESTROY_QP (R510, R535). -/
def execDestroyQp (r : Fin 16384) (pos : Word) (s : State) : Host.Outcome State Fault Refusal :=
  .next (command s r.val pos 0x39 fun a k ws =>
    let q := hIndex (arg ws 2)
    let part := ((a.qp q).map Qp.part).getD 0
    let st := judge [(badWord0 ws, csBadArg), badHandle a hQp (arg ws 2), (part == 0 && k.part != 0, csDenied), outOfScope k part,
      (qpInUse a q, csInUse)]
    if st ≠ csOk then finishCmd a r.val pos.toNat st 0#32 []
    else
      let a1 := bumpGen { a with hw := { a.hw with qps := merase a.hw.qps q } } hQp q
      finishCmd a1 r.val pos.toNat csOk (arg ws 2) [])

/-- REGISTER_MEMORY (R536). -/
def execRegisterMemory (r : Fin 16384) (pos : Word) (s : State) : Host.Outcome State Fault Refusal :=
  .next (command s r.val pos 0x3A fun a k ws =>
    let part := hIndex (arg ws 2)
    let n := arg64 ws 5
    let st := judge [(badWord0 ws || fld (arg ws 7) 31 2 != 0, csBadArg), scopeCheck a (arg ws 2), scopeDevice k (arg ws 2), outOfScope k part,
      badAddr (arg64 ws 3) n 1, foreignRange a part (arg64 ws 3) n, (n == 0, csBadArg)]
    match freeIndex a.hw.keys 0 65536 with
    | none => finishCmd a r.val pos.toNat (if st = csOk then csNoResource else st) 0#32 []
    | some i =>
      if st ≠ csOk then finishCmd a r.val pos.toNat st 0#32 []
      else
        let m : MemKey := ⟨part, arg64 ws 3, n, bit (arg ws 7) 0, bit (arg ws 7) 1, none⟩
        let a1 : State := { a with hw := { a.hw with keys := mset a.hw.keys i m } }
        finishCmd a1 r.val pos.toNat csOk (handleOf a1 hKey i) [])

/-- DEREGISTER_MEMORY (R510). -/
def execDeregisterMemory (r : Fin 16384) (pos : Word) (s : State) : Host.Outcome State Fault Refusal :=
  .next (command s r.val pos 0x3B fun a k ws =>
    let i := hIndex (arg ws 2)
    let m := mget? a.hw.keys i
    let part := (m.map MemKey.part).getD 0
    let st := judge [(badWord0 ws, csBadArg), badHandle a hKey (arg ws 2), (part == 0 && k.part != 0, csDenied), outOfScope k part,
      ((m.bind MemKey.ring).isSome, csInUse)]
    if st ≠ csOk then finishCmd a r.val pos.toNat st 0#32 []
    else
      let a1 := bumpGen { a with hw := { a.hw with keys := merase a.hw.keys i } } hKey i
      finishCmd a1 r.val pos.toNat csOk (arg ws 2) [])

/-! ### Frame clocks -/

/-- SET_FRAME_CLOCK (R532). -/
def execSetFrameClock (r : Fin 16384) (pos : Word) (s : State) : Host.Outcome State Fault Refusal :=
  .next (command s r.val pos 0x23 fun a k ws =>
    let c := fld (arg ws 2) 3 0
    let st := judge [(badWord0 ws || fld (arg ws 2) 31 4 != 0 || fld (arg ws 5) 30 14 != 0, csBadArg), notDevice k,
      (a.hw.sessions.any fun e => e.2.clock == c, csInUse),
      (decide (262144 ≤ (arg ws 3).toNat) || decide (65536 ≤ (arg ws 4).toNat), csBadArg)]
    if st ≠ csOk then finishCmd a r.val pos.toNat st 0#32 []
    else
      let a1 := clkEnable (clkWrite (clkWrite a c 0 (arg ws 3)) c 4 (arg ws 4)) c (arg ws 5)
      finishCmd a1 r.val pos.toNat (if bit (arg ws 5) 31 && !clkOn a1 c then csBadArg else csOk) 0#32 [])

/-! ### Runtime channels (R325 to R328) -/

/-- The edges of a partition's channel graph: open runtime channels and the compiled channels of its programs (R323). -/
def channelEdges (s : State) (part : Nat) : List (Nat × Nat) :=
  ((s.hw.chans.filter fun e => e.2.part == part).map fun e => (e.2.src, e.2.dst)) ++
  match s.hpart part with
  | none => []
  | some k => (s.hw.progs.filter fun e => e.2.part == part).flatMap fun e =>
      e.2.img.edges.map fun g => (coreInPart k g.1, coreInPart k g.2)

/-- The nodes reached from a list of nodes in at most n more edges. -/
def reachable (es : List (Nat × Nat)) : Nat → List Nat → List Nat
  | 0, l => l
  | n + 1, l => reachable es n (es.foldl (fun a e => if a.contains e.1 && !a.contains e.2 then a ++ [e.2] else a) l)

def reaches (es : List (Nat × Nat)) (a b : Nat) : Bool := (reachable es es.length [a]).contains b

/-- Whether byte ranges of a scratchpad overlap. -/
def rangesMeet (a n b m : Nat) : Bool := decide (a < b + m ∧ b < a + n)

/-- The ring and the status word of a channel at its receiver (R299, R311, R325). -/
def ringOk (k : Core) (base size st : Nat) : Bool :=
  base % 128 == 0 && decide (256 ≤ size ∧ size ≤ 1048576 ∧ base + size ≤ spadEnd) && st % 8 == 0 && decide (st + 8 ≤ spadEnd) &&
  !rangesMeet base size st 8 &&
  (List.range 32).all fun e =>
    epRole k e != roleRecv ||
      (let b := ringBase k e
       let n := ringSize k e
       let w := fld (cReg k (epReg e epStword)) 21 0
       !rangesMeet base size b n && !rangesMeet base size w 8 && !rangesMeet st 8 b n && !rangesMeet st 8 w 8)

/-- The lowest free endpoint of a core (R296). -/
def freeEp (k : Core) : Option Nat := (List.range 32).find? fun e => epRole k e == 0

/-- An endpoint set up (R325, R332). -/
def setupEp (k : Core) (e role hq base log st peer pe : Nat) (handle : Word) : Core :=
  let w (o v : Nat) (c : Core) : Core := cSet c (epReg e o) (BitVec.ofNat 32 v)
  let k1 := w epTail 0 (w epHead 0 (w epPeer (packFields [(7, coreX peer), (7, coreY peer), (5, pe)]) (w epStword st
    (w epRing (packFields [(22, base), (5, log)]) (w epCfg (packFields [(2, role), (2, 0), (4, hq)]) k)))))
  setEp (cFld (cSet k1 (epReg e epHandle) handle) (epReg e epResult) 31 16 0) e Endpoint.blank

/-- OPEN_CHANNEL (R325). -/
def execOpenChannel (r : Fin 16384) (pos : Word) (s : State) : Host.Outcome State Fault Refusal :=
  .next (command s r.val pos 0x30 fun a k ws =>
    let p := hIndex (arg ws 2)
    let src := coreAt (fld (arg ws 3) 6 0) (fld (arg ws 3) 13 7)
    let dst := coreAt (fld (arg ws 3) 20 14) (fld (arg ws 3) 27 21)
    let inGrid := decide (fld (arg ws 3) 6 0 < 112 ∧ fld (arg ws 3) 13 7 < 96 ∧ fld (arg ws 3) 20 14 < 112 ∧ fld (arg ws 3) 27 21 < 96)
    let base := fld (arg ws 4) 21 0
    let log := fld (arg ws 4) 26 22
    let stw := fld (arg ws 5) 21 0
    let here (c : Nat) : Bool := partOfRegion a (regionOfCore c) == some p
    let se := freeEp (a.core src)
    let re := freeEp (a.core dst)
    let st := judge [(badWord0 ws || fld (arg ws 3) 31 28 != 0 || fld (arg ws 4) 31 27 != 0 || fld (arg ws 5) 31 26 != 0, csBadArg),
      badHandle a hPart (arg ws 2), outOfScope k p, (!inGrid || !here src || !here dst, csCross),
      (!ringOk (a.core dst) base (2 ^ log) stw, csBadRing), (se.isNone || re.isNone, csNoEndpoint),
      (src == dst || reaches (channelEdges a p) dst src, csCycle)]
    match freeIndex a.hw.chans 0 172032 with
    | none => finishCmd a r.val pos.toNat (if st = csOk then csNoResource else st) 0#32 []
    | some i =>
      if st ≠ csOk then finishCmd a r.val pos.toNat st 0#32 []
      else
        let e1 := se.getD 0
        let e2 := re.getD 0
        let a1 : State := { a with hw := { a.hw with chans := mset a.hw.chans i ⟨p, src, e1, dst, e2, none, false⟩ } }
        let h := handleOf a1 hChannel i
        let hq := bnat (bit (arg ws 5) 25) + 2 * fld (arg ws 5) 24 22
        let a2 := a1.setCore src (setupEp (a1.core src) e1 roleSend 0 0 log 0 dst e2 h)
        let a3 := a2.setCore dst (writeStatus (setupEp (a2.core dst) e2 roleRecv hq base log stw src e1 h) e2 a2.now 0)
        finishCmd a3 r.val pos.toNat csOk h [BitVec.ofNat 32 (packFields [(5, e1), (3, 0), (5, e2)])])

/-- The endpoints of a channel freed, the status word CLOSED (R327, R328). -/
def dropChannel (s : State) (i : Nat) (c : Channel) : State :=
  let k1 := writeStatus (s.core c.dst) c.rep s.now 3
  let s1 := s.setCore c.dst (cFld k1 (epReg c.rep epCfg) 3 0 0)
  let s2 := s1.setCore c.src (cFld (s1.core c.src) (epReg c.sep epCfg) 3 0 0)
  bumpGen { s2 with hw := { s2.hw with chans := merase s2.hw.chans i } } hChannel i

/-- A channel that a `close-channel` waits for, once its post has ended (R327). -/
def settleChannel (s : State) (i : Nat) : State :=
  match mget? s.hw.chans i with
  | none => s
  | some c =>
    match c.ending with
    | none => s
    | some (cr, cp) =>
      if (epOf (s.core c.src) c.sep).posting.isSome then s
      else finishCmd (dropChannel s i c) cr cp csOk (handleOf s hChannel i) []

/-- CLOSE_CHANNEL (R327). -/
def execCloseChannel (r : Fin 16384) (pos : Word) (s : State) : Host.Outcome State Fault Refusal :=
  .next (command s r.val pos 0x31 fun a k ws =>
    let i := hIndex (arg ws 2)
    match mget? a.hw.chans i with
    | none => finishCmd a r.val pos.toNat (judge [(badWord0 ws, csBadArg), badHandle a hChannel (arg ws 2)]) 0#32 []
    | some c =>
      let st := judge [(badWord0 ws, csBadArg), badHandle a hChannel (arg ws 2), outOfScope k c.part, (c.ending.isSome, csInUse)]
      if st ≠ csOk then finishCmd a r.val pos.toNat st 0#32 []
      else
        let a1 := if epState (a.core c.src) c.sep = chBroken then a
          else a.setCore c.src (cFld (a.core c.src) (epReg c.sep epCfg) 3 2 chDraining)
        let a2 : State := { a1 with hw := { a1.hw with chans := mset a1.hw.chans i { c with ending := some (r.val, pos.toNat) } } }
        settleChannel a2 i)

/-! ### Remote windows (R419, R537) -/

/-- MAP_WINDOW (R537). -/
def execMapWindow (r : Fin 16384) (pos : Word) (s : State) : Host.Outcome State Fault Refusal :=
  .next (command s r.val pos 0x40 fun a k ws =>
    let w := fld (arg ws 2) 5 0
    let q1 := a.qp (hIndex (arg ws 3))
    let q2 := a.qp (hIndex (arg ws 4))
    let part := (q1.map Qp.part).getD 0
    let st := judge [(badWord0 ws || fld (arg ws 2) 31 6 != 0, csBadArg), badHandle a hQp (arg ws 3), badHandle a hQp (arg ws 4),
      outOfScope k part, (part == 0 || (q2.map Qp.part) != some part, csCross), ((mget? a.hw.wins w).isSome, csInUse)]
    if st ≠ csOk then finishCmd a r.val pos.toNat st 0#32 []
    else
      let a1 : State := { a with hw := { a.hw with wins := mset a.hw.wins w ⟨part, hIndex (arg ws 3), hIndex (arg ws 4), []⟩ } }
      finishCmd a1 r.val pos.toNat csOk (handleOf a1 hWindow w) [])

/-- The remote window and page of the chunk at which a stream halted (R419, R421). -/
def ctxWindow (x : StreamCtx) : Nat × Nat :=
  let a := (chunkAddr x x.pos).getD 0 - remoteBase
  (a / 2 ^ 45, a % 2 ^ 45 / 2097152)

/-- Every context of every stack that satisfies a test, changed. -/
def mapContexts (s : State) (test : StreamCtx → Bool) (f : State → Nat → Nat → State) : State :=
  (s.stks.flatMap fun e => (e.2.ctxs.filter fun c => test c.2).map fun c => (e.1, c.1)).foldl (fun a i => f a i.1 i.2) s

/-- MAP_PAGES (R537): entries written, streams halted on those pages run again. -/
def execMapPages (r : Fin 16384) (pos : Word) (s : State) : Host.Outcome State Fault Refusal :=
  .next (command s r.val pos 0x41 fun a k ws =>
    let w := hIndex (arg ws 2)
    let first := fld (arg ws 3) 23 0
    let n := (arg ws 4).toNat
    match mget? a.hw.wins w with
    | none => finishCmd a r.val pos.toNat (judge [(badWord0 ws, csBadArg), badHandle a hWindow (arg ws 2)]) 0#32 []
    | some win =>
      let st := judge [(badWord0 ws || fld (arg ws 3) 31 24 != 0, csBadArg), badHandle a hWindow (arg ws 2), outOfScope k win.part,
        badAddr (arg64 ws 5) (16 * n) 16, foreignRange a win.part (arg64 ws 5) (16 * n),
        (n == 0 || decide (65536 < n) || decide (16777216 < first + n), csBadArg)]
      if st ≠ csOk then finishCmd a r.val pos.toNat st 0#32 []
      else
        let bytes := devRead a (arg64 ws 5) (16 * n)
        let pages := (List.range n).foldl (fun m i => mset m (first + i) (natOfBytes ((bytes.drop (16 * i)).take 16))) win.pages
        let a1 : State := { a with hw := { a.hw with wins := mset a.hw.wins w { win with pages := pages } } }
        let hit (x : StreamCtx) : Bool :=
          x.state == xHalted && x.reason == whyMiss && dKind x == kRemote && (ctxWindow x).1 == w &&
          decide (first ≤ (ctxWindow x).2 ∧ (ctxWindow x).2 < first + n)
        finishCmd (mapContexts a1 hit remoteResume) r.val pos.toNat csOk (arg ws 2) [])

/-- A window's streams stopped and the window destroyed (R537). -/
def dropWindow (s : State) (w : Nat) : State :=
  let on (x : StreamCtx) : Bool :=
    dKind x == kRemote && (x.state == xRun || x.state == xHalted) && ((chunkAddr x 0).getD 0 - remoteBase) / 2 ^ 45 == w
  let s1 := mapContexts s on fun a st c => a.setCtx st c { a.ctx st c with state := xStopped }
  bumpGen { s1 with hw := { s1.hw with wins := merase s1.hw.wins w } } hWindow w

/-- UNMAP_WINDOW (R537). -/
def execUnmapWindow (r : Fin 16384) (pos : Word) (s : State) : Host.Outcome State Fault Refusal :=
  .next (command s r.val pos 0x42 fun a k ws =>
    let w := hIndex (arg ws 2)
    let part := ((mget? a.hw.wins w).map Window.part).getD 0
    let st := judge [(badWord0 ws, csBadArg), badHandle a hWindow (arg ws 2), outOfScope k part]
    if st ≠ csOk then finishCmd a r.val pos.toNat st 0#32 []
    else finishCmd (dropWindow a w) r.val pos.toNat csOk (arg ws 2) [])

end Sys2Proof.Machine
end

