-- ==== Sys2Proof/Machine/Bist.lean ====
section
/-! DEFINITION. What the heartwood and the bring-up engine write into the wafer: translation entries, region registers, ownership
entries, multicast trees, bypasses, and the findings of step BIST (R9, R25 to R29, R359, R368, R385, R682). -/

namespace Sys2Proof.Machine

/-! ### Tables -/

/-- The translation entry of a logical region as the wafer stands; VALID while a partition holds it (R359, R515). -/
def xlatOf (s : State) (l : Nat) : XlatEntry :=
  let p := physOf s l
  { l := Fin.ofNat 42 l, pcol := Fin.ofNat 8 (p % 8), prow := Fin.ofNat 8 (p / 8), valid := (partOfRegion s l).isSome
    byp := (List.range 16).map fun y => let b := bypassOf s p y; BitVec.ofNat 5 (if b = 17 then 31 else b) }

/-- XLAT packets for some logical regions, up to 7 entries each, each with a new generation (R359). -/
def writeXlat (s : State) (ls : List Nat) : State :=
  (List.range ((ls.length + 6) / 7)).foldl (fun a i =>
    a.allRouters (applyXlat (((ls.drop (7 * i)).take 7).map (xlatOf s)) (nReg a.rtTmpl nGen + 1#32))) s

/-- `svc.region` of the cluster routers of a physical region (R375). -/
def putRegionReg (s : State) (p l part : Nat) : State :=
  (clusterRouters p).foldl (fun a r =>
    a.setRouter r (nSet (a.router r) nRegion (BitVec.ofNat 32 (packFields [(6, l), (12, part)])))) s

/-- Ownership entries of memory units on every stack (R385, R514): VALID, WR and PART, or cleared. -/
def putOwner (s : State) (unit0 n part : Nat) (valid : Bool) : State :=
  let w := BitVec.ofNat 32 (packFields [(12, part), (1, bnat valid), (1, bnat valid)])
  (List.range 56).foldl (fun a st =>
    a.setStack st ((List.range n).foldl (fun k i => kSet k (kOwn (unit0 + i)) w) (a.stack st))) s

/-! ### Routes (R348) -/

/-- The routers of a unicast route with the output port taken at each, in at most n hops. -/
def routeOuts : Nat → Nat → Nat → List (Nat × Nat)
  | 0, _, _ => []
  | n + 1, r, d =>
    if r = d then []
    else
      let p := nextPort r d
      match linkEnd r p with
      | none => []
      | some e => (r, p) :: routeOuts n e.1 d

/-! ### The distance table (R36, R391, R392) -/

/-- The logical region that a stack's stream port serves (R36). -/
def boundRegion (st : Nat) : Nat :=
  if st < 16 then 7 * st / 16
  else if st < 28 then 7 * ((st - 16) / 2) + 6
  else if st < 44 then 35 + 7 * (st - 28) / 16
  else 7 * ((st - 44) / 2)

/-- A word of the distance table (R391). -/
def distWord (s : State) (l st : Nat) : Word :=
  let hs := (clusterRouters (physOf s l)).flatMap fun r => [0, 1].map fun i =>
    let d := stackRim st i
    (routeOuts 120 r (routerNo d.1 d.2)).length
  let hi := maxOf hs
  let lo := hs.foldl min hi
  BitVec.ofNat 32 (packFields [(6, lo), (6, hi), (12, 106 + 12 * hi), (1, bnat (boundRegion st == l))])

/-- The distance table rewritten where `wfr.dist` says it lies, and then its generation counted (R392). -/
def writeDist (s : State) : State :=
  let a := (wReg s 0x1120).toNat + 2 ^ 32 * fld (wReg s 0x1124) 19 0
  let s1 := devWrite s a ((List.range 42).flatMap fun l => (List.range 56).flatMap fun st => bytesOfWord (distWord s l st))
  wSet s1 0x1124 (wReg s1 0x1124 + 0x100000#32)

/-! ### Multicast trees (R368) -/

/-- Router and endpoint of a logical core (R10, R11, R343). -/
def corePlace (s : State) (c : Nat) : Nat × Nat :=
  let n := physCore s c
  let pc := n % 17
  let y := n % 272 / 17
  let p := n / 272
  let cx := min (pc / 4) 3
  (routerNo (1 + 4 * (p % 8) + cx) (1 + 4 * (p / 8) + y / 4), 5 * (y % 4) + pc - 4 * cx)

/-- A bit of a multicast entry set, with VALID. -/
def mcBit (s : State) (r g b : Nat) : State :=
  s.setRouter r (nSet (s.router r) (nMc g) (nReg (s.router r) (nMc g) ||| BitVec.ofNat 32 (2 ^ b) ||| 0x80000000#32))

/-- A multicast group from a source router to cores: its record and the entries of its tree (R368). -/
def makeGroup (s : State) (g part src : Nat) (cores : List Nat) : State :=
  cores.foldl (fun a c =>
    let d := corePlace a c
    let a1 := (routeOuts 120 src d.1).foldl (fun x e => mcBit x e.1 g e.2) a
    mcBit a1 d.1 g (8 + d.2)) { s with groups := mset s.groups g ⟨part, cores⟩ }

/-- A group taken away: its record and its entries. -/
def dropGroup (s : State) (g : Nat) : State :=
  let f (k : Router) : Router := { k with regs := merase k.regs (nMc g) }
  { s with groups := merase s.groups g, rtTmpl := f s.rtTmpl, routers := s.routers.map fun e => (e.1, f e.2) }

/-! ### Step BIST (R26, R682) -/

/-- Defective cores of a physical region by core row, as physical core numbers. -/
def rowBad (bad : List Nat) (p y : Nat) : List Nat := bad.filter fun n => n / 17 == 16 * p + y

/-- Whether a region breaks R26 by its cores. -/
def breaksR26 (bad : List Nat) (p : Nat) : Bool := (List.range 16).any fun y => decide (1 < (rowBad bad p y).length)

/-- Bypasses of rows with one defective core (R9, R682). -/
def putBypasses (s : State) (bad : List Nat) : State :=
  { s with mod := { s.mod with bad := bad }
           bypass := bad.foldl (fun m n => if (rowBad bad (n / 272) (n % 272 / 17)).length = 1 then mset m (n / 17) (n % 17) else merase m (n / 17)) s.bypass }

/-- A row judged after a test: its rootstock, RSTK_STATE and FENCED (R682). -/
def judgeRow (s : State) (q : Nat) : State :=
  let f := (List.range 8).filter fun c => physFenced s (8 * q + c)
  let put (col st : Nat) : State := wSet s (rowReg q) (setFld (setFld (rowWord s q) 2 0 col) 4 3 st)
  match f with
  | [] => put (rstkCol s q) rstkIntact
  | [c] => put c rstkAbsent
  | c :: _ => put (if f.contains (rstkCol s q) then rstkCol s q else c) rstkAbsent

/-- Two fenced regions in one row. -/
def rowLost (s : State) (q : Nat) : Bool := decide (1 < ((List.range 8).filter fun c => physFenced s (8 * q + c)).length)

/-- A region fenced by a test, with its FENCED bit and the repair record's note. -/
def fenceRegion (s : State) (p : Nat) : State :=
  let u := regionUnit p
  let s1 := wFld (setPhysFenced s p true) (0x200100 + 4 * p) 18 18 1
  if unitFenced s u then s1 else { s1 with hw := { s1.hw with fenced := s1.hw.fenced ++ [u] } }

/-- Defects recorded and acted upon (R682): cores as physical numbers, regions. -/
def recordDefects (s : State) (cores regions : List Nat) : State :=
  let bad := cores.foldl keyAdd s.mod.bad
  let s1 := putBypasses s bad
  let lost := (List.range 48).filter fun p => regions.contains p || breaksR26 bad p
  (List.range 6).foldl judgeRow (lost.foldl fenceRegion s1)

/-- Every scratchpad row zero, with valid parity and clear marks (R682, R241). -/
def zeroSpad (k : Core) : Core := { k with spad := Spad.reset }

/-- Every scratchpad of the wafer zeroed. -/
def zeroSpads (s : State) : State := (List.range 42).foldl (fun a l => mapRegion a l zeroSpad) s

/-- Rows with an intact rootstock. -/
def intactRows (s : State) : Nat := ((List.range 6).filter fun q => rstkState s q == rstkIntact).length

/-- The findings of step BIST acted upon (R682, R695): `brg.bist`, and the cause with which the step ends. -/
def bistResult (s : State) (f : BistFindings) : State × Nat :=
  let cores := f.cores.map fun e => 272 * e.1 + 17 * e.2.1 + e.2.2
  let s1 := zeroStacks (zeroSpads (recordDefects s cores f.regions)) 0 171798691840
  let fenced := ((List.range 48).filter fun p => physFenced s1 p).length
  let least := if s1.mod.grade then 4 else 5
  let w := BitVec.ofNat 32 (packFields [(14, min 0x3FFF s1.mod.bad.length), (6, min 63 fenced), (3, intactRows s1),
    (1, bnat (decide (intactRows s1 < least))), (6, min 63 f.stks.length)])
  (wSet s1 0xC w, if (List.range 6).any (rowLost s1) then 2 else if f.stks.isEmpty then 0 else 3)

end Sys2Proof.Machine
end

