-- ==== Sys2Proof/Machine/Pour.lean ====
section
/-! DEFINITION. Pours: their start, their receivers, their end; the end of a bring-up step; the measurement log (R279, R516, R679,
R689 to R697, R713, R714). -/

namespace Sys2Proof.Machine

/-! ### The measurement log (R713, R714) -/

/-- An entry of the measurement log as bytes. -/
def logBytes (e : LogEntry) : List Byte :=
  bytesLe 1 e.kind ++ bytesLe 3 0 ++ bytesLe 4 e.index ++ bytesLe 8 e.time ++ padTo 32 e.digest ++ bytesLe 16 0

/-- An entry logged: stored while fewer than 65,536 are, and always taken into M_LOG. -/
def logAdd (s : State) (kind index : Nat) (digest : List Byte) : State :=
  let e : LogEntry := ⟨kind, index, devTime s, digest⟩
  { s with hw := { s.hw with
      log := if s.hw.logN < 65536 then s.hw.log ++ [e] else s.hw.log, logN := s.hw.logN + 1
      mlog := Config.shake256 (s.hw.mlog ++ logBytes e) 32 } }

/-! ### The state of a bring-up step (R679, R695) -/

def brgStep : Nat := 0x8
def bsIdle : Nat := 0
def bsRunning : Nat := 1
def bsDone : Nat := 2
def bsFailed : Nat := 3
def brgCur (s : State) : Nat := fld (wReg s brgStep) 3 0
def brgState (s : State) : Nat := fld (wReg s brgStep) 6 4
def brgDone (s : State) (k : Nat) : Bool := bit (wReg s brgStep) (7 + k)

/-- The latest step ends: STATE, CAUSE, ELAPSED, and its DONE bit (R679, R695). -/
def brgEnd (s : State) (cause : Nat) : State :=
  let k := brgCur s
  let ticks := (s.now - s.mod.stepAt + 15999999) / 16000000
  let s1 := wFld (wFld (wFld s brgStep 6 4 (if cause = 0 then bsDone else bsFailed)) brgStep 23 16 cause) brgStep 31 24 (min 255 ticks)
  if cause = 0 ∧ 1 ≤ k ∧ k ≤ 6 then wFld s1 brgStep (7 + k) (7 + k) 1 else s1

/-! ### Start -/

def pourKey (part image : Nat) : Nat := 65536 * part + image % 65536

/-- Whether two cores lie in neighbouring logical clusters. -/
def nextCluster (a b : Nat) : Bool :=
  let dx := max (coreX a / 4) (coreX b / 4) - min (coreX a / 4) (coreX b / 4)
  let dy := max (coreY a / 4) (coreY b / 4) - min (coreY a / 4) (coreY b / 4)
  dx + dy == 1

/-- `pour.partner` of a target: the first two of the pour's targets in neighbouring clusters (R692; DESIGN CHOICE, log entry 16). -/
def partnerWord (c : Nat) (targets : List Nat) : Word :=
  let l := targets.filter (nextCluster c)
  let w (i : Nat) : Nat := match l[i]? with
    | some d => packFields [(7, coreX d), (7, coreY d), (1, 1)]
    | none => 0
  BitVec.ofNat 32 (w 0 + 65536 * w 1)

/-- The pour registers of a target written (R690, R696). -/
def pourTarget (i : PourInfo) (targets : List Nat) (s : State) (c : Nat) : State :=
  let k := cSet (s.core c) 0x604 (BitVec.ofNat 32 (i.base % 2 ^ 22))
  let k1 := cSet (cSet k 0x608 (BitVec.ofNat 32 i.copy)) 0x60C (BitVec.ofNat 32 (i.copy / 2 ^ 32 % 2 ^ 20))
  let k2 := cSet k1 0x610 (partnerWord c targets)
  s.setCore c (writePourCfg k2 s.now (BitVec.ofNat 32 (packFields [(16, i.image), (10, i.chunks), (5, 0), (1, 1)])))

/-- A pour started: registers, the multicast group from the stack that holds the copy, the completion bitmap (R690). -/
def startPour (part : Nat) (s : State) (e : PourInfo × List Nat) : State :=
  let s1 := e.2.foldl (pourTarget e.1 e.2) s
  let g := (freeIndex s1.groups 0 1024).getD 1024
  let st := ((burmonAddr e.1.copy).map Prod.fst).getD 0
  let s2 := if g < 1024 then makeGroup s1 g part (routerNo (stackRim st 0).1 (stackRim st 0).2) e.2 else s1
  { s2 with hw := { s2.hw with pours := mset s2.hw.pours (pourKey part e.1.image) ⟨g, e.1.digest, e.2, [], []⟩ } }

/-! ### End -/

/-- A program whose pours are all done: its log entry and its completion (R516, R713). -/
def programReady (s : State) (i : Nat) : State :=
  match mget? s.hw.progs i with
  | none => s
  | some g =>
    match g.cmd with
    | none => s
    | some (r, pos) =>
      if g.waits.isEmpty then
        (let s1 : State := { s with hw := { s.hw with progs := mset s.hw.progs i { g with cmd := none } } }
         let h := handleOf s1 hProgram i
         finishCmd (logAdd s1 3 h.toNat g.digest) r pos csOk h [])
      else s

/-- A pour that every target has: its group is taken away, the programs that wait go on. -/
def pourComplete (s : State) (key : Nat) : State :=
  match mget? s.hw.pours key with
  | none => s
  | some u =>
    if u.targets.all fun c => u.done.contains c then
      (let s1 := dropGroup { s with hw := { s.hw with pours := merase s.hw.pours key
                                                      progs := s.hw.progs.map fun e => (e.1, { e.2 with waits := e.2.waits.filter fun w => w != key }) } } u.group
       (s1.hw.progs.map Prod.fst).foldl programReady s1)
    else s

/-- A core that a pour does without: dead with cause TEST (R693), or, during LOAD_FW, defective as if step BIST had found it
(R694). -/
def pourLoses (s : State) (key c : Nat) : State :=
  match mget? s.hw.pours key with
  | none => s
  | some u =>
    let s1 : State := { s with hw := { s.hw with pours := mset s.hw.pours key { u with targets := u.targets.filter fun d => d != c } } }
    let s2 :=
      if key / 65536 = 0 ∧ brgState s = bsRunning then
        (let s3 := recordDefects s1 [physCore s1 c] []
         if (List.range 6).any (rowLost s3) then brgEnd s3 5 else s3)
      else fenceUnit s1 (coreUnit (physCore s1 c)) fcTest (key / 65536) noPm
    pourComplete s2 key

/-- A pour that FAILED at a core ends its command with FAILED (R692, R693). -/
def pourFailed (s : State) (key : Nat) : State :=
  let hit (g : Program) : Bool := g.waits.contains key && g.cmd.isSome
  (s.hw.progs.filter fun e => hit e.2).foldl (fun a e =>
    let cmd := e.2.cmd.getD (0, 0)
    let a1 := bumpGen { a with hw := { a.hw with progs := merase a.hw.progs e.1 } } hProgram e.1
    finishCmd a1 cmd.1 cmd.2 csFailed 0#32 []) s

/-- The key of the pour a core takes part in. -/
def corePour (s : State) (c : Nat) : Nat := pourKey ((partOfRegion s (regionOfCore c)).getD 0) (pourImage (s.core c))

/-- The digest of a whole image at the heartwood (R693). -/
def pourReport (s : State) (c : Nat) (digest : List Byte) : State :=
  let key := corePour s c
  match mget? s.hw.pours key with
  | none => s
  | some u =>
    if digest = u.digest then
      pourComplete { s with hw := { s.hw with pours := mset s.hw.pours key { u with done := keyAdd u.done c } } } key
    else if u.again.contains c then pourLoses s key c
    else
      let k := setPourState (clearHave (s.core c)) psPulling
      let s1 := s.setCore c { k with pour := { k.pour with copy := true, ended := (s.core c).pour.ended } }
      { s1 with hw := { s1.hw with pours := mset s1.hw.pours key { u with again := keyAdd u.again c } } }

/-! ### The rows -/

/-- POUR_ENABLE (R696): a write of the heartwood to `pour.cfg`. -/
def execPourEnable (c : CoreId) (val : Word) (s : State) : Host.Outcome State Fault Refusal :=
  .next (coreWrite s c.val rPourCfg val true)

/-- POUR_PACKET at a member (R691). -/
def execPourPacket (c : CoreId) (p : Packet) (s : State) : Host.Outcome State Fault Refusal :=
  let s1 := { s with net := s.net.erase p }
  let k := s1.coreNow c.val
  if ¬ hcrcOk p ∨ ¬ pcrcOk p ∨ ¬ isPour p ∨ k.fenced ∨ k.inReset then .next s1
  else .next (s1.setCore c.val (pourPacket k s1.now p))

/-- The bytes of a chunk as a source of R692 gives them, with the tarnish of the Burmon copy: partner 0, partner 1, the copy. -/
def chunkFrom (s : State) (k : Core) (c : Nat) (src : Nat) : Option (List Byte × Bool) :=
  let w := cReg k 0x610
  let a := pourBase k + 4096 * c
  if src = 2 then some (devRead s (pourCopy k + 4096 * c) 4096, devTarn s (pourCopy k + 4096 * c) 4096)
  else if k.pour.copy ∨ ¬ bit w (14 + 16 * src) then none
  else
    let x := fld w (16 * src + 6) (16 * src)
    let y := fld w (16 * src + 13) (16 * src + 7)
    if 112 ≤ x ∨ 96 ≤ y then none
    else
      let q := s.coreNow (coreAt x y)
      if q.fenced ∨ q.inReset then none else some (spadBytes q.spad s.now a 4096, false)

/-- The digest a chunk must have: from its pieces, or from the chunk table of the copy (R692). -/
def wantDigest (s : State) (k : Core) (c : Nat) : List Byte :=
  match mget? k.pour.digs c with
  | some d => d
  | none => devRead s (pourCopy k + 4096 * pourChunks k + 16 * c) 12

/-- A chunk pulled: none where its last source fails (R692). -/
def pullChunk (s : State) (k : Core) (c : Nat) : Option Core :=
  let want := wantDigest s k c
  let good (e : List Byte × Bool) : Bool := !e.2 && chunkDigest (pourImage k) c e.1 == want
  (([0, 1, 2].filterMap (chunkFrom s k c)).find? good).map fun e => takeChunk k s.now c e.1

/-- PULLING: at END or 2^16 cyc after the last pour packet, the missing chunks pulled in order (R692). -/
def execPulling (c : CoreId) (s : State) : Host.Outcome State Fault Refusal :=
  let k0 := s.core c.val
  if pourState k0 ≠ psReceiving ∧ pourState k0 ≠ psPulling then .next s
  else
    let s1 := if pourState k0 = psReceiving then s.reach (k0.pour.last + 65536) else s
    let k1 := setPourState (s1.coreNow c.val) psPulling
    let k2 : Core := { k1 with pour := { k1.pour with ended := some (k1.pour.ended.getD s1.now) } }
    let missing := (List.range (pourChunks k2)).filter fun i => !haveChunk k2 i
    let r := missing.foldl (fun (a : Core × Bool) i =>
      if a.2 then a else match pullChunk s1 a.1 i with
        | some k => (k, false)
        | none => (setPourState a.1 psFailed, true)) (k2, false)
    let s2 := s1.setCore c.val r.1
    .next (if r.2 then pourFailed s2 (corePour s2 c.val) else s2)

/-- POUR_DONE: HAVE counts CHUNKS; the image's digest goes to the heartwood, which sets the core's bit of the bitmap (R693). -/
def execPourDone (c : CoreId) (s : State) : Host.Outcome State Fault Refusal :=
  let k := s.coreNow c.val
  if (pourState k ≠ psReceiving ∧ pourState k ≠ psPulling) ∨ fld (cReg k rPourStatus) 12 3 ≠ pourChunks k then .next s
  else .next (pourReport (s.setCore c.val (setPourState k psDone)) c.val (imageDigest k (s.now + latency k)))

/-- POUR_TIMEOUT: no RECORD within 20 ms of END (R693, R694). -/
def execPourTimeout (c : CoreId) (s : State) : Host.Outcome State Fault Refusal :=
  let k := s.core c.val
  match k.pour.ended, mget? s.hw.pours (corePour s c.val) with
  | some t, some u =>
    if u.targets.contains c.val ∧ ¬ u.done.contains c.val then .next (pourLoses (s.reach (t + 20 * msCyc)) (corePour s c.val) c.val)
    else .next s
  | _, _ => .next s

end Sys2Proof.Machine
end

