-- ==== Sys2Proof/Machine/Steps.lean ====
section
/-! DEFINITION. Steps: seals, causes of a suspect step, reruns, touchstone, commits (R547 to R561, R571 to R576, R589). -/

namespace Sys2Proof.Machine

/-- Offsets of the integrity counters (R578). -/
def iReruns : Nat := 0x50000
def iAssay : Nat := 0x50004
def iGuard : Nat := 0x50008
def iHallmark : Nat := 0x5000C
def iTouch : Nat := 0x50010
def iAuth : Nat := 0x50014

/-- The requests that ran in steps not committed yet. -/
def stepReqs (k : Partn) : List Request := k.reqs.filter fun q => decide (q.kept < q.ran)

/-- Every request of the step ends with FAILED and a cause (R550, R560). -/
def failStepReqs (s : State) (p cause : Nat) (tarn : Bool) : State :=
  match s.hpart p with
  | none => s
  | some k => (stepReqs k).foldl (fun a q => endRequest a p q csFailed cause tarn) s

/-- A bit of the CHECKS word of the step's requests (R576). -/
def markChecks (s : State) (p b : Nat) : State :=
  updPart s p fun k => { k with reqs := k.reqs.map fun q =>
    if q.kept < q.ran ∧ q.checks / b % 2 = 0 then { q with checks := q.checks + b } else q }

/-- The image that the step runs: that of its first request, or of the partition's first program. -/
def stepImg (s : State) (p : Nat) (k : Partn) : Option ProgImage :=
  match (k.reqs.head?).bind (reqImg s) with
  | some i => some i
  | none => ((s.hw.progs.find? fun e => e.2.part == p).map fun e => e.2.img)

/-- The bytes of ranges of device memory. -/
def rangeBytes (s : State) (l : List (Nat × Nat)) : List Byte := l.flatMap fun e => devRead s e.1 e.2

/-- The step digest (R572). -/
def stepDigest (s : State) (p : Nat) (k : Partn) : List Byte :=
  Config.shake256 (rangeBytes s (((stepImg s p k).map ProgImage.outs).getD [])) 32

/-- The state of a step boundary copied into TS_AREA: where it lies and its length (R572, R623). -/
def copyState (s : State) (p : Nat) (k : Partn) : State × Nat × List Byte :=
  let bytes := rangeBytes s (((stepImg s p k).map ProgImage.keeps).getD [])
  (devWrite s k.checks.area bytes, bytes.length, bytes)

/-! ### Commit -/

/-- The statuses of TS_RESULT (R572). -/
def tsDone : Nat := 0
def tsBusy : Nat := 1
def tsProgram : Nat := 2
def tsSpace : Nat := 3

/-- A request at the commit of step n. -/
def commitReq (n : Nat) (q : Request) : Request :=
  match q.marks.find? fun m => m.1 == n with
  | some m => { q with kept := m.2, marks := q.marks.filter fun x => decide (n < x.1) }
  | none => q

/-- A request whose sections have all been committed ends: READY and OK or MISSED, or, for a replay, TS_RESULT with the step
digest (R453, R548, R572). -/
def readyRequest (s : State) (p : Nat) (q : Request) : State :=
  match q.replay with
  | none => endRequest s p q (if s.now < q.dead then csOk else csMissed) 0 (reqTarn s q)
  | some (qp, n) =>
    match s.hpart p with
    | none => s
    | some k => endRequest (sendIntegrity s p [qp] 4 0 (2 * tsDone) n q.plan [] (stepDigest s p k)) p q csOk 0 false

/-- A hold that a peer's LIVE has asked for, at the boundary it names (R623). -/
def takeHold (s : State) (p : Nat) : State :=
  match s.hpart p with
  | none => s
  | some k =>
    match k.holdFor with
    | some (q, n) => if k.committed = n then updPart (cancelBooked s p) p fun x => { x with holdFor := none, holdAt := some (q, s.now) } else s
    | none => s

/-- STATE sent to a joining module at a committed boundary; of a job that is not FLEET, the partition holds there (R623). -/
def answerJoin (s : State) (p : Nat) : State :=
  match s.hpart p with
  | none => s
  | some k =>
    match k.partner with
    | none => s
    | some q =>
      let c := copyState s p k
      let s1 := sendJob c.1 p [q] ⟨0x13, 0, 0, s.mod.serial, k.committed, k.checks.area, c.2.1, 0, Config.shake256 c.2.2 32⟩
      if k.checks.cls = 1 then updPart s1 p fun x => { x with partner := none }
      else updPart (cancelBooked s1 p) p fun x => { x with partner := none, holdAt := some (q, s.now) }

/-- Step n is committed: it is the new rollback point, its requests are READY (R548). -/
def commitStep (s : State) (p n : Nat) : State :=
  match s.hpart p with
  | none => s
  | some k =>
    let reqs := k.reqs.map (commitReq n)
    let ended := reqs.filter fun q => decide (q.kept = q.launches.length)
    if k.checks.cls = 2 ∧ ended.any (reqTarn s) then
      startRecovery (ended.foldl (fun a q => endRequest a p q csFailed 3 true) s) p 1
    else
      let s1 := s.setPart p { k with reqs := reqs, committed := n, epochs := k.epochs.filter fun e => decide (n ≤ e.1) }
      bookAhead (takeHold (answerJoin (ended.foldl (fun a q => readyRequest a p q) s1) p) p) p

/-- A suspect MASTER step held for touchstone, with TS_REQ sent (R571, R572). -/
def holdTouch (s : State) (p n : Nat) : State :=
  match s.hpart p with
  | none => s
  | some k =>
    let c := copyState s p k
    let plan := ((stepReqs k).head?.map Request.plan).getD 0
    let t : Touch := ⟨n, plan, stepDigest s p k, s.now, s.now, false, none⟩
    let s1 := wCount (c.1.setPart p { k with touch := some t }) iTouch 15 0 1
    sendIntegrity s1 p [k.checks.tsQp] 3 0 0 n plan (bytesLe 8 k.checks.area ++ bytesLe 4 c.2.1) []

/-! ### Judging a step -/

def sameGroup (a b : Nat × List Nat) : Bool := a.2.head? == b.2.head?

/-- The cores of an assay mismatch: the checker, and the core of the group's tile that was duplicated (R556, R557). -/
def assayPair (s : State) (p : Nat) (k : Partn) (e : Nat × List Nat) : List Nat :=
  let g := e.2.headD 0
  match (stepImg s p k).bind fun i => (i.groups.find? fun x => x.1 == g).map fun x => (i.kmin, x) with
  | none => [e.1]
  | some (kmin, x) =>
    let i := (srHash (Config.jobSeed (BitVec.ofNat 32 k.checks.job)) (BitVec.ofNat 32 k.step) g).toNat % 2 ^ kmin
    match x.2.2[i]? with
    | none => [e.1]
    | some c => [coreInPart k c, e.1]

/-- One of a list's members: which of them is free (log entry 7). -/
def freePick (s : State) (l : List Nat) : List Nat :=
  match l[(Config.freeWord s.free).toNat % max 1 l.length]? with
  | some c => [c]
  | none => []

/-- What the run just judged shows of the findings of the run before it: patina of the cores whose findings did not repeat, and
ASSAY (R559, R561, R575, R589). -/
def settleBefore (s : State) (p : Nat) : State :=
  match s.hpart p with
  | none => s
  | some k =>
    let b := k.before
    let n := k.now_
    let once := b.assay.filter fun e => !(n.assay.any (sameGroup e))
    let s1 := once.foldl (fun a e => ((freePick a (assayPair a p k e)).foldl (fun x c => addCorePatina x c 1000) a).takeFree 1) s
    let s2 := if once.isEmpty then s1 else markChecks s1 p 4
    let s3 := (b.guard.filter fun e => !n.guard.contains e).foldl (fun a e => addCorePatina a e.1 500) s2
    (b.prog.filter fun e => !(n.prog.any fun x => x.1 == e.1)).foldl (fun a e => addCorePatina a e.1 1000) s3

/-- Steps sealed behind one that was held, committed in order up to the next suspect one (R574). -/
def drainLater (s : State) (p : Nat) : State :=
  let l := ((s.hpart p).map Partn.later).getD []
  l.foldl (fun a e =>
    match a.hpart p with
    | none => a
    | some k =>
      if k.touch.isSome ∨ k.recov ≠ 0 then a
      else
        let a1 := a.setPart p { k with later := k.later.drop 1 }
        if e.2 then holdTouch a1 p e.1 else commitStep a1 p e.1) s

/-- A held step committed after replay (R573, R576). -/
def commitHeld (s : State) (p n : Nat) : State :=
  drainLater (commitStep (updPart (markChecks s p 8) p fun k => { k with touch := none }) p n) p

/-- A held step that ends in FAILED: its requests with it, and the partition rolls back to the held boundary (R573, R574). -/
def failHeld (s : State) (p cause : Nat) : State :=
  startRecovery (updPart (failStepReqs s p cause false) p fun k => { k with touch := none, later := [] }) p 1

/-- The local run that decides a held step (R573, R612). -/
def decideHeld (s : State) (p n : Nat) (answer : List Byte) : State :=
  match s.hpart p with
  | none => s
  | some k =>
    if stepDigest s p k = answer then
      commitHeld ((partRegions k).foldl (fun a l => addPatina a (regionUnit (physOf a l)) 200) s) p n
    else failHeld (wCount s iTouch 23 16 1) p 4

/-- A step whose seals are complete and whose checks let it stand (R548, R571, R574). -/
def cleanStep (s : State) (p : Nat) (suspect : Bool) : State :=
  match s.hpart p with
  | none => s
  | some k =>
    let n := k.sealed + 1
    let bad : Bool := k.checks.cls == 2 && (suspect || decide (1 < k.runs) || k.odd)
    let s1 := settleBefore s p
    let s2 := updPart s1 p fun x => { x with sealed := n, seals := [], sealAt := none, runs := 1, now_ := Findings.none, before := Findings.none, odd := false }
    match k.touch.bind Touch.answer with
    | some t => decideHeld s2 p n t
    | none =>
      if k.touch.isSome then updPart s2 p fun x => { x with later := x.later ++ [(n, bad)] }
      else if bad then holdTouch s2 p n
      else commitStep s2 p n

/-- Cores that raised check events, tested once their partition is failed: which of them fail is free (R618, log entry 7). -/
def culprits (k : Partn) : List Nat :=
  (k.now_.parity ++ (k.now_.assay ++ k.now_.guard ++ k.now_.prog).map Prod.fst).eraseDups
def testCores (s : State) (p : Nat) (cs : List Nat) : State :=
  cs.foldl (fun a c =>
    let u := coreUnit (physCore a c)
    if bit (Config.freeWord a.free) 0 then fenceUnit (a.takeFree 1) u fcTest p noPm else a.takeFree 1) s

/-- A partition failed for what its step showed, and its cores tested (R618). -/
def failAndTest (s : State) (p : Nat) : State :=
  let cs := ((s.hpart p).map culprits).getD []
  testCores (failPartition s p 0) p cs

/-- The step runs again (R549); after the fourth run its requests fail and the partition is failed (R550). -/
def rerunStep (s : State) (p : Nat) (next : Findings) : State :=
  match s.hpart p with
  | none => s
  | some k =>
    if 4 ≤ k.runs then
      updPart (failAndTest (failStepReqs s p 1 false) p) p fun x => { x with now_ := Findings.none, before := Findings.none, seals := [], sealAt := none }
    else
      startRecovery (updPart s p fun x => { x with before := next, now_ := Findings.none, seals := [], sealAt := none }) p 1

/-- A program fault: as though the fourth run had been reached (R589, R647). -/
def programFault (s : State) (p : Nat) : State := failAndTest (failStepReqs s p 1 false) p

/-- Whether a core shows a discard flag (R589). -/
def discardFlag (k : Core) : Bool :=
  (cReg k rCtlStatus &&& 7#32) != 0#32 || (cReg k rMtxStatus &&& 31#32) != 0#32 || (cReg k rVecStatus &&& 15#32) != 0#32

/-- The regions of a partition whose suspect seal some finding explains. -/
def explained (f : Findings) (l : Nat) : Bool :=
  f.other || f.overcur.contains l ||
  (f.parity ++ (f.assay ++ f.guard ++ f.prog).map Prod.fst).any fun c => regionOfCore c == l

/-- Persistent assay mismatches: the cores pruned are those that fail the known-answer tests, or both; which fail is free
(R559, log entry 7). -/
def prunePairs (s : State) (p : Nat) (k : Partn) (l : List (Nat × List Nat)) : State :=
  l.foldl (fun a e =>
    let pr := assayPair a p k e
    let w := Config.freeWord a.free
    let cut := if bit w 0 = bit w 1 then pr else if bit w 0 then pr.take 1 else pr.drop (pr.length - 1)
    cut.foldl (fun x c => fenceUnit x (coreUnit (physCore x c)) fcAssay p noPm) (a.takeFree 1)) s

/-- A suspect step whose seals are complete and whose cause is known (R549, R559 to R561, R575, R589, R647). -/
def resolveStep (s : State) (p : Nat) (k : Partn) : State :=
  let f := k.now_
  let b := k.before
  if !f.parity.isEmpty || f.other then
    rerunStep (wCount (f.parity.foldl (fun a c => addCorePatina a c 200) s) iReruns 15 0 1) p Findings.none
  else if f.overcur.any fun g => b.overcur.contains g then programFault s p
  else if f.prog.any fun e => b.prog.contains e && discardFlag (s.core e.1) then programFault s p
  else
    match f.prog.find? fun e => b.prog.any fun x => x.1 == e.1 with
    | some e => fenceUnit (updPart s p fun x => { x with now_ := Findings.none, before := Findings.none, seals := [], sealAt := none })
        (coreUnit (physCore s e.1)) fcProgress p noPm
    | none =>
      if !f.overcur.isEmpty || !f.prog.isEmpty then rerunStep s p f
      else
        let again := f.assay.filter fun e => b.assay.any (sameGroup e)
        if !again.isEmpty then
          rerunStep (prunePairs (wCount s iAssay 31 16 again.length) p k again) p Findings.none
        else if !f.assay.isEmpty then rerunStep (wCount s iReruns 31 16 1) p f
        else if k.checks.guard = 2 then
          startRecovery (updPart (failStepReqs s p 2 false) p fun x => { x with now_ := Findings.none, before := Findings.none, seals := [], sealAt := none }) p 1
        else if k.checks.guard = 1 then
          (let same := f.guard.filter fun e => b.guard.contains e
           if same.length = f.guard.length then cleanStep (markChecks (wCount s iGuard 31 16 same.length) p 2) p true
           else if !b.guard.isEmpty then
             cleanStep (if same.isEmpty then s else markChecks (wCount s iGuard 31 16 same.length) p 2) p true
           else rerunStep (wCount s iReruns 31 16 1) p f)
        else cleanStep s p true

/-- A step judged once the seals of every region are held (R548): it stands, it waits for a cause, or it is resolved. -/
def judgeStep (s : State) (p : Nat) : State :=
  match s.hpart p with
  | none => s
  | some k =>
    if k.recov ≠ 0 ∨ k.halted ∨ ¬ (partRegions k).all (fun l => k.seals.any fun e => e.1 == l) then s
    else
      let bad := k.seals.filter fun e => e.2
      if bad.isEmpty then cleanStep s p false
      else if bad.all fun e => explained k.now_ e.1 then resolveStep s p k
      else s.setPart p { k with sealAt := some (k.sealAt.getD s.now) }

end Sys2Proof.Machine
end

