-- ==== Sys2Proof/Machine/Resets.lean ====
section
/-! DEFINITION. Post-mortem samples and the resets of cores, clusters and partitions (R243, R281, R329, R332, R339, R425, R599 to
R601). -/

namespace Sys2Proof.Machine

/-! ### Post-mortem records (R601) -/

def rPm : Nat := 0x20000C

/-- The status registers of every engine. -/
def pmRegs : List Nat := [0x408, 0xB00, 0x122C, 0x2004, 0x2808, 0x300C, 0x3204, 0x3300, 0x104, 0x614, 0x2C14, 0x2C34, 0x2C54, 0x2C74]

/-- The rows named for a core: those named for it, and those named for every core of its partition. -/
def pmRows (s : State) (n p : Nat) : List Nat :=
  (((s.hpart p).map Partn.samples).getD []).filterMap fun e => if e.1 = n ∨ e.1 = 13056 then some e.2 else none

/-- A sample of a core: `ctl.pc`, the status registers, the tile status, the row at `ctl.pc`, the row at `spd.err.addr` when VALID,
and the rows named. -/
def pmSample (s : State) (c : Nat) : PostMortem :=
  let k := s.coreNow c
  let n := physCore s c
  let row (i : Nat) : List Byte := spadBytes k.spad s.now (128 * i) 128
  let e := cReg k rSpdErrAddr
  { core := n
    regs := BitVec.ofNat 32 k.pc :: pmRegs.map (cReg k) ++ k.tileStat.flatMap fun t => t.2.map (BitVec.ofNat 32)
    rows := row (k.pc / 128) :: (if bit e 31 then [row (fld e 21 0 / 128)] else []) ++
            ((pmRows s n ((partOfRegion s (regionOfCore c)).getD 0)).take 32).map row }

/-- A core sampled, unless it does not answer: the latest 4,096 records are kept. -/
def takePm (s : State) (c : Nat) : State :=
  if (s.core c).inReset then s
  else
    let n := (fld (wReg s rPm) 15 0 + 1) % 65536
    let s1 := wCount (wFld s rPm 15 0 n) rPm 31 16 1
    { s1 with hw := { s1.hw with pms := merase (mset s1.hw.pms n (pmSample s c)) ((n + 61440) % 65536) } }

/-! ### One core -/

/-- Whether a register keeps its value at a core reset: repair entries (R243), and the mode of the partition (R212). -/
def keptReg (off : Nat) : Bool := decide (0x2100 ≤ off ∧ off < 0x2300) || off == rSpdCfg

/-- Items that a reset absorbs: results, flits and tokens of the core's queues, packets and requests abandoned (R600). -/
def absorbed (k : Core) : Nat :=
  (k.flitQ.map fun e => e.2.length).foldl (· + ·) 0 + (k.tokQ.map fun e => e.2.length).foldl (· + ·) 0 +
  (k.localTok.map fun e => e.2.length).foldl (· + ·) 0

/-- A core as its reset leaves it (R599): work stopped; scratchpad, repair entries and slot tables kept. -/
def resetCore (keepSlots : Bool) (k : Core) : Core :=
  { Core.reset with regs := k.regs.filter fun e => keptReg e.1, spad := k.spad, slots := (if keepSlots then k.slots else []), rows := []
                    fenced := k.fenced, inReset := k.fenced, idle := true, awaiting := true }

/-- A stream that writes into a core that is reset stops with DEST (R405, R425). -/
def stopStream (hit : Nat → Bool) (x : StreamCtx) : StreamCtx :=
  if x.state = xRun ∧ x.words.length = 16 ∧ dKind x ≠ kSched ∧ dKind x ≠ kShared ∧ hit (dDest x) then
    { x with state := xFault, reason := whyDest }
  else x

/-- Every context of every stack changed. -/
def mapAllCtxs (s : State) (f : StreamCtx → StreamCtx) : State :=
  { s with stks := s.stks.map fun e => (e.1, { e.2 with ctxs := e.2.ctxs.map fun q => (q.1, f q.2) }) }

/-- ABSORBED of `hlt.resets`, in units of 256 (R600, R631). -/
def countAbsorbed (s : State) (n : Nat) : State := wCount s 0x200004 31 24 (n / 256)

/-- Cores reset together: sampled, their channels broken, streams to them stopped, then reset (R329, R332, R600, R601). -/
def resetCores (s : State) (cs : List Nat) (keepSlots : Bool) : State :=
  let s1 := cs.foldl takePm s
  let s2 := mapAllCtxs (breakOn s1 (fun c => cs.contains c) 2) (stopStream fun c => cs.contains c)
  let n := (cs.map fun c => absorbed (s2.core c)).foldl (· + ·) 0
  countAbsorbed (cs.foldl (fun a c => a.setCore c (resetCore keepSlots (a.core c))) s2) n

/-! ### A partition -/

/-- The cores of a logical region. -/
def regionCores (l : Nat) : List Nat := (List.range 256).map fun i => coreAt (16 * (l % 7) + i % 16) (16 * (l / 7) + i / 16)

/-- Barrier groups whose release group belongs to a partition, cleared at every router (R364, R599). -/
def clearBarriers (s : State) (p : Nat) : State :=
  let mine (w : Word) : Bool := match mget? s.groups (fld w 25 16) with
    | some g => g.part == p
    | none => false
  s.allRouters fun k => (List.range 256).foldl (fun a b =>
    if (mget? a.regs (nBarCfg b)).isSome && mine (nReg a (nBarCfg b)) then { a with regs := merase (merase a.regs (nBarCfg b)) (nBarCnt b) } else a) k

/-- A partition reset (R425, R599, R600): cores, slot tables, contexts, barrier groups; ownership entries cleared, and written
again while the partition stays open. -/
def resetPart (s : State) (p : Nat) (stays : Bool) : State :=
  match s.hpart p with
  | none => s
  | some k =>
    let ls := partRegions k
    let s1 := (ls.flatMap regionCores).foldl takePm s
    let s2 := breakOn s1 (fun c => ls.contains (regionOfCore c)) 2
    let s3 := ls.foldl (fun a l => mapRegion a l (resetCore false)) s2
    let s4 := mapCtxs s3 p fun _ => { StreamCtx.reset with reason := whyReset }
    let s5 := clearBarriers s4 p
    let s6 := ls.foldl (fun a l => a.setRegion l { a.region l with suspect := false }) s5
    putOwner s6 k.unit0 k.units (if stays then p else 0) stays

end Sys2Proof.Machine
end

