-- ==== Sys2Proof/Machine/Sections.lean ====
section
/-! DEFINITION. Sections: launch, barrier, bank swap, checkpoints (R279 to R285, R390, R446 to R449, R586 to R588). -/

namespace Sys2Proof.Machine

/-- END of a partition: the same on every router that was loaded (R280). -/
def partEnd (s : State) (k : Partn) : Nat :=
  let ls := partRegions k
  let own := (s.cores.filter fun e => ls.contains (regionOfCore e.1)).map fun e => sectEnd e.2
  maxOf (own ++ ls.map fun l => sectEnd (s.region l).tmpl)

/-- The device time of a partition's latest launch, where its cores run a section. -/
def partLaunch (s : State) (k : Partn) : Option Nat :=
  let c := s.core (coreAt (16 * k.col0) (16 * k.row0))
  if c.awaiting then none else c.launchAt

/-- The assay registers that the heartwood writes at a step launch (R555, R577). -/
def launchAssay (k : Partn) (kmin : Nat) (c : Core) : Core :=
  cSet (cSet (cSet c 0xC00 (BitVec.ofNat 32 (packFields [(1, bnat k.checks.asyEn), (4, k.checks.asyK), (4, kmin)])))
    0xC04 (Config.jobSeed (BitVec.ofNat 32 k.checks.job))) 0xC08 (BitVec.ofNat 32 k.step)

/-- The request whose section launches at a device time (R451). -/
def launchReq (k : Partn) (t : Nat) : Option Request := (frontReq k).filter fun q => q.launches[q.ran]? == some t

/-- Whether every target of a launch is ready for it: images poured and verified, copies of device time aligned (R284, R449). -/
def launchReady (s : State) (p : Nat) (k : Partn) : Bool :=
  !(s.hw.progs.any fun e => e.2.part == p && !e.2.waits.isEmpty) &&
  !(partRegions k).any fun l => s.tmb.lost.contains (physOf s l)

/-- A launch at its device time (R283, R284, R390, R398, R449, R519). -/
def launchPart (s : State) (p : Nat) (t : Nat) : State :=
  match s.hpart p with
  | none => s
  | some k =>
    if k.halted then s
    else if !launchReady s p k then startRecovery s p 1
    else
      let q := launchReq k t
      let s1 := match q with
        | some r => (if r.started then s else startWriting s r).setPart p (updReq k { r with started := true })
        | none => s
      let kmin := ((q.bind (reqImg s)).map ProgImage.kmin).getD 0
      let s2 := mapPart s1 k fun c => launchAssay k kmin (launchCore t c)
      bookAhead (schedStreams s2 p fun x => { x with state := xRun, pos := 0, sent := 0 }) p

/-- SECTION_LAUNCH: the partition's next booked LAUNCH (R283, R446, R448). -/
def execSectionLaunch (part : Nat) (s : State) : Host.Outcome State Fault Refusal :=
  let mine (e : Booked) : Bool := e.kind == .launch (BitVec.ofNat 12 part)
  let first := (s.tmb.events.filter mine).foldl (fun (b : Option Booked) e => match b with
    | none => some e
    | some x => if e.time < x.time then some e else some x) none
  match first with
  | none => .next s
  | some e =>
    let s1 := s.reach e.time
    .next (launchPart { s1 with tmb := { s1.tmb with events := s1.tmb.events.filter fun x => x.id != e.id } } part e.time)

/-- The hallmark reference table at an address: ranges, SLICE_LOG2, where the digests begin (R562). -/
def refRanges (s : State) (ref : Nat) : List (Nat × Nat) :=
  (List.range (natOfBytes (devRead s ref 4))).map fun i => (natOfBytes (devRead s (ref + 16 + 16 * i) 8), natOfBytes (devRead s (ref + 24 + 16 * i) 8))
def refSliceLog (s : State) (ref : Nat) : Nat := natOfBytes (devRead s (ref + 4) 1)
def refBytes (s : State) (ref : Nat) : Nat := ((refRanges s ref).map Prod.snd).foldl (· + ·) 0
def refSlices (s : State) (ref : Nat) : Nat := (refBytes s ref + 2 ^ refSliceLog s ref - 1) / 2 ^ refSliceLog s ref
def refDigest (s : State) (ref j : Nat) : List Byte := devRead s (ref + 16 + 16 * (refRanges s ref).length + 32 * j) 32
def noDigest : List Byte := List.replicate 32 0#8

/-- Bytes [a, a + n) of the concatenation of ranges, as ranges. -/
def cutRanges : List (Nat × Nat) → Nat → Nat → List (Nat × Nat)
  | [], _, _ => []
  | (x, len) :: t, a, n =>
    if len ≤ a then cutRanges t (a - len) n
    else
      let m := min (len - a) n
      if m = 0 then [] else (x + a, m) :: cutRanges t 0 (n - m)

/-- The ranges of slice j, the digest of the slice, and whether its read carries tarnish (R562, R563). -/
def sliceRanges (s : State) (ref j : Nat) : List (Nat × Nat) :=
  cutRanges (refRanges s ref) (j * 2 ^ refSliceLog s ref) (2 ^ refSliceLog s ref)
def sliceDigest (s : State) (ref j : Nat) : List Byte :=
  Config.shake256 (bytesLe 4 j ++ rangeBytes s (sliceRanges s ref j)) 32
def sliceTarn (s : State) (ref j : Nat) : Bool := (sliceRanges s ref j).any fun e => devTarn s e.1 e.2

/-- Whether every slice has a reference digest, and whether every slice matches it (R570). -/
def refComplete (s : State) (ref : Nat) : Bool := (List.range (refSlices s ref)).all fun j => refDigest s ref j != noDigest
def refMatches (s : State) (ref : Nat) : Bool := (List.range (refSlices s ref)).all fun j => sliceDigest s ref j == refDigest s ref j

/-- Settings of `set-checks` that take effect, with the command's completion; an expelled replica returns when every slice matches
(R554, R570). -/
def applyChecks (s : State) (p : Nat) : State :=
  match s.hpart p with
  | none => s
  | some k =>
    match k.newChk with
    | none => s
    | some (c, r, pos) =>
      let back := k.expelled && c.cls == 1 && refMatches s c.ref
      finishCmd (s.setPart p { k with checks := c, newChk := none, expelled := k.expelled && !back, round := none, digests := [] })
        r pos csOk (handleOf s hPart p) []

/-- A step boundary (R330, R547, R554): seals sent and SUSPECT cleared, channels recorded, the step counted. -/
def stepBoundary (s : State) (p : Nat) : State :=
  match s.hpart p with
  | none => s
  | some k =>
    let n := k.step
    let s1 := (partRegions k).foldl (fun a l =>
      let g := a.region l
      { a.setRegion l { g with suspect := false } with seals := a.seals ++ [(p, l, n, g.suspect)] }) s
    let s2 := (s1.hw.chans.filter fun e => e.2.part == p).foldl (fun a e => saveChannel n a e.2) s1
    let mark (q : Request) : Request := if q.started then { q with marks := q.marks ++ [(n, q.ran)] } else q
    applyChecks (s2.setPart p { k with step := n + 1, epochs := mset k.epochs n (partEpoch s2 k), reqs := k.reqs.map mark }) p

/-- A barrier at its device time (R280, R285, R398). -/
def barrierPart (s0 : State) (p : Nat) (k : Partn) (l : Nat) : State :=
  let s := s0.reach (l + partEnd s0 k)
  let s1 := mapPart s k fun c => if c.awaiting then c else barrierCore s.now c
  let s2 := schedStreams s1 p fun x => { x with state := if x.state = xRun then xDone else x.state }
  match launchReq k l with
  | none => s2
  | some q =>
    let isStep := (((reqSecs s q)[q.ran]?).map SectionInfo.isStep).getD false
    let s3 := s2.setPart p (updReq k { q with ran := q.ran + 1 })
    if isStep then stepBoundary s3 p else s3

/-- SECTION_BARRIER (R280). -/
def execSectionBarrier (part : Nat) (s : State) : Host.Outcome State Fault Refusal :=
  match s.hpart part with
  | none => .next s
  | some k =>
    match partLaunch s k with
    | none => .next s
    | some l => .next (barrierPart s part k l)

/-- BANK_SWAP: 64 cyc after the barrier of the core's own section count (R283). -/
def execBankSwap (c : CoreId) (s : State) : Host.Outcome State Fault Refusal :=
  let k := s.core c.val
  if ¬ k.swapDue then .next s
  else
    let s1 := s.reach ((k.launchAt.map fun l => l + sectEnd k + 64).getD s.now)
    .next (s1.setCore c.val (swapBank (s1.core c.val)))

/-! ### Checkpoints -/

/-- Section cycle of checkpoint k: every 65,536 cyc, and END last (R586). -/
def checkCycle (k : Core) (i : Nat) : Nat := min (65536 * (i + 1)) (sectEnd k)

/-- The counts found at a checkpoint, as the words of an entry (R586). -/
def checkWords (k : Core) (final : Bool) : List Word :=
  [BitVec.ofNat 32 k.issued, BitVec.ofNat 32 (k.issued / 2 ^ 32)] ++ (List.range 4).map (fun i => cReg k (0x3064 + 4 * i)) ++
  [if final then cReg k rFabStale else 0#32]

/-- CHECKPOINT: the counts latched, compared with the entry, reported (R586, R587). -/
def execCheckpoint (c : CoreId) (s : State) : Host.Outcome State Fault Refusal :=
  let k0 := s.core c.val
  match k0.launchAt with
  | none => .next s
  | some l =>
    let i := fld (cReg k0 0x104) 31 16
    let cyc := checkCycle k0 i
    if 0 < i ∧ checkCycle k0 (i - 1) = sectEnd k0 then .next s
    else
      let s1 := s.reach (l + cyc)
      let k := settleCore k0 s1.now
      let a := fld (cReg k 0x100) 21 0 + 32 * i
      let want := wordsOfBytes (spadBytes k.spad s1.now a 28) 7
      let got := checkWords k (cyc == sectEnd k)
      let k1 := cFld (noteReads k 7 s1.now ((List.range 28).map fun b => (a + b, s1.now))) 0x104 31 16 (i + 1)
      let k2 := if want = got then k1
        else cCheck (cEmit (cFlag k1 0x104 1#32) s1.now ⟨.checkpoint, 0, i :: (want ++ got).map BitVec.toNat⟩)
      let s2 := s1.setCore c.val k2
      .next { s2 with hw := { s2.hw with probes := merase s2.hw.probes c.val } }

/-- CHECKPOINT_SILENT: no report 2,048 cyc after a checkpoint; the clock unit names the core and the heartwood reads its
`ctl.pc` (R588). -/
def execCheckpointSilent (c : CoreId) (s : State) : Host.Outcome State Fault Refusal :=
  let k := s.core c.val
  match k.launchAt with
  | none => .next s
  | some l =>
    let i := fld (cReg k 0x104) 31 16
    if (0 < i ∧ checkCycle k (i - 1) = sectEnd k) ∨ (mget? s.hw.probes c.val).isSome then .next s
    else
      let s1 := (s.reach (l + checkCycle k i + 2048)).record ⟨.silent, c.val, [i]⟩
      .next { s1 with hw := { s1.hw with probes := mset s1.hw.probes c.val s1.now } }

/-- SILENT_TIMEOUT: no answer within 2^16 cyc; the core is dead with cause SILENT (R588). -/
def execSilentTimeout (c : CoreId) (s : State) : Host.Outcome State Fault Refusal :=
  match mget? s.hw.probes c.val with
  | none => .next s
  | some t =>
    let s1 := s.reach (t + 65536)
    let p := (partOfRegion s1 (regionOfCore c.val)).getD 0
    .next (fenceUnit { s1 with hw := { s1.hw with probes := merase s1.hw.probes c.val } } (coreUnit (physCore s1 c.val)) fcSilent p noPm)

end Sys2Proof.Machine
end

