-- ==== Sys2Proof/Machine/MailboxPart.lean ====
section
/-! DEFINITION. The mailbox commands on partitions, programs, checks, sessions and requests; completions and events (R503, R514 to
R516, R525 to R531, R538, R553 to R555, R570, R648, R722). -/

namespace Sys2Proof.Machine

/-! ### Partitions (R515, R516) -/

/-- Whether a partition's size takes remap mode (R211, R212). -/
def remapMode (regions : Nat) : Bool := decide (regions ≤ 12)

/-- A core assigned to a newly opened partition: scratchpad zero, buffers and queues clear, mode set (R212, R241, R243). -/
def openCore (remap : Bool) (k : Core) : Core :=
  let regs := k.regs.filter fun e => !decide (0x2400 ≤ e.1 ∧ e.1 < 0x2600)
  cSet { zeroSpad k with regs := regs, hqs := [], hqCyc := [], hqPend := [], fills := [], rdyPend := [] } rSpdCfg
    (if remap then 15#32 else 12#32)

/-- The lowest run of n free memory units (R514, R515; DESIGN CHOICE, log entry 17). -/
def freeUnits (s : State) (n : Nat) : Option Nat :=
  (List.range (160 - n)).find? fun u => !(s.hw.parts.any fun e => decide (u < e.2.unit0 + e.2.units ∧ e.2.unit0 < u + n))

/-- A new partition (R515, R552). -/
def newPart (s : State) (col row ncol nrow u n horizon : Nat) : Partn :=
  { col0 := col, row0 := row, ncol := ncol, nrow := nrow, unit0 := u, units := n, horizon := horizon, mode := bnat (remapMode (ncol * nrow))
    free := 0, reqs := [], checks := Checks.none, newChk := none, step := 1, committed := 0, sealed := 0, runs := 1, seals := [], sealAt := none
    now_ := Findings.none, before := Findings.none, odd := false, later := [], epochs := [], haltAt := none, halted := false, recov := 0, restarts := 0
    heldJob := false, heat := false, standing := false, expelled := false, suspended := false, round := none, digests := [], touch := none
    peers := [], heard := [], dead := [], liveMs := 50, liveAt := s.now, partner := none, holdAt := none, holdFor := none, joiner := none, quenches := []
    key := none, oldKey := none, keyId := [], closing := none, samples := [], waiters := [] }

/-- A partition's regions taken over: cores, SUSPECT and PART of each region, the region registers of its routers, the translation
entries, the ownership entries (R515). -/
def layPart (s : State) (p : Nat) (k : Partn) : State :=
  let ls := partRegions k
  let s1 := ls.foldl (fun a l => mapRegion a l (openCore (k.mode == 1))) s
  let s2 := ls.foldl (fun a l => (putRegionReg a (physOf a l) l p).setRegion l { a.region l with suspect := false, part := p }) s1
  putOwner (writeXlat s2 ls) k.unit0 k.units p true

/-- OPEN_PARTITION (R515). -/
def execOpenPartition (r : Fin 16384) (pos : Word) (s : State) : Host.Outcome State Fault Refusal :=
  .next (command s r.val pos 0x10 fun a k ws =>
    let col := fld (arg ws 2) 2 0
    let row := fld (arg ws 2) 5 3
    let ncol := fld (arg ws 2) 9 6
    let nrow := fld (arg ws 2) 12 10
    let n := fld (arg ws 3) 7 0
    let g := newPart a col row ncol nrow 0 n (fld (arg ws 4) 15 0)
    let lc := lifeCycle a.mod
    let st := judge [(badWord0 ws || fld (arg ws 2) 31 13 != 0 || fld (arg ws 3) 31 8 != 0 || fld (arg ws 4) 31 16 != 0, csBadArg),
      notDevice k, (lc == 0 || lc == 4, csDenied),
      (decide (7 < col + ncol) || decide (6 < row + nrow) || ncol == 0 || nrow == 0 || n == 0 || g.horizon == 0, csBadArg),
      ((partRegions g).any fun l => (partOfRegion a l).isSome, csNoResource)]
    match freeUnits a n, freeIndex a.hw.parts 1 43 with
    | some u, some p =>
      if st ≠ csOk then finishCmd a r.val pos.toNat st 0#32 []
      else
        let g1 : Partn := { g with unit0 := u }
        let a1 := layPart (a.setPart p g1) p g1
        finishCmd a1 r.val pos.toNat csOk (handleOf a1 hPart p)
          [BitVec.ofNat 32 (unitAddr u), BitVec.ofNat 32 (unitAddr u / 2 ^ 32), BitVec.ofNat 32 (ncol * nrow + 64 * g1.mode)]
    | _, _ => finishCmd a r.val pos.toNat (if st = csOk then csNoResource else st) 0#32 [])

/-- The current sum of loaded programs in A: the largest section of each, and 20 A for each region without a partition (R648). -/
def progAmps (i : ProgImage) : Nat := maxOf (i.secs.map fun x => x.peaks.foldl (· + ·) 0)
def freeRegions (s : State) : Nat := ((List.range 42).filter fun l => (partOfRegion s l).isNone).length
def loadAmps (s : State) : Nat := (s.hw.progs.map fun e => progAmps e.2.img).foldl (· + ·) 0 + 20 * freeRegions s

/-- BUDGET as it acts (R649), and COMMIT brought up to date (R648; its rounding is free, log entry 7). -/
def budgetW (s : State) : Nat := max 6000 (min 18000 (fld (wReg s 0x30008) 15 0))
def putCommit (s : State) : State :=
  let w := if s.hw.progs.isEmpty then 0 else (roundFree s.free (935 * (loadAmps s : Nat) + 3800000 : Int) 1000).toNat
  (wFld s 0x30008 31 16 (min 65535 w)).takeFree 1

/-- Everything of a partition that can go before its rings do (R516). -/
def dropObjects (s : State) (p : Nat) : State :=
  let s1 := (s.hw.chans.filter fun e => e.2.part == p).foldl (fun a e =>
    match e.2.ending with
    | some (r, pos) => finishCmd (dropChannel a e.1 e.2) r pos csAborted 0#32 []
    | none => dropChannel a e.1 e.2) s
  let s2 := (s1.hw.sessions.filter fun e => e.2.part == p).foldl (fun a e =>
    let a1 := bumpGen { a with hw := { a.hw with sessions := merase a.hw.sessions e.1 } } hSession e.1
    match e.2.ending with
    | some (r, pos) => finishCmd a1 r pos csAborted 0#32 []
    | none => a1) s1
  let s3 := (s2.hw.bufs.filter fun e => e.2.part == p).foldl (fun a e =>
    bumpGen { a with hw := { a.hw with bufs := merase a.hw.bufs e.1 } } hBuffer e.1) s2
  let s4 := (s3.hw.progs.filter fun e => e.2.part == p).foldl (fun a e =>
    let a1 := bumpGen { a with hw := { a.hw with progs := merase a.hw.progs e.1 } } hProgram e.1
    match e.2.cmd with
    | some (r, pos) => finishCmd a1 r pos csAborted 0#32 []
    | none => a1) s3
  let s5 := (s4.hw.pours.filter fun e => e.1 / 65536 == p).foldl (fun a e =>
    dropGroup { a with hw := { a.hw with pours := merase a.hw.pours e.1 } } e.2.group) s4
  (s5.hw.wins.filter fun e => e.2.part == p).foldl (fun a e => dropWindow a e.1) s5

/-- The end of a close: queue pairs and keys destroyed, memory erased, the partition reset, its entries cleared, the close logged
(R425, R516, R713, R722). -/
def finishClose (s : State) (p : Nat) : State :=
  match s.hpart p with
  | none => s
  | some k =>
    let s1 := (s.hw.qps.filter fun e => e.2.part == p).foldl (fun a e =>
      bumpGen { a with hw := { a.hw with qps := merase a.hw.qps e.1 } } hQp e.1) s
    let s2 := (s1.hw.keys.filter fun e => e.2.part == p).foldl (fun a e =>
      bumpGen { a with hw := { a.hw with keys := merase a.hw.keys e.1 } } hKey e.1) s1
    let s3 := zeroStacks s2 (k.unit0 * 1073741824) ((k.unit0 + k.units) * 1073741824)
    let s4 := resetPart s3 p false
    let h := handleOf s4 hPart p
    let ls := partRegions k
    let s5 : State := { s4 with hw := { s4.hw with parts := merase s4.hw.parts p }, seals := s4.seals.filter fun x => x.1 != p }
    let s6 := ls.foldl (fun a l => (putRegionReg a (physOf a l) l 0).setRegion l { a.region l with part := 0 }) s5
    let s7 := bumpGen (logAdd (putCommit (writeXlat s6 ls)) 6 h.toNat []) hPart p
    match k.closing with
    | some (r, pos) => finishCmd s7 r pos csOk h []
    | none => s7

/-- Partitions whose close waits for nothing more: no ring of theirs is left (R516). -/
def settleClosing (s : State) : State :=
  (s.hw.parts.filter fun e => e.2.closing.isSome && !(s.hw.rings.any fun r => r.2.part == e.1)).foldl (fun a e => finishClose a e.1) s

/-- CLOSE_PARTITION (R516). -/
def execClosePartition (r : Fin 16384) (pos : Word) (s : State) : Host.Outcome State Fault Refusal :=
  .next (command s r.val pos 0x11 fun a k ws =>
    let p := hIndex (arg ws 2)
    let st := judge [(badWord0 ws, csBadArg), badHandle a hPart (arg ws 2), notDevice k,
      (((a.hpart p).bind Partn.closing).isSome, csInUse)]
    if st ≠ csOk then finishCmd a r.val pos.toNat st 0#32 []
    else
      let a1 := dropObjects (cancelBooked (endRequests a p csAborted 0) p) p
      let a2 := match a1.hpart p with
        | none => a1
        | some g =>
          let a3 := match g.newChk with
            | some (_, cr, cp) => finishCmd a1 cr cp csAborted 0#32 []
            | none => a1
          let a4 := match g.joiner with
            | some m => finishCmd a3 m.ring m.pos csAborted 0#32 []
            | none => a3
          a4.setPart p { g with closing := some (r.val, pos.toNat), newChk := none, joiner := none }
      let a5 := (a2.hw.rings.filter fun e => e.2.part == p).foldl (fun b e =>
        settleRing (b.setRing e.1 { e.2 with ending := some (16384, 0) }) e.1) a2
      settleClosing a5)

/-! ### Completions and events -/

/-- COMPLETION_WRITE (R503). -/
def execCompletionWrite (r : Fin 16384) (s : State) : Host.Outcome State Fault Refusal :=
  let s1 := (s.hw.chans.map Prod.fst).foldl settleChannel s
  .next (settleClosing (writeCompletion s1 r.val))

/-- Channels found BROKEN that no event has reported yet: by a timeout where the sender's latest post ended so, else by a sequence
error (R329, R531, R538). -/
def reportBroken (s : State) : State :=
  (s.hw.chans.filter fun e => !e.2.told && (epState (s.core e.2.src) e.2.sep == chBroken || epState (s.core e.2.dst) e.2.rep == chBroken)).foldl
    (fun a e =>
      let cause := if fld (cReg (a.core e.2.src) (epReg e.2.sep epResult)) 3 0 = pcTimeout then 1 else 0
      let a1 := raiseEvent a evChannelBroken e.2.part (handleOf a hChannel e.1) [BitVec.ofNat 32 cause]
      { a1 with hw := { a1.hw with chans := mset a1.hw.chans e.1 { e.2 with told := true } } }) s

/-- EVENT_REPORT (R531, R538). -/
def execEventReport (s : State) : Host.Outcome State Fault Refusal := .next (reportEvent (reportBroken s))

/-! ### Programs (R516) -/

/-- Whether edges form a cycle. -/
def hasCycle (es : List (Nat × Nat)) : Bool := es.any fun e => reaches es e.2 e.1

/-- Endpoints that an image binds, as device-wide cores, and one of them held by a runtime channel (R296). -/
def boundEps (k : Partn) (img : ProgImage) : List (Nat × Nat) := img.binds.map fun e => (coreInPart k e.1, e.2)
def epHeld (s : State) (e : Nat × Nat) : Bool := epRole (s.core e.1) e.2 == roleSend || epRole (s.core e.1) e.2 == roleRecv

/-- The role of an endpoint bound to a compiled channel. -/
def roleCompiled : Nat := 3
def bindEp (s : State) (e : Nat × Nat) : State := s.setCore e.1 (cFld (s.core e.1) (epReg e.2 epCfg) 1 0 roleCompiled)

/-- LOAD_PROGRAM (R213, R296, R323, R516, R555, R648, R690). -/
def execLoadProgram (r : Fin 16384) (pos : Word) (img : ProgImage) (s : State) : Host.Outcome State Fault Refusal :=
  .next (command s r.val pos 0x12 fun a k ws =>
    let p := hIndex (arg ws 2)
    let n := (arg ws 5).toNat
    match a.hpart p with
    | none => finishCmd a r.val pos.toNat (judge [(badWord0 ws, csBadArg), badHandle a hPart (arg ws 2)]) 0#32 []
    | some g =>
      let amps := loadAmps a + progAmps img
      let es := channelEdges a p ++ img.edges.map fun e => (coreInPart g e.1, coreInPart g e.2)
      let st := judge [(badWord0 ws, csBadArg), badHandle a hPart (arg ws 2), outOfScope k p, badAddr (arg64 ws 3) (max 1 n) 1,
        (!ownsRange a p (arg64 ws 3) (max 1 n) && !ownsRange a 0 (arg64 ws 3) (max 1 n), csCross),
        (n == 0 || img.regions != g.ncol * g.nrow || (g.checks.asyEn && decide (g.checks.asyK < img.kmin)), csBadArg),
        (img.mode != g.mode, csMode), ((boundEps g img).any (epHeld a), csNoEndpoint), (hasCycle es, csCycle),
        (decide (21000 < amps) || decide (1000 * budgetW a < 935 * amps + 3800000), csNoResource)]
      match freeIndex a.hw.progs 0 256 with
      | none => finishCmd a r.val pos.toNat (if st = csOk then csNoResource else st) 0#32 []
      | some i =>
        if st ≠ csOk then finishCmd a r.val pos.toNat st 0#32 []
        else
          let keys := img.pours.map fun x => pourKey p x.image
          let q : Program := ⟨p, img, Config.shake256 (devRead a (arg64 ws 3) n) 32, keys, some (r.val, pos.toNat)⟩
          let a1 := (boundEps g img).foldl bindEp { a with hw := { a.hw with progs := mset a.hw.progs i q } }
          let a2 := (img.pours.map fun x => (x, x.cores.map (coreInPart g))).foldl (startPour p) (putCommit a1)
          programReady a2 i)

/-! ### Checks (R553 to R555, R570) -/

/-- The settings that a `set-checks` names. -/
def checksOf (ws : List Word) : Checks :=
  let w := arg ws 3
  let cls := fld w 1 0
  let serve := bit w 15
  let peers := if cls = 1 then ((ws.drop 9).take (fld w 14 12 - 1)).map hIndex else []
  { cls := cls, asyEn := bit w 2, asyK := fld w 6 3, guard := fld w 8 7, replica := fld w 11 9, nrep := fld w 14 12, serve := serve
    job := (arg ws 4).toNat, hmN := fld (arg ws 5) 15 0, tsWait := fld (arg ws 5) 31 16, ref := arg64 ws 6
    tsQp := if cls = 2 then hIndex (arg ws 8) else 0, area := if cls = 2 ∨ serve then arg64 ws 9 else 0
    mib := if cls = 2 ∨ serve then (arg ws 11).toNat else 0, peers := peers }

/-- Whether a reference table has the format of R562. -/
def refOk (s : State) (ref : Nat) : Bool :=
  let n := natOfBytes (devRead s ref 4)
  let lg := refSliceLog s ref
  decide (1 ≤ n ∧ n ≤ 64 ∧ 24 ≤ lg ∧ lg ≤ 34) && devRead s (ref + 5) 11 == List.replicate 11 0#8 &&
  (refRanges s ref).all (fun e => e.1 % 64 == 0 && e.2 % 64 == 0) && decide (refSlices s ref ≤ 65536)

/-- The largest KMIN of a partition's programs (R555). -/
def partKmin (s : State) (p : Nat) : Nat := maxOf ((s.hw.progs.filter fun e => e.2.part == p).map fun e => e.2.img.kmin)

/-- The queue pair handles of a `set-checks`. -/
def checkQps (ws : List Word) (c : Checks) : List Word :=
  if c.cls = 2 then [arg ws 8] else if c.cls = 1 then (ws.drop 9).take (c.nrep - 1) else []

/-- SET_CHECKS (R554). -/
def execSetChecks (r : Fin 16384) (pos : Word) (s : State) : Host.Outcome State Fault Refusal :=
  .next (command s r.val pos 0x14 fun a k ws =>
    let p := hIndex (arg ws 2)
    match a.hpart p with
    | none => finishCmd a r.val pos.toNat (judge [(badWord0 ws, csBadArg), badHandle a hPart (arg ws 2)]) 0#32 []
    | some g =>
      let c := checksOf ws
      let fleet := c.cls == 1
      let area := decide (c.cls = 2) || c.serve
      let st := judge ([(badWord0 ws || fld (arg ws 3) 31 16 != 0 || (arg ws 15) != 0#32 || c.cls == 3 || c.guard == 3, csBadArg),
        badHandle a hPart (arg ws 2)] ++ (checkQps ws c).map (badHandle a hQp) ++ [outOfScope k p,
        (area && (c.area % 64 != 0 || decide (2 ^ 52 ≤ c.area)), csBadAddr),
        ((c.asyEn && decide (c.asyK < partKmin a p)) || (fleet && c.serve), csBadArg),
        (fleet && !(decide (1 ≤ c.nrep ∧ c.replica < c.nrep ∧ 1 ≤ c.hmN)), csBadArg),
        (fleet && !ownsRange a p c.ref 16, csCross), (fleet && !refOk a c.ref, csBadArg),
        (fleet && !((refRanges a c.ref).all fun e => e.2 == 0 || ownsRange a p e.1 e.2), csCross),
        (area && !ownsRange a p c.area (max 1 (1048576 * c.mib)), csCross),
        ((checkQps ws c).any fun h => ((a.qp (hIndex h)).map Qp.part) != some p, csCross),
        (fleet && g.expelled && !refComplete a c.ref, csBadArg),
        ((c.cls != g.checks.cls && !g.reqs.isEmpty) || g.newChk.isSome, csInUse)])
      if st ≠ csOk then finishCmd a r.val pos.toNat st 0#32 []
      else
        let a1 := a.setPart p { g with newChk := some (c, r.val, pos.toNat) }
        if g.reqs.isEmpty then applyChecks a1 p else a1)

/-! ### Sessions (R525) -/

/-- OPEN_SESSION. -/
def execOpenSession (r : Fin 16384) (pos : Word) (s : State) : Host.Outcome State Fault Refusal :=
  .next (command s r.val pos 0x20 fun a k ws =>
    let p := hIndex (arg ws 2)
    let i := hIndex (arg ws 3)
    let c := fld (arg ws 4) 3 0
    let n := (arg ws 5).toNat
    let st := judge [(badWord0 ws || fld (arg ws 4) 31 6 != 0, csBadArg), badHandle a hPart (arg ws 2), badHandle a hProgram (arg ws 3),
      outOfScope k p, (((mget? a.hw.progs i).map Program.part) != some p, csCross),
      (n == 0 || decide (1024 < n) || !clkOn a c, csBadArg)]
    match freeIndex a.hw.sessions 0 4096 with
    | none => finishCmd a r.val pos.toNat (if st = csOk then csNoResource else st) 0#32 []
    | some j =>
      if st ≠ csOk then finishCmd a r.val pos.toNat st 0#32 []
      else
        let q : Session := ⟨p, i, c, fld (arg ws 4) 5 4, n, 0, none⟩
        let a1 : State := { a with hw := { a.hw with sessions := mset a.hw.sessions j q } }
        finishCmd a1 r.val pos.toNat csOk (handleOf a1 hSession j) [])

/-- CLOSE_SESSION: those that have not launched end with ABORTED; it ends when the last credit is back. -/
def execCloseSession (r : Fin 16384) (pos : Word) (s : State) : Host.Outcome State Fault Refusal :=
  .next (command s r.val pos 0x21 fun a k ws =>
    let j := hIndex (arg ws 2)
    match mget? a.hw.sessions j with
    | none => finishCmd a r.val pos.toNat (judge [(badWord0 ws, csBadArg), badHandle a hSession (arg ws 2)]) 0#32 []
    | some q =>
      let st := judge [(badWord0 ws, csBadArg), badHandle a hSession (arg ws 2), outOfScope k q.part, (q.ending.isSome, csInUse)]
      if st ≠ csOk then finishCmd a r.val pos.toNat st 0#32 []
      else
        let a1 := abortUnlaunched a q.part fun x => x.sess == j && x.replay.isNone
        if q.used = 0 then
          finishCmd (bumpGen { a1 with hw := { a1.hw with sessions := merase a1.hw.sessions j } } hSession j) r.val pos.toNat csOk (arg ws 2) []
        else { a1 with hw := { a1.hw with sessions := mset a1.hw.sessions j { q with ending := some (r.val, pos.toNat) } } })

/-! ### Submission (R526 to R528) -/

/-- Whether a partition is in recovery, or takes no new work (R526, R569, R621). -/
def inRecovery (k : Partn) : Bool :=
  k.recov != 0 || k.halted || k.haltAt.isSome || k.heldJob || k.heat || k.suspended || k.holdAt.isSome || k.joiner.isSome || k.closing.isSome

/-- The end of a shed request, counted in `mbx.shed` (R540); with the prediction where one was made. -/
def shed (s : State) (r pos status : Nat) (ready : Option Nat) : State :=
  let s1 := if status = csBusy then wCount s 0x140004 15 0 1 else wCount s 0x140004 31 16 1
  finishCmd s1 r pos status 0#32 (match ready with
    | some t => [BitVec.ofNat 32 t, BitVec.ofNat 32 (t / 2 ^ 32)]
    | none => [])

/-- The earliest launch of a request (R451). -/
def earliestLaunch (s : State) (k : Partn) (c : Nat) (ws : List Word) : Nat :=
  let e := if bit (arg ws 13) 31 then lineDev s c (arg64 ws 11) (fld (arg ws 13) 13 0) else 0
  roundUp4096 (max (max (s.now + 16384) k.free) e)

/-- An admitted request: a credit, its place on the timeline, its buffer (R519, R526, R528). -/
def admitReq (s : State) (p r pos j b : Nat) (q : Session) (k : Partn) (ws : List Word) (plan dead : Nat)
    (times : List Nat × List Nat × Nat) : State :=
  let req : Request :=
    { ring := r, pos := pos, tag := arg ws 1, sess := j, buf := b, prog := q.prog, plan := plan, launches := times.1, barriers := times.2.1
      dead := dead, ran := 0, kept := 0, marks := [], started := false, checks := 0, reruns := 0, replay := none }
  let s1 := s.setPart p { k with reqs := k.reqs ++ [req], free := times.2.2 }
  let s2 : State := { s1 with hw := { s1.hw with sessions := mset s1.hw.sessions j { q with used := q.used + 1 } } }
  let s3 : State := match mget? s2.hw.bufs b with
    | some x => { s2 with hw := { s2.hw with bufs := mset s2.hw.bufs b { x with held := some (r, pos) } } }
    | none => s2
  let mark (f : Flight) : Flight := if f.pos = pos then { f with sess := some j } else f
  let s4 := match s3.ring r with
    | some g => s3.setRing r { g with flight := g.flight.map mark }
    | none => s3
  bookAhead s4 p

/-- A `submit` that has passed the checks of R512, judged under R526. -/
def judgeSubmit (s : State) (r pos : Nat) (ws : List Word) (q : Session) (b : HostBuf) (k : Partn) (pl : PlanInfo) (secs : List SectionInfo) :
    State :=
  let j := hIndex (arg ws 2)
  let times := planTimes secs (earliestLaunch s k q.clock ws)
  let ready := times.2.1.getLastD 0
  let dead := lineDev s q.clock (arg64 ws 8) (fld (arg ws 10) 13 0)
  if hdrState (bufHeader s b) ≠ bIdle ∨ b.held.isSome then finishCmd s r pos csInUse 0#32 []
  else if b.bytes < 64 + pl.bytes then finishCmd s r pos csBadArg 0#32 []
  else if q.credits ≤ q.used then shed s r pos csBusy none
  else if inRecovery k then shed s r pos csBusy none
  else if s.now + k.horizon * 4096 * (4 - q.cls) / 4 ≤ times.1.headD 0 then shed s r pos csBusy (some ready)
  else if dead ≤ ready then shed s r pos csLate (some ready)
  else admitReq s q.part r pos j (hIndex (arg ws 3)) q k ws (fld (arg ws 14) 7 0) dead times

/-- SUBMIT (R525, R526, R568, R584). -/
def execSubmit (r : Fin 16384) (pos : Word) (s : State) : Host.Outcome State Fault Refusal :=
  .next (command s r.val pos 0x22 fun a k ws =>
    let ins := (List.range 4).filterMap fun i => if arg ws (4 + i) = 0#32 then none else some (arg ws (4 + i))
    let st0 := judge ([(badWord0 ws || fld (arg ws 10) 31 14 != 0 || fld (arg ws 13) 30 14 != 0 || fld (arg ws 14) 31 8 != 0, csBadArg),
      badHandle a hSession (arg ws 2), badHandle a hBuffer (arg ws 3)] ++ ins.map (badHandle a hBuffer))
    match mget? a.hw.sessions (hIndex (arg ws 2)), mget? a.hw.bufs (hIndex (arg ws 3)) with
    | some q, some b =>
      let part (h : Word) : Option Nat := (mget? a.hw.bufs (hIndex h)).map HostBuf.part
      let st1 := judge [(st0 != csOk, st0), outOfScope k q.part, (b.part != q.part || ins.any fun h => part h != some q.part, csCross),
        (q.ending.isSome, csInUse)]
      if st1 ≠ csOk then finishCmd a r.val pos.toNat st1 0#32 []
      else match a.hpart q.part, (mget? a.hw.progs q.prog).bind fun g => (g.img.plans[fld (arg ws 14) 7 0]?).map fun pl => (g.img, pl) with
        | some g, some (img, pl) =>
          let secs := planSecs img (fld (arg ws 14) 7 0)
          let lines := clkLines a q.clock
          if secs.isEmpty ∨ lines ≤ fld (arg ws 10) 13 0 ∨ (bit (arg ws 13) 31 ∧ lines ≤ fld (arg ws 13) 13 0) then
            finishCmd a r.val pos.toNat csBadArg 0#32 []
          else if g.expelled then
            finishCmd a r.val pos.toNat csFailed 0#32 (List.replicate 8 0#32 ++ [6#32])
          else if a.hw.fault then finishCmd a r.val pos.toNat csFailed 0#32 []
          else judgeSubmit a r.val pos.toNat ws q b g pl secs
        | _, _ => finishCmd a r.val pos.toNat csBadArg 0#32 []
    | _, _ => finishCmd a r.val pos.toNat st0 0#32 [])

end Sys2Proof.Machine
end

