-- ==== Sys2Proof/Machine/Integrity.lean ====
section
/-! DEFINITION. Seals, causes, assay reports, hallmark and touchstone (R547 to R549, R558, R562 to R574). -/

namespace Sys2Proof.Machine

/-- SEAL_RECEIVE (R547, R548): the next seal of a region, for the step that the heartwood awaits. -/
def execSealReceive (part : Nat) (l : RegionId) (s : State) : Host.Outcome State Fault Refusal :=
  match s.hpart part with
  | none => .next s
  | some k =>
    match s.seals.find? fun x => x.1 == part && x.2.1 == l.val && x.2.2.1 == k.sealed + 1 with
    | none => .next s
    | some x =>
      let s1 : State := { s with seals := s.seals.erase x }
      .next (judgeStep (s1.setPart part { k with seals := k.seals ++ [(l.val, x.2.2.2)] }) part)

/-- SUSPECT_CAUSE_TIMEOUT (R548, R549): the cause is unknown 2^20 cyc after the seals. -/
def execSuspectCauseTimeout (part : Nat) (s : State) : Host.Outcome State Fault Refusal :=
  match (s.hpart part).bind Partn.sealAt with
  | none => .next s
  | some t => .next (judgeStep (updPart (s.reach (t + 1048576)) part fun k => { k with now_ := { k.now_ with other := true } }) part)

/-- ASSAY_REPORT (R558, R577). -/
def execAssayReport (c : CoreId) (val : Word) (s : State) : Host.Outcome State Fault Refusal :=
  .next (s.setCore c.val (assayReport (s.coreNow c.val) s.now val))

/-! ### Hallmark (R562 to R570) -/

/-- HALLMARK_ROUND (R564). -/
def execHallmarkRound (part : Nat) (s : State) : Host.Outcome State Fault Refusal :=
  match s.hpart part with
  | none => .next s
  | some k =>
    let n := k.step - 1
    if k.checks.cls ≠ 1 then .next s
    else match k.round with
      | none => .next (s.setPart part { k with round := some ⟨0, n, none, false⟩ })
      | some r =>
        if r.own.isSome ∧ r.step + k.checks.hmN ≤ n then
          .next (s.setPart part { k with round := some ⟨r.num + 1, n, none, false⟩, digests := k.digests.filter fun e => decide (8 * (r.num + 1) ≤ e.1) })
        else .next s

/-- The slice of a round. -/
def roundSlice (s : State) (k : Partn) (num : Nat) : Nat := num % max 1 (refSlices s k.checks.ref)

/-- HALLMARK_DIGEST_DONE (R563, R566). -/
def execHallmarkDigestDone (part : Nat) (s : State) : Host.Outcome State Fault Refusal :=
  match s.hpart part with
  | none => .next s
  | some k =>
    match k.round with
    | none => .next s
    | some r =>
      if r.own.isSome then .next s
      else
        let j := roundSlice s k r.num
        let d := sliceDigest s k.checks.ref j
        let tarn := sliceTarn s k.checks.ref j
        let k1 : Partn := { k with round := some { r with own := some s.now }, digests := mset k.digests (8 * r.num + k.checks.replica) (tarn, d) }
        .next (sendIntegrity (s.setPart part k1) part k.checks.peers 1 k.checks.replica (bnat tarn) r.num j [] d)

/-- The replica that a queue pair of a FLEET partition serves (R553). -/
def replicaOf (k : Partn) (q : Nat) : Option Nat :=
  match k.checks.peers.findIdx? fun x => x == q with
  | some i => some (if i < k.checks.replica then i else i + 1)
  | none => none

/-- An integrity message at the partition its queue pair belongs to: discarded and counted where TAG, JOB, TYPE or the sender
fails (R565, R721). -/
def onIntegrity (s : State) (q ty : Nat) (m : List Byte) (sender : Partn → Bool) (eff : Nat → Partn → State) : State :=
  let p := ((s.qp q).map Qp.part).getD 0
  let bad := wCount s iAuth 15 0 1
  match s.hpart p with
  | none => bad
  | some k =>
    if !tagOk s k m 64 juIntegrity ∨ msgNat m 0 1 ≠ ty ∨ msgNat m 4 4 ≠ k.checks.job ∨ k.dead.contains q ∨ !sender k then bad else eff p k

/-- A sender of a hallmark message: the replica that its queue pair serves. -/
def fromReplica (q : Nat) (m : List Byte) (k : Partn) : Bool := k.checks.cls == 1 && replicaOf k q == some (msgNat m 1 1)

/-- DIGEST (R566). -/
def execDigest (q : BitVec 16) (m : List Byte) (s : State) : Host.Outcome State Fault Refusal :=
  .next (onIntegrity s q.toNat 1 m (fromReplica q.toNat m) fun p k =>
    s.setPart p { k with digests := mset k.digests (8 * msgNat m 8 8 + msgNat m 1 1) (msgNat m 2 1 % 2 == 1, (m.drop 32).take 32) })

/-- The digests held for a round, as (replica, TARNISH, digest). -/
def roundDigests (k : Partn) (num : Nat) : List (Nat × Bool × List Byte) :=
  (List.range k.checks.nrep).filterMap fun i => (mget? k.digests (8 * num + i)).map fun d => (i, d)

/-- The majority of a round: a value held by more than half the replicas (R566). -/
def majority (n : Nat) (ds : List (Nat × Bool × List Byte)) : Option (List Byte) :=
  (ds.find? fun d => !d.2.1 && decide (n < 2 * (ds.filter fun e => !e.2.1 && e.2.2 == d.2.2).length)).map fun d => d.2.2

/-- The odd replicas of a round: those that differ from the reference digest, or from the majority (R566, R567). -/
def oddReplicas (ref : Option (List Byte)) (maj : Option (List Byte)) (ds : List (Nat × Bool × List Byte)) : List Nat :=
  match (match ref with
    | some v => some v
    | none => maj) with
  | some v => (ds.filter fun d => d.2.1 || d.2.2 != v).map Prod.fst
  | none => []

/-- The vote of a replica on a round (R567 to R569, R578). -/
def vote (s : State) (p : Nat) (k : Partn) (r : Round) : State :=
  let ds := roundDigests k r.num
  let d0 := refDigest s k.checks.ref (roundSlice s k r.num)
  let ref := if d0 = noDigest then none else some d0
  let maj := majority k.checks.nrep ds
  let odd := oddReplicas ref maj ds
  let own := maj.isSome && ds.any fun d => d.1 == k.checks.replica && !d.2.1 && some d.2.2 == maj
  let split := ref.isNone && maj.isNone && decide (2 ≤ ds.length)
  let s1 := s.setPart p { k with round := some { r with voted := true }, suspended := if own then false else k.suspended || split }
  let s2 := wCount s1 iHallmark 15 0 1
  let s3 := if split then wCount s2 iHallmark 31 24 1 else s2
  let s4 := (odd.filter fun i => i != k.checks.replica).foldl (fun a i => sendIntegrity a p k.checks.peers 2 k.checks.replica 0 r.num i [] []) s3
  if odd.contains k.checks.replica then expel s4 p else s4

/-- HALLMARK_VOTE: with every digest, or 1.0 s after its own (R566). -/
def execHallmarkVote (part : Nat) (s : State) : Host.Outcome State Fault Refusal :=
  match s.hpart part with
  | none => .next s
  | some k =>
    match k.round with
    | none => .next s
    | some r =>
      match r.own with
      | none => .next s
      | some t =>
        if r.voted then .next s
        else
          let full := (roundDigests k r.num).length == k.checks.nrep
          .next (vote (if full then s else s.reach (t + secondCyc)) part k r)

/-- EXPEL (R568): one that names this replica expels it. -/
def execExpel (q : BitVec 16) (m : List Byte) (s : State) : Host.Outcome State Fault Refusal :=
  .next (onIntegrity s q.toNat 2 m (fromReplica q.toNat m) fun p k => if msgNat m 16 4 = k.checks.replica then expel s p else s)

/-! ### Touchstone (R571 to R574) -/

/-- A step's boundary state placed in the partition's own ranges, in image order (R572, R623). -/
def placeState (s : State) (p : Nat) (k : Partn) (data : List Byte) : State :=
  let s1 := devWrite s k.checks.area data
  ((((stepImg s p k).map ProgImage.keeps).getD []).foldl (fun (a : State × List Byte) e => (devWrite a.1 e.1 (a.2.take e.2), a.2.drop e.2)) (s1, data)).1

/-- The program of a partition and a plan of it. -/
def replayPlan (s : State) (p plan : Nat) : Option (Nat × List SectionInfo) :=
  (s.hw.progs.find? fun e => e.2.part == p).bind fun e => if plan < e.2.img.plans.length then some (e.1, planSecs e.2.img plan) else none

/-- A replay judged by the touchstone partition: its status, or admitted as a class 0 request (R526, R527, R572). -/
def judgeReplay (s : State) (p : Nat) (k : Partn) (q step plan len : Nat) (data : List Byte) : State :=
  let answer (st : Nat) : State := sendIntegrity s p [q] 4 0 (2 * st) step plan [] []
  match replayPlan s p plan with
  | none => answer tsProgram
  | some (prog, secs) =>
    if !k.checks.serve ∨ secs.isEmpty then answer tsProgram
    else if 1048576 * k.checks.mib < len then answer tsSpace
    else
      let times := planTimes secs (roundUp4096 (max (s.now + 16384) k.free))
      if inRecovery k ∨ k.expelled ∨ s.hw.fault ∨ s.now + k.horizon * 4096 ≤ times.1.headD 0 then answer tsBusy
      else
        let req : Request :=
          { ring := 16384, pos := 0, tag := 0#32, sess := 4096, buf := 65536, prog := prog, plan := plan, launches := times.1, barriers := times.2.1
            dead := 2 ^ 64, ran := 0, kept := 0, marks := [], started := false, checks := 0, reruns := 0, replay := some (q, step) }
        let s1 := placeState s p k data
        bookAhead (s1.setPart p { k with reqs := k.reqs ++ [req], free := times.2.2 }) p

/-- TS_REQ (R572); `data` is the state that the RDMA READ brings. -/
def execTsReq (q : BitVec 16) (m : List Byte) (data : List Byte) (s : State) : Host.Outcome State Fault Refusal :=
  .next (onIntegrity s q.toNat 3 m (fun _ => msgNat m 1 1 == 0) fun p k =>
    judgeReplay s p k q.toNat (msgNat m 8 8) (msgNat m 16 4) (msgNat m 28 4) data)

/-- No touchstone decides the held step (R573, R578). -/
def noTouchstone (s : State) (p : Nat) : State := failHeld (wCount s iTouch 31 24 1) p 5

/-- An answer to the TS_REQ of a held step (R573). -/
def takeResult (s : State) (p : Nat) (k : Partn) (t : Touch) (status : Nat) (digest : List Byte) : State :=
  if t.answer.isSome then s
  else if status = tsDone then
    (if digest = t.own then commitHeld s p t.step
     else startRecovery (s.setPart p { k with touch := some { t with answer := some digest } }) p 1)
  else if status = tsBusy then s.setPart p { k with touch := some { t with busy := true } }
  else noTouchstone s p

/-- TS_RESULT. -/
def execTsResult (q : BitVec 16) (m : List Byte) (s : State) : Host.Outcome State Fault Refusal :=
  .next (onIntegrity s q.toNat 4 m (fun k => msgNat m 1 1 == 0 && k.checks.cls == 2 && k.checks.tsQp == q.toNat) fun p k =>
    match k.touch with
    | none => s
    | some t => if t.step = msgNat m 8 8 then takeResult s p k t (msgNat m 2 1 / 2 % 8) ((m.drop 32).take 32) else s)

/-- TS_RETRY: 10 ms after the latest TS_REQ that was answered BUSY (R573). -/
def execTsRetry (part : Nat) (s : State) : Host.Outcome State Fault Refusal :=
  match s.hpart part with
  | none => .next s
  | some k =>
    match k.touch with
    | none => .next s
    | some t =>
      if t.busy then
        let s1 := s.reach (t.last + 10 * msCyc)
        let len := (((stepImg s part k).map ProgImage.keeps).getD []).foldl (fun n e => n + e.2) 0
        .next (sendIntegrity (s1.setPart part { k with touch := some { t with last := s1.now, busy := false } }) part [k.checks.tsQp] 3 0 0 t.step
          t.plan (bytesLe 8 k.checks.area ++ bytesLe 4 len) [])
      else .next s

/-- TS_TIMEOUT: TS_WAIT after the first TS_REQ (R553, R573). -/
def execTsTimeout (part : Nat) (s : State) : Host.Outcome State Fault Refusal :=
  match s.hpart part with
  | none => .next s
  | some k =>
    match k.touch with
    | none => .next s
    | some t =>
      if t.answer.isSome then .next s
      else .next (noTouchstone (s.reach (t.first + (if k.checks.tsWait = 0 then 2000 else k.checks.tsWait) * msCyc)) part)

end Sys2Proof.Machine
end

