-- ==== Sys2Proof/Machine/DeviceReset.lean ====
section
/-! DEFINITION. The whole-device reset: what it keeps, block by block (R425, R428, R454, R489, R492, R540, R582,
R599, R631, R667, R668, R684, R695, R722). -/

namespace Sys2Proof.Machine

/-- The bits of a window register that a whole-device reset keeps; `rail` is RAIL of the region a register of `rgn` belongs to. -/
def keptBits (s : State) (off : Nat) : Word :=
  let all : Word := 0xFFFFFFFF#32
  let o := off % 0x400
  let g := off % 0x100
  if off = 0x8 then 0xF00#32
  else if off = 0x10 ∨ (0x40 ≤ off ∧ off < 0x80) then all
  else if 0x1000 ≤ off ∧ off < 0x2000 then all
  else if off = 0x10000 then 0xFF#32
  else if 0x10024 ≤ off ∧ off < 0x1003C then all
  else if 0x10100 ≤ off ∧ off < 0x10300 then all
  else if 0x20000 ≤ off ∧ off < 0x22000 then (if o = 0 ∨ o = 0x10 ∨ o = 0x14 ∨ o = 0x18 then all else if o = 4 then 7#32 else 0#32)
  else if off = 0x30008 then 0xFFFF#32
  else if off = 0x30000 ∨ off = 0x30004 ∨ off = 0x3000C then all
  else if 0x40000 ≤ off ∧ off < 0x44000 then
    (if g = 4 ∧ fld (wReg s off) 2 1 = 2 then all else if g = 0xC ∨ g = 0x10 ∨ g = 0x30 then all else 0#32)
  else if 0x200100 ≤ off ∧ off < 0x220000 then all
  else 0#32

/-- The register blocks after the reset. -/
def resetWindow (s : State) : Map Word :=
  s.win.map fun e =>
    let m := keptBits s e.1
    (e.1, (e.2 &&& m) ||| (regRaw windowRegs [] e.1 &&& ~~~m))

/-- A stack: registers at their reset values but for PART 0 ownership entries, contexts released, merge table clear; contents, repairs and
refresh kept (R425, R428). -/
def resetStack (k : Stack) : Stack :=
  { k with regs := k.regs.filter fun e => decide (0x100 ≤ e.1 ∧ e.1 < 0x380) && decide (fld e.2 11 0 = 0), shadow := [], merge := []
           ctxs := [], trainBy := none, reqs := [], nextTag := 0 }

/-- A port: QUIET where its link stands; one whose fence ends trains again, from electrical idle (R458 to R460, R599); one that is fenced as a
unit stays FENCED (R582). -/
def resetPort (s : State) (p : Nat) : State :=
  let st := portState s p
  let s1 := wFld s (pReg p 4) 2 0
    (if st = poFenced then (if unitFenced s (portUnit p) ∨ sbdLeaves s then poFenced else poTraining) else if st = poUp then poQuiet else st)
  let s2 := if st = poFenced ∧ portState s1 p = poTraining then wCount s1 (pReg p 4) 31 16 1 else s1
  s2.setPort p { Port.reset with mode := (s.port p).mode, preset := (s.port p).preset, since := s.now }

/-- Every object but ring 0, its queue pair and its keys destroyed, with the generations advanced (R492). -/
def resetObjects (s : State) : State :=
  let h := s.hw
  let r0 := mget? h.rings 0
  let keepQp (q : Nat) : Bool := (r0.map Ring.qp) == some q
  let keepKey (e : Nat × MemKey) : Bool := (r0.map Ring.dbKey) == some e.1 || (r0.any fun r => e.2.part == 0 && e.2.ring.isNone && e.2.addr == r.cmd)
  let bump (ty : Nat) (a : State) (i : Nat) : State := bumpGen a ty i
  let s1 := (h.parts.map Prod.fst).foldl (bump hPart) s
  let s2 := (h.sessions.map Prod.fst).foldl (bump hSession) s1
  let s3 := ((h.rings.map Prod.fst).filter fun i => i != 0).foldl (bump hRing) s2
  let s4 := (h.chans.map Prod.fst).foldl (bump hChannel) s3
  let s5 := (h.bufs.map Prod.fst).foldl (bump hBuffer) s4
  let s6 := ((h.qps.map Prod.fst).filter fun i => !keepQp i).foldl (bump hQp) s5
  let s7 := ((h.keys.filter fun e => !keepKey e).map Prod.fst).foldl (bump hKey) s6
  let s8 := (h.progs.map Prod.fst).foldl (bump hProgram) s7
  let s9 := (h.wins.map Prod.fst).foldl (bump hWindow) s8
  let g := s9.hw
  let rings := g.rings.filter fun e => e.1 == 0
  let qps := g.qps.filter fun e => keepQp e.1
  let keys := g.keys.filter keepKey
  { s9 with hw := { g with parts := [], sessions := [], rings := rings, chans := [], bufs := [], qps := qps, keys := keys, progs := [], wins := [] } }

/-- The commands in flight on ring 0 that the reset cuts short end with ABORTED (DEDUCED, log entry 18). -/
def abortFlights (s : State) : State :=
  match mget? s.hw.rings 0 with
  | none => s
  | some r => (r.flight.filter fun f => f.done.isNone).foldl (fun a f => finishCmd a 0 f.pos csAborted 0#32 []) s

/-- Units whose fence is a module fault (R580). -/
def faultUnit (u : Word) : Bool := unitKind u == uStack || unitKind u == uRouter || unitKind u == uModule

/-- The heartwoods' own records after the reset: journal, fences, identity and measurements stay; keys are erased (R582, R599, R713,
R722). -/
def resetHeart (s : State) : State :=
  let h := s.hw
  { s with hw := { h with events := [], pours := [], lastRing := 0, beatAt := s.now, turned := false, beats := [], probes := []
                          links := [], pollard := [], droops := [], prefDue := false, fault := h.fenced.any faultUnit, eph := [], ready := false } }

/-- A region after the reset; scratchpads and repairs stay as they are (log entry 18). -/
def resetRegionState (g : Region) : Region := { tmpl := resetCore false g.tmpl, suspect := false, part := 0 }

/-- A whole-device reset (R599, R600). -/
def deviceReset (s : State) : State :=
  let s1 := resetHeart (resetObjects (abortFlights s))
  let s2 : State := { s1 with
    cores := s1.cores.map fun e => (e.1, resetCore false e.2)
    regions := s1.regions.map fun e => (e.1, resetRegionState e.2)
    wires := [], net := [], rtTmpl := Router.reset, routers := [], credits := [], groups := [], barRoot := [], records := [], seals := []
    burn := [], stks := s1.stks.map fun e => (e.1, resetStack e.2) }
  let s3 : State := { s2 with win := resetWindow s2, winShadow := [], tmb := { s2.tmb with events := [] } }
  let s4 := if sbdState s3 = 1 then setSbdState s3 0 else s3
  (List.range 8).foldl resetPort { s4 with mod := { s4.mod with coolTrip := false, auto := true, boost := [], noClock := [] } }

end Sys2Proof.Machine
end

