-- ==== Sys2Proof/Machine/HealthWatch.lean ====
section
/-! DEFINITION. The detectors and the heartwoods: heartbeats, burnish, rootstock marches, BEAT and the latch, takeover, patina decay (R585,
R590 to R595, R609 to R613). -/

namespace Sys2Proof.Machine

/-! ### Heartbeats (R585) -/

def beatCyc : Nat := 1048576

/-- REGION_HEARTBEAT: sent unless the region's clock unit has no clock (R656). -/
def execRegionHeartbeat (p : PhysId) (s : State) : Host.Outcome State Fault Refusal :=
  .next (if fld (wReg s (0x40020 + 0x100 * p.val)) 11 10 = 3 then s else s.record ⟨.heartbeat, p.val, []⟩)

/-- BASE_DIE_HEARTBEAT. -/
def execBaseDieHeartbeat (st : StackId) (s : State) : Host.Outcome State Fault Refusal :=
  .next (s.record ⟨.baseBeat, st.val, []⟩)

/-- HEARTBEAT_LOSS: three heartbeats of a region or a stack missed (R585). -/
def execHeartbeatLoss (isStack : Bool) (unit : Nat) (s : State) : Host.Outcome State Fault Refusal :=
  let key := if isStack then 1000 + unit else unit
  let s1 := s.reach (mgetD s.hw.beats key s.now + 3 * beatCyc)
  if isStack then .next (if unit < 56 then fenceUnit s1 (stackUnit unit) fcHung 0 noPm else s)
  else .next (if unit < 48 then fenceUnit s1 (regionUnit unit) fcHung 0 noPm else s)

/-! ### Links and routers (R585) -/

/-- A record that names a router: 16 of them within 1 s fence it. -/
def noteLink (s : State) (r : Nat) : State :=
  let l := (s.hw.links.filter fun e => decide (s.now < e.2 + secondCyc)) ++ [(r, s.now)]
  let s1 : State := { s with hw := { s.hw with links := l } }
  if 16 ≤ (l.filter fun e => e.1 == r).length then
    fenceUnit s1 (unitWord uRouter (packFields [(6, routerX r), (5, routerY r)])) fcHung 0 noPm
  else s1

/-! ### Burnish (R590 to R594, R613) -/

/-- The pieces of an item (R592): arrays, compute unit, scalar, tables, links. -/
def itemPieces (i : Nat) : Nat := if i < 4 then 38 else if i = 4 then 10 else if i = 5 then 1 else if i = 6 then 128 else 64

/-- Burnish in a region before its first piece. -/
def Burn.start (now : Nat) : Burn := ⟨0, 0, 0, now, 0, 0, []⟩

/-- Whether burnish visits a core of a region: not one that is bypassed (R590). -/
def visits (s : State) (p n : Nat) : Bool := bypassOf s p (n / 17) != n % 17

/-- A physical core's burnish register changed, where a logical core stands on it. -/
def onBurned (s : State) (n : Nat) (f : Core → Core) : State :=
  match logCore s n with
  | some c => s.setCore c (f (s.core c))
  | none => s

/-- The cores of a region at LEVEL WATCH. -/
def watchCores (s : State) (p : Nat) : List Nat :=
  (List.range 272).filter fun n => visits s p n && fld (wReg s (0x210000 + 4 * (272 * p + n))) 17 16 == 1

/-- The core after one in order (R590). -/
def nextInOrder (s : State) (p n : Nat) : Nat :=
  (((List.range 272).map fun i => (n + 1 + i) % 272).find? (visits s p)).getD n

/-- Burnish moves on: to a WATCH core after 16 others, else in order (R593, R613). -/
def nextCore (s : State) (p : Nat) (b : Burn) : Burn :=
  match b.todo with
  | c :: rest => { b with core := c, item := 0, piece := 0, began := s.now, todo := rest }
  | [] =>
    let w := if 16 ≤ b.since + 1 then watchCores s p else []
    match w with
    | c :: rest => { b with core := c, item := 0, piece := 0, began := s.now, since := 0, todo := rest }
    | [] =>
      let n := nextInOrder s p b.last
      { b with core := n, item := 0, piece := 0, began := s.now, last := n, since := if 16 ≤ b.since + 1 then 0 else b.since + 1 }

/-- A pass ends: PASSES or INCOMPLETE counted, ITEM 15, and the next core (R593, R630). -/
def endPass (s : State) (p : Nat) (b : Burn) (cut : Bool) : State :=
  let f (k : Core) : Core :=
    let k1 := cFld k 0x108 3 0 15
    if cut then cCount k1 0x108 15 8 1 else cFld k1 0x108 31 16 (fld (cReg k 0x108) 31 16 + 1)
  let s1 := onBurned s (272 * p + b.core) f
  { s1 with burn := mset s1.burn p (nextCore s1 p b) }

/-- An item done: the next one, or the end of the pass. -/
def endItem (s : State) (p : Nat) (b : Burn) : State :=
  if b.item = 10 then endPass s p b false
  else
    let s1 := onBurned s (272 * p + b.core) fun k => cFld k 0x108 3 0 (b.item + 1)
    { s1 with burn := mset s1.burn p { b with item := b.item + 1, piece := 0 } }

/-- The rootstock of a row becomes ABSENT (R28, R595). -/
def rstkLost (s : State) (q : Nat) : State := wFld s (rowReg q) 4 3 rstkAbsent

/-- A known answer that differs (R594, R595). -/
def burnFailed (s : State) (p : Nat) (b : Burn) (repeats : List Bool) : State :=
  let n := 272 * p + b.core
  let s1 := onBurned s n fun k => cFlag k 0x104 2#32
  if (repeats.take 3).any fun ok => !ok then
    let s2 := suspectPhys s1 p
    let s3 := if rstkCol s2 (p / 8) = p % 8 then rstkLost s2 (p / 8) else s2
    endPass (fenceUnit s3 (coreUnit n) fcBurnish 0 noPm) p b false
  else
    let s2 := addPatina s1 (coreUnit n) 500
    let s3 := match logCore s2 n with
      | some c => if 7 ≤ b.item then noteLink s2 (corePlace s2 c).1 else s2
      | none => s2
    endItem s3 p b

/-- BURNISH_PIECE: a piece of at most 64 cyc, abandoned, or its answers compared; `repeats` are the three repetitions after a
difference. -/
def execBurnishPiece (p : PhysId) (abandoned ok : Bool) (repeats : List Bool) (s : State) : Host.Outcome State Fault Refusal :=
  let b := mgetD s.burn p.val (Burn.start s.now)
  let s1 := onBurned { s with burn := mset s.burn p.val b } (272 * p.val + b.core) fun k => cFld k 0x108 3 0 b.item
  if abandoned then .next s1
  else if !ok then .next (burnFailed s1 p.val b repeats)
  else if b.piece + 1 = itemPieces b.item then .next (endItem s1 p.val b)
  else .next { s1 with burn := mset s1.burn p.val { b with piece := b.piece + 1 } }

/-- BURNISH_TIMEOUT: 100 ms after the pass began (R593). -/
def execBurnishTimeout (p : PhysId) (s : State) : Host.Outcome State Fault Refusal :=
  let b := mgetD s.burn p.val (Burn.start s.now)
  .next (endPass (s.reach (b.began + 100 * msCyc)) p.val b true)

/-- ROOTSTOCK_MARCH: a rootstock that fails becomes ABSENT (R595). -/
def execRootstockMarch (row : Fin 6) (pass : Bool) (s : State) : Host.Outcome State Fault Refusal :=
  .next (if pass then s else rstkLost s row.val)

/-! ### The heartwoods (R609 to R611) -/

/-! ### Clock preferences (R654) -/

/-- Core rail of a physical region: OFF, RAMP, ON, CUT (R667). -/
def rg (p k : Nat) : Nat := 0x40000 + 0x100 * p + k
def railOf (s : State) (p : Nat) : Nat := fld (wReg s (rg p 4)) 2 1
def railOn (s : State) (p : Nat) : Bool := railOf s p == 2

/-- The neighbour of a physical region at an input N, E, S or W; none at the rim (R5, R651). -/
def clockFrom (p d : Nat) : Option Nat :=
  match d with
  | 0 => if p / 8 = 5 then none else some (p + 8)
  | 1 => if p % 8 = 7 then none else some (p + 1)
  | 2 => if p / 8 = 0 then none else some (p - 8)
  | _ => if p % 8 = 0 then none else some (p - 1)

/-- Forwarding hops from the root PLL at an input, from those of every region; 1,000 where no clock comes. -/
def inputHops (s : State) (hops : List Nat) (p d : Nat) : Nat :=
  match clockFrom p d with
  | none => 0
  | some q => if railOn s q then hops.getD q 1000 + 1 else 1000

/-- One round of the shortest ways, and 48 of them. -/
def hopRound (s : State) (hops : List Nat) : List Nat :=
  (List.range 48).map fun p => ([0, 1, 2, 3].map (inputHops s hops p)).foldl min 1000
def clockHops (s : State) : List Nat := (List.range 48).foldl (fun h _ => hopRound s h) (List.replicate 48 1000)

/-- The four inputs of a region by hops, ties in the order W, S, N, E. -/
def prefOrder (s : State) (hops : List Nat) (p : Nat) : List Nat :=
  let put (l : List Nat) (d : Nat) : List Nat :=
    let h := inputHops s hops p d
    l.filter (fun e => decide (inputHops s hops p e ≤ h)) ++ [d] ++ l.filter fun e => decide (h < inputHops s hops p e)
  [3, 2, 0, 1].foldl put []

/-- PREF of every region written. -/
def writePref (s : State) : State :=
  let hops := clockHops s
  let s1 := (List.range 48).foldl (fun a p => wFld a (rg p 0x20) 7 0 (packFields ((prefOrder s hops p).map fun d => (2, d)))) s
  { s1 with hw := { s1.hw with prefDue := false } }

/-- BEAT: every 1 ms. The preferences that a change in the dark regions calls for are written with it (DESIGN CHOICE, log entry 20). -/
def execBeat (s : State) : Host.Outcome State Fault Refusal :=
  let s1 := s.reach (s.hw.beatAt + msCyc)
  let w := wReg s1 0x200000
  let s2 := if s1.hw.prefDue then writePref s1 else s1
  .next (wSet { s2 with hw := { s2.hw with beatAt := s2.now } } 0x200000 (setFld w 15 8 (fld w 15 8 + 1)))

/-- LATCH_CHANGE: the active heartwood yields, or the standby asks after 5 ms without BEAT; a standby that is held in reset does not ask,
and is not yielded to (R580, R609). -/
def execLatchChange (yields : Bool) (s : State) : Host.Outcome State Fault Refusal :=
  if s.hw.dead.contains (1 - activeHw s) then .next s
  else .next (turnLatch (if yields then s else s.reach (s.hw.beatAt + 5 * msCyc)))

/-- The steps of a takeover (R571, R610, R625, R718): the old heartwood fenced, the recoveries in progress from their first step, TAKEOVER,
READY. -/
def takeOver (s : State) : State :=
  let s0 : State := { s with hw := { s.hw with turned := false, beatAt := s.now, eph := s.hw.eph.map fun e => (e.1, { e.2 with stale := true }) } }
  let s1 := wFld (fenceUnit s0 (heartUnit (1 - activeHw s)) fcHung 0 noPm) 0x200000 1 1 0
  let s2 := s1.hw.parts.foldl (fun a e =>
    let a1 := if e.2.recov ≠ 0 then startRecovery a e.1 e.2.recov else a
    updPart a1 e.1 fun k => { k with odd := true }) s1
  let s3 := raiseEvent s2 evTakeover 0 0#32 [BitVec.ofNat 32 (activeHw s2)]
  if s3.hw.ready then announceReady s3 else s3

/-- TAKEOVER: after the latch has changed. -/
def execTakeover (s : State) : Host.Outcome State Fault Refusal := .next (if s.hw.turned then takeOver s else s)

/-- HEARTWOOD_LOST: BEAT stands for 55 ms with no change of the latch (R611). -/
def execHeartwoodLost (s : State) : Host.Outcome State Fault Refusal :=
  if s.hw.turned then .next s else .next (sbdFlag (s.reach (s.hw.beatAt + 55 * msCyc)) 2#32)

/-! ### Patina (R612) -/

/-- A score an hour later, with its LEVEL. -/
def decayScore (w : Word) : Word :=
  let sc := fld w 15 0 - fld w 15 0 / 256
  setFld (setFld w 15 0 sc) 17 16 (levelOf sc)

/-- PATINA_DECAY. -/
def execPatinaDecay (s : State) : Host.Outcome State Fault Refusal :=
  .next { s with win := s.win.map fun e => if 0x200100 ≤ e.1 ∧ e.1 < 0x220000 then (e.1, decayScore e.2) else e }

end Sys2Proof.Machine
end

