-- ==== Sys2Proof/Machine/Recovery.lean ====
section
/-! DEFINITION. Halts, resets and their escalation, grafts, bypasses, the region test (R597 to R608, R625). -/

namespace Sys2Proof.Machine

/-- HALT: the halt of a partition at its device time (R597, R598). -/
def execHalt (part : Nat) (s : State) : Host.Outcome State Fault Refusal := .next (haltNow s part)

/-- RECOVERY_RESTART: a recovery in progress begins again from its first step (R625). -/
def execRecoveryRestart (part : Nat) (s : State) : Host.Outcome State Fault Refusal :=
  match s.hpart part with
  | none => .next s
  | some k => .next (if k.recov = 0 then s else startRecovery s part k.recov)

/-! ### Resets (R599 to R603) -/

/-- CORE_RESET. -/
def execCoreReset (c : CoreId) (s : State) : Host.Outcome State Fault Refusal :=
  .next (wCount (resetCores s [c.val] true) 0x200004 7 0 1)

/-- The local port of a router cleared (R339, R599). -/
def clearLocal (k : Router) : Router :=
  let other (i : Nat) : Bool := !decide (32 ≤ i ∧ i < 40)
  { k with bufs := k.bufs.filter fun e => other e.1, used := k.used.filter fun e => other e.1, missed := k.missed.filter fun e => e.1 / 1024 != 4 }

/-- The cluster router of a physical cluster (R10, R11). -/
def clusterRouter (p cx cy : Nat) : Nat := routerNo (1 + 4 * (p % 8) + cx) (1 + 4 * (p / 8) + cy)

/-- A cluster reset. -/
def clusterReset (s : State) (p cx cy : Nat) : State :=
  let s1 := resetCores s (clusterCores s p cx cy) true
  let r := clusterRouter p cx cy
  wCount (s1.setRouter r (clearLocal (s1.router r))) 0x200004 15 8 1

/-- CLUSTER_RESET. -/
def execClusterReset (p : PhysId) (cx cy : Fin 4) (s : State) : Host.Outcome State Fault Refusal :=
  .next (clusterReset s p.val cx.val cy.val)

/-- PARTITION_RESET: of an open partition, which stays open. -/
def execPartitionReset (part : Nat) (s : State) : Host.Outcome State Fault Refusal := .next (resetPart s part true)

/-- DEVICE_RESET. -/
def execDeviceReset (s : State) : Host.Outcome State Fault Refusal := .next (deviceReset s)

/-- RESET_ESCALATE (R602, R603, R618): a reset of domain 0 core, 1 cluster (16 * region + 4 * cy + cx), 2 partition or 3 device that
exceeds its bound. -/
def execResetEscalate (dom : Fin 4) (unit : Nat) (s : State) : Host.Outcome State Fault Refusal :=
  let s1 := wCount s 0x200004 23 16 1
  match dom.val with
  | 0 =>
    let n := physCore s (unit % 10752)
    let s2 := fenceUnit s1 (coreUnit n) fcHung 0 noPm
    .next (clusterReset s2 (n / 272) (min (n % 17 / 4) 3) (n % 272 / 17 / 4))
  | 1 =>
    let p := unit / 16 % 48
    let s2 := fenceUnit s1 (unitWord uCluster (packFields [(6, p), (2, unit % 4), (2, unit / 4 % 4)])) fcHung 0 noPm
    match partOfPhys s p with
    | some q => .next (failPartition (resetPart s2 q true) q 0)
    | none => .next s2
  | 2 => .next (deviceReset (if (s1.hpart unit).isSome then
      fenceUnit s1 (unitWord uPart (fld (handleOf s1 hPart unit) 27 0)) fcHung unit noPm else s1))
  | _ => .next ((List.range 8).foldl portFence (moduleFault s1))

/-! ### Moves -/

/-- A logical core on the physical core it has moved to: registers, slot tables and endpoints go with it, engines are reset; the
scratchpad, the repair entries and a fence are those of the physical core, and a rootstock's scratchpad is zeroed (R241, R605). -/
def movedCore (k : Core) (place : Option Core) : Core :=
  let mine := k.regs.filter fun e => !decide (0x2100 ≤ e.1 ∧ e.1 < 0x2300)
  let repair := ((place.map Core.regs).getD []).filter fun e => decide (0x2100 ≤ e.1 ∧ e.1 < 0x2300)
  let held := (place.map Core.fenced).getD false
  { Core.reset with regs := repair.foldl (fun m e => mset m e.1 e.2) mine, slots := k.slots, eps := k.eps
                    spad := (place.map Core.spad).getD Spad.reset, idle := true, fenced := held, inReset := held }

/-- Logical cores on their new places, from the state before the move `s0` to the state after it. -/
def moveCores (s0 s : State) (cs : List Nat) : State :=
  cs.foldl (fun a c => a.setCore c (movedCore (s0.core c) ((logCore s0 (physCore s c)).map s0.core))) s

/-- Whether a dead unit still stands in an open partition. -/
def deadIn (s : State) (p : Nat) : Bool := s.hw.fenced.any fun u => unitKind u ≤ 2 && partOfUnit s u == some p

/-- The retarget of a graft (R29, R605): one write of the row's word, translation entries, region registers, the distance table; the logical
regions that moved. -/
def retarget (s : State) (p : Nat) : State × List Nat :=
  let q := p / 8
  let w := rowWord s q
  let w1 := setFld (setFld (setFld (setFld w 2 0 (p % 8)) 4 3 rstkPending) (8 + p % 8) (8 + p % 8) 1) 23 16 (satTo 255 (fld w 23 16 + 1))
  let s1 := wSet s (rowReg q) w1
  let moved := ((List.range 7).map fun i => 7 * q + i).filter fun l => physOf s l != physOf s1 l
  let s2 := moved.foldl (fun a l => putRegionReg a (physOf a l) l (a.region l).part) (putRegionReg s1 p 63 0)
  (writeDist (writeXlat s2 moved), moved)

/-- A graft of a region (R605), from the prune on: the region recorded as fenced, logical regions moved, images reloaded. -/
def graftMove (s : State) (p : Nat) (part : Option Nat) : State :=
  let s0 := fenceRegion s p
  let r := retarget s0 p
  let cs := r.2.flatMap regionCores
  let s2 := moveCores s0 r.1 cs
  match part with
  | some q => updPart (reloadImages s2 q fun c => cs.contains c) q fun k => { k with odd := true }
  | none => s2

/-- The words of a GRAFT event (R538). -/
def graftEvent (s : State) (p q col done : Nat) : State :=
  raiseEvent s evGraft q (if (s.hpart q).isSome then handleOf s hPart q else 0#32)
    [BitVec.ofNat 32 (p / 8), BitVec.ofNat 32 (p % 8 + 65536 * col), BitVec.ofNat 32 done]

/-- The end of a partition's recovery once no dead unit is left in it: rollback, launch, GRAFT done (R598, R605, R625). -/
def endRecovery (s : State) (q : Nat) (done : State → State) : State :=
  if deadIn s q then s else done (resume (rollback s q) q)

/-- LEVEL of a region and of its cores at ACT or above (R613). -/
def regionActs (s : State) (p : Nat) : Bool :=
  decide (2 ≤ fld (wReg s (0x200100 + 4 * p)) 17 16) ||
  (List.range 272).any fun n => decide (2 ≤ fld (wReg s (0x210000 + 4 * (272 * p + n))) 17 16)

/-- Whether a partition stands at a STEP barrier that is committed (R613). -/
def atCommitted (s : State) (k : Partn) : Bool :=
  k.committed + 1 == k.step && k.touch.isNone && k.recov == 0 && !k.halted &&
  (s.core (coreAt (16 * k.col0) (16 * k.row0))).awaiting

/-- A dead unit lies in a physical region. -/
def deadRegion (s : State) (p : Nat) : Bool := s.hw.fenced.any fun u => unitRegion u == some p

/-- GRAFT (R604, R605, R613). -/
def execGraft (p : PhysId) (s : State) : Host.Outcome State Fault Refusal :=
  let col := rstkCol s (p.val / 8)
  if !canGraft s p.val then .next s
  else match partOfPhys s p.val with
    | none => .next (if regionActs s p.val then graftMove (fenceUnit s (regionUnit p.val) fcPatina 0 noPm) p.val none else s)
    | some q =>
      match s.hpart q with
      | none => .next s
      | some k =>
        if deadRegion s p.val ∧ k.recov = 2 then
          .next (endRecovery (graftMove (applyHalt s q) p.val (some q)) q fun a => graftEvent a p.val q col 1)
        else if regionActs s p.val ∧ atCommitted s k then
          let s1 := cancelBooked (graftEvent s p.val q col 0) q
          .next (graftEvent (resume (graftMove s1 p.val (some q)) q) p.val q col 1)
        else .next s

/-- IN_PLACE_BYPASS (R606): a dead core in a row without an INTACT rootstock, in a core row with no bypassed core. -/
def execInPlaceBypass (p : PhysId) (row : Fin 16) (col : Fin 17) (s : State) : Host.Outcome State Fault Refusal :=
  let n := 272 * p.val + 17 * row.val + col.val
  match logOf s p.val, partOfPhys s p.val with
  | some l, some q =>
    if !unitFenced s (coreUnit n) ∨ canGraft s p.val ∨ bypassOf s p.val row.val ≠ 17 ∨ ((s.hpart q).map Partn.recov).getD 0 ≠ 2 then .next s
    else
      let s0 := applyHalt s q
      let s1 : State := { s0 with bypass := mset s0.bypass (16 * p.val + row.val) col.val, mod := { s0.mod with bad := keyAdd s0.mod.bad n } }
      let s2 := writeXlat s1 [l]
      let cs := (List.range 16).filterMap fun x =>
        if col.val ≤ x then some (coreAt (16 * (l % 7) + x) (16 * (l / 7) + row.val)) else none
      let s3 := reloadImages (moveCores s0 s2 cs) q fun c => cs.contains c
      .next (endRecovery s3 q id)
  | _, _ => .next s

/-! ### Replenishment (R608) -/

/-- A region becomes the row's rootstock again: its fence ends. -/
def replenish (s : State) (p : Nat) : State :=
  let s1 := wFld (setPhysFenced (wFld s (rowReg (p / 8)) 4 3 rstkIntact) p false) (0x200100 + 4 * p) 18 18 0
  { s1 with hw := { s1.hw with fenced := s1.hw.fenced.erase (regionUnit p) } }

/-- The dead cores of a region, with those that its repair record holds. -/
def regionBad (s : State) (p : Nat) : List Nat :=
  ((s.hw.fenced.filter fun u => unitKind u == uCore && fld u 9 4 == p).map unitCore).foldl keyAdd s.mod.bad

/-- The outcome of a region's test (R608, R663). -/
def regionTested (s : State) (p : Nat) (pass : Bool) : State :=
  if rstkCol s (p / 8) ≠ p % 8 ∨ rstkState s (p / 8) ≠ rstkPending then s
  else
    let bad := regionBad s p
    let crack := bit (wReg s (0x40008 + 0x100 * p)) 3
    if pass ∧ !breaksR26 bad p ∧ !crack then replenish (putBypasses s bad) p else rstkLost s (p / 8)

/-- REGION_TEST_DONE. -/
def execRegionTestDone (p : PhysId) (pass : Bool) (s : State) : Host.Outcome State Fault Refusal := .next (regionTested s p.val pass)

end Sys2Proof.Machine
end

