-- ==== Sys2Proof/Machine/JobMsgs.lean ====
section
/-! DEFINITION. Jobs across modules: job messages, liveness, quenches, admission (R614 to R623). -/

namespace Sys2Proof.Machine

/-- The peers that a partition keeps alive (R614): for a FLEET partition, those of `set-checks`. -/
def livePeers (k : Partn) : List Nat := (if k.checks.cls = 1 then k.checks.peers else k.peers).filter fun q => !k.dead.contains q

/-- A discarded job message counted: a QUENCH at its port, any other in AUTH_DROP (R616). -/
def dropJob (s : State) (q ty : Nat) : State :=
  if ty = 0x10 then portErr s (((s.qp q).map Qp.port).getD 0) 11 0 1 else wCount s iAuth 15 0 1

/-- A job message of 128 bytes at the partition its queue pair belongs to (R615, R616, R721, R622): discarded where TAG, JOB, TYPE or SEQ
fails, or where the peer is dead. -/
def onJob (s : State) (q ty : Nat) (m : List Byte) (eff : State → Nat → Partn → State) : State :=
  match s.qp q with
  | none => dropJob s q ty
  | some x =>
    match s.hpart x.part with
    | none => dropJob s q ty
    | some k =>
      if !tagOk s k m 96 juJob ∨ msgNat m 0 1 ≠ ty ∨ msgNat m 4 4 ≠ k.checks.job ∨ msgNat m 8 8 ≤ x.seqRx ∨ k.dead.contains q then dropJob s q ty
      else
        let k1 : Partn := { k with heard := mset k.heard q s.now }
        eff ((s.setQp q { x with seqRx := msgNat m 8 8 }).setPart x.part k1) x.part k1

/-- A quench accepted from a peer (R620). -/
def takeQuench (s : State) (p : Nat) (k : Partn) (q : Nat) (m : List Byte) : State :=
  let origin := msgNat m 16 8
  let qid := msgNat m 48 8
  if k.quenches.contains (origin, qid) then s
  else
    let s1 := s.setPart p { k with quenches := noteQuench k.quenches (origin, qid) }
    let s2 := sendJob s1 p ((quenchPeers k).filter fun x => x != q) ⟨0x10, 2, msgNat m 2 1, origin, msgNat m 24 8, 0, 0, qid, []⟩
    raiseEvent (quenchHold s2 p) evQuench p (handleOf s2 hPart p)
      [BitVec.ofNat 32 k.checks.job, BitVec.ofNat 32 (msgNat m 2 1), BitVec.ofNat 32 origin]

/-- QUENCH: no quench crosses between FLEET replicas (R614). -/
def execQuench (q : BitVec 16) (m : List Byte) (s : State) : Host.Outcome State Fault Refusal :=
  .next (onJob s q.toNat 0x10 m fun a p k => if k.checks.cls = 1 then dropJob a q.toNat 0x10 else takeQuench a p k q.toNat m)

/-- LIVE_SEND: every LIVE_MS / 5 (R617). -/
def execLiveSend (part : Nat) (s : State) : Host.Outcome State Fault Refusal :=
  match s.hpart part with
  | none => .next s
  | some k =>
    let s1 := s.reach (k.liveAt + k.liveMs * msCyc / 5)
    let s2 := s1.setPart part { k with liveAt := s1.now }
    .next (sendJob s2 part (livePeers k) ⟨0x11, bnat k.holdAt.isSome, 0, s.mod.serial, k.committed, 0, 0, 0, []⟩)

/-- Held partitions launch their next step (R623). -/
def releaseHold (s : State) (p : Nat) : State :=
  let s1 := updPart s p fun k => { k with holdAt := none, holdFor := none, partner := none }
  bookAhead (retime s1 p) p

/-- HOLD of a peer's LIVE (R623): a partition holds at the boundary that it names, and goes on once the peer it holds for does. -/
def takeLive (s : State) (p : Nat) (k : Partn) (q : Nat) (m : List Byte) : State :=
  let n := msgNat m 24 8
  if k.checks.cls = 1 then s
  else if msgNat m 1 1 % 2 = 1 then
    (if k.holdAt.isSome ∨ n < k.committed then s else takeHold (s.setPart p { k with holdFor := some (q, n) }) p)
  else if (k.holdAt.map Prod.fst) = some q ∨ (k.holdFor.map Prod.fst) = some q then releaseHold s p
  else s

/-- LIVE. -/
def execLive (q : BitVec 16) (m : List Byte) (s : State) : Host.Outcome State Fault Refusal :=
  .next (onJob s q.toNat 0x11 m fun a p k => takeLive a p k q.toNat m)

/-- The unit word of a peer (R580). -/
def peerUnit (s : State) (q : Nat) : Word := unitWord uPeer (fld (handleOf s hQp q) 27 0)

/-- PEER_DEAD: no accepted job message for LIVE_MS (R617). -/
def execPeerDead (part : Nat) (q : BitVec 16) (s : State) : Host.Outcome State Fault Refusal :=
  match s.hpart part with
  | none => .next s
  | some k =>
    if !(livePeers k).contains q.toNat then .next s
    else
      let s1 := s.reach (mgetD k.heard q.toNat s.now + k.liveMs * msCyc)
      let s2 := fenceUnit s1 (peerUnit s1 q.toNat) fcPeerDead part noPm
      if k.checks.cls = 1 then .next s2
      else .next (quenchHold (originateQuench s2 part quPeerDead) part)

/-- JOIN (R623): STATE follows at the next committed boundary. -/
def execJoin (q : BitVec 16) (m : List Byte) (s : State) : Host.Outcome State Fault Refusal :=
  .next (onJob s q.toNat 0x12 m fun a p k => a.setPart p { k with partner := some q.toNat })

/-- An admission over, with a status (R623, R626). -/
def endAdmission (s : State) (p : Nat) (d : Admission) (status : Nat) : State :=
  wFld (finishCmd (updPart s p fun k => { k with joiner := none }) d.ring d.pos status 0#32 []) 0x200008 3 0 0

/-- The boundary state taken by a newcomer (R623): placed, JOINED sent, the next step to launch. -/
def takeState (s : State) (p : Nat) (k : Partn) (d : Admission) (m data : List Byte) : State :=
  let n := msgNat m 24 8
  if data.length ≠ msgNat m 40 8 ∨ Config.shake256 data 32 ≠ (m.drop 64).take 32 then endAdmission s p d csFailed
  else
    let s1 := placeState s p k data
    let s2 := updPart s1 p fun x => { x with step := n + 1, committed := n, sealed := n, runs := 1 }
    let s3 := sendJob s2 p (livePeers k) ⟨0x14, 0, 0, s.mod.serial, n, 0, 0, 0, []⟩
    bookAhead (retime (endAdmission s3 p d csOk) p) p

/-- STATE; `data` is what the RDMA READ brings. -/
def execState (q : BitVec 16) (m : List Byte) (data : List Byte) (s : State) : Host.Outcome State Fault Refusal :=
  .next (onJob s q.toNat 0x13 m fun a p k =>
    match k.joiner with
    | some d => if d.qp = q.toNat then takeState a p k d m data else a
    | none => a)

/-- JOINED. -/
def execJoined (q : BitVec 16) (m : List Byte) (s : State) : Host.Outcome State Fault Refusal :=
  .next (onJob s q.toNat 0x14 m fun a p k => if k.holdAt.isSome ∨ k.holdFor.isSome then releaseHold a p else a)

/-- ADMIT_TIMEOUT (R623): at the newcomer ADMIT_WAIT is over; a held partition goes on without it. -/
def execAdmitTimeout (part : Nat) (s : State) : Host.Outcome State Fault Refusal :=
  match s.hpart part with
  | none => .next s
  | some k =>
    match k.joiner, k.holdAt with
    | some d, _ => .next (endAdmission (s.reach d.until_) part d csFailed)
    | none, some h => .next (releaseHold (s.reach (h.2 + 2000 * msCyc)) part)
    | none, none => .next s

end Sys2Proof.Machine
end

