-- ==== Sys2Proof/Machine/MailboxHealth.lean ====
section
/-! DEFINITION. The mailbox commands of health and recovery (R621, R623, R626 to R628). -/

namespace Sys2Proof.Machine

/-! ### reset-partition (R626) -/

/-- A `reset-partition` record with an ACTION; a reserved ACTION goes with ROLLBACK. -/
def isAction (n : Nat) (ws : List Word) : Bool := fld (arg ws 3) 3 0 == n || (n == 0 && decide (6 ≤ fld (arg ws 3) 3 0))

/-- The checks that every ACTION shares, then those of its own, then its effect. -/
def onReset (s : State) (r : Nat) (pos : Word) (n : Nat) (own : State → Partn → List Word → List (Bool × Nat))
    (handles : List Word → List Word) (eff : State → Nat → Partn → List Word → State) : State :=
  commandIf s r pos 0x13 (isAction n) fun a k ws =>
    let p := hIndex (arg ws 2)
    let st0 := judge ([(badWord0 ws || fld (arg ws 3) 7 4 != 0 || fld (arg ws 3) 31 16 != 0, csBadArg),
      badHandle a hPart (arg ws 2)] ++ (handles ws).map (badHandle a hQp) ++ [outOfScope k p,
      (decide (6 ≤ fld (arg ws 3) 3 0), csBadArg)])
    match a.hpart p with
    | none => finishCmd a r pos.toNat st0 0#32 []
    | some g =>
      let st := judge ((st0 != csOk, st0) :: own a g ws)
      if st ≠ csOk then finishCmd a r pos.toNat st 0#32 [] else eff a p g ws

/-- RESET_PARTITION_ROLLBACK. -/
def execResetPartitionRollback (r : Fin 16384) (pos : Word) (s : State) : Host.Outcome State Fault Refusal :=
  .next (onReset s r.val pos 0 (fun _ _ _ => []) (fun _ => []) fun a p k _ =>
    startRecovery (a.setPart p { k with waiters := k.waiters ++ [(r.val, pos.toNat, csFailed)] }) p 1)

/-- RESET_PARTITION_RESET. -/
def execResetPartitionReset (r : Fin 16384) (pos : Word) (s : State) : Host.Outcome State Fault Refusal :=
  .next (onReset s r.val pos 1 (fun _ _ _ => []) (fun _ => []) fun a p _ _ =>
    let a1 := cancelBooked (endRequests (endWaiters a p false) p csAborted 0) p
    let a2 := updPart (resetPart a1 p true) p fun k =>
      { k with step := k.committed + 1, sealed := k.committed, runs := 1, seals := [], sealAt := none, later := [], touch := none
               now_ := Findings.none, before := Findings.none, haltAt := none, halted := false, recov := 0, restarts := 0 }
    finishCmd { a2 with seals := a2.seals.filter fun x => x.1 != p } r.val pos.toNat csOk 0#32 [])

/-- RESET_PARTITION_QUENCH (R619, R620). -/
def execResetPartitionQuench (r : Fin 16384) (pos : Word) (s : State) : Host.Outcome State Fault Refusal :=
  .next (onReset s r.val pos 2 (fun _ _ _ => []) (fun _ => []) fun a p _ _ =>
    finishCmd (quenchHold (originateQuench a p quHost) p) r.val pos.toNat csOk 0#32 [])

/-- The queue pairs that PEERS names. -/
def peerWords (ws : List Word) : List Word := ((List.range 8).map fun i => arg ws (4 + i)).filter fun w => w != 0#32

/-- RESET_PARTITION_PEERS. -/
def execResetPartitionPeers (r : Fin 16384) (pos : Word) (s : State) : Host.Outcome State Fault Refusal :=
  .next (onReset s r.val pos 3
    (fun a g ws =>
      let ms := fld (arg ws 12) 15 0
      [(fld (arg ws 12) 31 16 != 0, csBadArg),
       ((peerWords ws).any fun w => ((a.qp (hIndex w)).bind fun q => a.hpart q.part) != some g, csBadArg),
       (ms != 0 && !decide (10 ≤ ms ∧ ms ≤ 60000), csBadArg)])
    peerWords fun a p k ws =>
      let qs := (peerWords ws).map hIndex
      let ms := fld (arg ws 12) 15 0
      let k1 : Partn := { k with peers := qs, heard := qs.foldl (fun m q => mset m q a.now) k.heard, dead := k.dead.filter fun q => qs.contains q
                                 liveMs := if ms = 0 then 50 else ms, liveAt := a.now }
      finishCmd (a.setPart p k1) r.val pos.toNat csOk 0#32 [])

/-- RESET_PARTITION_ADMIT (R623): JOIN goes to the partner. -/
def execResetPartitionAdmit (r : Fin 16384) (pos : Word) (s : State) : Host.Outcome State Fault Refusal :=
  .next (onReset s r.val pos 4
    (fun _ g ws => [(fld (arg ws 5) 31 16 != 0 || !(livePeers g).contains (hIndex (arg ws 4)), csBadArg),
      (!g.reqs.isEmpty || g.joiner.isSome, csInUse)])
    (fun ws => [arg ws 4]) fun a p k ws =>
      let w := fld (arg ws 5) 15 0
      let q := hIndex (arg ws 4)
      let d : Admission := { ring := r.val, pos := pos.toNat, qp := q, until_ := a.now + (if w = 0 then 2000 else w) * msCyc }
      let a1 := sendJob (a.setPart p { k with joiner := some d }) p [q] ⟨0x12, 0, 0, a.mod.serial, k.committed, 0, 0, 0, []⟩
      setRecov a1 8)

/-- RESET_PARTITION_RESUME (R621). -/
def execResetPartitionResume (r : Fin 16384) (pos : Word) (s : State) : Host.Outcome State Fault Refusal :=
  .next (onReset s r.val pos 5 (fun _ g _ => [(!g.heldJob, csDenied)]) (fun _ => []) fun a p k _ =>
    let a1 := a.setPart p { k with heldJob := false }
    finishCmd (bookAhead (retime a1 p) p) r.val pos.toNat csOk 0#32 [])

/-! ### Units named by the host (R580, R627, R628) -/

/-- Whether a unit word names a unit: its KIND, its fields in range, no other bit. -/
def unitOk (s : State) (u : Word) : Bool :=
  let f := fld u 9 4
  let hi (n : Nat) : Bool := decide (u.toNat < 2 ^ n)
  match unitKind u with
  | 0 => decide (f < 48 ∧ fld u 14 10 < 17) && hi 19
  | 1 => decide (f < 48) && hi 14
  | 2 => decide (f < 48) && hi 10
  | 3 => decide (f < 56) && hi 10
  | 4 => hi 7
  | 5 => hi 5
  | 6 => decide (f < 34 ∧ fld u 14 10 < 26) && hi 15
  | 7 => handleCheck s hQp (BitVec.ofNat 32 (hQp * 2 ^ 28 + unitId u)) == csOk
  | 8 => handleCheck s hPart (BitVec.ofNat 32 (hPart * 2 ^ 28 + unitId u)) == csOk
  | 9 => hi 4
  | _ => false

/-- The only heartwood that is not fenced (R627). -/
def lastHeart (s : State) (u : Word) : Bool := unitKind u == uHeart && unitFenced s (heartUnit (1 - fld u 4 4))

/-- FENCE_UNIT (R581, R627). -/
def execFenceUnit (r : Fin 16384) (pos : Word) (s : State) : Host.Outcome State Fault Refusal :=
  .next (command s r.val pos 0x48 fun a k ws =>
    let u := arg ws 2
    let peer := unitKind u == uPeer
    let part := if peer then hIndex (arg ws 3) else 0
    let st := judge [(badWord0 ws || (!peer && (arg ws 3) != 0#32), csBadArg), (if peer then badHandle a hPart (arg ws 3) else (false, csOk)),
      notDevice k, (!unitOk a u || (peer && ((a.qp (unitId u % 1048576)).map Qp.part) != some part), csBadArg), (lastHeart a u, csDenied)]
    if st ≠ csOk then finishCmd a r.val pos.toNat st 0#32 []
    else
      let who := partOfUnit a u
      let a1 := fenceUnit a u fcHost part noPm
      match who.bind fun p => (a1.hpart p).map fun g => (p, g) with
      | some (p, g) =>
        if g.recov = 0 ∨ g.heldJob then finishCmd a1 r.val pos.toNat csOk 0#32 []
        else a1.setPart p { g with waiters := g.waiters ++ [(r.val, pos.toNat, csOk)] }
      | none => finishCmd a1 r.val pos.toNat csOk 0#32 [])

/-- Whether a unit takes part in an open partition: a stack in every one (R514), a router in its region's. -/
def unitInUse (s : State) (u : Word) : Bool :=
  match unitKind u with
  | 3 => !s.hw.parts.isEmpty
  | 6 =>
    let x := fld u 9 4
    let y := fld u 14 10
    if isRim (routerNo x y) then false else (partOfPhys s (8 * ((y - 1) / 4) + (x - 1) / 4)).isSome
  | _ => (partOfUnit s u).isSome

/-- The contents that a unit's test destroys (R242, R688). -/
def testClears (s : State) (u : Word) : State :=
  match unitKind u with
  | 0 => match logCore s (unitCore u) with
    | some c => s.setCore c (zeroSpad (s.core c))
    | none => s
  | 1 => (clusterCores s (fld u 9 4) (fld u 11 10) (fld u 13 12)).foldl (fun a c => a.setCore c (zeroSpad (a.core c))) s
  | 2 => match logOf s (fld u 9 4) with
    | some l => mapRegion s l zeroSpad
    | none => s
  | 3 => s.setStack (fld u 9 4) { s.stack (fld u 9 4) with mem := [], tarn := [], wback := [] }
  | _ => s

/-- A core whose fence has ended. -/
def freeCore (k : Core) : Core := { k with fenced := false, inReset := false }

/-- The end of a fence (R582, R628). -/
def readmit (s : State) (u : Word) : State :=
  let s0 : State := { s with hw := { s.hw with fenced := s.hw.fenced.erase u } }
  let s1 := match patReg u with
    | some o => wFld s0 o 18 18 0
    | none => s0
  match unitKind u with
  | 0 => match logCore s1 (unitCore u) with
    | some c => s1.setCore c (freeCore (s1.core c))
    | none => s1
  | 1 => (clusterCores s1 (fld u 9 4) (fld u 11 10) (fld u 13 12)).foldl (fun a c => a.setCore c (freeCore (a.core c))) s1
  | 2 =>
    let p := fld u 9 4
    (match logOf s1 p with
     | some l => mapRegion (setPhysFenced s1 p false) l freeCore
     | none => if breaksR26 (regionBad s1 p) p then setPhysFenced s1 p false else replenish s1 p)
  | 4 => portUnfence s (fld u 6 4)
  | 5 =>
    let h := fld u 4 4
    let s2 : State := { s1 with hw := { s1.hw with dead := s1.hw.dead.filter fun x => x != h } }
    if activeHw s2 = h then s2 else wFld s2 0x200000 1 1 1
  | _ => s1

/-- TEST and READMIT share their checks and their result. -/
def testUnit (s : State) (r : Nat) (pos : Word) (act : Nat) (res : TestResult) (after : State → Word → State) : State :=
  commandIf s r pos 0x49 (fun ws => fld (arg ws 3) 1 0 == act) fun a k ws =>
    let u := arg ws 2
    let st := judge [(badWord0 ws || fld (arg ws 3) 31 2 != 0, csBadArg), notDevice k, (decide (7 ≤ unitKind u) || !unitOk a u, csBadArg),
      (unitInUse a u && !unitFenced a u, csInUse)]
    if st ≠ csOk then finishCmd a r pos.toNat st 0#32 []
    else
      let a1 := testClears a u
      let a2 := if res.pass then after a1 u else a1
      finishCmd a2 r pos.toNat csOk 0#32
        [BitVec.ofNat 32 (bnat (!res.pass)), BitVec.ofNat 32 res.us, BitVec.ofNat 32 (if res.pass then 0 else res.item)]

/-- TEST_UNIT_TEST. -/
def execTestUnitTest (r : Fin 16384) (pos : Word) (res : TestResult) (s : State) : Host.Outcome State Fault Refusal :=
  .next (testUnit s r.val pos 0 res fun a _ => a)

/-- TEST_UNIT_READMIT. -/
def execTestUnitReadmit (r : Fin 16384) (pos : Word) (res : TestResult) (s : State) : Host.Outcome State Fault Refusal :=
  .next (testUnit s r.val pos 1 res readmit)

/-- The header of a buffer that the device fills outside a request (R518, R519, R716). -/
def fillBuffer (s : State) (b : HostBuf) (parts : List (Nat × List Byte)) (len : Nat) : State :=
  let s1 := parts.foldl (fun a e => devWrite a (b.addr + 64 + e.1) e.2) s
  let d := devTime s1
  putHeader s1 b [BitVec.ofNat 32 bReady, arg (bufHeader s b) 1 + 1#32, BitVec.ofNat 32 len, 0#32, BitVec.ofNat 32 d,
    BitVec.ofNat 32 (d / 2 ^ 32), 0#32, 0#32, BitVec.ofNat 32 (packFields [(16, 0), (3, tState s1)])]

/-- The checks of an output buffer (R628, R715). -/
def outBuffer (s : State) (b : HostBuf) (least : Nat) : List (Bool × Nat) :=
  [(hdrState (bufHeader s b) != bIdle || b.held.isSome, csInUse), (decide (b.bytes < 64 + least), csBadArg)]

/-- A post-mortem record as bytes: the physical core, its register words, the rows (DESIGN CHOICE, log entry 19). -/
def pmBytes (r : PostMortem) : List Byte := (BitVec.ofNat 32 r.core :: r.regs).flatMap bytesOfWord ++ r.rows.flatten

/-- TEST_UNIT_READ_PM (R601, R628). -/
def execTestUnitReadPm (r : Fin 16384) (pos : Word) (s : State) : Host.Outcome State Fault Refusal :=
  .next (commandIf s r.val pos 0x49 (fun ws => fld (arg ws 3) 1 0 == 2) fun a k ws =>
    let st0 := judge [(badWord0 ws || fld (arg ws 3) 31 2 != 0, csBadArg), badHandle a hBuffer (arg ws 5), notDevice k,
      ((mget? a.hw.pms (arg ws 4).toNat).isNone, csBadArg)]
    match mget? a.hw.bufs (hIndex (arg ws 5)), mget? a.hw.pms (arg ws 4).toNat with
    | some b, some m =>
      let st := judge ((st0 != csOk, st0) :: outBuffer a b (pmBytes m).length)
      if st ≠ csOk then finishCmd a r.val pos.toNat st 0#32 []
      else finishCmd (fillBuffer a b [(0, pmBytes m)] (pmBytes m).length) r.val pos.toNat csOk 0#32 [0#32, 0#32, 0#32]
    | _, _ => finishCmd a r.val pos.toNat st0 0#32 [])

/-- The rows that a SAMPLES buffer names: one word each (DESIGN CHOICE, log entry 19). -/
def sampleRows (s : State) (b : HostBuf) (n : Nat) : List Nat := (wordsOfBytes (devRead s (b.addr + 64) (4 * n)) n).map BitVec.toNat

/-- TEST_UNIT_SAMPLES (R601, R628): word 4 counts the rows (log entry 19). -/
def execTestUnitSamples (r : Fin 16384) (pos : Word) (s : State) : Host.Outcome State Fault Refusal :=
  .next (commandIf s r.val pos 0x49 (fun ws => fld (arg ws 3) 1 0 == 3) fun a k ws =>
    let u := arg ws 2
    let n := (arg ws 4).toNat
    let st0 := judge [(badWord0 ws || fld (arg ws 3) 31 2 != 0, csBadArg), badHandle a hBuffer (arg ws 5), notDevice k, (!unitOk a u, csBadArg),
      (decide (32 < n), csBadArg)]
    match mget? a.hw.bufs (hIndex (arg ws 5)) with
    | none => finishCmd a r.val pos.toNat st0 0#32 []
    | some b =>
      let rows := sampleRows a b (min n 32)
      let st := judge [(st0 != csOk, st0), (rows.any fun i => decide (24576 ≤ i), csBadArg)]
      if st ≠ csOk then finishCmd a r.val pos.toNat st 0#32 []
      else
        let c := if unitKind u = uCore then unitCore u else 13056
        finishCmd (updPart a b.part fun g => { g with samples := (g.samples ++ rows.map fun i => (c, i)).eraseDups }) r.val pos.toNat csOk 0#32
          [0#32, 0#32, 0#32])

end Sys2Proof.Machine
end

