-- ==== Sys2Proof/Machine/Power.lean ====
section
/-! DEFINITION. Power, clock and heat (R634 to R666). -/

namespace Sys2Proof.Machine

/-! ### Rails (R652, R658, R660, R667) -/

/-- A core without power: nothing is left in it, and its scratchpad is undefined (R754). -/
def darkCore (k : Core) : Core := { resetCore false k with spad := Spad.reset, inReset := true }

/-- A region's core rail off, with RAIL as given: its cores stop, the dark regions have changed. -/
def railDown (s : State) (p rail : Nat) : State :=
  let s1 := wFld (wFld s (rg p 4) 2 1 rail) (rg p 4) 0 0 0
  let s2 : State := { s1 with hw := { s1.hw with prefDue := true }, mod := { s1.mod with boost := merase s1.mod.boost p } }
  match logOf s2 p with
  | some l => mapRegion s2 l darkCore
  | none => s2

/-- A region's core rail on and its PLL locked: cores leave reset unless they are fenced (R653, R663, R679). -/
def railUp (s : State) (p : Nat) : State :=
  let s1 := wFld (wFld s (rg p 4) 2 1 2) (rg p 4) 0 0 1
  let s2 := wFld (wFld s1 (rg p 0x20) 11 10 0) (rg p 0x20) 12 12 1
  let s3 : State := { s2 with hw := { s2.hw with prefDue := true } }
  match logOf s3 p with
  | some l => mapRegion s3 l fun k => { k with inReset := k.fenced }
  | none => s3

/-! ### Region voltage (R638 to R647) -/

def vsetOf (s : State) (p : Nat) : Nat := fld (wReg s (rg p 0)) 9 0

/-- A value of VSET and of TP that is not ignored (R667). -/
def vsetOk (mv : Nat) : Bool := decide (620 ≤ mv ∧ mv ≤ 820) && mv % 5 == 0
def tpOk (t : Nat) : Bool := decide (95 ≤ t ∧ t ≤ 110)

/-- VSET_UPDATE (R639): the value comes from the region's characterisation and temperature. -/
def execVsetUpdate (p : PhysId) (mv : Nat) (s : State) : Host.Outcome State Fault Refusal :=
  .next (if vsetOk mv then wFld s (rg p.val 0) 9 0 mv else s)

/-- VLOW (R638). -/
def execVlow (p : PhysId) (s : State) : Host.Outcome State Fault Refusal :=
  .next (if railOn s p.val then wFlag s (rg p.val 8) 1#32 else s)

/-- The partition and step that a droop of a region falls in; a region outside every partition has none. -/
def stepOfPhys (s : State) (p : Nat) : Option (Nat × Nat) :=
  (partOfPhys s p).bind fun q => (s.hpart q).map fun k => (q, k.step)

/-- DROOP (R640, R612): the lowest reading, in mV, and its sensor. -/
def execDroop (p : PhysId) (mv : Nat) (sensor : Fin 64) (s : State) : Host.Outcome State Fault Refusal :=
  let v := vsetOf s p.val
  let s0 := wSet s (rg p.val 0x10) (BitVec.ofNat 32 (packFields [(10, min 1023 mv), (6, sensor.val)]))
  if !railOn s p.val then .next s
  else if v ≤ mv + 30 then .next s0
  else
    let s1 := wFlag s0 (rg p.val 8) 2#32
    let s2 := if mv + 50 < v then suspectPhys (wFlag s1 (rg p.val 8) 4#32) p.val else s1
    let now := stepOfPhys s2 p.val
    if bit (wReg s2 (rg p.val 8)) 3 ∨ (now.isSome ∧ mget? s2.hw.droops p.val = now) then .next s2
    else
      let s3 : State := match now with
        | some e => { s2 with hw := { s2.hw with droops := mset s2.hw.droops p.val e } }
        | none => s2
      .next (addPatina s3 (regionUnit p.val) 300)

/-- The first notice booked for a region (R446). -/
def nextNotice (s : State) (p : Nat) : Option (Booked × Int) :=
  let l := s.tmb.events.filterMap fun e => match e.kind with
    | .notice r di => if r.val = p then some (e, di) else none
    | .launch _ => none
  l.find? fun e => l.all fun x => decide (e.1.time ≤ x.1.time)

/-- LOAD_STEP_NOTICE (R643, R644): the step comes 3,200 cyc after the notice. -/
def execLoadStepNotice (p : PhysId) (s : State) : Host.Outcome State Fault Refusal :=
  match nextNotice s p.val with
  | none => .next s
  | some (e, di) =>
    let s0 := s.reach e.time
    let s1 : State := { s0 with tmb := { s0.tmb with events := s0.tmb.events.filter fun x => x.id != e.id } }
    if railOn s1 p.val then
      .next (wCount { s1 with mod := { s1.mod with boost := mset s1.mod.boost p.val (e.time + 4800, decide (0 < di)) } } (rg p.val 8) 23 16 1)
    else .next (wCount s1 (rg p.val 8) 31 24 1)

/-- NOTICE_END (R643). -/
def execNoticeEnd (p : PhysId) (s : State) : Host.Outcome State Fault Refusal :=
  match mget? s.mod.boost p.val with
  | none => .next s
  | some e => .next { s.reach e.1 with mod := { s.mod with boost := merase s.mod.boost p.val } }

/-- ABNORMAL_DROP (R645, R646): CRACK and a RECORD. -/
def execAbnormalDrop (p : PhysId) (s : State) : Host.Outcome State Fault Refusal :=
  .next (if railOn s p.val then (wFlag s (rg p.val 8) 8#32).record ⟨.supply, p.val, []⟩ else s)

/-- What the heartwood does on an abnormal drop (R646, R664). -/
def onCrack (s : State) (p : Nat) : State :=
  let s1 := railDown (fenceUnit s (regionUnit p) fcDrop 0 noPm) p 0
  if rstkCol s1 (p / 8) = p % 8 then rstkLost s1 (p / 8) else s1

/-- OVERCUR (R647). -/
def execOvercur (p : PhysId) (amps : Nat) (s : State) : Host.Outcome State Fault Refusal :=
  if !railOn s p.val ∨ amps ≤ 480 then .next s
  else
    let s1 := suspectPhys (wFlag (wFld s (rg p.val 0xC) 15 0 (10 * min 500 amps)) (rg p.val 8) 16#32) p.val
    match logOf s1 p.val, partOfPhys s1 p.val with
    | some l, some q => .next (judgeStep (updPart s1 q fun k => { k with now_ := { k.now_ with overcur := keyAdd k.now_.overcur l } }) q)
    | _, _ => .next s1

/-! ### The module's power (R634, R636, R649, R650) -/

/-- A budget as it acts (R634, R649). -/
def clampBudget (s : State) (w : Nat) : Nat :=
  let v := max 6000 (min 18000 w)
  if s.mod.phases ≤ 10 then min v (1700 * s.mod.phases) else v

/-- PHASE_FAIL: the phases still at work (R634, R612). -/
def execPhaseFail (working : Nat) (s : State) : Host.Outcome State Fault Refusal :=
  let n := min 12 working
  if 12 ≤ n then .next { s with mod := { s.mod with phases := n } }
  else
    let s1 := addPatina (sbdFlag (wFlag { s with mod := { s.mod with phases := n } } 0x30010 16#32) 0x100#32) (heartUnit (activeHw s)) 2000
    let s2 := wFld s1 0x30008 15 0 (if n ≤ 10 then min (fld (wReg s1 0x30008) 15 0) (1700 * n) else fld (wReg s1 0x30008) 15 0)
    .next (if n < 4 then moduleFault s2 else s2)

/-- VIN_LOW (R636, R741). -/
def execVinLow (s : State) : Host.Outcome State Fault Refusal := .next (sbdFlag (wFlag s 0x30010 1#32) 16#32)

/-- The current sum of a partition's programs (R648). -/
def partAmps (s : State) (p : Nat) : Nat :=
  ((s.hw.progs.filter fun e => e.2.part == p).map fun e => progAmps e.2.img).foldl (· + ·) 0

/-- The partition with the largest current sum. -/
def heaviest (s : State) : Option Nat :=
  let l := s.hw.parts.map Prod.fst
  l.find? fun p => l.all fun q => decide (partAmps s q ≤ partAmps s p)

/-- PIN_OVER (R650): input power in W. -/
def execPinOver (watts : Nat) (s : State) : Host.Outcome State Fault Refusal :=
  let s0 := wFld s 0x30000 31 16 (min 65535 watts)
  if watts ≤ fld (wReg s 0x30008) 15 0 then .next s0
  else
    let s1 := sbdFlag (wFlag s0 0x30010 2#32) 32#32
    match heaviest s1 with
    | some p => .next (failPartition s1 p 0)
    | none => .next s1

/-! ### Clocks (R653 to R656) -/

/-- Whether a partition runs a section: it stands at no barrier and is not halted. -/
def running (s : State) (k : Partn) : Bool := !k.halted && !(s.core (coreAt (16 * k.col0) (16 * k.row0))).awaiting

/-- CLOCK_LOSS: the current input of a region is lost; `alive` are the inputs that carry a clock. -/
def execClockLoss (p : PhysId) (alive : BitVec 4) (s : State) : Host.Outcome State Fault Refusal :=
  let w := wReg s (rg p.val 0x20)
  let cur := fld w 9 8
  match ([0, 1, 2, 3].map fun i => fld w (2 * i + 1) (2 * i)).find? fun d => d != cur && alive.getLsbD d with
  | none =>
    .next { wFld (wFld s (rg p.val 0x20) 11 10 1) (rg p.val 0x20) 12 12 0 with
      mod := { s.mod with noClock := mset s.mod.noClock p.val (mgetD s.mod.noClock p.val s.now) } }
  | some d =>
    let w1 := setFld (setFld (setFld (setFld w 9 8 d) 11 10 0) 12 12 1) 31 16 (fld w 31 16 + 1)
    let s1 : State := { wSet s (rg p.val 0x20) w1 with mod := { s.mod with noClock := merase s.mod.noClock p.val } }
    let s2 := addPatina s1 (regionUnit p.val) 100
    match (partOfPhys s2 p.val).bind fun q => (s2.hpart q).map fun k => (q, k) with
    | some (q, k) => .next (if running s2 k then startRecovery (suspectPhys s2 p.val) q 1 else s2)
    | none => .next s2

/-- CLOCK_DEAD: 64,000 cyc without any clock. -/
def execClockDead (p : PhysId) (s : State) : Host.Outcome State Fault Refusal :=
  match mget? s.mod.noClock p.val with
  | none => .next s
  | some t =>
    .next ((wFld (wFld (s.reach (t + 64000)) (rg p.val 0x20) 11 10 3) (rg p.val 0x20) 12 12 0).record ⟨.clock, p.val, []⟩)

/-! ### Heat (R657 to R663) -/

def tNormal : Nat := 0
def tWarm : Nat := 1
def tRequest : Nat := 2
def tPollarded : Nat := 3
def tHard : Nat := 4
def tTripped : Nat := 5
def thermal (s : State) (p : Nat) : Nat := fld (wReg s (rg p 0x38)) 2 0
def setThermal (s : State) (p v : Nat) : State := wFld s (rg p 0x38) 2 0 v
def tpOf (s : State) (p : Nat) : Nat := fld (wReg s (rg p 0x34)) 7 0
def setTmax (s : State) (p : Nat) (t : BitVec 8) : State := wFld s (rg p 0x30) 7 0 t.toNat

/-- WARM (R657): TMAX at or above TP - 10 °C, and its end. -/
def execWarm (p : PhysId) (temp : BitVec 8) (s : State) : Host.Outcome State Fault Refusal :=
  let s1 := setTmax s p.val temp
  if tpOf s p.val ≤ temp.toNat + 10 then
    (if thermal s p.val = tNormal then .next (sbdFlag (setThermal s1 p.val tWarm) 8#32) else .next s1)
  else .next (if thermal s p.val = tWarm then setThermal s1 p.val tNormal else s1)

/-- A pollarded region: rail off, counted (R658, R660). -/
def pollarded (s : State) (p : Nat) : State :=
  let s1 := setThermal (railDown s p 0) p tPollarded
  wFld s1 (rg p 0x38) 31 16 (fld (wReg s1 (rg p 0x38)) 31 16 + 1)

/-- A region outside every partition, or a rootstock, pollarded at once (R660, R661). -/
def pollardNow (s : State) (p : Nat) : State :=
  let s1 := pollarded s p
  if rstkCol s1 (p / 8) = p % 8 ∧ rstkState s1 (p / 8) = rstkIntact then wFld s1 (rowReg (p / 8)) 4 3 rstkPending else s1

/-- A request recorded: it waits for a barrier of the partition, whose next launch is cancelled (R658). -/
def askPollard (s : State) (p q : Nat) : State :=
  let s1 := updPart (cancelBooked s q) q fun k => { k with standing := true }
  if s1.hw.pollard.contains p then s1 else { s1 with hw := { s1.hw with pollard := s1.hw.pollard ++ [p] } }

/-- POLLARD_REQUEST (R657, R658, R660). -/
def execPollardRequest (p : PhysId) (temp : BitVec 8) (s : State) : Host.Outcome State Fault Refusal :=
  let s1 := setTmax s p.val temp
  if temp.toNat < tpOf s p.val ∨ tRequest ≤ thermal s p.val then .next s1
  else
    match partOfPhys s1 p.val with
    | some q => .next (askPollard (setThermal s1 p.val tRequest) p.val q)
    | none => .next (pollardNow s1 p.val)

/-- A request served or dropped. -/
def dropRequest (s : State) (p : Nat) : State := { s with hw := { s.hw with pollard := s.hw.pollard.filter fun x => x != p } }

/-- Whether a request of a partition still waits. -/
def asksFor (s : State) (q : Nat) : Bool := s.hw.pollard.any fun p => partOfPhys s p == some q

/-- A pollard (R658): the steps of a graft with the region as the pruned one. -/
def pollardMove (s : State) (p q : Nat) : State :=
  let col := rstkCol s (p / 8)
  let tripped := thermal s p = tTripped
  let s1 := graftEvent s p q col 0
  let s2 := raiseEvent (fenceRegion s1 p) evFenced q (handleOf s1 hPart q)
    [regionUnit p, BitVec.ofNat 32 fcThermal, BitVec.ofNat 32 noPm]
  let s3 := graftMove s2 p (some q)
  let s4 := if tripped then wFld s3 (rg p 0x38) 31 16 (fld (wReg s3 (rg p 0x38)) 31 16 + 1) else pollarded s3 p
  let s5 := dropRequest s4 p
  let s6 := updPart s5 q fun k => { k with standing := asksFor s5 q, heat := false }
  endRecovery s6 q fun a => graftEvent a p q col 1

/-- POLLARD (R658, R659, R661, R664): the oldest request of a row is served at the partition's barrier, or at once in HARD and TRIPPED. -/
def execPollard (p : PhysId) (s : State) : Host.Outcome State Fault Refusal :=
  if (s.hw.pollard.find? fun x => x / 8 == p.val / 8) ≠ some p.val then .next s
  else match (partOfPhys s p.val).bind fun q => (s.hpart q).map fun k => (q, k) with
    | none => .next (pollardNow (dropRequest s p.val) p.val)
    | some (q, k) =>
      let hot := decide (tHard ≤ thermal s p.val)
      if !hot && running s k then .next s
      else
        let s1 := if hot then applyHalt s q else s
        if canGraft s1 p.val then .next (pollardMove s1 p.val q)
        else .next (updPart s1 q fun x => { x with heat := true })

/-- POLLARD_HOLD_END (R659): TMAX has stayed below TP - 10 °C for 1 s. -/
def execPollardHoldEnd (part : Nat) (s : State) : Host.Outcome State Fault Refusal :=
  match s.hpart part with
  | none => .next s
  | some k =>
    if !k.heat then .next s
    else
      let mine := s.hw.pollard.filter fun p => partOfPhys s p == some part
      let s1 := mine.foldl (fun a p => setThermal (dropRequest a p) p tNormal) s
      let s2 := updPart s1 part fun x => { x with heat := false, standing := false }
      .next (resume (rollback s2 part) part)

/-- What the heartwood does on HARD (R619, R661, R664). -/
def onHard (s : State) (p : Nat) : State :=
  match partOfPhys s p with
  | none => if railOn s p then pollardNow s p else s
  | some q => askPollard (quenchHold (originateQuench (dropRequest s p) q quThermal) q) p q

/-- THERMAL_HARD (R657, R661). -/
def execThermalHard (p : PhysId) (temp : BitVec 8) (s : State) : Host.Outcome State Fault Refusal :=
  let s1 := setTmax s p.val temp
  if temp.toNat < fld (wReg s (rg p.val 0x34)) 15 8 ∨ thermal s p.val = tTripped ∨ thermal s p.val = tPollarded then .next s1
  else .next (onHard (setThermal s1 p.val tHard) p.val)

/-- THERMAL_TRIP (R657, R662): the region cuts its own rail and sends a RECORD. -/
def execThermalTrip (p : PhysId) (temp : BitVec 8) (s : State) : Host.Outcome State Fault Refusal :=
  let s1 := wFld s (rg p.val 0x30) 19 12 temp.toNat
  if temp.toNat < fld (wReg s (rg p.val 0x34)) 23 16 then .next s1
  else .next ((setThermal (railDown s1 p.val 3) p.val tTripped).record ⟨.thermal, p.val, []⟩)

/-- POLLARD_RETURN (R662, R663): powered again and tested. -/
def execPollardReturn (p : PhysId) (pass : Bool) (s : State) : Host.Outcome State Fault Refusal :=
  if thermal s p.val ≠ tPollarded ∧ thermal s p.val ≠ tTripped then .next s
  else .next (regionTested (setThermal (railUp s p.val) p.val tNormal) p.val pass)

/-! ### Stacks and coolant (R665, R666) -/

/-- STACK_OVERHEAT. -/
def execStackOverheat (st : StackId) (temp : BitVec 8) (s : State) : Host.Outcome State Fault Refusal :=
  let s1 := s.setStack st.val (kFld (s.stack st.val) 0x28 7 0 temp.toNat)
  if temp.toNat ≤ 95 then .next s1
  else .next (sbdFlag (wFlag (s1.setStack st.val (kFlag (s1.stack st.val) kStatus 8#32)) 0x30010 8#32) 4#32)

/-- A THERMAL quench for every partition, with or without the hold (R665, R666). -/
def quenchAll (s : State) (cause : Nat) : State :=
  (s.hw.parts.map Prod.fst).foldl (fun a p => quenchHold (originateQuench a p cause) p) s

/-- STACK_CRITICAL. -/
def execStackCritical (_st : StackId) (s : State) : Host.Outcome State Fault Refusal := .next (moduleFault (quenchAll s quThermal))

/-- Whether the coolant is out of limits (R666, R735). -/
def coolBad (s : State) : Bool := decide (42 < fld (wReg s 0x3000C) 7 0 ∨ fld (wReg s 0x3000C) 31 16 < 130)

/-- COOL: inlet temperature in °C, flow in 0.1 L/min. -/
def execCool (tin : BitVec 8) (flow : BitVec 16) (s : State) : Host.Outcome State Fault Refusal :=
  let s1 := wFld (wFld s 0x3000C 7 0 tin.toNat) 0x3000C 31 16 flow.toNat
  if !coolBad s1 then .next s1
  else
    let s2 := sbdFlag (quenchAll (wFlag s1 0x30010 4#32) quThermal) 0x44#32
    let s3 := (List.range 48).foldl (fun a p => railDown a p 0) s2
    .next (wFld { s3 with mod := { s3.mod with coolTrip := true } } 0x8 13 8 0)

end Sys2Proof.Machine
end

