-- ==== Sys2Proof/Machine/Records.lean ====
section
/-! DEFINITION. What the active heartwood does with a RECORD (R344, R421, R422, R431, R547, R558 to R561, R585, R587, R612, R646, R656,
R662). -/

namespace Sys2Proof.Machine

/-- A finding of the step in progress, at the partition of the core that sent the record; the step is judged anew. -/
def finding (s : State) (c : Nat) (f : Findings → Findings) : State :=
  match partOfRegion s (regionOfCore c) with
  | none => s
  | some p => judgeStep (updPart s p fun k => { k with now_ := f k.now_ }) p

/-- A finding about the progress of a core (R587, R589, R290). -/
def progFinding (s : State) (c : Nat) (args : List Nat) : State := finding s c fun n => { n with prog := n.prog ++ [(c, args)] }

/-- Patina of a stack for the blocks it has corrected, 10 for each 1,000 (R612). -/
def correctedPatina (s : State) (st : Nat) : State :=
  let k := s.stack st
  let n := k.corr / 1000
  if n ≤ k.told then s else addPatina (s.setStack st { k with told := n }) (stackUnit st) (10 * (n - k.told))

/-- A halted stream: the page asked for, or the window moved to its alternate queue pair and the stream set to run (R422, R538). -/
def onPageMiss (s : State) (st c why : Nat) : State :=
  let x := s.ctx st c
  let part := x.part.getD 0
  let a := (chunkAddr x x.pos).getD 0 - remoteBase
  let w := a / 2 ^ 45
  if why = whyMiss then
    raiseEvent s evPageMiss part (handleOf s hWindow w) [BitVec.ofNat 32 (a % 2 ^ 45 / 2097152)]
  else
    match mget? s.hw.wins w with
    | some d =>
      let s1 : State := { s with hw := { s.hw with wins := mset s.hw.wins w { d with qp := d.alt, alt := d.qp } } }
      if ((s1.qp d.alt).map fun q => !q.err) = some true then remoteResume s1 st c else s
    | none => s

/-- A stream that FAILED, reported (R422, R538). -/
def onStreamFailed (s : State) (st c : Nat) : State :=
  let x := s.ctx st c
  raiseEvent s evStreamFailed (x.part.getD 0) 0#32 [BitVec.ofNat 32 (st + 64 * c), BitVec.ofNat 32 x.pos]

/-- A copy of device time that lost alignment: its region or stack is a failed unit (R431, R612). -/
def onSkew (s : State) (u : Nat) : State :=
  if 1000 ≤ u then fenceUnit s (stackUnit (u - 1000)) fcSkew 0 noPm
  else fenceUnit (addPatina s (regionUnit u) 1000) (regionUnit u) fcSkew 0 noPm

/-- A record taken. -/
def takeRecord (s : State) (r : Rec) : State :=
  match r.kind with
  | .parity => finding s r.src fun n => { n with parity := keyAdd n.parity r.src }
  | .dataParity => finding s r.src fun n => { n with parity := keyAdd n.parity r.src }
  | .guardTrip => finding (wCount s iGuard 15 0 1) r.src fun n => { n with guard := n.guard ++ [(r.src, r.args.take 3)] }
  | .assay => finding (wCount s iAssay 15 0 1) r.src fun n => { n with assay := n.assay ++ [(r.src, r.args)] }
  | .pcFault => progFinding s r.src r.args
  | .slotMiss => progFinding s r.src r.args
  | .xsync => progFinding s r.src r.args
  | .badBuf => progFinding s r.src r.args
  | .checkpoint => progFinding s r.src r.args
  | .silent => s
  | .reqTimeout => s
  | .linkError => noteLink s r.src
  | .hopsDrop => noteLink s r.src
  | .heartbeat => { s with hw := { s.hw with beats := mset s.hw.beats r.src s.now } }
  | .baseBeat => correctedPatina { s with hw := { s.hw with beats := mset s.hw.beats (1000 + r.src) s.now } } r.src
  | .uncorrectable => addPatina s (stackUnit r.src) 500
  | .retrain => addPatina s (stackUnit r.src) 50
  | .repairFull => addPatina s (stackUnit r.src) 8000
  | .portRate => s
  | .clock => fenceUnit s (regionUnit r.src) fcSkew 0 noPm
  | .thermal => onHard s r.src
  | .supply => onCrack s r.src
  | .skew => onSkew s r.src
  | .crcFour => s
  | .pageMiss => onPageMiss s r.src (r.args.headD 0) (r.args.getD 1 0)
  | .streamFailed => onStreamFailed s r.src (r.args.headD 0)
  | .watchdog => s

/-- RECORD: the oldest record on its way reaches the active heartwood. -/
def execRecord (s : State) : Host.Outcome State Fault Refusal :=
  match s.records with
  | [] => .next s
  | r :: rest => .next (takeRecord { s with records := rest } r)

end Sys2Proof.Machine
end

