-- ==== Sys2Proof/Machine/WindowWrite.lean ====
section
/-! DEFINITION. Writes of the register blocks of R678 with what they start: bring-up steps, rails, frame clocks, doorbells (R454,
R540, R667, R676, R679 to R681, R695). -/

namespace Sys2Proof.Machine

/-! ### brg.go (R674, R676, R679 to R681, R695) -/

def brgGo : Nat := 0x4
def goStep (w : Word) : Nat := fld w 3 0
def goLevel (w : Word) : Nat := fld w 5 4
def goArg (w : Word) : Nat := fld w 31 8

/-- Statuses of a bring-up reply (R674). -/
def buOk : Nat := 0
def buBadOp : Nat := 1
def buBadAddr : Nat := 2
def buDenied : Nat := 3
def buBusy : Nat := 4
def buOrder : Nat := 5
def buBadLen : Nat := 6

/-- A word that `brg.go` refuses whatever the state: an unknown STEP, LEVEL 3, reserved bits, an ARG that names no port, stack or region
(DEDUCED, log entry 21). -/
def goBadOp (w : Word) : Bool :=
  let k := goStep w
  let a := goArg w
  k == 0 || decide (10 < k) || goLevel w == 3 || fld w 7 6 != 0 ||
  (k == 4 && decide (256 ≤ a)) || (k == 7 && decide (56 ≤ a)) || (k == 8 && decide (8 ≤ a)) || (k == 9 && decide (48 ≤ a))

/-- A start that the life cycle state, step 6, COOL or RST_N forbids (R666, R676, R680, R751). -/
def goDenied (s : State) (w : Word) : Bool :=
  let lc := lifeCycle s.mod
  lc == 4 || (lc == 2 && goLevel w == 2) || (decide (goStep w ≤ 9) && brgDone s 6) || s.mod.coolTrip || rstHeld s

/-- A start before the steps it needs (R680). -/
def goOrder (s : State) (w : Word) : Bool :=
  let k := goStep w
  (decide (k ≤ 6) && (List.range (k - 1)).any fun i => !brgDone s (i + 1)) ||
  (decide (7 ≤ k ∧ k ≤ 9) && (!brgDone s 1 || (k == 7 && !brgDone s 3)))

/-- The status of a word written to `brg.go` (R674). -/
def goStatus (s : State) (w : Word) : Nat :=
  if goBadOp w then buBadOp
  else if goDenied s w then buDenied
  else if brgState s = bsRunning ∧ goStep w ≠ 10 then buBusy
  else if goOrder s w then buOrder
  else buOk

/-- DONE bits that stay when step k starts (R680). -/
def doneKept (k done : Nat) : Nat := if k ≤ 6 then done % 2 ^ (k - 1) else if k = 9 then done % 2 else done

/-- A step starts (R679 to R681): CUR, RUNNING, no cause, the DONE bits that stay. -/
def startStep (s : State) (w : Word) (auto : Bool) : State :=
  let s0 := if brgState s = bsRunning then brgEnd s 7 else s
  let r := wReg s0 brgStep
  let k := goStep w
  let r1 := setFld (setFld (setFld (setFld (setFld r 3 0 k) 6 4 bsRunning) 13 8 (doneKept k (fld r 13 8))) 23 16 0) 31 24 0
  let s1 := wSet (wSet s0 brgStep r1) brgGo w
  { s1 with mod := { s1.mod with stepAt := s.now, auto := auto } }

/-- A write to `brg.go`. -/
def goWrite (s : State) (w : Word) : State := if goStatus s w = buOk then startStep s w false else s

/-! ### The window -/

/-- A write of `rgn.pwr.vset` and of `rgn.thm.thr`: values out of range are ignored (R667). -/
def vsetWrite (s : State) (o : Nat) (val : Word) : State :=
  wSet s o (setFld (if vsetOk (fld val 9 0) then setFld (wReg s o) 9 0 (fld val 9 0) else wReg s o) 20 16 (fld val 20 16))
def thrWrite (s : State) (o : Nat) (val : Word) : State :=
  if tpOk (fld val 7 0) then wFld s o 7 0 (fld val 7 0) else s

/-- A write of EN of `rgn.pwr.ctl` (R667): the rail follows. -/
def railWrite (s : State) (p : Nat) (val : Word) : State :=
  if bit val 0 = bit (wReg s (rg p 4)) 0 then s
  else if bit val 0 then railUp s p else railDown s p 0

/-- A register of a frame clock (R443, R454). -/
def clockWrite (s : State) (k r : Nat) (val : Word) : State :=
  if r = 0 ∨ r = 4 then clkWrite s k r val
  else if r = 8 then clkEnable s k val
  else winPlain s (tClk k r) val

/-- A register of a region. -/
def rgnWrite (s : State) (p r : Nat) (val : Word) : State :=
  if r = 0 then vsetWrite s (rg p 0) val
  else if r = 4 then railWrite s p val
  else if r = 0x34 then thrWrite s (rg p 0x34) val
  else winPlain s (rg p r) val

/-- A word written to the register window. -/
def winWrite (s : State) (o : Nat) (val : Word) : State :=
  if o = brgGo then goWrite s val
  else if o = 0x10020 then (if bit val 0 then snapMap s else s)
  else if 0x10100 ≤ o ∧ o < 0x10300 then clockWrite s ((o - 0x10100) / 32) ((o - 0x10100) % 32) val
  else if 0x40000 ≤ o ∧ o < 0x43000 then rgnWrite s ((o - 0x40000) / 256) ((o - 0x40000) % 256) val
  else if 0x100000 ≤ o ∧ o < 0x140000 then
    (if o % 16 = 0 then ringTail s ((o - 0x100000) / 16) val.toNat
     else if o % 16 = 4 then ringChead s ((o - 0x100000) / 16) val.toNat
     else s)
  else winPlain s o val

/-- Whether a word of the
window has a field that can be written (R676). -/
def hasWritable (o : Nat) : Bool :=
  match regFind windowRegs o with
  | some r => (r.rw ||| r.wo) != 0#32
  | none => false

/-- The registers that a CUSTOMER module lets bring-up write (R676). -/
def customerMay (o : Nat) : Bool :=
  o == brgGo || o == 0x10 || decide (0x40 ≤ o ∧ o < 0x80) || writable 0 (windowBase + o)

end Sys2Proof.Machine
end

