-- ==== Sys2Proof/Machine/Bring.lean ====
section
/-! DEFINITION. Power-up and its end, the bring-up protocol, bring-up steps 1 to 4 and 7 to 10 (R463 to R465, R635, R636, R670 to
R684, R732, R744, R749). -/

namespace Sys2Proof.Machine

/-! ### Power (R635, R671, R744, R749) -/

/-- Every handle in use loses its generation with its object (R492). -/
def bumpAll (s : State) : State :=
  let h := s.hw
  let go (ty : Nat) (l : List Nat) (a : State) : State := l.foldl (fun b i => bumpGen b ty i) a
  go hWindow (h.wins.map Prod.fst) (go hProgram (h.progs.map Prod.fst) (go hKey (h.keys.map Prod.fst) (go hQp (h.qps.map Prod.fst)
    (go hBuffer (h.bufs.map Prod.fst) (go hChannel (h.chans.map Prod.fst) (go hRing (h.rings.map Prod.fst)
      (go hSession (h.sessions.map Prod.fst) (go hPart (h.parts.map Prod.fst) s))))))))

/-- The module without power: fuses, the repair record, the firmware slots and the levels of the pins stay (R29, R237, R582, R612,
R635, R710). -/
def coldModule (m : Module) : Module :=
  { m with package := [], stage := [], loaded := [], enabled := false, stepAt := 0, coolTrip := false, auto := false, boost := [], i3cAddr := none, i3cOff := 0, ibi := true, ibiAt := none
           hotJoin := false, sbd := [], noClock := [] }

/-- A window register that stands in the repair record: `wfr.map` and the scores. -/
def inRepair (o : Nat) : Bool := decide (0x1100 ≤ o ∧ o < 0x1118) || decide (0x200100 ≤ o ∧ o < 0x220000)

/-- A base die without power: its repairs are in the repair record (R418, R425). -/
def coldStack (k : Stack) : Stack := { Stack.reset with spares := k.spares, fixed := k.fixed }

/-- The device without power. -/
def coldState (s0 : State) : State :=
  let s := bumpAll s0
  { State.reset with
    now := s.now, free := s.free, pending := s.pending, bypass := s.bypass
    cores := s.cores.map fun e => (e.1, darkCore e.2)
    regions := (List.range 42).map fun l => (l, { Region.reset with tmpl := darkCore (s.region l).tmpl })
    stks := s.stks.map fun e => (e.1, coldStack e.2)
    win := s.win.filter fun e => inRepair e.1
    hw := { Heartwood.reset with gens := s.hw.gens, fenced := s.hw.fenced }
    mod := coldModule s.mod }

/-- ENABLE: the rise of EN; device time starts at 0, the ports train, MATE_SENSE and the straps are sensed, the seal loop is tested (R430, R671, R723, R741, R744). -/
def execEnable (sealBroken mated : Bool) (slot : Fin 4) (s : State) : Host.Outcome State Fault Refusal :=
  if s.mod.enabled then .next s
  else
    let c := coldState s
    let s1 : State := { c with
      now := 0
      mod := { c.mod with enabled := true, enAt := 0, boots := (c.mod.boots + 1) % 2 ^ 32, hotJoin := true, mated := mated, slot := slot.val
                          tamper := c.mod.tamper || sealBroken } }
    .next ((List.range 8).foldl (fun a p => wCount (wFld a (pReg p 4) 2 0 poTraining) (pReg p 4) 31 16 1) s1)

/-- DISABLE: the fall of EN ends everything (R749). -/
def execDisable (s : State) : Host.Outcome State Fault Refusal := .next (if s.mod.enabled then coldState s else s)

/-- INPUT_OUT_OF_RANGE: the first stage stops; power is lost as at removal (R636). -/
def execInputOutOfRange (s : State) : Host.Outcome State Fault Refusal := .next (coldState s)

/-! ### Bring-up messages (R672 to R677) -/

/-- A request that a port has outstanding and that the engine answers (R463, R464, R751). -/
def onBrup (s : State) (p : Nat) (src : Word) (reads : Bool) (body : State) : State :=
  let st := portState s p
  if ((s.port p).brup.any fun e => e.1 == src.toNat) ∧ (st = poQuiet ∨ st = poUp) ∧ (reads ∨ ¬ rstHeld s) then body else s

/-- The first cause of a refusal (R674). -/
def buJudge : List (Bool × Nat) → Nat
  | [] => buOk
  | (bad, st) :: t => if bad then st else buJudge t

/-- The body of a DISCOVER reply (R468, R673). -/
def discoverWords (s : State) (p : Nat) : List Word :=
  let m := portMac s p
  let w (n : Nat) : Word := BitVec.ofNat 32 n
  [ w (0x4256 + 65536 * bnat s.mod.grade + 2 ^ 24 * p), w m, w (m / 2 ^ 32), portIp s p, w s.mod.serial, w (s.mod.serial / 2 ^ 32),
    w s.hw.annSeq, w (activeHw s), w s.mod.boots, w (lifeCycle s.mod + 256 * brgCur s + 65536 * brgState s) ]

/-- DISCOVER (R673, R676, R677). -/
def execDiscover (p : PortId) (src xid : Word) (len : Nat) (s : State) : Host.Outcome State Fault Refusal :=
  .next (onBrup s p.val src true
    (if len ≠ 0 then brupReply s p.val src xid buBadLen [] else brupReply s p.val src xid buOk (discoverWords s p.val)))

/-- Offsets of consecutive words from the window's base; an address below the base names none. -/
def buOffset (a i : Nat) : Nat := a + 4 * i - windowBase
def buAddrBad (a n : Nat) : Bool :=
  a % 4 != 0 || decide (a < windowBase) || (List.range (max 1 (min 256 n))).any fun i => !inWindow (buOffset a i)

/-- Window words read in order. -/
def winReads (s : State) (o : Nat) : Nat → List Word × State
  | 0 => ([], s)
  | n + 1 =>
    let x := winRead s o
    let y := winReads x.2 (o + 4) n
    (x.1 :: y.1, y.2)

/-- BRINGUP_READ (R673, R674, R676, R677). -/
def execBringupRead (p : PortId) (src xid : Word) (len : Nat) (addr : BitVec 64) (count : Nat) (s : State) :
    Host.Outcome State Fault Refusal :=
  let a := addr.toNat
  let n := max 1 (min 256 count)
  let up := portState s p.val == poUp && (List.range n).any fun i => decide (0x1000 ≤ buOffset a i)
  let st := buJudge [(buAddrBad a count, buBadAddr), (lifeCycle s.mod == 4 || up, buDenied),
    (len != 10 || count == 0 || decide (256 < count), buBadLen)]
  .next (onBrup s p.val src true
    (if st ≠ buOk then brupReply s p.val src xid st []
     else (let x := winReads s (buOffset a 0) count; brupReply x.2 p.val src xid buOk x.1)))

/-- Why a WRITE is refused (R674 to R677, R681): its words are judged before any is written. -/
def writeVerdict (s : State) (p a count len : Nat) (words : List Word) : Nat :=
  let n := max 1 (min 256 count)
  let offs := (List.range n).map (buOffset a)
  let gos := ((List.range n).filter fun i => buOffset a i == brgGo).filterMap fun i => words[i]?
  let lc := lifeCycle s.mod
  let may (o : Nat) : Bool := if lc = 2 then customerMay o else hasWritable o
  let go (st : Nat) : Bool := gos.any fun w => goStatus s w == st
  buJudge [(go buBadOp, buBadOp), (buAddrBad a count, buBadAddr),
    (lc == 4 || portState s p == poUp || offs.any (fun o => !may o) || go buDenied, buDenied), (go buBusy, buBusy), (go buOrder, buOrder),
    (len != 10 + 4 * count || count == 0 || decide (256 < count) || words.length != count, buBadLen)]

/-- Words written in ascending address order (R675). -/
def winWrites (s : State) (o : Nat) : List Word → State
  | [] => s
  | w :: t => winWrites (winWrite s o w) (o + 4) t

/-- BRINGUP_WRITE (R673 to R677). -/
def execBringupWrite (p : PortId) (src xid : Word) (len : Nat) (addr : BitVec 64) (count : Nat) (words : List Word) (s : State) :
    Host.Outcome State Fault Refusal :=
  let st := writeVerdict s p.val addr.toNat count len words
  .next (onBrup s p.val src false
    (if st ≠ buOk then brupReply s p.val src xid st []
     else brupReply (winWrites s (buOffset addr.toNat 0) words) p.val src xid buOk []))

/-- STAGE (R673 to R677): OFFSET and the end in the staging area of 16 MiB. -/
def execStage (p : PortId) (src xid : Word) (len : Nat) (off : Word) (bytes : List Byte) (s : State) : Host.Outcome State Fault Refusal :=
  let o := off.toNat
  let st := buJudge [(o % 64 != 0 || decide (16777216 < o + bytes.length), buBadAddr),
    (lifeCycle s.mod == 4 || portState s p.val == poUp, buDenied),
    (len != 4 + bytes.length || bytes.length % 64 != 0 || bytes.isEmpty || decide (8192 < bytes.length), buBadLen)]
  .next (onBrup s p.val src false
    (if st ≠ buOk then brupReply s p.val src xid st []
     else brupReply { s with mod := { s.mod with stage := cellPuts s.mod.stage o bytes } } p.val src xid buOk []))

/-! ### The steps (R679 to R682) -/

/-- The word that started the latest step. -/
def brgWord (s : State) : Word := wReg s brgGo

/-- A step's bound in ms (R679). -/
def stepBound (k level : Nat) : Nat :=
  match k with
  | 1 => 50
  | 2 => if level = 0 then 400 else 2000
  | 3 => 150
  | 4 => 300
  | 5 => 200
  | 6 => 500
  | 7 => 1
  | 8 => 300
  | 9 => 60
  | _ => 50

/-- The step's end in device time by its bound. -/
def stepDue (s : State) : Nat := s.mod.stepAt + msCyc * stepBound (brgCur s) (goLevel (brgWord s))

/-- Whether step k runs. -/
def stepRuns (s : State) (k : Nat) : Bool := brgState s == bsRunning && brgCur s == k

/-- The effect of the step that runs, within its bound; after it, the step has failed with TIMEOUT. -/
def runStep (s : State) (k : Nat) (body : State → State) : State :=
  if !stepRuns s k then s else if stepDue s < s.now then brgEnd s 1 else body s

/-- Core rails on, for regions that no fence or missing power keeps off. -/
def powerAll (s : State) : State := (List.range 48).foldl railUp s

/-- POWER (R645, R666, R679): `ok` where every rail came up. -/
def execPower (ok : Bool) (s : State) : Host.Outcome State Fault Refusal :=
  .next (runStep s 1 fun a => if !ok ∨ coolBad a then brgEnd a 8 else brgEnd (powerAll a) 0)

/-- BIST (R682): at the LEVEL that started it. The staging area lies in Burmon memory. -/
def execBist (level : Fin 4) (f : BistFindings) (s : State) : Host.Outcome State Fault Refusal :=
  .next (runStep s 2 fun a =>
    if goLevel (brgWord a) ≠ level.val then a
    else
      let r := bistResult { a with mod := { a.mod with stage := [] } } f
      brgEnd r.1 r.2)

/-- TRAIN_STACKS (R385, R679): `ok` where every interface trained. -/
def execTrainStacks (ok : Bool) (s : State) : Host.Outcome State Fault Refusal :=
  .next (runStep s 3 fun a => if ok then brgEnd (putOwner a 159 1 0 true) 0 else brgEnd a 3)

/-- TRAIN_PORTS (R459, R679, R681): the ports that ARG names. -/
def execTrainPorts (ports : BitVec 8) (s : State) : Host.Outcome State Fault Refusal :=
  .next (runStep s 4 fun a =>
    if fld (brgWord a) 15 8 ≠ ports.toNat then a
    else brgEnd (((List.range 8).filter ports.getLsbD).foldl portTrain a) 0)

/-- All 16 pairs of a stack retrained (R423, R428). -/
def retrainAll (s : State) (st : Nat) : State :=
  let k := s.stack st
  let k1 := kFld (kFld k kRetrain 31 16 (fld (kReg k kRetrain) 31 16 + 16)) kStatus 31 16 0
  (List.range 16).foldl (fun a p => a.record ⟨.retrain, st, [p]⟩) (s.setStack st (kFld k1 kRetrain 3 0 15))

/-- RETRAIN_STACK (R679): 16 refresh frames. -/
def execRetrainStack (st : StackId) (s : State) : Host.Outcome State Fault Refusal :=
  .next (runStep s 7 fun a =>
    if goArg (brgWord a) ≠ st.val then a else brgEnd (retrainAll (a.reach (a.mod.stepAt + 65536)) st.val) 0)

/-- RETRAIN_PORT (R679, R681). -/
def execRetrainPort (p : PortId) (s : State) : Host.Outcome State Fault Refusal :=
  .next (runStep s 8 fun a => if goArg (brgWord a) ≠ p.val then a else brgEnd (portTrain a p.val) 0)

/-- RESET_REGION (R679, R680): the core rail off and on; QUICK BIST leaves the scratchpads zero. -/
def execResetRegion (p : PhysId) (s : State) : Host.Outcome State Fault Refusal :=
  .next (runStep s 9 fun a =>
    if goArg (brgWord a) ≠ p.val then a
    else
      let b := railUp (railDown a p.val 0) p.val
      let c := match logOf b p.val with
        | some l => mapRegion b l zeroSpad
        | none => b
      brgEnd c 0)

/-- The `brg` block at its reset values, but for `brg.fw`, `brg.ring0.wordW` and CUR with STATE of the step that runs (R695). -/
def brgClear (s : State) : State :=
  let w := wReg s brgStep
  let s1 : State := { s with win := s.win.filter fun e => !(e.1 == 0xC || decide (0x80 ≤ e.1 ∧ e.1 < 0x94)) }
  wFld (wSet s1 brgStep (BitVec.ofNat 32 (packFields [(4, fld w 3 0), (3, fld w 6 4)]))) 0 4 4 0

/-- RESET_ALL (R679, R681, R695): every core rail off, the heartwoods in reset. -/
def execResetAll (s : State) : Host.Outcome State Fault Refusal :=
  .next (runStep s 10 fun a =>
    let b := brgClear ((List.range 48).foldl (fun x p => railDown x p 0) a)
    brgEnd { b with hw := { b.hw with ready := false }, mod := { b.mod with loaded := [], auto := false } } 0)

/-- STEP_TIMEOUT (R679). -/
def execStepTimeout (s : State) : Host.Outcome State Fault Refusal :=
  if brgState s ≠ bsRunning then .next s
  else
    let s1 := brgEnd (s.reach (stepDue s)) 1
    .next { s1 with mod := { s1.mod with auto := false } }

/-- After a whole-device reset, step 5 starts without the host when steps 1 to 4 are DONE (R684). -/
def autoStart (s : State) : State :=
  if !s.mod.auto ∨ rstHeld s ∨ brgState s = bsRunning ∨ ¬ [1, 2, 3, 4].all (brgDone s) then s else startStep s 5#32 true

/-- AUTO_RESTART. -/
def execAutoRestart (s : State) : Host.Outcome State Fault Refusal := .next (autoStart s)

end Sys2Proof.Machine
end

