-- ==== Sys2Proof/Machine/Start.lean ====
section
/-! DEFINITION. Bring-up steps 5 and 6: the firmware package, life cycle transitions, ring 0, normal service (R38, R392, R534, R679,
R683, R684, R694, R698 to R714). -/

namespace Sys2Proof.Machine

/-! ### Packages (R707, R708) -/

def pkgFlags (b : List Byte) : Nat := msgNat b 6 2
def pkgStore (b : List Byte) : Nat := pkgFlags b % 4
def pkgToken (b : List Byte) : Bool := pkgFlags b / 4 % 2 == 1
def pkgSvn (b : List Byte) : Nat := msgNat b 8 4
def pkgMinSvn (b : List Byte) : Nat := msgNat b 12 4
def pkgMask (b : List Byte) : Nat := msgNat b 17 1
def pkgBody (b : List Byte) : Nat := msgNat b 20 4
def pkgPart (b : List Byte) (a n : Nat) : List Byte := (b.drop a).take n

/-- The length that a package's header gives it. -/
def pkgLen (b : List Byte) : Nat := 384 + pkgBody b + (if pkgToken b then 256 else 0)

/-- The first check of R708 but for the length. -/
def pkgForm (b : List Byte) : Bool :=
  msgNat b 0 4 == 0x4B505744 && msgNat b 4 2 == 1 && decide (pkgFlags b < 8) && pkgStore b != 3 && decide (pkgSvn b ≤ 64) &&
  decide (pkgMinSvn b ≤ pkgSvn b) && decide (msgNat b 16 1 < 4) && msgNat b 18 2 == 0 && pkgBody b % 64 == 0 && msgNat b 366 18 == 0

/-- The checks of R708 after the first, by one crypto block. -/
def pkgGenuine (m : Module) (b : List Byte) : Bool :=
  let root := pkgPart b 24 57
  let signer := pkgPart b 81 57
  let signed := pkgPart b 0 252 ++ (b.drop 384)
  (match m.roots[msgNat b 16 1]? with
   | some (d, revoked) => Config.shake256 root 32 == d && !revoked
   | none => false) &&
  Config.ed448Verify false root "Didudra signer" signer (pkgPart b 138 114) &&
  Config.ed448Verify true signer "Didudra firmware" signed (pkgPart b 252 114) &&
  decide (m.svn ≤ pkgSvn b) && pkgMask b / 2 ^ lifeCycle m % 2 == 1

/-- The package that LOAD_FW reads, and whether it comes from the staging area (R684, R695): none where there is none of a length that
R708 allows. -/
def pkgSource (s : State) : Option (List Byte × Bool) :=
  let w := wReg s 0x10
  let slot := fld w 1 0
  if s.mod.auto then (if s.mod.package.isEmpty then none else some (s.mod.package, false))
  else if slot < 2 then
    match mget? s.mod.store slot with
    | some b => if pkgLen b ≤ b.length then some (b.take (pkgLen b), false) else none
    | none => none
  else if slot = 2 then
    (let n := 64 * fld w 25 8
     let b := cellGets s.mod.stage 0 n
     if n ≤ 16777216 ∧ pkgLen b = n then some (b, true) else none)
  else none

/-- A step ends without what it was for; a restart by the engine alone stops there (R684). -/
def stepFails (s : State) (cause : Nat) : State :=
  let s1 := brgEnd s cause
  { s1 with mod := { s1.mod with auto := false } }

/-- LOAD_FW (R694, R708, R709): `bad` are the cores that the pour of the pattern set loses. -/
def loadFw (s : State) (bad : List (Nat × Nat × Nat)) : State :=
  match pkgSource s with
  | none => stepFails { s with mod := { s.mod with loaded := [] } } 4
  | some (b, staged) =>
    if !pkgForm b || !pkgGenuine s.mod b then stepFails { s with mod := { s.mod with loaded := [] } } 4
    else
      let s1 : State := { s with mod := { s.mod with package := b, staged := staged, loaded := [0, 1] } }
      let s2 := recordDefects s1 (bad.map fun e => 272 * e.1 + 17 * e.2.1 + e.2.2) []
      if (List.range 6).any (rowLost s2) then stepFails s2 5
      else
        let s3 := brgEnd s2 0
        if s3.mod.auto then startStep s3 6#32 true else s3

/-- LOAD_FW. -/
def execLoadFw (bad : List (Nat × Nat × Nat)) (s : State) : Host.Outcome State Fault Refusal :=
  .next (runStep s 5 fun a => loadFw a bad)

/-! ### Transitions (R700 to R706, R711, R712) -/

/-- The token that follows a package's body. -/
def tokenOf (b : List Byte) : List Byte := pkgPart b (384 + pkgBody b) 252

/-- The transitions of R700. -/
def transitionOk (m : Module) (a b : Nat) : Bool :=
  a == lifeCycle m &&
  ((a == 0 && b == 1) || (a == 1 && b == 2) || (a == 2 && b == 3) || (a == 3 && b == 2 && decide (m.lcf < 8)) || (a != 4 && b == 4))

/-- Whether a token is applied (R711, R712). -/
def tokenOk (m : Module) (b t : List Byte) : Bool :=
  let key := pkgPart t 24 57
  m.staged && !b.isEmpty && msgNat t 0 4 == 0x4E4B5454 && msgNat t 6 2 == 0 && msgNat t 20 4 == 0 && msgNat t 81 57 == 0 &&
  Config.shake256 key 32 == m.transKey && Config.ed448Verify false key "Didudra transition" (pkgPart t 0 24) (pkgPart t 138 114) &&
  msgNat t 8 8 == m.serial && msgNat t 16 4 == m.boots && transitionOk m (msgNat t 4 1) (msgNat t 5 1)

/-- A device erase (R701). -/
def deviceErase (s : State) : State :=
  let s1 := zeroStacks (zeroSpads s) 0 171798691840
  { s1 with
    hw := { s1.hw with eph := [], pms := [], log := s1.hw.log.map fun _ => ⟨0, 0, 0, []⟩
                       parts := s1.hw.parts.map fun e => (e.1, { e.2 with key := none, oldKey := none, keyId := [] }) }
    mod := { s1.mod with stage := [] } }

/-- The bytes of fresh words from the entropy source. -/
def freshBytes (n i : Nat) : List Byte := (List.range n).flatMap fun j => bytesOfWord (Config.freeWord (i + j))

/-- A transition: erase, fuse, read back, log entry (R700 to R702, R706, R713). `fuses`: the banks agree. -/
def transition (s : State) (target : Nat) (token : List Byte) (fuses : Bool) : State × Bool :=
  let s0 : State := if target = 1 then { (s.takeFree 8) with mod := { s.mod with uds := freshBytes 8 s.free } } else deviceErase s
  if !fuses then (s0, false)
  else
    let m := s0.mod
    let m1 : Module := if target = 4 then { m with scrap := true, uds := List.replicate 32 255#8 } else { m with lcf := m.lcf + 1 }
    (logAdd { s0 with mod := m1 } 4 target (if token.isEmpty then [] else Config.shake256 token 32), true)

/-- The transition that START makes, if the package asks for one: the state afterwards, and whether START goes on. -/
def transit (s : State) (fuses : Bool) : State × Bool :=
  let b := s.mod.package
  if pkgToken b then
    (let t := tokenOf b
     if tokenOk s.mod b t && s.hw.parts.isEmpty then transition s (msgNat t 5 1) t fuses else (s, false))
  else if lifeCycle s.mod = 0 ∧ pkgMask b = 1 then transition s 1 [] fuses
  else (s, true)

/-! ### Ring 0 (R533 to R535, R683, R695) -/

def ring0Word (s : State) (i : Nat) : Word := wReg s (0x40 + 4 * i)
def ring0Cq (s : State) : Nat := (ring0Word s 5).toNat + 2 ^ 32 * (ring0Word s 6).toNat

/-- Whether the ring 0 words keep R533 and R535. -/
def ring0Ok (s : State) : Bool :=
  let w := ring0Word s
  fld (w 0) 31 9 == 0 && ringSizesOk (fld (w 0) 3 0) (fld (w 0) 7 4) (bit (w 0) 8) && w 1 == 0#32 && ring0Cq s % 64 == 0 &&
  qpWordsOk (w 9) (w 11) (w 12) (w 13) && decide (fld (w 9) 8 6 ≤ 4)

/-- Ring 0 opened, with its queue pair and its keys, unless it has survived a reset (R492, R534). -/
def openRing0 (s : State) : State :=
  match s.ring 0 with
  | some _ => s
  | none =>
    let w := ring0Word s
    let cmd := reservePage 0
    match freeIndex s.hw.qps 2 65536, freeIndex s.hw.keys 0 65536 with
    | some q, some c =>
      let m : MemKey := ⟨0, cmd, 64 * 2 ^ fld (w 0) 3 0, false, true, none⟩
      let keys := mset s.hw.keys c m
      match freeIndex keys 0 65536 with
      | none => s
      | some d =>
        let dk : MemKey := ⟨0, mbxBase, 8, false, true, some 0⟩
        let r := newRing 0 (fld (w 0) 3 0) (fld (w 0) 7 4) (bit (w 0) 8) cmd (ring0Cq s) (w 7) q d
        let s1 := s.setQp q (newQp s 0 (w 9) (w 10) (w 11) (w 12) (w 13))
        { s1 with hw := { s1.hw with rings := mset s1.hw.rings 0 r, keys := mset keys d dk } }
    | _, _ => s

/-- `brg.ring0.out0` to `out4` (R695). -/
def putOuts (s : State) : State :=
  match s.ring 0 with
  | none => s
  | some r =>
    let key := (s.hw.keys.find? fun e => e.2.part == 0 && e.2.ring.isNone && e.2.addr == r.cmd).map Prod.fst
    let s1 := wSet (wSet s 0x80 (BitVec.ofNat 32 r.cmd)) 0x84 (BitVec.ofNat 32 (r.cmd / 2 ^ 32))
    wSet (wSet (wSet s1 0x88 (handleOf s hKey (key.getD 0))) 0x8C (handleOf s hKey r.dbKey)) 0x90 (BitVec.ofNat 32 r.qp)

/-! ### START (R38, R683, R710) -/

/-- The distance table laid out in the reserve (R391, R392). -/
def layDist (s : State) : State :=
  let a := reservePage 1
  writeDist (wFld (wSet s 0x1120 (BitVec.ofNat 32 a)) 0x1124 19 0 (a / 2 ^ 32))

/-- SVN fuses raised and the slot written (R710). -/
def settleStore (s : State) : State :=
  let b := s.mod.package
  let m : Module := { s.mod with svn := max s.mod.svn (pkgMinSvn b) }
  { s with mod := (if m.staged ∧ pkgStore b ≠ 0 then { m with store := mset m.store (pkgStore b - 1) b } else m) }

/-- The active heartwood begins normal service. -/
def beginService (s : State) (act : Nat) (standby : Bool) : State :=
  let s1 := wFld (wFld s 0x200000 0 0 act) 0x200000 1 1 (bnat standby)
  let s2 := settleStore (layDist (putOuts (openRing0 s1)))
  let bad := s2.hw.fenced.any faultUnit
  let s3 : State := { s2 with hw := { s2.hw with beatAt := s2.now, turned := false, fault := bad, prefDue := true }
                              mod := { s2.mod with auto := false } }
  brgEnd (if bad then setSbdState (sbdFlag s3 1#32) 4 else s3) 0

/-- START: `west` and `east` pass their start-up tests, `fuses`: a fuse blown reads back alike in both banks. -/
def startService (s : State) (west east fuses : Bool) : State :=
  let ok (h : Nat) : Bool := (if h = 0 then west else east) && s.mod.loaded.contains h && !unitFenced s (heartUnit h)
  if !ring0Ok s then stepFails s 9
  else if !ok 0 && !ok 1 then stepFails s 6
  else
    let s0 : State := { s with hw := { s.hw with events := [] } }
    let s1 := if s0.hw.logN = 0 then logAdd s0 1 0 (Config.shake256 Config.bootRom 32) else s0
    let s2 := logAdd s1 2 (pkgSvn s1.mod.package) (Config.shake256 s1.mod.package 32)
    let r := transit s2 fuses
    if r.2 then beginService r.1 (if ok 0 then 0 else 1) (ok 0 && ok 1) else stepFails r.1 4

/-- START. -/
def execStart (west east fuses : Bool) (s : State) : Host.Outcome State Fault Refusal :=
  .next (runStep s 6 fun a => startService a west east fuses)

end Sys2Proof.Machine
end

