-- ==== Sys2Proof/Machine/Attest.lean ====
section
/-! DEFINITION. Attestation and job keys (R699, R704, R713 to R721). -/

namespace Sys2Proof.Machine

/-! ### attest (R715, R716) -/

/-- A partition that `attest` names: zero for the device. -/
def attestPart (ws : List Word) : Nat := if arg ws 3 = 0#32 then 0 else hIndex (arg ws 3)

/-- An `attest` record with an ACTION; the reserved ACTION goes with REPORT. -/
def attests (n : Nat) (ws : List Word) : Bool := fld (arg ws 2) 1 0 == n || (n == 0 && fld (arg ws 2) 1 0 == 3)

/-- The checks that every ACTION shares. -/
def attestChecks (s : State) (k : Ring) (ws : List Word) : List (Bool × Nat) :=
  let lc := lifeCycle s.mod
  let b := mget? s.hw.bufs (hIndex (arg ws 4))
  [(badWord0 ws || fld (arg ws 2) 31 2 != 0, csBadArg), if arg ws 3 = 0#32 then (false, csOk) else badHandle s hPart (arg ws 3),
    badHandle s hBuffer (arg ws 4), (lc == 0 || lc == 4, csDenied), outOfScope k (attestPart ws),
    outOfScope k ((b.map HostBuf.part).getD 0), (fld (arg ws 2) 1 0 == 3, csBadArg)]

/-- `attest` with an ACTION: the checks, then the effect on the buffer it names. -/
def onAttest (s : State) (r : Nat) (pos : Word) (n : Nat) (own : State → HostBuf → List Word → List (Bool × Nat))
    (eff : State → HostBuf → List Word → State) : State :=
  commandIf s r pos 0x50 (attests n) fun a k ws =>
    let st0 := judge (attestChecks a k ws)
    match mget? a.hw.bufs (hIndex (arg ws 4)) with
    | none => finishCmd a r pos.toNat st0 0#32 []
    | some b =>
      let st := judge ((st0 != csOk, st0) :: own a b ws)
      if st ≠ csOk then finishCmd a r pos.toNat st 0#32 [] else eff a b ws

/-- The device identity key (R704). -/
def dikSecret (m : Module) : List Byte :=
  Config.shake256 (m.uds ++ ("Didudra identity".toList.map fun c => BitVec.ofNat 8 c.toNat)) 57

/-- The base point of X448 (RFC 7748). -/
def x448Base : List Byte := 5#8 :: List.replicate 55 0#8

/-- The latest PROGRAM digest of a partition: that of its latest entry in the log. -/
def progDigest (s : State) (p : Nat) : List Byte :=
  let mine (e : LogEntry) : Bool := e.kind == 3 && (s.hw.progs.any fun g => g.2.part == p && (handleOf s hProgram g.1).toNat == e.index)
  ((s.hw.log.reverse.find? mine).map LogEntry.digest).getD (List.replicate 32 0#8)

/-- Bytes 0 to 311 of a report (R716). -/
def reportBody (s : State) (ws : List Word) (id : Nat) (pub : List Byte) : List Byte :=
  let m := s.mod
  let part := if arg ws 3 = 0#32 then none else s.hpart (attestPart ws)
  let flags := bnat m.tamper + 2 * bnat (decide (65536 < s.hw.logN)) + 4 * bnat (bit (wReg s 0xC) 23)
  bytesLe 4 0x54415950 ++ bytesLe 2 1 ++ bytesLe 2 426 ++ bytesLe 1 (lifeCycle m) ++ bytesLe 1 (bnat m.grade) ++ bytesLe 1 (activeHw s) ++
  bytesLe 1 (tState s) ++ bytesLe 1 flags ++ bytesLe 3 0 ++ bytesLe 8 m.serial ++ bytesLe 4 m.boots ++ bytesLe 4 id ++ bytesLe 8 (devTime s) ++
  ((List.range 8).flatMap fun i => bytesOfWord (arg ws (6 + i))) ++ bytesLe 4 (pkgSvn m.package) ++ bytesOfWord (arg ws 3) ++
  padTo 32 (Config.shake256 Config.bootRom 32) ++ padTo 32 (Config.shake256 m.package 32) ++ padTo 32 (Config.shake256 m.repair 32) ++
  padTo 32 (if part.isSome then progDigest s (attestPart ws) else []) ++ padTo 8 ((part.map Partn.keyId).getD []) ++ padTo 56 pub ++
  bytesLe 4 s.hw.logN ++ bytesLe 4 m.svn ++ padTo 32 s.hw.mlog

/-- The number of the next report since power-up. -/
def nextReport (s : State) : Nat := s.hw.reports + 1

/-- ATTEST_REPORT: `entropy` is the ephemeral secret drawn (R716). -/
def execAttestReport (r : Fin 16384) (pos : Word) (entropy : List Byte) (s : State) : Host.Outcome State Fault Refusal :=
  .next (onAttest s r.val pos 0 (fun a b _ => outBuffer a b 2048) fun a b ws =>
    let id := nextReport a
    let secret := padTo 56 entropy
    let pub := Config.x448 secret x448Base
    let body := reportBody a ws id pub
    let sig := Config.ed448Sign (dikSecret a.mod) "Didudra attestation" body
    let cert := a.mod.cert.take 1536
    let key : EphKey := ⟨attestPart ws, secret, pub, a.now, false, false⟩
    let a1 : State := { a with hw := { a.hw with eph := mset a.hw.eph id key, reports := id } }
    let a2 := fillBuffer a1 b [(0, body ++ padTo 114 sig), (512, cert)] (512 + cert.length)
    finishCmd a2 r.val pos.toNat csOk 0#32
      [BitVec.ofNat 32 (b.addr + 64), BitVec.ofNat 32 ((b.addr + 64) / 2 ^ 32), BitVec.ofNat 32 id])

/-- ATTEST_LOG (R716): entries from FIRST as far as the payload holds them. -/
def execAttestLog (r : Fin 16384) (pos : Word) (s : State) : Host.Outcome State Fault Refusal :=
  .next (onAttest s r.val pos 2 (fun a b _ => outBuffer a b 2048) fun a b ws =>
    let l := (a.hw.log.drop (fld (arg ws 5) 15 0)).take ((b.bytes - 64) / 64)
    let a1 := fillBuffer a b [(0, l.flatMap logBytes)] (64 * l.length)
    finishCmd a1 r.val pos.toNat csOk 0#32 [BitVec.ofNat 32 l.length, BitVec.ofNat 32 a.hw.logN])

/-! ### Job keys (R717 to R720) -/

/-- What JOB_KEY computes from its 128 bytes: z, the key, and whether the tag holds (R717). -/
def unwrapKey (e : EphKey) (m : List Byte) : List Byte × List Byte × Bool :=
  let part (a n : Nat) : List Byte := (m.drop a).take n
  let hpub := part 8 56
  let z := Config.x448 e.secret hpub
  let w := Config.kmac256 z (part 0 4 ++ part 4 4 ++ e.public_ ++ hpub) 64 "Didudra wrap"
  (z, List.zipWith (fun a b => a ^^^ b) (part 64 32) (w.take 32),
    part 96 32 == Config.kmac256 ((w.drop 32).take 32) (part 64 32) 32 "Didudra wrap tag")

/-- KEY_ID of a job key (R719). -/
def keyIdOf (key : List Byte) (job : Nat) : List Byte := (Config.kmac256 key (bytesLe 4 job) 32 "Didudra key id").take 8

/-- A job key installed: the one before stays valid for 2 s (R719, R720). -/
def installKey (s : State) (p : Nat) (k : Partn) (key : List Byte) : State :=
  let id := keyIdOf key k.checks.job
  let old := match k.key with
    | some o => some (o, s.now + 2 * secondCyc)
    | none => none
  logAdd (s.setPart p { k with key := some key, oldKey := old, keyId := id }) 5 (handleOf s hPart p).toNat id

/-- Why a report's key does not serve (R718). -/
def keyStale (s : State) (p : Nat) (e : Option EphKey) : Bool :=
  match e with
  | none => true
  | some x => x.part != p || x.used || x.stale || decide (60 * secondCyc < s.now - x.made)

/-- ATTEST_JOB_KEY. -/
def execAttestJobKey (r : Fin 16384) (pos : Word) (s : State) : Host.Outcome State Fault Refusal :=
  .next (onAttest s r.val pos 1
    (fun _ b ws => [(arg ws 3 == 0#32, csBadArg), (decide (b.bytes < 192), csBadArg)]) fun a b ws =>
      let p := attestPart ws
      let m := devRead a (b.addr + 64) 128
      let id := msgNat m 0 4
      let e := mget? a.hw.eph id
      let a1 : State := match e with
        | some x => { a with hw := { a.hw with eph := mset a.hw.eph id { x with secret := [], used := true } } }
        | none => a
      match e, a1.hpart p with
      | some x, some k =>
        let u := unwrapKey x m
        if keyStale a p e then finishCmd a1 r.val pos.toNat csStale 0#32 []
        else if u.1.all (fun y => y == 0#8) ∨ !u.2.2 ∨ msgNat m 4 4 ≠ k.checks.job ∨ a.mod.tamper then
          finishCmd a1 r.val pos.toNat csFailed 0#32 []
        else
          let a2 := installKey a1 p k u.2.1
          finishCmd a2 r.val pos.toNat csOk 0#32 (wordsOfBytes (keyIdOf u.2.1 k.checks.job) 2)
      | _, _ => finishCmd a1 r.val pos.toNat csStale 0#32 [])

/-- OLD_KEY_ERASE: 2 s after an install (R720). -/
def execOldKeyErase (part : Nat) (s : State) : Host.Outcome State Fault Refusal :=
  match s.hpart part with
  | none => .next s
  | some k =>
    match k.oldKey with
    | none => .next s
    | some e => .next ((s.reach e.2).setPart part { k with oldKey := none })

/-- EPHEMERAL_KEY_EXPIRE: an unused key 60 s after its report (R718). -/
def execEphemeralKeyExpire (id : Word) (s : State) : Host.Outcome State Fault Refusal :=
  match mget? s.hw.eph id.toNat with
  | none => .next s
  | some e =>
    if e.used then .next s
    else
      let s1 := s.reach (e.made + 60 * secondCyc)
      .next { s1 with hw := { s1.hw with eph := merase s1.hw.eph id.toNat } }

end Sys2Proof.Machine
end

