-- ==== Sys2Proof/Machine/Fabric.lean ====
section
/-! DEFINITION. The move field, arrivals at a router and slot-table entries (R258 to R278). -/

namespace Sys2Proof.Machine

/-- A move descriptor latched at issue (R271, R292). -/
def moveDesc (c : Core) (n : Nat) : Nat × Nat × Nat :=
  (fld (cReg c (0x3080 + 0x10 * n)) 21 0, fld (cReg c (0x3084 + 0x10 * n)) 21 0, fld (cReg c (0x3088 + 0x10 * n)) 20 0)

/-- Whether a move descriptor is valid (R271). -/
def moveDescOk (d : Nat × Nat × Nat) : Bool :=
  d.1 % 64 == 0 && d.2.1 % 64 == 0 && decide (1 ≤ d.2.2 ∧ d.2.2 ≤ 2 ^ 20 ∧ d.1 + (d.2.2 - 1) * d.2.1 + 64 ≤ spadEnd)

/-- A move operation discarded (R271). -/
def moveDiscard (c : Core) (flag : Word) : Core := cFlag c rFabStatus flag

/-- The move field of a bundle issued: the cycle, and the effect on the core where the reserved field is zero
(R245, R271). -/
def issueMove (s : State) (i : Issue) (f : MoveField) (eff : Core → Nat → Bool → Core) : State :=
  let c := s.core i.core.val
  if c.idle then s
  else
    let o := openField c s.now c.usedX
    if o.2.idle then (s.reach o.1).setCore i.core.val o.2
    else
      let c1 : Core := { o.2 with usedX := true }
      (s.reach o.1).setCore i.core.val
        (if f.rsv ≠ 0#12 then moveDiscard c1 fBadOp else eff c1 o.1 (enabledAt c1 i o.1))

/-- `xnop`: none (R270). -/
def execXnop (i : Issue) (f : MoveField) (s : State) : Host.Outcome State Fault Refusal :=
  .next (issueMove s i f fun c _ _ => c)

/-- `xout`: the out-stream of LINK started (R270 to R272). -/
def execXout (i : Issue) (f : MoveField) (s : State) : Host.Outcome State Fault Refusal :=
  .next (issueMove s i f fun c t en =>
    let d := moveDesc c f.desc.toNat
    if !moveDescOk d then moveDiscard c fBadOp
    else if (mget? c.outs f.link.toNat).isSome then moveDiscard c fBusy
    else { c with outs := mset c.outs f.link.toNat ⟨d.1, d.2.1, d.2.2, 0, t + latency c + 1, en⟩ })

/-- `xin`: the in-stream of input LINK started, its count cleared (R270, R271, R273). -/
def execXin (i : Issue) (f : MoveField) (s : State) : Host.Outcome State Fault Refusal :=
  .next (issueMove s i f fun c t en =>
    let d := moveDesc c f.desc.toNat
    if !moveDescOk d then moveDiscard c fBadOp
    else if (mget? c.ins f.link.toNat).isSome then moveDiscard c fBusy
    else
      let push := if f.push = 1#1 then some (f.hq.toNat, (gprAt c f.sreg.toNat t).val) else none
      { cSet c (0x3180 + 4 * f.link.toNat) 0#32 with
        ins := mset c.ins f.link.toNat ⟨d.1, d.2.1, d.2.2, 0, t + 1, en, push, none⟩ })

/-- `xtok`: a local token queued for LINK; KIND none where the bundle is not enabled (R247, R270, R275). -/
def execXtok (i : Issue) (f : MoveField) (s : State) : Host.Outcome State Fault Refusal :=
  .next (issueMove s i f fun c t en =>
    if f.kind = 0#2 ∨ ¬ en then c
    else
      let v := gprAt c f.sreg.toNat t
      let q := mgetD c.localTok f.link.toNat []
      if q.length ≥ 16 then moveDiscard c fQovf
      else
        let k := mkToken (fld v.val 15 0) f.kind.toNat (epochTag c) v.bad
        { c with localTok := mset c.localTok f.link.toNat (q ++ [k]) })

/-- `xstop`: the out-stream and the in-stream of LINK end (R270). -/
def execXstop (i : Issue) (f : MoveField) (s : State) : Host.Outcome State Fault Refusal :=
  .next (issueMove s i f fun c _ _ =>
    { c with outs := merase c.outs f.link.toNat, ins := merase c.ins f.link.toNat })

/-- SCRATCHPAD_COMMIT: the earliest write on its way commits (R211, R234). -/
def execScratchpadCommit (c : CoreId) (s : State) : Host.Outcome State Fault Refusal :=
  let k := s.core c.val
  match k.spad.log.filter fun w => decide (s.now ≤ w.commit) with
  | [] => .next s
  | w :: _ =>
    let s1 := s.reach (w.commit + 1)
    .next (s1.setCore c.val (settleCore k s1.now))

/-- FLIT_ARRIVAL: a flit is at an input: the one given, or the next on its way there (R259, R260, R281). -/
def execFlitArrival (c : CoreId) (inp : Fin 4) (fl : Option Flit) (s : State) : Host.Outcome State Fault Refusal :=
  match fl with
  | some f => .next (s.setCore c.val (arriveFlit (s.core c.val) inp.val f))
  | none =>
    match nextWire s c.val inp.val true with
    | none => .next s
    | some w =>
      let s1 := (takeWire s w true).reach w.due
      match w.flit with
      | some f => .next (s1.setCore c.val (arriveFlit (s1.core c.val) inp.val f))
      | none => .next s1

/-- TOKEN_ARRIVAL: a token is at an input: the one given, or the next on its way there (R259, R260, R275, R281). -/
def execTokenArrival (c : CoreId) (inp : Fin 4) (tok : Option Word) (s : State) : Host.Outcome State Fault Refusal :=
  match tok with
  | some k => .next (s.setCore c.val (arriveTok (s.core c.val) inp.val k))
  | none =>
    match nextWire s c.val inp.val false with
    | none => .next s
    | some w =>
      let s1 := (takeWire s w false).reach w.due
      match w.tok with
      | some k => .next (s1.setCore c.val (arriveTok (s1.core c.val) inp.val k))
      | none => .next s1

/-- SLOT_ENTRY_APPLY: the entry of the next section cycle to come, from launch to the barrier (R265 to R278, R280). -/
def execSlotEntryApply (c : CoreId) (s : State) : Host.Outcome State Fault Refusal :=
  let k0 := s.core c.val
  match k0.launchAt with
  | none => .next s
  | some l =>
    let n := max k0.sectNext (s.now - l)
    if k0.awaiting || decide (sectEnd k0 ≤ n) then .next s
    else
      let t := l + n
      let s1 := s.reach t
      let k := { settleCore k0 t with sectNext := n + 1 }
      match entryIndex k n with
      | none => .next (s1.setCore c.val k)
      | some idx =>
        let r := applyEntry k (slotEntry k idx) t s.free
        .next (r.2.foldl (fun st p => sendLink st c.val t p.1 p.2.1 p.2.2) ((s1.takeFree 16).setCore c.val r.1))

end Sys2Proof.Machine
end

