-- ==== Sys2Proof/Machine/Matrix.lean ====
section
/-! DEFINITION. The matrix field: acceptance, discards and the operations (R122 to R140, R756). -/

namespace Sys2Proof.Machine

/-- The flags of `mtx.status` (R141). -/
def mBusy : Word := 1#32
def mPlane : Word := 2#32
def mBadOp : Word := 4#32
def mBadFmt : Word := 8#32
def mBadDesc : Word := 16#32

/-- Matrix descriptor n as it stands (R141). -/
def matDesc (c : Core) (n : Nat) : MatDesc :=
  let b := cReg c (0x800 + 0x10 * n)
  let k := cReg c (0x80C + 0x10 * n)
  { base := fld b 21 0, fmt := fld b 25 22, scaled := bit b 26, stride := fld (cReg c (0x804 + 0x10 * n)) 21 0
    sbase := fld (cReg c (0x808 + 0x10 * n)) 21 0, k := fld k 15 0, sstride := fld k 31 16 }

def noDesc : MatDesc := ⟨0, 0, false, 0, 0, 0, 0⟩

/-- Mask register m: ROWS and COLS; mask register 0 is all ones (R115). -/
def matRows (c : Core) (m : Nat) : BitVec 256 :=
  if m = 0 then BitVec.allOnes 256
  else (List.range 8).foldl (fun w i => w ||| ((cReg c (0x900 + 0x40 * m + 4 * i)).setWidth 256 <<< (32 * i))) 0#256
def matCols (c : Core) (m : Nat) : BitVec 32 := if m = 0 then BitVec.allOnes 32 else cReg c (0x920 + 0x40 * m)

/-- Whether a field leaves every unused part zero and names no reserved code (R123, R124). -/
def matFieldOk (k : MatKind) (f : MatField) : Bool :=
  f.rsv == 0#9 && f.tgt != 7#3 && f.stat != 3#2 &&
  match k with
  | .mmac => f.stat != 0#2 || f.plane == 0#1
  | .mload => f.msk == 0#3 && f.clr == 0#1 && ((f.stat == 1#2 && f.db == 0#4) || (f.stat == 2#2 && f.da == 0#4))
  | .mzero => f.da == 0#4 && f.db == 0#4 && f.plane == 0#1 && f.stat == 0#2 && f.clr == 0#1
  | .mspill | .mfill => f.db == 0#4 && f.msk == 0#3 && f.plane == 0#1 && f.stat == 0#2 && f.clr == 0#1

/-- R98 for one operand of n rows or columns in slices of s elements. -/
def matDescOk (d : MatDesc) (f : Fmt) (s n : Nat) : Bool :=
  let cnt := sliceCount s d.k
  let ks := sliceElems s d.k (cnt - 1)
  let nb := s / blockLen f
  d.base % 128 == 0 && d.stride % 128 == 0 && decide (n * rowBytes f s ≤ d.stride) && decide (1 ≤ d.k) &&
  (if f == .t5 || f == .l4 then d.scaled else if isWide f then !d.scaled else true) &&
  (!d.scaled || decide (n * nb ≤ d.sstride)) &&
  decide (d.base + (cnt - 1) * d.stride + (n - 1) * rowBytes f s + readBytes f s ks ≤ spadEnd) &&
  (!d.scaled || decide (d.sbase + (cnt - 1) * d.sstride + (n - 1) * nb + readScales f d.scaled ks ≤ spadEnd))

/-- R98 as far as a spill or fill uses it: BASE and the bytes it moves (R126). -/
def spillDescOk (d : MatDesc) (tgt : Nat) : Bool :=
  d.base % 128 == 0 && decide (d.base + (if tgt < 4 then 2048 else 8192) ≤ spadEnd)

/-- Operations outstanding on array n in cycle t (R127). -/
def computeOut (c : Core) (n t : Nat) : Nat :=
  (c.mops.filter fun o => o.kind != .mload && (arraysOf o.tgt).contains n && decide (t ≤ o.cend)).length
def loadsOut (c : Core) (n t : Nat) : Nat :=
  (c.mops.filter fun o => o.kind == .mload && (arraysOf o.tgt).contains n && decide (t ≤ o.cend)).length

/-- Whether every array of the target accepts an operation (R127). -/
def matAccepts (c : Core) (k : MatKind) (tgt t : Nat) : Bool :=
  (arraysOf tgt).all fun n =>
    match k with
    | .mmac => decide (computeOut c n t ≤ 1)
    | .mload => decide (loadsOut c n t ≤ 1)
    | _ => decide (computeOut c n t = 0)

/-- Whether a load conflicts with its plane (R128). -/
def planeBusy (c : Core) (tgt p t : Nat) : Bool :=
  c.mops.any fun o => sharesArray o.tgt tgt && o.plane == p && decide (t ≤ o.cend) &&
    ((o.kind == .mmac && o.stat != 0) || o.kind == .mload)

/-- R104 for a held `mmac`: every plane loaded for this stationarity with the stream's K, and alike on a gang. -/
def planesOk (c : Core) (tgt p stat k : Nat) : Bool :=
  let first := planeOf c ((arraysOf tgt).headD 0) p
  (arraysOf tgt).all fun n =>
    let q := planeOf c n p
    q.loaded && q.stat == stat && q.k == k && q.fmt == first.fmt && q.scaled == first.scaled

/-- The first cause of discard of a matrix operation issued in cycle t, in the order of R756. -/
def matJudge (c : Core) (k : MatKind) (f : MatField) (t : Nat) : Option Word :=
  let tgt := f.tgt.toNat
  let sh := shapeOf tgt
  let stat := f.stat.toNat
  let p := f.plane.toNat
  let da := matDesc c f.da.toNat
  let db := matDesc c f.db.toNat
  let busy : Option Word := if matAccepts c k tgt t then none else some mBusy
  if !matFieldOk k f then some mBadOp
  else
    match k with
    | .mzero => busy
    | .mspill | .mfill => if spillDescOk da tgt then busy else some mBadDesc
    | .mload =>
      let d := if stat = 1 then da else db
      match fmtOfCode d.fmt with
      | none => some mBadDesc
      | some g =>
        if !matDescOk d g (sliceLen g g) (if stat = 1 then sh.1 else sh.2) then some mBadDesc
        else if (heldDepth g stat).isNone then some mBadFmt
        else if d.k > heldBlock g stat then some mBadDesc
        else if busy.isSome then busy
        else if planeBusy c tgt p t then some mPlane else none
    | .mmac =>
      if stat = 0 then
        match fmtOfCode da.fmt, fmtOfCode db.fmt with
        | some a, some b =>
          let s := sliceLen a b
          if !(matDescOk da a s sh.1 && matDescOk db b s sh.2 && da.k == db.k) then some mBadDesc
          else if (pairRate8 a b).isNone then some mBadFmt
          else busy
        | _, _ => some mBadDesc
      else
        let d := if stat = 1 then db else da
        let pl := planeOf c ((arraysOf tgt).headD 0) p
        let held := if pl.loaded && pl.stat == stat then fmtOfCode pl.fmt else none
        match fmtOfCode d.fmt with
        | none => some mBadDesc
        | some g =>
          let h := held.getD g
          let s := if stat = 1 then sliceLen h g else sliceLen g h
          if !matDescOk d g s (if stat = 1 then sh.2 else sh.1) then some mBadDesc
          else if isWide g || (stat == 2 && g == .t5) ||
              (held.isSome && (pairRate8 (if stat = 1 then h else g) (if stat = 1 then g else h)).isNone) then some mBadFmt
          else if !planesOk c tgt p stat d.k then some mBadDesc
          else busy

/-- The operation with its latched fields (R125); a held operand's descriptor carries its plane's format (R104). -/
def matLatch (c : Core) (k : MatKind) (f : MatField) (t : Nat) (en : Bool) : MatOp :=
  let tgt := f.tgt.toNat
  let stat := f.stat.toNat
  let pl := planeOf c ((arraysOf tgt).headD 0) f.plane.toNat
  let held : MatDesc := { noDesc with fmt := pl.fmt, scaled := pl.scaled, k := pl.k }
  let da := matDesc c f.da.toNat
  let db := matDesc c f.db.toNat
  { kind := k, enabled := en, tgt
    da := if k == .mmac && stat == 1 then held else da
    db := if k == .mmac && stat == 2 then held else db
    rows := matRows c f.msk.toNat, cols := matCols c f.msk.toNat
    plane := f.plane.toNat, stat, clr := f.clr == 1#1, issue := t
    aStart := [], bStart := [], cstart := 0, cend := 0, result := 0, applied := false }

/-- The latest end of an operation's compute, and of a plane's load, on the arrays of a target. -/
def prevEnd (c : Core) (tgt : Nat) : Nat :=
  c.mops.foldl (fun m o => if o.kind != .mload && sharesArray o.tgt tgt then max m o.cend else m) 0
def planeReady (c : Core) (tgt p : Nat) : Nat :=
  c.mops.foldl (fun m o => if o.kind == .mload && sharesArray o.tgt tgt && o.plane == p then max m o.cend else m) 0

/-- The last read cycle of the operations of a target's arrays on lane `l` (0: A, 1: B). -/
def laneLast (c : Core) (l tgt : Nat) : Nat := (arraysOf tgt).foldl (fun m n => max m (mgetD c.laneEnd (4 * l + n) 0)) 0
def lanePut (m : Map Nat) (l tgt v : Nat) : Map Nat := (arraysOf tgt).foldl (fun m n => mset m (4 * l + n) v) m

/-- The times of an accepted `mmac` or `mload` worked out (R130 to R139), and the lanes taken. -/
def matSchedule (c : Core) (op : MatOp) : MatOp × Map Nat :=
  let ff := opFmts op
  let s := sliceLen ff.1 ff.2
  let load := op.kind == .mload
  let u := unitTimes op ff.1 ff.2 s (latency c) (laneLast c 0 op.tgt) (laneLast c 1 op.tgt)
    (if load || op.stat == 0 then 0 else planeReady c op.tgt op.plane) (if load then 0 else prevEnd c op.tgt)
  let ce := if load then u.first else u.cends.headD 0
  ({ op with aStart := u.aStarts.reverse, bStart := u.bStarts.reverse, cstart := u.first, cend := ce
             result := if load then ce else ce + 4 },
   lanePut (lanePut c.laneEnd 0 op.tgt u.aEnd) 1 op.tgt u.bEnd)

/-- The writes of an `mspill`: the bank as it stands at the issue (R126, R140); `fr` numbers free values. -/
def spillWrites (c : Core) (op : MatOp) (fr : Nat) : List SpadWrite :=
  markClears ((arraysOf op.tgt).flatMap fun n => (List.range 32).map fun g =>
    let first := 16 * g
    let cells := (List.range 16).map fun i =>
      accSeen c (fr + 512 * n + (first + i) / 256 * 256) op.issue (2 * n + (first + i) / 256) ((first + i) % 256)
    let q := spillPlace op n first
    { commit := q.2 + latency c - 1, client := 2, addr := q.1
      bytes := cells.flatMap fun w => bytesOfWord w.val
      bad := (List.range 16).filterMap fun i => if (cells.getD i ⟨0#32, false⟩).bad then some (q.1 / 4 + i) else none
      tarn := c.accTarn.getLsbD (2 * n + first / 256), clears := [] : SpadWrite })

/-- An accepted operation taken up by the arrays (R127 to R140). -/
def matAccept (c : Core) (k : MatKind) (f : MatField) (t : Nat) (en : Bool) (fr : Nat) : Core :=
  let op := matLatch c k f t en
  match k with
  | .mmac =>
    let r := matSchedule c op
    { c with mops := c.mops ++ [r.1], laneEnd := r.2 }
  | .mload =>
    let r := matSchedule c op
    let d := if op.stat = 1 then op.da else op.db
    { c with
      mops := c.mops ++ [r.1], laneEnd := r.2
      planes := (arraysOf op.tgt).foldl (fun m n =>
        mset m (2 * n + op.plane)
          ({ planeOf c n op.plane with loaded := true, fmt := d.fmt, scaled := d.scaled, stat := op.stat, k := d.k } : Plane))
        c.planes }
  | .mzero => { c with mops := c.mops ++ [{ op with cstart := t + 1, cend := t + 1, result := t + 2 }] }
  | .mspill =>
    { c with
      mops := c.mops ++ [{ op with cstart := t + 1, cend := t + 32, result := t + 33 }]
      spad := if en then spadPushes c.spad (spillWrites c op fr) else c.spad }
  | .mfill =>
    { c with mops := c.mops ++ [{ op with cstart := t + 1, cend := t + 32 + latency c, result := t + 33 + latency c }] }

/-- A matrix operation issued: accepted, or discarded with one flag and counted (R129). -/
def issueMatrix (s : State) (i : Issue) (k : MatKind) (f : MatField) : State :=
  let c := s.core i.core.val
  if c.idle then s
  else
    let o := openField c s.now c.usedM
    if o.2.idle then (s.reach o.1).setCore i.core.val o.2
    else
      let c1 : Core := { o.2 with usedM := true }
      let c2 := match matJudge c1 k f o.1 with
        | some flag => matrixDiscard c1 flag
        | none => matAccept c1 k f o.1 (enabledAt c1 i o.1) s.free
      ((s.reach o.1).takeFree 2048).setCore i.core.val c2

/-- `mnop`: no operation; a non-zero unused field is a discard (R123, R124). -/
def execMnop (i : Issue) (f : MatField) (s : State) : Host.Outcome State Fault Refusal :=
  let c := s.core i.core.val
  if c.idle then .next s
  else
    let o := openField c s.now c.usedM
    if o.2.idle then .next ((s.reach o.1).setCore i.core.val o.2)
    else
      let c1 : Core := { o.2 with usedM := true }
      .next ((s.reach o.1).setCore i.core.val (if f = ⟨0, 0, 0, 0, 0, 0, 0, 0⟩ then c1 else matrixDiscard c1 mBadOp))

/-- `mmac` (R105, R123). -/
def execMmac (i : Issue) (f : MatField) (s : State) : Host.Outcome State Fault Refusal := .next (issueMatrix s i .mmac f)
/-- `mload` (R104). -/
def execMload (i : Issue) (f : MatField) (s : State) : Host.Outcome State Fault Refusal := .next (issueMatrix s i .mload f)
/-- `mzero` (R140). -/
def execMzero (i : Issue) (f : MatField) (s : State) : Host.Outcome State Fault Refusal := .next (issueMatrix s i .mzero f)
/-- `mspill` (R126). -/
def execMspill (i : Issue) (f : MatField) (s : State) : Host.Outcome State Fault Refusal := .next (issueMatrix s i .mspill f)
/-- `mfill` (R126). -/
def execMfill (i : Issue) (f : MatField) (s : State) : Host.Outcome State Fault Refusal := .next (issueMatrix s i .mfill f)

/-- The earliest time that a list of due cycles names, if it names any. -/
def earliest (l : List Nat) : Option Nat :=
  match l with
  | [] => none
  | a :: t => some (t.foldl min a)

/-- The clock moved to the earliest due cycle of a core's list, and the core settled there; where nothing is due,
nothing happens. -/
def reachDue (s : State) (c : CoreId) (l : List Nat) : State :=
  match earliest l with
  | none => s
  | some d =>
    let t := max s.now d
    (s.reach t).setCore c.val (settleCore (s.core c.val) t)

/-- An mload's held block is ready in its plane (R136). -/
def execPlaneReady (c : CoreId) (s : State) : Host.Outcome State Fault Refusal :=
  .next (reachDue s c (((s.core c.val).mops.filter fun o => o.kind == .mload).map fun o => o.result))

/-- The result cycle of an `mmac`: its entries hold their results (R139). -/
def execMmacResult (c : CoreId) (s : State) : Host.Outcome State Fault Refusal :=
  .next (reachDue s c (((s.core c.val).mops.filter fun o => o.kind == .mmac).map fun o => o.result))

/-- The result cycle of an `mfill` (R140). -/
def execMfillResult (c : CoreId) (s : State) : Host.Outcome State Fault Refusal :=
  .next (reachDue s c (((s.core c.val).mops.filter fun o => o.kind == .mfill).map fun o => o.result))

end Sys2Proof.Machine
end

