-- ==== Sys2Proof/Machine/Ports.lean ====
section
/-! DEFINITION. The commands of the Ethernet ports but for RoCEv2 (R456 to R474, R488). -/

namespace Sys2Proof.Machine

/-- FRAME_RECEIVE (R462). -/
def execFrameReceive (p : PortId) (f : Frame) (s : State) : Host.Outcome State Fault Refusal := .next (receiveFrame s p.val f)

/-- LINK_LOCK: a training port locks in the mode that `eth.portP.cfg` holds (R456, R459, R466). -/
def execLinkLock (p : PortId) (s : State) : Host.Outcome State Fault Refusal :=
  if portState s p.val ≠ poTraining then .next s
  else
    let k := s.port p.val
    let m := fld (wReg s (pReg p.val 0)) 2 0
    let e := if 3 ≤ m then fld (regRaw sidebandRegs s.mod.sbd (0x40 + 4 * p.val)) 2 0 else k.preset
    let s1 := s.setPort p.val { k with mode := m, preset := e }
    if !s.hw.ready then .next (setPortState s1 p.val poQuiet)
    else if k.annOwed then .next (readyPort (setPortState s1 p.val poUp) p.val)
    else .next (setPortState s1 p.val poUp)

/-- LINK_LOSS: block lock lost for more than 1 ms; a partial frame is discarded (R459, R487). -/
def execLinkLoss (p : PortId) (inFrame : Bool) (s : State) : Host.Outcome State Fault Refusal :=
  let st := portState s p.val
  if st = poFenced then .next s
  else .next (portTrain (if inFrame ∧ (st = poQuiet ∨ st = poUp) then portErr s p.val 0 0 1 else s) p.val)

/-- RETRAIN: a write of RETRAIN (R459). -/
def execRetrain (p : PortId) (s : State) : Host.Outcome State Fault Refusal := .next (portTrain s p.val)

/-- PORT_FENCE: a write of FENCE (R460). -/
def execPortFence (p : PortId) (s : State) : Host.Outcome State Fault Refusal := .next (portFence s p.val)

/-- UNFENCE: a write of UNFENCE (R460). -/
def execUnfence (p : PortId) (s : State) : Host.Outcome State Fault Refusal := .next (portUnfence s p.val)

/-- READY_ANNOUNCEMENT: normal service starts once START is done, and not before 1.0 s (R466, R683). -/
def execReadyAnnouncement (s : State) : Host.Outcome State Fault Refusal :=
  if s.hw.ready ∨ ¬ bit (wReg s 0x8) 13 then .next s else .next (announceReady (s.reach (s.mod.enAt + 1000 * msCyc)))

/-- READY_REPEAT: the next repeat of a port's announcement (R469). -/
def execReadyRepeat (p : PortId) (s : State) : Host.Outcome State Fault Refusal :=
  let k := s.port p.val
  match k.repeats with
  | [] => .next s
  | t :: rest =>
    let s1 := (s.reach t).setPort p.val { k with repeats := rest }
    if portState s1 p.val = poUp then .next (sendReady s1 p.val) else .next s1

/-- BRINGUP_REQUEST_EXPIRE: 10 ms without a reply (R464). -/
def execBringupRequestExpire (p : PortId) (src : Word) (s : State) : Host.Outcome State Fault Refusal :=
  let k := s.port p.val
  match k.brup.find? fun e => e.1 == src.toNat with
  | none => .next s
  | some e => .next ((s.reach (e.2 + 10 * msCyc)).setPort p.val { k with brup := k.brup.filter fun x => x.1 != src.toNat })

/-- PFC_REPEAT: 40 us after the last while occupancy stays at or above 128 KiB (R472). -/
def execPfcRepeat (p : PortId) (prio : Fin 8) (s : State) : Host.Outcome State Fault Refusal :=
  match mget? (s.port p.val).pfcNext prio.val with
  | none => .next s
  | some t =>
    if mgetD (s.port p.val).occ prio.val 0 < 131072 then .next s
    else
      let s1 := sendPfc (s.reach t) p.val prio.val
      .next (s1.setPort p.val { s1.port p.val with pfcNext := mset (s1.port p.val).pfcNext prio.val (t + 64000) })

/-- The end of a pause of q quanta of 512 bit times (R473). -/
def pauseEnd (s : State) (p q : Nat) : Nat := s.now + (q * 8192 + 10 * portRate s p - 1) / (10 * portRate s p)

/-- One priority of a PFC frame (R473, R474, R489). -/
def takePause (p : Nat) (quanta : List (BitVec 16)) (s : State) (i : Nat) : State :=
  let o := pReg p (0x100 + 8 * i)
  let s1 := wSet s o (wReg s o + 1#32)
  let k := s1.port p
  if !pfcOn s p i then s1
  else if (mget? k.ignored i).isSome then s1.setPort p { k with ignored := mset k.ignored i s.now }
  else
    let t := pauseEnd s p (quanta.getD i 0#16).toNat
    if t ≤ s.now then flushPrio (s1.setPort p { k with pauses := merase k.pauses i, heldBy := merase k.heldBy i }) p i
    else
      let since := if prioPaused s p i then mgetD k.heldBy i s.now else s.now
      s1.setPort p { k with pauses := mset k.pauses i t, heldBy := mset k.heldBy i since }

/-- PFC_RECEIVE (R473). -/
def execPfcReceive (p : PortId) (vec : BitVec 8) (quanta : List (BitVec 16)) (s : State) : Host.Outcome State Fault Refusal :=
  if portState s p.val ≠ poUp then .next s
  else .next (((List.range 8).filter vec.getLsbD).foldl (takePause p.val quanta) s)

/-- PAUSE_EXPIRE (R473). -/
def execPauseExpire (p : PortId) (prio : Fin 8) (s : State) : Host.Outcome State Fault Refusal :=
  let k := s.port p.val
  match mget? k.pauses prio.val with
  | none => .next s
  | some t =>
    .next (flushPrio ((s.reach t).setPort p.val { k with pauses := merase k.pauses prio.val, heldBy := merase k.heldBy prio.val }) p.val prio.val)

/-- PFC_WATCHDOG: a priority held for WD_MS without a break (R474). -/
def execPfcWatchdog (p : PortId) (prio : Fin 8) (s : State) : Host.Outcome State Fault Refusal :=
  let k := s.port p.val
  match mget? k.heldBy prio.val, mget? k.pauses prio.val with
  | some since, some t =>
    let due := since + wdCyc s p.val
    if max s.now due ≤ t then
      let n := (mgetD k.txq prio.val []).length
      let k1 : Port := { k with txq := merase k.txq prio.val, pauses := merase k.pauses prio.val, heldBy := merase k.heldBy prio.val
                                ignored := mset k.ignored prio.val (max s.now due) }
      .next ((wFlag (portErr ((s.reach due).setPort p.val k1) p.val 6 0 n) (pReg p.val 4) 8#32).record ⟨.watchdog, p.val, [prio.val]⟩)
    else .next s
  | _, _ => .next s

/-- PFC_WD_RELEASE: no pause for WD_MS after the watchdog acted (R474). -/
def execPfcWdRelease (p : PortId) (prio : Fin 8) (s : State) : Host.Outcome State Fault Refusal :=
  let k := s.port p.val
  match mget? k.ignored prio.val with
  | none => .next s
  | some t => .next ((s.reach (t + wdCyc s p.val)).setPort p.val { k with ignored := merase k.ignored prio.val })

/-- The counters whose growth R488 watches, by 2 * counter + half. -/
def watchedCounters : List Nat := [0, 2, 4, 6, 8, 12, 14, 18, 20, 22, 27, 28, 30, 31]

/-- COUNTER_RATE_CHECK (R488, R612). -/
def execCounterRateCheck (p : PortId) (s : State) : Host.Outcome State Fault Refusal :=
  let k := s.port p.val
  let s1 := s.reach (k.since + 1000 * msCyc)
  let s2 := s1.setPort p.val { k with grown := [], since := s1.now }
  let fast := watchedCounters.any fun c => decide (10000 < mgetD k.grown c 0)
  let s3 := if fast then addPatina ((wFlag s2 (pReg p.val 4) 0x10#32).record ⟨.portRate, p.val, []⟩) (portUnit p.val) 200 else s2
  .next (if 100 < mgetD k.grown 30 0 then portTrain s3 p.val else s3)

end Sys2Proof.Machine
end

