-- ==== Sys2Proof/Machine/Sideband.lean ====
section
/-! DEFINITION. The I3C sideband, the removal path, RST_N (R736 to R752). -/

namespace Sys2Proof.Machine

/-! ### The registers (R738, R741) -/

def sbReg (s : State) (off : Nat) : Word := regRaw sidebandRegs s.mod.sbd off
def sbSet (s : State) (off : Nat) (w : Word) : State := { s with mod := { s.mod with sbd := mset s.mod.sbd off w } }

/-- The hottest region and the hottest stack (R741). -/
def thermWord (s : State) : Word :=
  BitVec.ofNat 32 (packFields [(8, maxOf ((List.range 48).map fun p => fld (wReg s (rg p 0x30)) 7 0)),
    (8, maxOf ((List.range 56).map fun st => fld (kReg (s.stack st) 0x28) 7 0))])

/-- The stored or live bits of a sideband register. -/
def sbBits (s : State) (off : Nat) : Word :=
  if off = 0 then setFld (setFld (setFld (sbReg s 0) 16 16 (bnat s.mod.grade)) 19 17 (lifeCycle s.mod)) 21 20 s.mod.slot
  else if off = 4 then setFld (setFld (sbReg s 4) 3 3 (bnat s.mod.mated)) 4 4 (bnat s.mod.rstLow)
  else if off = 0x18 then thermWord s
  else sbReg s off

/-- A read of a sideband offset (R20, R738, R741). -/
def sbRead (s : State) (off : Nat) : Word × State :=
  let free := Config.freeWord s.free
  let copy (o : Nat) : Word × State := (match regFind windowRegs o with
    | some r => regReadVal r (winBits s o) free
    | none => 0#32, s.takeFree 1)
  if 0x100 ≤ off ∧ off ≤ 0x110 then copy (0x30000 + off - 0x100)
  else if 0x200 ≤ off ∧ off < 0x2C0 ∧ off % 4 = 0 then copy (rg ((off - 0x200) / 4) 0x30)
  else match regFind sidebandRegs off with
    | none => (0#32, s)
    | some r =>
      (regReadVal r (sbBits s off) free, (if r.rc = 0#32 then s else sbSet s off (regAfterRead r (sbReg s off))).takeFree 1)

/-- Alerts that drive ALERT_N, and whether it is low (R740). -/
def alertsOn (s : State) : Word := sbReg s 8 &&& sbReg s 0xC
def alertLow (s : State) : Bool := alertsOn s != 0#32

/-! ### The removal path (R745 to R747) -/

/-- Every port fenced by the management block. -/
def fencePorts (s : State) : State := (List.range 8).foldl portFence s

/-- The removal path from its start to SAFE. -/
def removalPath (s : State) : State :=
  if !s.mod.enabled ∨ sbdLeaves s then s
  else
    let s1 := setSbdState (sbdFlag s 0x80#32) 2
    setSbdState (fencePorts (quenchAll s1 quRemoval)) 3

/-- SHUTDOWN (R745). -/
def execShutdown (s : State) : Host.Outcome State Fault Refusal := .next (removalPath s)

/-- REMOVAL: MATE_SENSE has read open for 5 us (R745). -/
def execRemoval (s : State) : Host.Outcome State Fault Refusal :=
  .next (removalPath { s with mod := { s.mod with mated := false } })

/-- MATE_SENSE_BOUNCE (R745). -/
def execMateSenseBounce (s : State) : Host.Outcome State Fault Refusal :=
  .next (if s.mod.enabled then { s with mod := { s.mod with sbd := regCount sidebandRegs s.mod.sbd 4 31 16 1 } } else s)

/-! ### Writes -/

/-- A write of `sbd.budget` (R649, R741). -/
def budgetWrite (s : State) (val : Word) : State := wFld (sbSet s 0x14 (val &&& 0xFFFF#32)) 0x30008 15 0 (clampBudget s (fld val 15 0))

/-- A word written over the sideband (R738, R741, R745); with no alert left that drives ALERT_N, no IBI is repeated (R740). -/
def sbWrite (s : State) (off : Nat) (val : Word) : State :=
  if off = 0x10 then (if bit val 0 then removalPath s else s)
  else if off = 0x14 then budgetWrite s val
  else match regFind sidebandRegs off with
    | none => s
    | some r =>
      let s1 := sbSet s off (regAfterWrite r (sbReg s off) val)
      if alertLow s1 then s1 else { s1 with mod := { s1.mod with ibiAt := none } }

/-- BUDGET_WRITE. -/
def execBudgetWrite (val : Word) (s : State) : Host.Outcome State Fault Refusal :=
  .next (if s.mod.enabled then budgetWrite s val else s)

/-! ### The target (R736, R737, R739) -/

/-- Whether the module answers what is sent to its dynamic address. -/
def targeted (s : State) : Bool := s.mod.enabled && s.mod.i3cAddr.isSome

/-- A common command that reads a value. -/
def getCommon (s : State) (ws : List Word) : State := if targeted s then s.answer 0 ws else s

/-- The provisioned ID: bits [47:32] and [31:0] (R736). -/
def pidWords (s : State) : List Word := [BitVec.ofNat 32 (2 * (Config.mipiId % 2 ^ 15)), BitVec.ofNat 32 s.mod.serial]

/-- HOT_JOIN (R739): within 20 ms of the rise of EN. -/
def execHotJoin (s : State) : Host.Outcome State Fault Refusal :=
  .next (if s.mod.enabled ∧ s.mod.hotJoin then ({ s with mod := { s.mod with hotJoin := false } }).answer 0 [2#32] else s)

/-- ENEC: bit 0 interrupts, bit 3 Hot-Join (PRESUMED, log entry 22). -/
def execEnec (events : BitVec 8) (s : State) : Host.Outcome State Fault Refusal :=
  if !s.mod.enabled then .next s
  else .next { s with mod := { s.mod with ibi := s.mod.ibi || events.getLsbD 0, hotJoin := s.mod.hotJoin || (events.getLsbD 3 && s.mod.i3cAddr.isNone) } }

/-- DISEC. -/
def execDisec (events : BitVec 8) (s : State) : Host.Outcome State Fault Refusal :=
  if !s.mod.enabled then .next s
  else .next { s with mod := { s.mod with ibi := s.mod.ibi && !events.getLsbD 0, hotJoin := s.mod.hotJoin && !events.getLsbD 3 } }

/-- RSTDAA: the dynamic address is lost. -/
def execRstdaa (s : State) : Host.Outcome State Fault Refusal :=
  .next (if s.mod.enabled then { s with mod := { s.mod with i3cAddr := none } } else s)

/-- A dynamic address taken by a target that has none. -/
def takeAddr (s : State) (addr : BitVec 7) : State :=
  { s with mod := { s.mod with i3cAddr := some addr.toNat, hotJoin := false } }

/-- ENTDAA: the target sends its ID, BCR and DCR and takes the address. -/
def execEntdaa (addr : BitVec 7) (s : State) : Host.Outcome State Fault Refusal :=
  .next (if s.mod.enabled ∧ s.mod.i3cAddr.isNone then (takeAddr s addr).answer 0 (pidWords s ++ [6#32, 0#32]) else s)

/-- SETDASA: to the static address 0x58 + SLOT. -/
def execSetdasa (static addr : BitVec 7) (s : State) : Host.Outcome State Fault Refusal :=
  .next (if s.mod.enabled ∧ s.mod.i3cAddr.isNone ∧ static.toNat = 0x58 + s.mod.slot then takeAddr s addr else s)

/-- GETPID. -/
def execGetpid (s : State) : Host.Outcome State Fault Refusal := .next (getCommon s (pidWords s))

/-- GETBCR. -/
def execGetbcr (s : State) : Host.Outcome State Fault Refusal := .next (getCommon s [6#32])

/-- GETDCR. -/
def execGetdcr (s : State) : Host.Outcome State Fault Refusal := .next (getCommon s [0#32])

/-- GETSTATUS: the spec gives no value (DESIGN CHOICE, log entry 7). -/
def execGetstatus (s : State) : Host.Outcome State Fault Refusal :=
  .next (if targeted s then getCommon (s.takeFree 1) [Config.freeWord s.free &&& 0xFFFF#32] else s)

/-- GETMWL. -/
def execGetmwl (s : State) : Host.Outcome State Fault Refusal := .next (getCommon s [256#32])

/-- GETMRL. -/
def execGetmrl (s : State) : Host.Outcome State Fault Refusal := .next (getCommon s [256#32])

/-- Words written from an offset on, in ascending order (R738). -/
def sbWrites (s : State) (off : Nat) : List Word → State
  | [] => s
  | w :: t => sbWrites (sbWrite s off w) (off + 4) t

/-- I3C_PRIVATE_WRITE: an offset, then up to 63 words (R737, R738). -/
def execI3cPrivateWrite (off : BitVec 16) (vals : List Word) (s : State) : Host.Outcome State Fault Refusal :=
  if !targeted s then .next s
  else .next (sbWrites { s with mod := { s.mod with i3cOff := off.toNat } } off.toNat (vals.take 63))

/-- Words read in turn (R738). -/
def sbReads (s : State) (off : Nat) : Nat → List Word × State
  | 0 => ([], s)
  | n + 1 =>
    let x := sbRead s off
    let y := sbReads x.2 ((off + 4) % 65536) n
    (x.1 :: y.1, y.2)

/-- I3C_PRIVATE_READ: up to 64 words (R737, R738). -/
def execI3cPrivateRead (n : Nat) (s : State) : Host.Outcome State Fault Refusal :=
  if !targeted s then .next s
  else
    let m := min 64 n
    let x := sbReads s s.mod.i3cOff m
    .next (({ x.2 with mod := { x.2.mod with i3cOff := (s.mod.i3cOff + 4 * m) % 65536 } }).answer 0 x.1)

/-! ### IBIs (R740) -/

/-- The lowest alert that drives ALERT_N. -/
def lowestAlert (s : State) : Nat := ((List.range 9).find? fun i => bit (alertsOn s) i).getD 0

/-- An IBI goes out with the number of the lowest alert; one that is not acknowledged is due again 1 ms later. -/
def sendIbi (s : State) (ack : Bool) : State :=
  if !targeted s ∨ !s.mod.ibi ∨ !alertLow s then { s with mod := { s.mod with ibiAt := none } }
  else ({ s with mod := { s.mod with ibiAt := if ack then none else some (s.now + msCyc) } }).answer 0 [BitVec.ofNat 32 (lowestAlert s)]

/-- IBI: on the rise of an alert. -/
def execIbi (ack : Bool) (s : State) : Host.Outcome State Fault Refusal :=
  match s.mod.ibiAt with
  | some t => .next (if t ≤ s.now then sendIbi s ack else s)
  | none => .next s

/-- IBI_REPEAT: 1 ms after one that was not acknowledged. -/
def execIbiRepeat (ack : Bool) (s : State) : Host.Outcome State Fault Refusal :=
  match s.mod.ibiAt with
  | some t => .next (sendIbi (s.reach t) ack)
  | none => .next s

/-! ### RST_N (R750 to R752) -/

/-- RST_ASSERT: low for 1 us; it resets the device in BRINGUP and READY. -/
def execRstAssert (s : State) : Host.Outcome State Fault Refusal :=
  if !s.mod.enabled ∨ s.mod.rstLow then .next s
  else
    let s1 := if sbdState s ≤ 1 then deviceReset s else s
    .next { s1 with mod := { s1.mod with rstLow := true } }

/-- RST_RELEASE: the bring-up engine goes on by itself where R684 lets it. -/
def execRstRelease (s : State) : Host.Outcome State Fault Refusal :=
  if !s.mod.rstLow then .next s
  else .next (autoStart { s with mod := { s.mod with rstLow := false } })

end Sys2Proof.Machine
end

