-- ==== Sys2Proof/Machine/Regs.lean ====
section
/-! DEFINITION. Accesses to registers of any space that have no row of their own (R16 to R21, R380, R678, R755). -/

namespace Sys2Proof.Machine

/-- Answers to an access: done, refused, outside every block. -/
def accOk : Nat := 0
def accRefused : Nat := 1
def accRange : Nat := 2

/-- Accesses that are not refused: 32 bits wide and aligned (R16). -/
def accessOk (off size : Nat) : Bool := size == 4 && off % 4 == 0

/-- Whether an offset lies in a block of its space (R678). -/
def inSpace (tgt : RegTarget) (off : Nat) : Bool :=
  match tgt with
  | .window => inWindow off
  | _ => true

/-- A read of a register: the word, and the state afterwards. -/
def regRead (s : State) (tgt : RegTarget) (off : Nat) : Word × State :=
  match tgt with
  | .core c => (let x := coreRead (s.coreNow c.val) s.free s.now off; (x.1, (s.setCore c.val x.2).takeFree 1))
  | .router r => (let x := routerRead (s.router r.val) s.free r.val off; (x.1, (s.setRouter r.val x.2).takeFree 1))
  | .stack k => (let x := stackRead (s.stack k.val) s.free k.val off; (x.1, (s.setStack k.val x.2).takeFree 1))
  | .window => winRead s off
  | .sideband => sbRead s off

/-- A write of a register, with what it starts. -/
def regWrite (s : State) (tgt : RegTarget) (off : Nat) (val : Word) : State :=
  match tgt with
  | .core c => coreWrite s c.val off val false
  | .router r => routerWrite s r.val off val
  | .stack k => stackWrite s k.val off val
  | .window => winWrite s off val
  | .sideband => sbWrite s off val

/-- Bits of a register set by the hardware: those of the fields that `pick` names. -/
def regHard (s : State) (tgt : RegTarget) (off : Nat) (pick : RegDef → Word) (ev : Word) : State :=
  let m (tbl : List RegDef) : Word := match regFind tbl off with
    | some r => ev &&& pick r
    | none => 0#32
  let put (tbl : List RegDef) (l : Map Word) : Map Word := if m tbl = 0#32 then l else regSetBits tbl l off (m tbl)
  match tgt with
  | .core c => (let k := s.core c.val; s.setCore c.val { k with regs := put coreRegs k.regs })
  | .router r => (let k := s.router r.val; s.setRouter r.val { k with regs := put routerRegs k.regs })
  | .stack t => (let k := s.stack t.val; s.setStack t.val { k with regs := put stackRegs k.regs })
  | .window => { s with win := put windowRegs s.win }
  | .sideband => { s with mod := { s.mod with sbd := put sidebandRegs s.mod.sbd } }

/-- An access judged, then done. -/
def access (s : State) (tgt : RegTarget) (off size : Nat) (body : State) : State :=
  if !accessOk off size then s.answer accRefused [] else if !inSpace tgt off then s.answer accRange [] else body

/-- REGISTER_WRITE; `hw` holds the bits that the hardware sets in the cycle of the write: W1C bits among them stay set (R17, R19). -/
def execRegisterWrite (tgt : RegTarget) (off size : Nat) (val hw : Word) (s : State) : Host.Outcome State Fault Refusal :=
  .next (access s tgt off size ((regHard (regWrite s tgt off val) tgt off RegDef.w1c hw).answer accOk []))

/-- RC_READ; `ev` holds the bits that the hardware sets in the cycle of the read: the field holds them afterwards (R20). -/
def execRcRead (tgt : RegTarget) (off size : Nat) (ev : Word) (s : State) : Host.Outcome State Fault Refusal :=
  .next (access s tgt off size (let x := regRead s tgt off; (regHard x.2 tgt off RegDef.rc ev).answer accOk [x.1]))

/-- WIDE_READ_LATCH: a read of a word of a 64-bit quantity (R21). -/
def execWideReadLatch (tgt : RegTarget) (off size : Nat) (s : State) : Host.Outcome State Fault Refusal :=
  .next (access s tgt off size (let x := regRead s tgt off; x.2.answer accOk [x.1]))

end Sys2Proof.Machine
end

