-- ==== Sys2Proof/Machine/Roce.lean ====
section
/-! DEFINITION. The commands of RoCEv2 (R475 to R483). -/

namespace Sys2Proof.Machine

/-- ROCE_PACKET (R479). -/
def execRocePacket (p : PortId) (k : RocePkt) (s : State) : Host.Outcome State Fault Refusal := .next (rocePacket s p.val k)

/-- CNP_RECEIVE (R476). -/
def execCnpReceive (q : BitVec 16) (s : State) : Host.Outcome State Fault Refusal :=
  match s.qp q.toNat with
  | none => .next s
  | some k => if k.err then .next s else .next (portErr (s.setQp q.toNat (cutRate k s.now)) k.port 13 0 1)

/-- RATE_RECOVERY: 55 us without a notification (R476). -/
def execRateRecovery (q : BitVec 16) (s : State) : Host.Outcome State Fault Refusal :=
  match s.qp q.toNat with
  | none => .next s
  | some k => if k.err then .next s else .next ((s.reach k.rateDue).setQp q.toNat (raiseRate s k))

/-- ACK_TIMEOUT: 4.096 us * 2^TIMEOUT without an acknowledgement (R481). -/
def execAckTimeout (q : BitVec 16) (s : State) : Host.Outcome State Fault Refusal :=
  match s.qp q.toNat with
  | none => .next s
  | some k =>
    if k.err ∨ k.una.isEmpty then .next s
    else .next (retryQp (s.reach (k.sentAt + (65536 * 2 ^ k.timeout + 9) / 10)) q.toNat 0xFF)

/-- RNR_TIMER_EXPIRE: the packets leave again (R481). -/
def execRnrTimerExpire (q : BitVec 16) (s : State) : Host.Outcome State Fault Refusal :=
  match s.qp q.toNat with
  | none => .next s
  | some k =>
    match k.rnrAt with
    | none => .next s
    | some t => if k.err then .next s else .next (resendAll (s.reach t) q.toNat k)

end Sys2Proof.Machine
end

