-- ==== Sys2Proof/Machine/Scalar.lean ====
section
/-! DEFINITION. The scalar control unit (R245 to R257, R760 to R762). -/

namespace Sys2Proof.Machine

/-- The flags of `ctl.status` (R291). -/
def sBadOp : Word := 1#32
def sBadAddr : Word := 2#32
def sLoop : Word := 4#32
def sDone : Word := 16#32

/-- The scalar field of a bundle issued: the bundle ends with it. A reserved PRED and PNEG or a bad field is discarded with
BAD_OP, then a bad address with BAD_ADDR (R250, R252, R760); otherwise the operation acts. -/
def issueScalar (s : State) (i : Issue) (bad : Bool) (addrBad : Core → Nat → Bool) (eff : State → Core → Nat → Bool → State) : State :=
  let c := s.core i.core.val
  if c.idle then s
  else
    let o := openField c s.now false
    let s1 := s.reach o.1
    if o.2.idle then s1.setCore i.core.val o.2
    else if predReserved i || bad then s1.setCore i.core.val (goOn (scalarDiscard o.2 sBadOp) o.1 (o.1 + 1))
    else if addrBad o.2 o.1 then s1.setCore i.core.val (goOn (scalarDiscard o.2 sBadAddr) o.1 (o.1 + 1))
    else eff s1 o.2 o.1 (enabledAt o.2 i o.1)

def noAddr : Core → Nat → Bool := fun _ _ => false

/-- A result of the scalar unit, readable from the next cycle, where the bundle is enabled (R247, R251). -/
def scalarWrite (i : Issue) (reg : Nat) (s : State) (c : Core) (t : Nat) (en : Bool) (v : PWord) : State :=
  s.setCore i.core.val (goOn (if en then gprResult c reg (t + 1) v else c) t (t + 1))

/-- A register-form operation: DST = f SA SB (R248, R249, R251). -/
def issueReg (s : State) (i : Issue) (f : RegForm) (g : Word → Word → Word) : State :=
  issueScalar s i (f.rsv != 0#11) noAddr fun s1 c t en =>
    let a := gprAt c f.sa.toNat t
    let b := gprAt c f.sb.toNat t
    scalarWrite i f.dst.toNat s1 c t en ⟨g a.val b.val, a.bad || b.bad⟩

/-- An immediate-form operation: DST = f SA sext(IMM) (R248, R249, R251). -/
def issueImm (s : State) (i : Issue) (f : ImmForm) (g : Word → Word → Word) : State :=
  issueScalar s i false noAddr fun s1 c t en =>
    let a := gprAt c f.sa.toNat t
    scalarWrite i f.dst.toNat s1 c t en ⟨g a.val (immWord f), a.bad⟩

/-- `snop`: none (R249, R250). -/
def execSnop (i : Issue) (rsv : BitVec 23) (s : State) : Host.Outcome State Fault Refusal :=
  .next (issueScalar s i (rsv != 0#23) noAddr fun s1 c t _ => s1.setCore i.core.val (goOn c t (t + 1)))

/-- `add` (R249). -/
def execAdd (i : Issue) (f : RegForm) (s : State) : Host.Outcome State Fault Refusal := .next (issueReg s i f (· + ·))
/-- `sub` (R249). -/
def execSub (i : Issue) (f : RegForm) (s : State) : Host.Outcome State Fault Refusal := .next (issueReg s i f (· - ·))
/-- `and` (R249). -/
def execAnd (i : Issue) (f : RegForm) (s : State) : Host.Outcome State Fault Refusal := .next (issueReg s i f (· &&& ·))
/-- `or` (R249). -/
def execOr (i : Issue) (f : RegForm) (s : State) : Host.Outcome State Fault Refusal := .next (issueReg s i f (· ||| ·))
/-- `xor` (R249). -/
def execXor (i : Issue) (f : RegForm) (s : State) : Host.Outcome State Fault Refusal := .next (issueReg s i f (· ^^^ ·))
/-- `shl`: by bits [4:0] of SB (R249). -/
def execShl (i : Issue) (f : RegForm) (s : State) : Host.Outcome State Fault Refusal :=
  .next (issueReg s i f fun a b => a <<< (b.toNat % 32))
/-- `shr` (R249). -/
def execShr (i : Issue) (f : RegForm) (s : State) : Host.Outcome State Fault Refusal :=
  .next (issueReg s i f fun a b => a >>> (b.toNat % 32))
/-- `sra`: fills with the sign (R249). -/
def execSra (i : Issue) (f : RegForm) (s : State) : Host.Outcome State Fault Refusal :=
  .next (issueReg s i f fun a b => a.sshiftRight (b.toNat % 32))
/-- `mul`: the low 32 bits (R249). -/
def execMul (i : Issue) (f : RegForm) (s : State) : Host.Outcome State Fault Refusal := .next (issueReg s i f (· * ·))
/-- `slt`, signed (R249). -/
def execSlt (i : Issue) (f : RegForm) (s : State) : Host.Outcome State Fault Refusal :=
  .next (issueReg s i f fun a b => if a.slt b then 1#32 else 0#32)
/-- `sltu`, unsigned (R249). -/
def execSltu (i : Issue) (f : RegForm) (s : State) : Host.Outcome State Fault Refusal :=
  .next (issueReg s i f fun a b => if a.ult b then 1#32 else 0#32)

/-- `addi` (R249). -/
def execAddi (i : Issue) (f : ImmForm) (s : State) : Host.Outcome State Fault Refusal := .next (issueImm s i f (· + ·))
/-- `andi` (R249). -/
def execAndi (i : Issue) (f : ImmForm) (s : State) : Host.Outcome State Fault Refusal := .next (issueImm s i f (· &&& ·))
/-- `ori` (R249). -/
def execOri (i : Issue) (f : ImmForm) (s : State) : Host.Outcome State Fault Refusal := .next (issueImm s i f (· ||| ·))
/-- `xori` (R249). -/
def execXori (i : Issue) (f : ImmForm) (s : State) : Host.Outcome State Fault Refusal := .next (issueImm s i f (· ^^^ ·))
/-- `shli`: by IMM [4:0] (R249). -/
def execShli (i : Issue) (f : ImmForm) (s : State) : Host.Outcome State Fault Refusal :=
  .next (issueImm s i f fun a b => a <<< (b.toNat % 32))
/-- `shri` (R249). -/
def execShri (i : Issue) (f : ImmForm) (s : State) : Host.Outcome State Fault Refusal :=
  .next (issueImm s i f fun a b => a >>> (b.toNat % 32))
/-- `srai` (R249). -/
def execSrai (i : Issue) (f : ImmForm) (s : State) : Host.Outcome State Fault Refusal :=
  .next (issueImm s i f fun a b => a.sshiftRight (b.toNat % 32))

/-- `movl`: IMM16, zero-extended (R249). -/
def execMovl (i : Issue) (f : WideForm) (s : State) : Host.Outcome State Fault Refusal :=
  .next (issueScalar s i (f.rsv != 0#3) noAddr fun s1 c t en =>
    scalarWrite i f.dst.toNat s1 c t en ⟨f.imm.setWidth 32, false⟩)

/-- `movh`: DST [31:16] = IMM16, DST [15:0] unchanged (R249). -/
def execMovh (i : Issue) (f : WideForm) (s : State) : Host.Outcome State Fault Refusal :=
  .next (issueScalar s i (f.rsv != 0#3) noAddr fun s1 c t en =>
    let old := gprAt c f.dst.toNat t
    scalarWrite i f.dst.toNat s1 c t en ⟨(old.val &&& 0xFFFF#32) ||| (f.imm.setWidth 32 <<< 16), old.bad⟩)

/-- COND of `pcmp`: EQ, NE, LT, GE, signed (R249). -/
def pcmpCond (cond : Nat) (a b : Word) : Bool :=
  match cond with
  | 0 => a == b
  | 1 => a != b
  | 2 => a.slt b
  | _ => !(a.slt b)

/-- `pcmp`: predicate DST [10:9] = SA COND SB, COND in DST [12:11]; predicate 0 is a bad operation (R249, R250). -/
def execPcmp (i : Issue) (f : RegForm) (s : State) : Host.Outcome State Fault Refusal :=
  .next (issueScalar s i (f.rsv != 0#11 || f.dst.toNat % 4 == 0) noAddr fun s1 c t en =>
    let a := gprAt c f.sa.toNat t
    let b := gprAt c f.sb.toNat t
    scalarWrite i (16 + f.dst.toNat % 4) s1 c t en
      ⟨if pcmpCond (f.dst.toNat / 4) a.val b.val then 1#32 else 0#32, a.bad || b.bad⟩)

/-! ### Memory and registers -/

/-- SA + sext(IMM) as a bundle issued in cycle t reads it. -/
def scalarAddr (c : Core) (f : ImmForm) (t : Nat) : Nat := ((gprAt c f.sa.toNat t).val + immWord f).toNat

/-- What R252 refuses for a load or store: an address not aligned or beyond the scratchpad, or a bundle at offset 0x70 of
its row. -/
def memRefused (f : ImmForm) (c : Core) (t : Nat) : Bool :=
  let a := scalarAddr c f t
  a % 4 != 0 || decide (spadEnd ≤ a) || c.pc % 128 == 0x70

/-- What R252 refuses for a register access. -/
def regRefused (f : ImmForm) (c : Core) (t : Nat) : Bool :=
  let a := scalarAddr c f t
  a % 4 != 0 || decide (0x4000 ≤ a)

/-- `ld`: port cycle t + 1, readable from t + 1 + L (R249, R251, R252). -/
def execLd (i : Issue) (f : ImmForm) (s : State) : Host.Outcome State Fault Refusal :=
  .next (issueScalar s i false (memRefused f) fun s1 c t en =>
    if en then
      let a := scalarAddr c f t
      let c1 := noteReads c 7 (t + 1) [(a, t + 1)]
      s1.setCore i.core.val (goOn (gprResult c1 f.dst.toNat (t + 1 + latency c) (spadWord c.spad (t + 1) a)) t (t + 1))
    else s1.setCore i.core.val (goOn c t (t + 1)))

/-- `st`: port cycle t + 1, commits at the end of t + L (R249, R251, R252). -/
def execSt (i : Issue) (f : ImmForm) (s : State) : Host.Outcome State Fault Refusal :=
  .next (issueScalar s i false (memRefused f) fun s1 c t en =>
    if en then
      let a := scalarAddr c f t
      let v := gprAt c f.dst.toNat t
      let wr : SpadWrite := { plainWrite (t + latency c) 7 a (bytesOfWord v.val) false with bad := if v.bad then [a / 4] else [] }
      s1.setCore i.core.val (goOn { c with spad := spadPush c.spad wr } t (t + 1))
    else s1.setCore i.core.val (goOn c t (t + 1)))

/-- LD_RESULT: the earliest scalar result on its way arrives (R251). -/
def execLdResult (c : CoreId) (s : State) : Host.Outcome State Fault Refusal :=
  .next (reachDue s c ((s.core c.val).pend.map fun p => p.due))

/-- `rdr`: the register is read in cycle t + 1, the result readable from t + 2 (R249, R251, R252). -/
def execRdr (i : Issue) (f : ImmForm) (s : State) : Host.Outcome State Fault Refusal :=
  .next (issueScalar s i false (regRefused f) fun s1 c t en =>
    let c1 := goOn c t (t + 1)
    if en then
      let r := coreRead (settleCore c1 (t + 1)) s1.free (t + 1) (scalarAddr c f t)
      (s1.takeFree 16).setCore i.core.val (gprResult r.2 f.dst.toNat (t + 2) ⟨r.1, false⟩)
    else s1.setCore i.core.val c1)

/-- `wrr`: the register changes at the end of cycle t (R249, R251, R252). -/
def execWrr (i : Issue) (f : ImmForm) (s : State) : Host.Outcome State Fault Refusal :=
  .next (issueScalar s i false (regRefused f) fun s1 c t en =>
    let s2 := s1.setCore i.core.val (goOn c t (t + 1))
    if en then coreWrite s2 i.core.val (scalarAddr c f t) (gprAt c f.dst.toNat t).val false else s2)

/-! ### Control transfers -/

/-- The loop levels that stay when control goes to an address: a level that does not hold it goes, with every level inside
it (R255). -/
def jumpLoops (ls : List LoopLevel) (pc : Nat) : List LoopLevel :=
  (ls.reverse.takeWhile fun l => decide (l.first ≤ pc ∧ pc ≤ l.last)).reverse

/-- A jump issued in cycle t, taken or not: the next bundle issues in t + L + 2, its rows fetched from t + 1 on (R253, R255,
R257, R762). -/
def jumpFrom (c : Core) (t : Nat) (taken : Bool) (target : Nat) (badTarget : Bool) : Core :=
  let next := t + latency c + 2
  if taken then
    let c1 : Core := { c with loops := jumpLoops c.loops target }
    goTo (fetchThree c1 target (t + 1)) target next badTarget
  else
    let n := seqNext c.pc c.loops
    goTo (fetchThree { c with loops := n.2.1 } n.1 (t + 1)) n.1 next false

/-- The target of a `jmp` or `call` (R249, R257). -/
def relTarget (c : Core) (f : ImmForm) : Nat := (c.pc + 16 * (immWord f).toNat) % 2 ^ 22

/-- `jmp` (R249, R253). -/
def execJmp (i : Issue) (f : ImmForm) (s : State) : Host.Outcome State Fault Refusal :=
  .next (issueScalar s i false noAddr fun s1 c t en => s1.setCore i.core.val (jumpFrom c t en (relTarget c f) false))

/-- `call`: g15 = PC + 16, then as `jmp` (R249, R253). -/
def execCall (i : Issue) (f : ImmForm) (s : State) : Host.Outcome State Fault Refusal :=
  .next (issueScalar s i false noAddr fun s1 c t en =>
    let c1 := if en then gprResult c 15 (t + 1) ⟨BitVec.ofNat 32 (c.pc + 16), false⟩ else c
    s1.setCore i.core.val (jumpFrom c1 t en (relTarget c f) false))

/-- `jr`: PC = SA; a target not aligned to 16 bytes or beyond the scratchpad faults (R249, R253, R257). -/
def execJr (i : Issue) (f : RegForm) (s : State) : Host.Outcome State Fault Refusal :=
  .next (issueScalar s i (f.rsv != 0#11) noAddr fun s1 c t en =>
    let a := (gprAt c f.sa.toNat t).val.toNat
    s1.setCore i.core.val (jumpFrom c t en a (decide (a % 16 ≠ 0 ∨ spadEnd ≤ a))))

/-- Why a `loop` is discarded: IMM out of range, a fifth level, or a body that ends beyond the enclosing one (R255). -/
def loopRefused (c : Core) (n : Nat) : Bool :=
  n == 0 || decide (16383 < n) || decide (4 ≤ c.loops.length) ||
  match c.loops with
  | [] => false
  | l :: _ => decide (l.last < c.pc + 16 * n)

/-- `loop`: acts as if enabled (R247, R254, R255). -/
def execLoop (i : Issue) (f : ImmForm) (s : State) : Host.Outcome State Fault Refusal :=
  .next (issueScalar s i false noAddr fun s1 c t _ =>
    let n := f.imm.toNat
    if loopRefused c n then s1.setCore i.core.val (goOn (scalarDiscard c sLoop) t (t + 1))
    else
      let count := (gprAt c f.sa.toNat t).val.toNat
      if count = 0 then
        let nx := seqNext (c.pc + 16 * n) c.loops
        s1.setCore i.core.val (goTo (fetchThree { c with loops := nx.2.1 } nx.1 (t + 1)) nx.1 (t + latency c + 2) false)
      else
        let l : LoopLevel := ⟨c.pc + 16, c.pc + 16 * n, count, decide (64 < n), false⟩
        s1.setCore i.core.val (goOn { c with loops := l :: c.loops } t (t + 1)))

/-- `wait`: the next bundle in cycle t + 1 + IMM; acts as if enabled (R247, R250, R256). -/
def execWait (i : Issue) (f : ImmForm) (s : State) : Host.Outcome State Fault Refusal :=
  .next (issueScalar s i (f.imm == 0#15 || decide (16383 < f.imm.toNat)) noAddr fun s1 c t _ =>
    s1.setCore i.core.val (goOn c t (t + 1 + f.imm.toNat)))

/-- `done`: issue stops until the next launch; acts as if enabled (R247, R256). -/
def execDone (i : Issue) (rsv : BitVec 23) (s : State) : Host.Outcome State Fault Refusal :=
  .next (issueScalar s i (rsv != 0#23) noAddr fun s1 c t _ =>
    s1.setCore i.core.val (cFlag { c with idle := true, pc := (c.pc + 16) % 2 ^ 22, nextIssue := t + 1, openAt := none
                                          usedM := false, usedV := false, usedX := false } rCtlStatus sDone))

end Sys2Proof.Machine
end

