-- ==== Sys2Proof/Machine/VectorIssue.lean ====
section
/-! DEFINITION. The vector field: acceptance, discards and the shared shapes of its operations (R150 to R192, R758). -/

namespace Sys2Proof.Machine

/-- The flags of `vec.status` (R198). -/
def vBusy : Word := 1#32
def vBadOp : Word := 2#32
def vBadFmt : Word := 4#32
def vBadDesc : Word := 8#32

/-- Which parts of the field an operation uses (R151 to R153): SA, SB, DST as a tile or as a mask, MSK, and the bits of
MOD, bit 0 being bundle bit 26. -/
structure VecUse where
  sa  : Bool
  sb  : Bool
  dstTile : Bool
  dstMask : Bool
  msk : Bool
  mod : BitVec 6
  deriving DecidableEq, Repr

/-- INT modifier, run length n, and the other modifiers of MOD (R151). -/
def vInt (f : VecField) : Bool := f.mod.getLsbD 0
def vBit1 (f : VecField) : Bool := f.mod.getLsbD 1
def vCond (f : VecField) : Nat := f.mod.toNat / 2 % 8
def vRun (f : VecField) : Nat := f.mod.toNat / 2 % 16 + 1
def vLow4 (f : VecField) : Nat := f.mod.toNat % 16
def vRnd (f : VecField) : Bool := f.mod.getLsbD 4
def vTop (f : VecField) : Bool := f.mod.getLsbD 5

/-- A source run of n tiles lies within the tile registers or within the accumulator tiles (R148). -/
def runOk (sa n : Nat) : Bool := decide (sa + n ≤ 32) || (decide (32 ≤ sa) && decide (sa + n ≤ 40))

/-- No reserved selector, no non-zero unused field, mask register 0 not a destination (R152). -/
def vecFieldOk (u : VecUse) (f : VecField) : Bool :=
  (if u.sa then decide (f.sa.toNat < 48) else f.sa == 0#6) &&
  (if u.sb then decide (f.sb.toNat < 48) else f.sb == 0#6) &&
  (if u.dstTile then true else if u.dstMask then decide (1 ≤ f.dst.toNat ∧ f.dst.toNat < 8) else f.dst == 0#5) &&
  (u.msk || f.msk == 0#3) && (f.mod &&& ~~~u.mod) == 0#6

/-- A vector descriptor as it stands (R198). -/
structure VecDesc where
  base    : Nat
  fmt     : Nat
  scaled  : Bool
  rstride : Nat
  sbase   : Nat
  sstride : Nat
  deriving DecidableEq, Repr

def vecDesc (c : Core) (n : Nat) : VecDesc :=
  let b := cReg c (0x1000 + 0x10 * n)
  { base := fld b 21 0, fmt := fld b 25 22, scaled := bit b 26, rstride := fld (cReg c (0x1004 + 0x10 * n)) 21 0
    sbase := fld (cReg c (0x1008 + 0x10 * n)) 21 0, sstride := fld (cReg c (0x100C + 0x10 * n)) 15 0 }

/-- R178 with the given row bytes and alignment; `scales` scale bytes of each row are read or written. -/
def vecDescOk (d : VecDesc) (f : Fmt) (rb align scales : Nat) : Bool :=
  d.base % align == 0 && d.rstride % align == 0 && decide (rb ≤ d.rstride) &&
  decide (d.base + 15 * d.rstride + rb ≤ spadEnd) &&
  (if f == .l4 then d.scaled else if isWide f then !d.scaled else true) &&
  (scales == 0 || decide (d.sbase + 15 * d.sstride + scales ≤ spadEnd))

/-- Unit u accepts an operation in cycle t (R183). -/
def unitAccepts (c : Core) (u t : Nat) : Bool := decide (mgetD c.unitFree u 0 ≤ t)

/-- What an operation reads and gives: its core as read in cycle t + 1, the issue cycle, whether it is enabled. -/
structure VecCtx where
  view : Core
  t    : Nat
  en   : Bool
  fr   : Nat

/-- The sources of an operation read in cycle t + 1 (R185). -/
def VecCtx.src (x : VecCtx) (k sel : Nat) : List PWord := sourceTile x.view (x.fr + 256 * k) (x.t + 1) sel

/-- A vector operation issued: `judge` gives the flag of its discard before the unit's acceptance is asked, `unit` and `occ`
its unit and occupancy, `run` what an accepted one does to the core (R182 to R185, R758). -/
def issueVector (s : State) (i : Issue) (judge : Core → Option Word) (unit occ : Nat) (run : VecCtx → Core → Core) :
    State :=
  let c := s.core i.core.val
  if c.idle then s
  else
    let o := openField c s.now c.usedV
    if o.2.idle then (s.reach o.1).setCore i.core.val o.2
    else
      let c1 : Core := { o.2 with usedV := true }
      let c2 := match judge c1 with
        | some flag => vectorDiscard c1 flag
        | none =>
          if unitAccepts c1 unit o.1 then
            run ⟨settleCore c1 (o.1 + 1), o.1, enabledAt c1 i o.1, s.free⟩
              { c1 with unitFree := mset c1.unitFree unit (o.1 + occ) }
          else vectorDiscard c1 vBusy
      ((s.reach o.1).takeFree 16384).setCore i.core.val c2

/-- Only the causes of R152. -/
def judgeOp (ok : Bool) : Core → Option Word := fun _ => if ok then none else some vBadOp

/-- A result put among those on their way; a bundle that is not enabled writes nothing (R247). -/
def putVec (c : Core) (en : Bool) (v : VecRes) : Core := if en then { c with vops := vecInsert c.vops v } else c

/-- An empty result of an operation issued in cycle t with a latency. -/
def resAt (t lat : Nat) : VecRes :=
  { issue := t, due := t + lat, tiles := [], status := [], tarn := false, mask := none, count := none, guards := [], flags := 0#32 }

/-- The elements of row i of a list of 256. -/
def rowOf {α : Type} (l : List α) (i : Nat) : List α := (l.drop (16 * i)).take 16

/-- The default status of the rows of a written tile (R166): `int` results set neither NAN nor INF; EMPTY where the row
has no active element. -/
def rowStatus (int : Bool) (elems : List (Option PWord)) (active : Nat → Bool) : List Nat :=
  (List.range 16).map fun i =>
    let ws := (rowOf elems i).filterMap id
    (if int then 0 else nanInf (ws.map fun p => p.val)) +
      (if ws.isEmpty || !((List.range 16).any fun j => active (16 * i + j)) then 4 else 0)

/-- The elements a guard checks: written FP32 elements in rows without EMPTY, where `keep` holds (R193). -/
def guardElems (int : Bool) (elems : List (Option PWord)) (status : List Nat) (keep : Nat → Bool) : List (Option Word) :=
  if int then []
  else (List.range 256).map fun e =>
    match elems.getD e none with
    | some p => if keep e && status.getD (e / 16) 0 / 4 % 2 == 0 then some p.val else none
    | none => none

/-- The TARNISH of an operation that reads the given sources under a mask register (R189). -/
def opTarn (c : Core) (srcs : List Nat) (msk : Nat) : Bool :=
  (srcs.any fun q => sourceTarn c q) || (msk != 0 && c.maskTarn.getLsbD msk)

/-- An elementwise operation on one tile: `g` gives the result at element e from the sources' elements. -/
def elementwise (f : VecField) (lat : Nat) (int : Bool) (three : Bool) (two : Bool)
    (g : Nat → Word → Word → Word → WF) (x : VecCtx) (c : Core) : Core :=
  let mask := maskOf x.view f.msk.toNat
  let zeros := List.replicate 256 (⟨0#32, false⟩ : PWord)
  let a := x.src 0 f.sa.toNat
  let b := if two then x.src 1 f.sb.toNat else zeros
  let d := if three then x.src 2 f.dst.toNat else zeros
  let out := (List.range 256).map fun e =>
    if mask.getLsbD e then
      let p := a.getD e ⟨0#32, false⟩; let q := b.getD e ⟨0#32, false⟩; let r := d.getD e ⟨0#32, false⟩
      let o := g e p.val q.val r.val
      (some (⟨o.1, p.bad || q.bad || r.bad⟩ : PWord), o.2)
    else (none, 0#32)
  let elems := out.map Prod.fst
  let st := rowStatus int elems (fun e => mask.getLsbD e)
  let srcs := [f.sa.toNat] ++ (if two then [f.sb.toNat] else []) ++ (if three then [f.dst.toNat] else [])
  putVec c x.en { resAt x.t lat with
    tiles := [(f.dst.toNat, elems)]
    status := [(f.dst.toNat, st)]
    tarn := opTarn x.view srcs f.msk.toNat
    guards := [(f.dst.toNat, guardElems int elems st (fun _ => true))]
    flags := out.foldl (fun w p => w ||| p.2) 0#32 }

/-- One-operand, two-operand and three-operand elementwise operations of a class (R153, R182). -/
def useUnary (mod : BitVec 6) : VecUse := ⟨true, false, true, false, true, mod⟩
def useBinary (mod : BitVec 6) : VecUse := ⟨true, true, true, false, true, mod⟩

def issueUnary (s : State) (i : Issue) (f : VecField) (mod : BitVec 6) (occ lat : Nat) (int : Bool) (g : Word → WF) : State :=
  issueVector s i (judgeOp (vecFieldOk (useUnary mod) f)) 0 occ
    (elementwise f lat int false false (fun _ a _ _ => g a))

def issueBinary (s : State) (i : Issue) (f : VecField) (mod : BitVec 6) (occ lat : Nat) (int : Bool)
    (g : Word → Word → WF) : State :=
  issueVector s i (judgeOp (vecFieldOk (useBinary mod) f)) 0 occ
    (elementwise f lat int false true (fun _ a b _ => g a b))

/-- A reduction over a run (R163, R164, R757). -/
def runReduce (f : VecField) (k : RedKind) (byRow : Bool) (x : VecCtx) (c : Core) : Core :=
  let n := vRun f
  let int := vInt f
  let mask := maskOf x.view f.msk.toNat
  let tiles := (List.range n).map fun q => x.src q (f.sa.toNat + q)
  let outs := (List.range 16).map fun r =>
    redResult k int (tiles.map fun tl => if byRow then tileRow tl mask r else tileCol tl mask r)
  let elems := (List.range 256).map fun e =>
    (outs.map fun o => o.1)[if byRow then e / 16 else e % 16]?
  let anyEmpty := outs.any fun o => o.2.2
  let st := (List.range 16).map fun i =>
    (if int then 0 else nanInf (((rowOf elems i).filterMap id).map fun p => p.val)) +
      (if byRow then (if (outs.getD i (⟨0#32, false⟩, 0#32, false)).2.2 then 4 else 0) else if anyEmpty then 4 else 0)
  putVec c x.en { resAt x.t (5 + n) with
    tiles := [(f.dst.toNat, elems)]
    status := [(f.dst.toNat, st)]
    tarn := opTarn x.view ((List.range n).map fun q => f.sa.toNat + q) f.msk.toNat
    guards := [(f.dst.toNat, guardElems int elems st (fun _ => true))]
    flags := outs.foldl (fun w o => w ||| o.2.1) 0#32 }

def issueReduce (s : State) (i : Issue) (f : VecField) (k : RedKind) (byRow : Bool) : State :=
  issueVector s i (judgeOp (vecFieldOk (useUnary 0x1F#6) f && runOk f.sa.toNat (vRun f))) 0 (vRun f) (runReduce f k byRow)

/-- A row operation over a run that writes a run (R171 to R175): the rows' outputs laid out in tiles; `stats` asks for the
tile of the statistics. -/
def runRows (f : VecField) (lat : Nat) (stats : Bool) (eps : List Nat) (row : Nat → List (Option PWord) → RowOut)
    (x : VecCtx) (c : Core) : Core :=
  let n := vRun f
  let mask := maskOf x.view f.msk.toNat
  let tiles := (List.range n).map fun q => x.src q (f.sa.toNat + q)
  let outs := (List.range 16).map fun r => row n (tiles.flatMap fun tl => tileRow tl mask r)
  let st := outs.map fun o => o.status
  let dst := f.dst.toNat
  let outTiles := (List.range n).map fun q =>
    (dst + q, (List.range 256).map fun e => ((outs.getD (e / 16) ⟨[], 0#32, 0#32, 0⟩).ys)[16 * q + e % 16]?)
  let statTile : List (Option PWord) := (List.range 256).map fun e =>
    let o := outs.getD (e / 16) ⟨[], 0#32, 0#32, 0⟩
    let bad := o.ys.any fun p => p.bad
    some (if e % 16 = 0 then ⟨o.m, bad⟩ else if e % 16 = 1 then ⟨o.s, bad⟩ else ⟨0#32, false⟩)
  let all := outTiles ++ (if stats then [(dst + n, statTile)] else [])
  putVec c x.en { resAt x.t lat with
    tiles := all
    status := all.map fun p => (p.1, st)
    tarn := opTarn x.view (((List.range n).map fun q => f.sa.toNat + q) ++ eps) f.msk.toNat
    guards := all.map fun p => (p.1, guardElems false p.2 st (fun e => if p.1 < dst + n then mask.getLsbD e else true)) }

/-- The draws of a conversion operation with RND = 1, or RNE: the mode at element e (R67, R68). -/
def drawMode (c : Core) (rnd : Bool) (extra e : Nat) : Rnd :=
  if rnd then .sr (srDraw (cReg c rSeed) (cReg c rSrctr + BitVec.ofNat 32 extra) e) else .rne

/-- The counter advanced by the conversion operations with RND = 1 (R67, R180). -/
def bumpCtr (c : Core) (rnd : Bool) (n : Nat) : Core :=
  if rnd then cSet c rSrctr (cReg c rSrctr + BitVec.ofNat 32 n) else c

/-- The discards of `vld` and `vst` by their descriptor (R178, R758). -/
def judgeTile (f : VecField) (u : VecUse) (c : Core) : Option Word :=
  if !vecFieldOk u f then some vBadOp
  else
    let d := vecDesc c (vLow4 f)
    match fmtOfCode d.fmt with
    | none => some vBadFmt
    | some .t5 => some vBadFmt
    | some g =>
      if vecDescOk d g (tileRowBytes g) (tileAlign g) (if d.scaled && u.dstTile then 1 else 0) then none else some vBadDesc

/-- The format a descriptor holds, FP32 where its code is reserved (never reached by an accepted operation). -/
def descFmt (d : VecDesc) : Fmt := (fmtOfCode d.fmt).getD .fp32

/-- Element bytes of 16 rows as writes through the vector write client, 256 bytes a cycle from port cycle `first`
(R182, R210): `rows` gives each row's address, its bytes, and whether the word at byte b of it is bad. -/
def rowWrites (lat first : Nat) (tarn : Bool) (rows : List (Nat × List Byte × (Nat → Bool))) : List SpadWrite :=
  rows.zipIdx.flatMap fun p =>
    let a := p.1.1
    let bs := p.1.2.1
    let pos := p.2 * bs.length
    let cut := 256 - pos % 256
    let mk (off : Nat) (part : List Byte) : SpadWrite :=
      { commit := first + (pos + off) / 256 + lat - 1, client := 4, addr := a + off, bytes := part
        bad := (touched 4 (a + off) part.length).filter fun w => p.1.2.2 (4 * w - a)
        tarn, clears := [] }
    if bs.length ≤ cut then [mk 0 bs] else [mk 0 (bs.take cut), mk cut (bs.drop cut)]

/-- The code and flags of one stored element (R177). -/
def storeElem (c : Core) (f : VecField) (d : VecDesc) (g : Fmt) (e : Nat) (w : Word) : Nat × Word :=
  if g = .fp32 then (w.toNat, 0#32)
  else if isInt g && !d.scaled then convElem g false (numOfInt w.toInt 0) (drawMode c (vRnd f) 0 e) (vTop f)
  else convElem g d.scaled (num32 w) (drawMode c (vRnd f) 0 e) (vTop f)

/-- `vst` of an accepted operation (R177, R182, R190). -/
def runStore (f : VecField) (x : VecCtx) (c : Core) : Core :=
  let d := vecDesc c (vLow4 f)
  let g := descFmt d
  let a := x.src 0 f.sa.toNat
  let codes := (List.range 256).map fun e => storeElem c f d g e (a.getD e ⟨0#32, false⟩).val
  let tarn := opTarn x.view [f.sa.toNat] 0
  let rows := (List.range 16).map fun i =>
    (d.base + i * d.rstride, packCodes g ((rowOf codes i).map Prod.fst),
     fun b => ((List.range 4).flatMap fun q => elemsOfByte g (b + q)).any fun k => (a.getD (16 * i + k % 16) ⟨0#32, false⟩).bad)
  let c1 := bumpCtr c (vRnd f) 1
  if x.en then
    let fl := codes.foldl (fun w p => w ||| p.2) 0#32
    { c1 with
      spad := spadPushes c1.spad (markClears (rowWrites (latency c) (x.t + 2) tarn rows))
      flagPend := if fl = 0#32 then c1.flagPend else c1.flagPend ++ [(x.t + tileCycles g + 1, fl)] }
  else c1

/-- Run length, blocks per row and row bytes of `vquant` (R179). -/
def quantShape (g : Fmt) : Option (Nat × Nat × Nat × Nat) :=
  match g with
  | .f8e4 | .f8e5 | .i8 => some (2, 1, 32, 32)
  | .f6e3 | .f6e2 => some (2, 1, 24, 32)
  | .f4e2 | .i4 => some (2, 1, 16, 16)
  | .l4 => some (4, 1, 32, 32)
  | .t5 => some (20, 5, 64, 64)
  | _ => none

def quantUse : VecUse := ⟨true, false, false, false, false, 0x1F#6⟩

/-- The discards of `vquant` (R152, R181). -/
def judgeQuant (f : VecField) (c : Core) : Option Word :=
  let d := vecDesc c (vLow4 f)
  let sh := (fmtOfCode d.fmt).bind quantShape
  if !vecFieldOk quantUse f then some vBadOp
  else
    match fmtOfCode d.fmt, sh with
    | some g, some (n, blocks, rb, al) =>
      if !runOk f.sa.toNat n then some vBadOp
      else if d.scaled && vecDescOk d g rb al blocks then none else some vBadDesc
    | _, _ => some vBadFmt

/-- Element write cycles R of a quantisation (R179). -/
def quantCycles (rb : Nat) : Nat := (16 * rb + 255) / 256

/-- `vquant` of an accepted operation (R62, R179 to R182, R190). -/
def runQuant (f : VecField) (x : VecCtx) (c : Core) : Core :=
  let d := vecDesc c (vLow4 f)
  let g := descFmt d
  match quantShape g with
  | none => c
  | some (n, blocks, rb, _) =>
    let tiles := (List.range n).map fun q => x.src q (f.sa.toNat + q)
    let len := blockLen g
    let rowsIn := (List.range 16).map fun i => tiles.flatMap fun tl => rowOf tl i
    let scales := rowsIn.map fun r => (List.range blocks).map fun b =>
      quantScale g (((r.drop (len * b)).take len).map fun p => p.val)
    let codes := (rowsIn.zip scales).zipIdx.map fun p =>
      p.1.1.zipIdx.map fun w =>
        quantElem g (p.1.2.getD (w.2 / len) 0) (drawMode c (vRnd f) (w.2 / 16) (16 * p.2 + w.2 % 16)) w.1.val
    let tarn := opTarn x.view ((List.range n).map fun q => f.sa.toNat + q) 0
    let r := quantCycles rb
    let rows := (List.range 16).map fun i =>
      (d.base + i * d.rstride, packCodes g ((codes.getD i []).map Prod.fst),
       fun b => ((List.range 4).flatMap fun q => elemsOfByte g (b + q)).any fun k =>
         ((rowsIn.getD i []).getD k ⟨0#32, false⟩).bad)
    let sw : List SpadWrite := (List.range 16).map fun i =>
      { commit := x.t + r + 6 + latency c - 1, client := 4, addr := d.sbase + i * d.sstride
        bytes := (scales.getD i []).map fun b => BitVec.ofNat 8 b
        bad := if (rowsIn.getD i []).any fun p => p.bad then touched 4 (d.sbase + i * d.sstride) blocks else []
        tarn, clears := [] }
    let c1 := bumpCtr c (vRnd f) n
    if x.en then
      let fl := codes.foldl (fun w r => r.foldl (fun w p => w ||| p.2) w) 0#32
      { c1 with
        spad := spadPushes c1.spad (markClears (rowWrites (latency c) (x.t + 6) tarn rows ++ sw))
        flagPend := if fl = 0#32 then c1.flagPend else c1.flagPend ++ [(x.t + r + 5, fl)] }
    else c1

end Sys2Proof.Machine
end

