-- ==== Sys2Proof/Machine/Vector.lean ====
section
/-! DEFINITION. The vector operations, one definition for each (R153 to R181). -/

namespace Sys2Proof.Machine

/-- `vnop`: none; a non-zero unused field is a discard (R152, R153). -/
def execVnop (i : Issue) (f : VecField) (s : State) : Host.Outcome State Fault Refusal :=
  let c := s.core i.core.val
  if c.idle then .next s
  else
    let o := openField c s.now c.usedV
    if o.2.idle then .next ((s.reach o.1).setCore i.core.val o.2)
    else
      let c1 : Core := { o.2 with usedV := true }
      .next ((s.reach o.1).setCore i.core.val (if f = ⟨0, 0, 0, 0, 0⟩ then c1 else vectorDiscard c1 vBadOp))

/-- `vmov`: SA copied word by word (R47, R153). -/
def execVmov (i : Issue) (f : VecField) (s : State) : Host.Outcome State Fault Refusal :=
  .next (issueUnary s i f 1#6 1 4 (vInt f) noFlag)

/-- `vadd`: SA + SB (R154, R156). -/
def execVadd (i : Issue) (f : VecField) (s : State) : Host.Outcome State Fault Refusal :=
  .next (issueBinary s i f 1#6 1 4 (vInt f) (fun a b => if vInt f then iadd a b else noFlag (fadd a b)))

/-- `vsub`: SA - SB (R154, R156). -/
def execVsub (i : Issue) (f : VecField) (s : State) : Host.Outcome State Fault Refusal :=
  .next (issueBinary s i f 1#6 1 4 (vInt f) (fun a b => if vInt f then isub a b else noFlag (fsub a b)))

/-- `vmul`: SA * SB (R154, R156). -/
def execVmul (i : Issue) (f : VecField) (s : State) : Host.Outcome State Fault Refusal :=
  .next (issueBinary s i f 1#6 1 4 (vInt f) (fun a b => if vInt f then imul a b else noFlag (fmul a b)))

/-- `vfma`: SA * SB + DST, one rounding (R154). -/
def execVfma (i : Issue) (f : VecField) (s : State) : Host.Outcome State Fault Refusal :=
  .next (issueVector s i (judgeOp (vecFieldOk (useBinary 0#6) f)) 0 1
    (elementwise f 4 false true true (fun _ a b c => noFlag (ffma a b c))))

/-- `vmin` (R155). -/
def execVmin (i : Issue) (f : VecField) (s : State) : Host.Outcome State Fault Refusal :=
  .next (issueBinary s i f 1#6 1 4 (vInt f) (fun a b => noFlag (if vInt f then imin a b else fmin a b)))

/-- `vmax` (R155). -/
def execVmax (i : Issue) (f : VecField) (s : State) : Host.Outcome State Fault Refusal :=
  .next (issueBinary s i f 1#6 1 4 (vInt f) (fun a b => noFlag (if vInt f then imax a b else fmax a b)))

/-- `vabs` (R47, R156). -/
def execVabs (i : Issue) (f : VecField) (s : State) : Host.Outcome State Fault Refusal :=
  .next (issueUnary s i f 1#6 1 4 (vInt f) (fun a => if vInt f then iabs a else noFlag (fabs a)))

/-- `vneg` (R47, R156). -/
def execVneg (i : Issue) (f : VecField) (s : State) : Host.Outcome State Fault Refusal :=
  .next (issueUnary s i f 1#6 1 4 (vInt f) (fun a => if vInt f then ineg a else noFlag (fneg a)))

/-- `vsel`: every element, SA where the mask is 1 and SB where it is 0 (R153). -/
def execVsel (i : Issue) (f : VecField) (s : State) : Host.Outcome State Fault Refusal :=
  .next (issueVector s i (judgeOp (vecFieldOk (useBinary 1#6) f)) 0 1 fun x c =>
    let mask := maskOf x.view f.msk.toNat
    let a := x.src 0 f.sa.toNat
    let b := x.src 1 f.sb.toNat
    let elems := (List.range 256).map fun e => if mask.getLsbD e then a[e]? else b[e]?
    let st := rowStatus (vInt f) elems (fun _ => true)
    putVec c x.en { resAt x.t 4 with
      tiles := [(f.dst.toNat, elems)]
      status := [(f.dst.toNat, st)]
      tarn := opTarn x.view [f.sa.toNat, f.sb.toNat] f.msk.toNat
      guards := [(f.dst.toNat, guardElems (vInt f) elems st (fun _ => true))] })

/-- `vcmp`: the mask DST from SA COND SB; inactive elements write 0 (R162). -/
def execVcmp (i : Issue) (f : VecField) (s : State) : Host.Outcome State Fault Refusal :=
  .next (issueVector s i (judgeOp (vecFieldOk ⟨true, true, false, true, true, 0xF#6⟩ f)) 0 1 fun x c =>
    let mask := maskOf x.view f.msk.toNat
    let a := x.src 0 f.sa.toNat
    let b := x.src 1 f.sb.toNat
    let bits := (List.range 256).foldl (fun (w : BitVec 256) e =>
      let p := (a.getD e ⟨0#32, false⟩).val
      let q := (b.getD e ⟨0#32, false⟩).val
      if mask.getLsbD e && (if vInt f then icompare (vCond f) p q else fcompare (vCond f) p q)
      then w ||| BitVec.ofNat 256 (2 ^ e) else w) 0#256
    putVec c x.en { resAt x.t 4 with
      mask := some (f.dst.toNat, bits), tarn := opTarn x.view [f.sa.toNat, f.sb.toNat] f.msk.toNat })

/-- `vand`: bitwise and (R156). -/
def execVand (i : Issue) (f : VecField) (s : State) : Host.Outcome State Fault Refusal :=
  .next (issueBinary s i f 0#6 1 4 false (fun a b => noFlag (a &&& b)))

/-- `vor`: bitwise or (R156). -/
def execVor (i : Issue) (f : VecField) (s : State) : Host.Outcome State Fault Refusal :=
  .next (issueBinary s i f 0#6 1 4 false (fun a b => noFlag (a ||| b)))

/-- `vxor`: bitwise exclusive or (R156). -/
def execVxor (i : Issue) (f : VecField) (s : State) : Host.Outcome State Fault Refusal :=
  .next (issueBinary s i f 0#6 1 4 false (fun a b => noFlag (a ^^^ b)))

/-- `vshl`: left by SB bits [4:0] (R156). -/
def execVshl (i : Issue) (f : VecField) (s : State) : Host.Outcome State Fault Refusal :=
  .next (issueBinary s i f 0#6 1 4 false (fun a b => noFlag (a <<< (b.toNat % 32))))

/-- `vshr`: right by SB bits [4:0], with sign fill when ARITH is set (R156). -/
def execVshr (i : Issue) (f : VecField) (s : State) : Host.Outcome State Fault Refusal :=
  .next (issueBinary s i f 2#6 1 4 false (fun a b =>
    noFlag (if vBit1 f then a.sshiftRight (b.toNat % 32) else a >>> (b.toNat % 32))))

/-- `vcvt`: conversion by FMT (R160, R161); RND = 1 is one conversion operation (R67). -/
def execVcvt (i : Issue) (f : VecField) (s : State) : Host.Outcome State Fault Refusal :=
  .next (issueVector s i (fun _ =>
      if !vecFieldOk (useUnary 0x3F#6) f then some vBadOp
      else if (decide (12 ≤ vLow4 f) && vLow4 f != 15) || (vRnd f && (vLow4 f == 0 || vLow4 f == 15)) then some vBadFmt
      else none) 0 1 fun x c =>
    elementwise f 4 (vLow4 f == 8 || vLow4 f == 9 || vLow4 f == 15) false false
      (fun e a _ _ => cvtElem (vLow4 f) (drawMode c (vRnd f) 0 e) (vTop f) a) x (bumpCtr c (vRnd f) 1))

/-- `vtrn`: the transpose of SA, every element (R153). -/
def execVtrn (i : Issue) (f : VecField) (s : State) : Host.Outcome State Fault Refusal :=
  .next (issueVector s i (judgeOp (vecFieldOk ⟨true, false, true, false, false, 1#6⟩ f)) 0 1 fun x c =>
    let a := x.src 0 f.sa.toNat
    let elems := (List.range 256).map fun e => a[16 * (e % 16) + e / 16]?
    let st := rowStatus (vInt f) elems (fun _ => true)
    putVec c x.en { resAt x.t 5 with
      tiles := [(f.dst.toNat, elems)]
      status := [(f.dst.toNat, st)]
      tarn := opTarn x.view [f.sa.toNat] 0
      guards := [(f.dst.toNat, guardElems (vInt f) elems st (fun _ => true))] })

/-- `vstm`: the mask DST from the row status of tile register SA (R167). -/
def execVstm (i : Issue) (f : VecField) (s : State) : Host.Outcome State Fault Refusal :=
  .next (issueVector s i (judgeOp (vecFieldOk ⟨true, false, false, true, false, 0xF#6⟩ f && decide (f.sa.toNat < 32))) 0 1 fun x c =>
    let bits := (List.range 256).foldl (fun (w : BitVec 256) e =>
      if (statusSeen x.view x.fr (x.t + 1) f.sa.toNat (e / 16)) &&& vLow4 f ≠ 0 then w ||| BitVec.ofNat 256 (2 ^ e) else w) 0#256
    putVec c x.en { resAt x.t 4 with mask := some (f.dst.toNat, bits), tarn := opTarn x.view [f.sa.toNat] 0 })

/-- `vdiv`, correctly rounded (R154). -/
def execVdiv (i : Issue) (f : VecField) (s : State) : Host.Outcome State Fault Refusal :=
  .next (issueBinary s i f 0#6 4 12 false (fun a b => noFlag (fdiv a b)))

/-- `vrcp`, correctly rounded (R157). -/
def execVrcp (i : Issue) (f : VecField) (s : State) : Host.Outcome State Fault Refusal :=
  .next (issueUnary s i f 0#6 4 12 false (fun a => noFlag (frcp a)))

/-- `vsqrt`, correctly rounded (R154). -/
def execVsqrt (i : Issue) (f : VecField) (s : State) : Host.Outcome State Fault Refusal :=
  .next (issueUnary s i f 0#6 4 12 false (fun a => noFlag (fsqrt a)))

/-- `vrsqrt`, correctly rounded (R157). -/
def execVrsqrt (i : Issue) (f : VecField) (s : State) : Host.Outcome State Fault Refusal :=
  .next (issueUnary s i f 0#6 4 12 false (fun a => noFlag (frsqrt a)))

/-- `vexp`, correctly rounded (R157). -/
def execVexp (i : Issue) (f : VecField) (s : State) : Host.Outcome State Fault Refusal :=
  .next (issueUnary s i f 0#6 4 14 false (fun a => noFlag (tfn .exp a)))

/-- `vexp2`, correctly rounded (R157). -/
def execVexp2 (i : Issue) (f : VecField) (s : State) : Host.Outcome State Fault Refusal :=
  .next (issueUnary s i f 0#6 4 14 false (fun a => noFlag (tfn .exp2 a)))

/-- `vlog`, correctly rounded (R157). -/
def execVlog (i : Issue) (f : VecField) (s : State) : Host.Outcome State Fault Refusal :=
  .next (issueUnary s i f 0#6 4 14 false (fun a => noFlag (tfn .log a)))

/-- `vlog2`, correctly rounded (R157). -/
def execVlog2 (i : Issue) (f : VecField) (s : State) : Host.Outcome State Fault Refusal :=
  .next (issueUnary s i f 0#6 4 14 false (fun a => noFlag (tfn .log2 a)))

/-- `vtanh`, correctly rounded (R157). -/
def execVtanh (i : Issue) (f : VecField) (s : State) : Host.Outcome State Fault Refusal :=
  .next (issueUnary s i f 0#6 4 14 false (fun a => noFlag (tfn .tanh a)))

/-- `vsigm`, correctly rounded (R157). -/
def execVsigm (i : Issue) (f : VecField) (s : State) : Host.Outcome State Fault Refusal :=
  .next (issueUnary s i f 0#6 4 14 false (fun a => noFlag (tfn .sigm a)))

/-- `vgelu`, correctly rounded (R157). -/
def execVgelu (i : Issue) (f : VecField) (s : State) : Host.Outcome State Fault Refusal :=
  .next (issueUnary s i f 0#6 4 14 false (fun a => noFlag (tfn .gelu a)))

/-- `vsilu`, correctly rounded (R157). -/
def execVsilu (i : Issue) (f : VecField) (s : State) : Host.Outcome State Fault Refusal :=
  .next (issueUnary s i f 0#6 4 14 false (fun a => noFlag (tfn .silu a)))

/-- `vsin`, correctly rounded (R157). -/
def execVsin (i : Issue) (f : VecField) (s : State) : Host.Outcome State Fault Refusal :=
  .next (issueUnary s i f 0#6 4 14 false (fun a => noFlag (tfn .sin a)))

/-- `vcos`, correctly rounded (R157). -/
def execVcos (i : Issue) (f : VecField) (s : State) : Host.Outcome State Fault Refusal :=
  .next (issueUnary s i f 0#6 4 14 false (fun a => noFlag (tfn .cos a)))

/-- `vrsum`: row sums over a run (R163, R164). -/
def execVrsum (i : Issue) (f : VecField) (s : State) : Host.Outcome State Fault Refusal :=
  .next (issueReduce s i f .sum true)

/-- `vrmax`: row maxima over a run (R163, R164). -/
def execVrmax (i : Issue) (f : VecField) (s : State) : Host.Outcome State Fault Refusal :=
  .next (issueReduce s i f .max true)

/-- `vrmin`: row minima over a run (R163, R164). -/
def execVrmin (i : Issue) (f : VecField) (s : State) : Host.Outcome State Fault Refusal :=
  .next (issueReduce s i f .min true)

/-- `vcsum`: column sums over a run (R163, R164). -/
def execVcsum (i : Issue) (f : VecField) (s : State) : Host.Outcome State Fault Refusal :=
  .next (issueReduce s i f .sum false)

/-- `vcmax`: column maxima over a run (R163, R164). -/
def execVcmax (i : Issue) (f : VecField) (s : State) : Host.Outcome State Fault Refusal :=
  .next (issueReduce s i f .max false)

/-- `vcmin`: column minima over a run (R163, R164). -/
def execVcmin (i : Issue) (f : VecField) (s : State) : Host.Outcome State Fault Refusal :=
  .next (issueReduce s i f .min false)

/-- The positions of the active elements of a row, ascending. -/
def activeIn (mask : BitVec 256) (i : Nat) : List Nat :=
  (List.range 16).filterMap fun j => if mask.getLsbD (16 * i + j) then some (16 * i + j) else none

/-- `vcmpr`: active elements packed in order, the count into `vec.ccount` (R168, R170). -/
def execVcmpr (i : Issue) (f : VecField) (s : State) : Host.Outcome State Fault Refusal :=
  .next (issueVector s i (judgeOp (vecFieldOk (useUnary 3#6) f)) 0 2 fun x c =>
    let mask := maskOf x.view f.msk.toNat
    let a := x.src 0 f.sa.toNat
    let zero : PWord := ⟨0#32, false⟩
    let rows := (List.range 16).map fun r => activeIn mask r
    let count := (rows.map List.length).foldl (· + ·) 0
    let all := rows.flatten
    let place (e : Nat) : Option Nat := if vBit1 f then (rows.getD (e / 16) [])[e % 16]? else all[e]?
    let elems := (List.range 256).map fun e => match place e with
      | some q => some (a.getD q zero)
      | none => some zero
    let st := (List.range 16).map fun r =>
      (if vInt f then 0 else nanInf (((rowOf elems r).filterMap id).map fun p => p.val)) +
        (if (List.range 16).any fun j => (place (16 * r + j)).isSome then 0 else 4)
    putVec c x.en { resAt x.t 8 with
      tiles := [(f.dst.toNat, elems)]
      status := [(f.dst.toNat, st)]
      count := some count
      tarn := opTarn x.view [f.sa.toNat] f.msk.toNat
      guards := [(f.dst.toNat, guardElems (vInt f) elems st (fun _ => true))] })

/-- `vexpd`: SA's elements to the active positions, SB's elsewhere (R169). -/
def execVexpd (i : Issue) (f : VecField) (s : State) : Host.Outcome State Fault Refusal :=
  .next (issueVector s i (judgeOp (vecFieldOk (useBinary 3#6) f)) 0 2 fun x c =>
    let mask := maskOf x.view f.msk.toNat
    let a := x.src 0 f.sa.toNat
    let b := x.src 1 f.sb.toNat
    let before (lo e : Nat) : Nat := ((List.range e).filter fun k => decide (lo ≤ k) && mask.getLsbD k).length
    let elems := (List.range 256).map fun e =>
      if mask.getLsbD e then
        (if vBit1 f then a[e / 16 * 16 + before (e / 16 * 16) e]? else a[before 0 e]?)
      else b[e]?
    let st := rowStatus (vInt f) elems (fun e => mask.getLsbD e)
    putVec c x.en { resAt x.t 8 with
      tiles := [(f.dst.toNat, elems)]
      status := [(f.dst.toNat, st)]
      tarn := opTarn x.view [f.sa.toNat, f.sb.toNat] f.msk.toNat
      guards := [(f.dst.toNat, guardElems (vInt f) elems st (fun e => mask.getLsbD e))] })

/-- `vsmax`: soft maximum over a run, with optional statistics (R171, R172). -/
def execVsmax (i : Issue) (f : VecField) (s : State) : Host.Outcome State Fault Refusal :=
  .next (issueVector s i (judgeOp (vecFieldOk (useUnary 0x3E#6) f && runOk f.sa.toNat (vRun f) &&
      decide (f.dst.toNat + vRun f ≤ 32) && (!vTop f || decide (f.dst.toNat + vRun f ≤ 31)))) 0 (6 * vRun f)
    (runRows f (6 * vRun f + 16) (vTop f) [] smaxRow))

/-- `vlnorm`: layer normalisation over a run; SB names the constant register of the offset (R173 to R175). -/
def execVlnorm (i : Issue) (f : VecField) (s : State) : Host.Outcome State Fault Refusal :=
  .next (issueVector s i (judgeOp (vecFieldOk (useBinary 0x1E#6) f && decide (40 ≤ f.sb.toNat) &&
      runOk f.sa.toNat (vRun f) && decide (f.dst.toNat + vRun f ≤ 32))) 0 (5 * vRun f) fun x c =>
    runRows f (5 * vRun f + 18) false [f.sb.toNat]
      (normRow true · (cReg c (0x1200 + 4 * (f.sb.toNat - 40)))) x c)

/-- `vrnorm`: RMS normalisation over a run; SB names the constant register of the offset (R173 to R175). -/
def execVrnorm (i : Issue) (f : VecField) (s : State) : Host.Outcome State Fault Refusal :=
  .next (issueVector s i (judgeOp (vecFieldOk (useBinary 0x1E#6) f && decide (40 ≤ f.sb.toNat) &&
      runOk f.sa.toNat (vRun f) && decide (f.dst.toNat + vRun f ≤ 32))) 0 (5 * vRun f) fun x c =>
    runRows f (5 * vRun f + 18) false [f.sb.toNat]
      (normRow false · (cReg c (0x1200 + 4 * (f.sb.toNat - 40)))) x c)

/-- What `vld` and `vst` use of their field (R151, R152). -/
def useVld : VecUse := ⟨false, false, true, false, false, 0xF#6⟩
def useVst : VecUse := ⟨true, false, false, false, false, 0x3F#6⟩

/-- `vld`: one tile loaded and decoded (R176, R178, R182). -/
def execVld (i : Issue) (f : VecField) (s : State) : Host.Outcome State Fault Refusal :=
  let d := vecDesc (s.core i.core.val) (vLow4 f)
  let r := tileCycles (descFmt d) + (if d.scaled then 1 else 0)
  .next (issueVector s i (judgeTile f useVld) 1 r fun x c =>
    { c with
      vloads := c.vloads ++ [{ issue := x.t, due := x.t + r + latency c + 1, enabled := x.en, tile := f.dst.toNat
                               base := d.base, fmt := d.fmt, scaled := d.scaled, rstride := d.rstride, sbase := d.sbase
                               sstride := d.sstride }] })

/-- `vst`: one tile encoded and stored (R177, R178, R182). -/
def execVst (i : Issue) (f : VecField) (s : State) : Host.Outcome State Fault Refusal :=
  let d := vecDesc (s.core i.core.val) (vLow4 f)
  .next (issueVector s i (judgeTile f useVst) 2 (tileCycles (descFmt d) + 1) (runStore f))

/-- `vquant`: a run quantised and stored with its block scales (R179 to R181). -/
def execVquant (i : Issue) (f : VecField) (s : State) : Host.Outcome State Fault Refusal :=
  let d := vecDesc (s.core i.core.val) (vLow4 f)
  let rb := ((quantShape (descFmt d)).getD (0, 0, 0, 0)).2.2.1
  .next (issueVector s i (judgeQuant f) 2 (quantCycles rb + 6) (runQuant f))

/-- The result cycle of the vector operation that is due first (R186). -/
def execVectorResult (c : CoreId) (s : State) : Host.Outcome State Fault Refusal :=
  .next (reachDue s c (((s.core c.val).vops.map fun v => v.due) ++ ((s.core c.val).vloads.map fun v => v.due)))

end Sys2Proof.Machine
end

