-- ==== Sys2Proof/Machine/Dispatch.lean ====
section
/-! DEFINITION. The effect of each command on everything but the queue: one arm per command, one meaning per arm. -/

namespace Sys2Proof.Machine

/-- The effect of a command. -/
def exec (i : Instr) (s : State) : Host.Outcome State Fault Refusal :=
  match i with
  | .registerWrite tgt off size val hw => Sys2Proof.Machine.execRegisterWrite tgt off size val hw s
  | .rcRead tgt off size ev => Sys2Proof.Machine.execRcRead tgt off size ev s
  | .wideReadLatch tgt off size => Sys2Proof.Machine.execWideReadLatch tgt off size s
  | .snop iss rsv => Sys2Proof.Machine.execSnop iss rsv s
  | .add iss f => Sys2Proof.Machine.execAdd iss f s
  | .sub iss f => Sys2Proof.Machine.execSub iss f s
  | .and iss f => Sys2Proof.Machine.execAnd iss f s
  | .or iss f => Sys2Proof.Machine.execOr iss f s
  | .xor iss f => Sys2Proof.Machine.execXor iss f s
  | .shl iss f => Sys2Proof.Machine.execShl iss f s
  | .shr iss f => Sys2Proof.Machine.execShr iss f s
  | .sra iss f => Sys2Proof.Machine.execSra iss f s
  | .mul iss f => Sys2Proof.Machine.execMul iss f s
  | .slt iss f => Sys2Proof.Machine.execSlt iss f s
  | .sltu iss f => Sys2Proof.Machine.execSltu iss f s
  | .addi iss f => Sys2Proof.Machine.execAddi iss f s
  | .andi iss f => Sys2Proof.Machine.execAndi iss f s
  | .ori iss f => Sys2Proof.Machine.execOri iss f s
  | .xori iss f => Sys2Proof.Machine.execXori iss f s
  | .shli iss f => Sys2Proof.Machine.execShli iss f s
  | .shri iss f => Sys2Proof.Machine.execShri iss f s
  | .srai iss f => Sys2Proof.Machine.execSrai iss f s
  | .movl iss f => Sys2Proof.Machine.execMovl iss f s
  | .movh iss f => Sys2Proof.Machine.execMovh iss f s
  | .pcmp iss f => Sys2Proof.Machine.execPcmp iss f s
  | .ld iss f => Sys2Proof.Machine.execLd iss f s
  | .st iss f => Sys2Proof.Machine.execSt iss f s
  | .ldResult c => Sys2Proof.Machine.execLdResult c s
  | .rdr iss f => Sys2Proof.Machine.execRdr iss f s
  | .wrr iss f => Sys2Proof.Machine.execWrr iss f s
  | .jmp iss f => Sys2Proof.Machine.execJmp iss f s
  | .call iss f => Sys2Proof.Machine.execCall iss f s
  | .jr iss f => Sys2Proof.Machine.execJr iss f s
  | .loop iss f => Sys2Proof.Machine.execLoop iss f s
  | .wait iss f => Sys2Proof.Machine.execWait iss f s
  | .done iss rsv => Sys2Proof.Machine.execDone iss rsv s
  | .mnop iss f => Sys2Proof.Machine.execMnop iss f s
  | .mmac iss f => Sys2Proof.Machine.execMmac iss f s
  | .mload iss f => Sys2Proof.Machine.execMload iss f s
  | .mzero iss f => Sys2Proof.Machine.execMzero iss f s
  | .mspill iss f => Sys2Proof.Machine.execMspill iss f s
  | .mfill iss f => Sys2Proof.Machine.execMfill iss f s
  | .planeReady c => Sys2Proof.Machine.execPlaneReady c s
  | .mmacResult c => Sys2Proof.Machine.execMmacResult c s
  | .mfillResult c => Sys2Proof.Machine.execMfillResult c s
  | .vnop iss f => Sys2Proof.Machine.execVnop iss f s
  | .vmov iss f => Sys2Proof.Machine.execVmov iss f s
  | .vadd iss f => Sys2Proof.Machine.execVadd iss f s
  | .vsub iss f => Sys2Proof.Machine.execVsub iss f s
  | .vmul iss f => Sys2Proof.Machine.execVmul iss f s
  | .vfma iss f => Sys2Proof.Machine.execVfma iss f s
  | .vmin iss f => Sys2Proof.Machine.execVmin iss f s
  | .vmax iss f => Sys2Proof.Machine.execVmax iss f s
  | .vabs iss f => Sys2Proof.Machine.execVabs iss f s
  | .vneg iss f => Sys2Proof.Machine.execVneg iss f s
  | .vsel iss f => Sys2Proof.Machine.execVsel iss f s
  | .vcmp iss f => Sys2Proof.Machine.execVcmp iss f s
  | .vand iss f => Sys2Proof.Machine.execVand iss f s
  | .vor iss f => Sys2Proof.Machine.execVor iss f s
  | .vxor iss f => Sys2Proof.Machine.execVxor iss f s
  | .vshl iss f => Sys2Proof.Machine.execVshl iss f s
  | .vshr iss f => Sys2Proof.Machine.execVshr iss f s
  | .vcvt iss f => Sys2Proof.Machine.execVcvt iss f s
  | .vtrn iss f => Sys2Proof.Machine.execVtrn iss f s
  | .vstm iss f => Sys2Proof.Machine.execVstm iss f s
  | .vdiv iss f => Sys2Proof.Machine.execVdiv iss f s
  | .vrcp iss f => Sys2Proof.Machine.execVrcp iss f s
  | .vsqrt iss f => Sys2Proof.Machine.execVsqrt iss f s
  | .vrsqrt iss f => Sys2Proof.Machine.execVrsqrt iss f s
  | .vexp iss f => Sys2Proof.Machine.execVexp iss f s
  | .vexp2 iss f => Sys2Proof.Machine.execVexp2 iss f s
  | .vlog iss f => Sys2Proof.Machine.execVlog iss f s
  | .vlog2 iss f => Sys2Proof.Machine.execVlog2 iss f s
  | .vtanh iss f => Sys2Proof.Machine.execVtanh iss f s
  | .vsigm iss f => Sys2Proof.Machine.execVsigm iss f s
  | .vgelu iss f => Sys2Proof.Machine.execVgelu iss f s
  | .vsilu iss f => Sys2Proof.Machine.execVsilu iss f s
  | .vsin iss f => Sys2Proof.Machine.execVsin iss f s
  | .vcos iss f => Sys2Proof.Machine.execVcos iss f s
  | .vrsum iss f => Sys2Proof.Machine.execVrsum iss f s
  | .vrmax iss f => Sys2Proof.Machine.execVrmax iss f s
  | .vrmin iss f => Sys2Proof.Machine.execVrmin iss f s
  | .vcsum iss f => Sys2Proof.Machine.execVcsum iss f s
  | .vcmax iss f => Sys2Proof.Machine.execVcmax iss f s
  | .vcmin iss f => Sys2Proof.Machine.execVcmin iss f s
  | .vcmpr iss f => Sys2Proof.Machine.execVcmpr iss f s
  | .vexpd iss f => Sys2Proof.Machine.execVexpd iss f s
  | .vsmax iss f => Sys2Proof.Machine.execVsmax iss f s
  | .vlnorm iss f => Sys2Proof.Machine.execVlnorm iss f s
  | .vrnorm iss f => Sys2Proof.Machine.execVrnorm iss f s
  | .vld iss f => Sys2Proof.Machine.execVld iss f s
  | .vst iss f => Sys2Proof.Machine.execVst iss f s
  | .vquant iss f => Sys2Proof.Machine.execVquant iss f s
  | .vectorResult c => Sys2Proof.Machine.execVectorResult c s
  | .xnop iss f => Sys2Proof.Machine.execXnop iss f s
  | .xout iss f => Sys2Proof.Machine.execXout iss f s
  | .xin iss f => Sys2Proof.Machine.execXin iss f s
  | .xtok iss f => Sys2Proof.Machine.execXtok iss f s
  | .xstop iss f => Sys2Proof.Machine.execXstop iss f s
  | .scratchpadCommit c => Sys2Proof.Machine.execScratchpadCommit c s
  | .flitArrival c inp fl => Sys2Proof.Machine.execFlitArrival c inp fl s
  | .tokenArrival c inp tok => Sys2Proof.Machine.execTokenArrival c inp tok s
  | .slotEntryApply c => Sys2Proof.Machine.execSlotEntryApply c s
  | .sectionBarrier part => Sys2Proof.Machine.execSectionBarrier part s
  | .bankSwap c => Sys2Proof.Machine.execBankSwap c s
  | .sectionLaunch part => Sys2Proof.Machine.execSectionLaunch part s
  | .checkpoint c => Sys2Proof.Machine.execCheckpoint c s
  | .checkpointSilent c => Sys2Proof.Machine.execCheckpointSilent c s
  | .silentTimeout c => Sys2Proof.Machine.execSilentTimeout c s
  | .post c e val => Sys2Proof.Machine.execPost c e val s
  | .chmsg c p => Sys2Proof.Machine.execChmsg c p s
  | .channelCommit c e => Sys2Proof.Machine.execChannelCommit c e s
  | .chrep c e code => Sys2Proof.Machine.execChrep c e code s
  | .postTimeout c e => Sys2Proof.Machine.execPostTimeout c e s
  | .headRelease c e val => Sys2Proof.Machine.execHeadRelease c e val s
  | .hqPush c q val => Sys2Proof.Machine.execHqPush c q val s
  | .hqPop c q => Sys2Proof.Machine.execHqPop c q s
  | .bufferConfig c n isBase val => Sys2Proof.Machine.execBufferConfig c n isBase val s
  | .swap c n => Sys2Proof.Machine.execSwap c n s
  | .packetIngress r p => Sys2Proof.Machine.execPacketIngress r p s
  | .packetForward r out perr => Sys2Proof.Machine.execPacketForward r out perr s
  | .creditReturn r out vc => Sys2Proof.Machine.execCreditReturn r out vc s
  | .wr p => Sys2Proof.Machine.execWr p s
  | .rd p => Sys2Proof.Machine.execRd p s
  | .hqp p => Sys2Proof.Machine.execHqp p s
  | .regw p => Sys2Proof.Machine.execRegw p s
  | .regr p => Sys2Proof.Machine.execRegr p s
  | .mcwr c p => Sys2Proof.Machine.execMcwr c p s
  | .ack p => Sys2Proof.Machine.execAck p s
  | .rdata p => Sys2Proof.Machine.execRdata p s
  | .record => Sys2Proof.Machine.execRecord s
  | .xlat es gen => Sys2Proof.Machine.execXlat es gen s
  | .requestTimeout src tag => Sys2Proof.Machine.execRequestTimeout src tag s
  | .fence c => Sys2Proof.Machine.execFence c s
  | .fenceDone c => Sys2Proof.Machine.execFenceDone c s
  | .barrierSlotWrite c k val => Sys2Proof.Machine.execBarrierSlotWrite c k val s
  | .arrive r grp gen => Sys2Proof.Machine.execArrive r grp gen s
  | .release c grp gen => Sys2Proof.Machine.execRelease c grp gen s
  | .multicastCut r out grp => Sys2Proof.Machine.execMulticastCut r out grp s
  | .missed c grp first count => Sys2Proof.Machine.execMissed c grp first count s
  | .missPop c => Sys2Proof.Machine.execMissPop c s
  | .burmonRead st off len part mergeable found => Sys2Proof.Machine.execBurmonRead st off len part mergeable found s
  | .burmonWrite st off bytes tarn part crcGood found => Sys2Proof.Machine.execBurmonWrite st off bytes tarn part crcGood found s
  | .correctedWriteback st blk => Sys2Proof.Machine.execCorrectedWriteback st blk s
  | .refreshSlot st pair => Sys2Proof.Machine.execRefreshSlot st pair s
  | .scrub st blk errs => Sys2Proof.Machine.execScrub st blk errs s
  | .dramRowRepair st ch die bank row => Sys2Proof.Machine.execDramRowRepair st ch die bank row s
  | .retrainRequest st pair => Sys2Proof.Machine.execRetrainRequest st pair s
  | .stackRetrainGo st val => Sys2Proof.Machine.execStackRetrainGo st val s
  | .retrainDone st => Sys2Proof.Machine.execRetrainDone st s
  | .contextDescriptorWrite st ctx part words => Sys2Proof.Machine.execContextDescriptorWrite st ctx part words s
  | .streamStart st ctx part => Sys2Proof.Machine.execStreamStart st ctx part s
  | .streamStop st ctx part => Sys2Proof.Machine.execStreamStop st ctx part s
  | .credit st ctx part n => Sys2Proof.Machine.execCredit st ctx part n s
  | .memCredit c val => Sys2Proof.Machine.execMemCredit c val s
  | .schedChunk st ctx errs badPar => Sys2Proof.Machine.execSchedChunk st ctx errs badPar s
  | .serviceChunk st ctx errs host => Sys2Proof.Machine.execServiceChunk st ctx errs host s
  | .sharedChunk st ctx errs => Sys2Proof.Machine.execSharedChunk st ctx errs s
  | .remoteHalt st ctx unreach => Sys2Proof.Machine.execRemoteHalt st ctx unreach s
  | .remoteResume st ctx => Sys2Proof.Machine.execRemoteResume st ctx s
  | .remoteFail st ctx => Sys2Proof.Machine.execRemoteFail st ctx s
  | .xferStart c x val => Sys2Proof.Machine.execXferStart c x val s
  | .xferComplete c x => Sys2Proof.Machine.execXferComplete c x s
  | .ptpSync p domain ident log twoStep t1 => Sys2Proof.Machine.execPtpSync p domain ident log twoStep t1 s
  | .followUp p domain ident t => Sys2Proof.Machine.execFollowUp p domain ident t s
  | .delayResp p domain ident t => Sys2Proof.Machine.execDelayResp p domain ident t s
  | .announce p domain a => Sys2Proof.Machine.execAnnounce p domain a s
  | .delayReq => Sys2Proof.Machine.execDelayReq s
  | .servingPortMove why => Sys2Proof.Machine.execServingPortMove why s
  | .holdoverLimit => Sys2Proof.Machine.execHoldoverLimit s
  | .ppsEdge => Sys2Proof.Machine.execPpsEdge s
  | .ppsLapse => Sys2Proof.Machine.execPpsLapse s
  | .errRecompute => Sys2Proof.Machine.execErrRecompute s
  | .alignmentWord isStack unit skew => Sys2Proof.Machine.execAlignmentWord isStack unit skew s
  | .frameClockEnable k val => Sys2Proof.Machine.execFrameClockEnable k val s
  | .lineStart k => Sys2Proof.Machine.execLineStart k s
  | .eventBook k time => Sys2Proof.Machine.execEventBook k time s
  | .eventCancel id => Sys2Proof.Machine.execEventCancel id s
  | .snap => Sys2Proof.Machine.execSnap s
  | .frameReceive p f => Sys2Proof.Machine.execFrameReceive p f s
  | .linkLock p => Sys2Proof.Machine.execLinkLock p s
  | .linkLoss p inFrame => Sys2Proof.Machine.execLinkLoss p inFrame s
  | .retrain p => Sys2Proof.Machine.execRetrain p s
  | .portFence p => Sys2Proof.Machine.execPortFence p s
  | .unfence p => Sys2Proof.Machine.execUnfence p s
  | .readyAnnouncement => Sys2Proof.Machine.execReadyAnnouncement s
  | .readyRepeat p => Sys2Proof.Machine.execReadyRepeat p s
  | .bringupRequestExpire p src => Sys2Proof.Machine.execBringupRequestExpire p src s
  | .pfcRepeat p prio => Sys2Proof.Machine.execPfcRepeat p prio s
  | .pfcReceive p vec quanta => Sys2Proof.Machine.execPfcReceive p vec quanta s
  | .pauseExpire p prio => Sys2Proof.Machine.execPauseExpire p prio s
  | .pfcWatchdog p prio => Sys2Proof.Machine.execPfcWatchdog p prio s
  | .cnpReceive q => Sys2Proof.Machine.execCnpReceive q s
  | .rateRecovery q => Sys2Proof.Machine.execRateRecovery q s
  | .rocePacket p k => Sys2Proof.Machine.execRocePacket p k s
  | .ackTimeout q => Sys2Proof.Machine.execAckTimeout q s
  | .counterRateCheck p => Sys2Proof.Machine.execCounterRateCheck p s
  | .doorbell r val => Sys2Proof.Machine.execDoorbell r val s
  | .completionDoorbell r val => Sys2Proof.Machine.execCompletionDoorbell r val s
  | .commandTake => Sys2Proof.Machine.execCommandTake s
  | .completionWrite r => Sys2Proof.Machine.execCompletionWrite r s
  | .eventReport => Sys2Proof.Machine.execEventReport s
  | .nop r pos => Sys2Proof.Machine.execNop r pos s
  | .queryDevice r pos => Sys2Proof.Machine.execQueryDevice r pos s
  | .readRegs r pos => Sys2Proof.Machine.execReadRegs r pos s
  | .writeRegs r pos => Sys2Proof.Machine.execWriteRegs r pos s
  | .openPartition r pos => Sys2Proof.Machine.execOpenPartition r pos s
  | .closePartition r pos => Sys2Proof.Machine.execClosePartition r pos s
  | .loadProgram r pos img => Sys2Proof.Machine.execLoadProgram r pos img s
  | .resetPartitionRollback r pos => Sys2Proof.Machine.execResetPartitionRollback r pos s
  | .resetPartitionReset r pos => Sys2Proof.Machine.execResetPartitionReset r pos s
  | .resetPartitionQuench r pos => Sys2Proof.Machine.execResetPartitionQuench r pos s
  | .resetPartitionPeers r pos => Sys2Proof.Machine.execResetPartitionPeers r pos s
  | .resetPartitionAdmit r pos => Sys2Proof.Machine.execResetPartitionAdmit r pos s
  | .resetPartitionResume r pos => Sys2Proof.Machine.execResetPartitionResume r pos s
  | .setChecks r pos => Sys2Proof.Machine.execSetChecks r pos s
  | .createBuffer r pos => Sys2Proof.Machine.execCreateBuffer r pos s
  | .destroyBuffer r pos => Sys2Proof.Machine.execDestroyBuffer r pos s
  | .releaseBuffer r pos => Sys2Proof.Machine.execReleaseBuffer r pos s
  | .openSession r pos => Sys2Proof.Machine.execOpenSession r pos s
  | .closeSession r pos => Sys2Proof.Machine.execCloseSession r pos s
  | .submit r pos => Sys2Proof.Machine.execSubmit r pos s
  | .setFrameClock r pos => Sys2Proof.Machine.execSetFrameClock r pos s
  | .createRing r pos => Sys2Proof.Machine.execCreateRing r pos s
  | .destroyRing r pos => Sys2Proof.Machine.execDestroyRing r pos s
  | .openChannel r pos => Sys2Proof.Machine.execOpenChannel r pos s
  | .closeChannel r pos => Sys2Proof.Machine.execCloseChannel r pos s
  | .createQp r pos => Sys2Proof.Machine.execCreateQp r pos s
  | .destroyQp r pos => Sys2Proof.Machine.execDestroyQp r pos s
  | .registerMemory r pos => Sys2Proof.Machine.execRegisterMemory r pos s
  | .deregisterMemory r pos => Sys2Proof.Machine.execDeregisterMemory r pos s
  | .mapWindow r pos => Sys2Proof.Machine.execMapWindow r pos s
  | .mapPages r pos => Sys2Proof.Machine.execMapPages r pos s
  | .unmapWindow r pos => Sys2Proof.Machine.execUnmapWindow r pos s
  | .fenceUnit r pos => Sys2Proof.Machine.execFenceUnit r pos s
  | .testUnitTest r pos res => Sys2Proof.Machine.execTestUnitTest r pos res s
  | .testUnitReadmit r pos res => Sys2Proof.Machine.execTestUnitReadmit r pos res s
  | .testUnitReadPm r pos => Sys2Proof.Machine.execTestUnitReadPm r pos s
  | .testUnitSamples r pos => Sys2Proof.Machine.execTestUnitSamples r pos s
  | .attestReport r pos entropy => Sys2Proof.Machine.execAttestReport r pos entropy s
  | .attestJobKey r pos => Sys2Proof.Machine.execAttestJobKey r pos s
  | .attestLog r pos => Sys2Proof.Machine.execAttestLog r pos s
  | .oldKeyErase part => Sys2Proof.Machine.execOldKeyErase part s
  | .ephemeralKeyExpire id => Sys2Proof.Machine.execEphemeralKeyExpire id s
  | .sealReceive part l => Sys2Proof.Machine.execSealReceive part l s
  | .suspectCauseTimeout part => Sys2Proof.Machine.execSuspectCauseTimeout part s
  | .assayReport c val => Sys2Proof.Machine.execAssayReport c val s
  | .hallmarkRound part => Sys2Proof.Machine.execHallmarkRound part s
  | .hallmarkDigestDone part => Sys2Proof.Machine.execHallmarkDigestDone part s
  | .digest q m => Sys2Proof.Machine.execDigest q m s
  | .hallmarkVote part => Sys2Proof.Machine.execHallmarkVote part s
  | .expel q m => Sys2Proof.Machine.execExpel q m s
  | .tsReq q m data => Sys2Proof.Machine.execTsReq q m data s
  | .tsResult q m => Sys2Proof.Machine.execTsResult q m s
  | .tsRetry part => Sys2Proof.Machine.execTsRetry part s
  | .tsTimeout part => Sys2Proof.Machine.execTsTimeout part s
  | .regionHeartbeat p => Sys2Proof.Machine.execRegionHeartbeat p s
  | .heartbeatLoss isStack unit => Sys2Proof.Machine.execHeartbeatLoss isStack unit s
  | .burnishPiece p abandoned ok repeats => Sys2Proof.Machine.execBurnishPiece p abandoned ok repeats s
  | .burnishTimeout p => Sys2Proof.Machine.execBurnishTimeout p s
  | .rootstockMarch row pass => Sys2Proof.Machine.execRootstockMarch row pass s
  | .halt part => Sys2Proof.Machine.execHalt part s
  | .coreReset c => Sys2Proof.Machine.execCoreReset c s
  | .clusterReset p cx cy => Sys2Proof.Machine.execClusterReset p cx cy s
  | .partitionReset part => Sys2Proof.Machine.execPartitionReset part s
  | .deviceReset => Sys2Proof.Machine.execDeviceReset s
  | .resetEscalate dom unit => Sys2Proof.Machine.execResetEscalate dom unit s
  | .graft p => Sys2Proof.Machine.execGraft p s
  | .inPlaceBypass p row col => Sys2Proof.Machine.execInPlaceBypass p row col s
  | .regionTestDone p pass => Sys2Proof.Machine.execRegionTestDone p pass s
  | .beat => Sys2Proof.Machine.execBeat s
  | .latchChange yields => Sys2Proof.Machine.execLatchChange yields s
  | .takeover => Sys2Proof.Machine.execTakeover s
  | .heartwoodLost => Sys2Proof.Machine.execHeartwoodLost s
  | .patinaDecay => Sys2Proof.Machine.execPatinaDecay s
  | .quench q m => Sys2Proof.Machine.execQuench q m s
  | .liveSend part => Sys2Proof.Machine.execLiveSend part s
  | .live q m => Sys2Proof.Machine.execLive q m s
  | .peerDead part q => Sys2Proof.Machine.execPeerDead part q s
  | .join q m => Sys2Proof.Machine.execJoin q m s
  | .state q m data => Sys2Proof.Machine.execState q m data s
  | .joined q m => Sys2Proof.Machine.execJoined q m s
  | .admitTimeout part => Sys2Proof.Machine.execAdmitTimeout part s
  | .recoveryRestart part => Sys2Proof.Machine.execRecoveryRestart part s
  | .vsetUpdate p mv => Sys2Proof.Machine.execVsetUpdate p mv s
  | .droop p mv sensor => Sys2Proof.Machine.execDroop p mv sensor s
  | .loadStepNotice p => Sys2Proof.Machine.execLoadStepNotice p s
  | .noticeEnd p => Sys2Proof.Machine.execNoticeEnd p s
  | .abnormalDrop p => Sys2Proof.Machine.execAbnormalDrop p s
  | .overcur p amps => Sys2Proof.Machine.execOvercur p amps s
  | .phaseFail working => Sys2Proof.Machine.execPhaseFail working s
  | .inputOutOfRange => Sys2Proof.Machine.execInputOutOfRange s
  | .vinLow => Sys2Proof.Machine.execVinLow s
  | .pinOver watts => Sys2Proof.Machine.execPinOver watts s
  | .clockLoss p alive => Sys2Proof.Machine.execClockLoss p alive s
  | .clockDead p => Sys2Proof.Machine.execClockDead p s
  | .pollardRequest p temp => Sys2Proof.Machine.execPollardRequest p temp s
  | .pollard p => Sys2Proof.Machine.execPollard p s
  | .pollardHoldEnd part => Sys2Proof.Machine.execPollardHoldEnd part s
  | .thermalHard p temp => Sys2Proof.Machine.execThermalHard p temp s
  | .thermalTrip p temp => Sys2Proof.Machine.execThermalTrip p temp s
  | .pollardReturn p pass => Sys2Proof.Machine.execPollardReturn p pass s
  | .stackOverheat st temp => Sys2Proof.Machine.execStackOverheat st temp s
  | .stackCritical st => Sys2Proof.Machine.execStackCritical st s
  | .cool tin flow => Sys2Proof.Machine.execCool tin flow s
  | .enable sealBroken mated slot => Sys2Proof.Machine.execEnable sealBroken mated slot s
  | .discover p src xid len => Sys2Proof.Machine.execDiscover p src xid len s
  | .bringupRead p src xid len addr count => Sys2Proof.Machine.execBringupRead p src xid len addr count s
  | .bringupWrite p src xid len addr count words => Sys2Proof.Machine.execBringupWrite p src xid len addr count words s
  | .stage p src xid len off bytes => Sys2Proof.Machine.execStage p src xid len off bytes s
  | .power ok => Sys2Proof.Machine.execPower ok s
  | .bist level f => Sys2Proof.Machine.execBist level f s
  | .trainStacks ok => Sys2Proof.Machine.execTrainStacks ok s
  | .trainPorts ports => Sys2Proof.Machine.execTrainPorts ports s
  | .loadFw bad => Sys2Proof.Machine.execLoadFw bad s
  | .start west east fuses => Sys2Proof.Machine.execStart west east fuses s
  | .retrainStack st => Sys2Proof.Machine.execRetrainStack st s
  | .retrainPort p => Sys2Proof.Machine.execRetrainPort p s
  | .resetRegion p => Sys2Proof.Machine.execResetRegion p s
  | .resetAll => Sys2Proof.Machine.execResetAll s
  | .stepTimeout => Sys2Proof.Machine.execStepTimeout s
  | .autoRestart => Sys2Proof.Machine.execAutoRestart s
  | .pourEnable c val => Sys2Proof.Machine.execPourEnable c val s
  | .pourPacket c p => Sys2Proof.Machine.execPourPacket c p s
  | .pulling c => Sys2Proof.Machine.execPulling c s
  | .pourDone c => Sys2Proof.Machine.execPourDone c s
  | .pourTimeout c => Sys2Proof.Machine.execPourTimeout c s
  | .hotJoin => Sys2Proof.Machine.execHotJoin s
  | .enec events => Sys2Proof.Machine.execEnec events s
  | .disec events => Sys2Proof.Machine.execDisec events s
  | .rstdaa => Sys2Proof.Machine.execRstdaa s
  | .entdaa addr => Sys2Proof.Machine.execEntdaa addr s
  | .setdasa static addr => Sys2Proof.Machine.execSetdasa static addr s
  | .getpid => Sys2Proof.Machine.execGetpid s
  | .getbcr => Sys2Proof.Machine.execGetbcr s
  | .getdcr => Sys2Proof.Machine.execGetdcr s
  | .getstatus => Sys2Proof.Machine.execGetstatus s
  | .getmwl => Sys2Proof.Machine.execGetmwl s
  | .getmrl => Sys2Proof.Machine.execGetmrl s
  | .i3cPrivateWrite off vals => Sys2Proof.Machine.execI3cPrivateWrite off vals s
  | .i3cPrivateRead n => Sys2Proof.Machine.execI3cPrivateRead n s
  | .budgetWrite val => Sys2Proof.Machine.execBudgetWrite val s
  | .ibi ack => Sys2Proof.Machine.execIbi ack s
  | .ibiRepeat ack => Sys2Proof.Machine.execIbiRepeat ack s
  | .shutdown => Sys2Proof.Machine.execShutdown s
  | .removal => Sys2Proof.Machine.execRemoval s
  | .disable => Sys2Proof.Machine.execDisable s
  | .rstAssert => Sys2Proof.Machine.execRstAssert s
  | .rstRelease => Sys2Proof.Machine.execRstRelease s
  | .vlow p => Sys2Proof.Machine.execVlow p s
  | .warm p temp => Sys2Proof.Machine.execWarm p temp s
  | .rnrTimerExpire q => Sys2Proof.Machine.execRnrTimerExpire q s
  | .pfcWdRelease p prio => Sys2Proof.Machine.execPfcWdRelease p prio s
  | .recordSend c => Sys2Proof.Machine.execRecordSend c s
  | .baseDieHeartbeat st => Sys2Proof.Machine.execBaseDieHeartbeat st s
  | .mateSenseBounce => Sys2Proof.Machine.execMateSenseBounce s

end Sys2Proof.Machine
end

