-- ==== Sys2Proof/Machine/Tick.lean ====
section
/-! DEFINITION. What the clock does where no command waits: items arrive, slot-table entries act, and the cores issue the bundles
they have fetched (R122, R123, R150, R153, R245 to R250, R257, R259, R265, R270, R762; log entry 2). -/

namespace Sys2Proof.Machine

/-! ### The fields of a bundle (R245)

A reserved code is discarded with BAD_OP exactly as the empty operation with a reserved bit set is (R124, R152, R250, R271), and
reads as that. -/

/-- The forms of the scalar field (R248). -/
def regForm (w : Word) : RegForm := ⟨w.extractLsb' 9 4, w.extractLsb' 13 4, w.extractLsb' 17 4, w.extractLsb' 21 11⟩
def immForm (w : Word) : ImmForm := ⟨w.extractLsb' 9 4, w.extractLsb' 13 4, w.extractLsb' 17 15⟩
def wideForm (w : Word) : WideForm := ⟨w.extractLsb' 9 4, w.extractLsb' 13 16, w.extractLsb' 29 3⟩

/-- PRED and PNEG (R246, R248). -/
def issueOf (c : CoreId) (w : Word) : Issue := ⟨c, w.extractLsb' 0 2, w.getLsbD 2⟩

/-- The scalar field, by OP (R249). -/
def scalarField (i : Issue) (w : Word) : Instr :=
  let f := regForm w
  let m := immForm w
  match fld w 8 3 with
  | 0x00 => .snop i (w.extractLsb' 9 23)
  | 0x01 => .add i f
  | 0x02 => .sub i f
  | 0x03 => .and i f
  | 0x04 => .or i f
  | 0x05 => .xor i f
  | 0x06 => .shl i f
  | 0x07 => .shr i f
  | 0x08 => .sra i f
  | 0x09 => .mul i f
  | 0x0A => .slt i f
  | 0x0B => .sltu i f
  | 0x10 => .addi i m
  | 0x11 => .andi i m
  | 0x12 => .ori i m
  | 0x13 => .xori i m
  | 0x14 => .shli i m
  | 0x15 => .shri i m
  | 0x16 => .srai i m
  | 0x18 => .movl i (wideForm w)
  | 0x19 => .movh i (wideForm w)
  | 0x1A => .pcmp i f
  | 0x20 => .ld i m
  | 0x21 => .st i m
  | 0x22 => .rdr i m
  | 0x23 => .wrr i m
  | 0x28 => .jmp i m
  | 0x29 => .call i m
  | 0x2A => .jr i f
  | 0x2C => .loop i m
  | 0x30 => .wait i m
  | 0x31 => .done i (w.extractLsb' 9 23)
  | _ => .snop i (BitVec.allOnes 23)

/-- The matrix field, by OP (R122, R123). -/
def matrixField (i : Issue) (w : Word) : Instr :=
  let f : MatField := ⟨w.extractLsb' 5 3, w.extractLsb' 8 4, w.extractLsb' 12 4, w.extractLsb' 16 3, w.extractLsb' 19 1
    , w.extractLsb' 20 2, w.extractLsb' 22 1, w.extractLsb' 23 9⟩
  match fld w 4 0 with
  | 0x00 => .mnop i f
  | 0x01 => .mmac i f
  | 0x02 => .mload i f
  | 0x03 => .mzero i f
  | 0x04 => .mspill i f
  | 0x05 => .mfill i f
  | _ => .mnop i { f with rsv := BitVec.allOnes 9 }

/-- The vector field, by OP (R150, R153). -/
def vectorField (i : Issue) (w : Word) : Instr :=
  let f : VecField := ⟨w.extractLsb' 6 5, w.extractLsb' 11 6, w.extractLsb' 17 6, w.extractLsb' 23 3, w.extractLsb' 26 6⟩
  match fld w 5 0 with
  | 0x00 => .vnop i f
  | 0x01 => .vmov i f
  | 0x02 => .vadd i f
  | 0x03 => .vsub i f
  | 0x04 => .vmul i f
  | 0x05 => .vfma i f
  | 0x06 => .vmin i f
  | 0x07 => .vmax i f
  | 0x08 => .vabs i f
  | 0x09 => .vneg i f
  | 0x0A => .vsel i f
  | 0x0B => .vcmp i f
  | 0x0C => .vand i f
  | 0x0D => .vor i f
  | 0x0E => .vxor i f
  | 0x0F => .vshl i f
  | 0x10 => .vshr i f
  | 0x11 => .vcvt i f
  | 0x12 => .vtrn i f
  | 0x13 => .vstm i f
  | 0x18 => .vdiv i f
  | 0x19 => .vrcp i f
  | 0x1A => .vsqrt i f
  | 0x1B => .vrsqrt i f
  | 0x20 => .vexp i f
  | 0x21 => .vexp2 i f
  | 0x22 => .vlog i f
  | 0x23 => .vlog2 i f
  | 0x24 => .vtanh i f
  | 0x25 => .vsigm i f
  | 0x26 => .vgelu i f
  | 0x27 => .vsilu i f
  | 0x28 => .vsin i f
  | 0x29 => .vcos i f
  | 0x2C => .vrsum i f
  | 0x2D => .vrmax i f
  | 0x2E => .vrmin i f
  | 0x2F => .vcsum i f
  | 0x30 => .vcmax i f
  | 0x31 => .vcmin i f
  | 0x34 => .vcmpr i f
  | 0x35 => .vexpd i f
  | 0x38 => .vsmax i f
  | 0x39 => .vlnorm i f
  | 0x3A => .vrnorm i f
  | 0x3C => .vld i f
  | 0x3D => .vst i f
  | 0x3E => .vquant i f
  | _ => .vnop i { f with mod := BitVec.allOnes 6 }

/-- The move field, by OP (R270). -/
def moveField (i : Issue) (w : Word) : Instr :=
  let f : MoveField := ⟨w.extractLsb' 4 4, w.extractLsb' 8 2, w.extractLsb' 10 4, w.extractLsb' 14 3, w.extractLsb' 17 1
    , w.extractLsb' 18 2, w.extractLsb' 20 12⟩
  match fld w 3 0 with
  | 0x0 => .xnop i f
  | 0x1 => .xout i f
  | 0x2 => .xin i f
  | 0x3 => .xtok i f
  | 0x4 => .xstop i f
  | _ => .xnop i { f with rsv := BitVec.allOnes 12 }

/-- A bundle's four fields as commands, the scalar field last: with it the bundle ends (R14, R245). -/
def bundleFields (c : CoreId) (bytes : List Byte) : List Instr :=
  let w (n : Nat) : Word := wordOfBytes ((bytes.drop (4 * n)).take 4)
  let i := issueOf c (w 0)
  [matrixField i (w 1), vectorField i (w 2), moveField i (w 3), scalarField i (w 0)]

/-! ### One cycle -/

/-- A command's effect in the tick; a command that stops has none. -/
def tickDo (s : State) (c : Instr) : State :=
  match exec c s with
  | .next t => t
  | _ => s

/-- Whether a core that was launched issues a bundle in cycle `t` of device time: a barrier does not stop issue, a `done` does
(R253, R256, R280, R283). -/
def issuesIn (k : Core) (t : Nat) : Bool :=
  !k.idle && !k.inReset && k.openAt.isNone && decide (k.nextIssue ≤ t) && (match k.launchAt with
    | some l => decide (l ≤ t)
    | none => false)

/-- The bundle at a core's PC: from the row's copy that the core fetched (R762). -/
def fetchedBundle (k0 : Core) (t : Nat) : List Byte :=
  let k := settleCore k0 t
  (((mget? k.rows (k.pc / 128)).getD (spadBytes k.spad t (k.pc / 128 * 128) 128)).drop (k.pc % 128)).take 16

/-- A core issues its next bundle where one is due. -/
def tickIssue (s : State) (c : CoreId) : State :=
  let k := s.core c.val
  if issuesIn k s.now then (bundleFields c (fetchedBundle k s.now)).foldl tickDo s else s

/-- A core's slot-table entry where its cycle has come (R265). -/
def tickSlot (s : State) (c : CoreId) : State :=
  let k := s.core c.val
  match k.launchAt with
  | some l => if !k.awaiting && decide (l + k.sectNext ≤ s.now) then tickDo s (.slotEntryApply c) else s
  | none => s

/-- Items whose cycle has come are at their inputs (R259). -/
def tickWires (s : State) : State :=
  (s.wires.filter fun w => decide (w.due ≤ s.now)).foldl (fun a w =>
    if h : w.dest < 10752 then
      (let c : CoreId := ⟨w.dest, h⟩
       let i : Fin 4 := ⟨w.inp % 4, Nat.mod_lt _ (by decide)⟩
       let a1 := if w.flit.isSome then tickDo a (.flitArrival c i none) else a
       if w.tok.isSome then tickDo a1 (.tokenArrival c i none) else a1)
    else a) s

/-- The cores of a region where a section runs, each with a state of its own. -/
def singleOut (s : State) (l : Nat) : State :=
  let k := (s.region l).tmpl
  let cs := (List.range 256).map fun i => coreAt (16 * (l % 7) + i % 16) (16 * (l / 7) + i / 16)
  let put (m : Map Core) (c : Nat) : Map Core := if (mget? m c).isSome then m else mset m c k
  if issuesIn k s.now then { s with cores := cs.foldl put s.cores } else s

/-- The cores that have a state of their own. -/
def ownCores (s : State) : List CoreId :=
  s.cores.filterMap fun e => if h : e.1 < 10752 then some ⟨e.1, h⟩ else none

/-- A core's results that have come stand, and what their checks found is reported (R251, R139, R186, R230). -/
def tickSettle (s : State) (c : CoreId) : State := s.setCore c.val (settleCore (s.core c.val) s.now)

/-- One cycle of the clock: arrivals, results, slot-table entries, bundles, and the next cycle begins. -/
def tick (s : State) : State :=
  let s1 := tickWires ((s.regions.map Prod.fst).foldl singleOut s)
  let s2 := (ownCores s1).foldl tickSettle s1
  let s3 := (ownCores s2).foldl tickSlot s2
  let s4 := (ownCores s3).foldl tickIssue s3
  { s4 with now := max s4.now (s.now + 1) }

end Sys2Proof.Machine
end

