-- ==== Sys2Proof/Safety.lean ====
section
/-! DEFINITION. What counts as a safe step, and the terms in which the statements speak: the cycle and core in which a bundle's
field issues, and what a command leaves as it was. -/

namespace Sys2Proof.Machine

/-- The outcome is a next state. -/
def goesOn (o : Host.Outcome State Fault Refusal) : Prop := ∃ t, o = .next t

/-- The cycle in which a field of a bundle issues on a core, and the core as it stands there; none where the core issues nothing.
`used` says whether the open bundle has used the field already (R245, R246, log entry 1). -/
def fieldIssue (s : State) (c : Nat) (used : Core → Bool) : Option (Nat × Core) :=
  if (s.core c).idle then none
  else
    let o := openField (s.core c) s.now (used (s.core c))
    if o.2.idle then none else some o

/-- A core without what says where its issue stands (the bundle, the loop stack, the rows fetched) and without what leaves it. -/
def dataOf (k : Core) : Core :=
  { k with pc := 0, nextIssue := 0, openAt := none, usedM := false, usedV := false, usedX := false, idle := false, faultAt := none
           loops := [], fetches := [], outbox := [], check := false }

/-- Nothing but core c has changed: the other cores, the other regions, and every part of the device outside the cores; records
are only added, and time does not run back. -/
def onlyCore (c : Nat) (s t : State) : Prop :=
  (∀ d, d ≠ c → t.core d = s.core d) ∧ (∀ l, l ≠ regionOfCore c → t.region l = s.region l) ∧
  (∃ rs, t.records = s.records ++ rs) ∧ s.now ≤ t.now ∧
  { t with now := s.now, free := s.free, cores := s.cores, regions := s.regions, records := s.records } = s

/-! ### The scalar unit -/

/-- A scalar operation of core c turned `k` into `k2` and was discarded: flag b of `ctl.status` is set, DISCARDS is one higher up to its
limit, no other register of the core has changed, and nothing else of it but where its issue stands (R250, R760). -/
def scalarDiscarded (b : Nat) (k k2 : Core) : Prop :=
  bit (cReg k2 rCtlStatus) b = true ∧
  fld (cReg k2 rCtlStatus) 31 16 = min 65535 (fld (cReg k rCtlStatus) 31 16 + 1) ∧
  (∀ j, j < 16 → j ≠ b → bit (cReg k2 rCtlStatus) j = bit (cReg k rCtlStatus) j) ∧
  (∀ o, o ≠ rCtlStatus → cReg k2 o = cReg k o) ∧
  dataOf { k2 with regs := k.regs } = dataOf k

/-- A scalar result: nothing of the core has changed but where its issue stands and the results on their way; from cycle n + d on
register `dst` reads v where the bundle is enabled, g0 reads zero; every other register, and every register in earlier cycles, reads as
before (R247, R251). -/
def scalarResult (en : Bool) (dst n d : Nat) (v : PWord) (k k2 : Core) : Prop :=
  dataOf { k2 with pend := k.pend } = dataOf k ∧
  (en = true → dst ≠ 0 → gprAt k2 dst (n + d) = v) ∧
  (∀ u, gprAt k2 0 u = ⟨0#32, false⟩) ∧
  (∀ r u, (r ≠ dst ∨ u < n + d ∨ en = false) → gprAt k2 r u = gprAt k r u)

/-- A scalar command completes: where the field issues in cycle n on core `k`, it gives a next state in which only this core has
changed; with a bad field or a reserved PRED and PNEG it is discarded with BAD_OP, otherwise register `dst` gets v (R246 to R251). -/
def scalarGives (x : Instr) (i : Issue) (bad : Bool) (dst : Nat) (v : Core → Nat → PWord) : Prop :=
  ∀ (s : State) (n : Nat) (k : Core), fieldIssue s i.core.val (fun _ => false) = some (n, k) →
    ∃ t, exec x s = .next t ∧ onlyCore i.core.val s t ∧
      (bad = true ∨ predReserved i = true → scalarDiscarded 0 k (t.core i.core.val)) ∧
      (bad = false → predReserved i = false → scalarResult (enabledAt k i n) dst n 1 (v k n) k (t.core i.core.val))

/-- A register-form operation completes: DST = g SA SB (R248, R249). -/
def regFormGives (mk : Issue → RegForm → Instr) (g : Word → Word → Word) : Prop :=
  ∀ (i : Issue) (f : RegForm), scalarGives (mk i f) i (f.rsv != 0#11) f.dst.toNat fun k n =>
    ⟨g (gprAt k f.sa.toNat n).val (gprAt k f.sb.toNat n).val, (gprAt k f.sa.toNat n).bad || (gprAt k f.sb.toNat n).bad⟩

/-- An immediate-form operation completes: DST = g SA sext(IMM) (R248, R249). -/
def immFormGives (mk : Issue → ImmForm → Instr) (g : Word → Word → Word) : Prop :=
  ∀ (i : Issue) (f : ImmForm), scalarGives (mk i f) i false f.dst.toNat fun k n =>
    ⟨g (gprAt k f.sa.toNat n).val (f.imm.signExtend 32), (gprAt k f.sa.toNat n).bad⟩

/-- A scalar command that stands at a given core and cycle completes: a next state in which only this core has changed and `post` holds
of the core before and after; with a bad field or a reserved PRED and PNEG it is discarded with BAD_OP. -/
def scalarActs (x : Instr) (i : Issue) (bad : Bool) (post : Nat → Core → Core → Prop) : Prop :=
  ∀ (s : State) (n : Nat) (k : Core), fieldIssue s i.core.val (fun _ => false) = some (n, k) →
    ∃ t, exec x s = .next t ∧ onlyCore i.core.val s t ∧
      (bad = true ∨ predReserved i = true → scalarDiscarded 0 k (t.core i.core.val)) ∧
      (bad = false → predReserved i = false → post n k (t.core i.core.val))

/-- SA + sext(IMM) as a number, read in cycle n. -/
def effAddr (k : Core) (f : ImmForm) (n : Nat) : Nat := ((gprAt k f.sa.toNat n).val + f.imm.signExtend 32).toNat

/-- What R252 asks of the address of a `ld` or `st`, and of the place of its bundle. -/
def memAddrOk (k : Core) (a : Nat) : Prop := a % 4 = 0 ∧ a < 0x300000 ∧ k.pc % 128 ≠ 0x70

/-- A core but for what a read of the scratchpad may note: registers, and records of the service engine. -/
def dataButNotes (k k2 : Core) : Prop := dataOf { k2 with regs := k.regs, recs := k.recs, lastRec := k.lastRec } = dataOf k

/-- Issue goes on in sequence in cycle n + 1: PC + 16, the next iteration of a loop body, or what follows its last (R254). -/
def goesOnInSequence (k k2 : Core) : Prop := k2.pc = (seqNext k.pc k.loops).1 % 4194304 ∧ k2.loops = (seqNext k.pc k.loops).2.1

/-! ### Registers -/

/-- The stored word of a register of a space. -/
def storedReg (s : State) (tgt : RegTarget) (off : Nat) : Word :=
  match tgt with
  | .core c => cReg (s.core c.val) off
  | .router r => nReg (s.router r.val) off
  | .stack n => kReg (s.stack n.val) off
  | .window => wReg s off
  | .sideband => sbReg s off

/-- The same, with every result that has come by now in its place. -/
def storedNow (s : State) (tgt : RegTarget) (off : Nat) : Word :=
  match tgt with
  | .core c => cReg (s.coreNow c.val) off
  | _ => storedReg s tgt off

/-- The register table of a space. -/
def regTable : RegTarget → List RegDef
  | .core _ => coreRegs
  | .router _ => routerRegs
  | .stack _ => stackRegs
  | .window => windowRegs
  | .sideband => sidebandRegs

/-- Registers that hold what they show and start nothing when they are written: arithmetic, health and descriptor registers of a core,
registers of a router but its identity and depths, the ownership table of a stack, the power block, the sideband's mask and equaliser
registers. -/
def plainOff (tgt : RegTarget) (off : Nat) : Prop :=
  match tgt with
  | .core _ => off < 0x600 ∨ (0x800 ≤ off ∧ off < 0x900) ∨ (0x1000 ≤ off ∧ off < 0x1100) ∨ (0x1200 ≤ off ∧ off < 0x1220)
  | .router _ => off ≠ 0 ∧ off % 0x20 ≠ 0xC
  | .stack _ => 0x100 ≤ off
  | .window => 0x30000 ≤ off ∧ off < 0x31000
  | .sideband => off = 0xC ∨ (0x40 ≤ off ∧ off < 0x60)

/-- No shadow of the upper half of a 64-bit quantity stands for this offset (R21). -/
def noShadow (s : State) (tgt : RegTarget) (off : Nat) : Prop :=
  match tgt with
  | .core c => mget? (s.coreNow c.val).shadow off = none
  | .stack n => mget? (s.stack n.val).shadow off = none
  | .window => mget? s.winShadow off = none
  | _ => True

/-- The rows of a table name aligned words only. -/
def tableAligned (t : List RegDef) : Bool := t.all fun r => r.base % 4 == 0 && r.dims.all fun d => d.2 % 4 == 0

/-- Scalar, matrix and vector results of a core that have come by cycle t are in their place. -/
def resultsStand (k : Core) (t : Nat) : Prop :=
  (∀ p ∈ k.pend, t < p.due) ∧ (∀ o ∈ k.mops, t < o.result) ∧ (∀ v ∈ k.vops, t < v.due)

/-- A command that stands for a result's cycle: with a result on its way, time reaches the earliest of their cycles and every result due
by then stands; with none, nothing changes. -/
def resultComes (x : Instr) (c : Nat) (due : Core → List Nat) : Prop :=
  ∀ s : State, ∃ t, exec x s = .next t ∧ onlyCore c s t ∧
    (due (s.core c) = [] → t = s) ∧
    (due (s.core c) ≠ [] → ∃ d ∈ due (s.core c), (∀ e ∈ due (s.core c), d ≤ e) ∧ t.now = max s.now d ∧ resultsStand (t.core c) t.now)

/-! ### The matrix and vector units -/

/-- An operation was discarded: flag b of the unit's status register `off` is set, DISCARDS is one higher up to its limit, no other
register of the core has changed, and nothing else of it (R129, R184, R266, R756, R758). -/
def unitDiscarded (off b : Nat) (k k2 : Core) : Prop :=
  bit (cReg k2 off) b = true ∧
  fld (cReg k2 off) 31 16 = min 65535 (fld (cReg k off) 31 16 + 1) ∧
  (∀ j, j < 16 → j ≠ b → bit (cReg k2 off) j = bit (cReg k off) j) ∧
  (∀ o, o ≠ off → cReg k2 o = cReg k o) ∧
  dataOf { k2 with regs := k.regs } = dataOf k

/-- A command of a field completes: where the field issues in cycle n on core `k`, it gives a next state in which only this core has
changed, and `post` holds of the core before and after. -/
def fieldActs (x : Instr) (i : Issue) (used : Core → Bool) (post : State → Nat → Core → Core → Prop) : Prop :=
  ∀ (s : State) (n : Nat) (k : Core), fieldIssue s i.core.val used = some (n, k) →
    ∃ t, exec x s = .next t ∧ onlyCore i.core.val s t ∧ post s n k (t.core i.core.val)

/-- A matrix operation that is discarded for its first cause, in the order of R756, or else joins the core's operations with the
result cycle `due`; `post` says what else an accepted one does (R123 to R129). -/
def matrixActs (x : Issue → MatField → Instr) (kind : MatKind) (post : Issue → MatField → State → Nat → Core → MatOp → Core → Prop) : Prop :=
  ∀ (i : Issue) (f : MatField), fieldActs (x i f) i Core.usedM fun s n k k2 =>
    (∀ flag, matJudge { k with usedM := true } kind f n = some flag → ∃ b, b < 5 ∧ flag = BitVec.ofNat 32 (2 ^ b) ∧ unitDiscarded rMtxStatus b k k2) ∧
    (matJudge { k with usedM := true } kind f n = none → ∃ op, k2.mops = k.mops ++ [op] ∧ op.kind = kind ∧ op.enabled = enabledAt k i n ∧
      op.tgt = f.tgt.toNat ∧ op.issue = n ∧ op.applied = false ∧ k2.acc = k.acc ∧ k2.regs = k.regs ∧ k2.tiles = k.tiles ∧
      post i f s n k op k2)

/-- Every accumulator tile holds 256 elements. -/
def tilesWhole (k : Core) : Prop := ∀ a, (mgetD k.acc a blankTile).length = 256

/-- The core as a vector operation issued in cycle n reads it (R185). -/
def vecView (k : Core) (n : Nat) : Core := settleCore { k with usedV := true } (n + 1)

/-- Source j of a vector operation issued in cycle n: the tile that selector `sel` gives in cycle n + 1 (R146, R185). -/
def vecSrc (s : State) (k : Core) (n j sel e : Nat) : PWord :=
  (sourceTile (vecView k n) (s.free + 256 * j) (n + 1) sel).getD e ⟨0#32, false⟩

/-- The mask an operation reads (R165, R185). -/
def vecActive (k : Core) (n m e : Nat) : Bool := (maskOf (vecView k n) m).getLsbD e

/-- A vector operation that is discarded for a bad operation or format or descriptor, or BUSY where its unit takes none, or else is
accepted: its unit is taken for `occ` cycles, and `post` holds (R152, R182 to R184, R758). -/
def vectorActs (x : Instr) (i : Issue) (judge : Core → Option Word) (unit occ : Nat) (post : State → Nat → Core → Core → Prop) : Prop :=
  fieldActs x i Core.usedV fun s n k k2 =>
    (∀ flag, judge k = some flag → ∃ b, b < 4 ∧ flag = BitVec.ofNat 32 (2 ^ b) ∧ unitDiscarded rVecStatus b k k2) ∧
    (judge k = none → n < mgetD k.unitFree unit 0 → unitDiscarded rVecStatus 0 k k2) ∧
    (judge k = none → mgetD k.unitFree unit 0 ≤ n → mgetD k2.unitFree unit 0 = n + occ ∧ post s n k k2)

/-- An enabled operation puts one result on its way, due in cycle n + lat; one that is not enabled puts none; nothing else of the core
changes (R186, R247). -/
def vecResult (i : Issue) (lat : Nat) (what : State → Nat → Core → VecRes → Prop) (s : State) (n : Nat) (k k2 : Core) : Prop :=
  dataOf { k2 with vops := k.vops, unitFree := k.unitFree } = dataOf k ∧
  (enabledAt k i n = false → k2.vops = k.vops) ∧
  (enabledAt k i n = true → ∃ r, k2.vops = vecInsert k.vops r ∧ r.issue = n ∧ r.due = n + lat ∧ what s n k r)

/-- A result that writes one tile: element e is `val e`, or is not written. -/
def oneTile (dst : Nat) (val : Nat → Option PWord) (r : VecRes) : Prop :=
  ∃ el, r.tiles = [(dst, el)] ∧ el.length = 256 ∧ ∀ e, e < 256 → el.getD e none = val e

/-- An elementwise operation of one source: every active element is g of the source's (R153, R165). -/
def unaryGives (mk : Issue → VecField → Instr) (mod : BitVec 6) (occ lat : Nat) (g : VecField → Word → Word) : Prop :=
  ∀ (i : Issue) (f : VecField), vectorActs (mk i f) i (fun _ => if vecFieldOk (useUnary mod) f then none else some vBadOp) 0 occ
    (vecResult i lat fun s n k r => oneTile f.dst.toNat (fun e =>
      if vecActive k n f.msk.toNat e then some ⟨g f (vecSrc s k n 0 f.sa.toNat e).val, (vecSrc s k n 0 f.sa.toNat e).bad⟩ else none) r)

/-- The same for two sources. -/
def binaryGives (mk : Issue → VecField → Instr) (mod : BitVec 6) (occ lat : Nat) (g : VecField → Word → Word → Word) : Prop :=
  ∀ (i : Issue) (f : VecField), vectorActs (mk i f) i (fun _ => if vecFieldOk (useBinary mod) f then none else some vBadOp) 0 occ
    (vecResult i lat fun s n k r => oneTile f.dst.toNat (fun e =>
      if vecActive k n f.msk.toNat e then
        some ⟨g f (vecSrc s k n 0 f.sa.toNat e).val (vecSrc s k n 1 f.sb.toNat e).val,
          (vecSrc s k n 0 f.sa.toNat e).bad || (vecSrc s k n 1 f.sb.toNat e).bad⟩
      else none) r)

/-- A number clamped to INT32 (R156). -/
def clampI32 (z : Int) : Word := BitVec.ofInt 32 (max (-2147483648) (min 2147483647 z))

/-- The bytes that 16 rows of a store put in the scratchpad: byte b of row i reads as given in every cycle from `first` on, where no
other write to the bytes of the rows is on its way, and bytes outside the rows read as before in every cycle (R177, R179, R210). -/
def rowsStored (en : Bool) (first base stride rb : Nat) (val : Nat → Nat → Byte) (k k2 : Core) : Prop :=
  (en = false → k2.spad = k.spad) ∧
  (en = true → (∀ w ∈ k.spad.log, ∀ i b, i < 16 → b < rb → w.covers (base + i * stride + b) = false) →
    ∀ i b cyc, i < 16 → b < rb → first ≤ cyc → spadByte k2.spad cyc (base + i * stride + b) = val i b)

/-! ### The fabric -/

/-- A move operation was discarded: flag b of `fab.status` is set, and nothing else of the core has changed (R271). -/
def moveDiscarded (b : Nat) (k k2 : Core) : Prop :=
  bit (cReg k2 rFabStatus) b = true ∧ (∀ j, j ≠ b → bit (cReg k2 rFabStatus) j = bit (cReg k rFabStatus) j) ∧
  (∀ o, o ≠ rFabStatus → cReg k2 o = cReg k o) ∧ dataOf { k2 with regs := k.regs } = dataOf k

/-- A flit at an input of a router: discarded and counted where the router awaits its launch or the flit's epoch is another, lost with
QOVF where 16 flits wait, else the last of its queue (R260, R281). -/
def flitArrives (inp : Nat) (f : Flit) (k k2 : Core) : Prop :=
  (k.awaiting = true ∨ f.epoch ≠ epochTag k →
    k2.flitQ = k.flitQ ∧ fld (cReg k2 rFabStale) 15 0 = min 65535 (fld (cReg k rFabStale) 15 0 + 1)) ∧
  (k.awaiting = false → f.epoch = epochTag k → 16 ≤ (mgetD k.flitQ inp []).length →
    k2.flitQ = k.flitQ ∧ bit (cReg k2 rFabStatus) 1 = true) ∧
  (k.awaiting = false → f.epoch = epochTag k → (mgetD k.flitQ inp []).length < 16 →
    k2.regs = k.regs ∧ mgetD k2.flitQ inp [] = mgetD k.flitQ inp [] ++ [f] ∧ ∀ i, i ≠ inp → mgetD k2.flitQ i [] = mgetD k.flitQ i [])

/-- The same for a token; one of KIND none is no token (R260, R275, R281). -/
def tokenArrives (inp : Nat) (w : Word) (k k2 : Core) : Prop :=
  (tokKind w = 0 → k2.tokQ = k.tokQ ∧ k2.regs = k.regs) ∧
  (tokKind w ≠ 0 → k.awaiting = true ∨ tokEpoch w ≠ epochTag k →
    k2.tokQ = k.tokQ ∧ fld (cReg k2 rFabStale) 31 16 = min 65535 (fld (cReg k rFabStale) 31 16 + 1)) ∧
  (tokKind w ≠ 0 → k.awaiting = false → tokEpoch w = epochTag k → 16 ≤ (mgetD k.tokQ inp []).length →
    k2.tokQ = k.tokQ ∧ bit (cReg k2 rFabStatus) 1 = true) ∧
  (tokKind w ≠ 0 → k.awaiting = false → tokEpoch w = epochTag k → (mgetD k.tokQ inp []).length < 16 →
    k2.regs = k.regs ∧ mgetD k2.tokQ inp [] = mgetD k.tokQ inp [] ++ [w] ∧ ∀ i, i ≠ inp → mgetD k2.tokQ i [] = mgetD k.tokQ i [])

/-- A scratchpad whose bytes stand in canonical form and whose writes on their way stand in commit order (R216). -/
def spadOk (sp : Spad) : Prop := cellsWf sp.base = true ∧ sp.log.Pairwise fun a b => a.commit ≤ b.commit

/-! ### Whole commands -/

/-- A command completes, and `post` holds of the state it gives. -/
def leads (x : Instr) (s : State) (post : State → Prop) : Prop := ∃ t, exec x s = .next t ∧ post t

/-- The command is the named next booked launch of a partition: no launch of it is booked for an earlier time. -/
def nextLaunch (s : State) (part time : Nat) : Prop :=
  (∃ e ∈ s.tmb.events, e.kind = .launch (BitVec.ofNat 12 part) ∧ e.time = time) ∧
  ∀ e ∈ s.tmb.events, e.kind = .launch (BitVec.ofNat 12 part) → time ≤ e.time

/-- A field of a register of a core counts one more, up to its limit. -/
def countsOne (k k2 : Core) (off hi lo : Nat) : Prop := fld (cReg k2 off) hi lo = min (2 ^ (hi + 1 - lo) - 1) (fld (cReg k off) hi lo + 1)

/-- The bytes of one write through the service client: they read as written once the write has passed the scratchpad, where no other write
to them is on its way (R211, R214). -/
def bytesStored (t : Nat) (addr : Nat) (bytes : List Byte) (k k2 : Core) : Prop :=
  ∀ i cyc, i < bytes.length → t + latency k ≤ cyc → (∀ w ∈ k.spad.log, w.covers (addr + i) = false) →
    spadByte k2.spad cyc (addr + i) = bytes.getD i 0#8

/-- A request packet reaches core c: its header check holds, it names the core, and its destination router passes it (R346, R347, R358). -/
def reachesCore (s : State) (p : Packet) (c : Nat) : Prop :=
  hcrcOk p = true ∧ p.dkind = 0#2 ∧ destCheck (s.takeNet p) p = none ∧ c = coreAt p.lx.toNat p.ly.toNat

/-- The packet is off the network, and one answer with this status is on it. -/
def answered (p : Packet) (status : Nat) (s t : State) : Prop := t.net = (s.takeNet p).net ++ refuse p status

/-- A response reaches core c. -/
def answersCore (p : Packet) (c : CoreId) : Prop := hcrcOk p = true ∧ p.dkind = 0#2 ∧ p.lx.toNat < 112 ∧ c.val = coreAt p.lx.toNat p.ly.toNat

/-- A request to a stack waits out the refresh of its channel (R379, R388, R424). -/
def takenAt (s : State) (st off : Nat) : Nat := max s.now (channelFree (s.stack st) (blockChannel (off / 64)) s.now)

/-- Nothing of a stack but its stream contexts and the requests of its streams differs. -/
def onlyContexts (k k2 : Stack) : Prop := { k2 with ctxs := k.ctxs, reqs := k.reqs, nextTag := k.nextTag } = k

/-! ### The window -/

/-- A field of a register of the window counts n more, up to its limit. -/
def winCounts (s t : State) (off hi lo n : Nat) : Prop :=
  fld (wReg t off) hi lo = min (2 ^ (hi + 1 - lo) - 1) (fld (wReg s off) hi lo + n)

/-- Nothing but registers of the window differs. -/
def onlyWin (s t : State) : Prop := { t with win := s.win } = s

/-! ### The mailbox -/

/-- A record of a ring that the heartwood can start: the first in flight at its position, of this code, not begun, and not held back by its
FENCE bit (R506). -/
def cmdStands (s : State) (r : Nat) (pos : Word) (code : Nat) (k : Ring) (ws : List Word) : Prop :=
  s.ring r = some k ∧ ∃ f, k.flight.find? (fun f => f.pos == pos.toNat) = some f ∧ f.words = ws ∧ f.begun = false ∧ f.done = none ∧
    fld (arg ws 0) 15 0 = code ∧ (fenceBit ws = false ∨ k.flight.head?.map Flight.pos = some f.pos)

/-- No record at this position waits to be started as one of this code. -/
def cmdIdle (s : State) (r : Nat) (pos : Word) (code : Nat) : Prop :=
  ∀ k, s.ring r = some k → ∀ f ∈ k.flight, f.pos = pos.toNat → f.begun = true ∨ f.done ≠ none ∨ fld (arg f.words 0) 15 0 ≠ code

/-- The record is done: its status, handle and result words satisfy `post`, and its completion is owed (R503). -/
def cmdDone (t : State) (r pos : Nat) (post : Nat → Word → List Word → Prop) : Prop :=
  ∃ k f d, t.ring r = some k ∧ f ∈ k.flight ∧ f.pos = pos ∧ f.begun = true ∧ f.done = some d ∧ post d.1 d.2.1 d.2.2

/-- A row of the mailbox: where no record stands for it, nothing happens; one with a reserved bit of word 0 set ends with BAD_ARG; one that
meets `own` leads to a state in which `post` holds (R497, R506, R512). -/
def mbxLeads (x : Instr) (r : Nat) (pos : Word) (code : Nat) (sel : List Word → Bool) (own : State → Ring → List Word → Prop)
    (post : State → Ring → List Word → State → Prop) : Prop :=
  ∀ s, (cmdIdle s r pos code → exec x s = .next s) ∧ ∀ k ws, cmdStands s r pos code k ws → sel ws = true →
    (badWord0 ws = true → leads x s fun t => cmdDone t r pos.toNat fun st _ _ => st = csBadArg) ∧
    (badWord0 ws = false → own s k ws → leads x s (post s k ws))

/-- The same for a record that is done at once. -/
def mbxRow (x : Instr) (r : Nat) (pos : Word) (code : Nat) (sel : List Word → Bool) (own : State → Ring → List Word → Prop)
    (res : State → Ring → List Word → State → Nat → Word → List Word → Prop) : Prop :=
  mbxLeads x r pos code sel own fun s k ws t => cmdDone t r pos.toNat (res s k ws t)

/-- Every record of the code. -/
def anyRec (_ : List Word) : Bool := true

/-- A handle that its check passes, and an object in a ring's scope (R493, R496). -/
def hOk (s : State) (ty : Nat) (w : Word) : Prop := handleCheck s ty w = csOk
def inScope (k : Ring) (p : Nat) : Prop := k.part = 0 ∨ k.part = p

/-- The generation that follows (R492). -/
def genNext (g : Nat) : Nat := if g = 255 then 1 else g + 1

/-! ### Bring-up -/

/-- The latest step has ended with a cause, 0 for none: STATE is DONE or FAILED (R679, R695). -/
def stepEnds (t : State) (cause : Nat) : Prop :=
  fld (wReg t 8) 6 4 = (if cause = 0 then 2 else 3) ∧ fld (wReg t 8) 23 16 = cause

/-- Step k runs, within its bound (R679). -/
def stepGoes (s : State) (k : Nat) : Prop := stepRuns s k = true ∧ s.now ≤ stepDue s

/-- A command that step k is: nothing where that step does not run, the end with TIMEOUT past its bound (R679). -/
def stepGuards (x : Instr) (k : Nat) : Prop :=
  ∀ s, (stepRuns s k = false → exec x s = .next s) ∧ (stepRuns s k = true → stepDue s < s.now → leads x s fun t => onlyWin s t ∧ stepEnds t 1)

/-- A bring-up request that is outstanding on a port which answers (R463, R464, R751). -/
def asked (s : State) (p : Nat) (src : Word) (reads : Bool) : Prop :=
  (∃ e ∈ (s.port p).brup, e.1 = src.toNat) ∧ (portState s p = poQuiet ∨ portState s p = poUp) ∧ (reads = true ∨ rstHeld s = false)

/-- The reply: its status, XID and body; the request is outstanding no more (R464, R672). -/
def repliedWith (t : State) (p : Nat) (src xid : Word) (status : Nat) (body : List Word) : Prop :=
  t.reply = some ⟨status, xid :: body⟩ ∧ ∀ e ∈ (t.port p).brup, e.1 ≠ src.toNat

/-! ### Fields -/

/-- The core that a field of a bundle issues on; a write of a register, which may send packets, aside. -/
def fieldCore : Instr → Option CoreId
  | .snop i _ => some i.core
  | .add i _ => some i.core
  | .sub i _ => some i.core
  | .and i _ => some i.core
  | .or i _ => some i.core
  | .xor i _ => some i.core
  | .shl i _ => some i.core
  | .shr i _ => some i.core
  | .sra i _ => some i.core
  | .mul i _ => some i.core
  | .slt i _ => some i.core
  | .sltu i _ => some i.core
  | .addi i _ => some i.core
  | .andi i _ => some i.core
  | .ori i _ => some i.core
  | .xori i _ => some i.core
  | .shli i _ => some i.core
  | .shri i _ => some i.core
  | .srai i _ => some i.core
  | .movl i _ => some i.core
  | .movh i _ => some i.core
  | .pcmp i _ => some i.core
  | .ld i _ => some i.core
  | .st i _ => some i.core
  | .rdr i _ => some i.core
  | .jmp i _ => some i.core
  | .call i _ => some i.core
  | .jr i _ => some i.core
  | .loop i _ => some i.core
  | .wait i _ => some i.core
  | .done i _ => some i.core
  | .mnop i _ => some i.core
  | .mmac i _ => some i.core
  | .mload i _ => some i.core
  | .mzero i _ => some i.core
  | .mspill i _ => some i.core
  | .mfill i _ => some i.core
  | .vnop i _ => some i.core
  | .vmov i _ => some i.core
  | .vadd i _ => some i.core
  | .vsub i _ => some i.core
  | .vmul i _ => some i.core
  | .vfma i _ => some i.core
  | .vmin i _ => some i.core
  | .vmax i _ => some i.core
  | .vabs i _ => some i.core
  | .vneg i _ => some i.core
  | .vsel i _ => some i.core
  | .vcmp i _ => some i.core
  | .vand i _ => some i.core
  | .vor i _ => some i.core
  | .vxor i _ => some i.core
  | .vshl i _ => some i.core
  | .vshr i _ => some i.core
  | .vcvt i _ => some i.core
  | .vtrn i _ => some i.core
  | .vstm i _ => some i.core
  | .vdiv i _ => some i.core
  | .vrcp i _ => some i.core
  | .vsqrt i _ => some i.core
  | .vrsqrt i _ => some i.core
  | .vexp i _ => some i.core
  | .vexp2 i _ => some i.core
  | .vlog i _ => some i.core
  | .vlog2 i _ => some i.core
  | .vtanh i _ => some i.core
  | .vsigm i _ => some i.core
  | .vgelu i _ => some i.core
  | .vsilu i _ => some i.core
  | .vsin i _ => some i.core
  | .vcos i _ => some i.core
  | .vrsum i _ => some i.core
  | .vrmax i _ => some i.core
  | .vrmin i _ => some i.core
  | .vcsum i _ => some i.core
  | .vcmax i _ => some i.core
  | .vcmin i _ => some i.core
  | .vcmpr i _ => some i.core
  | .vexpd i _ => some i.core
  | .vsmax i _ => some i.core
  | .vlnorm i _ => some i.core
  | .vrnorm i _ => some i.core
  | .vld i _ => some i.core
  | .vst i _ => some i.core
  | .vquant i _ => some i.core
  | .xnop i _ => some i.core
  | .xout i _ => some i.core
  | .xin i _ => some i.core
  | .xtok i _ => some i.core
  | .xstop i _ => some i.core
  | _ => none

end Sys2Proof.Machine
end

