-- ==== Sys2Proof/Certificates/Slice0/Obligations.lean ====
section
/-! DEFINITION. The statements for the provers. Choices of the model that they rest on: the cycle to which a command moves `now` (log entry 1),
a command that needs no earlier one (log entry 3), `reply` as what the requester sees (log entry 11), and the readings that log entries 17 to 39
name for each part of the spec. -/

open Sys2Proof Sys2Proof.Machine

/-- A step runs the command at the front of the queue on the state with the queue's rest. -/
def Obligations.StepTakesFront : Prop :=
  ∀ (c : Instr) (rest : List Instr) (s : State), s.pending = c :: rest → step s = exec c { s with pending := rest }

/-- A step takes the front command off the queue and leaves the rest as it is; with no command waiting, none appears. -/
def Obligations.StepPopsQueue : Prop :=
  ∀ s t : State, step s = .next t → t.pending = s.pending.tail

/-- Device time never goes back: no step but that of an ENABLE, with which the root PLL and device time start, answers a state with an
earlier device time (R430). -/
def Obligations.TimeNeverGoesBack : Prop :=
  ∀ s t : State, step s = .next t →
    (∀ broken mated slot rest, s.pending = .enable broken mated slot :: rest → s.mod.enabled = true) → s.now ≤ t.now

/-- The register-form operations of R249 complete with their result, readable from the next cycle, and change nothing else. The
immediate-form operations of R249 complete with their result. `movl` gives IMM16 zero-extended, `movh` replaces bits [31:16] and keeps
[15:0], `pcmp` sets predicate DST [10:9] to SA COND SB and is discarded for predicate 0; `snop` with a zero field leaves every register as
it was (R249, R250). -/
def Obligations.ArithmeticGivesResult : Prop :=
  (
  regFormGives .add (fun a b => a + b) ∧ regFormGives .sub (fun a b => a - b) ∧ regFormGives .and (fun a b => a &&& b) ∧
  regFormGives .or (fun a b => a ||| b) ∧ regFormGives .xor (fun a b => a ^^^ b) ∧
  regFormGives .shl (fun a b => a <<< (b.toNat % 32)) ∧ regFormGives .shr (fun a b => a >>> (b.toNat % 32)) ∧
  regFormGives .sra (fun a b => a.sshiftRight (b.toNat % 32)) ∧ regFormGives .mul (fun a b => BitVec.ofNat 32 (a.toNat * b.toNat)) ∧
  regFormGives .slt (fun a b => if a.toInt < b.toInt then 1#32 else 0#32) ∧
  regFormGives .sltu (fun a b => if a.toNat < b.toNat then 1#32 else 0#32)) ∧
  (
  immFormGives .addi (fun a b => a + b) ∧ immFormGives .andi (fun a b => a &&& b) ∧ immFormGives .ori (fun a b => a ||| b) ∧
  immFormGives .xori (fun a b => a ^^^ b) ∧ immFormGives .shli (fun a b => a <<< (b.toNat % 32)) ∧
  immFormGives .shri (fun a b => a >>> (b.toNat % 32)) ∧ immFormGives .srai (fun a b => a.sshiftRight (b.toNat % 32))) ∧
  (
  (∀ (i : Issue) (f : WideForm), scalarGives (.movl i f) i (f.rsv != 0#3) f.dst.toNat fun _ _ =>
    ⟨BitVec.ofNat 32 f.imm.toNat, false⟩) ∧
  (∀ (i : Issue) (f : WideForm), scalarGives (.movh i f) i (f.rsv != 0#3) f.dst.toNat fun k n =>
    ⟨f.imm ++ (gprAt k f.dst.toNat n).val.extractLsb' 0 16, (gprAt k f.dst.toNat n).bad⟩) ∧
  (∀ (i : Issue) (f : RegForm), scalarGives (.pcmp i f) i (f.rsv != 0#11 || f.dst.toNat % 4 == 0) (16 + f.dst.toNat % 4) fun k n =>
    let a := (gprAt k f.sa.toNat n).val
    let b := (gprAt k f.sb.toNat n).val
    ⟨if (f.dst.toNat / 4 = 0 ∧ a = b) ∨ (f.dst.toNat / 4 = 1 ∧ a ≠ b) ∨ (f.dst.toNat / 4 = 2 ∧ a.toInt < b.toInt) ∨
        (f.dst.toNat / 4 = 3 ∧ b.toInt ≤ a.toInt) then 1#32 else 0#32,
      (gprAt k f.sa.toNat n).bad || (gprAt k f.sb.toNat n).bad⟩) ∧
  (∀ (i : Issue) (rsv : BitVec 23), scalarGives (.snop i rsv) i (rsv != 0#23) 0 fun _ _ => ⟨0#32, false⟩))

/-- `ld` gives the word that a read in port cycle n + 1 finds, from cycle n + 1 + L on, and changes no byte of the scratchpad; `st` changes
its four bytes for reads after cycle n + L, where no other write to them is on its way, and no other byte; a bad address, or a bundle at
offset 0x70 of its row, is discarded with BAD_ADDR (R247, R249 to R252). -/
def Obligations.LoadAndStoreAct : Prop :=
  (∀ (i : Issue) (f : ImmForm), scalarActs (.ld i f) i false fun n k k2 =>
    let a := effAddr k f n
    (memAddrOk k a → dataButNotes k { k2 with pend := k.pend } ∧ goesOnInSequence k k2 ∧ k2.spad = k.spad ∧
      (enabledAt k i n = true → f.dst ≠ 0 → gprAt k2 f.dst.toNat (n + 1 + latency k) = spadWord k.spad (n + 1) a) ∧
      (∀ r u, (r ≠ f.dst.toNat ∨ u < n + 1 + latency k ∨ enabledAt k i n = false) → gprAt k2 r u = gprAt k r u)) ∧
    (¬ memAddrOk k a → scalarDiscarded 1 k k2)) ∧
  (∀ (i : Issue) (f : ImmForm), scalarActs (.st i f) i false fun n k k2 =>
    let a := effAddr k f n
    (memAddrOk k a → dataOf { k2 with spad := k.spad } = dataOf k ∧ goesOnInSequence k k2 ∧
      (enabledAt k i n = false → k2.spad = k.spad) ∧
      (∀ cyc x, (x < a ∨ a + 4 ≤ x ∨ cyc ≤ n + latency k) → spadByte k2.spad cyc x = spadByte k.spad cyc x) ∧
      (enabledAt k i n = true → ∀ cyc j, j < 4 → n + latency k < cyc → (∀ w ∈ k.spad.log, w.covers (a + j) = false) →
        spadByte k2.spad cyc (a + j) = (gprAt k f.dst.toNat n).val.extractLsb' (8 * j) 8)) ∧
    (¬ memAddrOk k a → scalarDiscarded 1 k k2))

/-- `jmp` and `call` reach PC + 16 * IMM modulo 2^22, `jr` reaches SA, each in cycle n + L + 2 where the bundle is enabled; otherwise issue
goes on in sequence, in that cycle too; `call` writes its return address to g15; a `jr` to an address that is not aligned or lies beyond the
scratchpad, and any other target there, stops the core (R247, R249, R253, R255, R257). `loop` pushes a level over the IMM bundles that
follow, or with a count of zero goes on after them in cycle n + L + 2; `wait` delays the next bundle to cycle n + 1 + IMM; `done` stops
issue and sets DONE; they act as if enabled; a `loop` that R255 refuses is discarded with LOOP (R247, R250, R254 to R256). -/
def Obligations.ControlFlowActs : Prop :=
  (
  let jumps (n : Nat) (en bad : Bool) (target : Nat) (k k2 : Core) : Prop :=
    k2.nextIssue = n + latency k + 2 ∧
    (en = true → k2.pc = target % 4194304 ∧ (k2.idle = true ↔ bad = true ∨ 0x300000 ≤ target % 4194304)) ∧
    (en = false → goesOnInSequence k k2)
  (∀ (i : Issue) (f : ImmForm), scalarActs (.jmp i f) i false fun n k k2 =>
    jumps n (enabledAt k i n) false (k.pc + 16 * (f.imm.signExtend 32).toNat) k k2 ∧ dataOf k2 = dataOf k) ∧
  (∀ (i : Issue) (f : ImmForm), scalarActs (.call i f) i false fun n k k2 =>
    jumps n (enabledAt k i n) false (k.pc + 16 * (f.imm.signExtend 32).toNat) k k2 ∧
    scalarResult (enabledAt k i n) 15 n 1 ⟨BitVec.ofNat 32 (k.pc + 16), false⟩ k k2) ∧
  (∀ (i : Issue) (f : RegForm), scalarActs (.jr i f) i (f.rsv != 0#11) fun n k k2 =>
    let a := (gprAt k f.sa.toNat n).val.toNat
    jumps n (enabledAt k i n) (decide (a % 16 ≠ 0 ∨ 0x300000 ≤ a)) a k k2 ∧ dataOf k2 = dataOf k)) ∧
  (
  (∀ (i : Issue) (f : ImmForm), scalarActs (.loop i f) i false fun n k k2 =>
    let m := f.imm.toNat
    let cnt := (gprAt k f.sa.toNat n).val.toNat
    let bad : Prop := m = 0 ∨ 16383 < m ∨ 4 ≤ k.loops.length ∨ ∃ l r, k.loops = l :: r ∧ l.last < k.pc + 16 * m
    (bad → scalarDiscarded 2 k k2) ∧
    (¬ bad → dataOf k2 = dataOf k ∧
      (cnt = 0 → k2.pc = (seqNext (k.pc + 16 * m) k.loops).1 % 4194304 ∧ k2.nextIssue = n + latency k + 2) ∧
      (cnt ≠ 0 → goesOnInSequence { k with loops := ⟨k.pc + 16, k.pc + 16 * m, cnt, decide (64 < m), false⟩ :: k.loops } k2))) ∧
  (∀ (i : Issue) (f : ImmForm), scalarActs (.wait i f) i (f.imm.toNat == 0 || decide (16383 < f.imm.toNat)) fun n k k2 =>
    dataOf k2 = dataOf k ∧ goesOnInSequence k k2 ∧ n + 1 + f.imm.toNat ≤ k2.nextIssue ∧
    ((seqNext k.pc k.loops).2.2 = false → k2.nextIssue = n + 1 + f.imm.toNat)) ∧
  (∀ (i : Issue) (rsv : BitVec 23), scalarActs (.done i rsv) i (rsv != 0#23) fun _ k k2 =>
    k2.idle = true ∧ bit (cReg k2 rCtlStatus) 4 = true ∧ (∀ o, o ≠ rCtlStatus → cReg k2 o = cReg k o) ∧
    dataOf { k2 with regs := k.regs } = dataOf k))

/-- Every register is an aligned word, and the device refuses an access of another width or at another address: nothing changes (R16). -/
def Obligations.AccessesAreWholeWords : Prop :=
  (tableAligned coreRegs = true ∧ tableAligned routerRegs = true ∧ tableAligned stackRegs = true ∧ tableAligned windowRegs = true ∧
    tableAligned sidebandRegs = true) ∧
  ∀ (tgt : RegTarget) (off size : Nat) (val hw : Word) (s : State), size ≠ 4 ∨ off % 4 ≠ 0 →
    exec (.registerWrite tgt off size val hw) s = .next (s.answer 1 []) ∧
    exec (.rcRead tgt off size hw) s = .next (s.answer 1 []) ∧ exec (.wideReadLatch tgt off size) s = .next (s.answer 1 [])

/-- A write of a register that starts nothing sets its RW bits, clears the W1C bits written as 1 that the hardware does not set in the same
cycle, and changes no other bit and no other register of any space (R17, R19). -/
def Obligations.RegisterWriteFollowsCodes : Prop :=
  ∀ (tgt : RegTarget) (off : Nat) (val hw : Word) (s : State) (r : RegDef), off % 4 = 0 → inSpace tgt off = true → plainOff tgt off →
    regFind (regTable tgt) off = some r →
    ∃ t, exec (.registerWrite tgt off 4 val hw) s = .next t ∧ t.reply = some ⟨0, []⟩ ∧ t.now = s.now ∧
      (∀ i, i < 32 → bit (storedReg t tgt off) i =
        if bit r.w1c i && bit hw i then true
        else if bit r.w1c i && bit val i then false
        else if bit r.rw i then bit val i
        else bit (storedNow s tgt off) i) ∧
      (∀ o, o ≠ off → storedReg t tgt o = storedNow s tgt o) ∧
      (∀ tgt2 o, tgt2 ≠ tgt → storedReg t tgt2 o = storedReg s tgt2 o)

/-- A read of a register that holds what it shows returns its RW, RO, W1C and RC bits as they stand and its WO bits as zero, and then clears
the RC bits but for those that the hardware sets in the same cycle (R17, R20). A read of the low word of device time gives its low 32 bits
and latches the upper ones; the next read of the upper word gives the latched ones, whatever device time is by then, and drops the latch
(R21, R430). A read of an aligned offset within a block that holds no register gives zero and a write there has no effect on any register;
neither sets a flag (R755). -/
def Obligations.RegisterReadsAnswer : Prop :=
  (
  ∀ (tgt : RegTarget) (off : Nat) (ev : Word) (s : State) (r : RegDef), off % 4 = 0 → inSpace tgt off = true → plainOff tgt off →
    noShadow s tgt off → regFind (regTable tgt) off = some r →
    ∃ t w, exec (.rcRead tgt off 4 ev) s = .next t ∧ t.reply = some ⟨0, [w]⟩ ∧ t.now = s.now ∧
      (∀ i, i < 32 → (bit (r.rw ||| r.ro ||| r.w1c ||| r.rc) i = true → bit w i = bit (storedNow s tgt off) i) ∧
        (bit (r.rw ||| r.ro ||| r.w1c ||| r.rc) i = false → bit r.wo i = true → bit w i = false) ∧
        bit (storedReg t tgt off) i = (if bit r.rc i then bit ev i else bit (storedNow s tgt off) i)) ∧
      (∀ o, o ≠ off → storedReg t tgt o = storedNow s tgt o)) ∧
  (
  ∀ s : State, mget? s.winShadow 0x10018 = none →
    (∃ t, exec (.wideReadLatch .window 0x10018 4) s = .next t ∧ t.reply = some ⟨0, [BitVec.ofNat 32 s.now]⟩ ∧
      mget? t.winShadow 0x1001C = some (BitVec.ofNat 32 (s.now / 4294967296)) ∧ t.win = s.win ∧ t.cores = s.cores) ∧
    ∀ v, mget? s.winShadow 0x1001C = some v → mkeysRising s.winShadow = true →
      ∃ t, exec (.wideReadLatch .window 0x1001C 4) s = .next t ∧ t.reply = some ⟨0, [v]⟩ ∧ mget? t.winShadow 0x1001C = none ∧ t.win = s.win) ∧
  (
  ∀ (tgt : RegTarget) (off : Nat) (val hw : Word) (s : State), off % 4 = 0 → inSpace tgt off = true → regFind (regTable tgt) off = none →
    (∀ c, tgt = .core c → off < 0x10000) → (tgt = .sideband → off < 0x100) → (tgt = .window → ¬ (0x10100 ≤ off ∧ off < 0x10300)) →
    (∃ t, exec (.wideReadLatch tgt off 4) s = .next t ∧ t.reply = some ⟨0, [0#32]⟩ ∧ ∀ tgt2 o, storedReg t tgt2 o =
      if tgt2 = tgt then storedNow s tgt2 o else storedReg s tgt2 o) ∧
    (∃ t, exec (.registerWrite tgt off 4 val hw) s = .next t ∧ t.reply = some ⟨0, []⟩ ∧ ∀ tgt2 o, storedReg t tgt2 o = storedReg s tgt2 o))

/-- `rdr` gives what a read of the register in cycle n + 1 gives, readable from cycle n + 2; `wrr` changes the register at the end of its
issue cycle as a write does; a bad offset is discarded with BAD_ADDR (R249, R251, R252). -/
def Obligations.ProgramReachesRegisters : Prop :=
  let addrOk (k : Core) (f : ImmForm) (n : Nat) : Prop := effAddr k f n % 4 = 0 ∧ effAddr k f n < 0x4000
  (∀ (i : Issue) (f : ImmForm) (s : State) (n : Nat) (k : Core), fieldIssue s i.core.val (fun _ => false) = some (n, k) →
    predReserved i = false →
    ∃ t, exec (.rdr i f) s = .next t ∧ onlyCore i.core.val s t ∧
      (¬ addrOk k f n → scalarDiscarded 1 k (t.core i.core.val)) ∧
      (addrOk k f n → enabledAt k i n = true → f.dst ≠ 0 → gprAt (t.core i.core.val) f.dst.toNat (n + 2) =
        ⟨(coreRead (settleCore (goOn k n (n + 1)) (n + 1)) s.free (n + 1) (effAddr k f n)).1, false⟩) ∧
      (addrOk k f n → enabledAt k i n = false → dataOf (t.core i.core.val) = dataOf k)) ∧
  (∀ (i : Issue) (f : ImmForm) (s : State) (n : Nat) (k : Core), fieldIssue s i.core.val (fun _ => false) = some (n, k) →
    predReserved i = false →
    ∃ t, exec (.wrr i f) s = .next t ∧
      (¬ addrOk k f n → onlyCore i.core.val s t ∧ scalarDiscarded 1 k (t.core i.core.val)) ∧
      (addrOk k f n → enabledAt k i n = true →
        t = coreWrite ((s.reach n).setCore i.core.val (goOn k n (n + 1))) i.core.val (effAddr k f n) (gprAt k f.dst.toNat n).val false) ∧
      (addrOk k f n → enabledAt k i n = false → onlyCore i.core.val s t ∧ dataOf (t.core i.core.val) = dataOf k))

/-- The commands that stand for a result's cycle of a core: a scalar result, a loaded plane, an `mmac`, an `mfill`, a vector result (R136,
R139, R140, R186, R251). -/
def Obligations.ResultsComeWhenDue : Prop :=
  ∀ c : CoreId,
    resultComes (.ldResult c) c.val (fun k => k.pend.map fun p => p.due) ∧
    resultComes (.planeReady c) c.val (fun k => (k.mops.filter fun o => o.kind == .mload).map fun o => o.result) ∧
    resultComes (.mmacResult c) c.val (fun k => (k.mops.filter fun o => o.kind == .mmac).map fun o => o.result) ∧
    resultComes (.mfillResult c) c.val (fun k => (k.mops.filter fun o => o.kind == .mfill).map fun o => o.result) ∧
    resultComes (.vectorResult c) c.val (fun k => k.vops.map (fun v => v.due) ++ k.vloads.map fun v => v.due)

/-- `mnop` with a zero field changes nothing; with any other it is discarded with BAD_OP (R123, R124). The matrix operations: discarded for
their first cause, or accepted with their result cycles: `mzero` n + 2, `mspill` n + 33, `mfill` n + 33 + L; `mload` takes its plane from
its issue on; `mspill` alone puts writes on their way, and only where it is enabled (R104, R123 to R129, R140). -/
def Obligations.MatrixFieldsAct : Prop :=
  (
  ∀ (i : Issue) (f : MatField), fieldActs (.mnop i f) i Core.usedM fun _ _ k k2 =>
    (f = ⟨0, 0, 0, 0, 0, 0, 0, 0⟩ → dataOf k2 = dataOf k) ∧ (f ≠ ⟨0, 0, 0, 0, 0, 0, 0, 0⟩ → unitDiscarded rMtxStatus 2 k k2)) ∧
  (
  (matrixActs .mmac .mmac fun _ f _ _ k op k2 => op.stat = f.stat.toNat ∧ op.rows = matRows k f.msk.toNat ∧
    op.cols = matCols k f.msk.toNat ∧ op.clr = (f.clr == 1#1) ∧ op.cend + 4 = op.result ∧ k2.planes = k.planes ∧ k2.spad = k.spad) ∧
  (matrixActs .mload .mload fun _ f _ _ k op k2 => op.stat = f.stat.toNat ∧ op.result = op.cend ∧ k2.spad = k.spad ∧
    ∀ a ∈ arraysOf f.tgt.toNat, ∃ p, mget? k2.planes (2 * a + f.plane.toNat) = some p ∧ p.loaded = true ∧ p.stat = f.stat.toNat ∧
      p.k = (matDesc k (if f.stat = 1 then f.da.toNat else f.db.toNat)).k) ∧
  (matrixActs .mzero .mzero fun _ f _ n k op k2 => op.result = n + 2 ∧ op.rows = matRows k f.msk.toNat ∧ op.cols = matCols k f.msk.toNat ∧
    k2.planes = k.planes ∧ k2.spad = k.spad) ∧
  (matrixActs .mspill .mspill fun i _ _ n k op k2 => op.result = n + 33 ∧ k2.planes = k.planes ∧
    (enabledAt k i n = false → k2.spad = k.spad) ∧
    ∀ cyc x, cyc < n + latency k → spadByte k2.spad cyc x = spadByte k.spad cyc x) ∧
  (matrixActs .mfill .mfill fun _ _ _ n k op k2 => op.result = n + 33 + latency k ∧ k2.planes = k.planes ∧ k2.spad = k.spad))

/-- At the result cycle of the one `mmac` on its way, every active entry of its target holds the reduction of R78 from the entry's value, or
from zero with CLR, and no other element has changed (R78, R105 to R109, R115, R116, R139). At the result cycle of the one `mfill` on its
way, every element of its arrays' tiles holds the word read for it: element e of tile 2n + h from BASE + 4(256h + e), 2048 bytes further on
for each array of a gang (R126, R140); at that of an `mzero` the active entries are +0 (R140). -/
def Obligations.MatrixResultsStand : Prop :=
  (
  ∀ (c : CoreId) (s : State) (op : MatOp), (s.core c.val).mops = [op] → op.kind = .mmac → op.applied = false → op.enabled = true →
    op.tgt < 7 → tilesWhole (s.core c.val) →
    ∃ t, exec (.mmacResult c) s = .next t ∧ t.now = max s.now op.result ∧
      (∀ r q, r < (shapeOf op.tgt).1 → q < (shapeOf op.tgt).2 → op.rows.getLsbD r = true → op.cols.getLsbD q = true →
        let k := s.core c.val
        let ff := opFmts op
        let p := entryPlace op.tgt r q
        let ae := accPlace p.1 p.2.1 p.2.2
        let e := entryReaders k op ff.1 ff.2 (sliceLen ff.1 ff.2) r q
        let o := reduceEntry (accPath ff.1 ff.2 op.da.scaled op.db.scaled) (pathBlock ff.1 ff.2 op.da.scaled op.db.scaled) op.da.k e.a e.b
          e.sa e.sb (if op.clr then ⟨0#32, false⟩ else accElem k ae.1 ae.2)
        accElem (t.core c.val) ae.1 ae.2 = ⟨o.acc, o.bad⟩) ∧
      (∀ a e, opWrites op a e = false → accElem (t.core c.val) a e = accElem (s.core c.val) a e)) ∧
  (
  (∀ (c : CoreId) (s : State) (op : MatOp), (s.core c.val).mops = [op] → op.kind = .mfill → op.applied = false → op.enabled = true →
    ∃ t, exec (.mfillResult c) s = .next t ∧ t.now = max s.now op.result ∧
      ∀ n ∈ arraysOf op.tgt, ∀ h e, h < 2 → e < 256 →
        let a := op.da.base + (if op.tgt < 4 then 0 else 2048 * n) + 4 * (256 * h + e)
        accElem (t.core c.val) (2 * n + h) e = spadWord (s.core c.val).spad (op.issue + 1 + 4 * (256 * h + e) / 64) a) ∧
  (∀ (k : Core) (op : MatOp) (u : Nat), k.mops = [op] → op.kind = .mzero → op.applied = false → op.enabled = true → op.result ≤ u →
    op.tgt < 7 → tilesWhole k → ∀ r q, r < (shapeOf op.tgt).1 → q < (shapeOf op.tgt).2 → op.rows.getLsbD r = true → op.cols.getLsbD q = true →
      let p := entryPlace op.tgt r q
      accElem (settleCore k u) (accPlace p.1 p.2.1 p.2.2).1 (accPlace p.1 p.2.1 p.2.2).2 = ⟨0#32, false⟩))

/-- `vnop` with a zero field changes nothing; with any other it is discarded with BAD_OP (R152, R153). The elementwise operations of one
tile: each is discarded or accepted, and an accepted one writes its value to the active elements of DST in cycle n + 4; INT operations
clamp, bitwise ones act on words (R47, R153 to R156, R182, R186). -/
def Obligations.VectorElementsAct : Prop :=
  (
  ∀ (i : Issue) (f : VecField), fieldActs (.vnop i f) i Core.usedV fun _ _ k k2 =>
    (f = ⟨0, 0, 0, 0, 0⟩ → dataOf k2 = dataOf k) ∧ (f ≠ ⟨0, 0, 0, 0, 0⟩ → unitDiscarded rVecStatus 1 k k2)) ∧
  (
  unaryGives .vmov 1#6 1 4 (fun _ a => a) ∧
  unaryGives .vabs 1#6 1 4 (fun f a => if vInt f then clampI32 a.toInt.natAbs else fabs a) ∧
  unaryGives .vneg 1#6 1 4 (fun f a => if vInt f then clampI32 (-a.toInt) else fneg a) ∧
  binaryGives .vadd 1#6 1 4 (fun f a b => if vInt f then clampI32 (a.toInt + b.toInt) else fadd a b) ∧
  binaryGives .vsub 1#6 1 4 (fun f a b => if vInt f then clampI32 (a.toInt - b.toInt) else fsub a b) ∧
  binaryGives .vmul 1#6 1 4 (fun f a b => if vInt f then clampI32 (a.toInt * b.toInt) else fmul a b) ∧
  binaryGives .vmin 1#6 1 4 (fun f a b => if vInt f then BitVec.ofInt 32 (min a.toInt b.toInt) else fmin a b) ∧
  binaryGives .vmax 1#6 1 4 (fun f a b => if vInt f then BitVec.ofInt 32 (max a.toInt b.toInt) else fmax a b) ∧
  binaryGives .vand 0#6 1 4 (fun _ a b => a &&& b) ∧ binaryGives .vor 0#6 1 4 (fun _ a b => a ||| b) ∧
  binaryGives .vxor 0#6 1 4 (fun _ a b => a ^^^ b) ∧ binaryGives .vshl 0#6 1 4 (fun _ a b => a <<< (b.toNat % 32)) ∧
  binaryGives .vshr 2#6 1 4 (fun f a b => if f.mod.getLsbD 1 then a.sshiftRight (b.toNat % 32) else a >>> (b.toNat % 32)))

/-- The operations of the special class, correctly rounded: `vdiv`, `vrcp`, `vsqrt` and `vrsqrt` in n + 12, the functions in n + 14; they
take the arithmetic unit for 4 cycles (R154, R157, R182). `vfma` gives SA * SB + DST with one rounding; `vsel` takes SA where the mask is 1
and SB elsewhere; `vtrn` transposes; `vcvt` converts the active elements by FMT and, with RND, advances the draw counter; a FMT of R160's
reserved ones is discarded with BAD_FMT (R67, R68, R153, R154, R160, R161). -/
def Obligations.SpecialAndFusedOperationsAct : Prop :=
  (
  binaryGives .vdiv 0#6 4 12 (fun _ a b => fdiv a b) ∧ unaryGives .vrcp 0#6 4 12 (fun _ a => frcp a) ∧
  unaryGives .vsqrt 0#6 4 12 (fun _ a => fsqrt a) ∧ unaryGives .vrsqrt 0#6 4 12 (fun _ a => frsqrt a) ∧
  unaryGives .vexp 0#6 4 14 (fun _ a => tfn .exp a) ∧ unaryGives .vexp2 0#6 4 14 (fun _ a => tfn .exp2 a) ∧
  unaryGives .vlog 0#6 4 14 (fun _ a => tfn .log a) ∧ unaryGives .vlog2 0#6 4 14 (fun _ a => tfn .log2 a) ∧
  unaryGives .vtanh 0#6 4 14 (fun _ a => tfn .tanh a) ∧ unaryGives .vsigm 0#6 4 14 (fun _ a => tfn .sigm a) ∧
  unaryGives .vgelu 0#6 4 14 (fun _ a => tfn .gelu a) ∧ unaryGives .vsilu 0#6 4 14 (fun _ a => tfn .silu a) ∧
  unaryGives .vsin 0#6 4 14 (fun _ a => tfn .sin a) ∧ unaryGives .vcos 0#6 4 14 (fun _ a => tfn .cos a)) ∧
  (
  (∀ (i : Issue) (f : VecField), vectorActs (.vfma i f) i (fun _ => if vecFieldOk (useBinary 0#6) f then none else some vBadOp) 0 1
    (vecResult i 4 fun s n k r => oneTile f.dst.toNat (fun e =>
      let a := vecSrc s k n 0 f.sa.toNat e
      let b := vecSrc s k n 1 f.sb.toNat e
      let d := vecSrc s k n 2 f.dst.toNat e
      if vecActive k n f.msk.toNat e then some ⟨ffma a.val b.val d.val, a.bad || b.bad || d.bad⟩ else none) r)) ∧
  (∀ (i : Issue) (f : VecField), vectorActs (.vsel i f) i (fun _ => if vecFieldOk (useBinary 1#6) f then none else some vBadOp) 0 1
    (vecResult i 4 fun s n k r => oneTile f.dst.toNat (fun e =>
      some (if vecActive k n f.msk.toNat e then vecSrc s k n 0 f.sa.toNat e else vecSrc s k n 1 f.sb.toNat e)) r)) ∧
  (∀ (i : Issue) (f : VecField),
    vectorActs (.vtrn i f) i (fun _ => if vecFieldOk ⟨true, false, true, false, false, 1#6⟩ f then none else some vBadOp) 0 1
      (vecResult i 5 fun s n k r => oneTile f.dst.toNat (fun e => some (vecSrc s k n 0 f.sa.toNat (16 * (e % 16) + e / 16))) r)) ∧
  (∀ (i : Issue) (f : VecField), vectorActs (.vcvt i f) i (fun _ =>
      if !vecFieldOk (useUnary 0x3F#6) f then some vBadOp
      else if 12 ≤ f.mod.toNat % 16 ∧ f.mod.toNat % 16 ≠ 15 ∨ vRnd f = true ∧ (f.mod.toNat % 16 = 0 ∨ f.mod.toNat % 16 = 15) then some vBadFmt
      else none) 0 1 fun s n k k2 =>
    (vRnd f = true → cReg k2 rSrctr = cReg k rSrctr + 1#32) ∧ (∀ o, vRnd f = false ∨ o ≠ rSrctr → cReg k2 o = cReg k o) ∧
    (enabledAt k i n = true → ∃ r, k2.vops = vecInsert k.vops r ∧ r.due = n + 4 ∧ oneTile f.dst.toNat (fun e =>
      let a := vecSrc s k n 0 f.sa.toNat e
      if vecActive k n f.msk.toNat e then
        some ⟨(cvtElem (vLow4 f) (if vRnd f then .sr (srDraw (cReg k rSeed) (cReg k rSrctr) e) else .rne) (vTop f) a.val).1, a.bad⟩
      else none) r)))

/-- `vcmp` and `vstm` write the mask register DST: bit e of `vcmp` is SA COND SB where the mask is 1, else 0; the bits of row i of `vstm`
say whether the row's status meets the selection (R162, R167). `vcmpr` packs the active elements in order, for the whole tile or row by row,
zero after them, and counts them; `vexpd` puts SA's elements in order to the active positions and SB's to the others (R168 to R170). -/
def Obligations.MaskAndPackingOperationsAct : Prop :=
  (
  (∀ (i : Issue) (f : VecField),
    vectorActs (.vcmp i f) i (fun _ => if vecFieldOk ⟨true, true, false, true, true, 0xF#6⟩ f then none else some vBadOp) 0 1
      (vecResult i 4 fun s n k r => r.tiles = [] ∧ ∃ m, r.mask = some (f.dst.toNat, m) ∧ ∀ e, e < 256 → m.getLsbD e =
        (vecActive k n f.msk.toNat e &&
          let a := (vecSrc s k n 0 f.sa.toNat e).val
          let b := (vecSrc s k n 1 f.sb.toNat e).val
          if vInt f then icompare (vCond f) a b else fcompare (vCond f) a b))) ∧
  (∀ (i : Issue) (f : VecField), vectorActs (.vstm i f) i (fun _ =>
      if vecFieldOk ⟨true, false, false, true, false, 0xF#6⟩ f ∧ f.sa.toNat < 32 then none else some vBadOp) 0 1
    (vecResult i 4 fun s n k r => r.tiles = [] ∧ ∃ m, r.mask = some (f.dst.toNat, m) ∧ ∀ e, e < 256 → m.getLsbD e =
      decide ((statusSeen (vecView k n) s.free (n + 1) f.sa.toNat (e / 16)) &&& (f.mod.toNat % 16) ≠ 0)))) ∧
  (
  (∀ (i : Issue) (f : VecField), vectorActs (.vcmpr i f) i (fun _ => if vecFieldOk (useUnary 3#6) f then none else some vBadOp) 0 2
    (vecResult i 8 fun s n k r =>
      let act (lo hi : Nat) : List Nat := ((List.range 256).filter fun e => decide (lo ≤ e ∧ e < hi) && vecActive k n f.msk.toNat e)
      r.count = some (act 0 256).length ∧ oneTile f.dst.toNat (fun e =>
        let q := if vBit1 f then (act (16 * (e / 16)) (16 * (e / 16) + 16))[e % 16]? else (act 0 256)[e]?
        some (match q with
          | some p => vecSrc s k n 0 f.sa.toNat p
          | none => ⟨0#32, false⟩)) r)) ∧
  (∀ (i : Issue) (f : VecField), vectorActs (.vexpd i f) i (fun _ => if vecFieldOk (useBinary 3#6) f then none else some vBadOp) 0 2
    (vecResult i 8 fun s n k r => oneTile f.dst.toNat (fun e =>
      let lo := if vBit1 f then 16 * (e / 16) else 0
      let before := ((List.range 256).filter fun p => decide (lo ≤ p ∧ p < e) && vecActive k n f.msk.toNat p).length
      some (if vecActive k n f.msk.toNat e then vecSrc s k n 0 f.sa.toNat (lo + before) else vecSrc s k n 1 f.sb.toNat e)) r)))

/-- The reductions over a run of n tiles give every element of row or column r the reduction of its active elements, in cycle t + 5 + n, and
take the unit for n cycles (R163, R164, R182, R757). `vquant` stores the quantised rows of its run in the scratchpad; with RND it advances
the draw counter by its run length; a descriptor or format that R181 refuses discards it (R62, R179 to R181). -/
def Obligations.ReductionsAndQuantisationAct : Prop :=
  (
  let gives (mk : Issue → VecField → Instr) (kind : RedKind) (byRow : Bool) : Prop :=
    ∀ (i : Issue) (f : VecField), vectorActs (mk i f) i (fun _ =>
        if vecFieldOk (useUnary 0x1F#6) f ∧ runOk f.sa.toNat (vRun f) then none else some vBadOp) 0 (vRun f)
      (vecResult i (5 + vRun f) fun s n k r => oneTile f.dst.toNat (fun e =>
        let o := redResult kind (vInt f) ((List.range (vRun f)).map fun q => (List.range 16).map fun j =>
          let x := if byRow then 16 * (e / 16) + j else 16 * j + e % 16
          if vecActive k n f.msk.toNat x then some (vecSrc s k n q (f.sa.toNat + q) x) else none)
        some o.1) r)
  gives .vrsum .sum true ∧ gives .vrmax .max true ∧ gives .vrmin .min true ∧
  gives .vcsum .sum false ∧ gives .vcmax .max false ∧ gives .vcmin .min false) ∧
  (
  ∀ (i : Issue) (f : VecField) (s : State) (n : Nat) (k : Core), fieldIssue s i.core.val Core.usedV = some (n, k) →
    vecDesc (s.core i.core.val) (vLow4 f) = vecDesc k (vLow4 f) →
    let d := vecDesc k (vLow4 f)
    let g := descFmt d
    ∃ t, exec (.vquant i f) s = .next t ∧ onlyCore i.core.val s t ∧
      (∀ flag, judgeQuant f k = some flag → ∃ b, b < 4 ∧ flag = BitVec.ofNat 32 (2 ^ b) ∧ unitDiscarded rVecStatus b k (t.core i.core.val)) ∧
      (judgeQuant f k = none → mgetD k.unitFree 2 0 ≤ n → ∃ run blocks rb al, quantShape g = some (run, blocks, rb, al) ∧
        (t.core i.core.val).tiles = k.tiles ∧ mgetD (t.core i.core.val).unitFree 2 0 = n + (16 * rb + 255) / 256 + 6 ∧
        (vRnd f = true → cReg (t.core i.core.val) rSrctr = cReg k rSrctr + BitVec.ofNat 32 run) ∧
        (enabledAt k i n = false → (t.core i.core.val).spad = k.spad) ∧
        (∀ cyc x, cyc < n + 5 + latency k → spadByte (t.core i.core.val).spad cyc x = spadByte k.spad cyc x)))

/-- `vsmax`, `vlnorm` and `vrnorm` over a run of n write the n tiles from DST on, `vsmax` with STATS one more, in t + 6n + 16 and t + 5n +
18; a run that leaves its registers, or a normalisation whose SB is no constant, is discarded (R152, R171 to R175, R182). `vld` puts a load
on its way, due after its read cycles and the scratchpad latency; `vst` puts the encoded rows of its tile in the scratchpad; with RND it
advances the draw counter; a descriptor or format that R178 refuses discards them (R67, R176 to R178, R182). -/
def Obligations.RowsAndTileTransfersAct : Prop :=
  (
  let row (s : State) (n : Nat) (k : Core) (f : VecField) (r : Nat) : List (Option PWord) :=
    (List.range (vRun f)).flatMap fun q => (List.range 16).map fun j =>
      if vecActive k n f.msk.toNat (16 * r + j) then some (vecSrc s k n q (f.sa.toNat + q) (16 * r + j)) else none
  let gives (mk : Issue → VecField → Instr) (ok : VecField → Bool) (per lat : Nat) (stats : VecField → Bool)
      (g : Core → VecField → Nat → List (Option PWord) → RowOut) : Prop :=
    ∀ (i : Issue) (f : VecField), vectorActs (mk i f) i (fun _ => if ok f then none else some vBadOp) 0 (per * vRun f)
      (vecResult i (per * vRun f + lat) fun s n k r => r.tiles.length = vRun f + (if stats f then 1 else 0) ∧
        ∀ q, q < vRun f → ∃ el, r.tiles[q]? = some (f.dst.toNat + q, el) ∧ ∀ e, e < 256 →
          el.getD e none = (g k f (vRun f) (row s n k f (e / 16))).ys[16 * q + e % 16]?)
  gives .vsmax (fun f => vecFieldOk (useUnary 0x3E#6) f && runOk f.sa.toNat (vRun f) &&
    decide (f.dst.toNat + vRun f + (if vTop f then 1 else 0) ≤ 32)) 6 16 vTop (fun _ _ => smaxRow) ∧
  gives .vlnorm (fun f => vecFieldOk (useBinary 0x1E#6) f && decide (40 ≤ f.sb.toNat) && runOk f.sa.toNat (vRun f) &&
    decide (f.dst.toNat + vRun f ≤ 32)) 5 18 (fun _ => false) (fun k f n l => normRow true n (cReg k (0x1200 + 4 * (f.sb.toNat - 40))) l) ∧
  gives .vrnorm (fun f => vecFieldOk (useBinary 0x1E#6) f && decide (40 ≤ f.sb.toNat) && runOk f.sa.toNat (vRun f) &&
    decide (f.dst.toNat + vRun f ≤ 32)) 5 18 (fun _ => false) (fun k f n l => normRow false n (cReg k (0x1200 + 4 * (f.sb.toNat - 40))) l)) ∧
  (
  (∀ (i : Issue) (f : VecField) (s : State) (n : Nat) (k : Core), fieldIssue s i.core.val Core.usedV = some (n, k) →
    vecDesc (s.core i.core.val) (vLow4 f) = vecDesc k (vLow4 f) →
    let d := vecDesc k (vLow4 f)
    let occ := tileCycles (descFmt d) + (if d.scaled then 1 else 0)
    ∃ t, exec (.vld i f) s = .next t ∧ onlyCore i.core.val s t ∧
      (∀ flag, judgeTile f useVld k = some flag → ∃ b, b < 4 ∧ flag = BitVec.ofNat 32 (2 ^ b) ∧ unitDiscarded rVecStatus b k (t.core i.core.val)) ∧
      (judgeTile f useVld k = none → mgetD k.unitFree 1 0 ≤ n →
        dataOf { t.core i.core.val with vloads := k.vloads, unitFree := k.unitFree } = dataOf k ∧
        mgetD (t.core i.core.val).unitFree 1 0 = n + occ ∧
        ∃ v, (t.core i.core.val).vloads = k.vloads ++ [v] ∧ v.tile = f.dst.toNat ∧ v.issue = n ∧ v.due = n + occ + latency k + 1 ∧
          v.enabled = enabledAt k i n ∧ v.base = d.base ∧ v.fmt = d.fmt ∧ v.rstride = d.rstride)) ∧
  (∀ (i : Issue) (f : VecField) (s : State) (n : Nat) (k : Core), fieldIssue s i.core.val Core.usedV = some (n, k) →
    vecDesc (s.core i.core.val) (vLow4 f) = vecDesc k (vLow4 f) →
    let d := vecDesc k (vLow4 f)
    let g := descFmt d
    ∃ t, exec (.vst i f) s = .next t ∧ onlyCore i.core.val s t ∧
      (∀ flag, judgeTile f useVst k = some flag → ∃ b, b < 4 ∧ flag = BitVec.ofNat 32 (2 ^ b) ∧ unitDiscarded rVecStatus b k (t.core i.core.val)) ∧
      (judgeTile f useVst k = none → mgetD k.unitFree 2 0 ≤ n →
        (t.core i.core.val).tiles = k.tiles ∧ (vRnd f = true → cReg (t.core i.core.val) rSrctr = cReg k rSrctr + 1#32) ∧
        rowsStored (enabledAt k i n) (n + 1 + tileCycles g + latency k) d.base d.rstride (tileRowBytes g) (fun r b =>
          (packCodes g ((List.range 16).map fun j => (storeElem k f d g (16 * r + j) (vecSrc s k n 0 f.sa.toNat (16 * r + j)).val).1)).getD b 0#8)
          k (t.core i.core.val))))

/-- The move field: a non-zero reserved field is discarded with BAD_OP; `xnop` does nothing; `xout` and `xin` start the stream of LINK, or
are discarded for a bad descriptor or a busy stream, `xin` clears its count; `xtok` queues a token, or is discarded with QOVF where 16 wait;
`xstop` ends both streams of LINK (R247, R270 to R273, R275). A flit or a token arrives at an input of a core's router: the one given, or
the next on its way there, in its cycle (R259, R260, R275, R281). A slot-table entry applies in its section cycle, from launch to the
barrier, and at no other time; where it forwards the head flit of an input on a link inside the region, the flit is on that link's wire for
the next cycle and leaves its queue (R259, R265 to R268, R280). -/
def Obligations.FabricActs : Prop :=
  (
  let acts (mk : Issue → MoveField → Instr) (post : Issue → MoveField → Nat → Core → Core → Prop) : Prop :=
    ∀ (i : Issue) (f : MoveField), fieldActs (mk i f) i Core.usedX fun _ n k k2 =>
      (f.rsv ≠ 0#12 → moveDiscarded 5 k k2) ∧ (f.rsv = 0#12 → post i f n k k2)
  acts .xnop (fun _ _ _ k k2 => dataOf k2 = dataOf k) ∧
  acts .xout (fun i f n k k2 =>
    let d := moveDesc k f.desc.toNat
    let l := f.link.toNat
    (moveDescOk d = false → moveDiscarded 5 k k2) ∧
    (moveDescOk d = true → (mget? k.outs l).isSome = true → moveDiscarded 6 k k2) ∧
    (moveDescOk d = true → mget? k.outs l = none → dataOf { k2 with outs := k.outs } = dataOf k ∧
      mget? k2.outs l = some ⟨d.1, d.2.1, d.2.2, 0, n + latency k + 1, enabledAt k i n⟩ ∧ ∀ j, j ≠ l → mget? k2.outs j = mget? k.outs j)) ∧
  acts .xin (fun i f n k k2 =>
    let d := moveDesc k f.desc.toNat
    let l := f.link.toNat
    (moveDescOk d = false → moveDiscarded 5 k k2) ∧
    (moveDescOk d = true → (mget? k.ins l).isSome = true → moveDiscarded 6 k k2) ∧
    (moveDescOk d = true → mget? k.ins l = none → dataOf { k2 with ins := k.ins, regs := k.regs } = dataOf k ∧
      cReg k2 (0x3180 + 4 * l) = 0#32 ∧ (∀ o, o ≠ 0x3180 + 4 * l → cReg k2 o = cReg k o) ∧
      (∀ j, j ≠ l → mget? k2.ins j = mget? k.ins j) ∧ mget? k2.ins l = some ⟨d.1, d.2.1, d.2.2, 0, n + 1, enabledAt k i n,
        if f.push = 1#1 then some (f.hq.toNat, (gprAt k f.sreg.toNat n).val) else none, none⟩)) ∧
  acts .xtok (fun i f n k k2 =>
    let q := mgetD k.localTok f.link.toNat []
    let v := gprAt k f.sreg.toNat n
    (f.kind = 0#2 ∨ enabledAt k i n = false → dataOf k2 = dataOf k) ∧
    (f.kind ≠ 0#2 → enabledAt k i n = true → 16 ≤ q.length → moveDiscarded 1 k k2) ∧
    (f.kind ≠ 0#2 → enabledAt k i n = true → q.length < 16 → dataOf { k2 with localTok := k.localTok } = dataOf k ∧
      ∃ w, mgetD k2.localTok f.link.toNat [] = q ++ [w] ∧ fld w 15 0 = fld v.val 15 0 ∧ tokKind w = f.kind.toNat ∧ tokEpoch w = epochTag k ∧
        tokOk w = !v.bad)) ∧
  acts .xstop (fun _ f _ k k2 => dataOf { k2 with outs := k.outs, ins := k.ins } = dataOf k ∧
    (mkeysRising k.outs = true → mget? k2.outs f.link.toNat = none ∧ ∀ j, j ≠ f.link.toNat → mget? k2.outs j = mget? k.outs j) ∧
    (mkeysRising k.ins = true → mget? k2.ins f.link.toNat = none ∧ ∀ j, j ≠ f.link.toNat → mget? k2.ins j = mget? k.ins j))) ∧
  (
  ∀ (c : CoreId) (inp : Fin 4) (s : State),
    (∀ f, ∃ t, exec (.flitArrival c inp (some f)) s = .next t ∧ onlyCore c.val s t ∧ t.now = s.now ∧
      flitArrives inp.val f (s.core c.val) (t.core c.val)) ∧
    (nextWire s c.val inp.val true = none → exec (.flitArrival c inp none) s = .next s) ∧
    (∀ w f, nextWire s c.val inp.val true = some w → w.flit = some f → ∃ t, exec (.flitArrival c inp none) s = .next t ∧
      t.now = max s.now w.due ∧ flitArrives inp.val f (s.core c.val) (t.core c.val)) ∧
    (∀ v, ∃ t, exec (.tokenArrival c inp (some v)) s = .next t ∧ onlyCore c.val s t ∧ t.now = s.now ∧
      tokenArrives inp.val v (s.core c.val) (t.core c.val)) ∧
    (nextWire s c.val inp.val false = none → exec (.tokenArrival c inp none) s = .next s) ∧
    (∀ w v, nextWire s c.val inp.val false = some w → w.tok = some v → ∃ t, exec (.tokenArrival c inp none) s = .next t ∧
      t.now = max s.now w.due ∧ tokenArrives inp.val v (s.core c.val) (t.core c.val))) ∧
  (
  ∀ (c : CoreId) (s : State),
    let k0 := s.core c.val
    (k0.launchAt = none → exec (.slotEntryApply c) s = .next s) ∧
    ∀ l, k0.launchAt = some l →
      let n := max k0.sectNext (s.now - l)
      let k := settleCore k0 (l + n)
      (k0.awaiting = true ∨ sectEnd k0 ≤ n → exec (.slotEntryApply c) s = .next s) ∧
      (k0.awaiting = false → n < sectEnd k0 → ∃ t, exec (.slotEntryApply c) s = .next t ∧ t.now = max s.now (l + n) ∧
        (t.core c.val).sectNext = n + 1 ∧ (entryIndex k n = none → t.wires = s.wires) ∧
        ∀ idx lk i f d inp, entryIndex k n = some idx → lk < 4 → i < 4 → efld (slotEntry k idx) (4 * lk + 3) (4 * lk) = i + 1 →
          efld (slotEntry k idx) 45 45 = 0 → headFlit k i = some f → linkDest c.val lk = some (d, inp) → regionOfCore c.val = regionOfCore d →
          (∃ w ∈ t.wires, w.due = l + n + 1 ∧ w.dest = d ∧ w.inp = inp ∧ w.flit = some f) ∧
          mgetD (t.core c.val).flitQ i [] = (mgetD k.flitQ i []).drop 1))

/-- At the commit of the earliest scratchpad write on its way time reaches the cycle after it, and no read of any byte from then on finds
anything else than before; with none on its way nothing changes (R211, R214, R216). 64 cycles after its barrier a core's slot-table banks
swap, once; at a checkpoint its counter goes on, MISMATCH is set where the counts differ from the entry; where no report comes the core is
named, and without an answer it is fenced (R283, R586 to R588). -/
def Obligations.CommitsSwapsAndCheckpointsAct : Prop :=
  (
  ∀ (c : CoreId) (s : State),
    let coming := (s.core c.val).spad.log.filter fun w => decide (s.now ≤ w.commit)
    (coming = [] → exec (.scratchpadCommit c) s = .next s) ∧
    (coming ≠ [] → spadOk (s.core c.val).spad → ∃ t w, exec (.scratchpadCommit c) s = .next t ∧ onlyCore c.val s t ∧ w ∈ coming ∧
      (∀ v ∈ coming, w.commit ≤ v.commit) ∧ t.now = w.commit + 1 ∧ spadOk (t.core c.val).spad ∧
      ∀ cyc a, t.now ≤ cyc → spadByte (t.core c.val).spad cyc a = spadByte (s.core c.val).spad cyc a)) ∧
  (
  ∀ (c : CoreId) (s : State),
    let k := s.core c.val
    (k.swapDue = false → exec (.bankSwap c) s = .next s) ∧
    (∀ l, k.swapDue = true → k.launchAt = some l → leads (.bankSwap c) s fun t =>
      onlyCore c.val s t ∧ t.now = max s.now (l + sectEnd k + 64) ∧ (t.core c.val).swapDue = false ∧
      fld (cReg (t.core c.val) rFabTblPer) 16 16 = 1 - fld (cReg k rFabTblPer) 16 16 ∧
      ∀ o, o ≠ rFabTblPer → cReg (t.core c.val) o = cReg k o) ∧
    (k.launchAt = none → exec (.checkpoint c) s = .next s ∧ exec (.checkpointSilent c) s = .next s) ∧
    (∀ l, k.launchAt = some l →
      let i := fld (cReg k 0x104) 31 16
      (0 < i ∧ checkCycle k (i - 1) = sectEnd k → exec (.checkpoint c) s = .next s ∧ exec (.checkpointSilent c) s = .next s) ∧
      (¬ (0 < i ∧ checkCycle k (i - 1) = sectEnd k) →
        (leads (.checkpoint c) s fun t =>
          let k1 := settleCore k (max s.now (l + checkCycle k i))
          t.now = max s.now (l + checkCycle k i) ∧ fld (cReg (t.core c.val) 0x104) 31 16 = (i + 1) % 65536 ∧
          (wordsOfBytes (spadBytes k1.spad t.now (fld (cReg k1 0x100) 21 0 + 32 * i) 28) 7 ≠ checkWords k1 (checkCycle k i == sectEnd k1) →
            bit (cReg (t.core c.val) 0x104) 0 = true)) ∧
        (mget? s.hw.probes c.val = none → leads (.checkpointSilent c) s fun t =>
          t.now = max s.now (l + checkCycle k i + 2048) ∧ t.records = s.records ++ [⟨.silent, c.val, [i]⟩] ∧
          mget? t.hw.probes c.val = some t.now ∧ t.cores = s.cores))) ∧
    (mget? s.hw.probes c.val = none → exec (.silentTimeout c) s = .next s) ∧
    (∀ u, mget? s.hw.probes c.val = some u → leads (.silentTimeout c) s fun t =>
      t.now = max s.now (u + 65536) ∧ unitFenced t (coreUnit (physCore s c.val)) = true))

/-- A launch takes effect at its device time on every core of its partition, where the partition is not halted and ready: counts of the
section start, issue starts at `ctl.entry`, the slot table swaps banks where a swap is due (R283, R284, R446). The barrier of a partition
falls in section cycle END: every queue and stream of its routers is empty, the epoch is one higher, the routers await a launch and a bank
swap is due (R280, R281). -/
def Obligations.SectionsStartAndEnd : Prop :=
  (
  ∀ (part : Nat) (s : State),
    ((∀ e ∈ s.tmb.events, e.kind ≠ .launch (BitVec.ofNat 12 part)) → exec (.sectionLaunch part) s = .next s) ∧
    ∀ time, nextLaunch s part time → leads (.sectionLaunch part) s fun t =>
      t.now = max s.now time ∧
      ∀ k, s.hpart part = some k → k.halted = false → launchReady s part k = true → ∀ c, regionOfCore c ∈ partRegions k →
        let k2 := t.core c
        k2.launchAt = some time ∧ k2.awaiting = false ∧ k2.sectNext = 0 ∧ k2.loops = [] ∧ k2.swapDue = false ∧
        k2.pc = fld (cReg (s.core c) rCtlEntry) 21 0 ∧
        ((s.core c).fenced = true ∨ (s.core c).inReset = true → k2.idle = true) ∧
        ((s.core c).fenced = false → (s.core c).inReset = false → k2.pc < 0x300000 → k2.idle = false)) ∧
  (
  ∀ (part : Nat) (s : State),
    (s.hpart part = none → exec (.sectionBarrier part) s = .next s) ∧
    (∀ k, s.hpart part = some k → partLaunch s k = none → exec (.sectionBarrier part) s = .next s) ∧
    ∀ k l, s.hpart part = some k → partLaunch s k = some l → leads (.sectionBarrier part) s fun t =>
      t.now = max s.now (l + partEnd s k) ∧
      ∀ c, regionOfCore c ∈ partRegions k → (t.core c).awaiting = true ∧
        ((s.core c).awaiting = false →
          (t.core c).flitQ = [] ∧ (t.core c).tokQ = [] ∧ (t.core c).localTok = [] ∧ (t.core c).steerOut = [] ∧ (t.core c).outs = [] ∧
          (t.core c).ins = [] ∧ (t.core c).swapDue = true ∧ cReg (t.core c) rFabEpoch = cReg (s.core c) rFabEpoch + 1#32))

/-- A post is refused with the code of its first failing check, and sends nothing; one that passes is pending under the next sequence
number, and its packets leave, or are held behind a fence (R302 to R306, R310). A message packet reaches its endpoint: to no endpoint it is
answered CLOSED; of another incarnation it is counted and dropped; of an accepted message its bytes go behind the record's header, and the
bytes still to come are counted; the last of a refused one is answered (R307, R308). A reply ends the post in progress with its code: OK
counts it and advances the sequence number, another counts it as refused, BROKEN breaks the end; one without a post in progress is late; a
post without a reply in 2^20 cycles ends with TIMEOUT and breaks its end (R308 to R310, R362). -/
def Obligations.ChannelsCarryMessages : Prop :=
  (
  ∀ (c : CoreId) (e : Fin 32) (val : Word) (s : State),
    let k := s.core c.val
    leads (.post c e val) s fun t =>
      let k2 := t.core c.val
      onlyCore c.val s { t with net := s.net } ∧ t.now = s.now ∧
      (∀ code, postJudge k e.val (fld val 15 0) = some code → t.net = s.net ∧ fld (cReg k2 (epReg e.val epResult)) 3 0 = code % 16 ∧
        countsOne k k2 (epReg e.val epStat) 31 16 ∧ k2.eps = k.eps) ∧
      (postJudge k e.val (fld val 15 0) = none →
        fld (cReg k2 (epReg e.val epResult)) 3 0 = 1 ∧ fld (cReg k2 (epReg e.val epResult)) 31 16 = (epOf k e.val).seq % 65536 ∧
        (epOf k2 e.val).posting = some s.now ∧
        (k.fenceAt = none → t.net.length = s.net.length + max 1 ((fld val 15 0 + 495) / 496) ∧
          k2.reqs = k.reqs ++ [⟨k.nextTag, s.now, reqChannel, e.val⟩]) ∧
        (k.fenceAt.isSome = true → t.net = s.net ∧ k2.held.length = k.held.length + max 1 ((fld val 15 0 + 495) / 496)))) ∧
  (
  ∀ (c : CoreId) (p : Packet) (s : State),
    let k := s.core c.val
    let net := (s.takeNet p).net
    leads (.chmsg c p) s fun t =>
      (recvEndpoint k (payWord p 2) = none → t.net = net ++ [chReply p pcClosed] ∧ t.cores = s.cores) ∧
      ∀ e, recvEndpoint k (payWord p 2) = some e →
        let m := (epOf k e).rx.getD (startMessage k e p)
        let body := p.payload.drop 16
        (fld (payWord p 2) 26 19 ≠ fld (cReg k (epReg e epCfg)) 15 8 →
          t.net = net ∧ bit (cReg (t.core c.val) rChnStatus) 1 = true ∧ countsOne k (t.core c.val) rChnStatus 31 16) ∧
        (fld (payWord p 2) 26 19 = fld (cReg k (epReg e epCfg)) 15 8 → m.code = pcOk →
          t.net = net ∧ (epOf (t.core c.val) e).rx = some { m with left := m.left - body.length, tarn := m.tarn || p.tarnish } ∧
          bytesStored s.now (m.place + 16 + fld (payWord p 3) 15 0) body k (t.core c.val)) ∧
        (fld (payWord p 2) 26 19 = fld (cReg k (epReg e epCfg)) 15 8 → m.code ≠ pcOk → m.left ≤ body.length →
          t.net = net ++ [chReply p m.code] ∧ (t.core c.val).spad.base = k.spad.base)) ∧
  (
  ∀ (c : CoreId) (e : Fin 32) (s : State),
    let k := s.core c.val
    (∀ code : BitVec 4, leads (.chrep c e code) s fun t =>
      let k2 := t.core c.val
      onlyCore c.val s t ∧ t.now = s.now ∧
      ((epOf k e.val).posting = none → countsOne k k2 rSrcStatus 31 16 ∧ k2.eps = k.eps) ∧
      ((epOf k e.val).posting.isSome = true → (epOf k2 e.val).posting = none ∧ fld (cReg k2 (epReg e.val epResult)) 3 0 = code.toNat ∧
        (∀ q ∈ k2.reqs, q.what = reqChannel → q.arg ≠ e.val) ∧
        (code = 0#4 → countsOne k k2 (epReg e.val epStat) 15 0 ∧ (epOf k2 e.val).seq = ((epOf k e.val).seq + 1) % 65536) ∧
        (code ≠ 0#4 → countsOne k k2 (epReg e.val epStat) 31 16 ∧ (epOf k2 e.val).seq = (epOf k e.val).seq) ∧
        (code = 6#4 → epState k2 e.val = chBroken))) ∧
    ((epOf k e.val).posting = none → exec (.postTimeout c e) s = .next s) ∧
    (∀ t0, (epOf k e.val).posting = some t0 → leads (.postTimeout c e) s fun t =>
      t.now = max s.now (t0 + 1048576) ∧ (epOf (t.core c.val) e.val).posting = none ∧
      (epRole k e.val = roleSend →
        epState (t.core c.val) e.val = chBroken ∧ fld (cReg (t.core c.val) (epReg e.val epResult)) 3 0 = pcTimeout)))

/-- A record commits when every byte of its message has arrived: TAIL takes its place, DONE counts it, the sequence number goes on, the
endpoint is free for the next and a reply with OK leaves; until then nothing changes (R297, R301, R307, R308). A write of HEAD at a
receiving end takes effect where it is a multiple of 16 between HEAD and TAIL, and sets BAD_HEAD elsewhere; at any other end nothing changes
(R314). -/
def Obligations.RecordsOfChannelsAct : Prop :=
  (
  ∀ (c : CoreId) (e : Fin 32) (s : State),
    let k := s.core c.val
    ((epOf k e.val).rx = none → exec (.channelCommit c e) s = .next s) ∧
    ∀ m, (epOf k e.val).rx = some m →
      (m.code ≠ pcOk ∨ m.left ≠ 0 → exec (.channelCommit c e) s = .next s) ∧
      (m.code = pcOk → m.left = 0 → leads (.channelCommit c e) s fun t =>
        let k2 := t.core c.val
        onlyCore c.val s { t with net := s.net } ∧ t.net.length = s.net.length + 1 ∧ (epOf k2 e.val).rx = none ∧
        (epOf k2 e.val).seq = ((epOf k e.val).seq + 1) % 65536 ∧
        (bit (cReg k (epReg e.val epCfg)) 4 = false → cReg k2 (epReg e.val epTail) = BitVec.ofNat 32 m.newTail ∧
          countsOne k k2 (epReg e.val epStat) 15 0 ∧ fld (cReg k2 (epReg e.val epResult)) 31 16 = (fld m.hdr1 15 0 + 1) % 65536))) ∧
  (
  ∀ (c : CoreId) (e : Fin 32) (val : Word) (s : State),
    let k := s.core c.val
    let head := cReg k (epReg e.val epHead)
    let ok : Prop := val.toNat % 16 = 0 ∧ (val - head).toNat ≤ (cReg k (epReg e.val epTail) - head).toNat
    leads (.headRelease c e val) s fun t =>
      let k2 := t.core c.val
      onlyCore c.val s t ∧ t.now = s.now ∧ dataOf { k2 with regs := k.regs } = dataOf k ∧
      (epRole k e.val ≠ roleRecv → k2.regs = k.regs) ∧
      (epRole k e.val = roleRecv → ok → cReg k2 (epReg e.val epHead) = val ∧ ∀ o, o ≠ epReg e.val epHead → cReg k2 o = cReg k o) ∧
      (epRole k e.val = roleRecv → ¬ ok → bit (cReg k2 rChnStatus) 0 = true ∧ ∀ o, o ≠ rChnStatus → cReg k2 o = cReg k o))

/-- A handle goes to the tail of its queue and a pop takes the head; a push of zero, or into a queue of 16, is refused and counted; a pop of
an empty queue gives zero (R225 to R227). A write that enables a buffer takes effect where BASE and HALF make a valid one; elsewhere EN is
cleared, BAD and BAD_BUF set; SWAP of an enabled buffer turns CUR and clears RDY of the half that was in front, and does nothing to a
disabled one (R219, R220). -/
def Obligations.QueuesAndBuffersAct : Prop :=
  (
  ∀ (c : CoreId) (q : Fin 8) (s : State),
    let k := settlePushes (s.coreNow c.val) (s.now + 1)
    let l := mgetD k.hqs q.val []
    let n := hqCycle k q.val s.now
    (∀ val, leads (.hqPush c q val) s fun t =>
      let k2 := t.core c.val
      onlyCore c.val s t ∧ t.now = s.now ∧ (∀ j, j ≠ q.val → mgetD k2.hqs j [] = mgetD k.hqs j []) ∧
      (val ≠ 0#32 → n.1 + n.2 < 16 → mgetD k2.hqs q.val [] = l ++ [val] ∧ k2.regs = k.regs) ∧
      (val = 0#32 ∨ 16 ≤ n.1 + n.2 → mgetD k2.hqs q.val [] = l ∧ bit (cReg k2 rSpdStatus) 4 = true ∧
        bit (cReg k2 (0x250C + 0x10 * q.val)) 8 = true ∧ countsOne k k2 (0x250C + 0x10 * q.val) 31 16)) ∧
    (leads (.hqPop c q) s fun t =>
      let k2 := t.core c.val
      t.now = s.now ∧ k2.regs = k.regs ∧ (∀ j, j ≠ q.val → mgetD k2.hqs j [] = mgetD k.hqs j []) ∧
      (l = [] ∨ n.1 = 0 → t.reply = some ⟨0, [0#32]⟩ ∧ mgetD k2.hqs q.val [] = l) ∧
      (∀ v rest, l = v :: rest → n.1 ≠ 0 → t.reply = some ⟨0, [v]⟩ ∧ mgetD k2.hqs q.val [] = rest))) ∧
  (
  ∀ (c : CoreId) (n : Fin 16) (s : State),
    let k := s.coreNow c.val
    (∀ (isBase : Bool) (val : Word), leads (.bufferConfig c n isBase val) s fun t =>
      let k2 := t.core c.val
      let b := if isBase then val &&& 0x803FFFFF#32 else cReg k (bufBase n.val)
      let h := if isBase then cReg k (bufHalf n.val) else val &&& 0x003FFFFF#32
      onlyCore c.val s t ∧ t.now = s.now ∧ cReg k2 (bufHalf n.val) = h ∧
      (∀ o, o ≠ bufBase n.val → o ≠ bufHalf n.val → o ≠ bufCtl n.val → o ≠ rSpdStatus → cReg k2 o = cReg k o) ∧
      (bit b 31 = false ∨ bufValid b h = true → cReg k2 (bufBase n.val) = b ∧ cReg k2 rSpdStatus = cReg k rSpdStatus) ∧
      (bit b 31 = true → bufValid b h = true → isBase = true → bit (cReg k2 (bufCtl n.val)) 4 = false) ∧
      (bit b 31 = true → bufValid b h = false → bit (cReg k2 (bufBase n.val)) 31 = false ∧ bit (cReg k2 (bufCtl n.val)) 4 = true ∧
        bit (cReg k2 rSpdStatus) 3 = true)) ∧
    (leads (.swap c n) s fun t =>
      let k2 := t.core c.val
      let cur := fld (cReg k (bufCtl n.val)) 0 0
      onlyCore c.val s t ∧ t.now = s.now ∧ (∀ o, o ≠ bufCtl n.val → cReg k2 o = cReg k o) ∧
      (bit (cReg k (bufBase n.val)) 31 = false → cReg k2 (bufCtl n.val) = cReg k (bufCtl n.val)) ∧
      (bit (cReg k (bufBase n.val)) 31 = true → fld (cReg k2 (bufCtl n.val)) 0 0 = 1 - cur ∧ bit (cReg k2 (bufCtl n.val)) (2 + cur) = false ∧
        bit (cReg k2 (bufCtl n.val)) (3 - cur) = bit (cReg k (bufCtl n.val)) (3 - cur))))

/-- A WR that reaches a core writes its bytes to the scratchpad and is answered OK; a range beyond it, or no byte, is answered RANGE, a
failed payload check CRC, and no byte changes; the same for an MCWR, which has no answer (R342, R344, R345, R347). An RD that reaches a core
is answered with the bytes read, under its tag; a length of 0 or beyond 512, or a range beyond the scratchpad, is answered RANGE; an HQP
pushes its handle after the earlier writes, or is answered RANGE for a queue that is none (R344, R345, R403). REGW and REGR of the
heartwood: a write sets the RW fields of a router's register and the RW and RO fields of a core's plain one, and is answered OK; a read
answers the stored word; an access from a partition is answered TYPE, one that is not aligned RANGE, and changes no register (R17, R344,
R345, R375). -/
def Obligations.ServicePacketsAct : Prop :=
  (
  ∀ (p : Packet) (s : State) (c : CoreId),
    let k := s.coreNow c.val
    let a := p.addr.toNat % 2 ^ 22
    (reachesCore s p c.val → bufferMode p = false →
      leads (.wr p) s fun t =>
        (pcrcOk p = false → answered p stCrc s t ∧ t.cores = s.cores) ∧
        (pcrcOk p = true → p.payload ≠ [] → a + p.payload.length ≤ 0x300000 → answered p stOk s t ∧ bytesStored s.now a p.payload k (t.core c.val)) ∧
        (pcrcOk p = true → p.payload = [] ∨ 0x300000 < a + p.payload.length → answered p stRange s t ∧ (t.core c.val).spad = k.spad)) ∧
    (hcrcOk p = true → p.part = 0#12 ∨ p.part.toNat = s.partOf c.val → (s.core c.val).fenced = false → (s.core c.val).inReset = false →
      pcrcOk p = true → isPour p = false → leads (.mcwr c p) s fun t =>
        t.net = s.net.erase p ∧
        (p.payload ≠ [] → a + p.payload.length ≤ 0x300000 → bytesStored s.now a p.payload k (t.core c.val)))) ∧
  (
  ∀ (p : Packet) (s : State) (c : CoreId), reachesCore s p c.val →
    let k := s.coreNow c.val
    let a := p.addr.toNat % 2 ^ 22
    let n := (p.tdata.getD 0 0#32).toNat
    let q := (p.tdata.getD 1 0#32).toNat
    (leads (.rd p) s fun t =>
      (n = 0 ∨ 512 < n ∨ 0x300000 < a + n → answered p stRange s t) ∧
      (0 < n → n ≤ 512 → a + n ≤ 0x300000 → ∃ r, t.net = (s.takeNet p).net ++ [r] ∧ r.type = tRDATA ∧ r.tag = p.tag ∧ r.arg = 0#16 ∧
        r.payload = spadBytes k.spad s.now a n ∧ (t.core c.val).spad = k.spad)) ∧
    (leads (.hqp p) s fun t =>
      (8 ≤ q → answered p stRange s t ∧ t.cores = s.cores) ∧
      (q < 8 → answered p stOk s t ∧ (t.core c.val).hqPend = k.hqPend ++ [⟨s.now + latency k, q, p.tdata.getD 0 0#32⟩]))) ∧
  (
  ∀ (p : Packet) (s : State),
    let off := p.addr.toNat
    let val := wordOfBytes p.payload
    (pcrcOk p = true → p.part ≠ 0#12 → leads (.regw p) s fun t => answered p stType s t ∧ t.cores = s.cores ∧ t.routers = s.routers ∧ t.stks = s.stks) ∧
    (pcrcOk p = true → p.part = 0#12 → off % 4 ≠ 0 → leads (.regw p) s fun t => answered p stRange s t ∧ t.cores = s.cores ∧ t.routers = s.routers ∧ t.stks = s.stks) ∧
    (p.part ≠ 0#12 → leads (.regr p) s fun t => answered p stType s t ∧ t.cores = s.cores ∧ t.routers = s.routers ∧ t.stks = s.stks) ∧
    (∀ d, pcrcOk p = true → hcrcOk p = true → p.part = 0#12 → p.dkind = 2#2 → off % 4 = 0 → regFind routerRegs off = some d → leads (.regw p) s fun t =>
      answered p stOk s t ∧ t.cores = s.cores ∧ (∀ i, i < 32 → bit d.rw i = true → bit d.w1c i = false → bit (nReg (t.router (pktDest p)) off) i = bit val i) ∧
      ∀ o, o ≠ off → nReg (t.router (pktDest p)) o = nReg (s.router (pktDest p)) o) ∧
    (∀ d, hcrcOk p = true → p.part = 0#12 → p.dkind = 2#2 → off % 4 = 0 → off ≠ 0 → off % 0x20 ≠ 0xC → regFind routerRegs off = some d →
      leads (.regr p) s fun t => ∃ r, t.net = (s.takeNet p).net ++ [r] ∧ r.type = tRDATA ∧ r.tag = p.tag ∧
        ∃ w, r.payload = bytesOfWord w ∧ ∀ i, i < 32 → bit (d.rw ||| d.ro ||| d.w1c ||| d.rc) i = true → bit w i = bit (nReg (s.router (pktDest p)) off) i) ∧
    (∀ (c : CoreId) d, reachesCore s p c.val → pcrcOk p = true → p.part = 0#12 → off % 4 = 0 → plainOff (.core c) off → regFind coreRegs off = some d →
      leads (.regw p) s fun t => answered p stOk s t ∧
        (∀ i, i < 32 → bit (d.rw ||| d.ro) i = true → bit d.w1c i = false → bit (cReg (t.core c.val) off) i = bit val i) ∧
        ∀ o, o ≠ off → cReg (t.core c.val) o = cReg (s.coreNow c.val) o))

/-- A response ends the request that bears its tag, whatever it was for; a late one is counted; a request without a response in 2^20 cycles
ends with TMO set and a record; a late timeout does nothing (R345, R355, R362). -/
def Obligations.ResponsesEndRequests : Prop :=
  (∀ (p : Packet) (s : State) (c : CoreId), answersCore p c →
    let k := s.coreNow c.val
    let ends (t : State) : Prop :=
      ((∀ r ∈ k.reqs, r.tag ≠ p.tag.toNat) → countsOne k (t.core c.val) rSrcStatus 31 16 ∧ (t.core c.val).reqs = k.reqs) ∧
      ((∃ r ∈ k.reqs, r.tag = p.tag.toNat) → (t.core c.val).reqs = k.reqs.filter fun r => r.tag != p.tag.toNat)
    leads (.ack p) s ends ∧ leads (.rdata p) s ends) ∧
  (∀ (c : CoreId) (tag : BitVec 16) (s : State),
    ((∀ r ∈ (s.core c.val).reqs, r.tag ≠ tag.toNat) → exec (.requestTimeout (.core c) tag) s = .next s) ∧
    ∀ r, (s.core c.val).reqs = [r] → r.tag = tag.toNat → r.what ≠ reqChannel → leads (.requestTimeout (.core c) tag) s fun t =>
      t.now = max s.now (r.sent + 1048576) ∧ (t.core c.val).reqs = [] ∧ bit (cReg (t.core c.val) rSrcStatus) 0 = true)

/-- A fence clears DONE and holds later requests; DONE is set once every request sent before it is over, and what it held goes; a record
that waits leaves 256 cycles after the last (R355, R361). A barrier slot's arrival sets PENDING and sends ARRIVE, or is held back behind
FENCE; a second one is an error; the root counts arrivals of the generation and starts the next with the N-th; a release clears PENDING,
sets DONE and advances the generation of the slots that match (R344, R364 to R366). A MISSED packet joins the queue of four, or is lost with
its flag; a pop gives the oldest with bit 31, or zero (R371, R376). -/
def Obligations.FencesBarriersAndMissesAct : Prop :=
  (
  ∀ (c : CoreId) (s : State),
    let k := s.core c.val
    (leads (.fence c) s fun t => onlyCore c.val s t ∧ t.now = s.now ∧ (t.core c.val).fenceAt = some s.now ∧
      bit (cReg (t.core c.val) rSvcFence) 1 = false ∧ ∀ o, o ≠ rSvcFence → cReg (t.core c.val) o = cReg k o) ∧
    (k.fenceAt = none → exec (.fenceDone c) s = .next s) ∧
    (∀ u, k.fenceAt = some u → (∃ r ∈ k.reqs, r.sent ≤ u) → exec (.fenceDone c) s = .next s) ∧
    (∀ u, k.fenceAt = some u → (∀ r ∈ k.reqs, u < r.sent) → leads (.fenceDone c) s fun t =>
      t.now = s.now ∧ (t.core c.val).fenceAt = none ∧ bit (cReg (t.core c.val) rSvcFence) 1 = true ∧
      t.net = s.net ++ (k.held.filter fun h => h.2.1 != reqBarrier).map Prod.fst ∧ (t.core c.val).held = k.held.filter fun h => h.2.1 == reqBarrier) ∧
    (k.recs = [] → exec (.recordSend c) s = .next s) ∧
    (∀ r rest, k.recs = r :: rest → leads (.recordSend c) s fun t =>
      t.now = max s.now ((k.lastRec.map fun l => l + 256).getD 0) ∧ (t.core c.val).recs = rest ∧ (t.core c.val).lastRec = some t.now ∧
      t.records.getLast? = some { r with src := c.val })) ∧
  (
  (∀ (c : CoreId) (i : Fin 4) (val : Word) (s : State),
    let k := s.core c.val
    let w := cReg k (barReg i.val)
    leads (.barrierSlotWrite c i val) s fun t =>
      let k2 := t.core c.val
      (bit val 24 = false → t = s) ∧
      (bit val 24 = true → bit w 26 = true → t.net = s.net ∧ bit (cReg k2 rSrcStatus) 1 = true ∧ cReg k2 (barReg i.val) = w) ∧
      (bit val 24 = true → bit w 26 = false → bit (cReg k2 (barReg i.val)) 26 = true ∧ bit (cReg k2 (barReg i.val)) 27 = false ∧
        (bit val 25 = false ∨ k.reqs = [] → t.net = s.net ++ [arrivePacket c.val (fld w 7 0) (fld w 23 8)]) ∧
        (bit val 25 = true → k.reqs ≠ [] → t.net = s.net ∧
          k2.held = k.held ++ [(arrivePacket c.val (fld w 7 0) (fld w 23 8), reqBarrier, s.now + 1)]))) ∧
  (∀ (r : RouterId) (grp : BitVec 8) (gen : BitVec 16) (s : State),
    let k := s.router r.val
    let cfg := nReg k (nBarCfg grp.toNat)
    let cnt := nReg k (nBarCnt grp.toNat)
    leads (.arrive r grp gen) s fun t =>
      let k2 := t.router r.val
      (bit cfg 31 = false ∨ fld cnt 31 16 ≠ gen.toNat → nReg k2 (nBarCnt grp.toNat) = cnt ∧
        fld (nReg k2 nDrops) 31 16 = min 65535 (fld (nReg k nDrops) 31 16 + 1)) ∧
      (bit cfg 31 = true → fld cnt 31 16 = gen.toNat → fld cnt 15 0 + 1 ≠ fld cfg 15 0 → nReg k2 (nBarCnt grp.toNat) = cnt + 1#32) ∧
      (bit cfg 31 = true → fld cnt 31 16 = gen.toNat → fld cnt 15 0 + 1 = fld cfg 15 0 →
        fld (nReg k2 (nBarCnt grp.toNat)) 15 0 = 0 ∧ fld (nReg k2 (nBarCnt grp.toNat)) 31 16 = (gen.toNat + 1) % 65536)) ∧
  (∀ (c : CoreId) (grp : BitVec 8) (gen : BitVec 16) (s : State),
    let k := s.core c.val
    leads (.release c grp gen) s fun t => onlyCore c.val s t ∧ t.now = s.now ∧ ∀ i, i < 4 →
      let w := cReg k (barReg i)
      let w2 := cReg (t.core c.val) (barReg i)
      (bit w 26 = true ∧ fld w 7 0 = grp.toNat ∧ fld w 23 8 = gen.toNat →
        bit w2 26 = false ∧ bit w2 27 = true ∧ fld w2 23 8 = (gen.toNat + 1) % 65536 ∧ fld w2 7 0 = fld w 7 0) ∧
      (¬ (bit w 26 = true ∧ fld w 7 0 = grp.toNat ∧ fld w 23 8 = gen.toNat) → w2 = w))) ∧
  (
  (∀ (c : CoreId) (grp : BitVec 10) (first : BitVec 16) (count : BitVec 8) (s : State),
    let k := s.core c.val
    leads (.missed c grp first count) s fun t => onlyCore c.val s t ∧ t.now = s.now ∧
      (4 ≤ k.missQ.length → (t.core c.val).missQ = k.missQ ∧ bit (cReg (t.core c.val) rSrcStatus) 2 = true) ∧
      (k.missQ.length < 4 → ∃ w, (t.core c.val).missQ = k.missQ ++ [w] ∧ fld w 15 0 = first.toNat ∧ fld w 25 16 = grp.toNat ∧
        fld w 30 26 = min count.toNat 31)) ∧
  (∀ (c : CoreId) (s : State), leads (.missPop c) s fun t => t.now = s.now ∧
    ((s.core c.val).missQ = [] → t.reply = some ⟨0, [0#32]⟩ ∧ (t.core c.val).missQ = []) ∧
    ∀ w rest, (s.core c.val).missQ = w :: rest → t.reply = some ⟨0, [w ||| 0x80000000#32]⟩ ∧ (t.core c.val).missQ = rest))

/-- A packet enters at its ingress router: its partition is stamped, its destination translated, its checks computed, and it stands in the
local input buffer; one whose destination is unknown is answered and, for a core, UNREACH is set (R346, R357). An output sends the packet
that R353 chooses: to its endpoint, or over its link into the next router's buffer with HOPS one higher; one with HOPS 63 is discarded with
HDROP; an output that can send none of those that wait counts a stall (R347 to R353, R373). -/
def Obligations.RoutersMovePackets : Prop :=
  (
  ∀ (r : RouterId) (p : Packet) (s : State),
    let k := s.router r.val
    let f := fillDest s k { p with part := if p.skind then p.part else BitVec.ofNat 12 (fld (nReg k nRegion) 17 6) }
    let inp := if isRim r.val && f.1.sep == 1 then 5 else 4
    let q := stampPacket f.1
    leads (.packetIngress r p) s fun t =>
      (f.2 ≠ stOk → t.net = (s.takeNet p).net ++ refuse f.1 f.2) ∧
      (f.2 = stUnreach → bit (nReg (t.router r.val) nStatus) 5 = true) ∧
      (f.2 = stOk → q.dkind ≠ 3#2 → bufDepth k (8 * inp + vcOf q false) + flitsOf q ≤ 18 → t.net = (s.takeNet p).net ∧
        hcrcOk q = true ∧ q.hops = 0#6 ∧
        ∃ b, mgetD (t.router r.val).bufs (8 * inp + vcOf q false) [] = mgetD k.bufs (8 * inp + vcOf q false) [] ++ [b] ∧ b.pkt = q)) ∧
  (
  ∀ (r : RouterId) (out : Fin 8) (s : State),
    let k := s.router r.val
    (headsFor k out.val = [] → missedFor k out.val = none → exec (.packetForward r out 0) s = .next s) ∧
    (headsFor k out.val ≠ [] → chooseHead k r.val out.val = none → missedFor k out.val = none → leads (.packetForward r out 0) s fun t =>
      t.net = s.net ∧ (t.router r.val).bufs = k.bufs ∧ nReg (t.router r.val) (nPort out.val 8) = nReg k (nPort out.val 8) + 1#32) ∧
    ∀ c, chooseHead k r.val out.val = some c → missedFor k out.val = none →
      (c.2.pkt.hops = 63#6 → leads (.packetForward r out 0) s fun t => t.net = s.net ∧ bit (nReg (t.router r.val) nStatus) 2 = true ∧
        t.records = s.records ++ [⟨.hopsDrop, r.val, []⟩] ∧ (mgetD (t.router r.val).bufs c.1 []).length + 1 = (mgetD k.bufs c.1 []).length) ∧
      (c.2.pkt.hops ≠ 63#6 → linkEnd r.val out.val = none → c.2.pkt.dkind ≠ 3#2 → leads (.packetForward r out 0) s fun t =>
        t.net = s.net ++ [c.2.pkt] ∧ nReg (t.router r.val) (nPort out.val 0) = nReg k (nPort out.val 0) + 1#32) ∧
      (∀ e, c.2.pkt.hops ≠ 63#6 → linkEnd r.val out.val = some e → e.1 ≠ r.val → c.2.pkt.dkind ≠ 3#2 → leads (.packetForward r out 0) s fun t =>
        let q : Packet := { c.2.pkt with dl := nextDl r.val (c.1 / 8) out.val c.2.pkt.dl, hops := c.2.pkt.hops + 1#6 }
        t.net = s.net ∧ nReg (t.router r.val) (nPort out.val 0) = nReg k (nPort out.val 0) + 1#32 ∧
        ∃ b, mgetD (t.router e.1).bufs (8 * e.2 + vcOf q q.dl) [] = mgetD (s.router e.1).bufs (8 * e.2 + vcOf q q.dl) [] ++ [b] ∧ b.pkt = q))

/-- Credits come back to their output; a branch not begun in time is cut, flagged, counted and owed a MISSED; an XLAT update stands in every
router at once (R352, R359, R369, R370). The active heartwood takes the oldest record: a heartbeat is noted with its time, base dies' with
their number, an uncorrectable block adds 500 to its stack's patina, and records it has no use for only leave the list (R344, R585, R612).
-/
def Obligations.RoutersKeepTheirState : Prop :=
  (
  (∀ (r : RouterId) (out : Fin 8) (vc : Fin 6) (s : State),
    let mine (c : CreditBack) : Bool := c.router == r.val && c.port == out.val && c.vc == vc.val
    (s.credits.find? mine = none → exec (.creditReturn r out vc) s = .next s) ∧
    ∀ c, s.credits.find? mine = some c → leads (.creditReturn r out vc) s fun t =>
      t.now = max s.now c.due ∧ t.credits = s.credits.erase c ∧
      mgetD (t.router r.val).used (8 * out.val + vc.val) (0, 0) =
        ((mgetD (s.router r.val).used (8 * out.val + vc.val) (0, 0)).1 - c.ord, (mgetD (s.router r.val).used (8 * out.val + vc.val) (0, 0)).2 - c.res)) ∧
  (∀ (r : RouterId) (out : Fin 8) (grp : BitVec 10) (s : State),
    let k := s.router r.val
    let cand := (headsFor k out.val).find? fun c => c.2.pkt.dkind == 3#2 && c.2.pkt.group == grp && !c.2.pkt.bar
    (cand = none → exec (.multicastCut r out grp) s = .next s) ∧
    ∀ c, cand = some c → leads (.multicastCut r out grp) s fun t =>
      t.now = max s.now (c.2.since + max 256 (fld (nReg k nHold) 15 0)) ∧ bit (nReg (t.router r.val) nStatus) 6 = true ∧
      fld (nReg (t.router r.val) (nPort out.val 0x14)) 15 0 = min 65535 (fld (nReg k (nPort out.val 0x14)) 15 0 + 1) ∧
      mget? (t.router r.val).missed (1024 * out.val + grp.toNat) = some (match mget? k.missed (1024 * out.val + grp.toNat) with
        | some q => (q.1, min 255 (q.2 + 1))
        | none => (c.2.pkt.mseq.toNat, 1))) ∧
  (∀ (es : List XlatEntry) (gen : Word) (s : State), leads (.xlat es gen) s fun t => t.net = s.net ∧ t.cores = s.cores ∧ ∀ r,
    nReg (t.router r) nGen = gen ∧ ∀ e ∈ es.take 7, (∀ f ∈ es.take 7, f.l = e.l → f = e) →
      fld (nReg (t.router r) (nMap e.l.val)) 2 0 = e.pcol.val ∧ fld (nReg (t.router r) (nMap e.l.val)) 5 3 = e.prow.val ∧
      bit (nReg (t.router r) (nMap e.l.val)) 31 = e.valid)) ∧
  (
  ∀ s : State,
    (s.records = [] → exec .record s = .next s) ∧
    ∀ r rest, s.records = r :: rest →
      (r.kind = .heartbeat → leads .record s fun t => t.records = rest ∧ mget? t.hw.beats r.src = some s.now ∧ t.cores = s.cores) ∧
      (r.kind = .silent ∨ r.kind = .reqTimeout ∨ r.kind = .portRate ∨ r.kind = .crcFour ∨ r.kind = .watchdog →
        exec .record s = .next { s with records := rest }) ∧
      (r.kind = .baseBeat → (s.stack r.src).corr / 1000 ≤ (s.stack r.src).told → leads .record s fun t =>
        t.records = rest ∧ mget? t.hw.beats (1000 + r.src) = some s.now))

/-- A read of a stack is answered 72 cycles after its channel takes it: a range that R383 forbids with RANGE, one that the ownership table
does not grant with PART; else with the bytes and their tarnish, and the memory stays as it was (R379, R383, R385, R388, R416). A read of a
block with one to three wrong symbols gives its bytes, counts it as corrected and has it written back; with more, the block is counted as
uncorrectable, its address captured where none is, and it is tarnished from then on (R412, R414, R415). A write that a stack takes stores
its bytes and no others, and its blocks take the tarnish of the data, a part of a block keeping its own; one that is turned away is answered
with its status and stores nothing (R383, R385, R387, R413, R416). -/
def Obligations.StackAccessesAct : Prop :=
  (
  ∀ (st : StackId) (off len : Nat) (part : BitVec 12) (m : Bool) (s : State),
    let k := s.stack st.val
    leads (.burmonRead st off len part m []) s fun t =>
      t.now = takenAt s st.val off + 72 ∧ (t.stack st.val).mem = k.mem ∧ (t.stack st.val).tarn = k.tarn ∧
      (burmonRange off len = false → t.reply = some ⟨stRange, [0#32]⟩) ∧
      (burmonRange off len = true → ownOk k off part.toNat false = false → t.reply = some ⟨stPart, [0#32]⟩) ∧
      (burmonRange off len = true → ownOk k off part.toNat false = true → t.reply = some ⟨stOk,
        (if (touched 64 off len).any (fun b => k.tarn.contains b) then 1#32 else 0#32) :: (List.range len).map fun i => (cellGet k.mem (off + i)).setWidth 32⟩)) ∧
  (
  ∀ (st : StackId) (off len e : Nat) (s : State), burmonRange off len = true → off % 64 + len ≤ 64 →
    let k := s.stack st.val
    let b := off / 64
    (1 ≤ e → e ≤ 3 → leads (.burmonRead st off len 0#12 false [(b, e)]) s fun t =>
      let k2 := t.stack st.val
      k2.mem = k.mem ∧ k2.tarn = k.tarn ∧ b ∈ k2.wback ∧ k2.corr = k.corr + 1 ∧
      kReg k2 kCe = BitVec.ofNat 32 (min 4294967295 ((kReg k kCe).toNat + 1)) ∧ t.records = s.records) ∧
    (3 < e → leads (.burmonRead st off len 0#12 false [(b, e)]) s fun t =>
      let k2 := t.stack st.val
      b ∈ k2.tarn ∧ blockRow b ∈ k2.toFix ∧ bit (kReg k2 kStatus) 0 = true ∧ fld (kReg k2 kUe) 15 0 = min 65535 (fld (kReg k kUe) 15 0 + 1) ∧
      t.records = s.records ++ [⟨.uncorrectable, st.val, [b]⟩] ∧
      (bit (kReg k kUeLo) 0 = false → kReg k2 kUeLo = BitVec.ofNat 32 (b * 64 + 1)) ∧ (bit (kReg k kUeLo) 0 = true → kReg k2 kUeLo = kReg k kUeLo))) ∧
  (
  ∀ (st : StackId) (off : Nat) (bytes : List Byte) (tarn : Bool) (part : BitVec 12) (crc : Bool) (s : State),
    let k := s.stack st.val
    let ok := burmonRange off bytes.length = true ∧ ownOk k off part.toNat true = true ∧ crc = true
    leads (.burmonWrite st off bytes tarn part crc []) s fun t =>
      let k2 := t.stack st.val
      t.now = takenAt s st.val off ∧
      (burmonRange off bytes.length = false → t.reply = some ⟨stRange, []⟩) ∧
      (burmonRange off bytes.length = true → ownOk k off part.toNat true = false → t.reply = some ⟨stPart, []⟩) ∧
      (burmonRange off bytes.length = true → ownOk k off part.toNat true = true → crc = false → t.reply = some ⟨stCrc, []⟩) ∧
      (¬ ok → k2 = k) ∧
      (ok → cellsWf k.mem = true → t.reply = some ⟨stOk, []⟩ ∧ cellsWf k2.mem = true ∧
        ∀ a, cellGet k2.mem a = if off ≤ a ∧ a < off + bytes.length then bytes.getD (a - off) 0#8 else cellGet k.mem a) ∧
      (ok → ∀ b ∈ touched 64 off bytes.length, tarn = true → b ∈ k2.tarn))

/-- The upkeep of a stack: a write-back is over, a refresh slot moves its pair on by 2 rows, by 4 while HOT, a scrub pass ends with the last
block, a row is repaired while its bank has spare rows and else REPAIR_FULL is set, a pair asks to be retrained, and a retraining takes the
next whole frame (R388, R389, R414, R417, R418, R423, R424). -/
def Obligations.StackUpkeepActs : Prop :=
  ∀ (st : StackId) (s : State),
    let k := s.stack st.val
    (∀ b, leads (.correctedWriteback st b) s fun t => t.now = s.now ∧ (t.stack st.val).wback = keyDel k.wback b ∧
      { t.stack st.val with wback := k.wback } = k) ∧
    (∀ p : Fin 16, leads (.refreshSlot st p) s fun t => s.now < t.now ∧ t.now ≤ s.now + 4096 + 256 ∧ t.now % 4096 = (256 * p.val + 256) % 4096 ∧
      mgetD (t.stack st.val).refr p.val 0 = (mgetD k.refr p.val 0 + if bit (kReg k kStatus) 2 then 4 else 2) % 16384) ∧
    (∀ b e, bit (kReg k kScrub) 6 = false ∨ lastBlock < b → exec (.scrub st b e) s = .next s) ∧
    (∀ b, bit (kReg k kScrub) 6 = true → b < lastBlock → exec (.scrub st b 0) s = .next (s.setStack st.val k)) ∧
    (bit (kReg k kScrub) 6 = true → leads (.scrub st lastBlock 0) s fun t =>
      fld (kReg (t.stack st.val) kScrub) 31 16 = (fld (kReg k kScrub) 31 16 + 1) % 65536 ∧ bit (kReg (t.stack st.val) kScrub) 6 = true) ∧
    (∀ (ch : Fin 32) (die : Fin 20) (bank : Fin 16) (row : Fin 16384),
      let r := rowNumber ch.val die.val bank.val row.val
      let n := mgetD k.spares ((ch.val * 20 + die.val) * 16 + bank.val) 0
      (r ∉ k.toFix → exec (.dramRowRepair st ch die bank row) s = .next s) ∧
      (r ∈ k.toFix → leads (.dramRowRepair st ch die bank row) s fun t =>
        (t.stack st.val).toFix = keyDel k.toFix r ∧
        (n < 8 → r ∈ (t.stack st.val).fixed ∧ mgetD (t.stack st.val).spares ((ch.val * 20 + die.val) * 16 + bank.val) 0 = n + 1) ∧
        (8 ≤ n → bit (kReg (t.stack st.val) kStatus) 4 = true ∧ (t.stack st.val).fixed = k.fixed ∧
          t.records = s.records ++ [⟨.repairFull, st.val, []⟩]))) ∧
    (∀ p : Fin 16, leads (.retrainRequest st p) s fun t => t.now = s.now ∧ bit (kReg (t.stack st.val) kStatus) (16 + p.val) = true ∧
      ∀ i, i ≠ 16 + p.val → bit (kReg (t.stack st.val) kStatus) i = bit (kReg k kStatus) i) ∧
    (∀ val, leads (.stackRetrainGo st val) s fun t => t.now = s.now ∧
      (bit (kReg k kRetrain) 5 = true → (t.stack st.val).regs = k.regs ∧ (t.stack st.val).trainBy = k.trainBy) ∧
      (bit (kReg k kRetrain) 5 = false → fld (kReg (t.stack st.val) kRetrain) 3 0 = fld val 3 0 ∧
        (bit val 4 = true → bit (kReg (t.stack st.val) kRetrain) 5 = true ∧ (t.stack st.val).trainBy = some ((s.now / 4096 + 2) * 4096)) ∧
        (bit val 4 = false → (t.stack st.val).trainBy = k.trainBy))) ∧
    (k.trainBy = none → exec (.retrainDone st) s = .next s) ∧
    (∀ e, k.trainBy = some e → leads (.retrainDone st) s fun t => t.now = max s.now e ∧ (t.stack st.val).trainBy = none ∧
      bit (kReg (t.stack st.val) kRetrain) 5 = false ∧ bit (kReg (t.stack st.val) kStatus) 1 = false ∧
      bit (kReg (t.stack st.val) kStatus) (16 + fld (kReg k kRetrain) 3 0) = false ∧
      fld (kReg (t.stack st.val) kRetrain) 31 16 = (fld (kReg k kRetrain) 31 16 + 1) % 65536)

/-- The commands of a stream context: a descriptor is taken where the context is not at work, START runs an idle stream whose descriptor
passes R397 and faults another, STOP stops one at work, a credit adds up to NBUF; a foreign partition is answered PART; a core's write of
`mem.credit` sends the credit as a packet (R394, R397, R398, R404, R426). A chunk of a SCHED stream moves in its planned cycle, out of the
core's scratchpad into memory, or out of memory into the buffer half fixed at its first chunk; outside a section, or once all are moved,
nothing happens (R221, R398, R399). -/
def Obligations.ScheduledStreamsAct : Prop :=
  (
  ∀ (st : StackId) (ctx : Fin 512) (part : BitVec 12) (s : State),
    let x := s.ctx st.val ctx.val
    let mine := ctxPart x part.toNat
    let after (t : State) : StreamCtx := t.ctx st.val ctx.val
    let only (t : State) : Prop := onlyContexts (s.stack st.val) (t.stack st.val) ∧ t.now = s.now ∧ ∀ c, c ≠ ctx.val → t.ctx st.val c = s.ctx st.val c
    (mine = false → (∀ ws, exec (.contextDescriptorWrite st ctx part ws) s = .next (s.answer stPart [])) ∧
      exec (.streamStart st ctx part) s = .next (s.answer stPart []) ∧ exec (.streamStop st ctx part) s = .next (s.answer stPart []) ∧
      ∀ n, exec (.credit st ctx part n) s = .next (s.answer stPart [])) ∧
    (∀ ws, mine = true → x.state = xRun ∨ x.state = xHalted ∨ ws.length ≠ 16 →
      exec (.contextDescriptorWrite st ctx part ws) s = .next (s.answer stRange [])) ∧
    (∀ ws, mine = true → x.state ≠ xRun → x.state ≠ xHalted → ws.length = 16 → leads (.contextDescriptorWrite st ctx part ws) s fun t =>
      only t ∧ t.reply = some ⟨stOk, []⟩ ∧ (after t).words = ws ∧ (after t).part = x.part ∧ ((after t).state = xIdle ∨ (after t).state = xFault)) ∧
    (mine = true → dKind x = kSched → exec (.streamStart st ctx part) s = .next (s.answer stRange [])) ∧
    (mine = true → dKind x ≠ kSched → leads (.streamStart st ctx part) s fun t => only t ∧ t.reply = some ⟨stOk, []⟩ ∧
      (x.state = xIdle → descOk s st.val x = true → (after t).state = xRun ∧ (after t).sent = 0 ∧ (after t).pos = 0) ∧
      (x.state = xIdle → descOk s st.val x = false → (after t).state = xFault ∧ (after t).reason = whyDesc) ∧
      (x.state ≠ xIdle → (after t).state = x.state)) ∧
    (mine = true → leads (.streamStop st ctx part) s fun t => only t ∧ t.reply = some ⟨stOk, []⟩ ∧
      (after t).state = if x.state = xRun ∨ x.state = xHalted then xStopped else x.state) ∧
    (∀ n, mine = true → leads (.credit st ctx part n) s fun t => only t ∧ t.reply = some ⟨stOk, []⟩ ∧ (after t).state = x.state ∧
      (after t).credits = min (dNbuf x) (x.credits + n.toNat) ∧ (dNbuf x < x.credits + n.toNat → (after t).credOvf = true)) ∧
    (∀ (c : CoreId) (val : Word),
      (fld val 31 20 ≠ 0 ∨ 56 ≤ fld val 14 9 → exec (.memCredit c val) s = .next s) ∧
      (fld val 31 20 = 0 → fld val 14 9 < 56 → (s.core c.val).fenceAt = none → leads (.memCredit c val) s fun t =>
        ∃ q, t.net = s.net ++ [q] ∧ q.type = tWR ∧ q.dkind = 1#2 ∧ q.payload = bytesOfWord (BitVec.ofNat 32 (fld val 19 15)) ∧
          ctxAddr q.addr.toNat = some (fld val 14 9, fld val 8 0, 68)))) ∧
  (
  ∀ (st : StackId) (ctx : Fin 512) (s : State),
    let x := s.ctx st.val ctx.val
    let k := s.core (dDest x)
    let i := x.sent
    (k.launchAt = none ∨ x.state ≠ xRun ∨ dKind x ≠ kSched ∨ dTotal x ≤ i ∨ k.awaiting = true →
      exec (.schedChunk st ctx [] []) s = .next s) ∧
    ∀ l off, k.launchAt = some l → x.state = xRun → dKind x = kSched → i < dTotal x → k.awaiting = false → chunkOff x st.val i = some off →
      let u := l + dStart x + i * dPeriod x
      leads (.schedChunk st ctx [] []) s fun t =>
        t.now = max s.now u ∧ (t.ctx st.val ctx.val).sent = i + 1 ∧ (t.ctx st.val ctx.val).state = xRun ∧
        (dOut x = true → cellsWf (s.stack st.val).mem = true → off % 64 = 0 → off + dChunk x ≤ stackBytes →
          ∀ j, j < dChunk x → cellGet (t.stack st.val).mem (off + j) =
            spadByte (settleCore k u).spad u (dDaddr x + i % (dNbuf x * dFill x) * dChunk x + j)) ∧
        (dOut x = false → (t.stack st.val).mem = (s.stack st.val).mem ∧
          ∀ f, fillFirst x i = true → fillBegin (settleCore k u) (dBuf x + (i / dFill x) % dNbuf x) = some f →
            (∀ w ∈ (settleCore k u).spad.log, ∀ j, j < dChunk x → w.covers (f.addr + j) = false) →
            ∀ j cyc, j < dChunk x → u + latency (settleCore k u) ≤ cyc →
              spadByte (t.core (dDest x)).spad cyc (f.addr + j) = cellGet (s.stack st.val).mem (off + j)))

/-- A SERVICE or REMOTE stream sends its next chunk as a WR, for a credit where it begins a fill, and after a fill its HQP; a SHARED stream
sends MCWRs of its group, and after a fill its sequence word; without a credit a fill waits (R403 to R406). A REMOTE stream halts at a page
that is not there, counted and reported; resolved it runs again from POS; unresolved for 100 ms it has FAILED, which is reported (R421,
R422). -/
def Obligations.ServiceStreamsAct : Prop :=
  (
  ∀ (st : StackId) (ctx : Fin 512) (errs : List (Nat × Nat)) (host : List Byte) (s : State),
    let x := s.ctx st.val ctx.val
    let i := x.sent
    let f := fetchChunk s st.val ctx.val i (x.part.getD 0) errs host
    let g := fetchChunk s st.val ctx.val i (x.part.getD 0) errs []
    let after (t : State) : StreamCtx := t.ctx st.val ctx.val
    let service := dKind x = kService ∨ dKind x = kRemote
    (x.state ≠ xRun ∨ ¬ service → exec (.serviceChunk st ctx errs host) s = .next s) ∧
    (x.state ≠ xRun ∨ dKind x ≠ kShared → exec (.sharedChunk st ctx errs) s = .next s) ∧
    (x.state = xRun → service → x.hqpDue = true → leads (.serviceChunk st ctx errs host) s fun t =>
      ∃ q, t.net = s.net ++ [q] ∧ q.type = tHQP ∧ q.tdata = [dHandle x, BitVec.ofNat 32 (dHq x)] ∧ (after t).hqpDue = false ∧ (after t).sent = i) ∧
    (x.hqpDue = false → x.seqDue = false → dTotal x ≤ i ∨ (fillFirst x i = true ∧ x.credits = 0) →
      exec (.serviceChunk st ctx errs host) s = .next s ∧ exec (.sharedChunk st ctx errs) s = .next s) ∧
    (x.state = xRun → service → x.hqpDue = false → i < dTotal x → fillFirst x i = false ∨ 0 < x.credits → f.2.1 = stOk →
      leads (.serviceChunk st ctx errs host) s fun t =>
        ∃ q, t.net = f.1.net ++ [q] ∧ q.type = tWR ∧ q.payload = f.2.2.1 ∧ q.tarnish = f.2.2.2 ∧ (after t).sent = i + 1 ∧
          (after t).credits = (if fillFirst x i then x.credits - 1 else x.credits) ∧ (after t).hqpDue = (fillLast x i && dPush x)) ∧
    (x.state = xRun → dKind x = kShared → x.seqDue = true → leads (.sharedChunk st ctx errs) s fun t =>
      ∃ q, t.net = s.net ++ [q] ∧ q.type = tMCWR ∧ q.group = BitVec.ofNat 10 (dGroup x) ∧ q.payload = bytesOfWord (BitVec.ofNat 32 i) ∧
        q.addr = BitVec.ofNat 64 (dSword x) ∧ (after t).seqDue = false) ∧
    (x.state = xRun → dKind x = kShared → x.seqDue = false → i < dTotal x → fillFirst x i = false ∨ 0 < x.credits → g.2.1 = stOk →
      leads (.sharedChunk st ctx errs) s fun t =>
        ∃ q, t.net = g.1.net ++ [q] ∧ q.type = tMCWR ∧ q.group = BitVec.ofNat 10 (dGroup x) ∧ q.payload = g.2.2.1 ∧
          q.mseq = BitVec.ofNat 16 x.mseq ∧ (after t).sent = i + 1 ∧ (after t).seqDue = fillLast x i)) ∧
  (
  ∀ (st : StackId) (ctx : Fin 512) (s : State),
    let x := s.ctx st.val ctx.val
    let after (t : State) : StreamCtx := t.ctx st.val ctx.val
    (∀ un : Bool, (x.state ≠ xRun ∨ dKind x ≠ kRemote → exec (.remoteHalt st ctx un) s = .next s) ∧
      (x.state = xRun → dKind x = kRemote → leads (.remoteHalt st ctx un) s fun t => t.now = s.now ∧ (after t).state = xHalted ∧
        (after t).reason = (if un then whyUnreach else whyMiss) ∧ (after t).pos = x.pos ∧
        fld (kReg (t.stack st.val) kUe) 31 16 = min 65535 (fld (kReg (s.stack st.val) kUe) 31 16 + 1) ∧
        t.records = s.records ++ [⟨.pageMiss, st.val, [ctx.val, if un then whyUnreach else whyMiss]⟩])) ∧
    (x.state ≠ xHalted → exec (.remoteResume st ctx) s = .next s ∧ exec (.remoteFail st ctx) s = .next s) ∧
    (x.state = xHalted → leads (.remoteResume st ctx) s fun t => t.now = s.now ∧ (after t).state = xRun ∧ (after t).sent = x.pos ∧ (after t).pos = x.pos) ∧
    (x.state = xHalted → leads (.remoteFail st ctx) s fun t => t.now = max s.now (x.haltAt + 160000000) ∧ (after t).state = xFailed ∧
      t.records = s.records ++ [⟨.streamFailed, st.val, [ctx.val]⟩]))

/-- A transfer starts with one packet for each 512-byte range it touches, or is refused with STATUS 0xE; once all are answered BUSY is
clear, STATUS stands and the completion word is written where it is asked for (R383, R410, R411). -/
def Obligations.TransfersAct : Prop :=
  ∀ (c : CoreId) (x : Fin 4) (val : Word) (s : State),
    let k := settleCore (s.core c.val) s.now
    let r := xferReg x.val 0x14
    leads (.xferStart c x val) s (fun t =>
      (xferRefused k x.val val = true → t.net = s.net ∧ fld (cReg (t.core c.val) r) 4 1 = 14 ∧ (t.core c.val).xfers = k.xfers) ∧
      (xferRefused k x.val val = false → (s.core c.val).fenceAt = none → cReg (t.core c.val) r = 1#32 ∧
        t.net.length = s.net.length + (touched 512 (xferAddr k x.val) (fld val 20 0)).length ∧
        ∃ f, mget? (t.core c.val).xfers x.val = some f ∧ f.left = (touched 512 (xferAddr k x.val) (fld val 20 0)).length ∧
          f.len = fld val 20 0 ∧ f.toBurmon = bit val 21)) ∧
    (mget? (s.core c.val).xfers x.val = none → leads (.xferComplete c x) s fun t => onlyCore c.val s t ∧ (t.core c.val).regs = (s.core c.val).regs) ∧
    ∀ f, mget? (s.core c.val).xfers x.val = some f →
      (f.left ≠ 0 → leads (.xferComplete c x) s fun t => onlyCore c.val s t ∧ (t.core c.val).regs = (s.core c.val).regs ∧ (t.core c.val).spad = (s.core c.val).spad) ∧
      (f.left = 0 → leads (.xferComplete c x) s fun t => onlyCore c.val s t ∧ bit (cReg (t.core c.val) r) 0 = false ∧
        fld (cReg (t.core c.val) r) 4 1 = f.status % 16 ∧
        (bit (cReg (s.core c.val) (xferReg x.val 0xC)) 31 = false → (t.core c.val).spad = (s.core c.val).spad) ∧
        (bit (cReg (s.core c.val) (xferReg x.val 0xC)) 31 = true → fld (cReg (s.core c.val) (xferReg x.val 0xC)) 21 2 * 4 + 4 ≤ 0x300000 →
          ∃ w, bytesStored (s.now + 1) (fld (cReg (s.core c.val) (xferReg x.val 0xC)) 21 2 * 4) (bytesOfWord w) (s.core c.val) (t.core c.val) ∧
            bit w 31 = true ∧ fld w 3 0 = f.status % 16))

/-- PTP messages: one on a port that is not listed does nothing; one of another domain, of a master that is not its port's best, or with an
interval out of range is counted and ignored; a Sync on the first port with a qualified master makes that port and master serve, sets a map
that is not set to the time it gives, and the sixteenth small offset locks; Follow_Up ends a two-step Sync, Delay_Resp a measurement of the
delay, and an Announce that qualifies a master ends UNSET (R433 to R439). The sources of time: the serving port's loss of its link, of
Announces or of Syncs; HOLDOVER where no master is left, ADRIFT once HOLD_MAX is spent; a PPS edge near a whole second disciplines the map
and a far one is counted; 2 s without one end its service; ERR follows R441; a copy of device time more than 2 cyc off is reported (R431,
R438 to R441). -/
def Obligations.TimeFollowsPtp : Prop :=
  (
  ∀ (p : PortId) (dom : BitVec 8) (ident : BitVec 64) (s : State),
    let here := p.val ∈ listedPorts s
    let mine := ptpDomain s dom.toNat = true
    let best := isBest s p.val ident.toNat = true
    let counted (x : Instr) : Prop := leads x s fun t => onlyWin s t ∧ winCounts s t tCount 15 0 1
    let serves (t : State) : Prop := fld (wReg t tStatus) 7 5 = p.val ∧ fld (wReg t tStatus) 4 3 = 1 ∧ t.tmb.isSet = true ∧ t.now = s.now
    (∀ log two t1, ¬ here → exec (.ptpSync p dom ident log two t1) s = .next s) ∧
    (∀ t1, ¬ here → exec (.followUp p dom ident t1) s = .next s ∧ exec (.delayResp p dom ident t1) s = .next s) ∧
    (∀ a, ¬ here → exec (.announce p dom a) s = .next s) ∧
    (∀ log two t1, here → ¬ mine ∨ ¬ best ∨ log < -7 ∨ -1 < log → counted (.ptpSync p dom ident log two t1)) ∧
    (∀ t1, here → ¬ mine ∨ ¬ best → counted (.followUp p dom ident t1) ∧ counted (.delayResp p dom ident t1)) ∧
    (∀ a : Announce, here → ¬ mine ∨ a.log < -3 ∨ 1 < a.log → counted (.announce p dom a)) ∧
    (∀ log t1, here → mine → best → -7 ≤ log → log ≤ -1 →
      let u : State := { s with tmb := { updMaster s.tmb p.val ident.toNat (fun m => { m with syncLog := log, lastSync := s.now }) with
        silent := s.tmb.silent.erase p.val } }
      (∀ two, firstPort u ≠ some p.val → s.tmb.serving ≠ some p.val → exec (.ptpSync p dom ident log two t1) s = .next u) ∧
      (firstPort u = some p.val → leads (.ptpSync p dom ident log true t1) s fun t =>
        t.tmb.serving = some p.val ∧ t.tmb.twoStep = some (p.val, ident.toNat, s.now) ∧ t.tmb.p0 = s.tmb.p0) ∧
      (firstPort u = some p.val → leads (.ptpSync p dom ident log false t1) s fun t =>
        serves t ∧ t.tmb.serving = some p.val ∧ t.tmb.gm = some ident.toNat ∧
        (s.tmb.isSet = false → mapAt t.tmb s.now = ((t1 : Int) + s.tmb.delay) * (two40 : Int)) ∧
        (15 ≤ s.tmb.small → (((t1 : Int) + s.tmb.delay) * (two40 : Int) - mapAt s.tmb s.now).natAbs ≤ fld (wReg s tThr) 15 0 * two40 →
          tState s = tAcquiring ∨ tState s = tHoldover ∨ tState s = tAdrift → tState t = tLocked))) ∧
    (∀ t1, here → mine → best → s.tmb.twoStep = none → exec (.followUp p dom ident t1) s = .next s) ∧
    (∀ t1 d, here → mine → best → s.tmb.twoStep = some (p.val, ident.toNat, d) → leads (.followUp p dom ident t1) s fun t =>
      serves t ∧ t.tmb.twoStep = none) ∧
    (∀ t1, here → mine → best → s.tmb.serving ≠ some p.val ∨ s.tmb.t3 = none → exec (.delayResp p dom ident t1) s = .next s) ∧
    (∀ (t4 : Nat) t3, here → mine → best → s.tmb.serving = some p.val → s.tmb.t3 = some t3 → leads (.delayResp p dom ident t4) s fun t =>
      t.tmb.t3 = none ∧ (2 * t.tmb.delay - ((s.tmb.t2 - s.tmb.t1) + ((t4 : Int) - t3))).natAbs ≤ 1 ∧ t.win = s.win) ∧
    (s.tmb.serving = none → exec .delayReq s = .next s) ∧
    (s.tmb.serving ≠ none → exec .delayReq s = .next { s with tmb := { s.tmb with t3 := some (mapNs s.tmb s.now) } }) ∧
    (∀ a : Announce, here → mine → -3 ≤ a.log → a.log ≤ 1 → leads (.announce p dom a) s fun t =>
      (∃ m ∈ mgetD t.tmb.masters p.val [], m.ident = a.ident.toNat ∧ m.lastAnn = s.now ∧ m.annLog = a.log ∧ m.timeout = max 3 a.timeout) ∧
      (tState s = tUnset → firstPort t ≠ none → tState t = tAcquiring ∧ wReg t tErr = 0xFFFFFFFF#32) ∧
      (tState s ≠ tUnset ∨ firstPort t = none → t.win = s.win))) ∧
  (
  ∀ s : State,
    let unit : Int := 1000000000 * (two40 : Int)
    let off40 : Int := (mapAt s.tmb s.now + unit / 2) / unit * unit - mapAt s.tmb s.now
    let fix := bit (wReg s tCfg) 10 = true ∧ (tState s = tHoldover ∨ tState s = tAdrift)
    let falls (t : State) : Prop := firstPort t = none → fld (wReg t tStatus) 4 3 = 0 ∧
      (tState s = tLocked → tState t = tHoldover ∧ t.tmb.heldFrom = some t.now) ∧ (tState s ≠ tLocked → tState t = tState s)
    (s.tmb.serving = none → ∀ why, exec (.servingPortMove why) s = .next s) ∧
    (∀ p, s.tmb.serving = some p →
      (leads (.servingPortMove 0) s fun t => t.now = s.now ∧ mgetD t.tmb.masters p [] = [] ∧ falls t) ∧
      ∀ m, bestMaster s p = some m →
        (leads (.servingPortMove 1) s fun t => t.now = max s.now (m.lastAnn + m.timeout * logCyc m.annLog + 1) ∧ falls t) ∧
        (leads (.servingPortMove 2) s fun t => t.now = max s.now (m.lastSync + 3 * logCyc m.syncLog) ∧ p ∈ t.tmb.silent ∧ falls t)) ∧
    (s.tmb.heldFrom = none ∨ tState s ≠ tHoldover → exec .holdoverLimit s = .next s) ∧
    (∀ f, s.tmb.heldFrom = some f → tState s = tHoldover → leads .holdoverLimit s fun t =>
      t.now = max s.now (f + (fld (wReg s tHold) 15 0 * secondCyc - s.tmb.held)) ∧ tState t = tAdrift ∧ t.tmb.heldFrom = none) ∧
    (¬ fix → exec .ppsEdge s = .next s) ∧
    (fix → fld (wReg s tHold) 31 16 * 1000 * two40 < off40.natAbs → leads .ppsEdge s fun t =>
      onlyWin s t ∧ bit (wReg t tStatus) 10 = true ∧ winCounts s t tCount 31 16 1 ∧ tState t = tState s) ∧
    (fix → off40.natAbs ≤ fld (wReg s tHold) 31 16 * 1000 * two40 → leads .ppsEdge s fun t =>
      t.now = s.now ∧ t.tmb.ppsOn = true ∧ t.tmb.ppsLast = s.now ∧ fld (wReg t tStatus) 4 3 = 2 ∧ tState t = tState s ∧
      (stepsMap s off40 = true → mapAt t.tmb s.now = mapAt s.tmb s.now + off40) ∧
      (stepsMap s off40 = false → mapAt t.tmb s.now = mapAt s.tmb s.now)) ∧
    (s.tmb.ppsOn = false → exec .ppsLapse s = .next s) ∧
    (s.tmb.ppsOn = true → leads .ppsLapse s fun t => t.now = max s.now (s.tmb.ppsLast + 3200000000) ∧ t.tmb.ppsOn = false ∧
      fld (wReg t tStatus) 4 3 = 0 ∧ tState t = tState s) ∧
    (leads .errRecompute s fun t => t.tmb = s.tmb ∧ t.now = s.now ∧ wReg t tErr = BitVec.ofNat 32 (min (errNow s) 0xFFFFFFFF)) ∧
    (∀ isStack unit skew, leads (.alignmentWord isStack unit skew) s fun t =>
      let u := if isStack then 1000 + unit else unit
      (2 < Int.natAbs skew → bit (wReg t tStatus) 11 = true ∧ u ∈ t.tmb.lost ∧ t.records = s.records ++ [⟨.skew, u, []⟩]) ∧
      (Int.natAbs skew ≤ 2 → t.win = s.win ∧ t.records = s.records ∧ ∀ v, v ∈ t.tmb.lost ↔ v ∈ s.tmb.lost ∧ v ≠ u)))

/-- Frame clocks and booked events: an enable is taken where R443 allows it and else flagged, a line begins when the map says so and the
position never goes back; a booking needs its lead, its place and, for a launch, its multiple of 4,096 cyc; a cancel comes in time or is
refused; SNAP copies the map (R443 to R449, R454, R455). -/
def Obligations.ClocksAndEventsAct : Prop :=
  ∀ s : State,
    (∀ (k : Fin 16) (val : Word),
      let n := clkNum s k.val
      let d := clkDen s k.val
      let l := fld val 13 0
      let ok := (tState s = tLocked ∨ tState s = tHoldover ∨ tState s = tAdrift) ∧ 24000 * d ≤ 1001 * n ∧ n ≤ 240 * d ∧
        3 * n * l ≤ 1000000 * d ∧ 1 ≤ n ∧ n ≤ 240000 ∧ 1 ≤ d ∧ d ≤ 65535 ∧ 1 ≤ l ∧ l ≤ 16383
      (clkOn s k.val = true → bit val 31 = true → exec (.frameClockEnable k val) s = .next s) ∧
      (clkOn s k.val = true → bit val 31 = false → leads (.frameClockEnable k val) s fun t => onlyWin s t ∧ clkOn t k.val = false ∧
        clkLines t k.val = clkLines s k.val) ∧
      (clkOn s k.val = false → bit val 31 = false → leads (.frameClockEnable k val) s fun t => onlyWin s t ∧ clkOn t k.val = false ∧
        clkLines t k.val = l) ∧
      (clkOn s k.val = false → bit val 31 = true → ¬ ok → leads (.frameClockEnable k val) s fun t =>
        onlyWin s t ∧ clkOn t k.val = false ∧ bit (wReg t (tClk k.val 0x18)) 1 = true) ∧
      (clkOn s k.val = false → bit val 31 = true → ok → leads (.frameClockEnable k val) s fun t =>
        clkOn t k.val = true ∧ clkLines t k.val = l ∧
        clkPos t k.val = ⟨lineAt n d l (mapNs s.tmb s.now).toNat / l, lineAt n d l (mapNs s.tmb s.now).toNat % l, false⟩)) ∧
    (∀ k : Fin 16,
      let c := clkPos s k.val
      let m := c.frame * clkLines s k.val + c.line + 1
      (clkOn s k.val = false ∨ clkLines s k.val = 0 → exec (.lineStart k) s = .next s) ∧
      (clkOn s k.val = true → clkLines s k.val ≠ 0 → leads (.lineStart k) s fun t =>
        t.now = max s.now (devOf s.tmb (lineNs (clkNum s k.val) (clkDen s k.val) (clkLines s k.val) m)) ∧
        (c.frame < (clkPos t k.val).frame ∨ (c.frame = (clkPos t k.val).frame ∧ c.line ≤ (clkPos t k.val).line)) ∧
        ∀ j, j ≠ k.val → clkPos t j = clkPos s j)) ∧
    (∀ (b : BookKind) (time : Nat),
      let full := 16 ≤ (s.tmb.events.filter fun e => sameTarget e.kind b).length
      let odd := (∃ p, b = .launch p) ∧ time % 4096 ≠ 0
      (time < s.now + 4096 ∨ full ∨ odd → exec (.eventBook b time) s = .next (s.answer 1 [])) ∧
      (s.now + 4096 ≤ time → ¬ full → ¬ odd → leads (.eventBook b time) s fun t =>
        t.tmb.events = s.tmb.events ++ [⟨s.tmb.nextEv, b, time⟩] ∧ t.reply = some ⟨0, [BitVec.ofNat 32 s.tmb.nextEv]⟩ ∧ t.now = s.now)) ∧
    (∀ id : Nat,
      ((∀ e ∈ s.tmb.events, e.id ≠ id) → exec (.eventCancel id) s = .next (s.answer 1 [])) ∧
      ∀ e, s.tmb.events.find? (fun e => e.id == id) = some e →
        (e.time < s.now + 4096 → exec (.eventCancel id) s = .next (s.answer 1 [])) ∧
        (s.now + 4096 ≤ e.time → leads (.eventCancel id) s fun t => t.reply = some ⟨0, []⟩ ∧
          ∀ x, x ∈ t.tmb.events ↔ x ∈ s.tmb.events ∧ x.id ≠ id)) ∧
    (leads .snap s fun t => onlyWin s t ∧ wReg t 0x10024 = BitVec.ofNat 32 s.tmb.d0 ∧ wReg t 0x10028 = BitVec.ofNat 32 (s.tmb.d0 / 2 ^ 32) ∧
      wReg t 0x1002C = BitVec.ofNat 32 (s.tmb.p0 / (two40 : Int)).toNat ∧
      wReg t 0x10030 = BitVec.ofNat 32 ((s.tmb.p0 / (two40 : Int)).toNat / 2 ^ 32) ∧
      wReg t 0x10034 = BitVec.ofNat 32 s.tmb.rate ∧ wReg t 0x10038 = BitVec.ofNat 32 (s.tmb.rate / 2 ^ 32))

/-- A received frame: a port that carries none ignores it; one with a bad FCS, of a bad length or with a second tag, or not for this port,
is counted where R462 says and not accepted; an accepted one is counted with its bytes, in QUIET dropped unless it is a bring-up request,
which waits for its reply or meets the limit; a PAUSE is malformed, and RoCEv2 takes its place in the receive buffer (R462 to R464, R471,
R472). Port states: a training port locks into QUIET or UP; a port in QUIET or UP that loses its lock, or is told to retrain, trains and
counts it; a fence empties it, and an unfence has it train where the module is in place; the announcement ends quiet mode on every port that
can carry it, and is repeated; a request not answered in 10 ms ends (R458 to R460, R464 to R469). -/
def Obligations.PortsJudgeAndFollow : Prop :=
  (
  ∀ (p : PortId) (f : Frame) (s : State),
    let st := portState s p.val
    let on := st = poQuiet ∨ st = poUp
    let clean := f.corr = 0 ∧ f.uncorr = 0
    let sized := 64 ≤ f.len ∧ f.len ≤ 9216 ∧ f.tags ≤ 1
    let ours := f.dst.toNat = portMac s p.val ∨ f.dst = 0xFFFFFFFFFFFF#48 ∨ f.dst = 0x01005E000181#48 ∨ f.dst = 0x0180C2000001#48
    let ctr (t : State) (c : Nat) : Prop := winCounts s t (pReg p.val (0x60 + 4 * c)) 31 0 1
    let frames (t : State) : Nat := (wReg t (pReg p.val 0x40)).toNat + 2 ^ 32 * (wReg t (pReg p.val 0x44)).toNat
    let bytes (t : State) : Nat := (wReg t (pReg p.val 0x48)).toNat + 2 ^ 32 * (wReg t (pReg p.val 0x4C)).toNat
    let good := judgeFrame s p.val f = none ∧ clean
    let sentHere (h : Ipv4) : Prop := f.ip = some h ∧ h.udp = some 48112#16 ∧ (h.dst = portIp s p.val ∨ h.dst = 0xFFFFFFFF#32 ∨ portIp s p.val = 0#32)
    let full (h : Ipv4) : Prop := (∃ e ∈ (s.port p.val).brup, e.1 = h.src.toNat) ∨ 64 ≤ (s.port p.val).brup.length
    (¬ on → exec (.frameReceive p f) s = .next s) ∧
    (on → clean → f.fcsOk = false → leads (.frameReceive p f) s fun t => ctr t 0 ∧ frames t = frames s) ∧
    (on → clean → f.fcsOk = true → ¬ sized → leads (.frameReceive p f) s fun t => ctr t 1 ∧ frames t = frames s) ∧
    (on → clean → f.fcsOk = true → sized → ¬ ours → leads (.frameReceive p f) s fun t => ctr t 2 ∧ frames t = frames s) ∧
    (on → good → leads (.frameReceive p f) s fun t => frames t = (frames s + 1) % 2 ^ 64 ∧ bytes t = (bytes s + f.len) % 2 ^ 64) ∧
    (st = poQuiet → good → (∀ h, ¬ sentHere h) → leads (.frameReceive p f) s fun t => ctr t 3 ∧ (t.port p.val).brup = (s.port p.val).brup) ∧
    (∀ h op xid, st = poQuiet → good → sentHere h → h.brup = some (op, xid) →
      (full h → leads (.frameReceive p f) s fun t => ctr t 4 ∧ (t.port p.val).brup = (s.port p.val).brup) ∧
      (¬ full h → 1 ≤ op.toNat → op.toNat ≤ 4 → leads (.frameReceive p f) s fun t =>
        (t.port p.val).brup = (s.port p.val).brup ++ [(h.src.toNat, s.now)] ∧ t.reply = s.reply) ∧
      (¬ full h → op.toNat = 0 ∨ 4 < op.toNat → rstHeld s = false → leads (.frameReceive p f) s fun t => t.reply = some ⟨1, [xid]⟩)) ∧
    (st = poUp → good → f.etype = 0x8808#16 → f.pause = true → leads (.frameReceive p f) s fun t => ctr t 1) ∧
    (∀ h, st = poUp → good → f.etype = 0x0800#16 → f.ip = some h → h.udp = some 4791#16 → leads (.frameReceive p f) s fun t =>
      let i := framePrio s p.val f
      let occ := mgetD (s.port p.val).occ i 0
      (pfcOn s p.val i = false → 262144 < occ + f.len → ctr t 5 ∧ mgetD (t.port p.val).occ i 0 = occ) ∧
      (pfcOn s p.val i = true ∨ occ + f.len ≤ 262144 → mgetD (t.port p.val).occ i 0 = occ + f.len) ∧
      (pfcOn s p.val i = true → 196608 ≤ occ + f.len → mget? (s.port p.val).pfcNext i = none →
        wReg t (pReg p.val (0x104 + 8 * i)) = wReg s (pReg p.val (0x104 + 8 * i)) + 1#32 ∧ mget? (t.port p.val).pfcNext i = some (s.now + 64000)))) ∧
  (
  ∀ (p : PortId) (s : State),
    let st := portState s p.val
    let lit := st = poQuiet ∨ st = poUp
    let trains (t : State) : Prop := portState t p.val = poTraining ∧ winCounts s t (pReg p.val 0x9C) 31 24 1
    (st ≠ poTraining → exec (.linkLock p) s = .next s) ∧
    (st = poTraining → leads (.linkLock p) s fun t => portState t p.val = (if s.hw.ready then poUp else poQuiet) ∧
      (t.port p.val).mode = fld (wReg s (pReg p.val 0)) 2 0 ∧
      (s.hw.ready = true → (s.port p.val).annOwed = true → (t.port p.val).repeats = [s.now + 160000000, s.now + 1600000000])) ∧
    (st = poFenced → (∀ b, exec (.linkLoss p b) s = .next s) ∧ exec (.retrain p) s = .next s) ∧
    (lit → fld (wReg s (0x200300 + 4 * p.val)) 15 0 + 50 < 32000 → leads (.retrain p) s trains ∧ ∀ b, leads (.linkLoss p b) s trains) ∧
    (st = poDown ∨ st = poTraining → leads (.retrain p) s fun t => portState t p.val = poTraining ∧
      wReg t (pReg p.val 0x9C) = wReg s (pReg p.val 0x9C)) ∧
    (leads (.portFence p) s fun t => portState t p.val = poFenced ∧ (t.port p.val).brup = [] ∧ (t.port p.val).txq = [] ∧
      (t.port p.val).pauses = [] ∧ t.net = s.net ∧ ∀ q, q ≠ p.val → t.port q = s.port q) ∧
    (st ≠ poFenced ∨ s.mod.mated = false ∨ sbdLeaves s = true → exec (.unfence p) s = .next s) ∧
    (st = poFenced → s.mod.mated = true → sbdLeaves s = false → leads (.unfence p) s fun t => portState t p.val = poTraining ∧
      t.hw.fenced = s.hw.fenced.erase (portUnit p.val) ∧ bit (wReg t (0x200300 + 4 * p.val)) 18 = false) ∧
    (s.hw.ready = true ∨ bit (wReg s 0x8) 13 = false → exec .readyAnnouncement s = .next s) ∧
    (s.hw.ready = false → bit (wReg s 0x8) 13 = true → leads .readyAnnouncement s fun t =>
      t.now = max s.now (s.mod.enAt + 1600000000) ∧ t.hw.ready = true ∧ t.hw.annSeq = s.hw.annSeq + 1 ∧ bit (wReg t 0x0) 4 = true ∧
      (lit → portState t p.val = poUp) ∧ (¬ lit → portState t p.val = st ∧ (st ≠ poFenced → (t.port p.val).annOwed = true))) ∧
    ((s.port p.val).repeats = [] → exec (.readyRepeat p) s = .next s) ∧
    (∀ u rest, (s.port p.val).repeats = u :: rest → leads (.readyRepeat p) s fun t => t.now = max s.now u ∧ (t.port p.val).repeats = rest) ∧
    (∀ src : Word, ((∀ e ∈ (s.port p.val).brup, e.1 ≠ src.toNat) → exec (.bringupRequestExpire p src) s = .next s) ∧
      ∀ e, (s.port p.val).brup.find? (fun e => e.1 == src.toNat) = some e → leads (.bringupRequestExpire p src) s fun t =>
        t.now = max s.now (e.2 + 16000000) ∧ t.reply = s.reply ∧ ∀ x, x ∈ (t.port p.val).brup ↔ x ∈ (s.port p.val).brup ∧ x.1 ≠ src.toNat))

/-- Priority flow control: a received frame counts for each priority it names and holds those with PFC for their quanta; a pause ends and
what waited leaves; a full buffer's frame is repeated; the watchdog drops what waits and ignores pauses until none has come for WD_MS;
counters that grow too fast are reported (R472 to R474, R488). -/
def Obligations.FlowControlActs : Prop :=
  ∀ (p : PortId) (i : Fin 8) (s : State),
    let k := s.port p.val
    let ok := mkeysRising k.pauses = true ∧ mkeysRising k.txq = true ∧ mkeysRising k.ignored = true
    let rx := pReg p.val (0x100 + 8 * i.val)
    (∀ vec quanta, portState s p.val ≠ poUp → exec (.pfcReceive p vec quanta) s = .next s) ∧
    (∀ (vec : BitVec 8) (quanta : List (BitVec 16)), portState s p.val = poUp → leads (.pfcReceive p vec quanta) s fun t =>
      wReg t rx = (if vec.getLsbD i.val then wReg s rx + 1#32 else wReg s rx) ∧ t.now = s.now ∧
      (ok → vec.getLsbD i.val = false ∨ pfcOn s p.val i.val = false → mget? (t.port p.val).pauses i.val = mget? k.pauses i.val) ∧
      (ok → vec.getLsbD i.val = true → pfcOn s p.val i.val = true → mget? k.ignored i.val = none →
        s.now < pauseEnd s p.val (quanta.getD i.val 0#16).toNat →
        mget? (t.port p.val).pauses i.val = some (pauseEnd s p.val (quanta.getD i.val 0#16).toNat)) ∧
      (ok → vec.getLsbD i.val = true → pfcOn s p.val i.val = true → mget? k.ignored i.val = none → (quanta.getD i.val 0#16) = 0#16 →
        mget? (t.port p.val).pauses i.val = none ∧ mget? (t.port p.val).txq i.val = none)) ∧
    (mget? k.pauses i.val = none → exec (.pauseExpire p i) s = .next s) ∧
    (∀ u, mget? k.pauses i.val = some u → leads (.pauseExpire p i) s fun t => t.now = max s.now u ∧
      (ok → mget? (t.port p.val).pauses i.val = none ∧ mget? (t.port p.val).txq i.val = none)) ∧
    (mget? k.pfcNext i.val = none ∨ mgetD k.occ i.val 0 < 131072 → exec (.pfcRepeat p i) s = .next s) ∧
    (∀ u, mget? k.pfcNext i.val = some u → 131072 ≤ mgetD k.occ i.val 0 → leads (.pfcRepeat p i) s fun t => t.now = max s.now u ∧
      wReg t (pReg p.val (0x104 + 8 * i.val)) = wReg s (pReg p.val (0x104 + 8 * i.val)) + 1#32 ∧
      mget? (t.port p.val).pfcNext i.val = some (u + 64000)) ∧
    (mget? k.heldBy i.val = none ∨ mget? k.pauses i.val = none → exec (.pfcWatchdog p i) s = .next s) ∧
    (∀ b u, mget? k.heldBy i.val = some b → mget? k.pauses i.val = some u →
      let due := b + wdCyc s p.val
      (u < max s.now due → exec (.pfcWatchdog p i) s = .next s) ∧
      (max s.now due ≤ u → leads (.pfcWatchdog p i) s fun t => t.now = max s.now due ∧ bit (wReg t (pReg p.val 4)) 3 = true ∧
        winCounts s t (pReg p.val 0x78) 31 0 (mgetD k.txq i.val []).length ∧ (ok → mget? (t.port p.val).txq i.val = none ∧
        mget? (t.port p.val).pauses i.val = none) ∧ mget? (t.port p.val).ignored i.val = some t.now ∧
        t.records = s.records ++ [⟨.watchdog, p.val, [i.val]⟩])) ∧
    (mget? k.ignored i.val = none → exec (.pfcWdRelease p i) s = .next s) ∧
    (∀ u, mget? k.ignored i.val = some u → leads (.pfcWdRelease p i) s fun t => t.now = max s.now (u + wdCyc s p.val) ∧
      (ok → mget? (t.port p.val).ignored i.val = none) ∧ t.win = s.win) ∧
    (leads (.counterRateCheck p) s fun t => t.now = max s.now (k.since + 1600000000) ∧ (t.port p.val).since = t.now ∧
      ((∀ c ∈ watchedCounters, mgetD k.grown c 0 ≤ 10000) → mgetD k.grown 30 0 ≤ 100 → t.win = s.win ∧ t.records = s.records) ∧
      ((∃ c ∈ watchedCounters, 10000 < mgetD k.grown c 0) → bit (wReg t (pReg p.val 4)) 4 = true ∧
        t.records = s.records ++ [⟨.portRate, p.val, []⟩]))

/-- Queue pairs: a notification cuts the rate and a quiet interval raises it; a packet for no queue pair or with a bad ICRC is counted and
dropped, a WRITE whose key allows it goes inward as WR packets, one whose key does not ends the queue pair, a duplicate is acknowledged and
not executed, a gap is counted; an ACK ends what it names; a timeout sends again, or ends the queue pair with its retries (R475 to R484). A
RoCEv2 packet at a port that is UP: one for no queue pair of this port, or with a bad ICRC, is counted and dropped; a WRITE whose memory key
allows it goes inward as one WR packet for each 512-byte range, one whose key does not ends the queue pair; a duplicate WRITE is
acknowledged and not executed; a gap is counted; an ACK ends the packets up to the PSN it names (R479 to R484). -/
def Obligations.QueuePairsCarryPackets : Prop :=
  (
  ∀ (q : BitVec 16) (s : State),
    let none_ := s.qp q.toNat = none ∨ ∃ k, s.qp q.toNat = some k ∧ k.err = true
    (none_ → exec (.cnpReceive q) s = .next s ∧ exec (.rateRecovery q) s = .next s ∧ exec (.ackTimeout q) s = .next s ∧
      exec (.rnrTimerExpire q) s = .next s) ∧
    ∀ k, s.qp q.toNat = some k → k.err = false →
      (leads (.cnpReceive q) s fun t => winCounts s t (pReg k.port 0x94) 15 0 1 ∧ t.now = s.now ∧ ∃ k2, t.qp q.toNat = some k2 ∧ k2.rt = k.rc ∧
        k2.rc = dyMax ⟨k.rc.num * (2 ^ (k.alpha.exp + 1) - k.alpha.num), k.rc.exp + k.alpha.exp + 1⟩ (dNat 100) ∧
        k2.alpha = ⟨15 * k.alpha.num + 2 ^ k.alpha.exp, k.alpha.exp + 4⟩ ∧ k2.quiet = 0 ∧ k2.rateDue = s.now + 88000) ∧
      (leads (.rateRecovery q) s fun t => t.now = max s.now k.rateDue ∧ t.win = s.win ∧ ∃ k2, t.qp q.toNat = some k2 ∧ k2.quiet = k.quiet + 1 ∧
        k2.alpha = ⟨15 * k.alpha.num, k.alpha.exp + 4⟩ ∧ k2.rateDue = k.rateDue + 88000 ∧ (k.quiet < 5 → k2.rt = k.rt) ∧
        (5 ≤ k.quiet → k2.rt = dyMin (dyAdd k.rt (dNat 4000)) (lineRate s k)) ∧
        k2.rc = ⟨(dyAdd k.rc k2.rt).num, (dyAdd k.rc k2.rt).exp + 1⟩) ∧
      (k.una = [] → exec (.ackTimeout q) s = .next s) ∧
      (k.una ≠ [] → k.left = 0 → leads (.ackTimeout q) s fun t => ∃ k2, t.qp q.toNat = some k2 ∧ k2.err = true ∧ k2.synd = 0xFF ∧
        t.now = max s.now (k.sentAt + (65536 * 2 ^ k.timeout + 9) / 10)) ∧
      (k.una ≠ [] → k.left ≠ 0 → leads (.ackTimeout q) s fun t => winCounts s t (pReg k.port 0x94) 31 16 1 ∧
        t.now = max s.now (k.sentAt + (65536 * 2 ^ k.timeout + 9) / 10) ∧
        t.qp q.toNat = some { k with left := k.left - 1, sentAt := t.now, rnrAt := none }) ∧
      (k.rnrAt = none → exec (.rnrTimerExpire q) s = .next s) ∧
      (∀ u, k.rnrAt = some u → leads (.rnrTimerExpire q) s fun t => t.now = max s.now u ∧ winCounts s t (pReg k.port 0x94) 31 16 1 ∧
        t.qp q.toNat = some { k with sentAt := t.now, rnrAt := none })) ∧
  (
  ∀ (p : PortId) (x : RocePkt) (s : State),
    let q := x.qpn.toNat
    let ctr (t : State) (c : Nat) : Prop := winCounts s t (pReg p.val (0x60 + 4 * c)) 31 0 1
    let mine (k : Qp) : Prop := s.qp q = some k ∧ k.err = false ∧ k.port = p.val ∧ x.src.toNat = k.remote
    let writeOnly := x.op = 10#8
    let key (k : Qp) : Bool := keyOk s k x.rkey x.va.toNat x.dmaLen.toNat true
    (portState s p.val ≠ poUp → exec (.rocePacket p x) s = .next s) ∧
    (portState s p.val = poUp → q ≠ 1 → (∀ k, ¬ mine k) → leads (.rocePacket p x) s fun t => ctr t 7 ∧ t.hw.qps = s.hw.qps ∧ t.net = s.net) ∧
    ∀ k, portState s p.val = poUp → q ≠ 1 → mine k →
      (x.icrcOk = false → leads (.rocePacket p x) s fun t => ctr t 8 ∧ t.hw.qps = s.hw.qps ∧ t.net = s.net) ∧
      (x.icrcOk = true → x.ce = true → leads (.rocePacket p x) s fun t => winCounts s t (pReg p.val 0x90) 15 0 1) ∧
      (x.icrcOk = true → x.ce = false → writeOnly → x.psn.toNat = k.epsn → key k = true → x.payload.length = x.dmaLen.toNat →
        ¬ (mbxBase ≤ x.va.toNat ∧ x.va.toNat < mbxBase + 0x40000) → leads (.rocePacket p x) s fun t =>
          t.net.length = s.net.length + (pieces512 x.va.toNat x.payload.length).length ∧
          ∃ k2, t.qp q = some k2 ∧ k2.epsn = (k.epsn + 1) % 16777216 ∧ k2.err = false) ∧
      (x.icrcOk = true → x.ce = false → writeOnly → x.psn.toNat = k.epsn → key k = false → leads (.rocePacket p x) s fun t =>
        ctr t 10 ∧ t.net = s.net ∧ ∃ k2, t.qp q = some k2 ∧ k2.err = true) ∧
      (x.icrcOk = true → x.ce = false → writeOnly → x.psn.toNat ≠ k.epsn → psnAhead x.psn.toNat k.epsn < 8388608 →
        leads (.rocePacket p x) s fun t => t.net = s.net ∧ t.hw.qps = s.hw.qps ∧
          t.reply = some ⟨31, [17#32, BitVec.ofNat 32 k.rqp, BitVec.ofNat 32 ((k.epsn + 16777215) % 16777216)]⟩) ∧
      (x.icrcOk = true → x.ce = false → writeOnly → x.psn.toNat ≠ k.epsn → 8388608 ≤ psnAhead x.psn.toNat k.epsn →
        leads (.rocePacket p x) s fun t => ctr t 9 ∧ t.net = s.net ∧ ∃ k2, t.qp q = some k2 ∧ k2.epsn = k.epsn) ∧
      (x.icrcOk = true → x.ce = false → x.op = 17#8 → x.aeth.toNat < 32 → leads (.rocePacket p x) s fun t =>
        t.net = s.net ∧ ∃ k2, t.qp q = some k2 ∧ k2.epsn = k.epsn ∧
          ∀ y, y ∈ k2.una ↔ y ∈ k.una ∧ psnAhead x.psn.toNat y.psn ≠ 0 ∧ psnAhead x.psn.toNat y.psn < 8388608))

/-- Rings: a TAIL or CHEAD in range is taken and one out of range sets the doorbell flag and counts; the heartwood takes the next record in
round robin and ends one of an unknown code; the oldest command done gets its completion record with code, status, phase, tag, position and
handle; an event gets a record of code 0xFFFF with its number; keys that have had their time go (R499 to R508, R538 to R540, R718, R720). -/
def Obligations.RingsMove : Prop :=
  (∀ (r : Fin 16384) (val : Word) (chead : Bool) (s : State),
    let x : Instr := if chead then .completionDoorbell r val else .doorbell r val
    (∀ e ∈ s.hw.qps, (r.val, chead, val.toNat) ∉ e.2.bells) →
    (s.ring r.val = none → exec x s = .next s) ∧
    ∀ k, s.ring r.val = some k →
      let ok := if chead then posAhead k.chead val.toNat ≤ posAhead k.chead k.cpos
        else posAhead k.head k.tail ≤ posAhead k.head val.toNat ∧ posAhead k.head val.toNat ≤ 2 ^ k.clog
      (ok → leads x s fun t => t.win = s.win ∧ ∃ k2, t.ring r.val = some k2 ∧ k2.dbBad = k.dbBad ∧
        k2.tail = (if chead then k.tail else val.toNat) ∧ k2.chead = (if chead then val.toNat else k.chead)) ∧
      (¬ ok → leads x s fun t => winCounts s t 0x140008 15 0 1 ∧ t.ring r.val = some { k with dbBad := true })) ∧
  (∀ s : State, (nextRing s = none → exec .commandTake s = .next s) ∧
    ∀ r k, nextRing s = some r → s.ring r = some k → leads .commandTake s fun t =>
      let ws := wordsOfBytes (devRead s (k.cmd + 64 * (k.head % 2 ^ k.clog)) 64) 16
      t.hw.lastRing = r ∧ ∃ k2 f, t.ring r = some k2 ∧ k2.head = (k.head + 1) % 4294967296 ∧ k2.flight = k.flight ++ [f] ∧ f.pos = k.head ∧
        f.words = ws ∧ (fld (arg ws 0) 15 0 ∈ mailboxCodes → f.begun = false ∧ f.done = none) ∧
        (fld (arg ws 0) 15 0 ∉ mailboxCodes → f.done = some (csBadCode, 0#32, []))) ∧
  (∀ (r : Fin 16384) (s : State), (∀ e ∈ s.hw.chans, e.2.ending = none) → (∀ e ∈ s.hw.parts, e.2.closing = none) →
    (s.ring r.val = none → exec (.completionWrite r) s = .next s) ∧
    ∀ k, s.ring r.val = some k →
      ((∀ f ∈ k.flight, f.done = none) → exec (.completionWrite r) s = .next s) ∧
      ∀ f d q, k.flight.find? (fun f => f.done.isSome) = some f → f.done = some d → f.sess = none → k.err = false → k.ending = none →
        s.qp k.qp = some q → q.err = false → leads (.completionWrite r) s fun t =>
          ∃ k2 ws, t.ring r.val = some k2 ∧ k2.cpos = (k.cpos + 1) % 4294967296 ∧ k2.flight = k.flight.filter (fun g => g.pos != f.pos) ∧
            t.reply = some ⟨d.1, ws⟩ ∧ fld (arg ws 0) 15 0 = fld (arg f.words 0) 15 0 ∧ fld (arg ws 0) 23 16 = d.1 % 256 ∧
            fld (arg ws 0) 31 31 = (k.cpos / 2 ^ k.qlog + 1) % 2 ∧ arg ws 1 = arg f.words 1 ∧ arg ws 2 = BitVec.ofNat 32 f.pos ∧
            arg ws 3 = d.2.1 ∧ ws.length = 16) ∧
  (∀ s : State, (∀ e ∈ s.hw.chans, e.2.told = true) →
    (s.hw.events = [] → exec .eventReport s = .next s) ∧
    ∀ e rest, s.hw.events = e :: rest →
      ((∀ g ∈ s.hw.rings, g.2.events = false) → leads .eventReport s fun t => t.hw.events = rest ∧ t.reply = s.reply) ∧
      ∀ r k q, s.hw.rings = [(r, k)] → k.events = true → k.err = false → k.part = 0 ∨ k.part = e.part → k.evAt.length < 64 → k.lost = 0 →
        s.qp k.qp = some q → q.err = false → leads .eventReport s fun t => t.hw.events = rest ∧ ∃ ws, t.reply = some ⟨csOk, ws⟩ ∧
          fld (arg ws 0) 15 0 = 0xFFFF ∧ arg ws 2 = BitVec.ofNat 32 (k.evSeq + 1) ∧ arg ws 3 = e.obj ∧ arg ws 4 = BitVec.ofNat 32 e.kind) ∧
  (∀ (p : Nat) (s : State), (∀ k, s.hpart p = some k → k.oldKey = none) → exec (.oldKeyErase p) s = .next s) ∧
  (∀ (p : Nat) (s : State) k e, s.hpart p = some k → k.oldKey = some e → leads (.oldKeyErase p) s fun t =>
    t.now = max s.now e.2 ∧ t.hpart p = some { k with oldKey := none }) ∧
  (∀ (id : Word) (s : State), (∀ e, mget? s.hw.eph id.toNat = some e → e.used = true) → exec (.ephemeralKeyExpire id) s = .next s) ∧
  (∀ (id : Word) (s : State) e, mget? s.hw.eph id.toNat = some e → e.used = false → leads (.ephemeralKeyExpire id) s fun t =>
    t.now = max s.now (e.made + 96000000000) ∧ (mkeysRising s.hw.eph = true → mget? t.hw.eph id.toNat = none))

/-- Commands on the device, on registers and on buffers: each ends with OK where its checks pass, with its object, handle and result words;
a buffer in use is not destroyed, a register not listed in R524 not written (R510 to R524, R532). -/
def Obligations.DeviceCommandsEnd : Prop :=
  ∀ (r : Fin 16384) (pos : Word),
    mbxRow (.nop r pos) r.val pos 0x1 anyRec (fun _ _ _ => True) (fun _ _ _ _ st _ _ => st = csOk) ∧
    mbxRow (.queryDevice r pos) r.val pos 0x2 anyRec (fun _ _ _ => True) (fun s _ _ _ st _ res => st = csOk ∧ res = deviceWords s) ∧
    mbxRow (.readRegs r pos) r.val pos 0x3 anyRec
      (fun s k ws => (∀ e ∈ regChecks s k ws (fld (arg ws 2) 15 8), e.1 = false) ∧ 1 ≤ fld (arg ws 2) 15 8 ∧ fld (arg ws 2) 15 8 ≤ 12)
      (fun s _ ws _ st _ res => st = csOk ∧ res.length = fld (arg ws 2) 15 8 ∧ (fld (arg ws 2) 15 8 = 1 →
        res = [(readSpace s (fld (arg ws 2) 1 0) (arg ws 3).toNat (arg64 ws 4)).1])) ∧
    mbxRow (.writeRegs r pos) r.val pos 0x4 anyRec
      (fun s k ws => k.part = 0 ∧ (∀ e ∈ regChecks s k ws 1, e.1 = false) ∧ fld (arg ws 2) 15 8 = 1)
      (fun _ _ ws t st _ _ => st = (if writable (fld (arg ws 2) 1 0) (arg64 ws 4) then csOk else csDenied) ∧
        ∀ p : Fin 8, fld (arg ws 2) 1 0 = 0 → arg64 ws 4 = windowBase + pReg p.val 0x10 → portIp t p.val = arg ws 6) ∧
    mbxRow (.createBuffer r pos) r.val pos 0x18 anyRec
      (fun s k ws => hOk s hPart (arg ws 2) ∧ inScope k (hIndex (arg ws 2)) ∧ (badAddr (arg64 ws 3) (arg ws 5).toNat 64).1 = false ∧
        ownsRange s (hIndex (arg ws 2)) (arg64 ws 3) (arg ws 5).toNat = true ∧ (arg ws 5).toNat % 64 = 0 ∧ 128 ≤ (arg ws 5).toNat ∧
        (freeIndex s.hw.bufs 0 65536).isSome = true)
      (fun s _ ws t st h _ => ∃ i, freeIndex s.hw.bufs 0 65536 = some i ∧ st = csOk ∧ h = handleOf s hBuffer i ∧
        mget? t.hw.bufs i = some ⟨hIndex (arg ws 2), arg64 ws 3, (arg ws 5).toNat, none⟩) ∧
    mbxRow (.destroyBuffer r pos) r.val pos 0x19 anyRec
      (fun s k ws => hOk s hBuffer (arg ws 2) ∧ mkeysRising s.hw.bufs = true ∧
        ∃ b, mget? s.hw.bufs (hIndex (arg ws 2)) = some b ∧ inScope k b.part)
      (fun s _ ws t st h _ => ∀ b, mget? s.hw.bufs (hIndex (arg ws 2)) = some b →
        (b.held ≠ none ∨ hdrState (bufHeader s b) = bReady ∨ hdrState (bufHeader s b) = bFailed → st = csInUse ∧ t.hw.bufs = s.hw.bufs) ∧
        (b.held = none → hdrState (bufHeader s b) ≠ bReady → hdrState (bufHeader s b) ≠ bFailed → st = csOk ∧ h = arg ws 2 ∧
          mget? t.hw.bufs (hIndex (arg ws 2)) = none ∧ genOf t hBuffer (hIndex (arg ws 2)) = genNext (genOf s hBuffer (hIndex (arg ws 2))))) ∧
    mbxRow (.releaseBuffer r pos) r.val pos 0x1A anyRec
      (fun s k ws => hOk s hBuffer (arg ws 2) ∧ ∃ b, mget? s.hw.bufs (hIndex (arg ws 2)) = some b ∧ inScope k b.part)
      (fun s _ ws t st h _ => ∀ b, mget? s.hw.bufs (hIndex (arg ws 2)) = some b →
        let hd := bufHeader s b
        (arg hd 1 ≠ arg ws 3 ∨ hdrState hd = bIdle → st = csStale ∧ t.stks = s.stks) ∧
        (arg hd 1 = arg ws 3 → hdrState hd = bWriting → st = csInUse ∧ t.stks = s.stks) ∧
        (arg hd 1 = arg ws 3 → hdrState hd = bReady ∨ hdrState hd = bFailed → st = csOk ∧ h = arg ws 2 ∧
          ∀ sk off, b.addr % 64 = 0 → burmonAddr b.addr = some (sk, off) → burmonRange off 64 = true → off % 64 = 0 →
            cellsWf (s.stack sk).mem = true → hdrState (bufHeader t b) = bIdle ∧ arg (bufHeader t b) 1 = arg ws 3)) ∧
    mbxRow (.setFrameClock r pos) r.val pos 0x23 anyRec
      (fun s k ws => k.part = 0 ∧ fld (arg ws 2) 31 4 = 0 ∧ fld (arg ws 5) 30 14 = 0 ∧ (∀ e ∈ s.hw.sessions, e.2.clock ≠ fld (arg ws 2) 3 0) ∧
        (arg ws 3).toNat < 262144 ∧ (arg ws 4).toNat < 65536)
      (fun s _ ws t st _ _ =>
        let c := fld (arg ws 2) 3 0
        st = (if bit (arg ws 5) 31 = true ∧ clkOn t c = false then csBadArg else csOk) ∧
        (clkOn s c = true → clkNum t c = clkNum s c ∧ clkDen t c = clkDen s c ∧ clkLines t c = clkLines s c) ∧
        (clkOn s c = false → clkNum t c = (arg ws 3).toNat ∧ clkDen t c = (arg ws 4).toNat ∧ clkLines t c = fld (arg ws 5) 13 0))

/-- Commands that make and end rings, queue pairs, memory keys, channels and windows: each ends with OK where its checks pass, its object
stands or is gone with its generation advanced (R325 to R327, R492, R533 to R537). -/
def Obligations.ObjectCommandsEnd : Prop :=
  ∀ (r : Fin 16384) (pos : Word),
    mbxRow (.createRing r pos) r.val pos 0x28 anyRec
      (fun s k ws => fld (arg ws 2) 31 9 = 0 ∧ (arg ws 3 = 0#32 ∨ hOk s hPart (arg ws 3)) ∧ hOk s hKey (arg ws 6) ∧ hOk s hQp (arg ws 10) ∧
        k.part = 0 ∧ (badAddr (arg64 ws 4) (64 * 2 ^ fld (arg ws 2) 3 0) 4096).1 = false ∧ arg64 ws 7 % 64 = 0 ∧
        ringSizesOk (fld (arg ws 2) 3 0) (fld (arg ws 2) 7 4) (bit (arg ws 2) 8) = true ∧
        (∃ m q, mget? s.hw.keys (hIndex (arg ws 6)) = some m ∧ s.qp (hIndex (arg ws 10)) = some q ∧ m.part = hIndex (arg ws 3) ∧
          q.part = hIndex (arg ws 3) ∧ m.write = true ∧ m.addr ≤ arg64 ws 4 ∧ arg64 ws 4 + 64 * 2 ^ fld (arg ws 2) 3 0 ≤ m.addr + m.bytes) ∧
        (freeIndex s.hw.rings 1 16384).isSome = true ∧ (freeIndex s.hw.keys 0 65536).isSome = true)
      (fun s _ ws t st h res => ∃ n d g, freeIndex s.hw.rings 1 16384 = some n ∧ freeIndex s.hw.keys 0 65536 = some d ∧
        st = csOk ∧ h = handleOf s hRing n ∧ t.ring n = some g ∧ g.part = hIndex (arg ws 3) ∧ g.cmd = arg64 ws 4 ∧ g.cq = arg64 ws 7 ∧
        g.qp = hIndex (arg ws 10) ∧ g.head = 0 ∧ g.tail = 0 ∧ g.cpos = 0 ∧ g.flight = [] ∧
        res = [BitVec.ofNat 32 (mbxBase + 16 * n), BitVec.ofNat 32 ((mbxBase + 16 * n) / 2 ^ 32), handleOf s hKey d]) ∧
    mbxRow (.destroyRing r pos) r.val pos 0x29 anyRec
      (fun s k ws => hOk s hRing (arg ws 2) ∧ k.part = 0 ∧ hIndex (arg ws 2) ≠ 0 ∧ hIndex (arg ws 2) ≠ r.val ∧ mkeysRising s.hw.rings = true ∧
        ∃ g, s.ring (hIndex (arg ws 2)) = some g ∧ g.ending = none ∧ g.flight = [])
      (fun s _ ws t st h _ => st = csOk ∧ h = handleOf s hRing (hIndex (arg ws 2)) ∧ t.ring (hIndex (arg ws 2)) = none ∧
        genOf t hRing (hIndex (arg ws 2)) = genNext (genOf s hRing (hIndex (arg ws 2)))) ∧
    mbxRow (.createQp r pos) r.val pos 0x38 anyRec
      (fun s k ws => qpWordsOk (arg ws 3) (arg ws 5) (arg ws 6) (arg ws 7) = true ∧ fld (arg ws 3) 8 6 ≤ 4 ∧ inScope k (hIndex (arg ws 2)) ∧
        ((arg ws 2 = 0#32 ∧ k.part = 0) ∨ (arg ws 2 ≠ 0#32 ∧ hOk s hPart (arg ws 2))) ∧ (freeIndex s.hw.qps 2 65536).isSome = true)
      (fun s _ ws t st h _ => ∃ q g, freeIndex s.hw.qps 2 65536 = some q ∧ st = csOk ∧ h = handleOf s hQp q ∧ t.qp q = some g ∧
        g.part = hIndex (arg ws 2) ∧ g.port = fld (arg ws 3) 2 0 ∧ g.psn = fld (arg ws 6) 23 0 ∧ g.epsn = fld (arg ws 7) 23 0 ∧
        g.rc = lineRate s g ∧ g.rt = lineRate s g ∧ g.alpha = dNat 1 ∧ g.err = false) ∧
    mbxRow (.destroyQp r pos) r.val pos 0x39 anyRec
      (fun s k ws => hOk s hQp (arg ws 2) ∧ qpInUse s (hIndex (arg ws 2)) = false ∧ mkeysRising s.hw.qps = true ∧
        ∃ q, s.qp (hIndex (arg ws 2)) = some q ∧ inScope k q.part)
      (fun s _ ws t st h _ => st = csOk ∧ h = arg ws 2 ∧ t.qp (hIndex (arg ws 2)) = none ∧
        genOf t hQp (hIndex (arg ws 2)) = genNext (genOf s hQp (hIndex (arg ws 2)))) ∧
    mbxRow (.registerMemory r pos) r.val pos 0x3A anyRec
      (fun s k ws => fld (arg ws 7) 31 2 = 0 ∧ inScope k (hIndex (arg ws 2)) ∧
        ((arg ws 2 = 0#32 ∧ k.part = 0) ∨ (arg ws 2 ≠ 0#32 ∧ hOk s hPart (arg ws 2))) ∧
        (badAddr (arg64 ws 3) (arg64 ws 5) 1).1 = false ∧ ownsRange s (hIndex (arg ws 2)) (arg64 ws 3) (arg64 ws 5) = true ∧
        arg64 ws 5 ≠ 0 ∧ (freeIndex s.hw.keys 0 65536).isSome = true)
      (fun s _ ws t st h _ => ∃ i, freeIndex s.hw.keys 0 65536 = some i ∧ st = csOk ∧ h = handleOf s hKey i ∧
        mget? t.hw.keys i = some ⟨hIndex (arg ws 2), arg64 ws 3, arg64 ws 5, bit (arg ws 7) 0, bit (arg ws 7) 1, none⟩) ∧
    mbxRow (.deregisterMemory r pos) r.val pos 0x3B anyRec
      (fun s k ws => hOk s hKey (arg ws 2) ∧ mkeysRising s.hw.keys = true ∧
        ∃ m, mget? s.hw.keys (hIndex (arg ws 2)) = some m ∧ inScope k m.part ∧ m.ring = none)
      (fun s _ ws t st h _ => st = csOk ∧ h = arg ws 2 ∧ mget? t.hw.keys (hIndex (arg ws 2)) = none ∧
        genOf t hKey (hIndex (arg ws 2)) = genNext (genOf s hKey (hIndex (arg ws 2)))) ∧
    mbxRow (.openChannel r pos) r.val pos 0x30 anyRec
      (fun s k ws =>
        let p := hIndex (arg ws 2)
        let src := coreAt (fld (arg ws 3) 6 0) (fld (arg ws 3) 13 7)
        let dst := coreAt (fld (arg ws 3) 20 14) (fld (arg ws 3) 27 21)
        fld (arg ws 3) 31 28 = 0 ∧ fld (arg ws 4) 31 27 = 0 ∧ fld (arg ws 5) 31 26 = 0 ∧ hOk s hPart (arg ws 2) ∧ inScope k p ∧
        fld (arg ws 3) 6 0 < 112 ∧ fld (arg ws 3) 13 7 < 96 ∧ fld (arg ws 3) 20 14 < 112 ∧ fld (arg ws 3) 27 21 < 96 ∧
        partOfRegion s (regionOfCore src) = some p ∧ partOfRegion s (regionOfCore dst) = some p ∧
        ringOk (s.core dst) (fld (arg ws 4) 21 0) (2 ^ fld (arg ws 4) 26 22) (fld (arg ws 5) 21 0) = true ∧
        (freeEp (s.core src)).isSome = true ∧ (freeEp (s.core dst)).isSome = true ∧ src ≠ dst ∧ reaches (channelEdges s p) dst src = false ∧
        (freeIndex s.hw.chans 0 172032).isSome = true)
      (fun s _ ws t st h res =>
        let src := coreAt (fld (arg ws 3) 6 0) (fld (arg ws 3) 13 7)
        let dst := coreAt (fld (arg ws 3) 20 14) (fld (arg ws 3) 27 21)
        ∃ i e1 e2, freeIndex s.hw.chans 0 172032 = some i ∧ freeEp (s.core src) = some e1 ∧ freeEp (s.core dst) = some e2 ∧
          st = csOk ∧ h = handleOf s hChannel i ∧ mget? t.hw.chans i = some ⟨hIndex (arg ws 2), src, e1, dst, e2, none, false⟩ ∧
          epRole (t.core src) e1 = roleSend ∧ epRole (t.core dst) e2 = roleRecv ∧ res = [BitVec.ofNat 32 (packFields [(5, e1), (3, 0), (5, e2)])]) ∧
    mbxRow (.closeChannel r pos) r.val pos 0x31 anyRec
      (fun s k ws => hOk s hChannel (arg ws 2) ∧ mkeysRising s.hw.chans = true ∧
        ∃ c, mget? s.hw.chans (hIndex (arg ws 2)) = some c ∧ inScope k c.part ∧ c.ending = none ∧ (epOf (s.core c.src) c.sep).posting = none)
      (fun s _ ws t st h _ => st = csOk ∧ h = handleOf s hChannel (hIndex (arg ws 2)) ∧ mget? t.hw.chans (hIndex (arg ws 2)) = none ∧
        genOf t hChannel (hIndex (arg ws 2)) = genNext (genOf s hChannel (hIndex (arg ws 2)))) ∧
    mbxRow (.mapWindow r pos) r.val pos 0x40 anyRec
      (fun s k ws => fld (arg ws 2) 31 6 = 0 ∧ hOk s hQp (arg ws 3) ∧ hOk s hQp (arg ws 4) ∧ mget? s.hw.wins (fld (arg ws 2) 5 0) = none ∧
        ∃ q1 q2, s.qp (hIndex (arg ws 3)) = some q1 ∧ s.qp (hIndex (arg ws 4)) = some q2 ∧ q1.part ≠ 0 ∧ q2.part = q1.part ∧ inScope k q1.part)
      (fun s _ ws t st h _ => st = csOk ∧ h = handleOf s hWindow (fld (arg ws 2) 5 0) ∧ ∃ w, mget? t.hw.wins (fld (arg ws 2) 5 0) = some w ∧
        w.qp = hIndex (arg ws 3) ∧ w.alt = hIndex (arg ws 4) ∧ w.pages = []) ∧
    mbxRow (.mapPages r pos) r.val pos 0x41 anyRec
      (fun s k ws => fld (arg ws 3) 31 24 = 0 ∧ hOk s hWindow (arg ws 2) ∧ (badAddr (arg64 ws 5) (16 * (arg ws 4).toNat) 16).1 = false ∧
        1 ≤ (arg ws 4).toNat ∧ (arg ws 4).toNat ≤ 65536 ∧ fld (arg ws 3) 23 0 + (arg ws 4).toNat ≤ 16777216 ∧
        ∃ w, mget? s.hw.wins (hIndex (arg ws 2)) = some w ∧ inScope k w.part ∧ ownsRange s w.part (arg64 ws 5) (16 * (arg ws 4).toNat) = true)
      (fun s _ ws t st h _ => st = csOk ∧ h = arg ws 2 ∧ ∃ w, mget? t.hw.wins (hIndex (arg ws 2)) = some w ∧
        ∀ i, i < (arg ws 4).toNat → mget? w.pages (fld (arg ws 3) 23 0 + i) =
          some (natOfBytes (((devRead s (arg64 ws 5) (16 * (arg ws 4).toNat)).drop (16 * i)).take 16))) ∧
    mbxRow (.unmapWindow r pos) r.val pos 0x42 anyRec
      (fun s k ws => hOk s hWindow (arg ws 2) ∧ mkeysRising s.hw.wins = true ∧
        ∃ w, mget? s.hw.wins (hIndex (arg ws 2)) = some w ∧ inScope k w.part)
      (fun s _ ws t st h _ => st = csOk ∧ h = arg ws 2 ∧ mget? t.hw.wins (hIndex (arg ws 2)) = none ∧
        genOf t hWindow (hIndex (arg ws 2)) = genNext (genOf s hWindow (hIndex (arg ws 2))))

/-- Partitions, programs and sessions: a rectangle of free regions with memory opens; an empty partition closes; a program is loaded, and
done where it has no pour to wait for; checks of an idle partition take effect at once; a session opens on its program, and closes once its
credits are back; a request is admitted with a credit and its buffer, or shed with BUSY (R515, R516, R525 to R528, R554). -/
def Obligations.PartitionCommandsEnd : Prop :=
  ∀ (r : Fin 16384) (pos : Word),
    mbxRow (.openPartition r pos) r.val pos 0x10 anyRec
      (fun s k ws =>
        let g := newPart s (fld (arg ws 2) 2 0) (fld (arg ws 2) 5 3) (fld (arg ws 2) 9 6) (fld (arg ws 2) 12 10) 0 (fld (arg ws 3) 7 0) (fld (arg ws 4) 15 0)
        fld (arg ws 2) 31 13 = 0 ∧ fld (arg ws 3) 31 8 = 0 ∧ fld (arg ws 4) 31 16 = 0 ∧ k.part = 0 ∧ lifeCycle s.mod ≠ 0 ∧ lifeCycle s.mod ≠ 4 ∧
        g.col0 + g.ncol ≤ 7 ∧ g.row0 + g.nrow ≤ 6 ∧ g.ncol ≠ 0 ∧ g.nrow ≠ 0 ∧ g.units ≠ 0 ∧ g.horizon ≠ 0 ∧
        (∀ l ∈ partRegions g, partOfRegion s l = none) ∧ (freeUnits s g.units).isSome = true ∧ (freeIndex s.hw.parts 1 43).isSome = true)
      (fun s _ ws t st h res => ∃ u p g, freeUnits s (fld (arg ws 3) 7 0) = some u ∧ freeIndex s.hw.parts 1 43 = some p ∧ st = csOk ∧
        h = handleOf s hPart p ∧ t.hpart p = some g ∧ g.col0 = fld (arg ws 2) 2 0 ∧ g.row0 = fld (arg ws 2) 5 3 ∧ g.ncol = fld (arg ws 2) 9 6 ∧
        g.nrow = fld (arg ws 2) 12 10 ∧ g.unit0 = u ∧ g.units = fld (arg ws 3) 7 0 ∧ g.mode = (if g.ncol * g.nrow ≤ 12 then 1 else 0) ∧
        g.reqs = [] ∧ (∀ l ∈ partRegions g, (t.region l).part = p) ∧
        res = [BitVec.ofNat 32 (unitAddr u), BitVec.ofNat 32 (unitAddr u / 2 ^ 32), BitVec.ofNat 32 (g.ncol * g.nrow + 64 * g.mode)]) ∧
    mbxRow (.closePartition r pos) r.val pos 0x11 anyRec
      (fun s k ws =>
        let p := hIndex (arg ws 2)
        hOk s hPart (arg ws 2) ∧ k.part = 0 ∧ mkeysRising s.hw.parts = true ∧ (∀ e ∈ s.hw.parts, e.2.closing = none) ∧
        (∀ e ∈ s.hw.chans, e.2.part ≠ p) ∧ (∀ e ∈ s.hw.sessions, e.2.part ≠ p) ∧ (∀ e ∈ s.hw.bufs, e.2.part ≠ p) ∧ (∀ e ∈ s.hw.progs, e.2.part ≠ p) ∧
        (∀ e ∈ s.hw.pours, e.1 / 65536 ≠ p) ∧ (∀ e ∈ s.hw.wins, e.2.part ≠ p) ∧ (∀ e ∈ s.hw.rings, e.2.part ≠ p) ∧
        ∃ g, s.hpart p = some g ∧ g.reqs = [] ∧ g.newChk = none ∧ g.joiner = none)
      (fun _ _ ws t st _ _ => st = csOk ∧ t.hpart (hIndex (arg ws 2)) = none) ∧
    (∀ img : ProgImage,
      let own (s : State) (k : Ring) (ws : List Word) : Prop :=
        let p := hIndex (arg ws 2)
        hOk s hPart (arg ws 2) ∧ inScope k p ∧ (badAddr (arg64 ws 3) (max 1 (arg ws 5).toNat) 1).1 = false ∧ (arg ws 5).toNat ≠ 0 ∧
        (ownsRange s p (arg64 ws 3) (max 1 (arg ws 5).toNat) = true ∨ ownsRange s 0 (arg64 ws 3) (max 1 (arg ws 5).toNat) = true) ∧
        (freeIndex s.hw.progs 0 256).isSome = true ∧ loadAmps s + progAmps img ≤ 21000 ∧
        935 * (loadAmps s + progAmps img) + 3800000 ≤ 1000 * budgetW s ∧
        ∃ g, s.hpart p = some g ∧ img.regions = g.ncol * g.nrow ∧ img.mode = g.mode ∧ (g.checks.asyEn = true → img.kmin ≤ g.checks.asyK) ∧
          (boundEps g img).any (epHeld s) = false ∧
          hasCycle (channelEdges s p ++ img.edges.map fun e => (coreInPart g e.1, coreInPart g e.2)) = false
      mbxLeads (.loadProgram r pos img) r.val pos 0x12 anyRec own fun s _ ws t =>
        ∃ i q, freeIndex s.hw.progs 0 256 = some i ∧ mget? t.hw.progs i = some q ∧ q.part = hIndex (arg ws 2) ∧ q.img = img ∧
          q.digest = Config.shake256 (devRead s (arg64 ws 3) (arg ws 5).toNat) 32 ∧
          (img.pours = [] → cmdDone t r.val pos.toNat fun st h _ => st = csOk ∧ h = handleOf s hProgram i) ∧
          (img.pours ≠ [] → q.cmd = some (r.val, pos.toNat) ∧ q.waits = img.pours.map fun x => pourKey q.part x.image)) ∧
    mbxRow (.setChecks r pos) r.val pos 0x14 anyRec
      (fun s k ws => fld (arg ws 3) 31 16 = 0 ∧ arg ws 15 = 0#32 ∧ (checksOf ws).cls = 0 ∧ (checksOf ws).guard ≠ 3 ∧ (checksOf ws).asyEn = false ∧
        (checksOf ws).serve = false ∧ hOk s hPart (arg ws 2) ∧ inScope k (hIndex (arg ws 2)) ∧
        ∃ g, s.hpart (hIndex (arg ws 2)) = some g ∧ g.newChk = none ∧ g.reqs = [])
      (fun s _ ws t st h _ => st = csOk ∧ h = handleOf s hPart (hIndex (arg ws 2)) ∧
        ∃ g, t.hpart (hIndex (arg ws 2)) = some g ∧ g.checks = checksOf ws ∧ g.newChk = none) ∧
    mbxRow (.openSession r pos) r.val pos 0x20 anyRec
      (fun s k ws => fld (arg ws 4) 31 6 = 0 ∧ hOk s hPart (arg ws 2) ∧ hOk s hProgram (arg ws 3) ∧ inScope k (hIndex (arg ws 2)) ∧
        (∃ g, mget? s.hw.progs (hIndex (arg ws 3)) = some g ∧ g.part = hIndex (arg ws 2)) ∧ 1 ≤ (arg ws 5).toNat ∧ (arg ws 5).toNat ≤ 1024 ∧
        clkOn s (fld (arg ws 4) 3 0) = true ∧ (freeIndex s.hw.sessions 0 4096).isSome = true)
      (fun s _ ws t st h _ => ∃ j, freeIndex s.hw.sessions 0 4096 = some j ∧ st = csOk ∧ h = handleOf s hSession j ∧
        mget? t.hw.sessions j = some ⟨hIndex (arg ws 2), hIndex (arg ws 3), fld (arg ws 4) 3 0, fld (arg ws 4) 5 4, (arg ws 5).toNat, 0, none⟩) ∧
    mbxLeads (.closeSession r pos) r.val pos 0x21 anyRec
      (fun s k ws => hOk s hSession (arg ws 2) ∧ mkeysRising s.hw.sessions = true ∧
        ∃ q, mget? s.hw.sessions (hIndex (arg ws 2)) = some q ∧ inScope k q.part ∧ q.ending = none ∧ ∀ g, s.hpart q.part = some g → g.reqs = [])
      (fun s _ ws t => ∀ q, mget? s.hw.sessions (hIndex (arg ws 2)) = some q →
        (q.used = 0 → mget? t.hw.sessions (hIndex (arg ws 2)) = none ∧ cmdDone t r.val pos.toNat fun st h _ => st = csOk ∧ h = arg ws 2) ∧
        (q.used ≠ 0 → mget? t.hw.sessions (hIndex (arg ws 2)) = some { q with ending := some (r.val, pos.toNat) })) ∧
    mbxLeads (.submit r pos) r.val pos 0x22 anyRec
      (fun s k ws => fld (arg ws 10) 31 14 = 0 ∧ fld (arg ws 13) 30 14 = 0 ∧ fld (arg ws 14) 31 8 = 0 ∧ hOk s hSession (arg ws 2) ∧ hOk s hBuffer (arg ws 3) ∧
        arg ws 4 = 0#32 ∧ arg ws 5 = 0#32 ∧ arg ws 6 = 0#32 ∧ arg ws 7 = 0#32 ∧ bit (arg ws 13) 31 = false ∧ s.hw.fault = false ∧
        ∃ q b g d pl, mget? s.hw.sessions (hIndex (arg ws 2)) = some q ∧ mget? s.hw.bufs (hIndex (arg ws 3)) = some b ∧ s.hpart q.part = some g ∧
          mget? s.hw.progs q.prog = some d ∧ d.img.plans[fld (arg ws 14) 7 0]? = some pl ∧ b.part = q.part ∧ inScope k q.part ∧ q.ending = none ∧
          planSecs d.img (fld (arg ws 14) 7 0) ≠ [] ∧ fld (arg ws 10) 13 0 < clkLines s q.clock ∧ g.expelled = false ∧
          hdrState (bufHeader s b) = bIdle ∧ b.held = none ∧ 64 + pl.bytes ≤ b.bytes)
      (fun s _ ws t => ∀ q b g d, mget? s.hw.sessions (hIndex (arg ws 2)) = some q → mget? s.hw.bufs (hIndex (arg ws 3)) = some b →
        s.hpart q.part = some g → mget? s.hw.progs q.prog = some d →
        let times := planTimes (planSecs d.img (fld (arg ws 14) 7 0)) (roundUp4096 (max (s.now + 16384) g.free))
        let shed (status lo : Nat) : Prop := cmdDone t r.val pos.toNat (fun st _ _ => st = status) ∧ winCounts s t 0x140004 (lo + 15) lo 1 ∧
          t.hpart q.part = some g
        (q.credits ≤ q.used ∨ inRecovery g = true → shed csBusy 0) ∧
        (q.used < q.credits → inRecovery g = false → s.now + g.horizon * 4096 * (4 - q.cls) / 4 ≤ times.1.headD 0 → shed csBusy 0) ∧
        (q.used < q.credits → inRecovery g = false → times.1.headD 0 < s.now + g.horizon * 4096 * (4 - q.cls) / 4 →
          lineDev s q.clock (arg64 ws 8) (fld (arg ws 10) 13 0) ≤ times.2.1.getLastD 0 → shed csLate 16) ∧
        (q.used < q.credits → inRecovery g = false → times.1.headD 0 < s.now + g.horizon * 4096 * (4 - q.cls) / 4 →
          times.2.1.getLastD 0 < lineDev s q.clock (arg64 ws 8) (fld (arg ws 10) 13 0) →
          mget? t.hw.sessions (hIndex (arg ws 2)) = some { q with used := q.used + 1 } ∧
          mget? t.hw.bufs (hIndex (arg ws 3)) = some { b with held := some (r.val, pos.toNat) } ∧
          ∃ g2 e, t.hpart q.part = some g2 ∧ g2.reqs = g.reqs ++ [e] ∧ g2.free = times.2.2 ∧ e.ring = r.val ∧ e.pos = pos.toNat ∧
            e.sess = hIndex (arg ws 2) ∧ e.buf = hIndex (arg ws 3) ∧ e.launches = times.1 ∧ e.barriers = times.2.1 ∧ e.started = false))

/-- Commands of health and recovery: the actions on a partition (ROLLBACK begins a recovery, RESET leaves the committed step, QUENCH holds
the job, PEERS sets its peers, ADMIT asks a partner, RESUME ends a hold and is denied where there is none), a unit fenced by the host, and
the actions on a unit under test (R580, R601, R619 to R628). -/
def Obligations.HealthCommandsEnd : Prop :=
  ∀ (r : Fin 16384) (pos : Word),
    let own (s : State) (k : Ring) (ws : List Word) : Prop := fld (arg ws 3) 7 4 = 0 ∧ fld (arg ws 3) 31 16 = 0 ∧ fld (arg ws 3) 3 0 < 6 ∧
      hOk s hPart (arg ws 2) ∧ inScope k (hIndex (arg ws 2))
    let part (s : State) (ws : List Word) : Option Partn := s.hpart (hIndex (arg ws 2))
    let names (act : Nat) (ws : List Word) : Bool := fld (arg ws 3) 1 0 == act
    let tests (s : State) (k : Ring) (ws : List Word) : Prop := fld (arg ws 3) 31 2 = 0 ∧ k.part = 0 ∧ unitKind (arg ws 2) < 7 ∧
      unitOk s (arg ws 2) = true ∧ (unitInUse s (arg ws 2) = false ∨ unitFenced s (arg ws 2) = true)
    let found (x : TestResult) : List Word := [BitVec.ofNat 32 (bnat (!x.pass)), BitVec.ofNat 32 x.us, BitVec.ofNat 32 (if x.pass then 0 else x.item)]
    mbxLeads (.resetPartitionRollback r pos) r.val pos 0x13 (isAction 0)
      (fun s k ws => own s k ws ∧ ∃ g, part s ws = some g ∧ g.recov = 0 ∧ g.restarts < 4 ∧ g.halted = false ∧ g.haltAt = none)
      (fun s _ ws t => fld (wReg t 0x200008) 3 0 = 1 ∧ ∃ g, part t ws = some g ∧ g.haltAt = some (s.now + 16384) ∧ g.recov = 1 ∧
        (r.val, pos.toNat, csFailed) ∈ g.waiters) ∧
    mbxRow (.resetPartitionReset r pos) r.val pos 0x13 (isAction 1)
      (fun s k ws => own s k ws ∧ ∃ g, part s ws = some g ∧ g.reqs = [] ∧ g.waiters = [])
      (fun s _ ws t st _ _ => st = csOk ∧ ∀ g, part s ws = some g → ∃ g2, part t ws = some g2 ∧ g2.committed = g.committed ∧
        g2.step = g.committed + 1 ∧ g2.runs = 1 ∧ g2.recov = 0 ∧ g2.haltAt = none ∧ g2.halted = false) ∧
    mbxRow (.resetPartitionQuench r pos) r.val pos 0x13 (isAction 2)
      (fun s k ws => own s k ws ∧ ∃ g, part s ws = some g ∧ g.reqs = [])
      (fun _ _ ws t st _ _ => st = csOk ∧ ∃ g, part t ws = some g ∧ g.heldJob = true ∧ g.recov ≠ 0) ∧
    mbxRow (.resetPartitionPeers r pos) r.val pos 0x13 (isAction 3)
      (fun s k ws => own s k ws ∧ fld (arg ws 12) 31 16 = 0 ∧ (fld (arg ws 12) 15 0 = 0 ∨ (10 ≤ fld (arg ws 12) 15 0 ∧ fld (arg ws 12) 15 0 ≤ 60000)) ∧
        (part s ws).isSome = true ∧ ∀ w ∈ peerWords ws, hOk s hQp w ∧ ∃ q, s.qp (hIndex w) = some q ∧ q.part = hIndex (arg ws 2))
      (fun _ _ ws t st _ _ => st = csOk ∧ ∃ g, part t ws = some g ∧ g.peers = (peerWords ws).map hIndex ∧
        g.liveMs = if fld (arg ws 12) 15 0 = 0 then 50 else fld (arg ws 12) 15 0) ∧
    mbxLeads (.resetPartitionAdmit r pos) r.val pos 0x13 (isAction 4)
      (fun s k ws => own s k ws ∧ hOk s hQp (arg ws 4) ∧ fld (arg ws 5) 31 16 = 0 ∧
        ∃ g, part s ws = some g ∧ hIndex (arg ws 4) ∈ livePeers g ∧ g.reqs = [] ∧ g.joiner = none)
      (fun s _ ws t => fld (wReg t 0x200008) 3 0 = 8 ∧ ∃ g d, part t ws = some g ∧ g.joiner = some d ∧ d.ring = r.val ∧ d.pos = pos.toNat ∧
        d.qp = hIndex (arg ws 4) ∧ d.until_ = s.now + (if fld (arg ws 5) 15 0 = 0 then 2000 else fld (arg ws 5) 15 0) * 1600000) ∧
    mbxRow (.resetPartitionResume r pos) r.val pos 0x13 (isAction 5) (fun s k ws => own s k ws ∧ (part s ws).isSome = true)
      (fun s _ ws t st _ _ => ∀ g, part s ws = some g → st = (if g.heldJob then csOk else csDenied) ∧ ∃ g2, part t ws = some g2 ∧ g2.heldJob = false) ∧
    mbxLeads (.fenceUnit r pos) r.val pos 0x48 anyRec
      (fun s k ws => k.part = 0 ∧ unitKind (arg ws 2) ≠ uPeer ∧ arg ws 3 = 0#32 ∧ unitOk s (arg ws 2) = true ∧ lastHeart s (arg ws 2) = false)
      (fun s _ ws t => arg ws 2 ∈ t.hw.fenced ∧ (unitKind (arg ws 2) = uPort → unitFenced s (arg ws 2) = false →
        portState t (fld (arg ws 2) 6 4) = poFenced ∧ cmdDone t r.val pos.toNat fun st _ _ => st = csOk)) ∧
    (∀ x : TestResult, mbxRow (.testUnitTest r pos x) r.val pos 0x49 (names 0) tests (fun _ _ _ _ st _ res => st = csOk ∧ res = found x)) ∧
    (∀ x : TestResult, mbxRow (.testUnitReadmit r pos x) r.val pos 0x49 (names 1) tests (fun s _ ws t st _ res => st = csOk ∧ res = found x ∧
      (unitKind (arg ws 2) = uCore → t.hw.fenced = if x.pass then s.hw.fenced.erase (arg ws 2) else s.hw.fenced))) ∧
    mbxRow (.testUnitReadPm r pos) r.val pos 0x49 (names 2)
      (fun s k ws => fld (arg ws 3) 31 2 = 0 ∧ hOk s hBuffer (arg ws 5) ∧ k.part = 0 ∧ ∃ b m, mget? s.hw.bufs (hIndex (arg ws 5)) = some b ∧
        mget? s.hw.pms (arg ws 4).toNat = some m ∧ hdrState (bufHeader s b) = bIdle ∧ b.held = none ∧ 64 + (pmBytes m).length ≤ b.bytes)
      (fun _ _ _ _ st _ res => st = csOk ∧ res = [0#32, 0#32, 0#32]) ∧
    mbxRow (.testUnitSamples r pos) r.val pos 0x49 (names 3)
      (fun s k ws => fld (arg ws 3) 31 2 = 0 ∧ hOk s hBuffer (arg ws 5) ∧ k.part = 0 ∧ unitOk s (arg ws 2) = true ∧ (arg ws 4).toNat ≤ 32 ∧
        ∃ b, mget? s.hw.bufs (hIndex (arg ws 5)) = some b ∧ ∀ i ∈ sampleRows s b (arg ws 4).toNat, i < 24576)
      (fun s _ ws t st _ _ => st = csOk ∧ ∀ b g, mget? s.hw.bufs (hIndex (arg ws 5)) = some b → s.hpart b.part = some g →
        ∃ g2, t.hpart b.part = some g2 ∧ ∀ i ∈ sampleRows s b (arg ws 4).toNat,
          ((if unitKind (arg ws 2) = uCore then unitCore (arg ws 2) else 13056), i) ∈ g2.samples)

/-- Attestation: a report is numbered, its ephemeral key kept and its address answered; the log is answered with the number of entries
copied and the number there are; a job key wrapped to a report's key is installed, and one whose report no longer serves is STALE (R715 to
R720). -/
def Obligations.AttestationEnds : Prop :=
  ∀ (r : Fin 16384) (pos : Word),
    let own (s : State) (k : Ring) (ws : List Word) (b : HostBuf) : Prop := fld (arg ws 2) 31 2 = 0 ∧ fld (arg ws 2) 1 0 ≠ 3 ∧
      (arg ws 3 = 0#32 ∨ hOk s hPart (arg ws 3)) ∧ hOk s hBuffer (arg ws 4) ∧ lifeCycle s.mod ≠ 0 ∧ lifeCycle s.mod ≠ 4 ∧
      inScope k (attestPart ws) ∧ mget? s.hw.bufs (hIndex (arg ws 4)) = some b ∧ inScope k b.part
    let out (s : State) (b : HostBuf) : Prop := hdrState (bufHeader s b) = bIdle ∧ b.held = none ∧ 64 + 2048 ≤ b.bytes
    (∀ entropy, mbxRow (.attestReport r pos entropy) r.val pos 0x50 (attests 0) (fun s k ws => ∃ b, own s k ws b ∧ out s b)
      (fun s _ ws t st _ res => st = csOk ∧ t.hw.reports = s.hw.reports + 1 ∧
        (∀ b, mget? s.hw.bufs (hIndex (arg ws 4)) = some b →
          res = [BitVec.ofNat 32 (b.addr + 64), BitVec.ofNat 32 ((b.addr + 64) / 2 ^ 32), BitVec.ofNat 32 (s.hw.reports + 1)]) ∧
        ∃ e, mget? t.hw.eph (s.hw.reports + 1) = some e ∧ e.part = attestPart ws ∧ e.secret = padTo 56 entropy ∧
          e.public_ = Config.x448 (padTo 56 entropy) x448Base ∧ e.made = s.now ∧ e.used = false)) ∧
    mbxRow (.attestLog r pos) r.val pos 0x50 (attests 2) (fun s k ws => ∃ b, own s k ws b ∧ out s b)
      (fun s _ ws _ st _ res => st = csOk ∧ ∀ b, mget? s.hw.bufs (hIndex (arg ws 4)) = some b →
        res = [BitVec.ofNat 32 (min ((b.bytes - 64) / 64) (s.hw.log.length - fld (arg ws 5) 15 0)), BitVec.ofNat 32 s.hw.logN]) ∧
    mbxRow (.attestJobKey r pos) r.val pos 0x50 (attests 1) (fun s k ws => arg ws 3 ≠ 0#32 ∧ ∃ b, own s k ws b ∧ 192 ≤ b.bytes)
      (fun s _ ws t st _ res => ∀ b g, mget? s.hw.bufs (hIndex (arg ws 4)) = some b → s.hpart (attestPart ws) = some g →
        let m := devRead s (b.addr + 64) 128
        let e := mget? s.hw.eph (msgNat m 0 4)
        (keyStale s (attestPart ws) e = true → st = csStale ∧ t.hpart (attestPart ws) = some g) ∧
        ∀ x, e = some x → keyStale s (attestPart ws) e = false →
          let u := unwrapKey x m
          let bad := (∀ y ∈ u.1, y = 0#8) ∨ u.2.2 = false ∨ msgNat m 4 4 ≠ g.checks.job ∨ s.mod.tamper = true
          (bad → st = csFailed ∧ t.hpart (attestPart ws) = some g) ∧
          (¬ bad → st = csOk ∧ res = wordsOfBytes (keyIdOf u.2.1 g.checks.job) 2 ∧
            ∃ g2, t.hpart (attestPart ws) = some g2 ∧ g2.key = some u.2.1 ∧ g2.keyId = keyIdOf u.2.1 g.checks.job))

/-- Seals and reports: a seal counts for the step the heartwood awaits; with all of them clear and nothing held, an UNCHECKED partition's
step is committed; a suspect one waits 2^20 cyc for its cause and then runs again; an assay report raises a check event (R547 to R549,
R558). -/
def Obligations.SealsAndReportsAct : Prop :=
  (∀ (part : Nat) (l : RegionId) (s : State),
    let awaited (k : Partn) (x : Nat × Nat × Nat × Bool) : Bool := x.1 == part && x.2.1 == l.val && x.2.2.1 == k.sealed + 1
    ((∀ k, s.hpart part = some k → s.seals.find? (awaited k) = none) → exec (.sealReceive part l) s = .next s) ∧
    ∀ k x, s.hpart part = some k → s.seals.find? (awaited k) = some x →
      let held := k.seals ++ [(l.val, x.2.2.2)]
      let all := ∀ r ∈ partRegions k, ∃ e ∈ held, e.1 = r
      let idle := k.recov = 0 ∧ k.halted = false
      (¬ all → exec (.sealReceive part l) s = .next ({ s with seals := s.seals.erase x }.setPart part { k with seals := held })) ∧
      (all → idle → (∀ e ∈ held, e.2 = false) → k.checks.cls = 0 → k.touch = none → k.before = Findings.none → k.reqs = [] → k.partner = none →
        k.holdFor = none → leads (.sealReceive part l) s fun t => t.seals = s.seals.erase x ∧ ∃ g, t.hpart part = some g ∧
          g.committed = k.sealed + 1 ∧ g.sealed = k.sealed + 1 ∧ g.seals = [] ∧ g.runs = 1) ∧
      (all → idle → (∃ e ∈ held, e.2 = true ∧ explained k.now_ e.1 = false) → k.sealAt = none → leads (.sealReceive part l) s fun t =>
        ∃ g, t.hpart part = some g ∧ g.sealAt = some s.now ∧ g.committed = k.committed ∧ g.sealed = k.sealed)) ∧
  (∀ (part : Nat) (s : State),
    ((∀ k, s.hpart part = some k → k.sealAt = none) → exec (.suspectCauseTimeout part) s = .next s) ∧
    ∀ k u, s.hpart part = some k → k.sealAt = some u → k.recov = 0 → k.halted = false → k.haltAt = none → k.restarts < 4 → k.runs < 4 →
      k.now_.parity = [] → (∀ r ∈ partRegions k, ∃ e ∈ k.seals, e.1 = r) → (∃ e ∈ k.seals, e.2 = true) →
      leads (.suspectCauseTimeout part) s fun t => t.now = max s.now (u + 1048576) ∧ winCounts s t iReruns 15 0 1 ∧
        ∃ g, t.hpart part = some g ∧ g.recov = 1 ∧ g.haltAt = some (t.now + 16384) ∧ g.seals = [] ∧ g.committed = k.committed) ∧
  (∀ (c : CoreId) (val : Word) (s : State),
    let k := s.coreNow c.val
    leads (.assayReport c val) s fun t => countsOne k (t.core c.val) 0xC10 31 16 ∧ (t.region (regionOfCore c.val)).suspect = true ∧
      (k.recs = [] → (∀ l, k.lastRec = some l → l + 256 ≤ s.now) → ⟨.assay, c.val, [fld val 19 0, fld val 28 20]⟩ ∈ t.records))

/-- Hallmark: a round starts at a step boundary and again after N steps; a replica's digest is computed once; messages that fail their
checks are counted and dropped; digests are kept by round and replica; a vote is cast once, with every digest or 1 s after its own; an EXPEL
expels the replica it names (R562 to R568, R721). -/
def Obligations.HallmarkActs : Prop :=
  (∀ (part : Nat) (s : State),
    (s.hpart part = none → exec (.hallmarkRound part) s = .next s ∧ exec (.hallmarkDigestDone part) s = .next s ∧ exec (.hallmarkVote part) s = .next s) ∧
    ∀ k, s.hpart part = some k →
      (k.checks.cls ≠ 1 → exec (.hallmarkRound part) s = .next s) ∧
      (k.checks.cls = 1 → k.round = none → exec (.hallmarkRound part) s = .next (s.setPart part { k with round := some ⟨0, k.step - 1, none, false⟩ })) ∧
      (k.round = none → exec (.hallmarkDigestDone part) s = .next s ∧ exec (.hallmarkVote part) s = .next s) ∧
      ∀ r, k.round = some r →
        (k.checks.cls = 1 → r.own = none ∨ k.step - 1 < r.step + k.checks.hmN → exec (.hallmarkRound part) s = .next s) ∧
        (k.checks.cls = 1 → r.own ≠ none → r.step + k.checks.hmN ≤ k.step - 1 → leads (.hallmarkRound part) s fun t =>
          ∃ g, t.hpart part = some g ∧ g.round = some ⟨r.num + 1, k.step - 1, none, false⟩) ∧
        (r.own ≠ none → exec (.hallmarkDigestDone part) s = .next s) ∧
        (r.own = none → leads (.hallmarkDigestDone part) s fun t => t.now = s.now ∧ ∃ g, t.hpart part = some g ∧
          g.round = some { r with own := some s.now } ∧ mget? g.digests (8 * r.num + k.checks.replica) =
            some (sliceTarn s k.checks.ref (roundSlice s k r.num), sliceDigest s k.checks.ref (roundSlice s k r.num))) ∧
        (r.own = none ∨ r.voted = true → exec (.hallmarkVote part) s = .next s) ∧
        (∀ u, r.own = some u → r.voted = false → leads (.hallmarkVote part) s fun t => winCounts s t iHallmark 15 0 1 ∧
          (t.now = if (roundDigests k r.num).length = k.checks.nrep then s.now else max s.now (u + 1600000000)) ∧
          ∃ g, t.hpart part = some g ∧ g.round = some { r with voted := true })) ∧
  (∀ (q : BitVec 16) (m : List Byte) (s : State),
    let p := ((s.qp q.toNat).map Qp.part).getD 0
    let good (ty : Nat) (k : Partn) : Prop := s.hpart p = some k ∧ tagOk s k m 64 juIntegrity = true ∧ msgNat m 0 1 = ty ∧ msgNat m 4 4 = k.checks.job ∧
      q.toNat ∉ k.dead ∧ k.checks.cls = 1 ∧ replicaOf k q.toNat = some (msgNat m 1 1)
    ((∀ k, ¬ good 1 k) → leads (.digest q m) s fun t => onlyWin s t ∧ winCounts s t iAuth 15 0 1) ∧
    ((∀ k, ¬ good 2 k) → leads (.expel q m) s fun t => onlyWin s t ∧ winCounts s t iAuth 15 0 1) ∧
    ∀ k, (good 1 k → leads (.digest q m) s fun t => t.win = s.win ∧ ∃ g, t.hpart p = some g ∧
        mget? g.digests (8 * msgNat m 8 8 + msgNat m 1 1) = some (msgNat m 2 1 % 2 == 1, (m.drop 32).take 32)) ∧
      (good 2 k → msgNat m 16 4 ≠ k.checks.replica → exec (.expel q m) s = .next s) ∧
      (good 2 k → msgNat m 16 4 = k.checks.replica → leads (.expel q m) s fun t => ∃ g, t.hpart p = some g ∧ g.expelled = true))

/-- Touchstone: a request from a MASTER partition is answered or admitted as a replay; an answer that fails its checks is counted, one for
another step ignored, BUSY tried again after 10 ms, a digest that differs decided by a local run; with no touchstone in time the held step
fails (R571 to R574). -/
def Obligations.TouchstoneActs : Prop :=
  (∀ (part : Nat) (s : State),
    (s.hpart part = none → exec (.tsRetry part) s = .next s ∧ exec (.tsTimeout part) s = .next s) ∧
    ∀ k, s.hpart part = some k →
      (k.touch = none → exec (.tsRetry part) s = .next s ∧ exec (.tsTimeout part) s = .next s) ∧
      ∀ h, k.touch = some h →
        (h.busy = false → exec (.tsRetry part) s = .next s) ∧
        (h.busy = true → leads (.tsRetry part) s fun t => t.now = max s.now (h.last + 16000000) ∧ ∃ g, t.hpart part = some g ∧
          g.touch = some { h with last := t.now, busy := false }) ∧
        (h.answer ≠ none → exec (.tsTimeout part) s = .next s) ∧
        (h.answer = none → leads (.tsTimeout part) s fun t => winCounts s t iTouch 31 24 1 ∧
          h.first + (if k.checks.tsWait = 0 then 2000 else k.checks.tsWait) * 1600000 ≤ t.now ∧
          ∃ g, t.hpart part = some g ∧ g.touch = none ∧ g.later = [])) ∧
  (∀ (q : BitVec 16) (m data : List Byte) (s : State),
    let p := ((s.qp q.toNat).map Qp.part).getD 0
    let good (ty : Nat) (k : Partn) : Prop := s.hpart p = some k ∧ tagOk s k m 64 juIntegrity = true ∧ msgNat m 0 1 = ty ∧ msgNat m 4 4 = k.checks.job ∧
      q.toNat ∉ k.dead ∧ msgNat m 1 1 = 0
    let mine (k : Partn) : Prop := good 4 k ∧ k.checks.cls = 2 ∧ k.checks.tsQp = q.toNat
    let status := msgNat m 2 1 / 2 % 8
    ((∀ k, ¬ good 3 k) → leads (.tsReq q m data) s fun t => onlyWin s t ∧ winCounts s t iAuth 15 0 1) ∧
    ((∀ k, ¬ mine k) → leads (.tsResult q m) s fun t => onlyWin s t ∧ winCounts s t iAuth 15 0 1) ∧
    (∀ k, good 3 k → k.checks.serve = false → leads (.tsReq q m data) s fun t => t.hw.parts = s.hw.parts ∧ t.stks = s.stks) ∧
    (∀ k g secs, good 3 k → k.checks.serve = true → replayPlan s p (msgNat m 16 4) = some (g, secs) → secs ≠ [] → msgNat m 28 4 ≤ 1048576 * k.checks.mib →
      inRecovery k = false → k.expelled = false → s.hw.fault = false →
      (planTimes secs (roundUp4096 (max (s.now + 16384) k.free))).1.headD 0 < s.now + k.horizon * 4096 → leads (.tsReq q m data) s fun t =>
        ∃ k2 e, t.hpart p = some k2 ∧ k2.reqs = k.reqs ++ [e] ∧ e.replay = some (q.toNat, msgNat m 8 8) ∧ e.plan = msgNat m 16 4 ∧ e.prog = g ∧ e.started = false) ∧
    (∀ k, mine k → (∀ h, k.touch = some h → h.step ≠ msgNat m 8 8 ∨ h.answer ≠ none) → exec (.tsResult q m) s = .next s) ∧
    ∀ k h, mine k → k.touch = some h → h.step = msgNat m 8 8 → h.answer = none →
      (status = tsBusy → exec (.tsResult q m) s = .next (s.setPart p { k with touch := some { h with busy := true } })) ∧
      (status = tsDone → (m.drop 32).take 32 ≠ h.own → leads (.tsResult q m) s fun t => ∃ g, t.hpart p = some g ∧
        g.touch = some { h with answer := some ((m.drop 32).take 32) } ∧ g.recov ≠ 0) ∧
      (status ≠ tsDone → status ≠ tsBusy → leads (.tsResult q m) s fun t => winCounts s t iTouch 31 24 1 ∧ ∃ g, t.hpart p = some g ∧ g.touch = none))

/-- Detectors: heartbeats are sent as records, three missed fence the unit; burnish goes piece by piece, item by item and core by core, a
known answer that differs is flagged and one that does not come right fences the core; a rootstock that fails its march is ABSENT; scores
decay (R585, R590 to R595, R612, R656). The heartwoods: BEAT advances every 1 ms, the latch changes to the other heartwood unless that is
dead, a takeover fences the old one and is reported, and 55 ms without BEAT or a change of the latch raise the alert (R609 to R611). -/
def Obligations.DetectorsAndHeartwoodsAct : Prop :=
  (
  (∀ (p : PhysId) (s : State),
    let b := mgetD s.burn p.val (Burn.start s.now)
    let n := 272 * p.val + b.core
    (fld (wReg s (0x40020 + 0x100 * p.val)) 11 10 = 3 → exec (.regionHeartbeat p) s = .next s) ∧
    (fld (wReg s (0x40020 + 0x100 * p.val)) 11 10 ≠ 3 → exec (.regionHeartbeat p) s = .next (s.record ⟨.heartbeat, p.val, []⟩)) ∧
    (∀ ok repeats, leads (.burnishPiece p true ok repeats) s fun t => mget? t.burn p.val = some b ∧ t.now = s.now) ∧
    (∀ repeats, b.piece + 1 ≠ itemPieces b.item → leads (.burnishPiece p false true repeats) s fun t =>
      mget? t.burn p.val = some { b with piece := b.piece + 1 } ∧ ∀ c, logCore s n = some c → fld (cReg (t.core c) 0x108) 3 0 = b.item % 16) ∧
    (∀ repeats, b.piece + 1 = itemPieces b.item → b.item ≠ 10 → leads (.burnishPiece p false true repeats) s fun t =>
      mget? t.burn p.val = some { b with item := b.item + 1, piece := 0 }) ∧
    (∀ repeats, b.piece + 1 = itemPieces b.item → b.item = 10 → leads (.burnishPiece p false true repeats) s fun t =>
      ∀ c, logCore s n = some c → fld (cReg (t.core c) 0x108) 31 16 = (fld (cReg (s.core c) 0x108) 31 16 + 1) % 65536 ∧
        fld (cReg (t.core c) 0x108) 3 0 = 15) ∧
    (∀ repeats : List Bool, false ∈ repeats.take 3 → leads (.burnishPiece p false false repeats) s fun t => coreUnit n ∈ t.hw.fenced) ∧
    (leads (.burnishTimeout p) s fun t => t.now = max s.now (b.began + 160000000) ∧ ∀ c, logCore s n = some c →
      fld (cReg (t.core c) 0x108) 15 8 = min 255 (fld (cReg (s.core c) 0x108) 15 8 + 1))) ∧
  (∀ (st : StackId) (s : State), exec (.baseDieHeartbeat st) s = .next (s.record ⟨.baseBeat, st.val, []⟩)) ∧
  (∀ (u : Nat) (s : State),
    (u < 48 → leads (.heartbeatLoss false u) s fun t => regionUnit u ∈ t.hw.fenced ∧ mgetD s.hw.beats u s.now + 3145728 ≤ t.now) ∧
    (u < 56 → leads (.heartbeatLoss true u) s fun t => stackUnit u ∈ t.hw.fenced ∧ mgetD s.hw.beats (1000 + u) s.now + 3145728 ≤ t.now) ∧
    (48 ≤ u → exec (.heartbeatLoss false u) s = .next s) ∧ (56 ≤ u → exec (.heartbeatLoss true u) s = .next s)) ∧
  (∀ (row : Fin 6) (s : State), exec (.rootstockMarch row true) s = .next s ∧
    leads (.rootstockMarch row false) s fun t => onlyWin s t ∧ rstkState t row.val = rstkAbsent ∧ rstkCol t row.val = rstkCol s row.val) ∧
  (∀ s : State, leads .patinaDecay s fun t => onlyWin s t ∧
    (∀ o, o < 0x200100 ∨ 0x220000 ≤ o → wReg t o = wReg s o) ∧
    ∀ p : Fin 48, let o := 0x200100 + 4 * p.val
      fld (wReg t o) 15 0 = fld (wReg s o) 15 0 - fld (wReg s o) 15 0 / 256 ∧ fld (wReg t o) 17 16 = levelOf (fld (wReg t o) 15 0))) ∧
  (
  ∀ s : State,
    (leads .beat s fun t => t.now = max s.now (s.hw.beatAt + 1600000) ∧ t.hw.beatAt = t.now ∧ t.hw.prefDue = false ∧
      fld (wReg t 0x200000) 15 8 = (fld (wReg s 0x200000) 15 8 + 1) % 256 ∧ activeHw t = activeHw s) ∧
    (∀ y, 1 - activeHw s ∈ s.hw.dead → exec (.latchChange y) s = .next s) ∧
    (∀ y, 1 - activeHw s ∉ s.hw.dead → leads (.latchChange y) s fun t => t.now = (if y then s.now else max s.now (s.hw.beatAt + 8000000)) ∧
      activeHw t = 1 - activeHw s ∧ t.hw.turned = true ∧ fld (wReg t 0x200000) 31 16 = (fld (wReg s 0x200000) 31 16 + 1) % 65536) ∧
    (s.hw.turned = false → exec .takeover s = .next s) ∧
    (s.hw.turned = true → leads .takeover s fun t => heartUnit (1 - activeHw s) ∈ t.hw.fenced ∧ t.hw.turned = false ∧ activeHw t = activeHw s ∧
      (∃ e ∈ t.hw.events, e.kind = evTakeover) ∧ (s.hw.ready = true → t.hw.annSeq = s.hw.annSeq + 1)) ∧
    (s.hw.turned = true → exec .heartwoodLost s = .next s) ∧
    (s.hw.turned = false → leads .heartwoodLost s fun t => t.now = max s.now (s.hw.beatAt + 88000000) ∧ t.win = s.win ∧
      bit (regRaw sidebandRegs t.mod.sbd 0x8) 1 = true))

/-- Resets and moves: a halt applies at its time and, where nothing more is asked, rolls the partition back to its committed step; a
recovery restarts and at the fourth time fails; resets leave cores idle and are counted, a whole-device reset closes every partition, an
escalation fences; a graft moves a row onto its rootstock, a bypass takes a core out of its row, a tested region becomes the rootstock again
or is lost (R597 to R608, R625). -/
def Obligations.ResetsAndMovesAct : Prop :=
  (∀ (part : Nat) (s : State),
    (s.hpart part = none → exec (.halt part) s = .next s ∧ exec (.recoveryRestart part) s = .next s ∧ exec (.partitionReset part) s = .next s) ∧
    ∀ k, s.hpart part = some k →
      let mine (c : Nat) : Prop := regionOfCore c ∈ partRegions k
      (k.haltAt = none → k.halted = false → exec (.halt part) s = .next s) ∧
      (∀ u, k.haltAt = some u → k.halted = false → k.recov ≠ 1 → leads (.halt part) s fun t => t.now = max s.now u ∧
        (∃ g, t.hpart part = some g ∧ g.halted = true ∧ g.committed = k.committed) ∧ ∀ c, mine c → (t.core c).idle = true) ∧
      (∀ u, k.haltAt = some u → k.halted = false → k.recov = 1 → leads (.halt part) s fun t => ∃ g, t.hpart part = some g ∧ g.haltAt = none ∧
        g.halted = false ∧ g.recov = 0 ∧ g.step = k.committed + 1 ∧ g.committed = k.committed) ∧
      (k.recov = 0 → exec (.recoveryRestart part) s = .next s) ∧
      (k.recov ≠ 0 → k.restarts < 3 → leads (.recoveryRestart part) s fun t => winCounts s t 0x200008 31 16 1 ∧
        ∃ g, t.hpart part = some g ∧ g.recov = k.recov ∧ g.restarts = k.restarts + 1) ∧
      (k.recov ≠ 0 → 3 ≤ k.restarts → leads (.recoveryRestart part) s fun t => ∃ g, t.hpart part = some g ∧ g.heldJob = true ∧ g.restarts = 0) ∧
      (leads (.partitionReset part) s fun t => t.hpart part = some k ∧ t.now = s.now ∧ ∀ c, mine c → (t.core c).idle = true ∧ (t.core c).awaiting = true)) ∧
  (∀ (c : CoreId) (s : State), s.hw.chans = [] → leads (.coreReset c) s fun t => winCounts s t 0x200004 7 0 1 ∧
    (t.core c.val).idle = true ∧ (t.core c.val).awaiting = true ∧ (t.core c.val).flitQ = [] ∧ (t.core c.val).spad = (s.core c.val).spad ∧
    (t.core c.val).slots = (s.core c.val).slots ∧ ∀ d, d ≠ c.val → t.core d = s.core d) ∧
  (∀ (p : PhysId) (cx cy : Fin 4) (s : State), leads (.clusterReset p cx cy) s fun t => winCounts s t 0x200004 15 8 1 ∧
    ∀ c ∈ clusterCores s p.val cx.val cy.val, (t.core c).idle = true ∧ (t.core c).awaiting = true) ∧
  (∀ s : State, leads .deviceReset s fun t => t.now = s.now ∧ t.net = [] ∧ t.records = [] ∧ t.hw.parts = [] ∧ t.hw.chans = [] ∧ t.tmb.events = [] ∧
    t.hw.ready = false ∧ t.hw.fenced = s.hw.fenced ∧ ∀ p : Fin 8, portState s p.val = poUp → portState t p.val = poQuiet) ∧
  (∀ (unit : Nat) (s : State),
    (leads (.resetEscalate 0 unit) s fun t => winCounts s t 0x200004 23 16 1 ∧ coreUnit (physCore s (unit % 10752)) ∈ t.hw.fenced) ∧
    (leads (.resetEscalate 1 unit) s fun t => winCounts s t 0x200004 23 16 1 ∧
      unitWord uCluster (packFields [(6, unit / 16 % 48), (2, unit % 4), (2, unit / 4 % 4)]) ∈ t.hw.fenced) ∧
    (leads (.resetEscalate 2 unit) s fun t => t.hw.parts = [] ∧ t.net = []) ∧
    (leads (.resetEscalate 3 unit) s fun t => t.hw.fault = true ∧ ∀ p : Fin 8, portState t p.val = poFenced)) ∧
  (∀ (p : PhysId) (s : State),
    let after (t : State) : Prop := rstkCol t (p.val / 8) = p.val % 8 ∧ rstkState t (p.val / 8) = rstkPending ∧ physFenced t p.val = true
    (canGraft s p.val = false → exec (.graft p) s = .next s) ∧
    (canGraft s p.val = true → partOfPhys s p.val = none → (regionActs s p.val = false → exec (.graft p) s = .next s) ∧
      (regionActs s p.val = true → leads (.graft p) s after)) ∧
    (∀ q k, canGraft s p.val = true → partOfPhys s p.val = some q → s.hpart q = some k → deadRegion s p.val = true → k.recov = 2 → leads (.graft p) s after) ∧
    (∀ pass, rstkCol s (p.val / 8) ≠ p.val % 8 ∨ rstkState s (p.val / 8) ≠ rstkPending → exec (.regionTestDone p pass) s = .next s) ∧
    (rstkCol s (p.val / 8) = p.val % 8 → rstkState s (p.val / 8) = rstkPending →
      (leads (.regionTestDone p false) s fun t => rstkState t (p.val / 8) = rstkAbsent) ∧
      (breaksR26 (regionBad s p.val) p.val = false → bit (wReg s (0x40008 + 0x100 * p.val)) 3 = false → leads (.regionTestDone p true) s fun t =>
        rstkState t (p.val / 8) = rstkIntact ∧ physFenced t p.val = false ∧ t.hw.fenced = s.hw.fenced.erase (regionUnit p.val))) ∧
    ∀ (row : Fin 16) (col : Fin 17),
      let n := 272 * p.val + 17 * row.val + col.val
      (unitFenced s (coreUnit n) = false ∨ canGraft s p.val = true ∨ bypassOf s p.val row.val ≠ 17 → exec (.inPlaceBypass p row col) s = .next s) ∧
      ∀ l q k, logOf s p.val = some l → partOfPhys s p.val = some q → s.hpart q = some k → k.recov = 2 → unitFenced s (coreUnit n) = true →
        canGraft s p.val = false → bypassOf s p.val row.val = 17 → leads (.inPlaceBypass p row col) s fun t =>
          bypassOf t p.val row.val = col.val ∧ n ∈ t.mod.bad)

/-- Jobs across modules: LIVE is sent and heard, a message that fails its checks is dropped and counted, a quench is taken once and holds
the job, a silent peer is dead, and a module joins at a committed boundary with the state it is sent or fails to (R614 to R623, R721). -/
def Obligations.JobMessagesAct : Prop :=
  (∀ (q : BitVec 16) (m data : List Byte) (s : State),
    let good (ty : Nat) (x : Qp) (k : Partn) : Prop := s.qp q.toNat = some x ∧ s.hpart x.part = some k ∧ tagOk s k m 96 juJob = true ∧ msgNat m 0 1 = ty ∧
      msgNat m 4 4 = k.checks.job ∧ x.seqRx < msgNat m 8 8 ∧ q.toNat ∉ k.dead
    let dropped (c : Instr) : Prop := leads c s fun t => onlyWin s t ∧ winCounts s t iAuth 15 0 1
    let heard (c : Instr) (x : Qp) (post : State → Partn → Prop) : Prop := leads c s fun t => ∃ g, t.hpart x.part = some g ∧
      mget? g.heard q.toNat = some s.now ∧ post t g
    ((∀ x k, ¬ good 0x10 x k) → leads (.quench q m) s fun t =>
      winCounts s t (pReg (((s.qp q.toNat).map Qp.port).getD 0) 0x8C) 31 0 1 ∧ t.hw = s.hw) ∧
    ((∀ x k, ¬ good 0x11 x k) → dropped (.live q m)) ∧ ((∀ x k, ¬ good 0x12 x k) → dropped (.join q m)) ∧
    ((∀ x k, ¬ good 0x13 x k) → dropped (.state q m data)) ∧ ((∀ x k, ¬ good 0x14 x k) → dropped (.joined q m)) ∧
    ∀ x k,
      (good 0x10 x k → k.checks.cls ≠ 1 → (msgNat m 16 8, msgNat m 48 8) ∉ k.quenches → heard (.quench q m) x fun _ g => g.heldJob = true ∧ g.recov ≠ 0) ∧
      (good 0x10 x k → k.checks.cls ≠ 1 → (msgNat m 16 8, msgNat m 48 8) ∈ k.quenches → heard (.quench q m) x fun t g =>
        g.heldJob = k.heldJob ∧ t.net = s.net ∧ t.reply = s.reply) ∧
      (good 0x11 x k → msgNat m 1 1 % 2 = 0 ∨ k.checks.cls = 1 → k.holdAt = none → k.holdFor = none → heard (.live q m) x fun t g =>
        g.holdAt = none ∧ ∃ y, t.qp q.toNat = some y ∧ y.seqRx = msgNat m 8 8) ∧
      (good 0x11 x k → msgNat m 1 1 % 2 = 1 → k.checks.cls ≠ 1 → k.holdAt = none → k.committed < msgNat m 24 8 → heard (.live q m) x fun _ g =>
        g.holdFor = some (q.toNat, msgNat m 24 8)) ∧
      (good 0x11 x k → msgNat m 1 1 % 2 = 1 → k.checks.cls ≠ 1 → k.holdAt = none → k.committed = msgNat m 24 8 → heard (.live q m) x fun _ g =>
        g.holdAt = some (q.toNat, s.now)) ∧
      (good 0x12 x k → heard (.join q m) x fun _ g => g.partner = some q.toNat) ∧
      (good 0x13 x k → (∀ d, k.joiner = some d → d.qp ≠ q.toNat) → heard (.state q m data) x fun _ g => g.committed = k.committed) ∧
      (∀ d, good 0x13 x k → k.joiner = some d → d.qp = q.toNat →
        (data.length ≠ msgNat m 40 8 ∨ Config.shake256 data 32 ≠ (m.drop 64).take 32 → heard (.state q m data) x fun _ g =>
          g.joiner = none ∧ g.committed = k.committed) ∧
        (data.length = msgNat m 40 8 → Config.shake256 data 32 = (m.drop 64).take 32 → heard (.state q m data) x fun _ g =>
          g.joiner = none ∧ g.committed = msgNat m 24 8 ∧ g.step = msgNat m 24 8 + 1)) ∧
      (good 0x14 x k → heard (.joined q m) x fun _ g => g.holdAt = none ∧ g.holdFor = none)) ∧
  (∀ (part : Nat) (s : State),
    (s.hpart part = none → exec (.liveSend part) s = .next s ∧ exec (.admitTimeout part) s = .next s ∧ ∀ q, exec (.peerDead part q) s = .next s) ∧
    ∀ k, s.hpart part = some k →
      (leads (.liveSend part) s fun t => t.now = max s.now (k.liveAt + k.liveMs * 1600000 / 5) ∧ t.hpart part = some { k with liveAt := t.now }) ∧
      (∀ q : BitVec 16, q.toNat ∉ livePeers k → exec (.peerDead part q) s = .next s) ∧
      (∀ q : BitVec 16, q.toNat ∈ livePeers k → unitFenced s (peerUnit s q.toNat) = false → leads (.peerDead part q) s fun t =>
        mgetD k.heard q.toNat s.now + k.liveMs * 1600000 ≤ t.now ∧ peerUnit s q.toNat ∈ t.hw.fenced ∧
        ∃ g, t.hpart part = some g ∧ q.toNat ∈ g.dead ∧ (k.checks.cls ≠ 1 → g.heldJob = true)) ∧
      (k.joiner = none → k.holdAt = none → exec (.admitTimeout part) s = .next s) ∧
      (∀ d, k.joiner = some d → leads (.admitTimeout part) s fun t => t.now = max s.now d.until_ ∧ t.hpart part = some { k with joiner := none } ∧
        fld (wReg t 0x200008) 3 0 = 0) ∧
      (∀ h, k.joiner = none → k.holdAt = some h → leads (.admitTimeout part) s fun t => t.now = max s.now (h.2 + 3200000000) ∧
        ∃ g, t.hpart part = some g ∧ g.holdAt = none ∧ g.holdFor = none ∧ g.partner = none))

/-- Region power: VSET takes the values it may have; a low voltage, a droop by 30 mV and by 50 mV, an abnormal drop and a current above 480
A are flagged, and what makes a step suspect marks it; a booked notice boosts the region for its time or counts as one without a rail (R638
to R647, R667). The module's power and clocks: a phase lost lowers the budget and, below four, is a module fault; an input out of range ends
power; a low input and a power above the budget raise alerts; a region whose clock is lost takes another input that has one, or holds, and
64,000 cyc later its clock is dead (R634, R636, R649, R650, R653 to R656). -/
def Obligations.PowerActs : Prop :=
  (
  ∀ (p : PhysId) (s : State),
    let on := railOn s p.val = true
    let v := fld (wReg s (rg p.val 0)) 9 0
    let flag (t : State) (b : Nat) : Prop := bit (wReg t (rg p.val 8)) b = true
    (∀ mv, (mv < 620 ∨ 820 < mv ∨ mv % 5 ≠ 0 → exec (.vsetUpdate p mv) s = .next s) ∧
      (620 ≤ mv → mv ≤ 820 → mv % 5 = 0 → leads (.vsetUpdate p mv) s fun t => onlyWin s t ∧ fld (wReg t (rg p.val 0)) 9 0 = mv)) ∧
    (¬ on → exec (.vlow p) s = .next s ∧ exec (.abnormalDrop p) s = .next s ∧ (∀ mv n, exec (.droop p mv n) s = .next s) ∧
      ∀ a, exec (.overcur p a) s = .next s) ∧
    (on → leads (.vlow p) s fun t => onlyWin s t ∧ flag t 0) ∧
    (on → leads (.abnormalDrop p) s fun t => flag t 3 ∧ t.records = s.records ++ [⟨.supply, p.val, []⟩]) ∧
    (∀ mv (n : Fin 64), on →
      (v ≤ mv + 30 → leads (.droop p mv n) s fun t => onlyWin s t ∧ wReg t (rg p.val 8) = wReg s (rg p.val 8) ∧
        fld (wReg t (rg p.val 0x10)) 9 0 = min 1023 mv ∧ fld (wReg t (rg p.val 0x10)) 15 10 = n.val) ∧
      (mv + 30 < v → leads (.droop p mv n) s fun t => flag t 1 ∧ fld (wReg t (rg p.val 0x10)) 9 0 = mv ∧
        fld (wReg t (rg p.val 0x10)) 15 10 = n.val ∧ (mv + 50 < v → flag t 2)) ∧
      ∀ l, mv + 50 < v → logOf s p.val = some l → (partOfRegion s l).isSome → bit (wReg s (rg p.val 8)) 3 = true →
        leads (.droop p mv n) s fun t => (t.region l).suspect = true) ∧
    (∀ amps, on → amps ≤ 480 → exec (.overcur p amps) s = .next s) ∧
    (∀ amps, on → 480 < amps →
      (∀ q k, partOfPhys s p.val = some q → s.hpart q = some k → k.recov ≠ 0 ∨ k.halted = true ∨ ∃ l ∈ partRegions k, ∀ e ∈ k.seals, e.1 ≠ l) →
      leads (.overcur p amps) s fun t => flag t 4 ∧ fld (wReg t (rg p.val 0xC)) 15 0 = 10 * min 500 amps ∧
        ∀ l q k, logOf s p.val = some l → partOfPhys s p.val = some q → s.hpart q = some k → (t.region l).suspect = true ∧
          ∃ g, t.hpart q = some g ∧ l ∈ g.now_.overcur) ∧
    (nextNotice s p.val = none → exec (.loadStepNotice p) s = .next s) ∧
    (∀ e di, nextNotice s p.val = some (e, di) →
      (on → leads (.loadStepNotice p) s fun t => t.now = max s.now e.time ∧ (∀ x ∈ t.tmb.events, x.id ≠ e.id) ∧
        winCounts s t (rg p.val 8) 23 16 1 ∧ mget? t.mod.boost p.val = some (e.time + 4800, decide (0 < di))) ∧
      (¬ on → leads (.loadStepNotice p) s fun t => t.now = max s.now e.time ∧ (∀ x ∈ t.tmb.events, x.id ≠ e.id) ∧
        winCounts s t (rg p.val 8) 31 24 1 ∧ t.mod = s.mod)) ∧
    (mget? s.mod.boost p.val = none → exec (.noticeEnd p) s = .next s) ∧
    (∀ e, mget? s.mod.boost p.val = some e → mkeysRising s.mod.boost → leads (.noticeEnd p) s fun t => t.now = max s.now e.1 ∧
      mget? t.mod.boost p.val = none ∧ t.win = s.win)) ∧
  (
  (∀ (n : Nat) (s : State), let budget (t : State) : Nat := fld (wReg t 0x30008) 15 0
    (12 ≤ n → leads (.phaseFail n) s fun t => t = { s with mod := { s.mod with phases := 12 } }) ∧
    (n < 12 → leads (.phaseFail n) s fun t => t.mod.phases = n ∧ bit (wReg t 0x30010) 4 = true ∧ bit (regRaw sidebandRegs t.mod.sbd 8) 8 = true ∧
      (n ≤ 10 → budget t = min (budget s) (1700 * n)) ∧ (10 < n → budget t = budget s) ∧ (n < 4 → t.hw.fault = true))) ∧
  (∀ s : State, leads .inputOutOfRange s fun t => t.mod.enabled = false ∧ t.now = s.now ∧ t.hw.parts = [] ∧ t.net = [] ∧
    t.hw.fenced = s.hw.fenced ∧ t.mod.store = s.mod.store ∧ t.mod.boots = s.mod.boots) ∧
  (∀ s : State, leads .vinLow s fun t => bit (wReg t 0x30010) 0 = true ∧ bit (regRaw sidebandRegs t.mod.sbd 8) 4 = true ∧ t.hw = s.hw) ∧
  (∀ (w : Nat) (s : State), let budget := fld (wReg s 0x30008) 15 0
    (w ≤ budget → leads (.pinOver w) s fun t => onlyWin s t ∧ fld (wReg t 0x30000) 31 16 = w) ∧
    (budget < w → leads (.pinOver w) s fun t => fld (wReg t 0x30000) 31 16 = min 65535 w ∧ bit (wReg t 0x30010) 1 = true ∧
      bit (regRaw sidebandRegs t.mod.sbd 8) 5 = true ∧ ∀ q, heaviest s = some q → ∃ g, t.hpart q = some g ∧ g.heldJob = true)) ∧
  ∀ (p : PhysId) (s : State),
    let clk (t : State) : Word := wReg t (rg p.val 0x20)
    let w := clk s
    let others := [0, 1, 2, 3].map fun i => fld w (2 * i + 1) (2 * i)
    let score := wReg s (0x200100 + 4 * p.val)
    (∀ alive : BitVec 4, (∀ d ∈ others, d = fld w 9 8 ∨ alive.getLsbD d = false) → leads (.clockLoss p alive) s fun t =>
      fld (clk t) 11 10 = 1 ∧ bit (clk t) 12 = false ∧ fld (clk t) 9 8 = fld w 9 8 ∧
      mget? t.mod.noClock p.val = some (mgetD s.mod.noClock p.val s.now) ∧ t.hw = s.hw) ∧
    (∀ (alive : BitVec 4) (d : Nat), others.find? (fun d => d != fld w 9 8 && alive.getLsbD d) = some d →
      levelOf (min 65535 (fld score 15 0 + 100)) ≤ fld score 17 16 →
      ((∀ q k, partOfPhys s p.val = some q → s.hpart q = some k → running s k = false) → leads (.clockLoss p alive) s fun t =>
        fld (clk t) 9 8 = d ∧ fld (clk t) 11 10 = 0 ∧ bit (clk t) 12 = true ∧ fld (clk t) 31 16 = (fld w 31 16 + 1) % 65536 ∧ t.hw = s.hw) ∧
      ∀ q k, partOfPhys s p.val = some q → s.hpart q = some k → running s k = true → leads (.clockLoss p alive) s fun t =>
        fld (clk t) 9 8 = d ∧ ∃ g, t.hpart q = some g ∧ g.recov ≠ 0) ∧
    (mget? s.mod.noClock p.val = none → exec (.clockDead p) s = .next s) ∧
    (∀ u, mget? s.mod.noClock p.val = some u → leads (.clockDead p) s fun t => t.now = max s.now (u + 64000) ∧ fld (clk t) 11 10 = 3 ∧
      bit (clk t) 12 = false ∧ t.records = s.records ++ [⟨.clock, p.val, []⟩]))

/-- Heat: a region goes from NORMAL to WARM and back, asks to be pollarded at TP, HARD quenches its partition, TRIPPED cuts its rail; a
region outside every partition is pollarded at once, one inside at a barrier onto its rootstock, or holds the partition; powered again it is
tested; a stack above 95 °C and bad coolant are flagged, a critical stack is a module fault (R657 to R666). -/
def Obligations.HeatActs : Prop :=
  (∀ (p : PhysId) (s : State),
    let state (t : State) : Nat := fld (wReg t (rg p.val 0x38)) 2 0
    let tmax (t : State) : Nat := fld (wReg t (rg p.val 0x30)) 7 0
    let tp := fld (wReg s (rg p.val 0x34)) 7 0
    let hard := fld (wReg s (rg p.val 0x34)) 15 8
    let trip := fld (wReg s (rg p.val 0x34)) 23 16
    let only (c : Instr) (temp : BitVec 8) : Prop := leads c s fun t => onlyWin s t ∧ tmax t = temp.toNat ∧ state t = state s
    let off (t : State) : Prop := railOn t p.val = false ∧ state t = tPollarded ∧ fld (wReg t (rg p.val 0x38)) 31 16 = (fld (wReg s (rg p.val 0x38)) 31 16 + 1) % 65536
    let turn := s.hw.pollard.find? (fun x => x / 8 == p.val / 8) = some p.val
    (∀ temp : BitVec 8,
      (tp ≤ temp.toNat + 10 → state s = tNormal → leads (.warm p temp) s fun t => tmax t = temp.toNat ∧ state t = tWarm ∧
        bit (regRaw sidebandRegs t.mod.sbd 8) 3 = true) ∧
      (tp ≤ temp.toNat + 10 → state s ≠ tNormal → only (.warm p temp) temp) ∧
      (temp.toNat + 10 < tp → leads (.warm p temp) s fun t => onlyWin s t ∧ tmax t = temp.toNat ∧
        state t = if state s = tWarm then tNormal else state s) ∧
      (temp.toNat < tp ∨ tRequest ≤ state s → only (.pollardRequest p temp) temp) ∧
      (tp ≤ temp.toNat → state s < tRequest → partOfPhys s p.val = none → leads (.pollardRequest p temp) s off) ∧
      (∀ q k, tp ≤ temp.toNat → state s < tRequest → partOfPhys s p.val = some q → s.hpart q = some k → leads (.pollardRequest p temp) s fun t =>
        state t = tRequest ∧ p.val ∈ t.hw.pollard ∧ ∃ g, t.hpart q = some g ∧ g.standing = true) ∧
      (temp.toNat < hard ∨ state s = tTripped ∨ state s = tPollarded → only (.thermalHard p temp) temp) ∧
      (hard ≤ temp.toNat → state s ≠ tTripped → state s ≠ tPollarded →
        (partOfPhys s p.val = none → railOn s p.val = true → leads (.thermalHard p temp) s off) ∧
        (partOfPhys s p.val = none → railOn s p.val = false → leads (.thermalHard p temp) s fun t => onlyWin s t ∧ state t = tHard) ∧
        ∀ q k, partOfPhys s p.val = some q → s.hpart q = some k → leads (.thermalHard p temp) s fun t => state t = tHard ∧ p.val ∈ t.hw.pollard ∧
          ∃ g, t.hpart q = some g ∧ g.heldJob = true ∧ g.standing = true) ∧
      (temp.toNat < trip → leads (.thermalTrip p temp) s fun t => onlyWin s t ∧ fld (wReg t (rg p.val 0x30)) 19 12 = temp.toNat ∧ state t = state s) ∧
      (trip ≤ temp.toNat → leads (.thermalTrip p temp) s fun t => fld (wReg t (rg p.val 0x30)) 19 12 = temp.toNat ∧ state t = tTripped ∧
        fld (wReg t (rg p.val 4)) 2 1 = 3 ∧ t.records = s.records ++ [⟨.thermal, p.val, []⟩])) ∧
    (¬ turn → exec (.pollard p) s = .next s) ∧
    (turn → partOfPhys s p.val = none → leads (.pollard p) s fun t => off t ∧ p.val ∉ t.hw.pollard) ∧
    (∀ q k, turn → partOfPhys s p.val = some q → s.hpart q = some k → state s < tHard →
      (running s k = true → exec (.pollard p) s = .next s) ∧
      (running s k = false → canGraft s p.val = false → exec (.pollard p) s = .next (s.setPart q { k with heat := true })) ∧
      (running s k = false → canGraft s p.val = true → leads (.pollard p) s fun t => state t = tPollarded ∧ physFenced t p.val = true ∧
        rstkCol t (p.val / 8) = p.val % 8)) ∧
    (∀ pass, state s ≠ tPollarded → state s ≠ tTripped → exec (.pollardReturn p pass) s = .next s) ∧
    (state s = tPollarded ∨ state s = tTripped →
      (∀ pass, rstkCol s (p.val / 8) ≠ p.val % 8 → leads (.pollardReturn p pass) s fun t => state t = tNormal ∧ railOn t p.val = true) ∧
      (rstkCol s (p.val / 8) = p.val % 8 → rstkState s (p.val / 8) = rstkPending → leads (.pollardReturn p false) s fun t =>
        state t = tNormal ∧ rstkState t (p.val / 8) = rstkAbsent))) ∧
  (∀ (part : Nat) (s : State),
    ((∀ k, s.hpart part = some k → k.heat = false) → exec (.pollardHoldEnd part) s = .next s) ∧
    ∀ k, s.hpart part = some k → k.heat = true → leads (.pollardHoldEnd part) s fun t => ∃ g, t.hpart part = some g ∧ g.heat = false ∧
      g.standing = false ∧ g.recov = 0 ∧ g.step = k.committed + 1) ∧
  (∀ (st : StackId) (temp : BitVec 8) (s : State),
    (temp.toNat ≤ 95 → leads (.stackOverheat st temp) s fun t => fld (kReg (t.stack st.val) 0x28) 7 0 = temp.toNat ∧ t.win = s.win ∧ t.mod = s.mod) ∧
    (95 < temp.toNat → leads (.stackOverheat st temp) s fun t => fld (kReg (t.stack st.val) 0x28) 7 0 = temp.toNat ∧
      bit (kReg (t.stack st.val) kStatus) 3 = true ∧ bit (wReg t 0x30010) 3 = true ∧ bit (regRaw sidebandRegs t.mod.sbd 8) 2 = true)) ∧
  (∀ (st : StackId) (s : State), leads (.stackCritical st) s fun t => t.hw.fault = true ∧ bit (regRaw sidebandRegs t.mod.sbd 8) 0 = true ∧
    ∀ q k, s.hpart q = some k → ∃ g, t.hpart q = some g ∧ g.heldJob = true) ∧
  ∀ (tin : BitVec 8) (flow : BitVec 16) (s : State),
    let read (t : State) : Prop := fld (wReg t 0x3000C) 7 0 = tin.toNat ∧ fld (wReg t 0x3000C) 31 16 = flow.toNat
    (tin.toNat ≤ 42 → 130 ≤ flow.toNat → leads (.cool tin flow) s fun t => onlyWin s t ∧ read t) ∧
    (42 < tin.toNat ∨ flow.toNat < 130 → leads (.cool tin flow) s fun t => read t ∧ bit (wReg t 0x30010) 2 = true ∧
      bit (regRaw sidebandRegs t.mod.sbd 8) 2 = true ∧ bit (regRaw sidebandRegs t.mod.sbd 8) 6 = true ∧ t.mod.coolTrip = true ∧
      (∀ p : Fin 48, railOn t p.val = false) ∧ fld (wReg t 8) 13 8 = 0)

/-- Power-up, its end and the bring-up steps: EN starts device time and the training of the ports; each step needs to run and to end within
its bound; its outcome is DONE or FAILED with its cause (R430, R635, R671, R679 to R684, R694, R708 to R712, R749). -/
def Obligations.BringUpStepsAct : Prop :=
  (∀ (broken mated : Bool) (slot : Fin 4) (s : State), (s.mod.enabled = true → exec (.enable broken mated slot) s = .next s) ∧
    (s.mod.enabled = false → leads (.enable broken mated slot) s fun t => t.mod.enabled = true ∧ t.now = 0 ∧ t.mod.slot = slot.val ∧
      t.mod.mated = mated ∧ t.mod.tamper = (s.mod.tamper || broken) ∧ t.mod.boots = (s.mod.boots + 1) % 2 ^ 32 ∧ t.hw.parts = [] ∧
      t.hw.fenced = s.hw.fenced ∧ ∀ p : Fin 8, portState t p.val = poTraining)) ∧
  (∀ s : State, (s.mod.enabled = false → exec .disable s = .next s) ∧ (s.mod.enabled = true → leads .disable s fun t => t.mod.enabled = false ∧
    t.now = s.now ∧ t.hw.parts = [] ∧ t.net = [] ∧ t.hw.fenced = s.hw.fenced ∧ t.mod.store = s.mod.store)) ∧
  ((∀ ok, stepGuards (.power ok) 1) ∧ (∀ l f, stepGuards (.bist l f) 2) ∧ (∀ ok, stepGuards (.trainStacks ok) 3) ∧
    (∀ m, stepGuards (.trainPorts m) 4) ∧ (∀ l, stepGuards (.loadFw l) 5) ∧ (∀ w e f, stepGuards (.start w e f) 6) ∧
    (∀ k, stepGuards (.retrainStack k) 7) ∧ (∀ p, stepGuards (.retrainPort p) 8) ∧ (∀ p, stepGuards (.resetRegion p) 9) ∧ stepGuards .resetAll 10) ∧
  ∀ s : State,
    let word := wReg s 4
    let done (t : State) (k : Nat) : Prop := stepEnds t 0 ∧ bit (wReg t 8) (7 + k) = true
    (∀ ok, stepGoes s 1 → (ok = true ∧ coolBad s = false → leads (.power ok) s fun t => done t 1 ∧ ∀ p : Fin 48, railOn t p.val = true) ∧
      (ok = false ∨ coolBad s = true → leads (.power ok) s fun t => onlyWin s t ∧ stepEnds t 8)) ∧
    (∀ (l : Fin 4) (f : BistFindings), stepGoes s 2 → (fld word 5 4 ≠ l.val → exec (.bist l f) s = .next s) ∧
      (fld word 5 4 = l.val → leads (.bist l f) s fun t =>
        let lost := ∃ q < 6, rowLost t q = true
        t.mod.stage = [] ∧ (∀ e ∈ f.cores, 272 * e.1 + 17 * e.2.1 + e.2.2 ∈ t.mod.bad) ∧ (∀ p ∈ f.regions, p < 48 → physFenced t p = true) ∧
        (lost → stepEnds t 2) ∧ (¬ lost → f.stks ≠ [] → stepEnds t 3) ∧ (¬ lost → f.stks = [] → done t 2))) ∧
    (stepGoes s 3 → (leads (.trainStacks true) s fun t => done t 3 ∧ ∀ st : Fin 56, kReg (t.stack st.val) (kOwn 159) = 0x3000#32) ∧
      leads (.trainStacks false) s fun t => onlyWin s t ∧ stepEnds t 3) ∧
    (∀ m : BitVec 8, stepGoes s 4 → (fld word 15 8 ≠ m.toNat → exec (.trainPorts m) s = .next s) ∧
      (fld word 15 8 = m.toNat → leads (.trainPorts m) s fun t => done t 4 ∧
        ∀ p : Fin 8, m.getLsbD p.val = true → portState s p.val = poDown → portState t p.val = poTraining)) ∧
    (∀ bad, stepGoes s 5 →
      ((∀ b, pkgSource s = some b → pkgForm b.1 = false ∨ pkgGenuine s.mod b.1 = false) → leads (.loadFw bad) s fun t =>
        stepEnds t 4 ∧ t.mod.loaded = [] ∧ t.mod.auto = false) ∧
      ∀ b, pkgSource s = some b → pkgForm b.1 = true → pkgGenuine s.mod b.1 = true → leads (.loadFw bad) s fun t =>
        let lost := ∃ q < 6, rowLost t q = true
        t.mod.package = b.1 ∧ t.mod.loaded = [0, 1] ∧ (lost → stepEnds t 5) ∧ (¬ lost → s.mod.auto = false → done t 5) ∧
          (¬ lost → s.mod.auto = true → stepRuns t 6 = true)) ∧
    (∀ west east fuses, stepGoes s 6 →
      let fit (h : Nat) (pass : Bool) : Prop := pass = true ∧ h ∈ s.mod.loaded ∧ unitFenced s (heartUnit h) = false
      (ring0Ok s = false → leads (.start west east fuses) s fun t => stepEnds t 9 ∧ t.hw = s.hw) ∧
      (ring0Ok s = true → ¬ fit 0 west → ¬ fit 1 east → leads (.start west east fuses) s fun t => stepEnds t 6 ∧ t.hw = s.hw) ∧
      (ring0Ok s = true → fit 0 west ∨ fit 1 east → pkgToken s.mod.package = true → tokenOk s.mod s.mod.package (tokenOf s.mod.package) = false →
        leads (.start west east fuses) s fun t => stepEnds t 4) ∧
      (ring0Ok s = true → fit 0 west ∨ fit 1 east → pkgToken s.mod.package = false → lifeCycle s.mod ≠ 0 ∨ pkgMask s.mod.package ≠ 1 →
        leads (.start west east fuses) s fun t => done t 6 ∧ (fit 0 west → activeHw t = 0) ∧ (¬ fit 0 west → activeHw t = 1) ∧ t.hw.turned = false ∧
          t.hw.beatAt = t.now ∧ t.hw.logN = s.hw.logN + (if s.hw.logN = 0 then 2 else 1) ∧ t.mod.svn = max s.mod.svn (pkgMinSvn s.mod.package))) ∧
    (∀ st : StackId, stepGoes s 7 → (fld word 31 8 ≠ st.val → exec (.retrainStack st) s = .next s) ∧
      (fld word 31 8 = st.val → leads (.retrainStack st) s fun t => stepEnds t 0 ∧ t.now = max s.now (s.mod.stepAt + 65536) ∧
        fld (kReg (t.stack st.val) kRetrain) 31 16 = (fld (kReg (s.stack st.val) kRetrain) 31 16 + 16) % 65536)) ∧
    (∀ p : PortId, stepGoes s 8 → (fld word 31 8 ≠ p.val → exec (.retrainPort p) s = .next s) ∧
      (fld word 31 8 = p.val → leads (.retrainPort p) s fun t => stepEnds t 0 ∧ (portState s p.val = poDown → portState t p.val = poTraining))) ∧
    (∀ p : PhysId, stepGoes s 9 → (fld word 31 8 ≠ p.val → exec (.resetRegion p) s = .next s) ∧
      (fld word 31 8 = p.val → leads (.resetRegion p) s fun t => stepEnds t 0 ∧ railOn t p.val = true ∧
        ∀ l c, logOf s p.val = some l → regionOfCore c = l → (t.core c).spad = Spad.reset ∧ (t.core c).idle = true ∧ (t.core c).flitQ = [])) ∧
    (stepGoes s 10 → leads .resetAll s fun t => stepEnds t 0 ∧ fld (wReg t 8) 13 8 = 0 ∧ t.mod.loaded = [] ∧ t.hw.ready = false ∧
      ∀ p : Fin 48, railOn t p.val = false) ∧
    (brgState s ≠ 1 → exec .stepTimeout s = .next s) ∧
    (brgState s = 1 → leads .stepTimeout s fun t => t.now = max s.now (stepDue s) ∧ stepEnds t 1 ∧ t.mod.auto = false) ∧
    (s.mod.auto = false ∨ rstHeld s = true ∨ brgState s = 1 ∨ fld (wReg s 8) 11 8 ≠ 15 → exec .autoRestart s = .next s) ∧
    (s.mod.auto = true → rstHeld s = false → brgState s ≠ 1 → fld (wReg s 8) 11 8 = 15 → leads .autoRestart s fun t =>
      stepRuns t 5 = true ∧ t.mod.stepAt = s.now)

/-- Bring-up messages: one that is not outstanding on a port in QUIET or UP is not answered; the others are answered once, with the first
cause of a refusal or with OK; READ answers as many words as it asks for, a word written to `brg.go` starts its step, STAGE puts its bytes
into the staging area (R463, R464, R672 to R681, R751). -/
def Obligations.BringUpMessagesAct : Prop :=
  ∀ (p : PortId) (src xid : Word) (len : Nat) (s : State),
    let on := asked s p.val src
    let reply (x : Instr) (status : Nat) (body : List Word) : Prop := leads x s fun t => repliedWith t p.val src xid status body
    let scrapped := lifeCycle s.mod = 4
    let up := portState s p.val = poUp
    (¬ on true → exec (.discover p src xid len) s = .next s) ∧
    (on true → (len ≠ 0 → reply (.discover p src xid len) 6 []) ∧ (len = 0 → reply (.discover p src xid len) 0 (discoverWords s p.val))) ∧
    (∀ (a : BitVec 64) (n : Nat),
      let x := Instr.bringupRead p src xid len a n
      let low := up ∧ ∃ i < max 1 (min 256 n), 0x1000 ≤ buOffset a.toNat i
      (¬ on true → exec x s = .next s) ∧
      (on true →
        (buAddrBad a.toNat n = true → reply x 2 []) ∧
        (buAddrBad a.toNat n = false → scrapped ∨ low → reply x 3 []) ∧
        (buAddrBad a.toNat n = false → ¬ scrapped → ¬ low → len ≠ 10 ∨ n = 0 ∨ 256 < n → reply x 6 []) ∧
        (buAddrBad a.toNat n = false → ¬ scrapped → ¬ low → len = 10 → n ≠ 0 → n ≤ 256 →
          (winReads s (buOffset a.toNat 0) n).1.length = n ∧ reply x 0 (winReads s (buOffset a.toNat 0) n).1))) ∧
    (∀ (a : BitVec 64) (n : Nat) (ws : List Word),
      let x := Instr.bringupWrite p src xid len a n ws
      let verdict := writeVerdict s p.val a.toNat n len ws
      (¬ on false → exec x s = .next s) ∧
      (on false → (verdict ≠ 0 → leads x s fun t => repliedWith t p.val src xid verdict [] ∧ t.mod = s.mod ∧ t.hw = s.hw) ∧
        (verdict = 0 → reply x 0 []) ∧
        ∀ w, verdict = 0 → a.toNat = 0x200000000004 → ws = [w] → leads x s fun t => repliedWith t p.val src xid 0 [] ∧
          stepRuns t (fld w 3 0) = true ∧ t.mod.stepAt = s.now)) ∧
    ∀ (o : Word) (bytes : List Byte),
      let x := Instr.stage p src xid len o bytes
      let outside := o.toNat % 64 ≠ 0 ∨ 16777216 < o.toNat + bytes.length
      let sized := len = 4 + bytes.length ∧ bytes.length % 64 = 0 ∧ bytes ≠ [] ∧ bytes.length ≤ 8192
      (¬ on false → exec x s = .next s) ∧
      (on false →
        (outside → reply x 2 []) ∧ (¬ outside → scrapped ∨ up → reply x 3 []) ∧ (¬ outside → ¬ scrapped → ¬ up → ¬ sized → reply x 6 []) ∧
        (¬ outside → ¬ scrapped → ¬ up → sized → cellsWf s.mod.stage = true → leads x s fun t => repliedWith t p.val src xid 0 [] ∧
          cellGets t.mod.stage o.toNat bytes.length = bytes ∧ cellsWf t.mod.stage = true))

/-- Pours: EN starts a receiver; a pour packet that fails its checks does nothing, a piece is written and noted, its chunk is HAVE when its
digest is right, END begins PULLING; what is missing is pulled or the pour has FAILED; the digest of a whole image is judged twice, and a
core that does not come right or is 20 ms late is fenced (R689 to R696). -/
def Obligations.PoursAct : Prop :=
  ∀ (c : CoreId) (s : State),
    let k := s.coreNow c.val
    let now (t : State) : Core := t.core c.val
    let listens := bit (cReg k rPourCfg) 31 = true ∧ pourState k = 1
    let key := corePour s c.val
    let booting := key / 65536 = 0 ∧ brgState s = 1
    (∀ val : Word, leads (.pourEnable c val) s fun t => cReg (now t) rPourCfg = val &&& 0x83FFFFFF#32 ∧ (∀ d, d ≠ c.val → t.core d = s.core d) ∧
      (bit val 31 = true → pourState (now t) = 1 ∧ fld (cReg (now t) rPourStatus) 12 3 = 0 ∧ (∀ i < 768, haveChunk (now t) i = false) ∧
        (now t).pour.last = s.now)) ∧
    (∀ p : Packet,
      let good := hcrcOk p = true ∧ pcrcOk p = true ∧ isPour p = true ∧ k.fenced = false ∧ k.inReset = false
      let mine := listens ∧ fld (p.tdata.getD 0 0#32) 15 0 = pourImage k
      let ch := fld (p.tdata.getD 1 0#32) 9 0
      let n := fld (p.tdata.getD 1 0#32) 18 16
      let a := p.addr.toNat % 2 ^ 22
      (¬ good → exec (.pourPacket c p) s = .next { s with net := s.net.erase p }) ∧
      (good → ¬ mine → exec (.pourPacket c p) s = .next ({ s with net := s.net.erase p }.setCore c.val k)) ∧
      (good → mine → p.payload = [] → leads (.pourPacket c p) s fun t => t.net = s.net.erase p ∧ pourState (now t) = 2 ∧
        (now t).pour.ended = some s.now) ∧
      (good → mine → p.payload ≠ [] → haveChunk k ch = true ∨ pourChunks k ≤ ch ∨ 0x300000 < a + p.payload.length → leads (.pourPacket c p) s fun t =>
        t.net = s.net.erase p ∧ (now t).spad = k.spad ∧ (now t).regs = k.regs) ∧
      (good → mine → p.payload ≠ [] → haveChunk k ch = false → ch < pourChunks k → a + p.payload.length ≤ 0x300000 →
        leads (.pourPacket c p) s fun t => t.net = s.net.erase p ∧ bytesStored s.now a p.payload k (now t) ∧
          mgetD (now t).pour.pieces ch 0 / 2 ^ n % 2 = 1 ∧
          (haveChunk (now t) ch = true ↔ mgetD (now t).pour.pieces ch 0 = 255 ∧
            chunkDigest (pourImage k) ch (spadBytes (now t).spad (s.now + latency k) (pourBase k + 4096 * ch) 4096) = pieceDigest p))) ∧
    (pourState (s.core c.val) ≠ 1 → pourState (s.core c.val) ≠ 2 → exec (.pulling c) s = .next s) ∧
    (pourState (s.core c.val) = 1 ∨ pourState (s.core c.val) = 2 → leads (.pulling c) s fun t =>
      t.now = (if pourState (s.core c.val) = 1 then max s.now ((s.core c.val).pour.last + 65536) else s.now) ∧
      (pourState (now t) = 2 ∨ pourState (now t) = 4) ∧ (pourState (now t) = 2 → ∀ i < pourChunks (now t), haveChunk (now t) i = true)) ∧
    (¬ ((pourState k = 1 ∨ pourState k = 2) ∧ fld (cReg k rPourStatus) 12 3 = pourChunks k) → exec (.pourDone c) s = .next s) ∧
    (pourState k = 1 ∨ pourState k = 2 → fld (cReg k rPourStatus) 12 3 = pourChunks k →
      let digest := imageDigest k (s.now + latency k)
      (mget? s.hw.pours key = none → leads (.pourDone c) s fun t => pourState (now t) = 3 ∧ t.hw = s.hw) ∧
      ∀ u, mget? s.hw.pours key = some u → mkeysRising s.hw.pours = true →
        (digest = u.digest → leads (.pourDone c) s fun t => pourState (now t) = 3 ∧ ∀ v, mget? t.hw.pours key = some v → c.val ∈ v.done) ∧
        (digest ≠ u.digest → c.val ∉ u.again → leads (.pourDone c) s fun t => pourState (now t) = 2 ∧ fld (cReg (now t) rPourStatus) 12 3 = 0 ∧
          ∃ v, mget? t.hw.pours key = some v ∧ c.val ∈ v.again) ∧
        (digest ≠ u.digest → c.val ∈ u.again → ¬ booting → leads (.pourDone c) s fun t => coreUnit (physCore s c.val) ∈ t.hw.fenced)) ∧
    ((s.core c.val).pour.ended = none ∨ mget? s.hw.pours key = none → exec (.pourTimeout c) s = .next s) ∧
    ∀ e u, (s.core c.val).pour.ended = some e → mget? s.hw.pours key = some u →
      (c.val ∉ u.targets ∨ c.val ∈ u.done → exec (.pourTimeout c) s = .next s) ∧
      (c.val ∈ u.targets → c.val ∉ u.done → ¬ booting → leads (.pourTimeout c) s fun t => t.now = max s.now (e + 32000000) ∧
        coreUnit (physCore s c.val) ∈ t.hw.fenced)

/-- The sideband target: Hot-Join, the common commands and the addresses; private writes and reads go on from the offset; the budget; an IBI
with the lowest alert and its repeat (R736 to R741, R649). Removal and RST_N: a shutdown or an open MATE_SENSE raises the alert, quenches
every partition, fences every port and ends in SAFE; a bounce is counted; RST_N resets the device in BRINGUP and READY and lets the bring-up
engine go on when it rises (R684, R745 to R752). -/
def Obligations.SidebandAndRemovalAct : Prop :=
  (
  ∀ s : State,
    let on := s.mod.enabled = true
    let mine := s.mod.enabled = true ∧ ∃ a, s.mod.i3cAddr = some a
    let gives (x : Instr) (ws : List Word) : Prop := (¬ mine → exec x s = .next s) ∧ (mine → exec x s = .next { s with reply := some ⟨0, ws⟩ })
    let pid : List Word := [BitVec.ofNat 32 (2 * (Config.mipiId % 32768)), BitVec.ofNat 32 s.mod.serial]
    let budget (w : Nat) : Nat := if s.mod.phases ≤ 10 then min (max 6000 (min 18000 w)) (1700 * s.mod.phases) else max 6000 (min 18000 w)
    let rings := mine ∧ s.mod.ibi = true ∧ alertsOn s ≠ 0#32
    let lowest (n : Nat) : Prop := n < 9 ∧ bit (alertsOn s) n = true ∧ ∀ m < n, bit (alertsOn s) m = false
    (on ∧ s.mod.hotJoin = true → leads .hotJoin s fun t => t.mod.hotJoin = false ∧ t.reply = some ⟨0, [2#32]⟩) ∧
    (¬ (on ∧ s.mod.hotJoin = true) → exec .hotJoin s = .next s) ∧
    (∀ e, (¬ on → exec (.enec e) s = .next s ∧ exec (.disec e) s = .next s) ∧
      (on → (leads (.enec e) s fun t => t.mod.ibi = (s.mod.ibi || e.getLsbD 0) ∧ { t with mod := s.mod } = s) ∧
        leads (.disec e) s fun t => t.mod.ibi = (s.mod.ibi && !e.getLsbD 0) ∧ { t with mod := s.mod } = s)) ∧
    (¬ on → exec .rstdaa s = .next s) ∧ (on → leads .rstdaa s fun t => t.mod.i3cAddr = none) ∧
    (∀ a : BitVec 7, (¬ (on ∧ s.mod.i3cAddr = none) → exec (.entdaa a) s = .next s) ∧
      (on ∧ s.mod.i3cAddr = none → leads (.entdaa a) s fun t => t.mod.i3cAddr = some a.toNat ∧ t.mod.hotJoin = false ∧
        t.reply = some ⟨0, pid ++ [6#32, 0#32]⟩)) ∧
    (∀ b a : BitVec 7, (¬ (on ∧ s.mod.i3cAddr = none ∧ b.toNat = 0x58 + s.mod.slot) → exec (.setdasa b a) s = .next s) ∧
      (on ∧ s.mod.i3cAddr = none ∧ b.toNat = 0x58 + s.mod.slot → leads (.setdasa b a) s fun t => t.mod.i3cAddr = some a.toNat ∧ t.reply = s.reply)) ∧
    gives .getpid pid ∧ gives .getbcr [6#32] ∧ gives .getdcr [0#32] ∧ gives .getmwl [256#32] ∧ gives .getmrl [256#32] ∧
    (¬ mine → exec .getstatus s = .next s) ∧ (mine → leads .getstatus s fun t => ∃ w : Word, t.reply = some ⟨0, [w]⟩ ∧ fld w 31 16 = 0) ∧
    (∀ off vals, (¬ mine → exec (.i3cPrivateWrite off vals) s = .next s) ∧
      (mine → leads (.i3cPrivateWrite off vals) s fun t => t.mod.i3cOff = off.toNat) ∧
      ∀ w : Word, mine → vals = [w] →
        (off = 0x8#16 → leads (.i3cPrivateWrite off vals) s fun t => sbReg t 8 = sbReg s 8 &&& ~~~(w &&& 0x1FF#32)) ∧
        (off = 0xC#16 → leads (.i3cPrivateWrite off vals) s fun t => fld (sbReg t 0xC) 8 0 = fld w 8 0) ∧
        (off = 0x14#16 → leads (.i3cPrivateWrite off vals) s fun t => sbReg t 0x14 = w &&& 0xFFFF#32 ∧
          fld (wReg t 0x30008) 15 0 = budget (fld w 15 0))) ∧
    (∀ n, (¬ mine → exec (.i3cPrivateRead n) s = .next s) ∧ (mine → leads (.i3cPrivateRead n) s fun t =>
      (∃ ws, t.reply = some ⟨0, ws⟩ ∧ ws.length = min 64 n ∧ ∀ w, ws.head? = some w → w = (sbRead s s.mod.i3cOff).1) ∧
      t.mod.i3cOff = (s.mod.i3cOff + 4 * min 64 n) % 65536)) ∧
    (∀ w : Word, (¬ on → exec (.budgetWrite w) s = .next s) ∧ (on → leads (.budgetWrite w) s fun t => sbReg t 0x14 = w &&& 0xFFFF#32 ∧
      fld (wReg t 0x30008) 15 0 = budget (fld w 15 0))) ∧
    (s.mod.ibiAt = none → ∀ ack, exec (.ibi ack) s = .next s ∧ exec (.ibiRepeat ack) s = .next s) ∧
    ∀ u, s.mod.ibiAt = some u →
      (∀ ack, s.now < u → exec (.ibi ack) s = .next s) ∧
      (∀ ack, ¬ rings → (u ≤ s.now → leads (.ibi ack) s fun t => t.mod.ibiAt = none ∧ t.reply = s.reply) ∧
        leads (.ibiRepeat ack) s fun t => t.mod.ibiAt = none ∧ t.reply = s.reply ∧ t.now = max s.now u) ∧
      ∀ ack n, rings → lowest n →
        (u ≤ s.now → leads (.ibi ack) s fun t => t.reply = some ⟨0, [BitVec.ofNat 32 n]⟩ ∧ t.now = s.now ∧
          t.mod.ibiAt = if ack then none else some (s.now + 1600000)) ∧
        leads (.ibiRepeat ack) s fun t => t.reply = some ⟨0, [BitVec.ofNat 32 n]⟩ ∧ t.now = max s.now u ∧
          t.mod.ibiAt = if ack then none else some (max s.now u + 1600000)) ∧
  (
  ∀ s : State,
    let leaves := s.mod.enabled = true ∧ sbdState s ≠ 2 ∧ sbdState s ≠ 3
    let safe (t : State) : Prop := sbdState t = 3 ∧ bit (sbReg t 8) 7 = true ∧ (∀ p : Fin 8, portState t p.val = poFenced) ∧
      ∀ q k, s.hpart q = some k → ∃ g, t.hpart q = some g ∧ g.heldJob = true
    (¬ leaves → exec .shutdown s = .next s ∧ exec .removal s = .next { s with mod := { s.mod with mated := false } }) ∧
    (leaves → leads .shutdown s safe ∧ leads .removal s fun t => safe t ∧ t.mod.mated = false) ∧
    (s.mod.enabled = false → exec .mateSenseBounce s = .next s) ∧
    (s.mod.enabled = true → leads .mateSenseBounce s fun t => fld (sbReg t 4) 31 16 = min 65535 (fld (sbReg s 4) 31 16 + 1) ∧
      { t with mod := s.mod } = s) ∧
    (s.mod.enabled = false ∨ s.mod.rstLow = true → exec .rstAssert s = .next s) ∧
    (s.mod.enabled = true → s.mod.rstLow = false →
      (2 ≤ sbdState s → exec .rstAssert s = .next { s with mod := { s.mod with rstLow := true } }) ∧
      (sbdState s ≤ 1 → leads .rstAssert s fun t => t.mod.rstLow = true ∧ t.hw.parts = [] ∧ t.net = [] ∧ t.hw.ready = false ∧ t.now = s.now)) ∧
    (s.mod.rstLow = false → exec .rstRelease s = .next s) ∧
    (s.mod.rstLow = true → leads .rstRelease s fun t => t.mod.rstLow = false ∧
      (s.mod.auto = true → brgState s ≠ 1 → fld (wReg s 8) 11 8 = 15 → stepRuns t 5 = true ∧ t.mod.stepAt = s.now) ∧
      (s.mod.auto = false → { t with mod := s.mod } = s)))

/-- A field of a bundle always acts on its own core alone: the command completes, and no other core, no region but the core's own mark and
nothing outside the cores has changed (R246, R3). -/
def Obligations.FieldsActOnTheirCore : Prop :=
  ∀ (x : Instr) (c : CoreId) (s : State), fieldCore x = some c → leads x s (onlyCore c.val s)

/-- No command is refused and none faults, and neither is a step: what the spec calls a fault is an effect on the state (log entry 1). With
no command waiting, a step is one cycle of the clock; where no core has a state of its own and no item is on its way, nothing else changes
(log entry 2, a choice of the model). -/
def Obligations.StepsAlwaysGoOn : Prop :=
  (
  (∀ (x : Instr) (s : State), goesOn (exec x s)) ∧ ∀ s : State, goesOn (step s)) ∧
  (
  ∀ s : State, s.pending = [] → (∃ t, step s = .next t ∧ s.now + 1 ≤ t.now) ∧
    (s.cores = [] → s.regions = [] → (∀ w ∈ s.wires, s.now < w.due) → step s = .next { s with now := s.now + 1 }))

/-- What reset leaves: nothing waits, nothing is on its way, no object exists, every core awaits a launch with its scratchpad zero, and the
registers hold the reset values of their tables. -/
def Obligations.ResetLeaves : Prop :=
  let s := State.reset
  s.pending = [] ∧ s.net = [] ∧ s.wires = [] ∧ s.records = [] ∧ s.hw.parts = [] ∧ s.hw.rings = [] ∧ s.hw.qps = [] ∧ s.hw.keys = [] ∧ s.mod.enabled = false ∧
  (∀ c : CoreId, (s.core c.val).launchAt = none ∧ (s.core c.val).awaiting = true ∧ (∀ cyc a, spadByte (s.core c.val).spad cyc a = 0#8) ∧
    cReg (s.core c.val) 0x2000 = 0xC#32 ∧ cReg (s.core c.val) 0x3018 = 1#32 ∧ cReg (s.core c.val) 0x3200 = 2#32 ∧
    cReg (s.core c.val) 0x1240 = 0x100#32 ∧ cReg (s.core c.val) 0x900 = 0xFFFFFFFF#32) ∧
  (∀ st : StackId, kReg (s.stack st.val) 0x18 = 0x100#32 ∧ kReg (s.stack st.val) 0x20 = 0x4C#32) ∧
  (∀ p : PhysId, wReg s (rg p.val 0) = 0x001402EE#32 ∧ wReg s (rg p.val 0x34) = 0x007D7369#32) ∧
  (∀ p : PortId, portState s p.val = poDown ∧ wReg s (pReg p.val 0) = 8#32 ∧ wReg s (pReg p.val 0x14) = 0x00640008#32) ∧
  wReg s 0x30008 = 18000#32 ∧ sbReg s 0xC = 0x1F7#32 ∧ sbReg s 0x14 = 18000#32
end

