-- ==== Sys2Proof/Laws/Bits.lean ====
section
/-! SUPPORT. Fields of a word: what a field reads after a field was set, a flag raised or a count raised. -/

namespace Sys2Proof.Machine

theorem testBit_fld (w : Word) (hi lo i : Nat) : (fld w hi lo).testBit i = (decide (i < hi + 1 - lo) && w.getLsbD (lo + i)) := by
  simp [fld, Nat.testBit_mod_two_pow, Nat.testBit_div_two_pow, BitVec.getLsbD, Nat.add_comm]

theorem getLsbD_onesAt (hi lo i : Nat) : (onesAt hi lo).getLsbD i = decide (i < 32 ∧ lo ≤ i ∧ i < hi + 1) := by
  simp only [onesAt, BitVec.getLsbD_ofNat, Nat.testBit_mul_two_pow, Nat.testBit_two_pow_sub_one]
  by_cases h1 : i < 32 <;> by_cases h2 : lo ≤ i <;> simp [h1, h2]
  omega

theorem getLsbD_setFld (w : Word) (hi lo v i : Nat) :
    (setFld w hi lo v).getLsbD i =
      (decide (i < 32) && if lo ≤ i ∧ i < hi + 1 then v.testBit (i - lo) else w.getLsbD i) := by
  simp only [setFld, BitVec.getLsbD_or, BitVec.getLsbD_and, BitVec.getLsbD_not, getLsbD_onesAt, BitVec.getLsbD_ofNat,
    Nat.testBit_mul_two_pow, Nat.testBit_mod_two_pow]
  by_cases h1 : i < 32 <;> by_cases h2 : lo ≤ i <;> by_cases h3 : i < hi + 1 <;> simp [h1, h2, h3]
  · omega
  · intro h; omega

theorem fld_lt (w : Word) (hi lo : Nat) : fld w hi lo < 2 ^ (hi + 1 - lo) := Nat.mod_lt _ (Nat.two_pow_pos _)

theorem fld_setFld_self (w : Word) (hi lo v : Nat) (h : hi < 32) : fld (setFld w hi lo v) hi lo = v % 2 ^ (hi + 1 - lo) := by
  apply Nat.eq_of_testBit_eq
  intro i
  rw [testBit_fld, getLsbD_setFld, Nat.testBit_mod_two_pow]
  by_cases h1 : i < hi + 1 - lo
  · have h2 : lo + i < 32 := by omega
    have h3 : lo + i < hi + 1 := by omega
    simp [h1, h2, h3]
  · simp [h1]

theorem fld_setFld_ne (w : Word) (hi lo v hi2 lo2 : Nat) (h : hi2 < lo ∨ hi < lo2) :
    fld (setFld w hi lo v) hi2 lo2 = fld w hi2 lo2 := by
  apply Nat.eq_of_testBit_eq
  intro i
  rw [testBit_fld, testBit_fld, getLsbD_setFld]
  by_cases h1 : i < hi2 + 1 - lo2
  · have h3 : ¬ (lo ≤ lo2 + i ∧ lo2 + i < hi + 1) := by omega
    simp only [h1, h3, if_false]
    by_cases h4 : lo2 + i < 32
    · simp [h4]
    · simp [h4, BitVec.getLsbD_of_ge w (lo2 + i) (by omega)]
  · simp [h1]

theorem bit_setFld (w : Word) (hi lo v i : Nat) (h : i < lo ∨ hi < i) : bit (setFld w hi lo v) i = bit w i := by
  simp only [bit, getLsbD_setFld]
  have h3 : ¬ (lo ≤ i ∧ i < hi + 1) := by omega
  simp only [h3, if_false]
  by_cases h4 : i < 32
  · simp [h4]
  · simp [h4, BitVec.getLsbD_of_ge w i (by omega)]

theorem bit_setFld_one (w : Word) (i v : Nat) (h : i < 32) : bit (setFld w i i v) i = v.testBit 0 := by
  rw [bit, getLsbD_setFld]; simp [h]

theorem bit_or (w m : Word) (i : Nat) : bit (w ||| m) i = (bit w i || bit m i) := by simp [bit]

/-- A field that a mask leaves alone. -/
theorem fld_or_zero (w m : Word) (hi lo : Nat) (h : fld m hi lo = 0) : fld (w ||| m) hi lo = fld w hi lo := by
  apply Nat.eq_of_testBit_eq
  intro i
  have hm := testBit_fld m hi lo i
  rw [h] at hm
  rw [testBit_fld, testBit_fld, BitVec.getLsbD_or, Bool.and_or_distrib_left, ← hm]
  simp

end Sys2Proof.Machine
end

