-- ==== Sys2Proof/Laws/Map.lean ====
section
/-! SUPPORT. Sorted key-value lists: what a read finds after a write or a removal, and that writes keep the keys rising. -/

namespace Sys2Proof

variable {α : Type}

@[simp] theorem mget_mset_self (m : Map α) (k : Nat) (v : α) : mget? (mset m k v) k = some v := by
  induction m with
  | nil => simp [mset, mget?]
  | cons e t ih =>
    obtain ⟨j, w⟩ := e
    simp only [mset]
    split
    · simp [mget?]
    · split
      · simp [mget?]
      · rename_i h1 h2
        simp [mget?, h1, h2, ih]

theorem mget_mset_ne (m : Map α) (k j : Nat) (v : α) (h : j ≠ k) : mget? (mset m k v) j = mget? m j := by
  induction m with
  | nil =>
    simp only [mset, mget?]
    split <;> [omega; (split <;> rfl)]
  | cons e t ih =>
    obtain ⟨i, w⟩ := e
    simp only [mset]
    split
    · subst_vars
      simp only [mget?]
      split <;> [omega; rfl]
    · split
      · simp only [mget?]
        repeat' split
        all_goals first | rfl | omega
      · simp only [mget?, ih]

@[simp] theorem mgetD_mset_self (m : Map α) (k : Nat) (v d : α) : mgetD (mset m k v) k d = v := by simp [mgetD]

theorem mgetD_mset_ne (m : Map α) (k j : Nat) (v d : α) (h : j ≠ k) : mgetD (mset m k v) j d = mgetD m j d := by
  simp [mgetD, mget_mset_ne m k j v h]

theorem mget_merase_ne (m : Map α) (k j : Nat) (h : j ≠ k) (hm : mkeysRising m = true) : mget? (merase m k) j = mget? m j := by
  induction m with
  | nil => rfl
  | cons e t ih =>
    obtain ⟨i, w⟩ := e
    have ht : mkeysRising t = true := by
      cases t with
      | nil => rfl
      | cons f u => obtain ⟨i2, w2⟩ := f; simp only [mkeysRising, Bool.and_eq_true] at hm; exact hm.2
    simp only [merase]
    split
    · subst_vars
      cases t with
      | nil => simp only [mget?]; split <;> [omega; (split <;> rfl)]
      | cons f u =>
        obtain ⟨i2, w2⟩ := f
        simp only [mkeysRising, Bool.and_eq_true, decide_eq_true_eq] at hm
        simp only [mget?]
        repeat' split
        all_goals first | rfl | omega
    · split
      · rfl
      · simp only [mget?, ih ht]

/-- Every key of a map lies above a bound. -/
theorem mset_keysRising (m : Map α) (k : Nat) (v : α) (h : mkeysRising m = true) : mkeysRising (mset m k v) = true := by
  induction m with
  | nil => rfl
  | cons e t ih =>
    obtain ⟨j, w⟩ := e
    simp only [mset]
    split
    · subst_vars
      cases t with
      | nil => rfl
      | cons f u => exact h
    · split
      · simp only [mkeysRising, Bool.and_eq_true, decide_eq_true_eq]
        exact ⟨by assumption, h⟩
      · rename_i h1 h2
        cases t with
        | nil => simp only [mset, mkeysRising, Bool.and_eq_true, decide_eq_true_eq]; exact ⟨by omega, trivial⟩
        | cons f u =>
          obtain ⟨i, x⟩ := f
          simp only [mkeysRising, Bool.and_eq_true, decide_eq_true_eq] at h
          have ih' := ih h.2
          simp only [mset] at ih' ⊢
          split at ih' <;> rename_i h3
          · simp only [h3, if_true, mkeysRising, Bool.and_eq_true, decide_eq_true_eq] at ih' ⊢
            exact ⟨by omega, ih'⟩
          · split at ih' <;> rename_i h4
            · simp only [h3, h4, if_false, if_true, mkeysRising, Bool.and_eq_true, decide_eq_true_eq] at ih' ⊢
              exact ⟨by omega, ih'⟩
            · simp only [h3, h4, if_false, mkeysRising, Bool.and_eq_true, decide_eq_true_eq] at ih' ⊢
              exact ⟨by omega, ih'⟩

end Sys2Proof
end

