-- ==== Sys2Proof/Laws/State.lean ====
section
/-! SUPPORT. What each update of the state leaves as it was, field by field, and what a read finds after a write. -/

namespace Sys2Proof.Machine

variable (s : State)

@[simp] theorem reach_free (t : Nat) : (s.reach t).free = s.free := rfl
@[simp] theorem reach_reply (t : Nat) : (s.reach t).reply = s.reply := rfl
@[simp] theorem reach_pending (t : Nat) : (s.reach t).pending = s.pending := (rfl)
@[simp] theorem reach_cores (t : Nat) : (s.reach t).cores = s.cores := rfl
@[simp] theorem reach_regions (t : Nat) : (s.reach t).regions = s.regions := rfl
@[simp] theorem reach_wires (t : Nat) : (s.reach t).wires = s.wires := rfl
@[simp] theorem reach_net (t : Nat) : (s.reach t).net = s.net := rfl
@[simp] theorem reach_rtTmpl (t : Nat) : (s.reach t).rtTmpl = s.rtTmpl := rfl
@[simp] theorem reach_routers (t : Nat) : (s.reach t).routers = s.routers := rfl
@[simp] theorem reach_credits (t : Nat) : (s.reach t).credits = s.credits := rfl
@[simp] theorem reach_groups (t : Nat) : (s.reach t).groups = s.groups := rfl
@[simp] theorem reach_barRoot (t : Nat) : (s.reach t).barRoot = s.barRoot := rfl
@[simp] theorem reach_stks (t : Nat) : (s.reach t).stks = s.stks := rfl
@[simp] theorem reach_records (t : Nat) : (s.reach t).records = s.records := rfl
@[simp] theorem reach_win (t : Nat) : (s.reach t).win = s.win := rfl
@[simp] theorem reach_winShadow (t : Nat) : (s.reach t).winShadow = s.winShadow := rfl
@[simp] theorem reach_tmb (t : Nat) : (s.reach t).tmb = s.tmb := rfl
@[simp] theorem reach_ports (t : Nat) : (s.reach t).ports = s.ports := rfl
@[simp] theorem reach_hw (t : Nat) : (s.reach t).hw = s.hw := rfl
@[simp] theorem reach_mod (t : Nat) : (s.reach t).mod = s.mod := rfl
@[simp] theorem reach_seals (t : Nat) : (s.reach t).seals = s.seals := rfl
@[simp] theorem reach_bypass (t : Nat) : (s.reach t).bypass = s.bypass := rfl
@[simp] theorem reach_burn (t : Nat) : (s.reach t).burn = s.burn := rfl

@[simp] theorem takeFree_now (n : Nat) : (s.takeFree n).now = s.now := (rfl)
@[simp] theorem takeFree_reply (n : Nat) : (s.takeFree n).reply = s.reply := rfl
@[simp] theorem takeFree_pending (n : Nat) : (s.takeFree n).pending = s.pending := (rfl)
@[simp] theorem takeFree_cores (n : Nat) : (s.takeFree n).cores = s.cores := rfl
@[simp] theorem takeFree_regions (n : Nat) : (s.takeFree n).regions = s.regions := rfl
@[simp] theorem takeFree_wires (n : Nat) : (s.takeFree n).wires = s.wires := rfl
@[simp] theorem takeFree_net (n : Nat) : (s.takeFree n).net = s.net := rfl
@[simp] theorem takeFree_rtTmpl (n : Nat) : (s.takeFree n).rtTmpl = s.rtTmpl := rfl
@[simp] theorem takeFree_routers (n : Nat) : (s.takeFree n).routers = s.routers := rfl
@[simp] theorem takeFree_credits (n : Nat) : (s.takeFree n).credits = s.credits := rfl
@[simp] theorem takeFree_groups (n : Nat) : (s.takeFree n).groups = s.groups := rfl
@[simp] theorem takeFree_barRoot (n : Nat) : (s.takeFree n).barRoot = s.barRoot := rfl
@[simp] theorem takeFree_stks (n : Nat) : (s.takeFree n).stks = s.stks := rfl
@[simp] theorem takeFree_records (n : Nat) : (s.takeFree n).records = s.records := rfl
@[simp] theorem takeFree_win (n : Nat) : (s.takeFree n).win = s.win := rfl
@[simp] theorem takeFree_winShadow (n : Nat) : (s.takeFree n).winShadow = s.winShadow := rfl
@[simp] theorem takeFree_tmb (n : Nat) : (s.takeFree n).tmb = s.tmb := rfl
@[simp] theorem takeFree_ports (n : Nat) : (s.takeFree n).ports = s.ports := rfl
@[simp] theorem takeFree_hw (n : Nat) : (s.takeFree n).hw = s.hw := rfl
@[simp] theorem takeFree_mod (n : Nat) : (s.takeFree n).mod = s.mod := rfl
@[simp] theorem takeFree_seals (n : Nat) : (s.takeFree n).seals = s.seals := rfl
@[simp] theorem takeFree_bypass (n : Nat) : (s.takeFree n).bypass = s.bypass := rfl
@[simp] theorem takeFree_burn (n : Nat) : (s.takeFree n).burn = s.burn := rfl

@[simp] theorem answer_now (st : Nat) (ws : List Word) : (s.answer st ws).now = s.now := (rfl)
@[simp] theorem answer_free (st : Nat) (ws : List Word) : (s.answer st ws).free = s.free := rfl
@[simp] theorem answer_pending (st : Nat) (ws : List Word) : (s.answer st ws).pending = s.pending := (rfl)
@[simp] theorem answer_cores (st : Nat) (ws : List Word) : (s.answer st ws).cores = s.cores := rfl
@[simp] theorem answer_regions (st : Nat) (ws : List Word) : (s.answer st ws).regions = s.regions := rfl
@[simp] theorem answer_wires (st : Nat) (ws : List Word) : (s.answer st ws).wires = s.wires := rfl
@[simp] theorem answer_net (st : Nat) (ws : List Word) : (s.answer st ws).net = s.net := rfl
@[simp] theorem answer_rtTmpl (st : Nat) (ws : List Word) : (s.answer st ws).rtTmpl = s.rtTmpl := rfl
@[simp] theorem answer_routers (st : Nat) (ws : List Word) : (s.answer st ws).routers = s.routers := rfl
@[simp] theorem answer_credits (st : Nat) (ws : List Word) : (s.answer st ws).credits = s.credits := rfl
@[simp] theorem answer_groups (st : Nat) (ws : List Word) : (s.answer st ws).groups = s.groups := rfl
@[simp] theorem answer_barRoot (st : Nat) (ws : List Word) : (s.answer st ws).barRoot = s.barRoot := rfl
@[simp] theorem answer_stks (st : Nat) (ws : List Word) : (s.answer st ws).stks = s.stks := rfl
@[simp] theorem answer_records (st : Nat) (ws : List Word) : (s.answer st ws).records = s.records := rfl
@[simp] theorem answer_win (st : Nat) (ws : List Word) : (s.answer st ws).win = s.win := rfl
@[simp] theorem answer_winShadow (st : Nat) (ws : List Word) : (s.answer st ws).winShadow = s.winShadow := rfl
@[simp] theorem answer_tmb (st : Nat) (ws : List Word) : (s.answer st ws).tmb = s.tmb := rfl
@[simp] theorem answer_ports (st : Nat) (ws : List Word) : (s.answer st ws).ports = s.ports := rfl
@[simp] theorem answer_hw (st : Nat) (ws : List Word) : (s.answer st ws).hw = s.hw := rfl
@[simp] theorem answer_mod (st : Nat) (ws : List Word) : (s.answer st ws).mod = s.mod := rfl
@[simp] theorem answer_seals (st : Nat) (ws : List Word) : (s.answer st ws).seals = s.seals := rfl
@[simp] theorem answer_bypass (st : Nat) (ws : List Word) : (s.answer st ws).bypass = s.bypass := rfl
@[simp] theorem answer_burn (st : Nat) (ws : List Word) : (s.answer st ws).burn = s.burn := rfl

@[simp] theorem record_now (r : Rec) : (s.record r).now = s.now := (rfl)
@[simp] theorem record_free (r : Rec) : (s.record r).free = s.free := rfl
@[simp] theorem record_reply (r : Rec) : (s.record r).reply = s.reply := rfl
@[simp] theorem record_pending (r : Rec) : (s.record r).pending = s.pending := (rfl)
@[simp] theorem record_cores (r : Rec) : (s.record r).cores = s.cores := rfl
@[simp] theorem record_regions (r : Rec) : (s.record r).regions = s.regions := rfl
@[simp] theorem record_wires (r : Rec) : (s.record r).wires = s.wires := rfl
@[simp] theorem record_net (r : Rec) : (s.record r).net = s.net := rfl
@[simp] theorem record_rtTmpl (r : Rec) : (s.record r).rtTmpl = s.rtTmpl := rfl
@[simp] theorem record_routers (r : Rec) : (s.record r).routers = s.routers := rfl
@[simp] theorem record_credits (r : Rec) : (s.record r).credits = s.credits := rfl
@[simp] theorem record_groups (r : Rec) : (s.record r).groups = s.groups := rfl
@[simp] theorem record_barRoot (r : Rec) : (s.record r).barRoot = s.barRoot := rfl
@[simp] theorem record_stks (r : Rec) : (s.record r).stks = s.stks := rfl
@[simp] theorem record_win (r : Rec) : (s.record r).win = s.win := rfl
@[simp] theorem record_winShadow (r : Rec) : (s.record r).winShadow = s.winShadow := rfl
@[simp] theorem record_tmb (r : Rec) : (s.record r).tmb = s.tmb := rfl
@[simp] theorem record_ports (r : Rec) : (s.record r).ports = s.ports := rfl
@[simp] theorem record_hw (r : Rec) : (s.record r).hw = s.hw := rfl
@[simp] theorem record_mod (r : Rec) : (s.record r).mod = s.mod := rfl
@[simp] theorem record_seals (r : Rec) : (s.record r).seals = s.seals := rfl
@[simp] theorem record_bypass (r : Rec) : (s.record r).bypass = s.bypass := rfl
@[simp] theorem record_burn (r : Rec) : (s.record r).burn = s.burn := rfl

@[simp] theorem setRegion_now (l : Nat) (g : Region) : (s.setRegion l g).now = s.now := (rfl)
@[simp] theorem setRegion_free (l : Nat) (g : Region) : (s.setRegion l g).free = s.free := rfl
@[simp] theorem setRegion_reply (l : Nat) (g : Region) : (s.setRegion l g).reply = s.reply := rfl
@[simp] theorem setRegion_pending (l : Nat) (g : Region) : (s.setRegion l g).pending = s.pending := (rfl)
@[simp] theorem setRegion_cores (l : Nat) (g : Region) : (s.setRegion l g).cores = s.cores := rfl
@[simp] theorem setRegion_wires (l : Nat) (g : Region) : (s.setRegion l g).wires = s.wires := rfl
@[simp] theorem setRegion_net (l : Nat) (g : Region) : (s.setRegion l g).net = s.net := rfl
@[simp] theorem setRegion_rtTmpl (l : Nat) (g : Region) : (s.setRegion l g).rtTmpl = s.rtTmpl := rfl
@[simp] theorem setRegion_routers (l : Nat) (g : Region) : (s.setRegion l g).routers = s.routers := rfl
@[simp] theorem setRegion_credits (l : Nat) (g : Region) : (s.setRegion l g).credits = s.credits := rfl
@[simp] theorem setRegion_groups (l : Nat) (g : Region) : (s.setRegion l g).groups = s.groups := rfl
@[simp] theorem setRegion_barRoot (l : Nat) (g : Region) : (s.setRegion l g).barRoot = s.barRoot := rfl
@[simp] theorem setRegion_stks (l : Nat) (g : Region) : (s.setRegion l g).stks = s.stks := rfl
@[simp] theorem setRegion_records (l : Nat) (g : Region) : (s.setRegion l g).records = s.records := rfl
@[simp] theorem setRegion_win (l : Nat) (g : Region) : (s.setRegion l g).win = s.win := rfl
@[simp] theorem setRegion_winShadow (l : Nat) (g : Region) : (s.setRegion l g).winShadow = s.winShadow := rfl
@[simp] theorem setRegion_tmb (l : Nat) (g : Region) : (s.setRegion l g).tmb = s.tmb := rfl
@[simp] theorem setRegion_ports (l : Nat) (g : Region) : (s.setRegion l g).ports = s.ports := rfl
@[simp] theorem setRegion_hw (l : Nat) (g : Region) : (s.setRegion l g).hw = s.hw := rfl
@[simp] theorem setRegion_mod (l : Nat) (g : Region) : (s.setRegion l g).mod = s.mod := rfl
@[simp] theorem setRegion_seals (l : Nat) (g : Region) : (s.setRegion l g).seals = s.seals := rfl
@[simp] theorem setRegion_bypass (l : Nat) (g : Region) : (s.setRegion l g).bypass = s.bypass := rfl
@[simp] theorem setRegion_burn (l : Nat) (g : Region) : (s.setRegion l g).burn = s.burn := rfl

@[simp] theorem setCore_now (c : Nat) (k : Core) : (s.setCore c k).now = s.now := by unfold State.setCore; dsimp only; split <;> rfl
@[simp] theorem setCore_free (c : Nat) (k : Core) : (s.setCore c k).free = s.free := by unfold State.setCore; dsimp only; split <;> rfl
@[simp] theorem setCore_reply (c : Nat) (k : Core) : (s.setCore c k).reply = s.reply := by unfold State.setCore; dsimp only; split <;> rfl
@[simp] theorem setCore_pending (c : Nat) (k : Core) : (s.setCore c k).pending = s.pending := by unfold State.setCore; dsimp only; split <;> rfl
@[simp] theorem setCore_wires (c : Nat) (k : Core) : (s.setCore c k).wires = s.wires := by unfold State.setCore; dsimp only; split <;> rfl
@[simp] theorem setCore_net (c : Nat) (k : Core) : (s.setCore c k).net = s.net := by unfold State.setCore; dsimp only; split <;> rfl
@[simp] theorem setCore_rtTmpl (c : Nat) (k : Core) : (s.setCore c k).rtTmpl = s.rtTmpl := by unfold State.setCore; dsimp only; split <;> rfl
@[simp] theorem setCore_routers (c : Nat) (k : Core) : (s.setCore c k).routers = s.routers := by unfold State.setCore; dsimp only; split <;> rfl
@[simp] theorem setCore_credits (c : Nat) (k : Core) : (s.setCore c k).credits = s.credits := by unfold State.setCore; dsimp only; split <;> rfl
@[simp] theorem setCore_groups (c : Nat) (k : Core) : (s.setCore c k).groups = s.groups := by unfold State.setCore; dsimp only; split <;> rfl
@[simp] theorem setCore_barRoot (c : Nat) (k : Core) : (s.setCore c k).barRoot = s.barRoot := by unfold State.setCore; dsimp only; split <;> rfl
@[simp] theorem setCore_stks (c : Nat) (k : Core) : (s.setCore c k).stks = s.stks := by unfold State.setCore; dsimp only; split <;> rfl
@[simp] theorem setCore_win (c : Nat) (k : Core) : (s.setCore c k).win = s.win := by unfold State.setCore; dsimp only; split <;> rfl
@[simp] theorem setCore_winShadow (c : Nat) (k : Core) : (s.setCore c k).winShadow = s.winShadow := by unfold State.setCore; dsimp only; split <;> rfl
@[simp] theorem setCore_tmb (c : Nat) (k : Core) : (s.setCore c k).tmb = s.tmb := by unfold State.setCore; dsimp only; split <;> rfl
@[simp] theorem setCore_ports (c : Nat) (k : Core) : (s.setCore c k).ports = s.ports := by unfold State.setCore; dsimp only; split <;> rfl
@[simp] theorem setCore_hw (c : Nat) (k : Core) : (s.setCore c k).hw = s.hw := by unfold State.setCore; dsimp only; split <;> rfl
@[simp] theorem setCore_mod (c : Nat) (k : Core) : (s.setCore c k).mod = s.mod := by unfold State.setCore; dsimp only; split <;> rfl
@[simp] theorem setCore_seals (c : Nat) (k : Core) : (s.setCore c k).seals = s.seals := by unfold State.setCore; dsimp only; split <;> rfl
@[simp] theorem setCore_bypass (c : Nat) (k : Core) : (s.setCore c k).bypass = s.bypass := by unfold State.setCore; dsimp only; split <;> rfl
@[simp] theorem setCore_burn (c : Nat) (k : Core) : (s.setCore c k).burn = s.burn := by unfold State.setCore; dsimp only; split <;> rfl

@[simp] theorem setStack_now (n : Nat) (k : Stack) : (s.setStack n k).now = s.now := (rfl)
@[simp] theorem setStack_free (n : Nat) (k : Stack) : (s.setStack n k).free = s.free := rfl
@[simp] theorem setStack_reply (n : Nat) (k : Stack) : (s.setStack n k).reply = s.reply := rfl
@[simp] theorem setStack_pending (n : Nat) (k : Stack) : (s.setStack n k).pending = s.pending := (rfl)
@[simp] theorem setStack_cores (n : Nat) (k : Stack) : (s.setStack n k).cores = s.cores := rfl
@[simp] theorem setStack_regions (n : Nat) (k : Stack) : (s.setStack n k).regions = s.regions := rfl
@[simp] theorem setStack_wires (n : Nat) (k : Stack) : (s.setStack n k).wires = s.wires := rfl
@[simp] theorem setStack_net (n : Nat) (k : Stack) : (s.setStack n k).net = s.net := rfl
@[simp] theorem setStack_rtTmpl (n : Nat) (k : Stack) : (s.setStack n k).rtTmpl = s.rtTmpl := rfl
@[simp] theorem setStack_routers (n : Nat) (k : Stack) : (s.setStack n k).routers = s.routers := rfl
@[simp] theorem setStack_credits (n : Nat) (k : Stack) : (s.setStack n k).credits = s.credits := rfl
@[simp] theorem setStack_groups (n : Nat) (k : Stack) : (s.setStack n k).groups = s.groups := rfl
@[simp] theorem setStack_barRoot (n : Nat) (k : Stack) : (s.setStack n k).barRoot = s.barRoot := rfl
@[simp] theorem setStack_records (n : Nat) (k : Stack) : (s.setStack n k).records = s.records := rfl
@[simp] theorem setStack_win (n : Nat) (k : Stack) : (s.setStack n k).win = s.win := rfl
@[simp] theorem setStack_winShadow (n : Nat) (k : Stack) : (s.setStack n k).winShadow = s.winShadow := rfl
@[simp] theorem setStack_tmb (n : Nat) (k : Stack) : (s.setStack n k).tmb = s.tmb := rfl
@[simp] theorem setStack_ports (n : Nat) (k : Stack) : (s.setStack n k).ports = s.ports := rfl
@[simp] theorem setStack_hw (n : Nat) (k : Stack) : (s.setStack n k).hw = s.hw := rfl
@[simp] theorem setStack_mod (n : Nat) (k : Stack) : (s.setStack n k).mod = s.mod := rfl
@[simp] theorem setStack_seals (n : Nat) (k : Stack) : (s.setStack n k).seals = s.seals := rfl
@[simp] theorem setStack_bypass (n : Nat) (k : Stack) : (s.setStack n k).bypass = s.bypass := rfl
@[simp] theorem setStack_burn (n : Nat) (k : Stack) : (s.setStack n k).burn = s.burn := rfl

@[simp] theorem setCtx_now (n c : Nat) (x : StreamCtx) : (s.setCtx n c x).now = s.now := (rfl)
@[simp] theorem setCtx_free (n c : Nat) (x : StreamCtx) : (s.setCtx n c x).free = s.free := rfl
@[simp] theorem setCtx_reply (n c : Nat) (x : StreamCtx) : (s.setCtx n c x).reply = s.reply := rfl
@[simp] theorem setCtx_pending (n c : Nat) (x : StreamCtx) : (s.setCtx n c x).pending = s.pending := (rfl)
@[simp] theorem setCtx_cores (n c : Nat) (x : StreamCtx) : (s.setCtx n c x).cores = s.cores := rfl
@[simp] theorem setCtx_regions (n c : Nat) (x : StreamCtx) : (s.setCtx n c x).regions = s.regions := rfl
@[simp] theorem setCtx_wires (n c : Nat) (x : StreamCtx) : (s.setCtx n c x).wires = s.wires := rfl
@[simp] theorem setCtx_net (n c : Nat) (x : StreamCtx) : (s.setCtx n c x).net = s.net := rfl
@[simp] theorem setCtx_rtTmpl (n c : Nat) (x : StreamCtx) : (s.setCtx n c x).rtTmpl = s.rtTmpl := rfl
@[simp] theorem setCtx_routers (n c : Nat) (x : StreamCtx) : (s.setCtx n c x).routers = s.routers := rfl
@[simp] theorem setCtx_credits (n c : Nat) (x : StreamCtx) : (s.setCtx n c x).credits = s.credits := rfl
@[simp] theorem setCtx_groups (n c : Nat) (x : StreamCtx) : (s.setCtx n c x).groups = s.groups := rfl
@[simp] theorem setCtx_barRoot (n c : Nat) (x : StreamCtx) : (s.setCtx n c x).barRoot = s.barRoot := rfl
@[simp] theorem setCtx_records (n c : Nat) (x : StreamCtx) : (s.setCtx n c x).records = s.records := rfl
@[simp] theorem setCtx_win (n c : Nat) (x : StreamCtx) : (s.setCtx n c x).win = s.win := rfl
@[simp] theorem setCtx_winShadow (n c : Nat) (x : StreamCtx) : (s.setCtx n c x).winShadow = s.winShadow := rfl
@[simp] theorem setCtx_tmb (n c : Nat) (x : StreamCtx) : (s.setCtx n c x).tmb = s.tmb := rfl
@[simp] theorem setCtx_ports (n c : Nat) (x : StreamCtx) : (s.setCtx n c x).ports = s.ports := rfl
@[simp] theorem setCtx_hw (n c : Nat) (x : StreamCtx) : (s.setCtx n c x).hw = s.hw := rfl
@[simp] theorem setCtx_mod (n c : Nat) (x : StreamCtx) : (s.setCtx n c x).mod = s.mod := rfl
@[simp] theorem setCtx_seals (n c : Nat) (x : StreamCtx) : (s.setCtx n c x).seals = s.seals := rfl
@[simp] theorem setCtx_bypass (n c : Nat) (x : StreamCtx) : (s.setCtx n c x).bypass = s.bypass := rfl
@[simp] theorem setCtx_burn (n c : Nat) (x : StreamCtx) : (s.setCtx n c x).burn = s.burn := rfl

@[simp] theorem setRouter_now (n : Nat) (k : Router) : (s.setRouter n k).now = s.now := (rfl)
@[simp] theorem setRouter_free (n : Nat) (k : Router) : (s.setRouter n k).free = s.free := rfl
@[simp] theorem setRouter_reply (n : Nat) (k : Router) : (s.setRouter n k).reply = s.reply := rfl
@[simp] theorem setRouter_pending (n : Nat) (k : Router) : (s.setRouter n k).pending = s.pending := (rfl)
@[simp] theorem setRouter_cores (n : Nat) (k : Router) : (s.setRouter n k).cores = s.cores := rfl
@[simp] theorem setRouter_regions (n : Nat) (k : Router) : (s.setRouter n k).regions = s.regions := rfl
@[simp] theorem setRouter_wires (n : Nat) (k : Router) : (s.setRouter n k).wires = s.wires := rfl
@[simp] theorem setRouter_net (n : Nat) (k : Router) : (s.setRouter n k).net = s.net := rfl
@[simp] theorem setRouter_rtTmpl (n : Nat) (k : Router) : (s.setRouter n k).rtTmpl = s.rtTmpl := rfl
@[simp] theorem setRouter_credits (n : Nat) (k : Router) : (s.setRouter n k).credits = s.credits := rfl
@[simp] theorem setRouter_groups (n : Nat) (k : Router) : (s.setRouter n k).groups = s.groups := rfl
@[simp] theorem setRouter_barRoot (n : Nat) (k : Router) : (s.setRouter n k).barRoot = s.barRoot := rfl
@[simp] theorem setRouter_stks (n : Nat) (k : Router) : (s.setRouter n k).stks = s.stks := rfl
@[simp] theorem setRouter_records (n : Nat) (k : Router) : (s.setRouter n k).records = s.records := rfl
@[simp] theorem setRouter_win (n : Nat) (k : Router) : (s.setRouter n k).win = s.win := rfl
@[simp] theorem setRouter_winShadow (n : Nat) (k : Router) : (s.setRouter n k).winShadow = s.winShadow := rfl
@[simp] theorem setRouter_tmb (n : Nat) (k : Router) : (s.setRouter n k).tmb = s.tmb := rfl
@[simp] theorem setRouter_ports (n : Nat) (k : Router) : (s.setRouter n k).ports = s.ports := rfl
@[simp] theorem setRouter_hw (n : Nat) (k : Router) : (s.setRouter n k).hw = s.hw := rfl
@[simp] theorem setRouter_mod (n : Nat) (k : Router) : (s.setRouter n k).mod = s.mod := rfl
@[simp] theorem setRouter_seals (n : Nat) (k : Router) : (s.setRouter n k).seals = s.seals := rfl
@[simp] theorem setRouter_bypass (n : Nat) (k : Router) : (s.setRouter n k).bypass = s.bypass := rfl
@[simp] theorem setRouter_burn (n : Nat) (k : Router) : (s.setRouter n k).burn = s.burn := rfl

@[simp] theorem setPort_now (n : Nat) (k : Port) : (s.setPort n k).now = s.now := (rfl)
@[simp] theorem setPort_free (n : Nat) (k : Port) : (s.setPort n k).free = s.free := rfl
@[simp] theorem setPort_reply (n : Nat) (k : Port) : (s.setPort n k).reply = s.reply := rfl
@[simp] theorem setPort_pending (n : Nat) (k : Port) : (s.setPort n k).pending = s.pending := (rfl)
@[simp] theorem setPort_cores (n : Nat) (k : Port) : (s.setPort n k).cores = s.cores := rfl
@[simp] theorem setPort_regions (n : Nat) (k : Port) : (s.setPort n k).regions = s.regions := rfl
@[simp] theorem setPort_wires (n : Nat) (k : Port) : (s.setPort n k).wires = s.wires := rfl
@[simp] theorem setPort_net (n : Nat) (k : Port) : (s.setPort n k).net = s.net := rfl
@[simp] theorem setPort_rtTmpl (n : Nat) (k : Port) : (s.setPort n k).rtTmpl = s.rtTmpl := rfl
@[simp] theorem setPort_routers (n : Nat) (k : Port) : (s.setPort n k).routers = s.routers := rfl
@[simp] theorem setPort_credits (n : Nat) (k : Port) : (s.setPort n k).credits = s.credits := rfl
@[simp] theorem setPort_groups (n : Nat) (k : Port) : (s.setPort n k).groups = s.groups := rfl
@[simp] theorem setPort_barRoot (n : Nat) (k : Port) : (s.setPort n k).barRoot = s.barRoot := rfl
@[simp] theorem setPort_stks (n : Nat) (k : Port) : (s.setPort n k).stks = s.stks := rfl
@[simp] theorem setPort_records (n : Nat) (k : Port) : (s.setPort n k).records = s.records := rfl
@[simp] theorem setPort_win (n : Nat) (k : Port) : (s.setPort n k).win = s.win := rfl
@[simp] theorem setPort_winShadow (n : Nat) (k : Port) : (s.setPort n k).winShadow = s.winShadow := rfl
@[simp] theorem setPort_tmb (n : Nat) (k : Port) : (s.setPort n k).tmb = s.tmb := rfl
@[simp] theorem setPort_hw (n : Nat) (k : Port) : (s.setPort n k).hw = s.hw := rfl
@[simp] theorem setPort_mod (n : Nat) (k : Port) : (s.setPort n k).mod = s.mod := rfl
@[simp] theorem setPort_seals (n : Nat) (k : Port) : (s.setPort n k).seals = s.seals := rfl
@[simp] theorem setPort_bypass (n : Nat) (k : Port) : (s.setPort n k).bypass = s.bypass := rfl
@[simp] theorem setPort_burn (n : Nat) (k : Port) : (s.setPort n k).burn = s.burn := rfl

@[simp] theorem setPart_now (n : Nat) (k : Partn) : (s.setPart n k).now = s.now := (rfl)
@[simp] theorem setPart_free (n : Nat) (k : Partn) : (s.setPart n k).free = s.free := rfl
@[simp] theorem setPart_reply (n : Nat) (k : Partn) : (s.setPart n k).reply = s.reply := rfl
@[simp] theorem setPart_pending (n : Nat) (k : Partn) : (s.setPart n k).pending = s.pending := (rfl)
@[simp] theorem setPart_cores (n : Nat) (k : Partn) : (s.setPart n k).cores = s.cores := rfl
@[simp] theorem setPart_regions (n : Nat) (k : Partn) : (s.setPart n k).regions = s.regions := rfl
@[simp] theorem setPart_wires (n : Nat) (k : Partn) : (s.setPart n k).wires = s.wires := rfl
@[simp] theorem setPart_net (n : Nat) (k : Partn) : (s.setPart n k).net = s.net := rfl
@[simp] theorem setPart_rtTmpl (n : Nat) (k : Partn) : (s.setPart n k).rtTmpl = s.rtTmpl := rfl
@[simp] theorem setPart_routers (n : Nat) (k : Partn) : (s.setPart n k).routers = s.routers := rfl
@[simp] theorem setPart_credits (n : Nat) (k : Partn) : (s.setPart n k).credits = s.credits := rfl
@[simp] theorem setPart_groups (n : Nat) (k : Partn) : (s.setPart n k).groups = s.groups := rfl
@[simp] theorem setPart_barRoot (n : Nat) (k : Partn) : (s.setPart n k).barRoot = s.barRoot := rfl
@[simp] theorem setPart_stks (n : Nat) (k : Partn) : (s.setPart n k).stks = s.stks := rfl
@[simp] theorem setPart_records (n : Nat) (k : Partn) : (s.setPart n k).records = s.records := rfl
@[simp] theorem setPart_win (n : Nat) (k : Partn) : (s.setPart n k).win = s.win := rfl
@[simp] theorem setPart_winShadow (n : Nat) (k : Partn) : (s.setPart n k).winShadow = s.winShadow := rfl
@[simp] theorem setPart_tmb (n : Nat) (k : Partn) : (s.setPart n k).tmb = s.tmb := rfl
@[simp] theorem setPart_ports (n : Nat) (k : Partn) : (s.setPart n k).ports = s.ports := rfl
@[simp] theorem setPart_mod (n : Nat) (k : Partn) : (s.setPart n k).mod = s.mod := rfl
@[simp] theorem setPart_seals (n : Nat) (k : Partn) : (s.setPart n k).seals = s.seals := rfl
@[simp] theorem setPart_bypass (n : Nat) (k : Partn) : (s.setPart n k).bypass = s.bypass := rfl
@[simp] theorem setPart_burn (n : Nat) (k : Partn) : (s.setPart n k).burn = s.burn := rfl

@[simp] theorem updPart_now (n : Nat) (f : Partn → Partn) : (updPart s n f).now = s.now := by unfold updPart; split <;> rfl
@[simp] theorem updPart_free (n : Nat) (f : Partn → Partn) : (updPart s n f).free = s.free := by unfold updPart; split <;> rfl
@[simp] theorem updPart_reply (n : Nat) (f : Partn → Partn) : (updPart s n f).reply = s.reply := by unfold updPart; split <;> rfl
@[simp] theorem updPart_pending (n : Nat) (f : Partn → Partn) : (updPart s n f).pending = s.pending := by unfold updPart; split <;> rfl
@[simp] theorem updPart_cores (n : Nat) (f : Partn → Partn) : (updPart s n f).cores = s.cores := by unfold updPart; split <;> rfl
@[simp] theorem updPart_regions (n : Nat) (f : Partn → Partn) : (updPart s n f).regions = s.regions := by unfold updPart; split <;> rfl
@[simp] theorem updPart_wires (n : Nat) (f : Partn → Partn) : (updPart s n f).wires = s.wires := by unfold updPart; split <;> rfl
@[simp] theorem updPart_net (n : Nat) (f : Partn → Partn) : (updPart s n f).net = s.net := by unfold updPart; split <;> rfl
@[simp] theorem updPart_rtTmpl (n : Nat) (f : Partn → Partn) : (updPart s n f).rtTmpl = s.rtTmpl := by unfold updPart; split <;> rfl
@[simp] theorem updPart_routers (n : Nat) (f : Partn → Partn) : (updPart s n f).routers = s.routers := by unfold updPart; split <;> rfl
@[simp] theorem updPart_credits (n : Nat) (f : Partn → Partn) : (updPart s n f).credits = s.credits := by unfold updPart; split <;> rfl
@[simp] theorem updPart_groups (n : Nat) (f : Partn → Partn) : (updPart s n f).groups = s.groups := by unfold updPart; split <;> rfl
@[simp] theorem updPart_barRoot (n : Nat) (f : Partn → Partn) : (updPart s n f).barRoot = s.barRoot := by unfold updPart; split <;> rfl
@[simp] theorem updPart_stks (n : Nat) (f : Partn → Partn) : (updPart s n f).stks = s.stks := by unfold updPart; split <;> rfl
@[simp] theorem updPart_records (n : Nat) (f : Partn → Partn) : (updPart s n f).records = s.records := by unfold updPart; split <;> rfl
@[simp] theorem updPart_win (n : Nat) (f : Partn → Partn) : (updPart s n f).win = s.win := by unfold updPart; split <;> rfl
@[simp] theorem updPart_winShadow (n : Nat) (f : Partn → Partn) : (updPart s n f).winShadow = s.winShadow := by unfold updPart; split <;> rfl
@[simp] theorem updPart_tmb (n : Nat) (f : Partn → Partn) : (updPart s n f).tmb = s.tmb := by unfold updPart; split <;> rfl
@[simp] theorem updPart_ports (n : Nat) (f : Partn → Partn) : (updPart s n f).ports = s.ports := by unfold updPart; split <;> rfl
@[simp] theorem updPart_mod (n : Nat) (f : Partn → Partn) : (updPart s n f).mod = s.mod := by unfold updPart; split <;> rfl
@[simp] theorem updPart_seals (n : Nat) (f : Partn → Partn) : (updPart s n f).seals = s.seals := by unfold updPart; split <;> rfl
@[simp] theorem updPart_bypass (n : Nat) (f : Partn → Partn) : (updPart s n f).bypass = s.bypass := by unfold updPart; split <;> rfl
@[simp] theorem updPart_burn (n : Nat) (f : Partn → Partn) : (updPart s n f).burn = s.burn := by unfold updPart; split <;> rfl

@[simp] theorem setRing_now (n : Nat) (k : Ring) : (s.setRing n k).now = s.now := (rfl)
@[simp] theorem setRing_free (n : Nat) (k : Ring) : (s.setRing n k).free = s.free := rfl
@[simp] theorem setRing_reply (n : Nat) (k : Ring) : (s.setRing n k).reply = s.reply := rfl
@[simp] theorem setRing_pending (n : Nat) (k : Ring) : (s.setRing n k).pending = s.pending := (rfl)
@[simp] theorem setRing_cores (n : Nat) (k : Ring) : (s.setRing n k).cores = s.cores := rfl
@[simp] theorem setRing_regions (n : Nat) (k : Ring) : (s.setRing n k).regions = s.regions := rfl
@[simp] theorem setRing_wires (n : Nat) (k : Ring) : (s.setRing n k).wires = s.wires := rfl
@[simp] theorem setRing_net (n : Nat) (k : Ring) : (s.setRing n k).net = s.net := rfl
@[simp] theorem setRing_rtTmpl (n : Nat) (k : Ring) : (s.setRing n k).rtTmpl = s.rtTmpl := rfl
@[simp] theorem setRing_routers (n : Nat) (k : Ring) : (s.setRing n k).routers = s.routers := rfl
@[simp] theorem setRing_credits (n : Nat) (k : Ring) : (s.setRing n k).credits = s.credits := rfl
@[simp] theorem setRing_groups (n : Nat) (k : Ring) : (s.setRing n k).groups = s.groups := rfl
@[simp] theorem setRing_barRoot (n : Nat) (k : Ring) : (s.setRing n k).barRoot = s.barRoot := rfl
@[simp] theorem setRing_stks (n : Nat) (k : Ring) : (s.setRing n k).stks = s.stks := rfl
@[simp] theorem setRing_records (n : Nat) (k : Ring) : (s.setRing n k).records = s.records := rfl
@[simp] theorem setRing_win (n : Nat) (k : Ring) : (s.setRing n k).win = s.win := rfl
@[simp] theorem setRing_winShadow (n : Nat) (k : Ring) : (s.setRing n k).winShadow = s.winShadow := rfl
@[simp] theorem setRing_tmb (n : Nat) (k : Ring) : (s.setRing n k).tmb = s.tmb := rfl
@[simp] theorem setRing_ports (n : Nat) (k : Ring) : (s.setRing n k).ports = s.ports := rfl
@[simp] theorem setRing_mod (n : Nat) (k : Ring) : (s.setRing n k).mod = s.mod := rfl
@[simp] theorem setRing_seals (n : Nat) (k : Ring) : (s.setRing n k).seals = s.seals := rfl
@[simp] theorem setRing_bypass (n : Nat) (k : Ring) : (s.setRing n k).bypass = s.bypass := rfl
@[simp] theorem setRing_burn (n : Nat) (k : Ring) : (s.setRing n k).burn = s.burn := rfl

@[simp] theorem setQp_now (n : Nat) (k : Qp) : (s.setQp n k).now = s.now := (rfl)
@[simp] theorem setQp_free (n : Nat) (k : Qp) : (s.setQp n k).free = s.free := rfl
@[simp] theorem setQp_reply (n : Nat) (k : Qp) : (s.setQp n k).reply = s.reply := rfl
@[simp] theorem setQp_pending (n : Nat) (k : Qp) : (s.setQp n k).pending = s.pending := (rfl)
@[simp] theorem setQp_cores (n : Nat) (k : Qp) : (s.setQp n k).cores = s.cores := rfl
@[simp] theorem setQp_regions (n : Nat) (k : Qp) : (s.setQp n k).regions = s.regions := rfl
@[simp] theorem setQp_wires (n : Nat) (k : Qp) : (s.setQp n k).wires = s.wires := rfl
@[simp] theorem setQp_net (n : Nat) (k : Qp) : (s.setQp n k).net = s.net := rfl
@[simp] theorem setQp_rtTmpl (n : Nat) (k : Qp) : (s.setQp n k).rtTmpl = s.rtTmpl := rfl
@[simp] theorem setQp_routers (n : Nat) (k : Qp) : (s.setQp n k).routers = s.routers := rfl
@[simp] theorem setQp_credits (n : Nat) (k : Qp) : (s.setQp n k).credits = s.credits := rfl
@[simp] theorem setQp_groups (n : Nat) (k : Qp) : (s.setQp n k).groups = s.groups := rfl
@[simp] theorem setQp_barRoot (n : Nat) (k : Qp) : (s.setQp n k).barRoot = s.barRoot := rfl
@[simp] theorem setQp_stks (n : Nat) (k : Qp) : (s.setQp n k).stks = s.stks := rfl
@[simp] theorem setQp_records (n : Nat) (k : Qp) : (s.setQp n k).records = s.records := rfl
@[simp] theorem setQp_win (n : Nat) (k : Qp) : (s.setQp n k).win = s.win := rfl
@[simp] theorem setQp_winShadow (n : Nat) (k : Qp) : (s.setQp n k).winShadow = s.winShadow := rfl
@[simp] theorem setQp_tmb (n : Nat) (k : Qp) : (s.setQp n k).tmb = s.tmb := rfl
@[simp] theorem setQp_ports (n : Nat) (k : Qp) : (s.setQp n k).ports = s.ports := rfl
@[simp] theorem setQp_mod (n : Nat) (k : Qp) : (s.setQp n k).mod = s.mod := rfl
@[simp] theorem setQp_seals (n : Nat) (k : Qp) : (s.setQp n k).seals = s.seals := rfl
@[simp] theorem setQp_bypass (n : Nat) (k : Qp) : (s.setQp n k).bypass = s.bypass := rfl
@[simp] theorem setQp_burn (n : Nat) (k : Qp) : (s.setQp n k).burn = s.burn := rfl

@[simp] theorem takeNet_now (p : Packet) : (s.takeNet p).now = s.now := (rfl)
@[simp] theorem takeNet_free (p : Packet) : (s.takeNet p).free = s.free := rfl
@[simp] theorem takeNet_reply (p : Packet) : (s.takeNet p).reply = s.reply := rfl
@[simp] theorem takeNet_pending (p : Packet) : (s.takeNet p).pending = s.pending := (rfl)
@[simp] theorem takeNet_cores (p : Packet) : (s.takeNet p).cores = s.cores := rfl
@[simp] theorem takeNet_regions (p : Packet) : (s.takeNet p).regions = s.regions := rfl
@[simp] theorem takeNet_wires (p : Packet) : (s.takeNet p).wires = s.wires := rfl
@[simp] theorem takeNet_rtTmpl (p : Packet) : (s.takeNet p).rtTmpl = s.rtTmpl := rfl
@[simp] theorem takeNet_routers (p : Packet) : (s.takeNet p).routers = s.routers := rfl
@[simp] theorem takeNet_credits (p : Packet) : (s.takeNet p).credits = s.credits := rfl
@[simp] theorem takeNet_groups (p : Packet) : (s.takeNet p).groups = s.groups := rfl
@[simp] theorem takeNet_barRoot (p : Packet) : (s.takeNet p).barRoot = s.barRoot := rfl
@[simp] theorem takeNet_stks (p : Packet) : (s.takeNet p).stks = s.stks := rfl
@[simp] theorem takeNet_records (p : Packet) : (s.takeNet p).records = s.records := rfl
@[simp] theorem takeNet_win (p : Packet) : (s.takeNet p).win = s.win := rfl
@[simp] theorem takeNet_winShadow (p : Packet) : (s.takeNet p).winShadow = s.winShadow := rfl
@[simp] theorem takeNet_tmb (p : Packet) : (s.takeNet p).tmb = s.tmb := rfl
@[simp] theorem takeNet_ports (p : Packet) : (s.takeNet p).ports = s.ports := rfl
@[simp] theorem takeNet_hw (p : Packet) : (s.takeNet p).hw = s.hw := rfl
@[simp] theorem takeNet_mod (p : Packet) : (s.takeNet p).mod = s.mod := rfl
@[simp] theorem takeNet_seals (p : Packet) : (s.takeNet p).seals = s.seals := rfl
@[simp] theorem takeNet_bypass (p : Packet) : (s.takeNet p).bypass = s.bypass := rfl
@[simp] theorem takeNet_burn (p : Packet) : (s.takeNet p).burn = s.burn := rfl

@[simp] theorem putNet_now (p : Packet) : (s.putNet p).now = s.now := (rfl)
@[simp] theorem putNet_free (p : Packet) : (s.putNet p).free = s.free := rfl
@[simp] theorem putNet_reply (p : Packet) : (s.putNet p).reply = s.reply := rfl
@[simp] theorem putNet_pending (p : Packet) : (s.putNet p).pending = s.pending := (rfl)
@[simp] theorem putNet_cores (p : Packet) : (s.putNet p).cores = s.cores := rfl
@[simp] theorem putNet_regions (p : Packet) : (s.putNet p).regions = s.regions := rfl
@[simp] theorem putNet_wires (p : Packet) : (s.putNet p).wires = s.wires := rfl
@[simp] theorem putNet_rtTmpl (p : Packet) : (s.putNet p).rtTmpl = s.rtTmpl := rfl
@[simp] theorem putNet_routers (p : Packet) : (s.putNet p).routers = s.routers := rfl
@[simp] theorem putNet_credits (p : Packet) : (s.putNet p).credits = s.credits := rfl
@[simp] theorem putNet_groups (p : Packet) : (s.putNet p).groups = s.groups := rfl
@[simp] theorem putNet_barRoot (p : Packet) : (s.putNet p).barRoot = s.barRoot := rfl
@[simp] theorem putNet_stks (p : Packet) : (s.putNet p).stks = s.stks := rfl
@[simp] theorem putNet_records (p : Packet) : (s.putNet p).records = s.records := rfl
@[simp] theorem putNet_win (p : Packet) : (s.putNet p).win = s.win := rfl
@[simp] theorem putNet_winShadow (p : Packet) : (s.putNet p).winShadow = s.winShadow := rfl
@[simp] theorem putNet_tmb (p : Packet) : (s.putNet p).tmb = s.tmb := rfl
@[simp] theorem putNet_ports (p : Packet) : (s.putNet p).ports = s.ports := rfl
@[simp] theorem putNet_hw (p : Packet) : (s.putNet p).hw = s.hw := rfl
@[simp] theorem putNet_mod (p : Packet) : (s.putNet p).mod = s.mod := rfl
@[simp] theorem putNet_seals (p : Packet) : (s.putNet p).seals = s.seals := rfl
@[simp] theorem putNet_bypass (p : Packet) : (s.putNet p).bypass = s.bypass := rfl
@[simp] theorem putNet_burn (p : Packet) : (s.putNet p).burn = s.burn := rfl

@[simp] theorem reply1_now (ps : List Packet) : (s.reply1 ps).now = s.now := (rfl)
@[simp] theorem reply1_free (ps : List Packet) : (s.reply1 ps).free = s.free := rfl
@[simp] theorem reply1_reply (ps : List Packet) : (s.reply1 ps).reply = s.reply := rfl
@[simp] theorem reply1_pending (ps : List Packet) : (s.reply1 ps).pending = s.pending := (rfl)
@[simp] theorem reply1_cores (ps : List Packet) : (s.reply1 ps).cores = s.cores := rfl
@[simp] theorem reply1_regions (ps : List Packet) : (s.reply1 ps).regions = s.regions := rfl
@[simp] theorem reply1_wires (ps : List Packet) : (s.reply1 ps).wires = s.wires := rfl
@[simp] theorem reply1_rtTmpl (ps : List Packet) : (s.reply1 ps).rtTmpl = s.rtTmpl := rfl
@[simp] theorem reply1_routers (ps : List Packet) : (s.reply1 ps).routers = s.routers := rfl
@[simp] theorem reply1_credits (ps : List Packet) : (s.reply1 ps).credits = s.credits := rfl
@[simp] theorem reply1_groups (ps : List Packet) : (s.reply1 ps).groups = s.groups := rfl
@[simp] theorem reply1_barRoot (ps : List Packet) : (s.reply1 ps).barRoot = s.barRoot := rfl
@[simp] theorem reply1_stks (ps : List Packet) : (s.reply1 ps).stks = s.stks := rfl
@[simp] theorem reply1_records (ps : List Packet) : (s.reply1 ps).records = s.records := rfl
@[simp] theorem reply1_win (ps : List Packet) : (s.reply1 ps).win = s.win := rfl
@[simp] theorem reply1_winShadow (ps : List Packet) : (s.reply1 ps).winShadow = s.winShadow := rfl
@[simp] theorem reply1_tmb (ps : List Packet) : (s.reply1 ps).tmb = s.tmb := rfl
@[simp] theorem reply1_ports (ps : List Packet) : (s.reply1 ps).ports = s.ports := rfl
@[simp] theorem reply1_hw (ps : List Packet) : (s.reply1 ps).hw = s.hw := rfl
@[simp] theorem reply1_mod (ps : List Packet) : (s.reply1 ps).mod = s.mod := rfl
@[simp] theorem reply1_seals (ps : List Packet) : (s.reply1 ps).seals = s.seals := rfl
@[simp] theorem reply1_bypass (ps : List Packet) : (s.reply1 ps).bypass = s.bypass := rfl
@[simp] theorem reply1_burn (ps : List Packet) : (s.reply1 ps).burn = s.burn := rfl

@[simp] theorem mapRegion_now (l : Nat) (f : Core → Core) : (mapRegion s l f).now = s.now := (rfl)
@[simp] theorem mapRegion_free (l : Nat) (f : Core → Core) : (mapRegion s l f).free = s.free := rfl
@[simp] theorem mapRegion_reply (l : Nat) (f : Core → Core) : (mapRegion s l f).reply = s.reply := rfl
@[simp] theorem mapRegion_pending (l : Nat) (f : Core → Core) : (mapRegion s l f).pending = s.pending := (rfl)
@[simp] theorem mapRegion_wires (l : Nat) (f : Core → Core) : (mapRegion s l f).wires = s.wires := rfl
@[simp] theorem mapRegion_net (l : Nat) (f : Core → Core) : (mapRegion s l f).net = s.net := rfl
@[simp] theorem mapRegion_rtTmpl (l : Nat) (f : Core → Core) : (mapRegion s l f).rtTmpl = s.rtTmpl := rfl
@[simp] theorem mapRegion_routers (l : Nat) (f : Core → Core) : (mapRegion s l f).routers = s.routers := rfl
@[simp] theorem mapRegion_credits (l : Nat) (f : Core → Core) : (mapRegion s l f).credits = s.credits := rfl
@[simp] theorem mapRegion_groups (l : Nat) (f : Core → Core) : (mapRegion s l f).groups = s.groups := rfl
@[simp] theorem mapRegion_barRoot (l : Nat) (f : Core → Core) : (mapRegion s l f).barRoot = s.barRoot := rfl
@[simp] theorem mapRegion_stks (l : Nat) (f : Core → Core) : (mapRegion s l f).stks = s.stks := rfl
@[simp] theorem mapRegion_records (l : Nat) (f : Core → Core) : (mapRegion s l f).records = s.records := rfl
@[simp] theorem mapRegion_win (l : Nat) (f : Core → Core) : (mapRegion s l f).win = s.win := rfl
@[simp] theorem mapRegion_winShadow (l : Nat) (f : Core → Core) : (mapRegion s l f).winShadow = s.winShadow := rfl
@[simp] theorem mapRegion_tmb (l : Nat) (f : Core → Core) : (mapRegion s l f).tmb = s.tmb := rfl
@[simp] theorem mapRegion_ports (l : Nat) (f : Core → Core) : (mapRegion s l f).ports = s.ports := rfl
@[simp] theorem mapRegion_hw (l : Nat) (f : Core → Core) : (mapRegion s l f).hw = s.hw := rfl
@[simp] theorem mapRegion_mod (l : Nat) (f : Core → Core) : (mapRegion s l f).mod = s.mod := rfl
@[simp] theorem mapRegion_seals (l : Nat) (f : Core → Core) : (mapRegion s l f).seals = s.seals := rfl
@[simp] theorem mapRegion_bypass (l : Nat) (f : Core → Core) : (mapRegion s l f).bypass = s.bypass := rfl
@[simp] theorem mapRegion_burn (l : Nat) (f : Core → Core) : (mapRegion s l f).burn = s.burn := rfl

@[simp] theorem wSet_now (o : Nat) (w : Word) : (wSet s o w).now = s.now := (rfl)
@[simp] theorem wSet_free (o : Nat) (w : Word) : (wSet s o w).free = s.free := rfl
@[simp] theorem wSet_reply (o : Nat) (w : Word) : (wSet s o w).reply = s.reply := rfl
@[simp] theorem wSet_pending (o : Nat) (w : Word) : (wSet s o w).pending = s.pending := (rfl)
@[simp] theorem wSet_cores (o : Nat) (w : Word) : (wSet s o w).cores = s.cores := rfl
@[simp] theorem wSet_regions (o : Nat) (w : Word) : (wSet s o w).regions = s.regions := rfl
@[simp] theorem wSet_wires (o : Nat) (w : Word) : (wSet s o w).wires = s.wires := rfl
@[simp] theorem wSet_net (o : Nat) (w : Word) : (wSet s o w).net = s.net := rfl
@[simp] theorem wSet_rtTmpl (o : Nat) (w : Word) : (wSet s o w).rtTmpl = s.rtTmpl := rfl
@[simp] theorem wSet_routers (o : Nat) (w : Word) : (wSet s o w).routers = s.routers := rfl
@[simp] theorem wSet_credits (o : Nat) (w : Word) : (wSet s o w).credits = s.credits := rfl
@[simp] theorem wSet_groups (o : Nat) (w : Word) : (wSet s o w).groups = s.groups := rfl
@[simp] theorem wSet_barRoot (o : Nat) (w : Word) : (wSet s o w).barRoot = s.barRoot := rfl
@[simp] theorem wSet_stks (o : Nat) (w : Word) : (wSet s o w).stks = s.stks := rfl
@[simp] theorem wSet_records (o : Nat) (w : Word) : (wSet s o w).records = s.records := rfl
@[simp] theorem wSet_winShadow (o : Nat) (w : Word) : (wSet s o w).winShadow = s.winShadow := rfl
@[simp] theorem wSet_tmb (o : Nat) (w : Word) : (wSet s o w).tmb = s.tmb := rfl
@[simp] theorem wSet_ports (o : Nat) (w : Word) : (wSet s o w).ports = s.ports := rfl
@[simp] theorem wSet_hw (o : Nat) (w : Word) : (wSet s o w).hw = s.hw := rfl
@[simp] theorem wSet_mod (o : Nat) (w : Word) : (wSet s o w).mod = s.mod := rfl
@[simp] theorem wSet_seals (o : Nat) (w : Word) : (wSet s o w).seals = s.seals := rfl
@[simp] theorem wSet_bypass (o : Nat) (w : Word) : (wSet s o w).bypass = s.bypass := rfl
@[simp] theorem wSet_burn (o : Nat) (w : Word) : (wSet s o w).burn = s.burn := rfl

@[simp] theorem wFlag_now (o : Nat) (w : Word) : (wFlag s o w).now = s.now := (rfl)
@[simp] theorem wFlag_free (o : Nat) (w : Word) : (wFlag s o w).free = s.free := rfl
@[simp] theorem wFlag_reply (o : Nat) (w : Word) : (wFlag s o w).reply = s.reply := rfl
@[simp] theorem wFlag_pending (o : Nat) (w : Word) : (wFlag s o w).pending = s.pending := (rfl)
@[simp] theorem wFlag_cores (o : Nat) (w : Word) : (wFlag s o w).cores = s.cores := rfl
@[simp] theorem wFlag_regions (o : Nat) (w : Word) : (wFlag s o w).regions = s.regions := rfl
@[simp] theorem wFlag_wires (o : Nat) (w : Word) : (wFlag s o w).wires = s.wires := rfl
@[simp] theorem wFlag_net (o : Nat) (w : Word) : (wFlag s o w).net = s.net := rfl
@[simp] theorem wFlag_rtTmpl (o : Nat) (w : Word) : (wFlag s o w).rtTmpl = s.rtTmpl := rfl
@[simp] theorem wFlag_routers (o : Nat) (w : Word) : (wFlag s o w).routers = s.routers := rfl
@[simp] theorem wFlag_credits (o : Nat) (w : Word) : (wFlag s o w).credits = s.credits := rfl
@[simp] theorem wFlag_groups (o : Nat) (w : Word) : (wFlag s o w).groups = s.groups := rfl
@[simp] theorem wFlag_barRoot (o : Nat) (w : Word) : (wFlag s o w).barRoot = s.barRoot := rfl
@[simp] theorem wFlag_stks (o : Nat) (w : Word) : (wFlag s o w).stks = s.stks := rfl
@[simp] theorem wFlag_records (o : Nat) (w : Word) : (wFlag s o w).records = s.records := rfl
@[simp] theorem wFlag_winShadow (o : Nat) (w : Word) : (wFlag s o w).winShadow = s.winShadow := rfl
@[simp] theorem wFlag_tmb (o : Nat) (w : Word) : (wFlag s o w).tmb = s.tmb := rfl
@[simp] theorem wFlag_ports (o : Nat) (w : Word) : (wFlag s o w).ports = s.ports := rfl
@[simp] theorem wFlag_hw (o : Nat) (w : Word) : (wFlag s o w).hw = s.hw := rfl
@[simp] theorem wFlag_mod (o : Nat) (w : Word) : (wFlag s o w).mod = s.mod := rfl
@[simp] theorem wFlag_seals (o : Nat) (w : Word) : (wFlag s o w).seals = s.seals := rfl
@[simp] theorem wFlag_bypass (o : Nat) (w : Word) : (wFlag s o w).bypass = s.bypass := rfl
@[simp] theorem wFlag_burn (o : Nat) (w : Word) : (wFlag s o w).burn = s.burn := rfl

@[simp] theorem wFld_now (o hi lo v : Nat) : (wFld s o hi lo v).now = s.now := (rfl)
@[simp] theorem wFld_free (o hi lo v : Nat) : (wFld s o hi lo v).free = s.free := rfl
@[simp] theorem wFld_reply (o hi lo v : Nat) : (wFld s o hi lo v).reply = s.reply := rfl
@[simp] theorem wFld_pending (o hi lo v : Nat) : (wFld s o hi lo v).pending = s.pending := (rfl)
@[simp] theorem wFld_cores (o hi lo v : Nat) : (wFld s o hi lo v).cores = s.cores := rfl
@[simp] theorem wFld_regions (o hi lo v : Nat) : (wFld s o hi lo v).regions = s.regions := rfl
@[simp] theorem wFld_wires (o hi lo v : Nat) : (wFld s o hi lo v).wires = s.wires := rfl
@[simp] theorem wFld_net (o hi lo v : Nat) : (wFld s o hi lo v).net = s.net := rfl
@[simp] theorem wFld_rtTmpl (o hi lo v : Nat) : (wFld s o hi lo v).rtTmpl = s.rtTmpl := rfl
@[simp] theorem wFld_routers (o hi lo v : Nat) : (wFld s o hi lo v).routers = s.routers := rfl
@[simp] theorem wFld_credits (o hi lo v : Nat) : (wFld s o hi lo v).credits = s.credits := rfl
@[simp] theorem wFld_groups (o hi lo v : Nat) : (wFld s o hi lo v).groups = s.groups := rfl
@[simp] theorem wFld_barRoot (o hi lo v : Nat) : (wFld s o hi lo v).barRoot = s.barRoot := rfl
@[simp] theorem wFld_stks (o hi lo v : Nat) : (wFld s o hi lo v).stks = s.stks := rfl
@[simp] theorem wFld_records (o hi lo v : Nat) : (wFld s o hi lo v).records = s.records := rfl
@[simp] theorem wFld_winShadow (o hi lo v : Nat) : (wFld s o hi lo v).winShadow = s.winShadow := rfl
@[simp] theorem wFld_tmb (o hi lo v : Nat) : (wFld s o hi lo v).tmb = s.tmb := rfl
@[simp] theorem wFld_ports (o hi lo v : Nat) : (wFld s o hi lo v).ports = s.ports := rfl
@[simp] theorem wFld_hw (o hi lo v : Nat) : (wFld s o hi lo v).hw = s.hw := rfl
@[simp] theorem wFld_mod (o hi lo v : Nat) : (wFld s o hi lo v).mod = s.mod := rfl
@[simp] theorem wFld_seals (o hi lo v : Nat) : (wFld s o hi lo v).seals = s.seals := rfl
@[simp] theorem wFld_bypass (o hi lo v : Nat) : (wFld s o hi lo v).bypass = s.bypass := rfl
@[simp] theorem wFld_burn (o hi lo v : Nat) : (wFld s o hi lo v).burn = s.burn := rfl

@[simp] theorem wCount_now (o hi lo v : Nat) : (wCount s o hi lo v).now = s.now := (rfl)
@[simp] theorem wCount_free (o hi lo v : Nat) : (wCount s o hi lo v).free = s.free := rfl
@[simp] theorem wCount_reply (o hi lo v : Nat) : (wCount s o hi lo v).reply = s.reply := rfl
@[simp] theorem wCount_pending (o hi lo v : Nat) : (wCount s o hi lo v).pending = s.pending := (rfl)
@[simp] theorem wCount_cores (o hi lo v : Nat) : (wCount s o hi lo v).cores = s.cores := rfl
@[simp] theorem wCount_regions (o hi lo v : Nat) : (wCount s o hi lo v).regions = s.regions := rfl
@[simp] theorem wCount_wires (o hi lo v : Nat) : (wCount s o hi lo v).wires = s.wires := rfl
@[simp] theorem wCount_net (o hi lo v : Nat) : (wCount s o hi lo v).net = s.net := rfl
@[simp] theorem wCount_rtTmpl (o hi lo v : Nat) : (wCount s o hi lo v).rtTmpl = s.rtTmpl := rfl
@[simp] theorem wCount_routers (o hi lo v : Nat) : (wCount s o hi lo v).routers = s.routers := rfl
@[simp] theorem wCount_credits (o hi lo v : Nat) : (wCount s o hi lo v).credits = s.credits := rfl
@[simp] theorem wCount_groups (o hi lo v : Nat) : (wCount s o hi lo v).groups = s.groups := rfl
@[simp] theorem wCount_barRoot (o hi lo v : Nat) : (wCount s o hi lo v).barRoot = s.barRoot := rfl
@[simp] theorem wCount_stks (o hi lo v : Nat) : (wCount s o hi lo v).stks = s.stks := rfl
@[simp] theorem wCount_records (o hi lo v : Nat) : (wCount s o hi lo v).records = s.records := rfl
@[simp] theorem wCount_winShadow (o hi lo v : Nat) : (wCount s o hi lo v).winShadow = s.winShadow := rfl
@[simp] theorem wCount_tmb (o hi lo v : Nat) : (wCount s o hi lo v).tmb = s.tmb := rfl
@[simp] theorem wCount_ports (o hi lo v : Nat) : (wCount s o hi lo v).ports = s.ports := rfl
@[simp] theorem wCount_hw (o hi lo v : Nat) : (wCount s o hi lo v).hw = s.hw := rfl
@[simp] theorem wCount_mod (o hi lo v : Nat) : (wCount s o hi lo v).mod = s.mod := rfl
@[simp] theorem wCount_seals (o hi lo v : Nat) : (wCount s o hi lo v).seals = s.seals := rfl
@[simp] theorem wCount_bypass (o hi lo v : Nat) : (wCount s o hi lo v).bypass = s.bypass := rfl
@[simp] theorem wCount_burn (o hi lo v : Nat) : (wCount s o hi lo v).burn = s.burn := rfl

@[simp] theorem allRouters_now (f : Router → Router) : (s.allRouters f).now = s.now := (rfl)
@[simp] theorem allRouters_free (f : Router → Router) : (s.allRouters f).free = s.free := rfl
@[simp] theorem allRouters_reply (f : Router → Router) : (s.allRouters f).reply = s.reply := rfl
@[simp] theorem allRouters_pending (f : Router → Router) : (s.allRouters f).pending = s.pending := (rfl)
@[simp] theorem allRouters_cores (f : Router → Router) : (s.allRouters f).cores = s.cores := rfl
@[simp] theorem allRouters_regions (f : Router → Router) : (s.allRouters f).regions = s.regions := rfl
@[simp] theorem allRouters_wires (f : Router → Router) : (s.allRouters f).wires = s.wires := rfl
@[simp] theorem allRouters_net (f : Router → Router) : (s.allRouters f).net = s.net := rfl
@[simp] theorem allRouters_credits (f : Router → Router) : (s.allRouters f).credits = s.credits := rfl
@[simp] theorem allRouters_groups (f : Router → Router) : (s.allRouters f).groups = s.groups := rfl
@[simp] theorem allRouters_barRoot (f : Router → Router) : (s.allRouters f).barRoot = s.barRoot := rfl
@[simp] theorem allRouters_stks (f : Router → Router) : (s.allRouters f).stks = s.stks := rfl
@[simp] theorem allRouters_records (f : Router → Router) : (s.allRouters f).records = s.records := rfl
@[simp] theorem allRouters_win (f : Router → Router) : (s.allRouters f).win = s.win := rfl
@[simp] theorem allRouters_winShadow (f : Router → Router) : (s.allRouters f).winShadow = s.winShadow := rfl
@[simp] theorem allRouters_tmb (f : Router → Router) : (s.allRouters f).tmb = s.tmb := rfl
@[simp] theorem allRouters_ports (f : Router → Router) : (s.allRouters f).ports = s.ports := rfl
@[simp] theorem allRouters_hw (f : Router → Router) : (s.allRouters f).hw = s.hw := rfl
@[simp] theorem allRouters_mod (f : Router → Router) : (s.allRouters f).mod = s.mod := rfl
@[simp] theorem allRouters_seals (f : Router → Router) : (s.allRouters f).seals = s.seals := rfl
@[simp] theorem allRouters_bypass (f : Router → Router) : (s.allRouters f).bypass = s.bypass := rfl
@[simp] theorem allRouters_burn (f : Router → Router) : (s.allRouters f).burn = s.burn := rfl

@[simp] theorem reach_now (t : Nat) : (s.reach t).now = max s.now t := (rfl)
@[simp] theorem takeFree_free (n : Nat) : (s.takeFree n).free = s.free + n := rfl
@[simp] theorem answer_reply (st : Nat) (ws : List Word) : (s.answer st ws).reply = some ⟨st, ws⟩ := rfl
@[simp] theorem record_records (r : Rec) : (s.record r).records = s.records ++ [r] := rfl
@[simp] theorem setRegion_regions (l : Nat) (g : Region) : (s.setRegion l g).regions = mset s.regions l g := rfl
@[simp] theorem setStack_stks (n : Nat) (k : Stack) : (s.setStack n k).stks = mset s.stks n k := rfl
@[simp] theorem setRouter_routers (n : Nat) (k : Router) : (s.setRouter n k).routers = mset s.routers n k := rfl
@[simp] theorem setPort_ports (n : Nat) (k : Port) : (s.setPort n k).ports = mset s.ports n k := rfl
@[simp] theorem takeNet_net (p : Packet) : (s.takeNet p).net = s.net.erase p := rfl
@[simp] theorem putNet_net (p : Packet) : (s.putNet p).net = s.net ++ [p] := rfl
@[simp] theorem reply1_net (ps : List Packet) : (s.reply1 ps).net = s.net ++ ps := rfl

/-! ### Reads after writes -/

@[simp] theorem region_setRegion_self (l : Nat) (g : Region) : (s.setRegion l g).region l = g := by simp [State.region]
theorem region_setRegion_ne (l j : Nat) (g : Region) (h : j ≠ l) : (s.setRegion l g).region j = s.region j := by
  simp [State.region, mgetD_mset_ne _ _ _ _ _ h]

@[simp] theorem setCore_cores (c : Nat) (k : Core) : (s.setCore c k).cores = mset s.cores c { k with outbox := [], check := false } := by
  unfold State.setCore; dsimp only; split <;> rfl
@[simp] theorem setCore_records (c : Nat) (k : Core) :
    (s.setCore c k).records = s.records ++ k.outbox.map fun r => { r with src := c } := by
  unfold State.setCore; dsimp only; split <;> rfl
theorem setCore_tmpl (c l : Nat) (k : Core) : ((s.setCore c k).region l).tmpl = (s.region l).tmpl := by
  unfold State.setCore
  dsimp only
  split
  · by_cases h : l = regionOfCore c
    · subst h; simp [State.region]
    · rw [region_setRegion_ne _ _ _ _ h]; rfl
  · rfl
theorem setCore_part (c l : Nat) (k : Core) : ((s.setCore c k).region l).part = (s.region l).part := by
  unfold State.setCore
  dsimp only
  split
  · by_cases h : l = regionOfCore c
    · subst h; simp [State.region]
    · rw [region_setRegion_ne _ _ _ _ h]; rfl
  · rfl
/-- SUSPECT of a region after a core's state is replaced (R547). -/
theorem setCore_suspect (c l : Nat) (k : Core) :
    ((s.setCore c k).region l).suspect = (if k.check = true ∧ l = regionOfCore c then true else (s.region l).suspect) := by
  unfold State.setCore
  dsimp only
  split
  · by_cases h : l = regionOfCore c
    · subst h; simp [*]
    · rw [region_setRegion_ne _ _ _ _ h]; simp [h, State.region]
  · simp [*, State.region]

@[simp] theorem core_setCore_self (c : Nat) (k : Core) : (s.setCore c k).core c = { k with outbox := [], check := false } := by
  simp [State.core]
theorem core_setCore_ne (c d : Nat) (k : Core) (h : d ≠ c) : (s.setCore c k).core d = s.core d := by
  simp [State.core, mget_mset_ne _ _ _ _ h, setCore_tmpl]
@[simp] theorem core_reach (t c : Nat) : (s.reach t).core c = s.core c := rfl
@[simp] theorem core_takeFree (n c : Nat) : (s.takeFree n).core c = s.core c := rfl
@[simp] theorem core_record (r : Rec) (c : Nat) : (s.record r).core c = s.core c := rfl
@[simp] theorem core_answer (st : Nat) (ws : List Word) (c : Nat) : (s.answer st ws).core c = s.core c := rfl
@[simp] theorem core_putNet (p : Packet) (c : Nat) : (s.putNet p).core c = s.core c := rfl
@[simp] theorem core_takeNet (p : Packet) (c : Nat) : (s.takeNet p).core c = s.core c := rfl
@[simp] theorem region_reach (t l : Nat) : (s.reach t).region l = s.region l := rfl

@[simp] theorem stack_setStack_self (n : Nat) (k : Stack) : (s.setStack n k).stack n = k := by simp [State.stack]
theorem stack_setStack_ne (n m : Nat) (k : Stack) (h : m ≠ n) : (s.setStack n k).stack m = s.stack m := by
  simp [State.stack, mgetD_mset_ne _ _ _ _ _ h]
@[simp] theorem stack_reach (t n : Nat) : (s.reach t).stack n = s.stack n := rfl
@[simp] theorem router_setRouter_self (n : Nat) (k : Router) : (s.setRouter n k).router n = k := by simp [State.router]
theorem router_setRouter_ne (n m : Nat) (k : Router) (h : m ≠ n) : (s.setRouter n k).router m = s.router m := by
  simp [State.router, mget_mset_ne _ _ _ _ h]
@[simp] theorem port_setPort_self (n : Nat) (k : Port) : (s.setPort n k).port n = k := by simp [State.port]
theorem port_setPort_ne (n m : Nat) (k : Port) (h : m ≠ n) : (s.setPort n k).port m = s.port m := by
  simp [State.port, mgetD_mset_ne _ _ _ _ _ h]
@[simp] theorem hpart_setPart_self (n : Nat) (k : Partn) : (s.setPart n k).hpart n = some k := by simp [State.hpart, State.setPart]
theorem hpart_setPart_ne (n m : Nat) (k : Partn) (h : m ≠ n) : (s.setPart n k).hpart m = s.hpart m := by
  simp [State.hpart, State.setPart, mget_mset_ne _ _ _ _ h]
@[simp] theorem ring_setRing_self (n : Nat) (k : Ring) : (s.setRing n k).ring n = some k := by simp [State.ring, State.setRing]
theorem ring_setRing_ne (n m : Nat) (k : Ring) (h : m ≠ n) : (s.setRing n k).ring m = s.ring m := by
  simp [State.ring, State.setRing, mget_mset_ne _ _ _ _ h]
@[simp] theorem qp_setQp_self (n : Nat) (k : Qp) : (s.setQp n k).qp n = some k := by simp [State.qp, State.setQp]
theorem qp_setQp_ne (n m : Nat) (k : Qp) (h : m ≠ n) : (s.setQp n k).qp m = s.qp m := by
  simp [State.qp, State.setQp, mget_mset_ne _ _ _ _ h]

/-! ### Registers -/

theorem regRaw_mset_self (t : List RegDef) (m : Map Word) (o : Nat) (w : Word) : regRaw t (mset m o w) o = w := by simp [regRaw]
theorem regRaw_mset_ne (t : List RegDef) (m : Map Word) (o p : Nat) (w : Word) (h : p ≠ o) :
    regRaw t (mset m o w) p = regRaw t m p := by simp [regRaw, mgetD_mset_ne _ _ _ _ _ h]

@[simp] theorem wReg_wSet_self (o : Nat) (w : Word) : wReg (wSet s o w) o = w := by simp [wReg, wSet, regRaw]
theorem wReg_wSet_ne (o p : Nat) (w : Word) (h : p ≠ o) : wReg (wSet s o w) p = wReg s p := by
  simp [wReg, wSet, regRaw_mset_ne _ _ _ _ _ h]
@[simp] theorem wReg_wFlag_self (o : Nat) (w : Word) : wReg (wFlag s o w) o = wReg s o ||| w := by
  simp [wReg, wFlag, regSetBits, regUpd, regRaw_mset_self]
theorem wReg_wFlag_ne (o p : Nat) (w : Word) (h : p ≠ o) : wReg (wFlag s o w) p = wReg s p := by
  simp [wReg, wFlag, regSetBits, regUpd, regRaw_mset_ne _ _ _ _ _ h]
@[simp] theorem wReg_wFld_self (o hi lo v : Nat) : wReg (wFld s o hi lo v) o = setFld (wReg s o) hi lo v := by
  simp [wReg, wFld, regSetFld, regUpd, regRaw_mset_self]
theorem wReg_wFld_ne (o hi lo v p : Nat) (h : p ≠ o) : wReg (wFld s o hi lo v) p = wReg s p := by
  simp [wReg, wFld, regSetFld, regUpd, regRaw_mset_ne _ _ _ _ _ h]
@[simp] theorem wReg_wCount_self (o hi lo n : Nat) :
    wReg (wCount s o hi lo n) o = setFld (wReg s o) hi lo (satTo (2 ^ (hi + 1 - lo) - 1) (fld (wReg s o) hi lo + n)) := by
  simp [wReg, wCount, regCount, regUpd, regRaw_mset_self]
theorem wReg_wCount_ne (o hi lo n p : Nat) (h : p ≠ o) : wReg (wCount s o hi lo n) p = wReg s p := by
  simp [wReg, wCount, regCount, regUpd, regRaw_mset_ne _ _ _ _ _ h]

variable (c : Core)
@[simp] theorem cReg_cSet_self (o : Nat) (w : Word) : cReg (cSet c o w) o = w := by simp [cReg, cSet, regRaw]
theorem cReg_cSet_ne (o p : Nat) (w : Word) (h : p ≠ o) : cReg (cSet c o w) p = cReg c p := by
  simp [cReg, cSet, regRaw_mset_ne _ _ _ _ _ h]
@[simp] theorem cReg_cFlag_self (o : Nat) (w : Word) : cReg (cFlag c o w) o = cReg c o ||| w := by
  simp [cReg, cFlag, regSetBits, regUpd, regRaw_mset_self]
theorem cReg_cFlag_ne (o p : Nat) (w : Word) (h : p ≠ o) : cReg (cFlag c o w) p = cReg c p := by
  simp [cReg, cFlag, regSetBits, regUpd, regRaw_mset_ne _ _ _ _ _ h]
@[simp] theorem cReg_cFld_self (o hi lo v : Nat) : cReg (cFld c o hi lo v) o = setFld (cReg c o) hi lo v := by
  simp [cReg, cFld, regSetFld, regUpd, regRaw_mset_self]
theorem cReg_cFld_ne (o hi lo v p : Nat) (h : p ≠ o) : cReg (cFld c o hi lo v) p = cReg c p := by
  simp [cReg, cFld, regSetFld, regUpd, regRaw_mset_ne _ _ _ _ _ h]
@[simp] theorem cReg_cCount_self (o hi lo n : Nat) :
    cReg (cCount c o hi lo n) o = setFld (cReg c o) hi lo (satTo (2 ^ (hi + 1 - lo) - 1) (fld (cReg c o) hi lo + n)) := by
  simp [cReg, cCount, regCount, regUpd, regRaw_mset_self]
theorem cReg_cCount_ne (o hi lo n p : Nat) (h : p ≠ o) : cReg (cCount c o hi lo n) p = cReg c p := by
  simp [cReg, cCount, regCount, regUpd, regRaw_mset_ne _ _ _ _ _ h]

end Sys2Proof.Machine
end

