-- ==== Sys2Proof/Laws/Cores.lean ====
section
/-! SUPPORT. Updates of one core: what they leave alone, and what a general register reads afterwards. -/

namespace Sys2Proof.Machine

/-! ### Only one core changes -/

theorem onlyCore_refl (c : Nat) (s : State) : onlyCore c s s :=
  ⟨fun _ _ => rfl, fun _ _ => rfl, ⟨[], by simp⟩, Nat.le_refl _, rfl⟩

theorem onlyCore_trans {c : Nat} {s t u : State} (h1 : onlyCore c s t) (h2 : onlyCore c t u) : onlyCore c s u := by
  obtain ⟨a1, b1, ⟨r1, e1⟩, n1, f1⟩ := h1
  obtain ⟨a2, b2, ⟨r2, e2⟩, n2, f2⟩ := h2
  refine ⟨fun d h => (a2 d h).trans (a1 d h), fun l h => (b2 l h).trans (b1 l h), ⟨r1 ++ r2, by rw [e2, e1, List.append_assoc]⟩,
    Nat.le_trans n1 n2, ?_⟩
  rw [← f1, ← f2]

theorem onlyCore_reach (c : Nat) (s : State) (t : Nat) : onlyCore c s (s.reach t) :=
  ⟨fun _ _ => rfl, fun _ _ => rfl, ⟨[], by simp⟩, Nat.le_max_left _ _, rfl⟩

theorem onlyCore_takeFree (c : Nat) (s : State) (n : Nat) : onlyCore c s (s.takeFree n) :=
  ⟨fun _ _ => rfl, fun _ _ => rfl, ⟨[], by simp⟩, Nat.le_refl _, rfl⟩

theorem onlyCore_setCore (c : Nat) (s : State) (k : Core) : onlyCore c s (s.setCore c k) := by
  refine ⟨fun d h => core_setCore_ne s c d k h, fun l h => ?_, ⟨_, setCore_records s c k⟩, by simp, ?_⟩
  · unfold State.setCore
    dsimp only
    split
    · rw [region_setRegion_ne _ _ _ _ h]; rfl
    · rfl
  · unfold State.setCore
    dsimp only
    split <;> rfl

/-! ### Fields of cores that hold the same data -/

theorem data_regs {a b : Core} (h : dataOf a = dataOf b) : a.regs = b.regs := by have e := congrArg Core.regs h; exact e
theorem data_shadow {a b : Core} (h : dataOf a = dataOf b) : a.shadow = b.shadow := by have e := congrArg Core.shadow h; exact e
theorem data_gpr {a b : Core} (h : dataOf a = dataOf b) : a.gpr = b.gpr := by have e := congrArg Core.gpr h; exact e
theorem data_pend {a b : Core} (h : dataOf a = dataOf b) : a.pend = b.pend := by have e := congrArg Core.pend h; exact e
theorem data_issued {a b : Core} (h : dataOf a = dataOf b) : a.issued = b.issued := by have e := congrArg Core.issued h; exact e
theorem data_rows {a b : Core} (h : dataOf a = dataOf b) : a.rows = b.rows := by have e := congrArg Core.rows h; exact e
theorem data_spad {a b : Core} (h : dataOf a = dataOf b) : a.spad = b.spad := by have e := congrArg Core.spad h; exact e
theorem data_acc {a b : Core} (h : dataOf a = dataOf b) : a.acc = b.acc := by have e := congrArg Core.acc h; exact e
theorem data_accTarn {a b : Core} (h : dataOf a = dataOf b) : a.accTarn = b.accTarn := by have e := congrArg Core.accTarn h; exact e
theorem data_planes {a b : Core} (h : dataOf a = dataOf b) : a.planes = b.planes := by have e := congrArg Core.planes h; exact e
theorem data_mops {a b : Core} (h : dataOf a = dataOf b) : a.mops = b.mops := by have e := congrArg Core.mops h; exact e
theorem data_laneEnd {a b : Core} (h : dataOf a = dataOf b) : a.laneEnd = b.laneEnd := by have e := congrArg Core.laneEnd h; exact e
theorem data_tiles {a b : Core} (h : dataOf a = dataOf b) : a.tiles = b.tiles := by have e := congrArg Core.tiles h; exact e
theorem data_tileStat {a b : Core} (h : dataOf a = dataOf b) : a.tileStat = b.tileStat := by have e := congrArg Core.tileStat h; exact e
theorem data_tileTarn {a b : Core} (h : dataOf a = dataOf b) : a.tileTarn = b.tileTarn := by have e := congrArg Core.tileTarn h; exact e
theorem data_masks {a b : Core} (h : dataOf a = dataOf b) : a.masks = b.masks := by have e := congrArg Core.masks h; exact e
theorem data_maskTarn {a b : Core} (h : dataOf a = dataOf b) : a.maskTarn = b.maskTarn := by have e := congrArg Core.maskTarn h; exact e
theorem data_vops {a b : Core} (h : dataOf a = dataOf b) : a.vops = b.vops := by have e := congrArg Core.vops h; exact e
theorem data_vloads {a b : Core} (h : dataOf a = dataOf b) : a.vloads = b.vloads := by have e := congrArg Core.vloads h; exact e
theorem data_unitFree {a b : Core} (h : dataOf a = dataOf b) : a.unitFree = b.unitFree := by have e := congrArg Core.unitFree h; exact e
theorem data_flagPend {a b : Core} (h : dataOf a = dataOf b) : a.flagPend = b.flagPend := by have e := congrArg Core.flagPend h; exact e
theorem data_hqs {a b : Core} (h : dataOf a = dataOf b) : a.hqs = b.hqs := by have e := congrArg Core.hqs h; exact e
theorem data_hqCyc {a b : Core} (h : dataOf a = dataOf b) : a.hqCyc = b.hqCyc := by have e := congrArg Core.hqCyc h; exact e
theorem data_hqPend {a b : Core} (h : dataOf a = dataOf b) : a.hqPend = b.hqPend := by have e := congrArg Core.hqPend h; exact e
theorem data_rcvdPend {a b : Core} (h : dataOf a = dataOf b) : a.rcvdPend = b.rcvdPend := by have e := congrArg Core.rcvdPend h; exact e
theorem data_fills {a b : Core} (h : dataOf a = dataOf b) : a.fills = b.fills := by have e := congrArg Core.fills h; exact e
theorem data_rdyPend {a b : Core} (h : dataOf a = dataOf b) : a.rdyPend = b.rdyPend := by have e := congrArg Core.rdyPend h; exact e
theorem data_flitQ {a b : Core} (h : dataOf a = dataOf b) : a.flitQ = b.flitQ := by have e := congrArg Core.flitQ h; exact e
theorem data_tokQ {a b : Core} (h : dataOf a = dataOf b) : a.tokQ = b.tokQ := by have e := congrArg Core.tokQ h; exact e
theorem data_localTok {a b : Core} (h : dataOf a = dataOf b) : a.localTok = b.localTok := by have e := congrArg Core.localTok h; exact e
theorem data_steerOut {a b : Core} (h : dataOf a = dataOf b) : a.steerOut = b.steerOut := by have e := congrArg Core.steerOut h; exact e
theorem data_outs {a b : Core} (h : dataOf a = dataOf b) : a.outs = b.outs := by have e := congrArg Core.outs h; exact e
theorem data_ins {a b : Core} (h : dataOf a = dataOf b) : a.ins = b.ins := by have e := congrArg Core.ins h; exact e
theorem data_tokin {a b : Core} (h : dataOf a = dataOf b) : a.tokin = b.tokin := by have e := congrArg Core.tokin h; exact e
theorem data_slots {a b : Core} (h : dataOf a = dataOf b) : a.slots = b.slots := by have e := congrArg Core.slots h; exact e
theorem data_launchAt {a b : Core} (h : dataOf a = dataOf b) : a.launchAt = b.launchAt := by have e := congrArg Core.launchAt h; exact e
theorem data_awaiting {a b : Core} (h : dataOf a = dataOf b) : a.awaiting = b.awaiting := by have e := congrArg Core.awaiting h; exact e
theorem data_sectNext {a b : Core} (h : dataOf a = dataOf b) : a.sectNext = b.sectNext := by have e := congrArg Core.sectNext h; exact e
theorem data_swapDue {a b : Core} (h : dataOf a = dataOf b) : a.swapDue = b.swapDue := by have e := congrArg Core.swapDue h; exact e
theorem data_eps {a b : Core} (h : dataOf a = dataOf b) : a.eps = b.eps := by have e := congrArg Core.eps h; exact e
theorem data_reqs {a b : Core} (h : dataOf a = dataOf b) : a.reqs = b.reqs := by have e := congrArg Core.reqs h; exact e
theorem data_nextTag {a b : Core} (h : dataOf a = dataOf b) : a.nextTag = b.nextTag := by have e := congrArg Core.nextTag h; exact e
theorem data_fenceAt {a b : Core} (h : dataOf a = dataOf b) : a.fenceAt = b.fenceAt := by have e := congrArg Core.fenceAt h; exact e
theorem data_held {a b : Core} (h : dataOf a = dataOf b) : a.held = b.held := by have e := congrArg Core.held h; exact e
theorem data_recs {a b : Core} (h : dataOf a = dataOf b) : a.recs = b.recs := by have e := congrArg Core.recs h; exact e
theorem data_lastRec {a b : Core} (h : dataOf a = dataOf b) : a.lastRec = b.lastRec := by have e := congrArg Core.lastRec h; exact e
theorem data_missQ {a b : Core} (h : dataOf a = dataOf b) : a.missQ = b.missQ := by have e := congrArg Core.missQ h; exact e
theorem data_xfers {a b : Core} (h : dataOf a = dataOf b) : a.xfers = b.xfers := by have e := congrArg Core.xfers h; exact e
theorem data_pour {a b : Core} (h : dataOf a = dataOf b) : a.pour = b.pour := by have e := congrArg Core.pour h; exact e
theorem data_fenced {a b : Core} (h : dataOf a = dataOf b) : a.fenced = b.fenced := by have e := congrArg Core.fenced h; exact e
theorem data_inReset {a b : Core} (h : dataOf a = dataOf b) : a.inReset = b.inReset := by have e := congrArg Core.inReset h; exact e

theorem dataSet_regs {a b : Core} (h : dataOf a = dataOf b) (x : Map Word) :
    dataOf { a with regs := x } = dataOf { b with regs := x } := by
  have e := congrArg (fun z : Core => { z with regs := x }) h; exact e
theorem dataSet_shadow {a b : Core} (h : dataOf a = dataOf b) (x : Map Word) :
    dataOf { a with shadow := x } = dataOf { b with shadow := x } := by
  have e := congrArg (fun z : Core => { z with shadow := x }) h; exact e
theorem dataSet_gpr {a b : Core} (h : dataOf a = dataOf b) (x : Map PWord) :
    dataOf { a with gpr := x } = dataOf { b with gpr := x } := by
  have e := congrArg (fun z : Core => { z with gpr := x }) h; exact e
theorem dataSet_pend {a b : Core} (h : dataOf a = dataOf b) (x : List ScalarRes) :
    dataOf { a with pend := x } = dataOf { b with pend := x } := by
  have e := congrArg (fun z : Core => { z with pend := x }) h; exact e
theorem dataSet_issued {a b : Core} (h : dataOf a = dataOf b) (x : Nat) :
    dataOf { a with issued := x } = dataOf { b with issued := x } := by
  have e := congrArg (fun z : Core => { z with issued := x }) h; exact e
theorem dataSet_rows {a b : Core} (h : dataOf a = dataOf b) (x : Map (List Byte)) :
    dataOf { a with rows := x } = dataOf { b with rows := x } := by
  have e := congrArg (fun z : Core => { z with rows := x }) h; exact e
theorem dataSet_spad {a b : Core} (h : dataOf a = dataOf b) (x : Spad) :
    dataOf { a with spad := x } = dataOf { b with spad := x } := by
  have e := congrArg (fun z : Core => { z with spad := x }) h; exact e
theorem dataSet_acc {a b : Core} (h : dataOf a = dataOf b) (x : Map (List PWord)) :
    dataOf { a with acc := x } = dataOf { b with acc := x } := by
  have e := congrArg (fun z : Core => { z with acc := x }) h; exact e
theorem dataSet_accTarn {a b : Core} (h : dataOf a = dataOf b) (x : BitVec 8) :
    dataOf { a with accTarn := x } = dataOf { b with accTarn := x } := by
  have e := congrArg (fun z : Core => { z with accTarn := x }) h; exact e
theorem dataSet_planes {a b : Core} (h : dataOf a = dataOf b) (x : Map Plane) :
    dataOf { a with planes := x } = dataOf { b with planes := x } := by
  have e := congrArg (fun z : Core => { z with planes := x }) h; exact e
theorem dataSet_mops {a b : Core} (h : dataOf a = dataOf b) (x : List MatOp) :
    dataOf { a with mops := x } = dataOf { b with mops := x } := by
  have e := congrArg (fun z : Core => { z with mops := x }) h; exact e
theorem dataSet_laneEnd {a b : Core} (h : dataOf a = dataOf b) (x : Map Nat) :
    dataOf { a with laneEnd := x } = dataOf { b with laneEnd := x } := by
  have e := congrArg (fun z : Core => { z with laneEnd := x }) h; exact e
theorem dataSet_tiles {a b : Core} (h : dataOf a = dataOf b) (x : Map (List PWord)) :
    dataOf { a with tiles := x } = dataOf { b with tiles := x } := by
  have e := congrArg (fun z : Core => { z with tiles := x }) h; exact e
theorem dataSet_tileStat {a b : Core} (h : dataOf a = dataOf b) (x : Map (List Nat)) :
    dataOf { a with tileStat := x } = dataOf { b with tileStat := x } := by
  have e := congrArg (fun z : Core => { z with tileStat := x }) h; exact e
theorem dataSet_tileTarn {a b : Core} (h : dataOf a = dataOf b) (x : BitVec 32) :
    dataOf { a with tileTarn := x } = dataOf { b with tileTarn := x } := by
  have e := congrArg (fun z : Core => { z with tileTarn := x }) h; exact e
theorem dataSet_masks {a b : Core} (h : dataOf a = dataOf b) (x : Map (BitVec 256)) :
    dataOf { a with masks := x } = dataOf { b with masks := x } := by
  have e := congrArg (fun z : Core => { z with masks := x }) h; exact e
theorem dataSet_maskTarn {a b : Core} (h : dataOf a = dataOf b) (x : BitVec 8) :
    dataOf { a with maskTarn := x } = dataOf { b with maskTarn := x } := by
  have e := congrArg (fun z : Core => { z with maskTarn := x }) h; exact e
theorem dataSet_vops {a b : Core} (h : dataOf a = dataOf b) (x : List VecRes) :
    dataOf { a with vops := x } = dataOf { b with vops := x } := by
  have e := congrArg (fun z : Core => { z with vops := x }) h; exact e
theorem dataSet_vloads {a b : Core} (h : dataOf a = dataOf b) (x : List VecLoad) :
    dataOf { a with vloads := x } = dataOf { b with vloads := x } := by
  have e := congrArg (fun z : Core => { z with vloads := x }) h; exact e
theorem dataSet_unitFree {a b : Core} (h : dataOf a = dataOf b) (x : Map Nat) :
    dataOf { a with unitFree := x } = dataOf { b with unitFree := x } := by
  have e := congrArg (fun z : Core => { z with unitFree := x }) h; exact e
theorem dataSet_flagPend {a b : Core} (h : dataOf a = dataOf b) (x : List (Nat × Word)) :
    dataOf { a with flagPend := x } = dataOf { b with flagPend := x } := by
  have e := congrArg (fun z : Core => { z with flagPend := x }) h; exact e
theorem dataSet_hqs {a b : Core} (h : dataOf a = dataOf b) (x : Map (List Word)) :
    dataOf { a with hqs := x } = dataOf { b with hqs := x } := by
  have e := congrArg (fun z : Core => { z with hqs := x }) h; exact e
theorem dataSet_hqCyc {a b : Core} (h : dataOf a = dataOf b) (x : Map (Nat × Nat × Nat)) :
    dataOf { a with hqCyc := x } = dataOf { b with hqCyc := x } := by
  have e := congrArg (fun z : Core => { z with hqCyc := x }) h; exact e
theorem dataSet_hqPend {a b : Core} (h : dataOf a = dataOf b) (x : List HqPush) :
    dataOf { a with hqPend := x } = dataOf { b with hqPend := x } := by
  have e := congrArg (fun z : Core => { z with hqPend := x }) h; exact e
theorem dataSet_rcvdPend {a b : Core} (h : dataOf a = dataOf b) (x : List (Nat × Nat)) :
    dataOf { a with rcvdPend := x } = dataOf { b with rcvdPend := x } := by
  have e := congrArg (fun z : Core => { z with rcvdPend := x }) h; exact e
theorem dataSet_fills {a b : Core} (h : dataOf a = dataOf b) (x : Map Fill) :
    dataOf { a with fills := x } = dataOf { b with fills := x } := by
  have e := congrArg (fun z : Core => { z with fills := x }) h; exact e
theorem dataSet_rdyPend {a b : Core} (h : dataOf a = dataOf b) (x : List (Nat × Nat × Fill)) :
    dataOf { a with rdyPend := x } = dataOf { b with rdyPend := x } := by
  have e := congrArg (fun z : Core => { z with rdyPend := x }) h; exact e
theorem dataSet_flitQ {a b : Core} (h : dataOf a = dataOf b) (x : Map (List Flit)) :
    dataOf { a with flitQ := x } = dataOf { b with flitQ := x } := by
  have e := congrArg (fun z : Core => { z with flitQ := x }) h; exact e
theorem dataSet_tokQ {a b : Core} (h : dataOf a = dataOf b) (x : Map (List Word)) :
    dataOf { a with tokQ := x } = dataOf { b with tokQ := x } := by
  have e := congrArg (fun z : Core => { z with tokQ := x }) h; exact e
theorem dataSet_localTok {a b : Core} (h : dataOf a = dataOf b) (x : Map (List Word)) :
    dataOf { a with localTok := x } = dataOf { b with localTok := x } := by
  have e := congrArg (fun z : Core => { z with localTok := x }) h; exact e
theorem dataSet_steerOut {a b : Core} (h : dataOf a = dataOf b) (x : Map Flit) :
    dataOf { a with steerOut := x } = dataOf { b with steerOut := x } := by
  have e := congrArg (fun z : Core => { z with steerOut := x }) h; exact e
theorem dataSet_outs {a b : Core} (h : dataOf a = dataOf b) (x : Map OutStream) :
    dataOf { a with outs := x } = dataOf { b with outs := x } := by
  have e := congrArg (fun z : Core => { z with outs := x }) h; exact e
theorem dataSet_ins {a b : Core} (h : dataOf a = dataOf b) (x : Map InStream) :
    dataOf { a with ins := x } = dataOf { b with ins := x } := by
  have e := congrArg (fun z : Core => { z with ins := x }) h; exact e
theorem dataSet_tokin {a b : Core} (h : dataOf a = dataOf b) (x : List Word) :
    dataOf { a with tokin := x } = dataOf { b with tokin := x } := by
  have e := congrArg (fun z : Core => { z with tokin := x }) h; exact e
theorem dataSet_slots {a b : Core} (h : dataOf a = dataOf b) (x : Map (BitVec 64)) :
    dataOf { a with slots := x } = dataOf { b with slots := x } := by
  have e := congrArg (fun z : Core => { z with slots := x }) h; exact e
theorem dataSet_launchAt {a b : Core} (h : dataOf a = dataOf b) (x : Option Nat) :
    dataOf { a with launchAt := x } = dataOf { b with launchAt := x } := by
  have e := congrArg (fun z : Core => { z with launchAt := x }) h; exact e
theorem dataSet_awaiting {a b : Core} (h : dataOf a = dataOf b) (x : Bool) :
    dataOf { a with awaiting := x } = dataOf { b with awaiting := x } := by
  have e := congrArg (fun z : Core => { z with awaiting := x }) h; exact e
theorem dataSet_sectNext {a b : Core} (h : dataOf a = dataOf b) (x : Nat) :
    dataOf { a with sectNext := x } = dataOf { b with sectNext := x } := by
  have e := congrArg (fun z : Core => { z with sectNext := x }) h; exact e
theorem dataSet_swapDue {a b : Core} (h : dataOf a = dataOf b) (x : Bool) :
    dataOf { a with swapDue := x } = dataOf { b with swapDue := x } := by
  have e := congrArg (fun z : Core => { z with swapDue := x }) h; exact e
theorem dataSet_eps {a b : Core} (h : dataOf a = dataOf b) (x : Map Endpoint) :
    dataOf { a with eps := x } = dataOf { b with eps := x } := by
  have e := congrArg (fun z : Core => { z with eps := x }) h; exact e
theorem dataSet_reqs {a b : Core} (h : dataOf a = dataOf b) (x : List OutReq) :
    dataOf { a with reqs := x } = dataOf { b with reqs := x } := by
  have e := congrArg (fun z : Core => { z with reqs := x }) h; exact e
theorem dataSet_nextTag {a b : Core} (h : dataOf a = dataOf b) (x : Nat) :
    dataOf { a with nextTag := x } = dataOf { b with nextTag := x } := by
  have e := congrArg (fun z : Core => { z with nextTag := x }) h; exact e
theorem dataSet_fenceAt {a b : Core} (h : dataOf a = dataOf b) (x : Option Nat) :
    dataOf { a with fenceAt := x } = dataOf { b with fenceAt := x } := by
  have e := congrArg (fun z : Core => { z with fenceAt := x }) h; exact e
theorem dataSet_held {a b : Core} (h : dataOf a = dataOf b) (x : List (Packet × Nat × Nat)) :
    dataOf { a with held := x } = dataOf { b with held := x } := by
  have e := congrArg (fun z : Core => { z with held := x }) h; exact e
theorem dataSet_recs {a b : Core} (h : dataOf a = dataOf b) (x : List Rec) :
    dataOf { a with recs := x } = dataOf { b with recs := x } := by
  have e := congrArg (fun z : Core => { z with recs := x }) h; exact e
theorem dataSet_lastRec {a b : Core} (h : dataOf a = dataOf b) (x : Option Nat) :
    dataOf { a with lastRec := x } = dataOf { b with lastRec := x } := by
  have e := congrArg (fun z : Core => { z with lastRec := x }) h; exact e
theorem dataSet_missQ {a b : Core} (h : dataOf a = dataOf b) (x : List Word) :
    dataOf { a with missQ := x } = dataOf { b with missQ := x } := by
  have e := congrArg (fun z : Core => { z with missQ := x }) h; exact e
theorem dataSet_xfers {a b : Core} (h : dataOf a = dataOf b) (x : Map Xfer) :
    dataOf { a with xfers := x } = dataOf { b with xfers := x } := by
  have e := congrArg (fun z : Core => { z with xfers := x }) h; exact e
theorem dataSet_pour {a b : Core} (h : dataOf a = dataOf b) (x : PourRx) :
    dataOf { a with pour := x } = dataOf { b with pour := x } := by
  have e := congrArg (fun z : Core => { z with pour := x }) h; exact e
theorem dataSet_fenced {a b : Core} (h : dataOf a = dataOf b) (x : Bool) :
    dataOf { a with fenced := x } = dataOf { b with fenced := x } := by
  have e := congrArg (fun z : Core => { z with fenced := x }) h; exact e
theorem dataSet_inReset {a b : Core} (h : dataOf a = dataOf b) (x : Bool) :
    dataOf { a with inReset := x } = dataOf { b with inReset := x } := by
  have e := congrArg (fun z : Core => { z with inReset := x }) h; exact e

/-! ### General registers -/

/-- The fold by which a read picks the latest result never goes beyond the cycle of the read. -/
theorem gpr_fold_le (l : List ScalarRes) (r t : Nat) (b : Nat × PWord) (h : b.1 ≤ t) :
    (l.foldl (fun (best : Nat × PWord) p => if p.reg = r ∧ p.due ≤ t ∧ best.1 ≤ p.due then (p.due, p.val) else best) b).1 ≤ t := by
  induction l generalizing b with
  | nil => exact h
  | cons p q ih =>
    simp only [List.foldl_cons]
    apply ih
    split
    · rename_i h2; exact h2.2.1
    · exact h

/-- What a general register reads depends on the registers and the results on their way alone. -/
theorem gprAt_congr (c d : Core) (r t : Nat) (h1 : c.pend = d.pend) (h2 : c.gpr = d.gpr) : gprAt c r t = gprAt d r t := by
  simp only [gprAt, h1, h2]

/-- A result readable from `due` on is what its register reads in that cycle. -/
theorem gprAt_result_self (c : Core) (r due : Nat) (v : PWord) (h : r ≠ 0) : gprAt (gprResult c r due v) r due = v := by
  simp only [gprResult, if_neg h, gprAt, List.foldl_append, List.foldl_cons, List.foldl_nil]
  rw [if_pos ⟨trivial, Nat.le_refl _, gpr_fold_le _ _ _ _ (Nat.zero_le _)⟩]

/-- Other registers, and earlier cycles, read as before. -/
theorem gprAt_result_ne (c : Core) (r due q t : Nat) (v : PWord) (h : q ≠ r ∨ t < due ∨ r = 0) :
    gprAt (gprResult c r due v) q t = gprAt c q t := by
  by_cases hr : r = 0
  · simp [gprResult, hr]
  · simp only [gprResult, if_neg hr, gprAt, List.foldl_append, List.foldl_cons, List.foldl_nil]
    by_cases hq : q = 0
    · simp [hq]
    · rw [if_neg hq, if_neg hq, if_neg (by rintro ⟨a, b, -⟩; omega)]

@[simp] theorem gprResult_gpr (c : Core) (r due : Nat) (v : PWord) : (gprResult c r due v).gpr = c.gpr := by
  unfold gprResult; split <;> rfl

theorem dataOf_gprResult (c : Core) (r due : Nat) (v : PWord) : dataOf { gprResult c r due v with pend := c.pend } = dataOf c := by
  unfold gprResult; split <;> rfl

/-! ### Where issue stands -/

theorem goTo_data (c : Core) (pc next : Nat) (b : Bool) : dataOf (goTo c pc next b) = dataOf c := by
  unfold goTo; dsimp only; split <;> rfl
theorem goTo_pend (c : Core) (pc next : Nat) (b : Bool) : (goTo c pc next b).pend = c.pend := by
  unfold goTo; dsimp only; split <;> rfl
theorem goTo_gpr (c : Core) (pc next : Nat) (b : Bool) : (goTo c pc next b).gpr = c.gpr := by
  unfold goTo; dsimp only; split <;> rfl
theorem goTo_pc (c : Core) (pc next : Nat) (b : Bool) : (goTo c pc next b).pc = pc % 2 ^ 22 := by
  unfold goTo; dsimp only; split <;> rfl
theorem goTo_nextIssue (c : Core) (pc next : Nat) (b : Bool) : (goTo c pc next b).nextIssue = next := by
  unfold goTo; dsimp only; split <;> rfl
theorem goTo_loops (c : Core) (pc next : Nat) (b : Bool) : (goTo c pc next b).loops = c.loops := by
  unfold goTo; dsimp only; split <;> rfl
theorem goTo_idle (c : Core) (pc next : Nat) (b : Bool) :
    (goTo c pc next b).idle = (c.idle || b || decide (spadEnd ≤ pc % 2 ^ 22)) := by
  unfold goTo; dsimp only; split <;> rename_i h
  · simp only [Bool.or_assoc, h, Bool.or_true]
  · simp only [Bool.or_assoc]; simp only [Bool.not_eq_true] at h; rw [h, Bool.or_false]

/-- Issue going on in sequence touches nothing but where issue stands. -/
theorem goOn_data (c : Core) (t n : Nat) : dataOf (goOn c t n) = dataOf c := by
  unfold goOn; dsimp only; split <;> (rw [goTo_data]; rfl)
theorem goOn_pend (c : Core) (t n : Nat) : (goOn c t n).pend = c.pend := by
  unfold goOn; dsimp only; (split; all_goals (rw [goTo_pend]; try rfl))
theorem goOn_gpr (c : Core) (t n : Nat) : (goOn c t n).gpr = c.gpr := by
  unfold goOn; dsimp only; (split; all_goals (rw [goTo_gpr]; try rfl))
theorem goOn_pc (c : Core) (t n : Nat) : (goOn c t n).pc = (seqNext c.pc c.loops).1 % 2 ^ 22 := by
  unfold goOn; dsimp only; (split; all_goals rw [goTo_pc])
theorem goOn_loops (c : Core) (t n : Nat) : (goOn c t n).loops = (seqNext c.pc c.loops).2.1 := by
  unfold goOn; dsimp only; (split; all_goals (rw [goTo_loops]; try rfl))

end Sys2Proof.Machine
end

