-- ==== Sys2Proof/Laws/Memory.lean ====
section
/-! SUPPORT. Byte memories as lists of cells: the canonical form is kept by every write, holds at reset, and a byte reads as it was last
written. -/

namespace Sys2Proof.Machine

/-- The canonical form, entry by entry: every address of the rest is higher, no listed byte is one that unlisted bytes read as. -/
theorem cellsWf_cons (a : Nat) (v : Byte) (t : List Host.Cell) :
    cellsWf ((a, v) :: t) = true ↔ v ≠ unlistedByte ∧ (∀ b w u, t = (b, w) :: u → a < b) ∧ cellsWf t = true := by
  cases t with
  | nil => simp [cellsWf]
  | cons e u =>
    obtain ⟨b, w⟩ := e
    simp only [cellsWf, Bool.and_eq_true, bne_iff_ne, ne_eq, decide_eq_true_eq, and_assoc]
    constructor
    · rintro ⟨h1, h2, h3⟩
      exact ⟨h1, fun b' w' u' h => by cases h; exact h2, h3⟩
    · rintro ⟨h1, h2, h3⟩
      exact ⟨h1, h2 b w u rfl, h3⟩

theorem cellSet_head (m : List Host.Cell) (a : Nat) (v : Byte) (lo : Nat) (hlo : lo < a) (h : ∀ b w u, m = (b, w) :: u → lo < b)
    (hm : cellsWf m = true) : ∀ b w u, cellSet m a v = (b, w) :: u → lo < b := by
  intro b w u e
  cases m with
  | nil =>
    simp only [cellSet] at e
    split at e
    · cases e
    · cases e; exact hlo
  | cons c t =>
    obtain ⟨d, x⟩ := c
    have hd := h d x t rfl
    simp only [cellSet] at e
    split at e
    · split at e
      · subst_vars
        exact lt_trans hd (((cellsWf_cons _ _ _).1 hm).2.1 b w u rfl)
      · cases e; omega
    · split at e
      · split at e <;> cases e <;> omega
      · cases e; exact hd

/-- Writing a byte keeps the canonical form. -/
theorem cellSet_wf (m : List Host.Cell) (a : Nat) (v : Byte) (hm : cellsWf m = true) : cellsWf (cellSet m a v) = true := by
  induction m with
  | nil => simp only [cellSet]; split <;> simp_all [cellsWf]
  | cons c t ih =>
    obtain ⟨d, x⟩ := c
    obtain ⟨h1, h2, h3⟩ := (cellsWf_cons _ _ _).1 hm
    simp only [cellSet]
    split
    · split
      · exact h3
      · subst_vars
        exact (cellsWf_cons _ _ _).2 ⟨‹_›, h2, h3⟩
    · split
      · split
        · exact hm
        · refine (cellsWf_cons _ _ _).2 ⟨‹_›, fun b w u e => ?_, hm⟩
          cases e; assumption
      · exact (cellsWf_cons _ _ _).2 ⟨h1, cellSet_head t a v d (by omega) h2 h3, ih h3⟩

/-- Writing bytes keeps the canonical form. -/
theorem cellPuts_wf (m : List Host.Cell) (a : Nat) (l : List Byte) (hm : cellsWf m = true) : cellsWf (cellPuts m a l) = true := by
  induction l generalizing m a with
  | nil => exact hm
  | cons v t ih => exact ih _ _ (cellSet_wf m a v hm)

theorem cellGet_unlisted (m : List Host.Cell) (a : Nat) (hm : cellsWf m = true) (h : ∀ b w u, m = (b, w) :: u → a < b) :
    cellGet m a = unlistedByte := by
  cases m with
  | nil => rfl
  | cons c t =>
    obtain ⟨d, x⟩ := c
    have hd := h d x t rfl
    simp only [cellGet]
    rw [if_neg (by omega), if_pos hd]

/-- A byte reads as it was written. -/
@[simp] theorem cellGet_cellSet_self (m : List Host.Cell) (a : Nat) (v : Byte) (hm : cellsWf m = true) : cellGet (cellSet m a v) a = v := by
  induction m with
  | nil => simp only [cellSet]; split <;> simp_all [cellGet]
  | cons c t ih =>
    obtain ⟨d, x⟩ := c
    obtain ⟨h1, h2, h3⟩ := (cellsWf_cons _ _ _).1 hm
    simp only [cellSet]
    split
    · split
      · subst_vars
        rw [cellGet_unlisted t _ h3 h2]
      · simp [cellGet]
    · split
      · split
        · subst_vars
          simp only [cellGet]
          rw [if_neg (by omega), if_pos (by omega)]
        · simp [cellGet]
      · simp only [cellGet]
        rw [if_neg (by omega), if_neg (by omega)]
        exact ih h3

/-- Every other byte reads as before. -/
theorem cellGet_cellSet_ne (m : List Host.Cell) (a b : Nat) (v : Byte) (h : b ≠ a) (hm : cellsWf m = true) :
    cellGet (cellSet m a v) b = cellGet m b := by
  induction m with
  | nil =>
    simp only [cellSet]
    split
    · rfl
    · simp only [cellGet]
      rw [if_neg (by omega)]
      split <;> rfl
  | cons c t ih =>
    obtain ⟨d, x⟩ := c
    obtain ⟨h1, h2, h3⟩ := (cellsWf_cons _ _ _).1 hm
    simp only [cellSet]
    split
    · subst_vars
      split
      · simp only [cellGet]
        rw [if_neg (Ne.symm h)]
        split
        · exact cellGet_unlisted t b h3 fun b' w' u' e => lt_trans ‹_› (h2 b' w' u' e)
        · rfl
      · simp only [cellGet]
        rw [if_neg (Ne.symm h), if_neg (Ne.symm h)]
    · split
      · split
        · rfl
        · simp only [cellGet]
          repeat' split
          all_goals first | rfl | omega
      · simp only [cellGet]
        rw [ih h3]

/-- Bytes outside those written read as before. -/
theorem cellGet_cellPuts_outside (m : List Host.Cell) (a b : Nat) (l : List Byte) (hm : cellsWf m = true) (h : b < a ∨ a + l.length ≤ b) :
    cellGet (cellPuts m a l) b = cellGet m b := by
  induction l generalizing m a with
  | nil => rfl
  | cons v t ih =>
    simp only [List.length_cons] at h
    simp only [cellPuts]
    rw [ih _ _ (cellSet_wf m a v hm) (by omega), cellGet_cellSet_ne m a b v (by omega) hm]

/-- Bytes written read as written. -/
theorem cellGet_cellPuts_inside (m : List Host.Cell) (a i : Nat) (l : List Byte) (hm : cellsWf m = true) (h : i < l.length) :
    cellGet (cellPuts m a l) (a + i) = l.getD i 0#8 := by
  induction l generalizing m a i with
  | nil => simp at h
  | cons v t ih =>
    simp only [cellPuts]
    cases i with
    | zero =>
      rw [cellGet_cellPuts_outside _ _ _ _ (cellSet_wf m a v hm) (by omega)]
      simp [hm]
    | succ j =>
      have e := ih (cellSet m a v) (a + 1) j (cellSet_wf m a v hm) (by simpa using h)
      rw [show a + (j + 1) = a + 1 + j by omega, e]
      simp

/-- Clearing a range keeps the canonical form. -/
theorem filter_wf (p : Host.Cell → Bool) (m : List Host.Cell) (hm : cellsWf m = true) : cellsWf (m.filter p) = true := by
  have key : ∀ (m : List Host.Cell) (lo : Nat), cellsWf m = true → (∀ b w u, m = (b, w) :: u → lo < b) →
      cellsWf (m.filter p) = true ∧ ∀ b w u, m.filter p = (b, w) :: u → lo < b := by
    intro m
    induction m with
    | nil => intro lo _ _; exact ⟨rfl, fun _ _ _ e => by cases e⟩
    | cons c t ih =>
      intro lo hm hlo
      obtain ⟨d, x⟩ := c
      obtain ⟨h1, h2, h3⟩ := (cellsWf_cons _ _ _).1 hm
      have hd := hlo d x t rfl
      have r := ih d h3 h2
      rw [List.filter_cons]
      split
      · exact ⟨(cellsWf_cons _ _ _).2 ⟨h1, r.2, r.1⟩, fun b w u e => by cases e; exact hd⟩
      · exact ⟨r.1, fun b w u e => lt_trans hd (r.2 b w u e)⟩
  cases m with
  | nil => rfl
  | cons c t =>
    obtain ⟨d, x⟩ := c
    obtain ⟨h1, h2, h3⟩ := (cellsWf_cons _ _ _).1 hm
    have r := key t d h3 h2
    rw [List.filter_cons]
    split
    · exact (cellsWf_cons _ _ _).2 ⟨h1, r.2, r.1⟩
    · exact r.1

/-! ### The scratchpad -/

/-- Committing writes keeps the arrays canonical. -/
theorem spadApply_wf (sp : Spad) (w : SpadWrite) (h : cellsWf sp.base = true) : cellsWf (spadApply sp w).base = true :=
  cellPuts_wf _ _ _ h

theorem foldl_spadApply_wf (l : List SpadWrite) (sp : Spad) (h : cellsWf sp.base = true) : cellsWf (l.foldl spadApply sp).base = true := by
  induction l generalizing sp with
  | nil => exact h
  | cons w t ih => exact ih _ (spadApply_wf sp w h)

theorem spadRetire_wf (sp : Spad) (b : Nat) (h : cellsWf sp.base = true) : cellsWf (spadRetire sp b).base = true :=
  foldl_spadApply_wf _ _ h

/-! ### Reset -/

/-- Every memory of the device is canonical at reset: scratchpads, stacks, the staging area. -/
theorem reset_memories_wf : (∀ c, cellsWf (State.reset.core c).spad.base = true) ∧ (∀ k, cellsWf (State.reset.stack k).mem = true) ∧
    cellsWf State.reset.mod.stage = true := ⟨fun _ => rfl, fun _ => rfl, rfl⟩

end Sys2Proof.Machine
end

