-- ==== Sys2Proof/Laws/Now.lean ====
section
/-! SUPPORT. Device time never goes back: one lemma per operation that gives a state, that it leaves the time as it is or moves it on. -/

set_option linter.unusedSimpArgs false
set_option linter.unreachableTactic false
set_option linter.unusedTactic false

namespace Sys2Proof.Machine
theorem foldl_now {α : Type} (g : State → α → State) (h : ∀ a x, (g a x).now = a.now) (l : List α) (s : State) :
    (l.foldl g s).now = s.now := by
  induction l generalizing s with
  | nil => rfl
  | cons x t ih => simp only [List.foldl_cons, ih, h]
theorem ite_now (p : Prop) [Decidable p] (a b : State) : (if p then a else b).now = if p then a.now else b.now := by
  split <;> rfl
theorem ite_keeps_now (p : Prop) [Decidable p] (a b : State) (x : Nat) (ha : a.now = x) (hb : b.now = x) :
    (if p then a else b).now = x := by
  split <;> assumption
theorem foldl_now_pair {α β : Type} (g : State × β → α → State × β) (h : ∀ a x, (g a x).1.now = a.1.now) (l : List α) (s : State × β) :
    (l.foldl g s).1.now = s.1.now := by
  induction l generalizing s with
  | nil => rfl
  | cons x t ih => simp only [List.foldl_cons, ih, h]

@[simp] theorem State.setRegion_now (s : State) (r : Nat) (g : Region)  :
    (State.setRegion s r g).now = s.now := by
  simp (disch := (intros; simp [ite_now])) [State.setRegion, ite_now, foldl_now]

@[simp] theorem State.setCore_now (s : State) (c : Nat) (k : Core)  :
    (State.setCore s c k).now = s.now := by
  simp (disch := (intros; simp [ite_now])) [State.setCore, ite_now, foldl_now]

@[simp] theorem State.reach_now (s : State) (t : Nat) : (State.reach s t).now = max s.now t := rfl

@[simp] theorem State.takeFree_now (s : State) (n : Nat)  :
    (State.takeFree s n).now = s.now := by
  simp (disch := (intros; simp [ite_now])) [State.takeFree, ite_now, foldl_now]

@[simp] theorem State.answer_now (s : State) (status : Nat) (words : List Word)  :
    (State.answer s status words).now = s.now := by
  simp (disch := (intros; simp [ite_now])) [State.answer, ite_now, foldl_now]

@[simp] theorem State.record_now (s : State) (r : Rec)  :
    (State.record s r).now = s.now := by
  simp (disch := (intros; simp [ite_now])) [State.record, ite_now, foldl_now]

@[simp] theorem State.takeNet_now (s : State) (p : Packet)  :
    (State.takeNet s p).now = s.now := by
  simp (disch := (intros; simp [ite_now])) [State.takeNet, ite_now, foldl_now]

@[simp] theorem State.putNet_now (s : State) (p : Packet)  :
    (State.putNet s p).now = s.now := by
  simp (disch := (intros; simp [ite_now])) [State.putNet, ite_now, foldl_now]

@[simp] theorem sendRequest_now (s : State) (c : Nat) (ps : List Packet) (what arg : Nat)  :
    (sendRequest s c ps what arg).now = s.now := by
  simp (disch := (intros; simp [ite_now])) [sendRequest, ite_now, foldl_now]

@[simp] theorem postMessage_now (s : State) (core e : Nat) (val : Word)  :
    (postMessage s core e val).now = s.now := by
  unfold postMessage
  (try dsimp only)
  repeat' split
  all_goals first | simp (disch := (intros; simp [ite_now])) [ite_now, foldl_now] | rfl

@[simp] theorem breakChannel_now (s : State) (core e : Nat)  :
    (breakChannel s core e).now = s.now := by
  simp (disch := (intros; simp [ite_now])) [breakChannel, ite_now, foldl_now]

@[simp] theorem takeMessage_now (s : State) (core : Nat) (p : Packet)  :
    (takeMessage s core p).now = s.now := by
  unfold takeMessage
  (try dsimp only)
  repeat' split
  all_goals first | simp (disch := (intros; simp [ite_now])) [ite_now, foldl_now] | rfl

@[simp] theorem commitMessage_now (s : State) (core e : Nat)  :
    (commitMessage s core e).now = s.now := by
  unfold commitMessage
  (try dsimp only)
  repeat' split
  all_goals first | simp (disch := (intros; simp [ite_now])) [ite_now, foldl_now] | rfl

@[simp] theorem takeReply_now (s : State) (core e code : Nat)  :
    (takeReply s core e code).now = s.now := by
  unfold takeReply
  (try dsimp only)
  repeat' split
  all_goals first | simp (disch := (intros; simp [ite_now])) [ite_now, foldl_now] | rfl

theorem postTimeout_now_le (s : State) (core e : Nat) : s.now ≤ (postTimeout s core e).now := by
  unfold postTimeout
  (try dsimp only)
  repeat' split
  all_goals first | (simp (disch := (intros; simp [ite_now])) [ite_now, foldl_now, Nat.le_max_left]; done)

@[simp] theorem State.setStack_now (s : State) (n : Nat) (k : Stack)  :
    (State.setStack s n k).now = s.now := by
  simp (disch := (intros; simp [ite_now])) [State.setStack, ite_now, foldl_now]

@[simp] theorem readBlock_now (s : State) (st blk errs : Nat) (scrub : Bool)  :
    (readBlock s st blk errs scrub).now = s.now := by
  simp (disch := (intros; simp [ite_now])) [readBlock, ite_now, foldl_now]

@[simp] theorem takeBlock_now (t st : Nat) (mergeable : Bool) (found : List (Nat × Nat)) (s : State) (blk : Nat)  :
    (takeBlock t st mergeable found s blk).now = s.now := by
  simp (disch := (intros; simp [ite_now])) [takeBlock, ite_now, foldl_now]

@[simp] theorem burmonRead_now (s : State) (st off len part : Nat) (mergeable : Bool) (found : List (Nat × Nat))  :
    (burmonRead s st off len part mergeable found).1.now = s.now := by
  unfold burmonRead
  (try dsimp only)
  repeat' split
  all_goals first | simp (disch := (intros; simp [ite_now])) [ite_now, foldl_now] | rfl

@[simp] theorem writeBlock_now (st off len : Nat) (tarn : Bool) (found : List (Nat × Nat)) (s : State) (blk : Nat)  :
    (writeBlock st off len tarn found s blk).now = s.now := by
  simp (disch := (intros; simp [ite_now])) [writeBlock, ite_now, foldl_now]

@[simp] theorem burmonWrite_now (s : State) (st off : Nat) (bytes : List Byte) (tarn : Bool) (part : Nat) (crcGood : Bool) (found : List (Nat × Nat))  :
    (burmonWrite s st off bytes tarn part crcGood found).1.now = s.now := by
  unfold burmonWrite
  (try dsimp only)
  repeat' split
  all_goals first | simp (disch := (intros; simp [ite_now])) [ite_now, foldl_now] | rfl

@[simp] theorem sendLink_now (s : State) (c t l : Nat) (f : Option Flit) (k : Option Word)  :
    (sendLink s c t l f k).now = s.now := by
  unfold sendLink
  (try dsimp only)
  repeat' split
  all_goals first | simp (disch := (intros; simp [ite_now])) [ite_now, foldl_now] | rfl

@[simp] theorem takeWire_now (s : State) (w : Wire) (flit : Bool)  :
    (takeWire s w flit).now = s.now := by
  simp (disch := (intros; simp [ite_now])) [takeWire, ite_now, foldl_now]

@[simp] theorem State.setCtx_now (s : State) (st c : Nat) (x : StreamCtx)  :
    (State.setCtx s st c x).now = s.now := by
  simp (disch := (intros; simp [ite_now])) [State.setCtx, ite_now, foldl_now]

@[simp] theorem loadDescriptor_now (s : State) (st c part : Nat) (ws : List Word)  :
    (loadDescriptor s st c part ws).1.now = s.now := by
  unfold loadDescriptor
  (try dsimp only)
  repeat' split
  all_goals first | simp (disch := (intros; simp [ite_now])) [ite_now, foldl_now] | rfl

@[simp] theorem controlWrite_now (s : State) (st c part : Nat) (start stop : Bool) (credit : Nat)  :
    (controlWrite s st c part start stop credit).1.now = s.now := by
  unfold controlWrite
  (try dsimp only)
  repeat' split
  all_goals first | simp (disch := (intros; simp [ite_now])) [ite_now, foldl_now] | rfl

@[simp] theorem ctxWrite_now (s : State) (st c byte part : Nat) (bytes : List Byte)  :
    (ctxWrite s st c byte part bytes).1.now = s.now := by
  unfold ctxWrite
  (try dsimp only)
  repeat' split
  all_goals first | simp (disch := (intros; simp [ite_now])) [ite_now, foldl_now] | rfl

@[simp] theorem sendStream_now (s : State) (st c part arg : Nat) (p : Packet)  :
    (sendStream s st c part arg p).now = s.now := by
  simp (disch := (intros; simp [ite_now])) [sendStream, ite_now, foldl_now]

@[simp] theorem streamDone_now (s : State) (st c : Nat)  :
    (streamDone s st c).now = s.now := by
  simp (disch := (intros; simp [ite_now])) [streamDone, ite_now, foldl_now]

@[simp] theorem streamAnswer_now (s : State) (st tag status : Nat)  :
    (streamAnswer s st tag status).now = s.now := by
  unfold streamAnswer
  (try dsimp only)
  repeat' split
  all_goals first | simp (disch := (intros; simp [ite_now])) [ite_now, foldl_now] | rfl

@[simp] theorem fetchChunk_now (s : State) (st c i part : Nat) (errs : List (Nat × Nat)) (host : List Byte)  :
    (fetchChunk s st c i part errs host).1.now = s.now := by
  unfold fetchChunk
  (try dsimp only)
  repeat' split
  all_goals first | simp (disch := (intros; simp [ite_now])) [ite_now, foldl_now] | rfl

@[simp] theorem serviceChunk_now (s : State) (st c : Nat) (errs : List (Nat × Nat)) (host : List Byte)  :
    (serviceChunk s st c errs host).now = s.now := by
  simp (disch := (intros; simp [ite_now])) [serviceChunk, ite_now, foldl_now]

@[simp] theorem sendShared_now (s : State) (st c part mseq addr : Nat) (data : List Byte) (tarn : Bool)  :
    (sendShared s st c part mseq addr data tarn).now = s.now := by
  simp (disch := (intros; simp [ite_now])) [sendShared, ite_now, foldl_now]

@[simp] theorem sharedChunk_now (s : State) (st c : Nat) (errs : List (Nat × Nat))  :
    (sharedChunk s st c errs).now = s.now := by
  simp (disch := (intros; simp [ite_now])) [sharedChunk, ite_now, foldl_now]

@[simp] theorem schedIn_now (s : State) (st c i t : Nat) (off : Nat) (errs : List (Nat × Nat)) (badPar : List Nat)  :
    (schedIn s st c i t off errs badPar).now = s.now := by
  unfold schedIn
  extract_lets x d len s1 k bytes core n key c0
  have h : s1.now = s.now := foldl_now _ (fun a b => by simp) _ s
  clear_value c0 key n core bytes k s1
  split
  · rw [setCore_now, h]
  · extract_lets
    rw [setCore_now, h]

@[simp] theorem schedOut_now (s : State) (st c i t : Nat) (off : Nat) (badPar : List Nat)  :
    (schedOut s st c i t off badPar).now = s.now := by
  simp (disch := (intros; simp [ite_now])) [schedOut, ite_now, foldl_now]

theorem schedChunk_now_le (s : State) (st c : Nat) (errs : List (Nat × Nat)) (badPar : List Nat) : s.now ≤ (schedChunk s st c errs badPar).now := by
  unfold schedChunk
  (try dsimp only)
  repeat' split
  all_goals first | (simp (disch := (intros; simp [ite_now])) [ite_now, foldl_now, Nat.le_max_left]; done)

@[simp] theorem schedStreams_now (s : State) (part : Nat) (f : StreamCtx → StreamCtx)  :
    (schedStreams s part f).now = s.now := by
  simp (disch := (intros; simp [ite_now])) [schedStreams, ite_now, foldl_now]

@[simp] theorem remoteHalt_now (s : State) (st c : Nat) (unreach : Bool)  :
    (remoteHalt s st c unreach).now = s.now := by
  simp (disch := (intros; simp [ite_now])) [remoteHalt, ite_now, foldl_now]

@[simp] theorem remoteResume_now (s : State) (st c : Nat)  :
    (remoteResume s st c).now = s.now := by
  simp (disch := (intros; simp [ite_now])) [remoteResume, ite_now, foldl_now]

@[simp] theorem xferStart_now (s : State) (core x : Nat) (val : Word)  :
    (xferStart s core x val).now = s.now := by
  simp (disch := (intros; simp [ite_now])) [xferStart, ite_now, foldl_now]

@[simp] theorem memCredit_now (s : State) (core : Nat) (val : Word)  :
    (memCredit s core val).now = s.now := by
  simp (disch := (intros; simp [ite_now])) [memCredit, ite_now, foldl_now]

@[simp] theorem sendHeld_now (s : State) (c : Nat)  :
    (sendHeld s c).now = s.now := by
  simp (disch := (intros; simp [ite_now])) [sendHeld, ite_now, foldl_now]

@[simp] theorem sendArrivals_now (s : State) (c : Nat)  :
    (sendArrivals s c).now = s.now := by
  simp (disch := (intros; simp [ite_now])) [sendArrivals, ite_now, foldl_now]

@[simp] theorem startFence_now (s : State) (c : Nat)  :
    (startFence s c).now = s.now := by
  simp (disch := (intros; simp [ite_now])) [startFence, ite_now, foldl_now]

@[simp] theorem fenceDone_now (s : State) (c : Nat)  :
    (fenceDone s c).now = s.now := by
  unfold fenceDone
  (try dsimp only)
  repeat' split
  all_goals first | simp (disch := (intros; simp [ite_now])) [ite_now, foldl_now] | rfl

@[simp] theorem barWrite_now (s : State) (c i : Nat) (val : Word)  :
    (barWrite s c i val).now = s.now := by
  simp (disch := (intros; simp [ite_now])) [barWrite, ite_now, foldl_now]

@[simp] theorem coreWrite_now (s : State) (c off : Nat) (val : Word) (hw : Bool)  :
    (coreWrite s c off val hw).now = s.now := by
  unfold coreWrite
  dsimp only
  refine ite_keeps_now _ _ _ _ (ite_keeps_now _ _ _ _ ?_ ?_) ?_
  · simp
  · rfl
  · cases regFind coreRegs off with
    | none => rfl
    | some r =>
      dsimp only
      refine ite_keeps_now _ _ _ _ ?_ (ite_keeps_now _ _ _ _ ?_ (ite_keeps_now _ _ _ _ ?_ (ite_keeps_now _ _ _ _ ?_ (ite_keeps_now _ _ _ _ ?_ (ite_keeps_now _ _ _ _ ?_ (ite_keeps_now _ _ _ _ ?_ (ite_keeps_now _ _ _ _ ?_ (ite_keeps_now _ _ _ _ ?_ (ite_keeps_now _ _ _ _ ?_ (ite_keeps_now _ _ _ _ ?_ (ite_keeps_now _ _ _ _ ?_ (ite_keeps_now _ _ _ _ ?_ (ite_keeps_now _ _ _ _ ?_ (ite_keeps_now _ _ _ _ ?_ (ite_keeps_now _ _ _ _ ?_ ?_)))))))))))))))
      all_goals simp [ite_now]

@[simp] theorem State.setRouter_now (s : State) (r : Nat) (k : Router)  :
    (State.setRouter s r k).now = s.now := by
  simp (disch := (intros; simp [ite_now])) [State.setRouter, ite_now, foldl_now]

@[simp] theorem enterRouter_now (s : State) (r inp : Nat) (p : Packet) (res : Nat) (up : Option (Nat × Nat))  :
    (enterRouter s r inp p res up).now = s.now := by
  unfold enterRouter
  (try dsimp only)
  repeat' split
  all_goals first | simp (disch := (intros; simp [ite_now])) [ite_now, foldl_now] | rfl

@[simp] theorem popHead_now (s : State) (r key : Nat)  :
    (popHead s r key).now = s.now := by
  unfold popHead
  (try dsimp only)
  repeat' split
  all_goals first | simp (disch := (intros; simp [ite_now])) [ite_now, foldl_now] | rfl

@[simp] theorem doneBranch_now (s : State) (r key out : Nat)  :
    (doneBranch s r key out).now = s.now := by
  unfold doneBranch
  (try dsimp only)
  repeat' split
  all_goals first | simp (disch := (intros; simp [ite_now])) [ite_now, foldl_now] | rfl

@[simp] theorem sendOver_now (s : State) (r inp out : Nat) (p : Packet)  :
    (sendOver s r inp out p).now = s.now := by
  unfold sendOver
  (try dsimp only)
  repeat' split
  all_goals first | simp (disch := (intros; simp [ite_now])) [ite_now, foldl_now] | rfl

@[simp] theorem sendHead_now (s : State) (r key out : Nat) (h : BufPkt)  :
    (sendHead s r key out h).now = s.now := by
  simp (disch := (intros; simp [ite_now])) [sendHead, ite_now, foldl_now]

@[simp] theorem dropHead_now (s : State) (r key : Nat) (flags : Word)  :
    (dropHead s r key flags).now = s.now := by
  simp (disch := (intros; simp [ite_now])) [dropHead, ite_now, foldl_now]

@[simp] theorem sendMissed_now (s : State) (r out : Nat) (m : Nat × Nat × Nat)  :
    (sendMissed s r out m).now = s.now := by
  simp (disch := (intros; simp [ite_now])) [sendMissed, ite_now, foldl_now]

@[simp] theorem forward_now (s : State) (r out : Nat) (perr : Nat)  :
    (forward s r out perr).now = s.now := by
  unfold forward
  (try dsimp only)
  repeat' split
  all_goals first | simp (disch := (intros; simp [ite_now])) [ite_now, foldl_now] | rfl

@[simp] theorem ingress_now (s : State) (r : Nat) (p : Packet)  :
    (ingress s r p).now = s.now := by
  simp (disch := (intros; simp [ite_now])) [ingress, ite_now, foldl_now]

@[simp] theorem State.allRouters_now (s : State) (f : Router → Router)  :
    (State.allRouters s f).now = s.now := by
  simp (disch := (intros; simp [ite_now])) [State.allRouters, ite_now, foldl_now]

@[simp] theorem setPhysFenced_now (s : State) (p : Nat) (b : Bool)  :
    (setPhysFenced s p b).now = s.now := by
  simp (disch := (intros; simp [ite_now])) [setPhysFenced, ite_now, foldl_now]

@[simp] theorem devWrite_now (s : State) (a : Nat) (bytes : List Byte)  :
    (devWrite s a bytes).now = s.now := foldl_now _ (fun _ _ => by (try dsimp only); split <;> simp) _ _

@[simp] theorem zeroStacks_now (s : State) (lo hi : Nat)  :
    (zeroStacks s lo hi).now = s.now := by
  simp (disch := (intros; simp [ite_now])) [zeroStacks, ite_now, foldl_now]

@[simp] theorem putHeader_now (s : State) (b : HostBuf) (ws : List Word)  :
    (putHeader s b ws).now = s.now := by
  simp (disch := (intros; simp [ite_now])) [putHeader, ite_now, foldl_now]

@[simp] theorem bumpGen_now (s : State) (ty idx : Nat)  :
    (bumpGen s ty idx).now = s.now := by
  simp (disch := (intros; simp [ite_now])) [bumpGen, ite_now, foldl_now]

@[simp] theorem finishCmd_now (s : State) (r pos status : Nat) (handle : Word) (res : List Word)  :
    (finishCmd s r pos status handle res).now = s.now := by
  unfold finishCmd
  (try dsimp only)
  repeat' split
  all_goals first | simp (disch := (intros; simp [ite_now])) [ite_now, foldl_now] | rfl

@[simp] theorem raiseEvent_now (s : State) (kind part : Nat) (obj : Word) (ws : List Word)  :
    (raiseEvent s kind part obj ws).now = s.now := by
  simp (disch := (intros; simp [ite_now])) [raiseEvent, ite_now, foldl_now]

@[simp] theorem State.setPart_now (s : State) (p : Nat) (k : Partn)  :
    (State.setPart s p k).now = s.now := by
  simp (disch := (intros; simp [ite_now])) [State.setPart, ite_now, foldl_now]

@[simp] theorem suspectPhys_now (s : State) (p : Nat)  :
    (suspectPhys s p).now = s.now := by
  unfold suspectPhys
  (try dsimp only)
  repeat' split
  all_goals first | simp (disch := (intros; simp [ite_now])) [ite_now, foldl_now] | rfl

@[simp] theorem sbdFlag_now (s : State) (m : Word)  :
    (sbdFlag s m).now = s.now := by
  simp (disch := (intros; simp [ite_now])) [sbdFlag, ite_now, foldl_now]

@[simp] theorem setSbdState_now (s : State) (v : Nat)  :
    (setSbdState s v).now = s.now := by
  simp (disch := (intros; simp [ite_now])) [setSbdState, ite_now, foldl_now]

@[simp] theorem setRecov_now (s : State) (v : Nat)  :
    (setRecov s v).now = s.now := by
  simp (disch := (intros; simp [ite_now])) [setRecov, ite_now, foldl_now]

@[simp] theorem setPortState_now (s : State) (p v : Nat)  :
    (setPortState s p v).now = s.now := by
  simp (disch := (intros; simp [ite_now])) [setPortState, ite_now, foldl_now]

@[simp] theorem qpFail_now (s : State) (q synd : Nat)  :
    (qpFail s q synd).now = s.now := by
  unfold qpFail
  (try dsimp only)
  repeat' split
  all_goals first | simp (disch := (intros; simp [ite_now])) [ite_now, foldl_now] | rfl

@[simp] theorem State.setPort_now (s : State) (p : Nat) (k : Port)  :
    (State.setPort s p k).now = s.now := by
  simp (disch := (intros; simp [ite_now])) [State.setPort, ite_now, foldl_now]

@[simp] theorem portErr_now (s : State) (p c half n : Nat)  :
    (portErr s p c half n).now = s.now := by
  simp (disch := (intros; simp [ite_now])) [portErr, ite_now, foldl_now]

@[simp] theorem portCount64_now (s : State) (p o n : Nat)  :
    (portCount64 s p o n).now = s.now := by
  simp (disch := (intros; simp [ite_now])) [portCount64, ite_now, foldl_now]

@[simp] theorem putFrame_now (s : State) (p len : Nat)  :
    (putFrame s p len).now = s.now := by
  simp (disch := (intros; simp [ite_now])) [putFrame, ite_now, foldl_now]

@[simp] theorem sendFrame_now (s : State) (p prio len : Nat)  :
    (sendFrame s p prio len).now = s.now := by
  simp (disch := (intros; simp [ite_now])) [sendFrame, ite_now, foldl_now]

@[simp] theorem flushPrio_now (s : State) (p prio : Nat)  :
    (flushPrio s p prio).now = s.now := by
  simp (disch := (intros; simp [ite_now])) [flushPrio, ite_now, foldl_now]

@[simp] theorem portFence_now (s : State) (p : Nat)  :
    (portFence s p).now = s.now := by
  simp (disch := (intros; simp [ite_now])) [portFence, ite_now, foldl_now]

@[simp] theorem sendReady_now (s : State) (p : Nat)  :
    (sendReady s p).now = s.now := by
  simp (disch := (intros; simp [ite_now])) [sendReady, ite_now, foldl_now]

@[simp] theorem readyPort_now (s : State) (p : Nat)  :
    (readyPort s p).now = s.now := by
  simp (disch := (intros; simp [ite_now])) [readyPort, ite_now, foldl_now]

@[simp] theorem announceReady_now (s : State)  :
    (announceReady s).now = s.now := by
  simp (disch := (intros; simp [ite_now])) [announceReady, ite_now, foldl_now]

@[simp] theorem brupReply_now (s : State) (p : Nat) (src xid : Word) (status : Nat) (body : List Word)  :
    (brupReply s p src xid status body).now = s.now := by
  simp (disch := (intros; simp [ite_now])) [brupReply, ite_now, foldl_now]

@[simp] theorem takeBringup_now (s : State) (p : Nat) (src : Word) (brup : Option (BitVec 8 × Word))  :
    (takeBringup s p src brup).now = s.now := by
  unfold takeBringup
  (try dsimp only)
  repeat' split
  all_goals first | simp (disch := (intros; simp [ite_now])) [ite_now, foldl_now] | rfl

@[simp] theorem sendPfc_now (s : State) (p i : Nat)  :
    (sendPfc s p i).now = s.now := by
  simp (disch := (intros; simp [ite_now])) [sendPfc, ite_now, foldl_now]

@[simp] theorem bufferFrame_now (s : State) (p i len : Nat)  :
    (bufferFrame s p i len).now = s.now := by
  simp (disch := (intros; simp [ite_now])) [bufferFrame, ite_now, foldl_now]

@[simp] theorem drainBuffer_now (s : State) (p i len : Nat)  :
    (drainBuffer s p i len).now = s.now := by
  simp (disch := (intros; simp [ite_now])) [drainBuffer, ite_now, foldl_now]

@[simp] theorem receiveFrame_now (s : State) (p : Nat) (f : Frame)  :
    (receiveFrame s p f).now = s.now := by
  unfold receiveFrame
  (try dsimp only)
  repeat' split
  all_goals first | simp (disch := (intros; simp [ite_now])) [ite_now, foldl_now] | rfl

@[simp] theorem State.setQp_now (s : State) (q : Nat) (k : Qp)  :
    (State.setQp s q k).now = s.now := by
  simp (disch := (intros; simp [ite_now])) [State.setQp, ite_now, foldl_now]

@[simp] theorem sendAck_now (s : State) (k : Qp) (psn synd : Nat)  :
    (sendAck s k psn synd).now = s.now := by
  simp (disch := (intros; simp [ite_now])) [sendAck, ite_now, foldl_now]

@[simp] theorem qpSend_now (s : State) (q bytes ext : Nat)  :
    (qpSend s q bytes ext).now = s.now := by
  unfold qpSend
  (try dsimp only)
  repeat' split
  all_goals first | simp (disch := (intros; simp [ite_now])) [ite_now, foldl_now] | rfl

@[simp] theorem resendAll_now (s : State) (q : Nat) (k : Qp)  :
    (resendAll s q k).now = s.now := by
  simp (disch := (intros; simp [ite_now])) [resendAll, ite_now, foldl_now]

@[simp] theorem retryQp_now (s : State) (q synd : Nat)  :
    (retryQp s q synd).now = s.now := by
  unfold retryQp
  (try dsimp only)
  repeat' split
  all_goals first | simp (disch := (intros; simp [ite_now])) [ite_now, foldl_now] | rfl

@[simp] theorem ackUpTo_now (s : State) (q : Nat) (k : Qp) (psn : Nat)  :
    (ackUpTo s q k psn).now = s.now := by
  simp (disch := (intros; simp [ite_now])) [ackUpTo, ite_now, foldl_now]

@[simp] theorem takeAck_now (s : State) (q : Nat) (k : Qp) (psn aeth : Nat)  :
    (takeAck s q k psn aeth).now = s.now := by
  unfold takeAck
  (try dsimp only)
  repeat' split
  all_goals first | simp (disch := (intros; simp [ite_now])) [ite_now, foldl_now] | rfl

@[simp] theorem portRequest_now (s : State) (p q : Nat) (what : Nat) (k : Qp) (pk : Packet)  :
    (portRequest s p q what k pk).now = s.now := by
  simp (disch := (intros; simp [ite_now])) [portRequest, ite_now, foldl_now]

@[simp] theorem portWrite_now (s : State) (p q : Nat) (k : Qp) (a : Nat) (bytes : List Byte)  :
    (portWrite s p q k a bytes).now = s.now := by
  simp (disch := (intros; simp [ite_now])) [portWrite, ite_now, foldl_now]

@[simp] theorem portRead_now (s : State) (p q : Nat) (k : Qp) (a n : Nat)  :
    (portRead s p q k a n).now = s.now := by
  simp (disch := (intros; simp [ite_now])) [portRead, ite_now, foldl_now]

@[simp] theorem nakFatal_now (s : State) (q : Nat) (k : Qp) (psn code : Nat)  :
    (nakFatal s q k psn code).now = s.now := by
  simp (disch := (intros; simp [ite_now])) [nakFatal, ite_now, foldl_now]

@[simp] theorem accepted_now (s : State) (q : Nat) (n psn : Nat) (ackReq : Bool)  :
    (accepted s q n psn ackReq).now = s.now := by
  unfold accepted
  (try dsimp only)
  repeat' split
  all_goals first | simp (disch := (intros; simp [ite_now])) [ite_now, foldl_now] | rfl

@[simp] theorem placeWrite_now (s : State) (p q : Nat) (k : Qp) (a : Nat) (bytes : List Byte)  :
    (placeWrite s p q k a bytes).now = s.now := by
  simp (disch := (intros; simp [ite_now])) [placeWrite, ite_now, foldl_now]

@[simp] theorem startRead_now (s : State) (p q : Nat) (k : Qp) (psn a n : Nat)  :
    (startRead s p q k psn a n).now = s.now := by
  unfold startRead
  (try dsimp only)
  repeat' split
  all_goals first | simp (disch := (intros; simp [ite_now])) [ite_now, foldl_now] | rfl

@[simp] theorem roceExecute_now (s : State) (p q : Nat) (k : Qp) (x : RocePkt)  :
    (roceExecute s p q k x).now = s.now := by
  unfold roceExecute
  (try dsimp only)
  repeat' split
  all_goals first | simp (disch := (intros; simp [ite_now])) [ite_now, foldl_now] | rfl

@[simp] theorem roceDuplicate_now (s : State) (p q : Nat) (k : Qp) (x : RocePkt)  :
    (roceDuplicate s p q k x).now = s.now := by
  simp (disch := (intros; simp [ite_now])) [roceDuplicate, ite_now, foldl_now]

@[simp] theorem noteCe_now (s : State) (p q : Nat) (k : Qp)  :
    (noteCe s p q k).now = s.now := by
  simp (disch := (intros; simp [ite_now])) [noteCe, ite_now, foldl_now]

@[simp] theorem rocePacket_now (s0 : State) (p : Nat) (x : RocePkt)  :
    (rocePacket s0 p x).now = s0.now := by
  unfold rocePacket
  (try dsimp only)
  repeat' split
  all_goals first | simp (disch := (intros; simp [ite_now])) [ite_now, foldl_now] | rfl

@[simp] theorem finishRead_now (s : State) (q : Nat) (k : Qp) (j : ReadJob)  :
    (finishRead s q k j).now = s.now := by
  simp (disch := (intros; simp [ite_now])) [finishRead, ite_now, foldl_now]

@[simp] theorem readAnswer_now (s : State) (q : Nat) (k : Qp) (a : Nat) (bad : Bool) (data : List Byte)  :
    (readAnswer s q k a bad data).now = s.now := by
  unfold readAnswer
  (try dsimp only)
  repeat' split
  all_goals first | simp (disch := (intros; simp [ite_now])) [ite_now, foldl_now] | rfl

@[simp] theorem portAnswer_now (s : State) (p tag status : Nat) (data : List Byte)  :
    (portAnswer s p tag status data).now = s.now := by
  unfold portAnswer
  (try dsimp only)
  repeat' split
  all_goals first | simp (disch := (intros; simp [ite_now])) [ite_now, foldl_now] | rfl

@[simp] theorem setTState_now (s : State) (v : Nat)  :
    (setTState s v).now = s.now := by
  simp (disch := (intros; simp [ite_now])) [setTState, ite_now, foldl_now]

@[simp] theorem putClk_now (s : State) (k : Nat) (c : FrameClk)  :
    (putClk s k c).now = s.now := by
  simp (disch := (intros; simp [ite_now])) [putClk, ite_now, foldl_now]

@[simp] theorem clkUpdate_now (stepped : Bool) (s : State) (k : Nat)  :
    (clkUpdate stepped s k).now = s.now := by
  simp (disch := (intros; simp [ite_now])) [clkUpdate, ite_now, foldl_now]

@[simp] theorem clkAll_now (stepped : Bool) (s : State)  :
    (clkAll stepped s).now = s.now := by
  simp (disch := (intros; simp [ite_now])) [clkAll, ite_now, foldl_now]

@[simp] theorem clkEnable_now (s : State) (k : Nat) (val : Word)  :
    (clkEnable s k val).now = s.now := by
  simp (disch := (intros; simp [ite_now])) [clkEnable, ite_now, foldl_now]

@[simp] theorem clkWrite_now (s : State) (k r : Nat) (val : Word)  :
    (clkWrite s k r val).now = s.now := by
  simp (disch := (intros; simp [ite_now])) [clkWrite, ite_now, foldl_now]

@[simp] theorem setGm_now (s : State) (ident : Nat)  :
    (setGm s ident).now = s.now := by
  simp (disch := (intros; simp [ite_now])) [setGm, ite_now, foldl_now]

@[simp] theorem putErr_now (s : State) (v : Nat)  :
    (putErr s v).now = s.now := by
  simp (disch := (intros; simp [ite_now])) [putErr, ite_now, foldl_now]

@[simp] theorem recomputeErr_now (s : State)  :
    (recomputeErr s).now = s.now := by
  simp (disch := (intros; simp [ite_now])) [recomputeErr, ite_now, foldl_now]

@[simp] theorem correct_now (s : State) (off40 : Int) (ptp : Int)  :
    (correct s off40 ptp).now = s.now := by
  simp (disch := (intros; simp [ite_now])) [correct, ite_now, foldl_now]

@[simp] theorem applySync_now (s0 : State) (p : Nat) (t1 : Nat)  :
    (applySync s0 p t1).now = s0.now := by
  simp (disch := (intros; simp [ite_now])) [applySync, ite_now, foldl_now]

@[simp] theorem ptpDrop_now (s : State)  :
    (ptpDrop s).now = s.now := by
  simp (disch := (intros; simp [ite_now])) [ptpDrop, ite_now, foldl_now]

@[simp] theorem servePort_now (s : State) (p ident : Nat)  :
    (servePort s p ident).now = s.now := by
  simp (disch := (intros; simp [ite_now])) [servePort, ite_now, foldl_now]

@[simp] theorem loseMasters_now (s : State)  :
    (loseMasters s).now = s.now := by
  simp (disch := (intros; simp [ite_now])) [loseMasters, ite_now, foldl_now]

@[simp] theorem bookEvent_now (s : State) (k : BookKind) (time : Nat)  :
    (bookEvent s k time).now = s.now := by
  simp (disch := (intros; simp [ite_now])) [bookEvent, ite_now, foldl_now]

@[simp] theorem snapMap_now (s : State)  :
    (snapMap s).now = s.now := by
  simp (disch := (intros; simp [ite_now])) [snapMap, ite_now, foldl_now]

@[simp] theorem bookNotices_now (s : State) (k : Partn) (x : SectionInfo) (t : Nat)  :
    (bookNotices s k x t).now = s.now := foldl_now _ (fun _ _ => by (repeat' split) <;> simp [ite_now]) _ _

@[simp] theorem bookAhead_now (s : State) (p : Nat)  :
    (bookAhead s p).now = s.now := by
  unfold bookAhead
  (try dsimp only)
  repeat' split
  all_goals first | simp (disch := (intros; simp [ite_now])) [ite_now, foldl_now] | rfl

@[simp] theorem cancelBooked_now (s : State) (p : Nat)  :
    (cancelBooked s p).now = s.now := by
  simp (disch := (intros; simp [ite_now])) [cancelBooked, ite_now, foldl_now]

@[simp] theorem retime_now (s : State) (p : Nat)  :
    (retime s p).now = s.now := by
  simp (disch := (intros; simp [ite_now])) [retime, ite_now, foldl_now]

@[simp] theorem startWriting_now (s : State) (q : Request)  :
    (startWriting s q).now = s.now := by
  unfold startWriting
  (try dsimp only)
  repeat' split
  all_goals first | simp (disch := (intros; simp [ite_now])) [ite_now, foldl_now] | rfl

@[simp] theorem endRequest_now (s : State) (p : Nat) (q : Request) (status cause : Nat) (tarn : Bool)  :
    (endRequest s p q status cause tarn).now = s.now := by
  unfold endRequest
  (try dsimp only)
  repeat' split
  all_goals first | simp (disch := (intros; simp [ite_now])) [ite_now, foldl_now] | rfl

@[simp] theorem endRequests_now (s : State) (p status cause : Nat)  :
    (endRequests s p status cause).now = s.now := by
  unfold endRequests
  (try dsimp only)
  repeat' split
  all_goals first | simp (disch := (intros; simp [ite_now])) [ite_now, foldl_now] | rfl

@[simp] theorem abortUnlaunched_now (s : State) (p : Nat) (test : Request → Bool)  :
    (abortUnlaunched s p test).now = s.now := by
  unfold abortUnlaunched
  (try dsimp only)
  repeat' split
  all_goals first | simp (disch := (intros; simp [ite_now])) [ite_now, foldl_now] | rfl

@[simp] theorem mapPart_now (s : State) (k : Partn) (f : Core → Core)  :
    (mapPart s k f).now = s.now := by
  simp (disch := (intros; simp [ite_now])) [mapPart, ite_now, foldl_now]

@[simp] theorem saveChannel_now (step : Nat) (s : State) (c : Channel)  :
    (saveChannel step s c).now = s.now := by
  simp (disch := (intros; simp [ite_now])) [saveChannel, ite_now, foldl_now]

@[simp] theorem rollChannel_now (step : Nat) (s : State) (e : Nat × Channel)  :
    (rollChannel step s e).now = s.now := by
  simp (disch := (intros; simp [ite_now])) [rollChannel, ite_now, foldl_now]

@[simp] theorem breakOn_now (s : State) (hit : Nat → Bool) (cause : Nat)  :
    (breakOn s hit cause).now = s.now := by
  simp (disch := (intros; simp [ite_now])) [breakOn, ite_now, foldl_now]

@[simp] theorem sendAll_now (s : State) (l : List (Nat × List Byte))  :
    (sendAll s l).now = s.now := by
  simp (disch := (intros; simp [ite_now])) [sendAll, ite_now, foldl_now]

@[simp] theorem sendJob_now (s : State) (p : Nat) (qs : List Nat) (j : JobWords)  :
    (sendJob s p qs j).now = s.now := by
  unfold sendJob
  (try dsimp only)
  split
  · rfl
  · split
    · rfl
    · simp (disch := (intros; (repeat' split) <;> simp [ite_now])) [ite_now, foldl_now]

@[simp] theorem sendIntegrity_now (s : State) (p : Nat) (qs : List Nat) (ty replica flags serial index : Nat) (extra digest : List Byte)  :
    (sendIntegrity s p qs ty replica flags serial index extra digest).now = s.now := by
  unfold sendIntegrity
  (try dsimp only)
  repeat' split
  all_goals first | simp (disch := (intros; simp [ite_now])) [ite_now, foldl_now] | rfl

@[simp] theorem originateQuench_now (s : State) (p cause : Nat)  :
    (originateQuench s p cause).now = s.now := by
  unfold originateQuench
  (try dsimp only)
  repeat' split
  all_goals first | simp (disch := (intros; simp [ite_now])) [ite_now, foldl_now] | rfl

@[simp] theorem haltFor_now (s : State) (p next : Nat)  :
    (haltFor s p next).now = s.now := by
  unfold haltFor
  (try dsimp only)
  repeat' split
  all_goals first | simp (disch := (intros; simp [ite_now])) [ite_now, foldl_now] | rfl

@[simp] theorem endWaiters_now (s : State) (p : Nat) (ok : Bool)  :
    (endWaiters s p ok).now = s.now := by
  unfold endWaiters
  (try dsimp only)
  repeat' split
  all_goals first | simp (disch := (intros; simp [ite_now])) [ite_now, foldl_now] | rfl

@[simp] theorem failPartition_now (s : State) (p cause : Nat)  :
    (failPartition s p cause).now = s.now := by
  simp (disch := (intros; simp [ite_now])) [failPartition, ite_now, foldl_now]

@[simp] theorem startRecovery_now (s : State) (p next : Nat)  :
    (startRecovery s p next).now = s.now := by
  simp (disch := (intros; simp [ite_now])) [startRecovery, ite_now, foldl_now]

@[simp] theorem quenchHold_now (s : State) (p : Nat)  :
    (quenchHold s p).now = s.now := by
  simp (disch := (intros; simp [ite_now])) [quenchHold, ite_now, foldl_now]

@[simp] theorem expel_now (s : State) (p : Nat)  :
    (expel s p).now = s.now := by
  unfold expel
  (try dsimp only)
  repeat' split
  all_goals first | simp (disch := (intros; simp [ite_now])) [ite_now, foldl_now] | rfl

@[simp] theorem moduleFault_now (s : State)  :
    (moduleFault s).now = s.now := by
  simp (disch := (intros; simp [ite_now])) [moduleFault, ite_now, foldl_now]

@[simp] theorem turnLatch_now (s : State)  :
    (turnLatch s).now = s.now := by
  simp (disch := (intros; simp [ite_now])) [turnLatch, ite_now, foldl_now]

@[simp] theorem fenceEffect_now (s : State) (u : Word) (cause part : Nat)  :
    (fenceEffect s u cause part).now = s.now := by
  unfold fenceEffect
  (try dsimp only)
  repeat' split
  all_goals first | simp (disch := (intros; simp [ite_now])) [ite_now, foldl_now] | rfl

@[simp] theorem afterFence_now (s : State) (u : Word) (p : Nat)  :
    (afterFence s u p).now = s.now := by
  unfold afterFence
  (try dsimp only)
  repeat' split
  all_goals first | simp (disch := (intros; simp [ite_now])) [ite_now, foldl_now] | rfl

@[simp] theorem fenceUnit_now (s : State) (u : Word) (cause part pm : Nat)  :
    (fenceUnit s u cause part pm).now = s.now := by
  unfold fenceUnit
  (try dsimp only)
  repeat' split
  all_goals first | simp (disch := (intros; simp [ite_now])) [ite_now, foldl_now] | rfl

@[simp] theorem portDown_now (s : State) (p : Nat)  :
    (portDown s p).now = s.now := by
  simp (disch := (intros; simp [ite_now])) [portDown, ite_now, foldl_now]

@[simp] theorem onLevel_now (s : State) (u : Word) (lv : Nat)  :
    (onLevel s u lv).now = s.now := by
  simp (disch := (intros; simp [ite_now])) [onLevel, ite_now, foldl_now]

@[simp] theorem addPatina_now (s : State) (u : Word) (n : Nat)  :
    (addPatina s u n).now = s.now := by
  unfold addPatina
  (try dsimp only)
  repeat' split
  all_goals first | simp (disch := (intros; simp [ite_now])) [ite_now, foldl_now] | rfl

@[simp] theorem addCorePatina_now (s : State) (c n : Nat)  :
    (addCorePatina s c n).now = s.now := by
  simp (disch := (intros; simp [ite_now])) [addCorePatina, ite_now, foldl_now]

@[simp] theorem mapCtxs_now (s : State) (p : Nat) (f : StreamCtx → StreamCtx)  :
    (mapCtxs s p f).now = s.now := by
  simp (disch := (intros; simp [ite_now])) [mapCtxs, ite_now, foldl_now]

@[simp] theorem reloadImages_now (s : State) (p : Nat) (hit : Nat → Bool)  :
    (reloadImages s p hit).now = s.now := by
  unfold reloadImages
  (try dsimp only)
  repeat' split
  all_goals first | rfl | simp_all [ite_now, foldl_now]

@[simp] theorem rollback_now (s : State) (p : Nat)  :
    (rollback s p).now = s.now := by
  unfold rollback
  (try dsimp only)
  repeat' split
  all_goals first | simp (disch := (intros; simp [ite_now])) [ite_now, foldl_now] | rfl

@[simp] theorem resume_now (s : State) (p : Nat)  :
    (resume s p).now = s.now := by
  simp (disch := (intros; simp [ite_now])) [resume, ite_now, foldl_now]

theorem applyHalt_now_le (s0 : State) (p : Nat) : s0.now ≤ (applyHalt s0 p).now := by
  unfold applyHalt
  (try dsimp only)
  repeat' split
  all_goals first | (simp (disch := (intros; simp [ite_now])) [ite_now, foldl_now, Nat.le_max_left]; done)

theorem haltNow_now_le (s : State) (p : Nat) : s.now ≤ (haltNow s p).now := by
  unfold haltNow
  dsimp only
  have h := applyHalt_now_le s p
  repeat' split
  all_goals first | exact h | simpa using h

@[simp] theorem portTrain_now (s : State) (p : Nat)  :
    (portTrain s p).now = s.now := by
  simp (disch := (intros; simp [ite_now])) [portTrain, ite_now, foldl_now]

@[simp] theorem portUnfence_now (s : State) (p : Nat)  :
    (portUnfence s p).now = s.now := by
  simp (disch := (intros; simp [ite_now])) [portUnfence, ite_now, foldl_now]

@[simp] theorem portCfgWrite_now (s : State) (p : Nat) (val : Word)  :
    (portCfgWrite s p val).now = s.now := by
  simp (disch := (intros; simp [ite_now])) [portCfgWrite, ite_now, foldl_now]

@[simp] theorem dropHcrc_now (s : State) (p : Packet)  :
    (dropHcrc s p).now = s.now := by
  simp (disch := (intros; simp [ite_now])) [dropHcrc, ite_now, foldl_now]

@[simp] theorem State.reply1_now (s : State) (ps : List Packet)  :
    (State.reply1 s ps).now = s.now := by
  simp (disch := (intros; simp [ite_now])) [State.reply1, ite_now, foldl_now]

@[simp] theorem atCore_now (s : State) (p : Packet) (eff : State → Nat → State) (h_eff : ∀ x0 x1, (eff x0 x1).now = x0.now) :
    (atCore s p eff).now = s.now := by
  unfold atCore
  (try dsimp only)
  repeat' split
  all_goals first | simp (disch := (intros; simp [ite_now])) [ite_now, foldl_now, h_eff] | rfl

@[simp] theorem atStack_now (s : State) (p : Packet) (eff : State → Nat → State) (h_eff : ∀ x0 x1, (eff x0 x1).now = x0.now) :
    (atStack s p eff).now = s.now := by
  unfold atStack
  (try dsimp only)
  repeat' split
  all_goals first | simp (disch := (intros; simp [ite_now])) [ite_now, foldl_now, h_eff] | rfl

@[simp] theorem wrCore_now (p : Packet) (s : State) (c : Nat)  :
    (wrCore p s c).now = s.now := by
  simp (disch := (intros; simp [ite_now])) [wrCore, ite_now, foldl_now]

@[simp] theorem wrStack_now (p : Packet) (s : State) (st : Nat)  :
    (wrStack p s st).now = s.now := by
  unfold wrStack
  (try dsimp only)
  repeat' split
  all_goals first | simp (disch := (intros; simp [ite_now])) [ite_now, foldl_now] | rfl

@[simp] theorem dispatchReq_now (s : State) (p : Packet) (core stack : State → Nat → State) (h_core : ∀ x0 x1, (core x0 x1).now = x0.now) (h_stack : ∀ x0 x1, (stack x0 x1).now = x0.now) :
    (dispatchReq s p core stack).now = s.now := by
  unfold dispatchReq
  (try dsimp only)
  repeat' split
  all_goals first | rfl | simp_all [ite_now, foldl_now, h_core, h_stack]

@[simp] theorem rdCore_now (p : Packet) (s : State) (c : Nat)  :
    (rdCore p s c).now = s.now := by
  simp (disch := (intros; simp [ite_now])) [rdCore, ite_now, foldl_now]

@[simp] theorem rdStack_now (p : Packet) (s : State) (st : Nat)  :
    (rdStack p s st).now = s.now := by
  unfold rdStack
  (try dsimp only)
  repeat' split
  all_goals first | simp (disch := (intros; simp [ite_now])) [ite_now, foldl_now] | rfl

@[simp] theorem hqpCore_now (p : Packet) (s : State) (c : Nat)  :
    (hqpCore p s c).now = s.now := by
  simp (disch := (intros; simp [ite_now])) [hqpCore, ite_now, foldl_now]

@[simp] theorem stackWrite_now (s : State) (st off : Nat) (val : Word)  :
    (stackWrite s st off val).now = s.now := by
  unfold stackWrite
  (try dsimp only)
  repeat' split
  all_goals first | simp (disch := (intros; simp [ite_now])) [ite_now, foldl_now] | rfl

@[simp] theorem routerWrite_now (s : State) (r off : Nat) (val : Word)  :
    (routerWrite s r off val).now = s.now := by
  unfold routerWrite
  (try dsimp only)
  repeat' split
  all_goals first | simp (disch := (intros; simp [ite_now])) [ite_now, foldl_now] | rfl

@[simp] theorem regAccess_now (s : State) (p : Packet) (eff : State → Nat → State) (atS : State → Nat → State) (atR : State → Nat → State) (h_eff : ∀ x0 x1, (eff x0 x1).now = x0.now) (h_atS : ∀ x0 x1, (atS x0 x1).now = x0.now) (h_atR : ∀ x0 x1, (atR x0 x1).now = x0.now) :
    (regAccess s p eff atS atR).now = s.now := by
  unfold regAccess
  (try dsimp only)
  repeat' split
  all_goals first | rfl | simp_all [ite_now, foldl_now, h_eff, h_atS, h_atR]

@[simp] theorem answerCore_now (s : State) (c tag status : Nat) (data : List Byte) (tarn : Bool)  :
    (answerCore s c tag status data tarn).now = s.now := by
  unfold answerCore
  (try dsimp only)
  repeat' split
  all_goals first | simp (disch := (intros; simp [ite_now])) [ite_now, foldl_now] | rfl

@[simp] theorem answerAt_now (s : State) (p : Packet) (data : List Byte)  :
    (answerAt s p data).now = s.now := by
  unfold answerAt
  (try dsimp only)
  repeat' split
  all_goals first | simp (disch := (intros; simp [ite_now])) [ite_now, foldl_now] | rfl

theorem requestTimeout_now_le (s : State) (src : Source) (tag : Nat) : s.now ≤ (requestTimeout s src tag).now := by
  unfold requestTimeout
  dsimp only
  repeat' split
  all_goals first
    | (simp [Nat.le_max_left]; done)
    | (refine Nat.le_trans ?_ (postTimeout_now_le _ _ _); simp [Nat.le_max_left])

@[simp] theorem arriveAt_now (s : State) (r grp gen : Nat)  :
    (arriveAt s r grp gen).now = s.now := by
  simp (disch := (intros; simp [ite_now])) [arriveAt, ite_now, foldl_now]

@[simp] theorem State.dropNet_now (s : State) (f : Packet → Bool)  :
    (State.dropNet s f).now = s.now := by
  unfold State.dropNet
  (try dsimp only)
  repeat' split
  all_goals first | simp (disch := (intros; simp [ite_now])) [ite_now, foldl_now] | rfl

@[simp] theorem winRead_now (s0 : State) (off : Nat)  :
    (winRead s0 off).2.now = s0.now := by
  unfold winRead
  (try dsimp only)
  repeat' split
  all_goals first | simp (disch := (intros; simp [ite_now])) [ite_now, foldl_now] | rfl

@[simp] theorem readSpace_now (s : State) (kind target off : Nat)  :
    (readSpace s kind target off).2.now = s.now := by
  unfold readSpace
  (try dsimp only)
  repeat' split
  all_goals first | simp (disch := (intros; simp [ite_now])) [ite_now, foldl_now] | rfl

@[simp] theorem State.setRing_now (s : State) (r : Nat) (k : Ring)  :
    (State.setRing s r k).now = s.now := by
  simp (disch := (intros; simp [ite_now])) [State.setRing, ite_now, foldl_now]

@[simp] theorem doorbellBad_now (s : State) (r : Nat) (k : Ring)  :
    (doorbellBad s r k).now = s.now := by
  simp (disch := (intros; simp [ite_now])) [doorbellBad, ite_now, foldl_now]

@[simp] theorem ringTail_now (s : State) (r val : Nat)  :
    (ringTail s r val).now = s.now := by
  unfold ringTail
  (try dsimp only)
  repeat' split
  all_goals first | simp (disch := (intros; simp [ite_now])) [ite_now, foldl_now] | rfl

@[simp] theorem ringChead_now (s : State) (r val : Nat)  :
    (ringChead s r val).now = s.now := by
  unfold ringChead
  (try dsimp only)
  repeat' split
  all_goals first | simp (disch := (intros; simp [ite_now])) [ite_now, foldl_now] | rfl

@[simp] theorem doorbell_now (s : State) (r : Nat) (ofChead : Bool) (val : Nat)  :
    (doorbell s r ofChead val).now = s.now := by
  unfold doorbell
  (try dsimp only)
  repeat' split
  all_goals first | simp (disch := (intros; simp [ite_now])) [ite_now, foldl_now] | rfl

@[simp] theorem takeCommand_now (s : State)  :
    (takeCommand s).now = s.now := by
  unfold takeCommand
  (try dsimp only)
  repeat' split
  all_goals first | simp (disch := (intros; simp [ite_now])) [ite_now, foldl_now] | rfl

@[simp] theorem command_now (s : State) (r : Nat) (pos : Word) (code : Nat) (body : State → Ring → List Word → State) (h_body : ∀ x0 x1 x2, (body x0 x1 x2).now = x0.now) :
    (command s r pos code body).now = s.now := by
  unfold command
  (try dsimp only)
  repeat' split
  all_goals first | simp (disch := (intros; simp [ite_now])) [ite_now, foldl_now, h_body] | rfl

@[simp] theorem commandIf_now (s : State) (r : Nat) (pos : Word) (code : Nat) (test : List Word → Bool) (body : State → Ring → List Word → State) (h_body : ∀ x0 x1 x2, (body x0 x1 x2).now = x0.now) :
    (commandIf s r pos code test body).now = s.now := by
  unfold commandIf
  (try dsimp only)
  repeat' split
  all_goals first | rfl | simp_all [ite_now, foldl_now, h_body]

@[simp] theorem writeRecord_now (s : State) (r : Nat) (k : Ring) (code status : Nat) (tag pos handle : Word) (res : List Word)  :
    (writeRecord s r k code status tag pos handle res).1.now = s.now := by
  unfold writeRecord
  (try dsimp only)
  repeat' split
  all_goals first | simp (disch := (intros; simp [ite_now])) [ite_now, foldl_now] | rfl

@[simp] theorem dropRing_now (s : State) (r : Nat)  :
    (dropRing s r).now = s.now := by
  unfold dropRing
  (try dsimp only)
  repeat' split
  all_goals first | simp (disch := (intros; simp [ite_now])) [ite_now, foldl_now] | rfl

@[simp] theorem settleRing_now (s : State) (r : Nat)  :
    (settleRing s r).now = s.now := by
  unfold settleRing
  (try dsimp only)
  repeat' split
  all_goals first | simp (disch := (intros; simp [ite_now])) [ite_now, foldl_now] | rfl

@[simp] theorem returnCredit_now (s : State) (sess : Nat)  :
    (returnCredit s sess).now = s.now := by
  unfold returnCredit
  (try dsimp only)
  repeat' split
  all_goals first | simp (disch := (intros; simp [ite_now])) [ite_now, foldl_now] | rfl

@[simp] theorem writeCompletion_now (s : State) (r : Nat)  :
    (writeCompletion s r).now = s.now := by
  unfold writeCompletion
  (try dsimp only)
  repeat' split
  all_goals first | simp (disch := (intros; simp [ite_now])) [ite_now, foldl_now] | rfl

@[simp] theorem eventTo_now (e : Event) (s : State) (r : Nat)  :
    (eventTo e s r).now = s.now := by
  unfold eventTo
  (try dsimp only)
  repeat' split
  all_goals first | simp (disch := (intros; simp [ite_now])) [ite_now, foldl_now] | rfl

@[simp] theorem reportEvent_now (s : State)  :
    (reportEvent s).now = s.now := by
  unfold reportEvent
  (try dsimp only)
  repeat' split
  all_goals first | simp (disch := (intros; simp [ite_now])) [ite_now, foldl_now] | rfl

@[simp] theorem winPlain_now (s : State) (o : Nat) (val : Word)  :
    (winPlain s o val).now = s.now := by
  unfold winPlain
  (try dsimp only)
  repeat' split
  all_goals first | simp (disch := (intros; simp [ite_now])) [ite_now, foldl_now] | rfl

@[simp] theorem onBuffer_now (s : State) (r : Nat) (pos : Word) (k : Ring) (ws : List Word) (body : State → Nat → HostBuf → State) (h_body : ∀ x0 x1 x2, (body x0 x1 x2).now = x0.now) :
    (onBuffer s r pos k ws body).now = s.now := by
  unfold onBuffer
  (try dsimp only)
  repeat' split
  all_goals first | simp (disch := (intros; simp [ite_now])) [ite_now, foldl_now, h_body] | rfl

@[simp] theorem dropChannel_now (s : State) (i : Nat) (c : Channel)  :
    (dropChannel s i c).now = s.now := by
  simp (disch := (intros; simp [ite_now])) [dropChannel, ite_now, foldl_now]

@[simp] theorem settleChannel_now (s : State) (i : Nat)  :
    (settleChannel s i).now = s.now := by
  unfold settleChannel
  (try dsimp only)
  repeat' split
  all_goals first | simp (disch := (intros; simp [ite_now])) [ite_now, foldl_now] | rfl

@[simp] theorem mapContexts_now (s : State) (test : StreamCtx → Bool) (f : State → Nat → Nat → State) (h_f : ∀ x0 x1 x2, (f x0 x1 x2).now = x0.now) :
    (mapContexts s test f).now = s.now := by
  unfold mapContexts
  (try dsimp only)
  repeat' split
  all_goals first | rfl | simp_all [ite_now, foldl_now, h_f]

@[simp] theorem dropWindow_now (s : State) (w : Nat)  :
    (dropWindow s w).now = s.now := by
  simp (disch := (intros; simp [ite_now])) [dropWindow, ite_now, foldl_now]

@[simp] theorem writeXlat_now (s : State) (ls : List Nat)  :
    (writeXlat s ls).now = s.now := by
  simp (disch := (intros; simp [ite_now])) [writeXlat, ite_now, foldl_now]

@[simp] theorem putRegionReg_now (s : State) (p l part : Nat)  :
    (putRegionReg s p l part).now = s.now := by
  simp (disch := (intros; simp [ite_now])) [putRegionReg, ite_now, foldl_now]

@[simp] theorem putOwner_now (s : State) (unit0 n part : Nat) (valid : Bool)  :
    (putOwner s unit0 n part valid).now = s.now := by
  simp (disch := (intros; simp [ite_now])) [putOwner, ite_now, foldl_now]

@[simp] theorem writeDist_now (s : State)  :
    (writeDist s).now = s.now := by
  simp (disch := (intros; simp [ite_now])) [writeDist, ite_now, foldl_now]

@[simp] theorem mcBit_now (s : State) (r g b : Nat)  :
    (mcBit s r g b).now = s.now := by
  simp (disch := (intros; simp [ite_now])) [mcBit, ite_now, foldl_now]

@[simp] theorem makeGroup_now (s : State) (g part src : Nat) (cores : List Nat)  :
    (makeGroup s g part src cores).now = s.now := by
  unfold makeGroup
  (try dsimp only)
  repeat' split
  all_goals first | rfl | simp_all [ite_now, foldl_now]

@[simp] theorem dropGroup_now (s : State) (g : Nat)  :
    (dropGroup s g).now = s.now := by
  simp (disch := (intros; simp [ite_now])) [dropGroup, ite_now, foldl_now]

@[simp] theorem putBypasses_now (s : State) (bad : List Nat)  :
    (putBypasses s bad).now = s.now := by
  simp (disch := (intros; simp [ite_now])) [putBypasses, ite_now, foldl_now]

@[simp] theorem judgeRow_now (s : State) (q : Nat)  :
    (judgeRow s q).now = s.now := by
  unfold judgeRow
  (try dsimp only)
  repeat' split
  all_goals first | simp (disch := (intros; simp [ite_now])) [ite_now, foldl_now] | rfl

@[simp] theorem fenceRegion_now (s : State) (p : Nat)  :
    (fenceRegion s p).now = s.now := by
  simp (disch := (intros; simp [ite_now])) [fenceRegion, ite_now, foldl_now]

@[simp] theorem recordDefects_now (s : State) (cores regions : List Nat)  :
    (recordDefects s cores regions).now = s.now := by
  simp (disch := (intros; simp [ite_now])) [recordDefects, ite_now, foldl_now]

@[simp] theorem zeroSpads_now (s : State)  :
    (zeroSpads s).now = s.now := by
  simp (disch := (intros; simp [ite_now])) [zeroSpads, ite_now, foldl_now]

@[simp] theorem bistResult_now (s : State) (f : BistFindings)  :
    (bistResult s f).1.now = s.now := by
  simp (disch := (intros; simp [ite_now])) [bistResult, ite_now, foldl_now]

@[simp] theorem logAdd_now (s : State) (kind index : Nat) (digest : List Byte)  :
    (logAdd s kind index digest).now = s.now := by
  simp (disch := (intros; simp [ite_now])) [logAdd, ite_now, foldl_now]

@[simp] theorem brgEnd_now (s : State) (cause : Nat)  :
    (brgEnd s cause).now = s.now := by
  simp (disch := (intros; simp [ite_now])) [brgEnd, ite_now, foldl_now]

@[simp] theorem pourTarget_now (i : PourInfo) (targets : List Nat) (s : State) (c : Nat)  :
    (pourTarget i targets s c).now = s.now := by
  simp (disch := (intros; simp [ite_now])) [pourTarget, ite_now, foldl_now]

@[simp] theorem startPour_now (part : Nat) (s : State) (e : PourInfo × List Nat)  :
    (startPour part s e).now = s.now := by
  simp (disch := (intros; simp [ite_now])) [startPour, ite_now, foldl_now]

@[simp] theorem programReady_now (s : State) (i : Nat)  :
    (programReady s i).now = s.now := by
  unfold programReady
  (try dsimp only)
  repeat' split
  all_goals first | simp (disch := (intros; simp [ite_now])) [ite_now, foldl_now] | rfl

@[simp] theorem pourComplete_now (s : State) (key : Nat)  :
    (pourComplete s key).now = s.now := by
  unfold pourComplete
  (try dsimp only)
  repeat' split
  all_goals first | simp (disch := (intros; simp [ite_now])) [ite_now, foldl_now] | rfl

@[simp] theorem pourLoses_now (s : State) (key c : Nat)  :
    (pourLoses s key c).now = s.now := by
  unfold pourLoses
  (try dsimp only)
  repeat' split
  all_goals first | simp (disch := (intros; simp [ite_now])) [ite_now, foldl_now] | rfl

@[simp] theorem pourFailed_now (s : State) (key : Nat)  :
    (pourFailed s key).now = s.now := by
  simp (disch := (intros; simp [ite_now])) [pourFailed, ite_now, foldl_now]

@[simp] theorem pourReport_now (s : State) (c : Nat) (digest : List Byte)  :
    (pourReport s c digest).now = s.now := by
  unfold pourReport
  (try dsimp only)
  repeat' split
  all_goals first | simp (disch := (intros; simp [ite_now])) [ite_now, foldl_now] | rfl

@[simp] theorem failStepReqs_now (s : State) (p cause : Nat) (tarn : Bool)  :
    (failStepReqs s p cause tarn).now = s.now := by
  unfold failStepReqs
  (try dsimp only)
  repeat' split
  all_goals first | simp (disch := (intros; simp [ite_now])) [ite_now, foldl_now] | rfl

@[simp] theorem markChecks_now (s : State) (p b : Nat)  :
    (markChecks s p b).now = s.now := by
  simp (disch := (intros; simp [ite_now])) [markChecks, ite_now, foldl_now]

@[simp] theorem copyState_now (s : State) (p : Nat) (k : Partn)  :
    (copyState s p k).1.now = s.now := by
  simp (disch := (intros; simp [ite_now])) [copyState, ite_now, foldl_now]

@[simp] theorem readyRequest_now (s : State) (p : Nat) (q : Request)  :
    (readyRequest s p q).now = s.now := by
  unfold readyRequest
  (try dsimp only)
  repeat' split
  all_goals first | simp (disch := (intros; simp [ite_now])) [ite_now, foldl_now] | rfl

@[simp] theorem takeHold_now (s : State) (p : Nat)  :
    (takeHold s p).now = s.now := by
  unfold takeHold
  (try dsimp only)
  repeat' split
  all_goals first | simp (disch := (intros; simp [ite_now])) [ite_now, foldl_now] | rfl

@[simp] theorem answerJoin_now (s : State) (p : Nat)  :
    (answerJoin s p).now = s.now := by
  unfold answerJoin
  (try dsimp only)
  repeat' split
  all_goals first | simp (disch := (intros; simp [ite_now])) [ite_now, foldl_now] | rfl

@[simp] theorem commitStep_now (s : State) (p n : Nat)  :
    (commitStep s p n).now = s.now := by
  unfold commitStep
  (try dsimp only)
  repeat' split
  all_goals first | simp (disch := (intros; simp [ite_now])) [ite_now, foldl_now] | rfl

@[simp] theorem holdTouch_now (s : State) (p n : Nat)  :
    (holdTouch s p n).now = s.now := by
  unfold holdTouch
  (try dsimp only)
  repeat' split
  all_goals first | simp (disch := (intros; simp [ite_now])) [ite_now, foldl_now] | rfl

@[simp] theorem settleBefore_now (s : State) (p : Nat)  :
    (settleBefore s p).now = s.now := by
  unfold settleBefore
  (try dsimp only)
  repeat' split
  all_goals first | rfl | simp_all [ite_now, foldl_now]

@[simp] theorem drainLater_now (s : State) (p : Nat)  :
    (drainLater s p).now = s.now := foldl_now _ (fun _ _ => by (repeat' split) <;> simp [ite_now]) _ _

@[simp] theorem commitHeld_now (s : State) (p n : Nat)  :
    (commitHeld s p n).now = s.now := by
  simp (disch := (intros; simp [ite_now])) [commitHeld, ite_now, foldl_now]

@[simp] theorem failHeld_now (s : State) (p cause : Nat)  :
    (failHeld s p cause).now = s.now := by
  simp (disch := (intros; simp [ite_now])) [failHeld, ite_now, foldl_now]

@[simp] theorem decideHeld_now (s : State) (p n : Nat) (answer : List Byte)  :
    (decideHeld s p n answer).now = s.now := by
  unfold decideHeld
  (try dsimp only)
  repeat' split
  all_goals first | simp (disch := (intros; simp [ite_now])) [ite_now, foldl_now] | rfl

@[simp] theorem cleanStep_now (s : State) (p : Nat) (suspect : Bool)  :
    (cleanStep s p suspect).now = s.now := by
  unfold cleanStep
  (try dsimp only)
  repeat' split
  all_goals first | simp (disch := (intros; simp [ite_now])) [ite_now, foldl_now] | rfl

@[simp] theorem testCores_now (s : State) (p : Nat) (cs : List Nat)  :
    (testCores s p cs).now = s.now := by
  simp (disch := (intros; simp [ite_now])) [testCores, ite_now, foldl_now]

@[simp] theorem failAndTest_now (s : State) (p : Nat)  :
    (failAndTest s p).now = s.now := by
  simp (disch := (intros; simp [ite_now])) [failAndTest, ite_now, foldl_now]

@[simp] theorem rerunStep_now (s : State) (p : Nat) (next : Findings)  :
    (rerunStep s p next).now = s.now := by
  unfold rerunStep
  (try dsimp only)
  repeat' split
  all_goals first | simp (disch := (intros; simp [ite_now])) [ite_now, foldl_now] | rfl

@[simp] theorem programFault_now (s : State) (p : Nat)  :
    (programFault s p).now = s.now := by
  simp (disch := (intros; simp [ite_now])) [programFault, ite_now, foldl_now]

@[simp] theorem prunePairs_now (s : State) (p : Nat) (k : Partn) (l : List (Nat × List Nat))  :
    (prunePairs s p k l).now = s.now := by
  unfold prunePairs
  (try dsimp only)
  repeat' split
  all_goals first | rfl | simp_all [ite_now, foldl_now]

@[simp] theorem resolveStep_now (s : State) (p : Nat) (k : Partn)  :
    (resolveStep s p k).now = s.now := by
  unfold resolveStep
  dsimp only
  apply ite_keeps_now
  · simp (disch := (intros; simp)) [foldl_now]
  · repeat' apply ite_keeps_now
    · simp
    · simp
    · split
      · simp
      · repeat' apply ite_keeps_now
        all_goals first | (simp; done) | (simp only [cleanStep_now]; split <;> simp)

@[simp] theorem judgeStep_now (s : State) (p : Nat)  :
    (judgeStep s p).now = s.now := by
  unfold judgeStep
  (try dsimp only)
  repeat' split
  all_goals first | simp (disch := (intros; simp [ite_now])) [ite_now, foldl_now] | rfl

@[simp] theorem takePm_now (s : State) (c : Nat)  :
    (takePm s c).now = s.now := by
  simp (disch := (intros; simp [ite_now])) [takePm, ite_now, foldl_now]

@[simp] theorem mapAllCtxs_now (s : State) (f : StreamCtx → StreamCtx)  :
    (mapAllCtxs s f).now = s.now := by
  simp (disch := (intros; simp [ite_now])) [mapAllCtxs, ite_now, foldl_now]

@[simp] theorem countAbsorbed_now (s : State) (n : Nat)  :
    (countAbsorbed s n).now = s.now := by
  simp (disch := (intros; simp [ite_now])) [countAbsorbed, ite_now, foldl_now]

@[simp] theorem resetCores_now (s : State) (cs : List Nat) (keepSlots : Bool)  :
    (resetCores s cs keepSlots).now = s.now := by
  simp (disch := (intros; simp [ite_now])) [resetCores, ite_now, foldl_now]

@[simp] theorem clearBarriers_now (s : State) (p : Nat)  :
    (clearBarriers s p).now = s.now := by
  simp (disch := (intros; simp [ite_now])) [clearBarriers, ite_now, foldl_now]

@[simp] theorem resetPart_now (s : State) (p : Nat) (stays : Bool)  :
    (resetPart s p stays).now = s.now := by
  unfold resetPart
  (try dsimp only)
  repeat' split
  all_goals first | simp (disch := (intros; simp [ite_now])) [ite_now, foldl_now] | rfl

@[simp] theorem launchPart_now (s : State) (p : Nat) (t : Nat)  :
    (launchPart s p t).now = s.now := by
  unfold launchPart
  (try dsimp only)
  repeat' split
  all_goals first | simp (disch := (intros; simp [ite_now])) [ite_now, foldl_now] | rfl

@[simp] theorem applyChecks_now (s : State) (p : Nat)  :
    (applyChecks s p).now = s.now := by
  unfold applyChecks
  (try dsimp only)
  repeat' split
  all_goals first | simp (disch := (intros; simp [ite_now])) [ite_now, foldl_now] | rfl

@[simp] theorem stepBoundary_now (s : State) (p : Nat)  :
    (stepBoundary s p).now = s.now := by
  unfold stepBoundary
  (try dsimp only)
  repeat' split
  all_goals first | simp (disch := (intros; simp [ite_now])) [ite_now, foldl_now] | rfl

theorem barrierPart_now_le (s0 : State) (p : Nat) (k : Partn) (l : Nat) : s0.now ≤ (barrierPart s0 p k l).now := by
  unfold barrierPart
  (try dsimp only)
  repeat' split
  all_goals first | (simp (disch := (intros; simp [ite_now])) [ite_now, foldl_now, Nat.le_max_left]; done)

@[simp] theorem layPart_now (s : State) (p : Nat) (k : Partn)  :
    (layPart s p k).now = s.now := by
  simp (disch := (intros; simp [ite_now])) [layPart, ite_now, foldl_now]

@[simp] theorem putCommit_now (s : State)  :
    (putCommit s).now = s.now := by
  simp (disch := (intros; simp [ite_now])) [putCommit, ite_now, foldl_now]

@[simp] theorem dropObjects_now (s : State) (p : Nat)  :
    (dropObjects s p).now = s.now := by
  unfold dropObjects
  (try dsimp only)
  simp (disch := (intros; (repeat' split) <;> simp [ite_now])) [ite_now, foldl_now]

@[simp] theorem finishClose_now (s : State) (p : Nat)  :
    (finishClose s p).now = s.now := by
  unfold finishClose
  (try dsimp only)
  repeat' split
  all_goals first | simp (disch := (intros; simp [ite_now])) [ite_now, foldl_now] | rfl

@[simp] theorem settleClosing_now (s : State)  :
    (settleClosing s).now = s.now := by
  simp (disch := (intros; simp [ite_now])) [settleClosing, ite_now, foldl_now]

@[simp] theorem reportBroken_now (s : State)  :
    (reportBroken s).now = s.now := by
  simp (disch := (intros; simp [ite_now])) [reportBroken, ite_now, foldl_now]

@[simp] theorem bindEp_now (s : State) (e : Nat × Nat)  :
    (bindEp s e).now = s.now := by
  simp (disch := (intros; simp [ite_now])) [bindEp, ite_now, foldl_now]

@[simp] theorem shed_now (s : State) (r pos status : Nat) (ready : Option Nat)  :
    (shed s r pos status ready).now = s.now := by
  simp (disch := (intros; simp [ite_now])) [shed, ite_now, foldl_now]

@[simp] theorem admitReq_now (s : State) (p r pos j b : Nat) (q : Session) (k : Partn) (ws : List Word) (plan dead : Nat) (times : List Nat × List Nat × Nat)  :
    (admitReq s p r pos j b q k ws plan dead times).now = s.now := by
  unfold admitReq
  (try dsimp only)
  repeat' split
  all_goals first | simp (disch := (intros; simp [ite_now])) [ite_now, foldl_now] | rfl

@[simp] theorem judgeSubmit_now (s : State) (r pos : Nat) (ws : List Word) (q : Session) (b : HostBuf) (k : Partn) (pl : PlanInfo) (secs : List SectionInfo)  :
    (judgeSubmit s r pos ws q b k pl secs).now = s.now := by
  simp (disch := (intros; simp [ite_now])) [judgeSubmit, ite_now, foldl_now]

@[simp] theorem onIntegrity_now (s : State) (q ty : Nat) (m : List Byte) (sender : Partn → Bool) (eff : Nat → Partn → State) (h_eff : ∀ x0 x1, (eff x0 x1).now = s.now) :
    (onIntegrity s q ty m sender eff).now = s.now := by
  unfold onIntegrity
  (try dsimp only)
  repeat' split
  all_goals first | simp (disch := (intros; simp [ite_now])) [ite_now, foldl_now, h_eff] | rfl

@[simp] theorem vote_now (s : State) (p : Nat) (k : Partn) (r : Round)  :
    (vote s p k r).now = s.now := by
  simp (disch := (intros; simp [ite_now])) [vote, ite_now, foldl_now]

@[simp] theorem placeState_now (s : State) (p : Nat) (k : Partn) (data : List Byte)  :
    (placeState s p k data).now = s.now := by
  unfold placeState
  (try dsimp only)
  rw [foldl_now_pair _ (fun _ _ => by simp)]
  simp

@[simp] theorem judgeReplay_now (s : State) (p : Nat) (k : Partn) (q step plan len : Nat) (data : List Byte)  :
    (judgeReplay s p k q step plan len data).now = s.now := by
  unfold judgeReplay
  (try dsimp only)
  repeat' split
  all_goals first | simp (disch := (intros; simp [ite_now])) [ite_now, foldl_now] | rfl

@[simp] theorem noTouchstone_now (s : State) (p : Nat)  :
    (noTouchstone s p).now = s.now := by
  simp (disch := (intros; simp [ite_now])) [noTouchstone, ite_now, foldl_now]

@[simp] theorem takeResult_now (s : State) (p : Nat) (k : Partn) (t : Touch) (status : Nat) (digest : List Byte)  :
    (takeResult s p k t status digest).now = s.now := by
  simp (disch := (intros; simp [ite_now])) [takeResult, ite_now, foldl_now]

@[simp] theorem resetPort_now (s : State) (p : Nat)  :
    (resetPort s p).now = s.now := by
  simp (disch := (intros; simp [ite_now])) [resetPort, ite_now, foldl_now]

@[simp] theorem resetObjects_now (s : State)  :
    (resetObjects s).now = s.now := by
  simp (disch := (intros; simp [ite_now])) [resetObjects, ite_now, foldl_now]

@[simp] theorem abortFlights_now (s : State)  :
    (abortFlights s).now = s.now := by
  unfold abortFlights
  (try dsimp only)
  repeat' split
  all_goals first | simp (disch := (intros; simp [ite_now])) [ite_now, foldl_now] | rfl

@[simp] theorem resetHeart_now (s : State)  :
    (resetHeart s).now = s.now := by
  simp (disch := (intros; simp [ite_now])) [resetHeart, ite_now, foldl_now]

@[simp] theorem deviceReset_now (s : State)  :
    (deviceReset s).now = s.now := by
  simp (disch := (intros; simp [ite_now])) [deviceReset, ite_now, foldl_now]

@[simp] theorem noteLink_now (s : State) (r : Nat)  :
    (noteLink s r).now = s.now := by
  simp (disch := (intros; simp [ite_now])) [noteLink, ite_now, foldl_now]

@[simp] theorem onBurned_now (s : State) (n : Nat) (f : Core → Core)  :
    (onBurned s n f).now = s.now := by
  unfold onBurned
  (try dsimp only)
  repeat' split
  all_goals first | simp (disch := (intros; simp [ite_now])) [ite_now, foldl_now] | rfl

@[simp] theorem endPass_now (s : State) (p : Nat) (b : Burn) (cut : Bool)  :
    (endPass s p b cut).now = s.now := by
  simp (disch := (intros; simp [ite_now])) [endPass, ite_now, foldl_now]

@[simp] theorem endItem_now (s : State) (p : Nat) (b : Burn)  :
    (endItem s p b).now = s.now := by
  simp (disch := (intros; simp [ite_now])) [endItem, ite_now, foldl_now]

@[simp] theorem rstkLost_now (s : State) (q : Nat)  :
    (rstkLost s q).now = s.now := by
  simp (disch := (intros; simp [ite_now])) [rstkLost, ite_now, foldl_now]

@[simp] theorem burnFailed_now (s : State) (p : Nat) (b : Burn) (repeats : List Bool)  :
    (burnFailed s p b repeats).now = s.now := by
  unfold burnFailed
  (try dsimp only)
  repeat' split
  all_goals first | simp (disch := (intros; simp [ite_now])) [ite_now, foldl_now] | rfl

@[simp] theorem writePref_now (s : State)  :
    (writePref s).now = s.now := by
  simp (disch := (intros; simp [ite_now])) [writePref, ite_now, foldl_now]

@[simp] theorem takeOver_now (s : State)  :
    (takeOver s).now = s.now := by
  simp (disch := (intros; simp [ite_now])) [takeOver, ite_now, foldl_now]

@[simp] theorem clusterReset_now (s : State) (p cx cy : Nat)  :
    (clusterReset s p cx cy).now = s.now := by
  simp (disch := (intros; simp [ite_now])) [clusterReset, ite_now, foldl_now]

@[simp] theorem moveCores_now (s0 s : State) (cs : List Nat)  :
    (moveCores s0 s cs).now = s.now := foldl_now _ (fun _ _ => by simp) _ _

@[simp] theorem retarget_now (s : State) (p : Nat)  :
    (retarget s p).1.now = s.now := by
  simp (disch := (intros; simp [ite_now])) [retarget, ite_now, foldl_now]

@[simp] theorem graftMove_now (s : State) (p : Nat) (part : Option Nat)  :
    (graftMove s p part).now = s.now := by
  unfold graftMove
  (try dsimp only)
  repeat' split
  all_goals first | simp (disch := (intros; simp [ite_now])) [ite_now, foldl_now] | rfl

@[simp] theorem graftEvent_now (s : State) (p q col done : Nat)  :
    (graftEvent s p q col done).now = s.now := by
  simp (disch := (intros; simp [ite_now])) [graftEvent, ite_now, foldl_now]

@[simp] theorem endRecovery_now (s : State) (q : Nat) (done : State → State) (h_done : ∀ x0, (done x0).now = x0.now) :
    (endRecovery s q done).now = s.now := by
  simp (disch := (intros; simp [ite_now])) [endRecovery, ite_now, foldl_now, h_done]

@[simp] theorem replenish_now (s : State) (p : Nat)  :
    (replenish s p).now = s.now := by
  simp (disch := (intros; simp [ite_now])) [replenish, ite_now, foldl_now]

@[simp] theorem regionTested_now (s : State) (p : Nat) (pass : Bool)  :
    (regionTested s p pass).now = s.now := by
  simp (disch := (intros; simp [ite_now])) [regionTested, ite_now, foldl_now]

@[simp] theorem dropJob_now (s : State) (q ty : Nat)  :
    (dropJob s q ty).now = s.now := by
  simp (disch := (intros; simp [ite_now])) [dropJob, ite_now, foldl_now]

@[simp] theorem onJob_now (s : State) (q ty : Nat) (m : List Byte) (eff : State → Nat → Partn → State) (h_eff : ∀ x0 x1 x2, (eff x0 x1 x2).now = x0.now) :
    (onJob s q ty m eff).now = s.now := by
  unfold onJob
  (try dsimp only)
  repeat' split
  all_goals first | simp (disch := (intros; simp [ite_now])) [ite_now, foldl_now, h_eff] | rfl

@[simp] theorem takeQuench_now (s : State) (p : Nat) (k : Partn) (q : Nat) (m : List Byte)  :
    (takeQuench s p k q m).now = s.now := by
  simp (disch := (intros; simp [ite_now])) [takeQuench, ite_now, foldl_now]

@[simp] theorem releaseHold_now (s : State) (p : Nat)  :
    (releaseHold s p).now = s.now := by
  simp (disch := (intros; simp [ite_now])) [releaseHold, ite_now, foldl_now]

@[simp] theorem takeLive_now (s : State) (p : Nat) (k : Partn) (q : Nat) (m : List Byte)  :
    (takeLive s p k q m).now = s.now := by
  simp (disch := (intros; simp [ite_now])) [takeLive, ite_now, foldl_now]

@[simp] theorem endAdmission_now (s : State) (p : Nat) (d : Admission) (status : Nat)  :
    (endAdmission s p d status).now = s.now := by
  simp (disch := (intros; simp [ite_now])) [endAdmission, ite_now, foldl_now]

@[simp] theorem takeState_now (s : State) (p : Nat) (k : Partn) (d : Admission) (m data : List Byte)  :
    (takeState s p k d m data).now = s.now := by
  simp (disch := (intros; simp [ite_now])) [takeState, ite_now, foldl_now]

@[simp] theorem onReset_now (s : State) (r : Nat) (pos : Word) (n : Nat) (own : State → Partn → List Word → List (Bool × Nat)) (handles : List Word → List Word) (eff : State → Nat → Partn → List Word → State) (h_eff : ∀ x0 x1 x2 x3, (eff x0 x1 x2 x3).now = x0.now) :
    (onReset s r pos n own handles eff).now = s.now := commandIf_now _ _ _ _ _ _ fun _ _ _ => by
  (try dsimp only)
  (repeat' split) <;> simp [ite_now, h_eff]

@[simp] theorem testClears_now (s : State) (u : Word)  :
    (testClears s u).now = s.now := by
  unfold testClears
  (try dsimp only)
  repeat' split
  all_goals first | simp (disch := (intros; simp [ite_now])) [ite_now, foldl_now] | rfl

@[simp] theorem readmit_now (s : State) (u : Word)  :
    (readmit s u).now = s.now := by
  unfold readmit
  (try dsimp only)
  repeat' split
  all_goals first | simp (disch := (intros; simp [ite_now])) [ite_now, foldl_now] | rfl

@[simp] theorem testUnit_now (s : State) (r : Nat) (pos : Word) (act : Nat) (res : TestResult) (after : State → Word → State) (h_after : ∀ x0 x1, (after x0 x1).now = x0.now) :
    (testUnit s r pos act res after).now = s.now := by
  unfold testUnit
  (try dsimp only)
  repeat' split
  all_goals first | rfl | simp_all [ite_now, foldl_now, h_after]

@[simp] theorem fillBuffer_now (s : State) (b : HostBuf) (parts : List (Nat × List Byte)) (len : Nat)  :
    (fillBuffer s b parts len).now = s.now := by
  simp (disch := (intros; simp [ite_now])) [fillBuffer, ite_now, foldl_now]

@[simp] theorem railDown_now (s : State) (p rail : Nat)  :
    (railDown s p rail).now = s.now := by
  unfold railDown
  (try dsimp only)
  repeat' split
  all_goals first | simp (disch := (intros; simp [ite_now])) [ite_now, foldl_now] | rfl

@[simp] theorem railUp_now (s : State) (p : Nat)  :
    (railUp s p).now = s.now := by
  unfold railUp
  (try dsimp only)
  repeat' split
  all_goals first | simp (disch := (intros; simp [ite_now])) [ite_now, foldl_now] | rfl

@[simp] theorem onCrack_now (s : State) (p : Nat)  :
    (onCrack s p).now = s.now := by
  simp (disch := (intros; simp [ite_now])) [onCrack, ite_now, foldl_now]

@[simp] theorem setThermal_now (s : State) (p v : Nat)  :
    (setThermal s p v).now = s.now := by
  simp (disch := (intros; simp [ite_now])) [setThermal, ite_now, foldl_now]

@[simp] theorem setTmax_now (s : State) (p : Nat) (t : BitVec 8)  :
    (setTmax s p t).now = s.now := by
  simp (disch := (intros; simp [ite_now])) [setTmax, ite_now, foldl_now]

@[simp] theorem pollarded_now (s : State) (p : Nat)  :
    (pollarded s p).now = s.now := by
  simp (disch := (intros; simp [ite_now])) [pollarded, ite_now, foldl_now]

@[simp] theorem pollardNow_now (s : State) (p : Nat)  :
    (pollardNow s p).now = s.now := by
  simp (disch := (intros; simp [ite_now])) [pollardNow, ite_now, foldl_now]

@[simp] theorem askPollard_now (s : State) (p q : Nat)  :
    (askPollard s p q).now = s.now := by
  simp (disch := (intros; simp [ite_now])) [askPollard, ite_now, foldl_now]

@[simp] theorem dropRequest_now (s : State) (p : Nat)  :
    (dropRequest s p).now = s.now := by
  simp (disch := (intros; simp [ite_now])) [dropRequest, ite_now, foldl_now]

@[simp] theorem pollardMove_now (s : State) (p q : Nat)  :
    (pollardMove s p q).now = s.now := by
  simp (disch := (intros; simp [ite_now])) [pollardMove, ite_now, foldl_now]

@[simp] theorem onHard_now (s : State) (p : Nat)  :
    (onHard s p).now = s.now := by
  unfold onHard
  (try dsimp only)
  repeat' split
  all_goals first | simp (disch := (intros; simp [ite_now])) [ite_now, foldl_now] | rfl

@[simp] theorem quenchAll_now (s : State) (cause : Nat)  :
    (quenchAll s cause).now = s.now := by
  simp (disch := (intros; simp [ite_now])) [quenchAll, ite_now, foldl_now]

@[simp] theorem finding_now (s : State) (c : Nat) (f : Findings → Findings)  :
    (finding s c f).now = s.now := by
  unfold finding
  (try dsimp only)
  repeat' split
  all_goals first | simp (disch := (intros; simp [ite_now])) [ite_now, foldl_now] | rfl

@[simp] theorem progFinding_now (s : State) (c : Nat) (args : List Nat)  :
    (progFinding s c args).now = s.now := by
  simp (disch := (intros; simp [ite_now])) [progFinding, ite_now, foldl_now]

@[simp] theorem correctedPatina_now (s : State) (st : Nat)  :
    (correctedPatina s st).now = s.now := by
  simp (disch := (intros; simp [ite_now])) [correctedPatina, ite_now, foldl_now]

@[simp] theorem onPageMiss_now (s : State) (st c why : Nat)  :
    (onPageMiss s st c why).now = s.now := by
  unfold onPageMiss
  (try dsimp only)
  repeat' split
  all_goals first | simp (disch := (intros; simp [ite_now])) [ite_now, foldl_now] | rfl

@[simp] theorem onStreamFailed_now (s : State) (st c : Nat)  :
    (onStreamFailed s st c).now = s.now := by
  simp (disch := (intros; simp [ite_now])) [onStreamFailed, ite_now, foldl_now]

@[simp] theorem onSkew_now (s : State) (u : Nat)  :
    (onSkew s u).now = s.now := by
  simp (disch := (intros; simp [ite_now])) [onSkew, ite_now, foldl_now]

@[simp] theorem takeRecord_now (s : State) (r : Rec)  :
    (takeRecord s r).now = s.now := by
  unfold takeRecord
  (try dsimp only)
  repeat' split
  all_goals first | simp (disch := (intros; simp [ite_now])) [ite_now, foldl_now] | rfl

@[simp] theorem startStep_now (s : State) (w : Word) (auto : Bool)  :
    (startStep s w auto).now = s.now := by
  simp (disch := (intros; simp [ite_now])) [startStep, ite_now, foldl_now]

@[simp] theorem goWrite_now (s : State) (w : Word)  :
    (goWrite s w).now = s.now := by
  simp (disch := (intros; simp [ite_now])) [goWrite, ite_now, foldl_now]

@[simp] theorem vsetWrite_now (s : State) (o : Nat) (val : Word)  :
    (vsetWrite s o val).now = s.now := by
  simp (disch := (intros; simp [ite_now])) [vsetWrite, ite_now, foldl_now]

@[simp] theorem thrWrite_now (s : State) (o : Nat) (val : Word)  :
    (thrWrite s o val).now = s.now := by
  simp (disch := (intros; simp [ite_now])) [thrWrite, ite_now, foldl_now]

@[simp] theorem railWrite_now (s : State) (p : Nat) (val : Word)  :
    (railWrite s p val).now = s.now := by
  simp (disch := (intros; simp [ite_now])) [railWrite, ite_now, foldl_now]

@[simp] theorem clockWrite_now (s : State) (k r : Nat) (val : Word)  :
    (clockWrite s k r val).now = s.now := by
  simp (disch := (intros; simp [ite_now])) [clockWrite, ite_now, foldl_now]

@[simp] theorem rgnWrite_now (s : State) (p r : Nat) (val : Word)  :
    (rgnWrite s p r val).now = s.now := by
  simp (disch := (intros; simp [ite_now])) [rgnWrite, ite_now, foldl_now]

@[simp] theorem winWrite_now (s : State) (o : Nat) (val : Word)  :
    (winWrite s o val).now = s.now := by
  simp (disch := (intros; simp [ite_now])) [winWrite, ite_now, foldl_now]

@[simp] theorem bumpAll_now (s : State)  :
    (bumpAll s).now = s.now := by
  simp (disch := (intros; simp [ite_now])) [bumpAll, ite_now, foldl_now]

@[simp] theorem coldState_now (s0 : State)  :
    (coldState s0).now = s0.now := by
  simp (disch := (intros; simp [ite_now])) [coldState, ite_now, foldl_now]

@[simp] theorem onBrup_now (s : State) (p : Nat) (src : Word) (reads : Bool) (body : State) (h_body : body.now = s.now) :
    (onBrup s p src reads body).now = s.now := by
  unfold onBrup
  (try dsimp only)
  split <;> simp [h_body]

@[simp] theorem runStep_now (s : State) (k : Nat) (body : State → State) (h_body : ∀ x0, (body x0).now = x0.now) :
    (runStep s k body).now = s.now := by
  simp (disch := (intros; simp [ite_now])) [runStep, ite_now, foldl_now, h_body]

@[simp] theorem powerAll_now (s : State)  :
    (powerAll s).now = s.now := by
  simp (disch := (intros; simp [ite_now])) [powerAll, ite_now, foldl_now]

@[simp] theorem retrainAll_now (s : State) (st : Nat)  :
    (retrainAll s st).now = s.now := by
  simp (disch := (intros; simp [ite_now])) [retrainAll, ite_now, foldl_now]

@[simp] theorem brgClear_now (s : State)  :
    (brgClear s).now = s.now := by
  simp (disch := (intros; simp [ite_now])) [brgClear, ite_now, foldl_now]

@[simp] theorem autoStart_now (s : State)  :
    (autoStart s).now = s.now := by
  simp (disch := (intros; simp [ite_now])) [autoStart, ite_now, foldl_now]

@[simp] theorem stepFails_now (s : State) (cause : Nat)  :
    (stepFails s cause).now = s.now := by
  simp (disch := (intros; simp [ite_now])) [stepFails, ite_now, foldl_now]

@[simp] theorem loadFw_now (s : State) (bad : List (Nat × Nat × Nat))  :
    (loadFw s bad).now = s.now := by
  unfold loadFw
  (try dsimp only)
  repeat' split
  all_goals first | simp (disch := (intros; simp [ite_now])) [ite_now, foldl_now] | rfl

@[simp] theorem deviceErase_now (s : State)  :
    (deviceErase s).now = s.now := by
  simp (disch := (intros; simp [ite_now])) [deviceErase, ite_now, foldl_now]

@[simp] theorem transition_now (s : State) (target : Nat) (token : List Byte) (fuses : Bool)  :
    (transition s target token fuses).1.now = s.now := by
  unfold transition
  (try dsimp only)
  repeat' split
  all_goals first | simp (disch := (intros; simp [ite_now])) [ite_now, foldl_now] | rfl

@[simp] theorem transit_now (s : State) (fuses : Bool)  :
    (transit s fuses).1.now = s.now := by
  unfold transit
  (try dsimp only)
  repeat' split
  all_goals first | simp (disch := (intros; simp [ite_now])) [ite_now, foldl_now] | rfl

@[simp] theorem openRing0_now (s : State)  :
    (openRing0 s).now = s.now := by
  unfold openRing0
  (try dsimp only)
  repeat' split
  all_goals first | simp (disch := (intros; simp [ite_now])) [ite_now, foldl_now] | rfl

@[simp] theorem putOuts_now (s : State)  :
    (putOuts s).now = s.now := by
  unfold putOuts
  (try dsimp only)
  repeat' split
  all_goals first | simp (disch := (intros; simp [ite_now])) [ite_now, foldl_now] | rfl

@[simp] theorem layDist_now (s : State)  :
    (layDist s).now = s.now := by
  simp (disch := (intros; simp [ite_now])) [layDist, ite_now, foldl_now]

@[simp] theorem settleStore_now (s : State)  :
    (settleStore s).now = s.now := by
  simp (disch := (intros; simp [ite_now])) [settleStore, ite_now, foldl_now]

@[simp] theorem beginService_now (s : State) (act : Nat) (standby : Bool)  :
    (beginService s act standby).now = s.now := by
  simp (disch := (intros; simp [ite_now])) [beginService, ite_now, foldl_now]

@[simp] theorem startService_now (s : State) (west east fuses : Bool)  :
    (startService s west east fuses).now = s.now := by
  simp (disch := (intros; simp [ite_now])) [startService, ite_now, foldl_now]

@[simp] theorem onAttest_now (s : State) (r : Nat) (pos : Word) (n : Nat) (own : State → HostBuf → List Word → List (Bool × Nat)) (eff : State → HostBuf → List Word → State) (h_eff : ∀ x0 x1 x2, (eff x0 x1 x2).now = x0.now) :
    (onAttest s r pos n own eff).now = s.now := commandIf_now _ _ _ _ _ _ fun _ _ _ => by
  (try dsimp only)
  (repeat' split) <;> simp [ite_now, h_eff]

@[simp] theorem installKey_now (s : State) (p : Nat) (k : Partn) (key : List Byte)  :
    (installKey s p k key).now = s.now := by
  simp (disch := (intros; simp [ite_now])) [installKey, ite_now, foldl_now]

theorem issueMove_now_le (s : State) (i : Issue) (f : MoveField) (eff : Core → Nat → Bool → Core) : s.now ≤ (issueMove s i f eff).now := by
  unfold issueMove
  (try dsimp only)
  repeat' split
  all_goals first | (simp (disch := (intros; simp [ite_now])) [ite_now, foldl_now, Nat.le_max_left]; done)

theorem issueMatrix_now_le (s : State) (i : Issue) (k : MatKind) (f : MatField) : s.now ≤ (issueMatrix s i k f).now := by
  unfold issueMatrix
  (try dsimp only)
  repeat' split
  all_goals first | (simp (disch := (intros; simp [ite_now])) [ite_now, foldl_now, Nat.le_max_left]; done)

theorem reachDue_now_le (s : State) (c : CoreId) (l : List Nat) : s.now ≤ (reachDue s c l).now := by
  unfold reachDue
  (try dsimp only)
  repeat' split
  all_goals first | (simp (disch := (intros; simp [ite_now])) [ite_now, foldl_now, Nat.le_max_left]; done)

@[simp] theorem takePause_now (p : Nat) (quanta : List (BitVec 16)) (s : State) (i : Nat)  :
    (takePause p quanta s i).now = s.now := by
  simp (disch := (intros; simp [ite_now])) [takePause, ite_now, foldl_now]

@[simp] theorem sbSet_now (s : State) (off : Nat) (w : Word)  :
    (sbSet s off w).now = s.now := by
  simp (disch := (intros; simp [ite_now])) [sbSet, ite_now, foldl_now]

@[simp] theorem sbRead_now (s : State) (off : Nat)  :
    (sbRead s off).2.now = s.now := by
  unfold sbRead
  (try dsimp only)
  repeat' split
  all_goals first | simp (disch := (intros; simp [ite_now])) [ite_now, foldl_now] | rfl

@[simp] theorem fencePorts_now (s : State)  :
    (fencePorts s).now = s.now := by
  simp (disch := (intros; simp [ite_now])) [fencePorts, ite_now, foldl_now]

@[simp] theorem removalPath_now (s : State)  :
    (removalPath s).now = s.now := by
  simp (disch := (intros; simp [ite_now])) [removalPath, ite_now, foldl_now]

@[simp] theorem budgetWrite_now (s : State) (val : Word)  :
    (budgetWrite s val).now = s.now := by
  simp (disch := (intros; simp [ite_now])) [budgetWrite, ite_now, foldl_now]

@[simp] theorem sbWrite_now (s : State) (off : Nat) (val : Word)  :
    (sbWrite s off val).now = s.now := by
  unfold sbWrite
  (try dsimp only)
  repeat' split
  all_goals first | simp (disch := (intros; simp [ite_now])) [ite_now, foldl_now] | rfl

@[simp] theorem getCommon_now (s : State) (ws : List Word)  :
    (getCommon s ws).now = s.now := by
  simp (disch := (intros; simp [ite_now])) [getCommon, ite_now, foldl_now]

@[simp] theorem takeAddr_now (s : State) (addr : BitVec 7)  :
    (takeAddr s addr).now = s.now := by
  simp (disch := (intros; simp [ite_now])) [takeAddr, ite_now, foldl_now]

@[simp] theorem sendIbi_now (s : State) (ack : Bool)  :
    (sendIbi s ack).now = s.now := by
  simp (disch := (intros; simp [ite_now])) [sendIbi, ite_now, foldl_now]

@[simp] theorem regRead_now (s : State) (tgt : RegTarget) (off : Nat)  :
    (regRead s tgt off).2.now = s.now := by
  unfold regRead
  (try dsimp only)
  repeat' split
  all_goals first | simp (disch := (intros; simp [ite_now])) [ite_now, foldl_now] | rfl

@[simp] theorem regWrite_now (s : State) (tgt : RegTarget) (off : Nat) (val : Word)  :
    (regWrite s tgt off val).now = s.now := by
  unfold regWrite
  (try dsimp only)
  repeat' split
  all_goals first | simp (disch := (intros; simp [ite_now])) [ite_now, foldl_now] | rfl

@[simp] theorem regHard_now (s : State) (tgt : RegTarget) (off : Nat) (pick : RegDef → Word) (ev : Word)  :
    (regHard s tgt off pick ev).now = s.now := by
  unfold regHard
  (try dsimp only)
  repeat' split
  all_goals first | simp (disch := (intros; simp [ite_now])) [ite_now, foldl_now] | rfl

@[simp] theorem access_now (s : State) (tgt : RegTarget) (off size : Nat) (body : State) (h_body : body.now = s.now) :
    (access s tgt off size body).now = s.now := by
  unfold access
  (repeat' split) <;> simp [h_body]

theorem issueScalar_now_le (s : State) (i : Issue) (bad : Bool) (addrBad : Core → Nat → Bool) (eff : State → Core → Nat → Bool → State) (h_eff : ∀ x0 x1 x2 x3, x0.now ≤ (eff x0 x1 x2 x3).now) : s.now ≤ (issueScalar s i bad addrBad eff).now := by
  unfold issueScalar
  dsimp only
  split
  · exact Nat.le_refl _
  · repeat' split
    all_goals first | (simp [Nat.le_max_left]; done) | (refine Nat.le_trans ?_ (h_eff _ _ _ _); rw [State.reach_now]; exact Nat.le_max_left _ _)

@[simp] theorem scalarWrite_now (i : Issue) (reg : Nat) (s : State) (c : Core) (t : Nat) (en : Bool) (v : PWord)  :
    (scalarWrite i reg s c t en v).now = s.now := by
  simp (disch := (intros; simp [ite_now])) [scalarWrite, ite_now, foldl_now]

theorem issueReg_now_le (s : State) (i : Issue) (f : RegForm) (g : Word → Word → Word) : s.now ≤ (issueReg s i f g).now := by
  unfold issueReg
  exact issueScalar_now_le _ _ _ _ _ (by intros; simp [ite_now])

theorem issueImm_now_le (s : State) (i : Issue) (f : ImmForm) (g : Word → Word → Word) : s.now ≤ (issueImm s i f g).now := by
  unfold issueImm
  exact issueScalar_now_le _ _ _ _ _ (by intros; simp [ite_now])

theorem issueVector_now_le (s : State) (i : Issue) (judge : Core → Option Word) (unit occ : Nat) (run : VecCtx → Core → Core) : s.now ≤ (issueVector s i judge unit occ run).now := by
  unfold issueVector
  (try dsimp only)
  repeat' split
  all_goals first | (simp (disch := (intros; simp [ite_now])) [ite_now, foldl_now, Nat.le_max_left]; done)

theorem issueUnary_now_le (s : State) (i : Issue) (f : VecField) (mod : BitVec 6) (occ lat : Nat) (int : Bool) (g : Word → WF) : s.now ≤ (issueUnary s i f mod occ lat int g).now := by
  unfold issueUnary
  exact issueVector_now_le _ _ _ _ _ _

theorem issueBinary_now_le (s : State) (i : Issue) (f : VecField) (mod : BitVec 6) (occ lat : Nat) (int : Bool) (g : Word → Word → WF) : s.now ≤ (issueBinary s i f mod occ lat int g).now := by
  unfold issueBinary
  exact issueVector_now_le _ _ _ _ _ _

theorem issueReduce_now_le (s : State) (i : Issue) (f : VecField) (k : RedKind) (byRow : Bool) : s.now ≤ (issueReduce s i f k byRow).now := by
  unfold issueReduce
  exact issueVector_now_le _ _ _ _ _ _

@[simp] theorem singleOut_now (s : State) (l : Nat)  :
    (singleOut s l).now = s.now := by
  simp (disch := (intros; simp [ite_now])) [singleOut, ite_now, foldl_now]

@[simp] theorem tickSettle_now (s : State) (c : CoreId)  :
    (tickSettle s c).now = s.now := by
  simp (disch := (intros; simp [ite_now])) [tickSettle, ite_now, foldl_now]

end Sys2Proof.Machine
end

