-- ==== Sys2Proof/Laws/Pending.lean ====
section
/-! SUPPORT. No operation of the model touches the queue of waiting commands: one lemma per operation that gives a state. -/

set_option linter.unusedSimpArgs false
set_option linter.unreachableTactic false
set_option linter.unusedTactic false

namespace Sys2Proof.Machine
theorem foldl_pending {α : Type} (g : State → α → State) (h : ∀ a x, (g a x).pending = a.pending) (l : List α) (s : State) :
    (l.foldl g s).pending = s.pending := by
  induction l generalizing s with
  | nil => rfl
  | cons x t ih => simp only [List.foldl_cons, ih, h]
theorem ite_pending (p : Prop) [Decidable p] (a b : State) : (if p then a else b).pending = if p then a.pending else b.pending := by
  split <;> rfl
theorem ite_keeps (p : Prop) [Decidable p] (a b : State) (x : List Instr) (ha : a.pending = x) (hb : b.pending = x) :
    (if p then a else b).pending = x := by
  split <;> assumption
theorem foldl_pending_pair {α β : Type} (g : State × β → α → State × β) (h : ∀ a x, (g a x).1.pending = a.1.pending) (l : List α) (s : State × β) :
    (l.foldl g s).1.pending = s.1.pending := by
  induction l generalizing s with
  | nil => rfl
  | cons x t ih => simp only [List.foldl_cons, ih, h]

@[simp] theorem State.setRegion_pending (s : State) (r : Nat) (g : Region)  :
    (State.setRegion s r g).pending = s.pending := by
  simp (disch := (intros; simp [ite_pending])) [State.setRegion, ite_pending, foldl_pending]

@[simp] theorem State.setCore_pending (s : State) (c : Nat) (k : Core)  :
    (State.setCore s c k).pending = s.pending := by
  simp (disch := (intros; simp [ite_pending])) [State.setCore, ite_pending, foldl_pending]

@[simp] theorem State.reach_pending (s : State) (t : Nat)  :
    (State.reach s t).pending = s.pending := by
  simp (disch := (intros; simp [ite_pending])) [State.reach, ite_pending, foldl_pending]

@[simp] theorem State.takeFree_pending (s : State) (n : Nat)  :
    (State.takeFree s n).pending = s.pending := by
  simp (disch := (intros; simp [ite_pending])) [State.takeFree, ite_pending, foldl_pending]

@[simp] theorem State.answer_pending (s : State) (status : Nat) (words : List Word)  :
    (State.answer s status words).pending = s.pending := by
  simp (disch := (intros; simp [ite_pending])) [State.answer, ite_pending, foldl_pending]

@[simp] theorem State.record_pending (s : State) (r : Rec)  :
    (State.record s r).pending = s.pending := by
  simp (disch := (intros; simp [ite_pending])) [State.record, ite_pending, foldl_pending]

@[simp] theorem State.takeNet_pending (s : State) (p : Packet)  :
    (State.takeNet s p).pending = s.pending := by
  simp (disch := (intros; simp [ite_pending])) [State.takeNet, ite_pending, foldl_pending]

@[simp] theorem State.putNet_pending (s : State) (p : Packet)  :
    (State.putNet s p).pending = s.pending := by
  simp (disch := (intros; simp [ite_pending])) [State.putNet, ite_pending, foldl_pending]

@[simp] theorem sendRequest_pending (s : State) (c : Nat) (ps : List Packet) (what arg : Nat)  :
    (sendRequest s c ps what arg).pending = s.pending := by
  simp (disch := (intros; simp [ite_pending])) [sendRequest, ite_pending, foldl_pending]

@[simp] theorem postMessage_pending (s : State) (core e : Nat) (val : Word)  :
    (postMessage s core e val).pending = s.pending := by
  unfold postMessage
  (try dsimp only)
  repeat' split
  all_goals first | simp (disch := (intros; simp [ite_pending])) [ite_pending, foldl_pending] | rfl

@[simp] theorem breakChannel_pending (s : State) (core e : Nat)  :
    (breakChannel s core e).pending = s.pending := by
  simp (disch := (intros; simp [ite_pending])) [breakChannel, ite_pending, foldl_pending]

@[simp] theorem takeMessage_pending (s : State) (core : Nat) (p : Packet)  :
    (takeMessage s core p).pending = s.pending := by
  unfold takeMessage
  (try dsimp only)
  repeat' split
  all_goals first | simp (disch := (intros; simp [ite_pending])) [ite_pending, foldl_pending] | rfl

@[simp] theorem commitMessage_pending (s : State) (core e : Nat)  :
    (commitMessage s core e).pending = s.pending := by
  unfold commitMessage
  (try dsimp only)
  repeat' split
  all_goals first | simp (disch := (intros; simp [ite_pending])) [ite_pending, foldl_pending] | rfl

@[simp] theorem takeReply_pending (s : State) (core e code : Nat)  :
    (takeReply s core e code).pending = s.pending := by
  unfold takeReply
  (try dsimp only)
  repeat' split
  all_goals first | simp (disch := (intros; simp [ite_pending])) [ite_pending, foldl_pending] | rfl

@[simp] theorem postTimeout_pending (s : State) (core e : Nat)  :
    (postTimeout s core e).pending = s.pending := by
  unfold postTimeout
  (try dsimp only)
  repeat' split
  all_goals first | simp (disch := (intros; simp [ite_pending])) [ite_pending, foldl_pending] | rfl

@[simp] theorem State.setStack_pending (s : State) (n : Nat) (k : Stack)  :
    (State.setStack s n k).pending = s.pending := by
  simp (disch := (intros; simp [ite_pending])) [State.setStack, ite_pending, foldl_pending]

@[simp] theorem readBlock_pending (s : State) (st blk errs : Nat) (scrub : Bool)  :
    (readBlock s st blk errs scrub).pending = s.pending := by
  simp (disch := (intros; simp [ite_pending])) [readBlock, ite_pending, foldl_pending]

@[simp] theorem takeBlock_pending (t st : Nat) (mergeable : Bool) (found : List (Nat × Nat)) (s : State) (blk : Nat)  :
    (takeBlock t st mergeable found s blk).pending = s.pending := by
  simp (disch := (intros; simp [ite_pending])) [takeBlock, ite_pending, foldl_pending]

@[simp] theorem burmonRead_pending (s : State) (st off len part : Nat) (mergeable : Bool) (found : List (Nat × Nat))  :
    (burmonRead s st off len part mergeable found).1.pending = s.pending := by
  unfold burmonRead
  (try dsimp only)
  repeat' split
  all_goals first | simp (disch := (intros; simp [ite_pending])) [ite_pending, foldl_pending] | rfl

@[simp] theorem writeBlock_pending (st off len : Nat) (tarn : Bool) (found : List (Nat × Nat)) (s : State) (blk : Nat)  :
    (writeBlock st off len tarn found s blk).pending = s.pending := by
  simp (disch := (intros; simp [ite_pending])) [writeBlock, ite_pending, foldl_pending]

@[simp] theorem burmonWrite_pending (s : State) (st off : Nat) (bytes : List Byte) (tarn : Bool) (part : Nat) (crcGood : Bool) (found : List (Nat × Nat))  :
    (burmonWrite s st off bytes tarn part crcGood found).1.pending = s.pending := by
  unfold burmonWrite
  (try dsimp only)
  repeat' split
  all_goals first | simp (disch := (intros; simp [ite_pending])) [ite_pending, foldl_pending] | rfl

@[simp] theorem sendLink_pending (s : State) (c t l : Nat) (f : Option Flit) (k : Option Word)  :
    (sendLink s c t l f k).pending = s.pending := by
  unfold sendLink
  (try dsimp only)
  repeat' split
  all_goals first | simp (disch := (intros; simp [ite_pending])) [ite_pending, foldl_pending] | rfl

@[simp] theorem takeWire_pending (s : State) (w : Wire) (flit : Bool)  :
    (takeWire s w flit).pending = s.pending := by
  simp (disch := (intros; simp [ite_pending])) [takeWire, ite_pending, foldl_pending]

@[simp] theorem State.setCtx_pending (s : State) (st c : Nat) (x : StreamCtx)  :
    (State.setCtx s st c x).pending = s.pending := by
  simp (disch := (intros; simp [ite_pending])) [State.setCtx, ite_pending, foldl_pending]

@[simp] theorem loadDescriptor_pending (s : State) (st c part : Nat) (ws : List Word)  :
    (loadDescriptor s st c part ws).1.pending = s.pending := by
  unfold loadDescriptor
  (try dsimp only)
  repeat' split
  all_goals first | simp (disch := (intros; simp [ite_pending])) [ite_pending, foldl_pending] | rfl

@[simp] theorem controlWrite_pending (s : State) (st c part : Nat) (start stop : Bool) (credit : Nat)  :
    (controlWrite s st c part start stop credit).1.pending = s.pending := by
  unfold controlWrite
  (try dsimp only)
  repeat' split
  all_goals first | simp (disch := (intros; simp [ite_pending])) [ite_pending, foldl_pending] | rfl

@[simp] theorem ctxWrite_pending (s : State) (st c byte part : Nat) (bytes : List Byte)  :
    (ctxWrite s st c byte part bytes).1.pending = s.pending := by
  unfold ctxWrite
  (try dsimp only)
  repeat' split
  all_goals first | simp (disch := (intros; simp [ite_pending])) [ite_pending, foldl_pending] | rfl

@[simp] theorem sendStream_pending (s : State) (st c part arg : Nat) (p : Packet)  :
    (sendStream s st c part arg p).pending = s.pending := by
  simp (disch := (intros; simp [ite_pending])) [sendStream, ite_pending, foldl_pending]

@[simp] theorem streamDone_pending (s : State) (st c : Nat)  :
    (streamDone s st c).pending = s.pending := by
  simp (disch := (intros; simp [ite_pending])) [streamDone, ite_pending, foldl_pending]

@[simp] theorem streamAnswer_pending (s : State) (st tag status : Nat)  :
    (streamAnswer s st tag status).pending = s.pending := by
  unfold streamAnswer
  (try dsimp only)
  repeat' split
  all_goals first | simp (disch := (intros; simp [ite_pending])) [ite_pending, foldl_pending] | rfl

@[simp] theorem fetchChunk_pending (s : State) (st c i part : Nat) (errs : List (Nat × Nat)) (host : List Byte)  :
    (fetchChunk s st c i part errs host).1.pending = s.pending := by
  unfold fetchChunk
  (try dsimp only)
  repeat' split
  all_goals first | simp (disch := (intros; simp [ite_pending])) [ite_pending, foldl_pending] | rfl

@[simp] theorem serviceChunk_pending (s : State) (st c : Nat) (errs : List (Nat × Nat)) (host : List Byte)  :
    (serviceChunk s st c errs host).pending = s.pending := by
  simp (disch := (intros; simp [ite_pending])) [serviceChunk, ite_pending, foldl_pending]

@[simp] theorem sendShared_pending (s : State) (st c part mseq addr : Nat) (data : List Byte) (tarn : Bool)  :
    (sendShared s st c part mseq addr data tarn).pending = s.pending := by
  simp (disch := (intros; simp [ite_pending])) [sendShared, ite_pending, foldl_pending]

@[simp] theorem sharedChunk_pending (s : State) (st c : Nat) (errs : List (Nat × Nat))  :
    (sharedChunk s st c errs).pending = s.pending := by
  simp (disch := (intros; simp [ite_pending])) [sharedChunk, ite_pending, foldl_pending]

@[simp] theorem schedIn_pending (s : State) (st c i t : Nat) (off : Nat) (errs : List (Nat × Nat)) (badPar : List Nat)  :
    (schedIn s st c i t off errs badPar).pending = s.pending := by
  unfold schedIn
  extract_lets x d len s1 k bytes core n key c0
  have h : s1.pending = s.pending := foldl_pending _ (fun a b => by simp) _ s
  clear_value c0 key n core bytes k s1
  split
  · rw [setCore_pending, h]
  · extract_lets
    rw [setCore_pending, h]

@[simp] theorem schedOut_pending (s : State) (st c i t : Nat) (off : Nat) (badPar : List Nat)  :
    (schedOut s st c i t off badPar).pending = s.pending := by
  simp (disch := (intros; simp [ite_pending])) [schedOut, ite_pending, foldl_pending]

@[simp] theorem schedChunk_pending (s : State) (st c : Nat) (errs : List (Nat × Nat)) (badPar : List Nat)  :
    (schedChunk s st c errs badPar).pending = s.pending := by
  unfold schedChunk
  (try dsimp only)
  repeat' split
  all_goals first | simp (disch := (intros; simp [ite_pending])) [ite_pending, foldl_pending] | rfl

@[simp] theorem schedStreams_pending (s : State) (part : Nat) (f : StreamCtx → StreamCtx)  :
    (schedStreams s part f).pending = s.pending := by
  simp (disch := (intros; simp [ite_pending])) [schedStreams, ite_pending, foldl_pending]

@[simp] theorem remoteHalt_pending (s : State) (st c : Nat) (unreach : Bool)  :
    (remoteHalt s st c unreach).pending = s.pending := by
  simp (disch := (intros; simp [ite_pending])) [remoteHalt, ite_pending, foldl_pending]

@[simp] theorem remoteResume_pending (s : State) (st c : Nat)  :
    (remoteResume s st c).pending = s.pending := by
  simp (disch := (intros; simp [ite_pending])) [remoteResume, ite_pending, foldl_pending]

@[simp] theorem xferStart_pending (s : State) (core x : Nat) (val : Word)  :
    (xferStart s core x val).pending = s.pending := by
  simp (disch := (intros; simp [ite_pending])) [xferStart, ite_pending, foldl_pending]

@[simp] theorem memCredit_pending (s : State) (core : Nat) (val : Word)  :
    (memCredit s core val).pending = s.pending := by
  simp (disch := (intros; simp [ite_pending])) [memCredit, ite_pending, foldl_pending]

@[simp] theorem sendHeld_pending (s : State) (c : Nat)  :
    (sendHeld s c).pending = s.pending := by
  simp (disch := (intros; simp [ite_pending])) [sendHeld, ite_pending, foldl_pending]

@[simp] theorem sendArrivals_pending (s : State) (c : Nat)  :
    (sendArrivals s c).pending = s.pending := by
  simp (disch := (intros; simp [ite_pending])) [sendArrivals, ite_pending, foldl_pending]

@[simp] theorem startFence_pending (s : State) (c : Nat)  :
    (startFence s c).pending = s.pending := by
  simp (disch := (intros; simp [ite_pending])) [startFence, ite_pending, foldl_pending]

@[simp] theorem fenceDone_pending (s : State) (c : Nat)  :
    (fenceDone s c).pending = s.pending := by
  unfold fenceDone
  (try dsimp only)
  repeat' split
  all_goals first | simp (disch := (intros; simp [ite_pending])) [ite_pending, foldl_pending] | rfl

@[simp] theorem barWrite_pending (s : State) (c i : Nat) (val : Word)  :
    (barWrite s c i val).pending = s.pending := by
  simp (disch := (intros; simp [ite_pending])) [barWrite, ite_pending, foldl_pending]

@[simp] theorem coreWrite_pending (s : State) (c off : Nat) (val : Word) (hw : Bool)  :
    (coreWrite s c off val hw).pending = s.pending := by
  unfold coreWrite
  dsimp only
  refine ite_keeps _ _ _ _ (ite_keeps _ _ _ _ ?_ ?_) ?_
  · simp
  · rfl
  · cases regFind coreRegs off with
    | none => rfl
    | some r =>
      dsimp only
      refine ite_keeps _ _ _ _ ?_ (ite_keeps _ _ _ _ ?_ (ite_keeps _ _ _ _ ?_ (ite_keeps _ _ _ _ ?_ (ite_keeps _ _ _ _ ?_ (ite_keeps _ _ _ _ ?_ (ite_keeps _ _ _ _ ?_ (ite_keeps _ _ _ _ ?_ (ite_keeps _ _ _ _ ?_ (ite_keeps _ _ _ _ ?_ (ite_keeps _ _ _ _ ?_ (ite_keeps _ _ _ _ ?_ (ite_keeps _ _ _ _ ?_ (ite_keeps _ _ _ _ ?_ (ite_keeps _ _ _ _ ?_ (ite_keeps _ _ _ _ ?_ ?_)))))))))))))))
      all_goals simp [ite_pending]

@[simp] theorem State.setRouter_pending (s : State) (r : Nat) (k : Router)  :
    (State.setRouter s r k).pending = s.pending := by
  simp (disch := (intros; simp [ite_pending])) [State.setRouter, ite_pending, foldl_pending]

@[simp] theorem enterRouter_pending (s : State) (r inp : Nat) (p : Packet) (res : Nat) (up : Option (Nat × Nat))  :
    (enterRouter s r inp p res up).pending = s.pending := by
  unfold enterRouter
  (try dsimp only)
  repeat' split
  all_goals first | simp (disch := (intros; simp [ite_pending])) [ite_pending, foldl_pending] | rfl

@[simp] theorem popHead_pending (s : State) (r key : Nat)  :
    (popHead s r key).pending = s.pending := by
  unfold popHead
  (try dsimp only)
  repeat' split
  all_goals first | simp (disch := (intros; simp [ite_pending])) [ite_pending, foldl_pending] | rfl

@[simp] theorem doneBranch_pending (s : State) (r key out : Nat)  :
    (doneBranch s r key out).pending = s.pending := by
  unfold doneBranch
  (try dsimp only)
  repeat' split
  all_goals first | simp (disch := (intros; simp [ite_pending])) [ite_pending, foldl_pending] | rfl

@[simp] theorem sendOver_pending (s : State) (r inp out : Nat) (p : Packet)  :
    (sendOver s r inp out p).pending = s.pending := by
  unfold sendOver
  (try dsimp only)
  repeat' split
  all_goals first | simp (disch := (intros; simp [ite_pending])) [ite_pending, foldl_pending] | rfl

@[simp] theorem sendHead_pending (s : State) (r key out : Nat) (h : BufPkt)  :
    (sendHead s r key out h).pending = s.pending := by
  simp (disch := (intros; simp [ite_pending])) [sendHead, ite_pending, foldl_pending]

@[simp] theorem dropHead_pending (s : State) (r key : Nat) (flags : Word)  :
    (dropHead s r key flags).pending = s.pending := by
  simp (disch := (intros; simp [ite_pending])) [dropHead, ite_pending, foldl_pending]

@[simp] theorem sendMissed_pending (s : State) (r out : Nat) (m : Nat × Nat × Nat)  :
    (sendMissed s r out m).pending = s.pending := by
  simp (disch := (intros; simp [ite_pending])) [sendMissed, ite_pending, foldl_pending]

@[simp] theorem forward_pending (s : State) (r out : Nat) (perr : Nat)  :
    (forward s r out perr).pending = s.pending := by
  unfold forward
  (try dsimp only)
  repeat' split
  all_goals first | simp (disch := (intros; simp [ite_pending])) [ite_pending, foldl_pending] | rfl

@[simp] theorem ingress_pending (s : State) (r : Nat) (p : Packet)  :
    (ingress s r p).pending = s.pending := by
  simp (disch := (intros; simp [ite_pending])) [ingress, ite_pending, foldl_pending]

@[simp] theorem State.allRouters_pending (s : State) (f : Router → Router)  :
    (State.allRouters s f).pending = s.pending := by
  simp (disch := (intros; simp [ite_pending])) [State.allRouters, ite_pending, foldl_pending]

@[simp] theorem setPhysFenced_pending (s : State) (p : Nat) (b : Bool)  :
    (setPhysFenced s p b).pending = s.pending := by
  simp (disch := (intros; simp [ite_pending])) [setPhysFenced, ite_pending, foldl_pending]

@[simp] theorem devWrite_pending (s : State) (a : Nat) (bytes : List Byte)  :
    (devWrite s a bytes).pending = s.pending := foldl_pending _ (fun _ _ => by (try dsimp only); split <;> simp) _ _

@[simp] theorem zeroStacks_pending (s : State) (lo hi : Nat)  :
    (zeroStacks s lo hi).pending = s.pending := by
  simp (disch := (intros; simp [ite_pending])) [zeroStacks, ite_pending, foldl_pending]

@[simp] theorem putHeader_pending (s : State) (b : HostBuf) (ws : List Word)  :
    (putHeader s b ws).pending = s.pending := by
  simp (disch := (intros; simp [ite_pending])) [putHeader, ite_pending, foldl_pending]

@[simp] theorem bumpGen_pending (s : State) (ty idx : Nat)  :
    (bumpGen s ty idx).pending = s.pending := by
  simp (disch := (intros; simp [ite_pending])) [bumpGen, ite_pending, foldl_pending]

@[simp] theorem finishCmd_pending (s : State) (r pos status : Nat) (handle : Word) (res : List Word)  :
    (finishCmd s r pos status handle res).pending = s.pending := by
  unfold finishCmd
  (try dsimp only)
  repeat' split
  all_goals first | simp (disch := (intros; simp [ite_pending])) [ite_pending, foldl_pending] | rfl

@[simp] theorem raiseEvent_pending (s : State) (kind part : Nat) (obj : Word) (ws : List Word)  :
    (raiseEvent s kind part obj ws).pending = s.pending := by
  simp (disch := (intros; simp [ite_pending])) [raiseEvent, ite_pending, foldl_pending]

@[simp] theorem State.setPart_pending (s : State) (p : Nat) (k : Partn)  :
    (State.setPart s p k).pending = s.pending := by
  simp (disch := (intros; simp [ite_pending])) [State.setPart, ite_pending, foldl_pending]

@[simp] theorem suspectPhys_pending (s : State) (p : Nat)  :
    (suspectPhys s p).pending = s.pending := by
  unfold suspectPhys
  (try dsimp only)
  repeat' split
  all_goals first | simp (disch := (intros; simp [ite_pending])) [ite_pending, foldl_pending] | rfl

@[simp] theorem sbdFlag_pending (s : State) (m : Word)  :
    (sbdFlag s m).pending = s.pending := by
  simp (disch := (intros; simp [ite_pending])) [sbdFlag, ite_pending, foldl_pending]

@[simp] theorem setSbdState_pending (s : State) (v : Nat)  :
    (setSbdState s v).pending = s.pending := by
  simp (disch := (intros; simp [ite_pending])) [setSbdState, ite_pending, foldl_pending]

@[simp] theorem setRecov_pending (s : State) (v : Nat)  :
    (setRecov s v).pending = s.pending := by
  simp (disch := (intros; simp [ite_pending])) [setRecov, ite_pending, foldl_pending]

@[simp] theorem setPortState_pending (s : State) (p v : Nat)  :
    (setPortState s p v).pending = s.pending := by
  simp (disch := (intros; simp [ite_pending])) [setPortState, ite_pending, foldl_pending]

@[simp] theorem qpFail_pending (s : State) (q synd : Nat)  :
    (qpFail s q synd).pending = s.pending := by
  unfold qpFail
  (try dsimp only)
  repeat' split
  all_goals first | simp (disch := (intros; simp [ite_pending])) [ite_pending, foldl_pending] | rfl

@[simp] theorem State.setPort_pending (s : State) (p : Nat) (k : Port)  :
    (State.setPort s p k).pending = s.pending := by
  simp (disch := (intros; simp [ite_pending])) [State.setPort, ite_pending, foldl_pending]

@[simp] theorem portErr_pending (s : State) (p c half n : Nat)  :
    (portErr s p c half n).pending = s.pending := by
  simp (disch := (intros; simp [ite_pending])) [portErr, ite_pending, foldl_pending]

@[simp] theorem portCount64_pending (s : State) (p o n : Nat)  :
    (portCount64 s p o n).pending = s.pending := by
  simp (disch := (intros; simp [ite_pending])) [portCount64, ite_pending, foldl_pending]

@[simp] theorem putFrame_pending (s : State) (p len : Nat)  :
    (putFrame s p len).pending = s.pending := by
  simp (disch := (intros; simp [ite_pending])) [putFrame, ite_pending, foldl_pending]

@[simp] theorem sendFrame_pending (s : State) (p prio len : Nat)  :
    (sendFrame s p prio len).pending = s.pending := by
  simp (disch := (intros; simp [ite_pending])) [sendFrame, ite_pending, foldl_pending]

@[simp] theorem flushPrio_pending (s : State) (p prio : Nat)  :
    (flushPrio s p prio).pending = s.pending := by
  simp (disch := (intros; simp [ite_pending])) [flushPrio, ite_pending, foldl_pending]

@[simp] theorem portFence_pending (s : State) (p : Nat)  :
    (portFence s p).pending = s.pending := by
  simp (disch := (intros; simp [ite_pending])) [portFence, ite_pending, foldl_pending]

@[simp] theorem sendReady_pending (s : State) (p : Nat)  :
    (sendReady s p).pending = s.pending := by
  simp (disch := (intros; simp [ite_pending])) [sendReady, ite_pending, foldl_pending]

@[simp] theorem readyPort_pending (s : State) (p : Nat)  :
    (readyPort s p).pending = s.pending := by
  simp (disch := (intros; simp [ite_pending])) [readyPort, ite_pending, foldl_pending]

@[simp] theorem announceReady_pending (s : State)  :
    (announceReady s).pending = s.pending := by
  simp (disch := (intros; simp [ite_pending])) [announceReady, ite_pending, foldl_pending]

@[simp] theorem brupReply_pending (s : State) (p : Nat) (src xid : Word) (status : Nat) (body : List Word)  :
    (brupReply s p src xid status body).pending = s.pending := by
  simp (disch := (intros; simp [ite_pending])) [brupReply, ite_pending, foldl_pending]

@[simp] theorem takeBringup_pending (s : State) (p : Nat) (src : Word) (brup : Option (BitVec 8 × Word))  :
    (takeBringup s p src brup).pending = s.pending := by
  unfold takeBringup
  (try dsimp only)
  repeat' split
  all_goals first | simp (disch := (intros; simp [ite_pending])) [ite_pending, foldl_pending] | rfl

@[simp] theorem sendPfc_pending (s : State) (p i : Nat)  :
    (sendPfc s p i).pending = s.pending := by
  simp (disch := (intros; simp [ite_pending])) [sendPfc, ite_pending, foldl_pending]

@[simp] theorem bufferFrame_pending (s : State) (p i len : Nat)  :
    (bufferFrame s p i len).pending = s.pending := by
  simp (disch := (intros; simp [ite_pending])) [bufferFrame, ite_pending, foldl_pending]

@[simp] theorem drainBuffer_pending (s : State) (p i len : Nat)  :
    (drainBuffer s p i len).pending = s.pending := by
  simp (disch := (intros; simp [ite_pending])) [drainBuffer, ite_pending, foldl_pending]

@[simp] theorem receiveFrame_pending (s : State) (p : Nat) (f : Frame)  :
    (receiveFrame s p f).pending = s.pending := by
  unfold receiveFrame
  (try dsimp only)
  repeat' split
  all_goals first | simp (disch := (intros; simp [ite_pending])) [ite_pending, foldl_pending] | rfl

@[simp] theorem State.setQp_pending (s : State) (q : Nat) (k : Qp)  :
    (State.setQp s q k).pending = s.pending := by
  simp (disch := (intros; simp [ite_pending])) [State.setQp, ite_pending, foldl_pending]

@[simp] theorem sendAck_pending (s : State) (k : Qp) (psn synd : Nat)  :
    (sendAck s k psn synd).pending = s.pending := by
  simp (disch := (intros; simp [ite_pending])) [sendAck, ite_pending, foldl_pending]

@[simp] theorem qpSend_pending (s : State) (q bytes ext : Nat)  :
    (qpSend s q bytes ext).pending = s.pending := by
  unfold qpSend
  (try dsimp only)
  repeat' split
  all_goals first | simp (disch := (intros; simp [ite_pending])) [ite_pending, foldl_pending] | rfl

@[simp] theorem resendAll_pending (s : State) (q : Nat) (k : Qp)  :
    (resendAll s q k).pending = s.pending := by
  simp (disch := (intros; simp [ite_pending])) [resendAll, ite_pending, foldl_pending]

@[simp] theorem retryQp_pending (s : State) (q synd : Nat)  :
    (retryQp s q synd).pending = s.pending := by
  unfold retryQp
  (try dsimp only)
  repeat' split
  all_goals first | simp (disch := (intros; simp [ite_pending])) [ite_pending, foldl_pending] | rfl

@[simp] theorem ackUpTo_pending (s : State) (q : Nat) (k : Qp) (psn : Nat)  :
    (ackUpTo s q k psn).pending = s.pending := by
  simp (disch := (intros; simp [ite_pending])) [ackUpTo, ite_pending, foldl_pending]

@[simp] theorem takeAck_pending (s : State) (q : Nat) (k : Qp) (psn aeth : Nat)  :
    (takeAck s q k psn aeth).pending = s.pending := by
  unfold takeAck
  (try dsimp only)
  repeat' split
  all_goals first | simp (disch := (intros; simp [ite_pending])) [ite_pending, foldl_pending] | rfl

@[simp] theorem portRequest_pending (s : State) (p q : Nat) (what : Nat) (k : Qp) (pk : Packet)  :
    (portRequest s p q what k pk).pending = s.pending := by
  simp (disch := (intros; simp [ite_pending])) [portRequest, ite_pending, foldl_pending]

@[simp] theorem portWrite_pending (s : State) (p q : Nat) (k : Qp) (a : Nat) (bytes : List Byte)  :
    (portWrite s p q k a bytes).pending = s.pending := by
  simp (disch := (intros; simp [ite_pending])) [portWrite, ite_pending, foldl_pending]

@[simp] theorem portRead_pending (s : State) (p q : Nat) (k : Qp) (a n : Nat)  :
    (portRead s p q k a n).pending = s.pending := by
  simp (disch := (intros; simp [ite_pending])) [portRead, ite_pending, foldl_pending]

@[simp] theorem nakFatal_pending (s : State) (q : Nat) (k : Qp) (psn code : Nat)  :
    (nakFatal s q k psn code).pending = s.pending := by
  simp (disch := (intros; simp [ite_pending])) [nakFatal, ite_pending, foldl_pending]

@[simp] theorem accepted_pending (s : State) (q : Nat) (n psn : Nat) (ackReq : Bool)  :
    (accepted s q n psn ackReq).pending = s.pending := by
  unfold accepted
  (try dsimp only)
  repeat' split
  all_goals first | simp (disch := (intros; simp [ite_pending])) [ite_pending, foldl_pending] | rfl

@[simp] theorem placeWrite_pending (s : State) (p q : Nat) (k : Qp) (a : Nat) (bytes : List Byte)  :
    (placeWrite s p q k a bytes).pending = s.pending := by
  simp (disch := (intros; simp [ite_pending])) [placeWrite, ite_pending, foldl_pending]

@[simp] theorem startRead_pending (s : State) (p q : Nat) (k : Qp) (psn a n : Nat)  :
    (startRead s p q k psn a n).pending = s.pending := by
  unfold startRead
  (try dsimp only)
  repeat' split
  all_goals first | simp (disch := (intros; simp [ite_pending])) [ite_pending, foldl_pending] | rfl

@[simp] theorem roceExecute_pending (s : State) (p q : Nat) (k : Qp) (x : RocePkt)  :
    (roceExecute s p q k x).pending = s.pending := by
  unfold roceExecute
  (try dsimp only)
  repeat' split
  all_goals first | simp (disch := (intros; simp [ite_pending])) [ite_pending, foldl_pending] | rfl

@[simp] theorem roceDuplicate_pending (s : State) (p q : Nat) (k : Qp) (x : RocePkt)  :
    (roceDuplicate s p q k x).pending = s.pending := by
  simp (disch := (intros; simp [ite_pending])) [roceDuplicate, ite_pending, foldl_pending]

@[simp] theorem noteCe_pending (s : State) (p q : Nat) (k : Qp)  :
    (noteCe s p q k).pending = s.pending := by
  simp (disch := (intros; simp [ite_pending])) [noteCe, ite_pending, foldl_pending]

@[simp] theorem rocePacket_pending (s0 : State) (p : Nat) (x : RocePkt)  :
    (rocePacket s0 p x).pending = s0.pending := by
  unfold rocePacket
  (try dsimp only)
  repeat' split
  all_goals first | simp (disch := (intros; simp [ite_pending])) [ite_pending, foldl_pending] | rfl

@[simp] theorem finishRead_pending (s : State) (q : Nat) (k : Qp) (j : ReadJob)  :
    (finishRead s q k j).pending = s.pending := by
  simp (disch := (intros; simp [ite_pending])) [finishRead, ite_pending, foldl_pending]

@[simp] theorem readAnswer_pending (s : State) (q : Nat) (k : Qp) (a : Nat) (bad : Bool) (data : List Byte)  :
    (readAnswer s q k a bad data).pending = s.pending := by
  unfold readAnswer
  (try dsimp only)
  repeat' split
  all_goals first | simp (disch := (intros; simp [ite_pending])) [ite_pending, foldl_pending] | rfl

@[simp] theorem portAnswer_pending (s : State) (p tag status : Nat) (data : List Byte)  :
    (portAnswer s p tag status data).pending = s.pending := by
  unfold portAnswer
  (try dsimp only)
  repeat' split
  all_goals first | simp (disch := (intros; simp [ite_pending])) [ite_pending, foldl_pending] | rfl

@[simp] theorem setTState_pending (s : State) (v : Nat)  :
    (setTState s v).pending = s.pending := by
  simp (disch := (intros; simp [ite_pending])) [setTState, ite_pending, foldl_pending]

@[simp] theorem putClk_pending (s : State) (k : Nat) (c : FrameClk)  :
    (putClk s k c).pending = s.pending := by
  simp (disch := (intros; simp [ite_pending])) [putClk, ite_pending, foldl_pending]

@[simp] theorem clkUpdate_pending (stepped : Bool) (s : State) (k : Nat)  :
    (clkUpdate stepped s k).pending = s.pending := by
  simp (disch := (intros; simp [ite_pending])) [clkUpdate, ite_pending, foldl_pending]

@[simp] theorem clkAll_pending (stepped : Bool) (s : State)  :
    (clkAll stepped s).pending = s.pending := by
  simp (disch := (intros; simp [ite_pending])) [clkAll, ite_pending, foldl_pending]

@[simp] theorem clkEnable_pending (s : State) (k : Nat) (val : Word)  :
    (clkEnable s k val).pending = s.pending := by
  simp (disch := (intros; simp [ite_pending])) [clkEnable, ite_pending, foldl_pending]

@[simp] theorem clkWrite_pending (s : State) (k r : Nat) (val : Word)  :
    (clkWrite s k r val).pending = s.pending := by
  simp (disch := (intros; simp [ite_pending])) [clkWrite, ite_pending, foldl_pending]

@[simp] theorem setGm_pending (s : State) (ident : Nat)  :
    (setGm s ident).pending = s.pending := by
  simp (disch := (intros; simp [ite_pending])) [setGm, ite_pending, foldl_pending]

@[simp] theorem putErr_pending (s : State) (v : Nat)  :
    (putErr s v).pending = s.pending := by
  simp (disch := (intros; simp [ite_pending])) [putErr, ite_pending, foldl_pending]

@[simp] theorem recomputeErr_pending (s : State)  :
    (recomputeErr s).pending = s.pending := by
  simp (disch := (intros; simp [ite_pending])) [recomputeErr, ite_pending, foldl_pending]

@[simp] theorem correct_pending (s : State) (off40 : Int) (ptp : Int)  :
    (correct s off40 ptp).pending = s.pending := by
  simp (disch := (intros; simp [ite_pending])) [correct, ite_pending, foldl_pending]

@[simp] theorem applySync_pending (s0 : State) (p : Nat) (t1 : Nat)  :
    (applySync s0 p t1).pending = s0.pending := by
  simp (disch := (intros; simp [ite_pending])) [applySync, ite_pending, foldl_pending]

@[simp] theorem ptpDrop_pending (s : State)  :
    (ptpDrop s).pending = s.pending := by
  simp (disch := (intros; simp [ite_pending])) [ptpDrop, ite_pending, foldl_pending]

@[simp] theorem servePort_pending (s : State) (p ident : Nat)  :
    (servePort s p ident).pending = s.pending := by
  simp (disch := (intros; simp [ite_pending])) [servePort, ite_pending, foldl_pending]

@[simp] theorem loseMasters_pending (s : State)  :
    (loseMasters s).pending = s.pending := by
  simp (disch := (intros; simp [ite_pending])) [loseMasters, ite_pending, foldl_pending]

@[simp] theorem bookEvent_pending (s : State) (k : BookKind) (time : Nat)  :
    (bookEvent s k time).pending = s.pending := by
  simp (disch := (intros; simp [ite_pending])) [bookEvent, ite_pending, foldl_pending]

@[simp] theorem snapMap_pending (s : State)  :
    (snapMap s).pending = s.pending := by
  simp (disch := (intros; simp [ite_pending])) [snapMap, ite_pending, foldl_pending]

@[simp] theorem bookNotices_pending (s : State) (k : Partn) (x : SectionInfo) (t : Nat)  :
    (bookNotices s k x t).pending = s.pending := foldl_pending _ (fun _ _ => by (repeat' split) <;> simp [ite_pending]) _ _

@[simp] theorem bookAhead_pending (s : State) (p : Nat)  :
    (bookAhead s p).pending = s.pending := by
  unfold bookAhead
  (try dsimp only)
  repeat' split
  all_goals first | simp (disch := (intros; simp [ite_pending])) [ite_pending, foldl_pending] | rfl

@[simp] theorem cancelBooked_pending (s : State) (p : Nat)  :
    (cancelBooked s p).pending = s.pending := by
  simp (disch := (intros; simp [ite_pending])) [cancelBooked, ite_pending, foldl_pending]

@[simp] theorem retime_pending (s : State) (p : Nat)  :
    (retime s p).pending = s.pending := by
  simp (disch := (intros; simp [ite_pending])) [retime, ite_pending, foldl_pending]

@[simp] theorem startWriting_pending (s : State) (q : Request)  :
    (startWriting s q).pending = s.pending := by
  unfold startWriting
  (try dsimp only)
  repeat' split
  all_goals first | simp (disch := (intros; simp [ite_pending])) [ite_pending, foldl_pending] | rfl

@[simp] theorem endRequest_pending (s : State) (p : Nat) (q : Request) (status cause : Nat) (tarn : Bool)  :
    (endRequest s p q status cause tarn).pending = s.pending := by
  unfold endRequest
  (try dsimp only)
  repeat' split
  all_goals first | simp (disch := (intros; simp [ite_pending])) [ite_pending, foldl_pending] | rfl

@[simp] theorem endRequests_pending (s : State) (p status cause : Nat)  :
    (endRequests s p status cause).pending = s.pending := by
  unfold endRequests
  (try dsimp only)
  repeat' split
  all_goals first | simp (disch := (intros; simp [ite_pending])) [ite_pending, foldl_pending] | rfl

@[simp] theorem abortUnlaunched_pending (s : State) (p : Nat) (test : Request → Bool)  :
    (abortUnlaunched s p test).pending = s.pending := by
  unfold abortUnlaunched
  (try dsimp only)
  repeat' split
  all_goals first | simp (disch := (intros; simp [ite_pending])) [ite_pending, foldl_pending] | rfl

@[simp] theorem mapPart_pending (s : State) (k : Partn) (f : Core → Core)  :
    (mapPart s k f).pending = s.pending := by
  simp (disch := (intros; simp [ite_pending])) [mapPart, ite_pending, foldl_pending]

@[simp] theorem saveChannel_pending (step : Nat) (s : State) (c : Channel)  :
    (saveChannel step s c).pending = s.pending := by
  simp (disch := (intros; simp [ite_pending])) [saveChannel, ite_pending, foldl_pending]

@[simp] theorem rollChannel_pending (step : Nat) (s : State) (e : Nat × Channel)  :
    (rollChannel step s e).pending = s.pending := by
  simp (disch := (intros; simp [ite_pending])) [rollChannel, ite_pending, foldl_pending]

@[simp] theorem breakOn_pending (s : State) (hit : Nat → Bool) (cause : Nat)  :
    (breakOn s hit cause).pending = s.pending := by
  simp (disch := (intros; simp [ite_pending])) [breakOn, ite_pending, foldl_pending]

@[simp] theorem sendAll_pending (s : State) (l : List (Nat × List Byte))  :
    (sendAll s l).pending = s.pending := by
  simp (disch := (intros; simp [ite_pending])) [sendAll, ite_pending, foldl_pending]

@[simp] theorem sendJob_pending (s : State) (p : Nat) (qs : List Nat) (j : JobWords)  :
    (sendJob s p qs j).pending = s.pending := by
  unfold sendJob
  (try dsimp only)
  split
  · rfl
  · split
    · rfl
    · simp (disch := (intros; (repeat' split) <;> simp [ite_pending])) [ite_pending, foldl_pending]

@[simp] theorem sendIntegrity_pending (s : State) (p : Nat) (qs : List Nat) (ty replica flags serial index : Nat) (extra digest : List Byte)  :
    (sendIntegrity s p qs ty replica flags serial index extra digest).pending = s.pending := by
  unfold sendIntegrity
  (try dsimp only)
  repeat' split
  all_goals first | simp (disch := (intros; simp [ite_pending])) [ite_pending, foldl_pending] | rfl

@[simp] theorem originateQuench_pending (s : State) (p cause : Nat)  :
    (originateQuench s p cause).pending = s.pending := by
  unfold originateQuench
  (try dsimp only)
  repeat' split
  all_goals first | simp (disch := (intros; simp [ite_pending])) [ite_pending, foldl_pending] | rfl

@[simp] theorem haltFor_pending (s : State) (p next : Nat)  :
    (haltFor s p next).pending = s.pending := by
  unfold haltFor
  (try dsimp only)
  repeat' split
  all_goals first | simp (disch := (intros; simp [ite_pending])) [ite_pending, foldl_pending] | rfl

@[simp] theorem endWaiters_pending (s : State) (p : Nat) (ok : Bool)  :
    (endWaiters s p ok).pending = s.pending := by
  unfold endWaiters
  (try dsimp only)
  repeat' split
  all_goals first | simp (disch := (intros; simp [ite_pending])) [ite_pending, foldl_pending] | rfl

@[simp] theorem failPartition_pending (s : State) (p cause : Nat)  :
    (failPartition s p cause).pending = s.pending := by
  simp (disch := (intros; simp [ite_pending])) [failPartition, ite_pending, foldl_pending]

@[simp] theorem startRecovery_pending (s : State) (p next : Nat)  :
    (startRecovery s p next).pending = s.pending := by
  simp (disch := (intros; simp [ite_pending])) [startRecovery, ite_pending, foldl_pending]

@[simp] theorem quenchHold_pending (s : State) (p : Nat)  :
    (quenchHold s p).pending = s.pending := by
  simp (disch := (intros; simp [ite_pending])) [quenchHold, ite_pending, foldl_pending]

@[simp] theorem expel_pending (s : State) (p : Nat)  :
    (expel s p).pending = s.pending := by
  unfold expel
  (try dsimp only)
  repeat' split
  all_goals first | simp (disch := (intros; simp [ite_pending])) [ite_pending, foldl_pending] | rfl

@[simp] theorem moduleFault_pending (s : State)  :
    (moduleFault s).pending = s.pending := by
  simp (disch := (intros; simp [ite_pending])) [moduleFault, ite_pending, foldl_pending]

@[simp] theorem turnLatch_pending (s : State)  :
    (turnLatch s).pending = s.pending := by
  simp (disch := (intros; simp [ite_pending])) [turnLatch, ite_pending, foldl_pending]

@[simp] theorem fenceEffect_pending (s : State) (u : Word) (cause part : Nat)  :
    (fenceEffect s u cause part).pending = s.pending := by
  unfold fenceEffect
  (try dsimp only)
  repeat' split
  all_goals first | simp (disch := (intros; simp [ite_pending])) [ite_pending, foldl_pending] | rfl

@[simp] theorem afterFence_pending (s : State) (u : Word) (p : Nat)  :
    (afterFence s u p).pending = s.pending := by
  unfold afterFence
  (try dsimp only)
  repeat' split
  all_goals first | simp (disch := (intros; simp [ite_pending])) [ite_pending, foldl_pending] | rfl

@[simp] theorem fenceUnit_pending (s : State) (u : Word) (cause part pm : Nat)  :
    (fenceUnit s u cause part pm).pending = s.pending := by
  unfold fenceUnit
  (try dsimp only)
  repeat' split
  all_goals first | simp (disch := (intros; simp [ite_pending])) [ite_pending, foldl_pending] | rfl

@[simp] theorem portDown_pending (s : State) (p : Nat)  :
    (portDown s p).pending = s.pending := by
  simp (disch := (intros; simp [ite_pending])) [portDown, ite_pending, foldl_pending]

@[simp] theorem onLevel_pending (s : State) (u : Word) (lv : Nat)  :
    (onLevel s u lv).pending = s.pending := by
  simp (disch := (intros; simp [ite_pending])) [onLevel, ite_pending, foldl_pending]

@[simp] theorem addPatina_pending (s : State) (u : Word) (n : Nat)  :
    (addPatina s u n).pending = s.pending := by
  unfold addPatina
  (try dsimp only)
  repeat' split
  all_goals first | simp (disch := (intros; simp [ite_pending])) [ite_pending, foldl_pending] | rfl

@[simp] theorem addCorePatina_pending (s : State) (c n : Nat)  :
    (addCorePatina s c n).pending = s.pending := by
  simp (disch := (intros; simp [ite_pending])) [addCorePatina, ite_pending, foldl_pending]

@[simp] theorem mapCtxs_pending (s : State) (p : Nat) (f : StreamCtx → StreamCtx)  :
    (mapCtxs s p f).pending = s.pending := by
  simp (disch := (intros; simp [ite_pending])) [mapCtxs, ite_pending, foldl_pending]

@[simp] theorem reloadImages_pending (s : State) (p : Nat) (hit : Nat → Bool)  :
    (reloadImages s p hit).pending = s.pending := by
  unfold reloadImages
  (try dsimp only)
  repeat' split
  all_goals first | rfl | simp_all [ite_pending, foldl_pending]

@[simp] theorem rollback_pending (s : State) (p : Nat)  :
    (rollback s p).pending = s.pending := by
  unfold rollback
  (try dsimp only)
  repeat' split
  all_goals first | simp (disch := (intros; simp [ite_pending])) [ite_pending, foldl_pending] | rfl

@[simp] theorem resume_pending (s : State) (p : Nat)  :
    (resume s p).pending = s.pending := by
  simp (disch := (intros; simp [ite_pending])) [resume, ite_pending, foldl_pending]

@[simp] theorem applyHalt_pending (s0 : State) (p : Nat)  :
    (applyHalt s0 p).pending = s0.pending := by
  unfold applyHalt
  (try dsimp only)
  repeat' split
  all_goals first | simp (disch := (intros; simp [ite_pending])) [ite_pending, foldl_pending] | rfl

@[simp] theorem haltNow_pending (s : State) (p : Nat)  :
    (haltNow s p).pending = s.pending := by
  unfold haltNow
  (try dsimp only)
  repeat' split
  all_goals first | simp (disch := (intros; simp [ite_pending])) [ite_pending, foldl_pending] | rfl

@[simp] theorem portTrain_pending (s : State) (p : Nat)  :
    (portTrain s p).pending = s.pending := by
  simp (disch := (intros; simp [ite_pending])) [portTrain, ite_pending, foldl_pending]

@[simp] theorem portUnfence_pending (s : State) (p : Nat)  :
    (portUnfence s p).pending = s.pending := by
  simp (disch := (intros; simp [ite_pending])) [portUnfence, ite_pending, foldl_pending]

@[simp] theorem portCfgWrite_pending (s : State) (p : Nat) (val : Word)  :
    (portCfgWrite s p val).pending = s.pending := by
  simp (disch := (intros; simp [ite_pending])) [portCfgWrite, ite_pending, foldl_pending]

@[simp] theorem dropHcrc_pending (s : State) (p : Packet)  :
    (dropHcrc s p).pending = s.pending := by
  simp (disch := (intros; simp [ite_pending])) [dropHcrc, ite_pending, foldl_pending]

@[simp] theorem State.reply1_pending (s : State) (ps : List Packet)  :
    (State.reply1 s ps).pending = s.pending := by
  simp (disch := (intros; simp [ite_pending])) [State.reply1, ite_pending, foldl_pending]

@[simp] theorem atCore_pending (s : State) (p : Packet) (eff : State → Nat → State) (h_eff : ∀ x0 x1, (eff x0 x1).pending = x0.pending) :
    (atCore s p eff).pending = s.pending := by
  unfold atCore
  (try dsimp only)
  repeat' split
  all_goals first | simp (disch := (intros; simp [ite_pending])) [ite_pending, foldl_pending, h_eff] | rfl

@[simp] theorem atStack_pending (s : State) (p : Packet) (eff : State → Nat → State) (h_eff : ∀ x0 x1, (eff x0 x1).pending = x0.pending) :
    (atStack s p eff).pending = s.pending := by
  unfold atStack
  (try dsimp only)
  repeat' split
  all_goals first | simp (disch := (intros; simp [ite_pending])) [ite_pending, foldl_pending, h_eff] | rfl

@[simp] theorem wrCore_pending (p : Packet) (s : State) (c : Nat)  :
    (wrCore p s c).pending = s.pending := by
  simp (disch := (intros; simp [ite_pending])) [wrCore, ite_pending, foldl_pending]

@[simp] theorem wrStack_pending (p : Packet) (s : State) (st : Nat)  :
    (wrStack p s st).pending = s.pending := by
  unfold wrStack
  (try dsimp only)
  repeat' split
  all_goals first | simp (disch := (intros; simp [ite_pending])) [ite_pending, foldl_pending] | rfl

@[simp] theorem dispatchReq_pending (s : State) (p : Packet) (core stack : State → Nat → State) (h_core : ∀ x0 x1, (core x0 x1).pending = x0.pending) (h_stack : ∀ x0 x1, (stack x0 x1).pending = x0.pending) :
    (dispatchReq s p core stack).pending = s.pending := by
  unfold dispatchReq
  (try dsimp only)
  repeat' split
  all_goals first | rfl | simp_all [ite_pending, foldl_pending, h_core, h_stack]

@[simp] theorem rdCore_pending (p : Packet) (s : State) (c : Nat)  :
    (rdCore p s c).pending = s.pending := by
  simp (disch := (intros; simp [ite_pending])) [rdCore, ite_pending, foldl_pending]

@[simp] theorem rdStack_pending (p : Packet) (s : State) (st : Nat)  :
    (rdStack p s st).pending = s.pending := by
  unfold rdStack
  (try dsimp only)
  repeat' split
  all_goals first | simp (disch := (intros; simp [ite_pending])) [ite_pending, foldl_pending] | rfl

@[simp] theorem hqpCore_pending (p : Packet) (s : State) (c : Nat)  :
    (hqpCore p s c).pending = s.pending := by
  simp (disch := (intros; simp [ite_pending])) [hqpCore, ite_pending, foldl_pending]

@[simp] theorem stackWrite_pending (s : State) (st off : Nat) (val : Word)  :
    (stackWrite s st off val).pending = s.pending := by
  unfold stackWrite
  (try dsimp only)
  repeat' split
  all_goals first | simp (disch := (intros; simp [ite_pending])) [ite_pending, foldl_pending] | rfl

@[simp] theorem routerWrite_pending (s : State) (r off : Nat) (val : Word)  :
    (routerWrite s r off val).pending = s.pending := by
  unfold routerWrite
  (try dsimp only)
  repeat' split
  all_goals first | simp (disch := (intros; simp [ite_pending])) [ite_pending, foldl_pending] | rfl

@[simp] theorem regAccess_pending (s : State) (p : Packet) (eff : State → Nat → State) (atS : State → Nat → State) (atR : State → Nat → State) (h_eff : ∀ x0 x1, (eff x0 x1).pending = x0.pending) (h_atS : ∀ x0 x1, (atS x0 x1).pending = x0.pending) (h_atR : ∀ x0 x1, (atR x0 x1).pending = x0.pending) :
    (regAccess s p eff atS atR).pending = s.pending := by
  unfold regAccess
  (try dsimp only)
  repeat' split
  all_goals first | rfl | simp_all [ite_pending, foldl_pending, h_eff, h_atS, h_atR]

@[simp] theorem answerCore_pending (s : State) (c tag status : Nat) (data : List Byte) (tarn : Bool)  :
    (answerCore s c tag status data tarn).pending = s.pending := by
  unfold answerCore
  (try dsimp only)
  repeat' split
  all_goals first | simp (disch := (intros; simp [ite_pending])) [ite_pending, foldl_pending] | rfl

@[simp] theorem answerAt_pending (s : State) (p : Packet) (data : List Byte)  :
    (answerAt s p data).pending = s.pending := by
  unfold answerAt
  (try dsimp only)
  repeat' split
  all_goals first | simp (disch := (intros; simp [ite_pending])) [ite_pending, foldl_pending] | rfl

@[simp] theorem requestTimeout_pending (s : State) (src : Source) (tag : Nat)  :
    (requestTimeout s src tag).pending = s.pending := by
  unfold requestTimeout
  (try dsimp only)
  repeat' split
  all_goals first | simp (disch := (intros; simp [ite_pending])) [ite_pending, foldl_pending] | rfl

@[simp] theorem arriveAt_pending (s : State) (r grp gen : Nat)  :
    (arriveAt s r grp gen).pending = s.pending := by
  simp (disch := (intros; simp [ite_pending])) [arriveAt, ite_pending, foldl_pending]

@[simp] theorem State.dropNet_pending (s : State) (f : Packet → Bool)  :
    (State.dropNet s f).pending = s.pending := by
  unfold State.dropNet
  (try dsimp only)
  repeat' split
  all_goals first | simp (disch := (intros; simp [ite_pending])) [ite_pending, foldl_pending] | rfl

@[simp] theorem winRead_pending (s0 : State) (off : Nat)  :
    (winRead s0 off).2.pending = s0.pending := by
  unfold winRead
  (try dsimp only)
  repeat' split
  all_goals first | simp (disch := (intros; simp [ite_pending])) [ite_pending, foldl_pending] | rfl

@[simp] theorem readSpace_pending (s : State) (kind target off : Nat)  :
    (readSpace s kind target off).2.pending = s.pending := by
  unfold readSpace
  (try dsimp only)
  repeat' split
  all_goals first | simp (disch := (intros; simp [ite_pending])) [ite_pending, foldl_pending] | rfl

@[simp] theorem State.setRing_pending (s : State) (r : Nat) (k : Ring)  :
    (State.setRing s r k).pending = s.pending := by
  simp (disch := (intros; simp [ite_pending])) [State.setRing, ite_pending, foldl_pending]

@[simp] theorem doorbellBad_pending (s : State) (r : Nat) (k : Ring)  :
    (doorbellBad s r k).pending = s.pending := by
  simp (disch := (intros; simp [ite_pending])) [doorbellBad, ite_pending, foldl_pending]

@[simp] theorem ringTail_pending (s : State) (r val : Nat)  :
    (ringTail s r val).pending = s.pending := by
  unfold ringTail
  (try dsimp only)
  repeat' split
  all_goals first | simp (disch := (intros; simp [ite_pending])) [ite_pending, foldl_pending] | rfl

@[simp] theorem ringChead_pending (s : State) (r val : Nat)  :
    (ringChead s r val).pending = s.pending := by
  unfold ringChead
  (try dsimp only)
  repeat' split
  all_goals first | simp (disch := (intros; simp [ite_pending])) [ite_pending, foldl_pending] | rfl

@[simp] theorem doorbell_pending (s : State) (r : Nat) (ofChead : Bool) (val : Nat)  :
    (doorbell s r ofChead val).pending = s.pending := by
  unfold doorbell
  (try dsimp only)
  repeat' split
  all_goals first | simp (disch := (intros; simp [ite_pending])) [ite_pending, foldl_pending] | rfl

@[simp] theorem takeCommand_pending (s : State)  :
    (takeCommand s).pending = s.pending := by
  unfold takeCommand
  (try dsimp only)
  repeat' split
  all_goals first | simp (disch := (intros; simp [ite_pending])) [ite_pending, foldl_pending] | rfl

@[simp] theorem command_pending (s : State) (r : Nat) (pos : Word) (code : Nat) (body : State → Ring → List Word → State) (h_body : ∀ x0 x1 x2, (body x0 x1 x2).pending = x0.pending) :
    (command s r pos code body).pending = s.pending := by
  unfold command
  (try dsimp only)
  repeat' split
  all_goals first | simp (disch := (intros; simp [ite_pending])) [ite_pending, foldl_pending, h_body] | rfl

@[simp] theorem commandIf_pending (s : State) (r : Nat) (pos : Word) (code : Nat) (test : List Word → Bool) (body : State → Ring → List Word → State) (h_body : ∀ x0 x1 x2, (body x0 x1 x2).pending = x0.pending) :
    (commandIf s r pos code test body).pending = s.pending := by
  unfold commandIf
  (try dsimp only)
  repeat' split
  all_goals first | rfl | simp_all [ite_pending, foldl_pending, h_body]

@[simp] theorem writeRecord_pending (s : State) (r : Nat) (k : Ring) (code status : Nat) (tag pos handle : Word) (res : List Word)  :
    (writeRecord s r k code status tag pos handle res).1.pending = s.pending := by
  unfold writeRecord
  (try dsimp only)
  repeat' split
  all_goals first | simp (disch := (intros; simp [ite_pending])) [ite_pending, foldl_pending] | rfl

@[simp] theorem dropRing_pending (s : State) (r : Nat)  :
    (dropRing s r).pending = s.pending := by
  unfold dropRing
  (try dsimp only)
  repeat' split
  all_goals first | simp (disch := (intros; simp [ite_pending])) [ite_pending, foldl_pending] | rfl

@[simp] theorem settleRing_pending (s : State) (r : Nat)  :
    (settleRing s r).pending = s.pending := by
  unfold settleRing
  (try dsimp only)
  repeat' split
  all_goals first | simp (disch := (intros; simp [ite_pending])) [ite_pending, foldl_pending] | rfl

@[simp] theorem returnCredit_pending (s : State) (sess : Nat)  :
    (returnCredit s sess).pending = s.pending := by
  unfold returnCredit
  (try dsimp only)
  repeat' split
  all_goals first | simp (disch := (intros; simp [ite_pending])) [ite_pending, foldl_pending] | rfl

@[simp] theorem writeCompletion_pending (s : State) (r : Nat)  :
    (writeCompletion s r).pending = s.pending := by
  unfold writeCompletion
  (try dsimp only)
  repeat' split
  all_goals first | simp (disch := (intros; simp [ite_pending])) [ite_pending, foldl_pending] | rfl

@[simp] theorem eventTo_pending (e : Event) (s : State) (r : Nat)  :
    (eventTo e s r).pending = s.pending := by
  unfold eventTo
  (try dsimp only)
  repeat' split
  all_goals first | simp (disch := (intros; simp [ite_pending])) [ite_pending, foldl_pending] | rfl

@[simp] theorem reportEvent_pending (s : State)  :
    (reportEvent s).pending = s.pending := by
  unfold reportEvent
  (try dsimp only)
  repeat' split
  all_goals first | simp (disch := (intros; simp [ite_pending])) [ite_pending, foldl_pending] | rfl

@[simp] theorem winPlain_pending (s : State) (o : Nat) (val : Word)  :
    (winPlain s o val).pending = s.pending := by
  unfold winPlain
  (try dsimp only)
  repeat' split
  all_goals first | simp (disch := (intros; simp [ite_pending])) [ite_pending, foldl_pending] | rfl

@[simp] theorem onBuffer_pending (s : State) (r : Nat) (pos : Word) (k : Ring) (ws : List Word) (body : State → Nat → HostBuf → State) (h_body : ∀ x0 x1 x2, (body x0 x1 x2).pending = x0.pending) :
    (onBuffer s r pos k ws body).pending = s.pending := by
  unfold onBuffer
  (try dsimp only)
  repeat' split
  all_goals first | simp (disch := (intros; simp [ite_pending])) [ite_pending, foldl_pending, h_body] | rfl

@[simp] theorem dropChannel_pending (s : State) (i : Nat) (c : Channel)  :
    (dropChannel s i c).pending = s.pending := by
  simp (disch := (intros; simp [ite_pending])) [dropChannel, ite_pending, foldl_pending]

@[simp] theorem settleChannel_pending (s : State) (i : Nat)  :
    (settleChannel s i).pending = s.pending := by
  unfold settleChannel
  (try dsimp only)
  repeat' split
  all_goals first | simp (disch := (intros; simp [ite_pending])) [ite_pending, foldl_pending] | rfl

@[simp] theorem mapContexts_pending (s : State) (test : StreamCtx → Bool) (f : State → Nat → Nat → State) (h_f : ∀ x0 x1 x2, (f x0 x1 x2).pending = x0.pending) :
    (mapContexts s test f).pending = s.pending := by
  unfold mapContexts
  (try dsimp only)
  repeat' split
  all_goals first | rfl | simp_all [ite_pending, foldl_pending, h_f]

@[simp] theorem dropWindow_pending (s : State) (w : Nat)  :
    (dropWindow s w).pending = s.pending := by
  simp (disch := (intros; simp [ite_pending])) [dropWindow, ite_pending, foldl_pending]

@[simp] theorem writeXlat_pending (s : State) (ls : List Nat)  :
    (writeXlat s ls).pending = s.pending := by
  simp (disch := (intros; simp [ite_pending])) [writeXlat, ite_pending, foldl_pending]

@[simp] theorem putRegionReg_pending (s : State) (p l part : Nat)  :
    (putRegionReg s p l part).pending = s.pending := by
  simp (disch := (intros; simp [ite_pending])) [putRegionReg, ite_pending, foldl_pending]

@[simp] theorem putOwner_pending (s : State) (unit0 n part : Nat) (valid : Bool)  :
    (putOwner s unit0 n part valid).pending = s.pending := by
  simp (disch := (intros; simp [ite_pending])) [putOwner, ite_pending, foldl_pending]

@[simp] theorem writeDist_pending (s : State)  :
    (writeDist s).pending = s.pending := by
  simp (disch := (intros; simp [ite_pending])) [writeDist, ite_pending, foldl_pending]

@[simp] theorem mcBit_pending (s : State) (r g b : Nat)  :
    (mcBit s r g b).pending = s.pending := by
  simp (disch := (intros; simp [ite_pending])) [mcBit, ite_pending, foldl_pending]

@[simp] theorem makeGroup_pending (s : State) (g part src : Nat) (cores : List Nat)  :
    (makeGroup s g part src cores).pending = s.pending := by
  unfold makeGroup
  (try dsimp only)
  repeat' split
  all_goals first | rfl | simp_all [ite_pending, foldl_pending]

@[simp] theorem dropGroup_pending (s : State) (g : Nat)  :
    (dropGroup s g).pending = s.pending := by
  simp (disch := (intros; simp [ite_pending])) [dropGroup, ite_pending, foldl_pending]

@[simp] theorem putBypasses_pending (s : State) (bad : List Nat)  :
    (putBypasses s bad).pending = s.pending := by
  simp (disch := (intros; simp [ite_pending])) [putBypasses, ite_pending, foldl_pending]

@[simp] theorem judgeRow_pending (s : State) (q : Nat)  :
    (judgeRow s q).pending = s.pending := by
  unfold judgeRow
  (try dsimp only)
  repeat' split
  all_goals first | simp (disch := (intros; simp [ite_pending])) [ite_pending, foldl_pending] | rfl

@[simp] theorem fenceRegion_pending (s : State) (p : Nat)  :
    (fenceRegion s p).pending = s.pending := by
  simp (disch := (intros; simp [ite_pending])) [fenceRegion, ite_pending, foldl_pending]

@[simp] theorem recordDefects_pending (s : State) (cores regions : List Nat)  :
    (recordDefects s cores regions).pending = s.pending := by
  simp (disch := (intros; simp [ite_pending])) [recordDefects, ite_pending, foldl_pending]

@[simp] theorem zeroSpads_pending (s : State)  :
    (zeroSpads s).pending = s.pending := by
  simp (disch := (intros; simp [ite_pending])) [zeroSpads, ite_pending, foldl_pending]

@[simp] theorem bistResult_pending (s : State) (f : BistFindings)  :
    (bistResult s f).1.pending = s.pending := by
  simp (disch := (intros; simp [ite_pending])) [bistResult, ite_pending, foldl_pending]

@[simp] theorem logAdd_pending (s : State) (kind index : Nat) (digest : List Byte)  :
    (logAdd s kind index digest).pending = s.pending := by
  simp (disch := (intros; simp [ite_pending])) [logAdd, ite_pending, foldl_pending]

@[simp] theorem brgEnd_pending (s : State) (cause : Nat)  :
    (brgEnd s cause).pending = s.pending := by
  simp (disch := (intros; simp [ite_pending])) [brgEnd, ite_pending, foldl_pending]

@[simp] theorem pourTarget_pending (i : PourInfo) (targets : List Nat) (s : State) (c : Nat)  :
    (pourTarget i targets s c).pending = s.pending := by
  simp (disch := (intros; simp [ite_pending])) [pourTarget, ite_pending, foldl_pending]

@[simp] theorem startPour_pending (part : Nat) (s : State) (e : PourInfo × List Nat)  :
    (startPour part s e).pending = s.pending := by
  simp (disch := (intros; simp [ite_pending])) [startPour, ite_pending, foldl_pending]

@[simp] theorem programReady_pending (s : State) (i : Nat)  :
    (programReady s i).pending = s.pending := by
  unfold programReady
  (try dsimp only)
  repeat' split
  all_goals first | simp (disch := (intros; simp [ite_pending])) [ite_pending, foldl_pending] | rfl

@[simp] theorem pourComplete_pending (s : State) (key : Nat)  :
    (pourComplete s key).pending = s.pending := by
  unfold pourComplete
  (try dsimp only)
  repeat' split
  all_goals first | simp (disch := (intros; simp [ite_pending])) [ite_pending, foldl_pending] | rfl

@[simp] theorem pourLoses_pending (s : State) (key c : Nat)  :
    (pourLoses s key c).pending = s.pending := by
  unfold pourLoses
  (try dsimp only)
  repeat' split
  all_goals first | simp (disch := (intros; simp [ite_pending])) [ite_pending, foldl_pending] | rfl

@[simp] theorem pourFailed_pending (s : State) (key : Nat)  :
    (pourFailed s key).pending = s.pending := by
  simp (disch := (intros; simp [ite_pending])) [pourFailed, ite_pending, foldl_pending]

@[simp] theorem pourReport_pending (s : State) (c : Nat) (digest : List Byte)  :
    (pourReport s c digest).pending = s.pending := by
  unfold pourReport
  (try dsimp only)
  repeat' split
  all_goals first | simp (disch := (intros; simp [ite_pending])) [ite_pending, foldl_pending] | rfl

@[simp] theorem failStepReqs_pending (s : State) (p cause : Nat) (tarn : Bool)  :
    (failStepReqs s p cause tarn).pending = s.pending := by
  unfold failStepReqs
  (try dsimp only)
  repeat' split
  all_goals first | simp (disch := (intros; simp [ite_pending])) [ite_pending, foldl_pending] | rfl

@[simp] theorem markChecks_pending (s : State) (p b : Nat)  :
    (markChecks s p b).pending = s.pending := by
  simp (disch := (intros; simp [ite_pending])) [markChecks, ite_pending, foldl_pending]

@[simp] theorem copyState_pending (s : State) (p : Nat) (k : Partn)  :
    (copyState s p k).1.pending = s.pending := by
  simp (disch := (intros; simp [ite_pending])) [copyState, ite_pending, foldl_pending]

@[simp] theorem readyRequest_pending (s : State) (p : Nat) (q : Request)  :
    (readyRequest s p q).pending = s.pending := by
  unfold readyRequest
  (try dsimp only)
  repeat' split
  all_goals first | simp (disch := (intros; simp [ite_pending])) [ite_pending, foldl_pending] | rfl

@[simp] theorem takeHold_pending (s : State) (p : Nat)  :
    (takeHold s p).pending = s.pending := by
  unfold takeHold
  (try dsimp only)
  repeat' split
  all_goals first | simp (disch := (intros; simp [ite_pending])) [ite_pending, foldl_pending] | rfl

@[simp] theorem answerJoin_pending (s : State) (p : Nat)  :
    (answerJoin s p).pending = s.pending := by
  unfold answerJoin
  (try dsimp only)
  repeat' split
  all_goals first | simp (disch := (intros; simp [ite_pending])) [ite_pending, foldl_pending] | rfl

@[simp] theorem commitStep_pending (s : State) (p n : Nat)  :
    (commitStep s p n).pending = s.pending := by
  unfold commitStep
  (try dsimp only)
  repeat' split
  all_goals first | simp (disch := (intros; simp [ite_pending])) [ite_pending, foldl_pending] | rfl

@[simp] theorem holdTouch_pending (s : State) (p n : Nat)  :
    (holdTouch s p n).pending = s.pending := by
  unfold holdTouch
  (try dsimp only)
  repeat' split
  all_goals first | simp (disch := (intros; simp [ite_pending])) [ite_pending, foldl_pending] | rfl

@[simp] theorem settleBefore_pending (s : State) (p : Nat)  :
    (settleBefore s p).pending = s.pending := by
  unfold settleBefore
  (try dsimp only)
  repeat' split
  all_goals first | rfl | simp_all [ite_pending, foldl_pending]

@[simp] theorem drainLater_pending (s : State) (p : Nat)  :
    (drainLater s p).pending = s.pending := foldl_pending _ (fun _ _ => by (repeat' split) <;> simp [ite_pending]) _ _

@[simp] theorem commitHeld_pending (s : State) (p n : Nat)  :
    (commitHeld s p n).pending = s.pending := by
  simp (disch := (intros; simp [ite_pending])) [commitHeld, ite_pending, foldl_pending]

@[simp] theorem failHeld_pending (s : State) (p cause : Nat)  :
    (failHeld s p cause).pending = s.pending := by
  simp (disch := (intros; simp [ite_pending])) [failHeld, ite_pending, foldl_pending]

@[simp] theorem decideHeld_pending (s : State) (p n : Nat) (answer : List Byte)  :
    (decideHeld s p n answer).pending = s.pending := by
  unfold decideHeld
  (try dsimp only)
  repeat' split
  all_goals first | simp (disch := (intros; simp [ite_pending])) [ite_pending, foldl_pending] | rfl

@[simp] theorem cleanStep_pending (s : State) (p : Nat) (suspect : Bool)  :
    (cleanStep s p suspect).pending = s.pending := by
  unfold cleanStep
  (try dsimp only)
  repeat' split
  all_goals first | simp (disch := (intros; simp [ite_pending])) [ite_pending, foldl_pending] | rfl

@[simp] theorem testCores_pending (s : State) (p : Nat) (cs : List Nat)  :
    (testCores s p cs).pending = s.pending := by
  simp (disch := (intros; simp [ite_pending])) [testCores, ite_pending, foldl_pending]

@[simp] theorem failAndTest_pending (s : State) (p : Nat)  :
    (failAndTest s p).pending = s.pending := by
  simp (disch := (intros; simp [ite_pending])) [failAndTest, ite_pending, foldl_pending]

@[simp] theorem rerunStep_pending (s : State) (p : Nat) (next : Findings)  :
    (rerunStep s p next).pending = s.pending := by
  unfold rerunStep
  (try dsimp only)
  repeat' split
  all_goals first | simp (disch := (intros; simp [ite_pending])) [ite_pending, foldl_pending] | rfl

@[simp] theorem programFault_pending (s : State) (p : Nat)  :
    (programFault s p).pending = s.pending := by
  simp (disch := (intros; simp [ite_pending])) [programFault, ite_pending, foldl_pending]

@[simp] theorem prunePairs_pending (s : State) (p : Nat) (k : Partn) (l : List (Nat × List Nat))  :
    (prunePairs s p k l).pending = s.pending := by
  unfold prunePairs
  (try dsimp only)
  repeat' split
  all_goals first | rfl | simp_all [ite_pending, foldl_pending]

@[simp] theorem resolveStep_pending (s : State) (p : Nat) (k : Partn)  :
    (resolveStep s p k).pending = s.pending := by
  unfold resolveStep
  dsimp only
  apply ite_keeps
  · simp (disch := (intros; simp)) [foldl_pending]
  · repeat' apply ite_keeps
    · simp
    · simp
    · split
      · simp
      · repeat' apply ite_keeps
        all_goals first | (simp; done) | (simp only [cleanStep_pending]; split <;> simp)

@[simp] theorem judgeStep_pending (s : State) (p : Nat)  :
    (judgeStep s p).pending = s.pending := by
  unfold judgeStep
  (try dsimp only)
  repeat' split
  all_goals first | simp (disch := (intros; simp [ite_pending])) [ite_pending, foldl_pending] | rfl

@[simp] theorem takePm_pending (s : State) (c : Nat)  :
    (takePm s c).pending = s.pending := by
  simp (disch := (intros; simp [ite_pending])) [takePm, ite_pending, foldl_pending]

@[simp] theorem mapAllCtxs_pending (s : State) (f : StreamCtx → StreamCtx)  :
    (mapAllCtxs s f).pending = s.pending := by
  simp (disch := (intros; simp [ite_pending])) [mapAllCtxs, ite_pending, foldl_pending]

@[simp] theorem countAbsorbed_pending (s : State) (n : Nat)  :
    (countAbsorbed s n).pending = s.pending := by
  simp (disch := (intros; simp [ite_pending])) [countAbsorbed, ite_pending, foldl_pending]

@[simp] theorem resetCores_pending (s : State) (cs : List Nat) (keepSlots : Bool)  :
    (resetCores s cs keepSlots).pending = s.pending := by
  simp (disch := (intros; simp [ite_pending])) [resetCores, ite_pending, foldl_pending]

@[simp] theorem clearBarriers_pending (s : State) (p : Nat)  :
    (clearBarriers s p).pending = s.pending := by
  simp (disch := (intros; simp [ite_pending])) [clearBarriers, ite_pending, foldl_pending]

@[simp] theorem resetPart_pending (s : State) (p : Nat) (stays : Bool)  :
    (resetPart s p stays).pending = s.pending := by
  unfold resetPart
  (try dsimp only)
  repeat' split
  all_goals first | simp (disch := (intros; simp [ite_pending])) [ite_pending, foldl_pending] | rfl

@[simp] theorem launchPart_pending (s : State) (p : Nat) (t : Nat)  :
    (launchPart s p t).pending = s.pending := by
  unfold launchPart
  (try dsimp only)
  repeat' split
  all_goals first | simp (disch := (intros; simp [ite_pending])) [ite_pending, foldl_pending] | rfl

@[simp] theorem applyChecks_pending (s : State) (p : Nat)  :
    (applyChecks s p).pending = s.pending := by
  unfold applyChecks
  (try dsimp only)
  repeat' split
  all_goals first | simp (disch := (intros; simp [ite_pending])) [ite_pending, foldl_pending] | rfl

@[simp] theorem stepBoundary_pending (s : State) (p : Nat)  :
    (stepBoundary s p).pending = s.pending := by
  unfold stepBoundary
  (try dsimp only)
  repeat' split
  all_goals first | simp (disch := (intros; simp [ite_pending])) [ite_pending, foldl_pending] | rfl

@[simp] theorem barrierPart_pending (s0 : State) (p : Nat) (k : Partn) (l : Nat)  :
    (barrierPart s0 p k l).pending = s0.pending := by
  unfold barrierPart
  (try dsimp only)
  repeat' split
  all_goals first | simp (disch := (intros; simp [ite_pending])) [ite_pending, foldl_pending] | rfl

@[simp] theorem layPart_pending (s : State) (p : Nat) (k : Partn)  :
    (layPart s p k).pending = s.pending := by
  simp (disch := (intros; simp [ite_pending])) [layPart, ite_pending, foldl_pending]

@[simp] theorem putCommit_pending (s : State)  :
    (putCommit s).pending = s.pending := by
  simp (disch := (intros; simp [ite_pending])) [putCommit, ite_pending, foldl_pending]

@[simp] theorem dropObjects_pending (s : State) (p : Nat)  :
    (dropObjects s p).pending = s.pending := by
  unfold dropObjects
  (try dsimp only)
  simp (disch := (intros; (repeat' split) <;> simp [ite_pending])) [ite_pending, foldl_pending]

@[simp] theorem finishClose_pending (s : State) (p : Nat)  :
    (finishClose s p).pending = s.pending := by
  unfold finishClose
  (try dsimp only)
  repeat' split
  all_goals first | simp (disch := (intros; simp [ite_pending])) [ite_pending, foldl_pending] | rfl

@[simp] theorem settleClosing_pending (s : State)  :
    (settleClosing s).pending = s.pending := by
  simp (disch := (intros; simp [ite_pending])) [settleClosing, ite_pending, foldl_pending]

@[simp] theorem reportBroken_pending (s : State)  :
    (reportBroken s).pending = s.pending := by
  simp (disch := (intros; simp [ite_pending])) [reportBroken, ite_pending, foldl_pending]

@[simp] theorem bindEp_pending (s : State) (e : Nat × Nat)  :
    (bindEp s e).pending = s.pending := by
  simp (disch := (intros; simp [ite_pending])) [bindEp, ite_pending, foldl_pending]

@[simp] theorem shed_pending (s : State) (r pos status : Nat) (ready : Option Nat)  :
    (shed s r pos status ready).pending = s.pending := by
  simp (disch := (intros; simp [ite_pending])) [shed, ite_pending, foldl_pending]

@[simp] theorem admitReq_pending (s : State) (p r pos j b : Nat) (q : Session) (k : Partn) (ws : List Word) (plan dead : Nat) (times : List Nat × List Nat × Nat)  :
    (admitReq s p r pos j b q k ws plan dead times).pending = s.pending := by
  unfold admitReq
  (try dsimp only)
  repeat' split
  all_goals first | simp (disch := (intros; simp [ite_pending])) [ite_pending, foldl_pending] | rfl

@[simp] theorem judgeSubmit_pending (s : State) (r pos : Nat) (ws : List Word) (q : Session) (b : HostBuf) (k : Partn) (pl : PlanInfo) (secs : List SectionInfo)  :
    (judgeSubmit s r pos ws q b k pl secs).pending = s.pending := by
  simp (disch := (intros; simp [ite_pending])) [judgeSubmit, ite_pending, foldl_pending]

@[simp] theorem onIntegrity_pending (s : State) (q ty : Nat) (m : List Byte) (sender : Partn → Bool) (eff : Nat → Partn → State) (h_eff : ∀ x0 x1, (eff x0 x1).pending = s.pending) :
    (onIntegrity s q ty m sender eff).pending = s.pending := by
  unfold onIntegrity
  (try dsimp only)
  repeat' split
  all_goals first | simp (disch := (intros; simp [ite_pending])) [ite_pending, foldl_pending, h_eff] | rfl

@[simp] theorem vote_pending (s : State) (p : Nat) (k : Partn) (r : Round)  :
    (vote s p k r).pending = s.pending := by
  simp (disch := (intros; simp [ite_pending])) [vote, ite_pending, foldl_pending]

@[simp] theorem placeState_pending (s : State) (p : Nat) (k : Partn) (data : List Byte)  :
    (placeState s p k data).pending = s.pending := by
  unfold placeState
  (try dsimp only)
  rw [foldl_pending_pair _ (fun _ _ => by simp)]
  simp

@[simp] theorem judgeReplay_pending (s : State) (p : Nat) (k : Partn) (q step plan len : Nat) (data : List Byte)  :
    (judgeReplay s p k q step plan len data).pending = s.pending := by
  unfold judgeReplay
  (try dsimp only)
  repeat' split
  all_goals first | simp (disch := (intros; simp [ite_pending])) [ite_pending, foldl_pending] | rfl

@[simp] theorem noTouchstone_pending (s : State) (p : Nat)  :
    (noTouchstone s p).pending = s.pending := by
  simp (disch := (intros; simp [ite_pending])) [noTouchstone, ite_pending, foldl_pending]

@[simp] theorem takeResult_pending (s : State) (p : Nat) (k : Partn) (t : Touch) (status : Nat) (digest : List Byte)  :
    (takeResult s p k t status digest).pending = s.pending := by
  simp (disch := (intros; simp [ite_pending])) [takeResult, ite_pending, foldl_pending]

@[simp] theorem resetPort_pending (s : State) (p : Nat)  :
    (resetPort s p).pending = s.pending := by
  simp (disch := (intros; simp [ite_pending])) [resetPort, ite_pending, foldl_pending]

@[simp] theorem resetObjects_pending (s : State)  :
    (resetObjects s).pending = s.pending := by
  simp (disch := (intros; simp [ite_pending])) [resetObjects, ite_pending, foldl_pending]

@[simp] theorem abortFlights_pending (s : State)  :
    (abortFlights s).pending = s.pending := by
  unfold abortFlights
  (try dsimp only)
  repeat' split
  all_goals first | simp (disch := (intros; simp [ite_pending])) [ite_pending, foldl_pending] | rfl

@[simp] theorem resetHeart_pending (s : State)  :
    (resetHeart s).pending = s.pending := by
  simp (disch := (intros; simp [ite_pending])) [resetHeart, ite_pending, foldl_pending]

@[simp] theorem deviceReset_pending (s : State)  :
    (deviceReset s).pending = s.pending := by
  simp (disch := (intros; simp [ite_pending])) [deviceReset, ite_pending, foldl_pending]

@[simp] theorem noteLink_pending (s : State) (r : Nat)  :
    (noteLink s r).pending = s.pending := by
  simp (disch := (intros; simp [ite_pending])) [noteLink, ite_pending, foldl_pending]

@[simp] theorem onBurned_pending (s : State) (n : Nat) (f : Core → Core)  :
    (onBurned s n f).pending = s.pending := by
  unfold onBurned
  (try dsimp only)
  repeat' split
  all_goals first | simp (disch := (intros; simp [ite_pending])) [ite_pending, foldl_pending] | rfl

@[simp] theorem endPass_pending (s : State) (p : Nat) (b : Burn) (cut : Bool)  :
    (endPass s p b cut).pending = s.pending := by
  simp (disch := (intros; simp [ite_pending])) [endPass, ite_pending, foldl_pending]

@[simp] theorem endItem_pending (s : State) (p : Nat) (b : Burn)  :
    (endItem s p b).pending = s.pending := by
  simp (disch := (intros; simp [ite_pending])) [endItem, ite_pending, foldl_pending]

@[simp] theorem rstkLost_pending (s : State) (q : Nat)  :
    (rstkLost s q).pending = s.pending := by
  simp (disch := (intros; simp [ite_pending])) [rstkLost, ite_pending, foldl_pending]

@[simp] theorem burnFailed_pending (s : State) (p : Nat) (b : Burn) (repeats : List Bool)  :
    (burnFailed s p b repeats).pending = s.pending := by
  unfold burnFailed
  (try dsimp only)
  repeat' split
  all_goals first | simp (disch := (intros; simp [ite_pending])) [ite_pending, foldl_pending] | rfl

@[simp] theorem writePref_pending (s : State)  :
    (writePref s).pending = s.pending := by
  simp (disch := (intros; simp [ite_pending])) [writePref, ite_pending, foldl_pending]

@[simp] theorem takeOver_pending (s : State)  :
    (takeOver s).pending = s.pending := by
  simp (disch := (intros; simp [ite_pending])) [takeOver, ite_pending, foldl_pending]

@[simp] theorem clusterReset_pending (s : State) (p cx cy : Nat)  :
    (clusterReset s p cx cy).pending = s.pending := by
  simp (disch := (intros; simp [ite_pending])) [clusterReset, ite_pending, foldl_pending]

@[simp] theorem moveCores_pending (s0 s : State) (cs : List Nat)  :
    (moveCores s0 s cs).pending = s.pending := foldl_pending _ (fun _ _ => by simp) _ _

@[simp] theorem retarget_pending (s : State) (p : Nat)  :
    (retarget s p).1.pending = s.pending := by
  simp (disch := (intros; simp [ite_pending])) [retarget, ite_pending, foldl_pending]

@[simp] theorem graftMove_pending (s : State) (p : Nat) (part : Option Nat)  :
    (graftMove s p part).pending = s.pending := by
  unfold graftMove
  (try dsimp only)
  repeat' split
  all_goals first | simp (disch := (intros; simp [ite_pending])) [ite_pending, foldl_pending] | rfl

@[simp] theorem graftEvent_pending (s : State) (p q col done : Nat)  :
    (graftEvent s p q col done).pending = s.pending := by
  simp (disch := (intros; simp [ite_pending])) [graftEvent, ite_pending, foldl_pending]

@[simp] theorem endRecovery_pending (s : State) (q : Nat) (done : State → State) (h_done : ∀ x0, (done x0).pending = x0.pending) :
    (endRecovery s q done).pending = s.pending := by
  simp (disch := (intros; simp [ite_pending])) [endRecovery, ite_pending, foldl_pending, h_done]

@[simp] theorem replenish_pending (s : State) (p : Nat)  :
    (replenish s p).pending = s.pending := by
  simp (disch := (intros; simp [ite_pending])) [replenish, ite_pending, foldl_pending]

@[simp] theorem regionTested_pending (s : State) (p : Nat) (pass : Bool)  :
    (regionTested s p pass).pending = s.pending := by
  simp (disch := (intros; simp [ite_pending])) [regionTested, ite_pending, foldl_pending]

@[simp] theorem dropJob_pending (s : State) (q ty : Nat)  :
    (dropJob s q ty).pending = s.pending := by
  simp (disch := (intros; simp [ite_pending])) [dropJob, ite_pending, foldl_pending]

@[simp] theorem onJob_pending (s : State) (q ty : Nat) (m : List Byte) (eff : State → Nat → Partn → State) (h_eff : ∀ x0 x1 x2, (eff x0 x1 x2).pending = x0.pending) :
    (onJob s q ty m eff).pending = s.pending := by
  unfold onJob
  (try dsimp only)
  repeat' split
  all_goals first | simp (disch := (intros; simp [ite_pending])) [ite_pending, foldl_pending, h_eff] | rfl

@[simp] theorem takeQuench_pending (s : State) (p : Nat) (k : Partn) (q : Nat) (m : List Byte)  :
    (takeQuench s p k q m).pending = s.pending := by
  simp (disch := (intros; simp [ite_pending])) [takeQuench, ite_pending, foldl_pending]

@[simp] theorem releaseHold_pending (s : State) (p : Nat)  :
    (releaseHold s p).pending = s.pending := by
  simp (disch := (intros; simp [ite_pending])) [releaseHold, ite_pending, foldl_pending]

@[simp] theorem takeLive_pending (s : State) (p : Nat) (k : Partn) (q : Nat) (m : List Byte)  :
    (takeLive s p k q m).pending = s.pending := by
  simp (disch := (intros; simp [ite_pending])) [takeLive, ite_pending, foldl_pending]

@[simp] theorem endAdmission_pending (s : State) (p : Nat) (d : Admission) (status : Nat)  :
    (endAdmission s p d status).pending = s.pending := by
  simp (disch := (intros; simp [ite_pending])) [endAdmission, ite_pending, foldl_pending]

@[simp] theorem takeState_pending (s : State) (p : Nat) (k : Partn) (d : Admission) (m data : List Byte)  :
    (takeState s p k d m data).pending = s.pending := by
  simp (disch := (intros; simp [ite_pending])) [takeState, ite_pending, foldl_pending]

@[simp] theorem onReset_pending (s : State) (r : Nat) (pos : Word) (n : Nat) (own : State → Partn → List Word → List (Bool × Nat)) (handles : List Word → List Word) (eff : State → Nat → Partn → List Word → State) (h_eff : ∀ x0 x1 x2 x3, (eff x0 x1 x2 x3).pending = x0.pending) :
    (onReset s r pos n own handles eff).pending = s.pending := commandIf_pending _ _ _ _ _ _ fun _ _ _ => by
  (try dsimp only)
  (repeat' split) <;> simp [ite_pending, h_eff]

@[simp] theorem testClears_pending (s : State) (u : Word)  :
    (testClears s u).pending = s.pending := by
  unfold testClears
  (try dsimp only)
  repeat' split
  all_goals first | simp (disch := (intros; simp [ite_pending])) [ite_pending, foldl_pending] | rfl

@[simp] theorem readmit_pending (s : State) (u : Word)  :
    (readmit s u).pending = s.pending := by
  unfold readmit
  (try dsimp only)
  repeat' split
  all_goals first | simp (disch := (intros; simp [ite_pending])) [ite_pending, foldl_pending] | rfl

@[simp] theorem testUnit_pending (s : State) (r : Nat) (pos : Word) (act : Nat) (res : TestResult) (after : State → Word → State) (h_after : ∀ x0 x1, (after x0 x1).pending = x0.pending) :
    (testUnit s r pos act res after).pending = s.pending := by
  unfold testUnit
  (try dsimp only)
  repeat' split
  all_goals first | rfl | simp_all [ite_pending, foldl_pending, h_after]

@[simp] theorem fillBuffer_pending (s : State) (b : HostBuf) (parts : List (Nat × List Byte)) (len : Nat)  :
    (fillBuffer s b parts len).pending = s.pending := by
  simp (disch := (intros; simp [ite_pending])) [fillBuffer, ite_pending, foldl_pending]

@[simp] theorem railDown_pending (s : State) (p rail : Nat)  :
    (railDown s p rail).pending = s.pending := by
  unfold railDown
  (try dsimp only)
  repeat' split
  all_goals first | simp (disch := (intros; simp [ite_pending])) [ite_pending, foldl_pending] | rfl

@[simp] theorem railUp_pending (s : State) (p : Nat)  :
    (railUp s p).pending = s.pending := by
  unfold railUp
  (try dsimp only)
  repeat' split
  all_goals first | simp (disch := (intros; simp [ite_pending])) [ite_pending, foldl_pending] | rfl

@[simp] theorem onCrack_pending (s : State) (p : Nat)  :
    (onCrack s p).pending = s.pending := by
  simp (disch := (intros; simp [ite_pending])) [onCrack, ite_pending, foldl_pending]

@[simp] theorem setThermal_pending (s : State) (p v : Nat)  :
    (setThermal s p v).pending = s.pending := by
  simp (disch := (intros; simp [ite_pending])) [setThermal, ite_pending, foldl_pending]

@[simp] theorem setTmax_pending (s : State) (p : Nat) (t : BitVec 8)  :
    (setTmax s p t).pending = s.pending := by
  simp (disch := (intros; simp [ite_pending])) [setTmax, ite_pending, foldl_pending]

@[simp] theorem pollarded_pending (s : State) (p : Nat)  :
    (pollarded s p).pending = s.pending := by
  simp (disch := (intros; simp [ite_pending])) [pollarded, ite_pending, foldl_pending]

@[simp] theorem pollardNow_pending (s : State) (p : Nat)  :
    (pollardNow s p).pending = s.pending := by
  simp (disch := (intros; simp [ite_pending])) [pollardNow, ite_pending, foldl_pending]

@[simp] theorem askPollard_pending (s : State) (p q : Nat)  :
    (askPollard s p q).pending = s.pending := by
  simp (disch := (intros; simp [ite_pending])) [askPollard, ite_pending, foldl_pending]

@[simp] theorem dropRequest_pending (s : State) (p : Nat)  :
    (dropRequest s p).pending = s.pending := by
  simp (disch := (intros; simp [ite_pending])) [dropRequest, ite_pending, foldl_pending]

@[simp] theorem pollardMove_pending (s : State) (p q : Nat)  :
    (pollardMove s p q).pending = s.pending := by
  simp (disch := (intros; simp [ite_pending])) [pollardMove, ite_pending, foldl_pending]

@[simp] theorem onHard_pending (s : State) (p : Nat)  :
    (onHard s p).pending = s.pending := by
  unfold onHard
  (try dsimp only)
  repeat' split
  all_goals first | simp (disch := (intros; simp [ite_pending])) [ite_pending, foldl_pending] | rfl

@[simp] theorem quenchAll_pending (s : State) (cause : Nat)  :
    (quenchAll s cause).pending = s.pending := by
  simp (disch := (intros; simp [ite_pending])) [quenchAll, ite_pending, foldl_pending]

@[simp] theorem finding_pending (s : State) (c : Nat) (f : Findings → Findings)  :
    (finding s c f).pending = s.pending := by
  unfold finding
  (try dsimp only)
  repeat' split
  all_goals first | simp (disch := (intros; simp [ite_pending])) [ite_pending, foldl_pending] | rfl

@[simp] theorem progFinding_pending (s : State) (c : Nat) (args : List Nat)  :
    (progFinding s c args).pending = s.pending := by
  simp (disch := (intros; simp [ite_pending])) [progFinding, ite_pending, foldl_pending]

@[simp] theorem correctedPatina_pending (s : State) (st : Nat)  :
    (correctedPatina s st).pending = s.pending := by
  simp (disch := (intros; simp [ite_pending])) [correctedPatina, ite_pending, foldl_pending]

@[simp] theorem onPageMiss_pending (s : State) (st c why : Nat)  :
    (onPageMiss s st c why).pending = s.pending := by
  unfold onPageMiss
  (try dsimp only)
  repeat' split
  all_goals first | simp (disch := (intros; simp [ite_pending])) [ite_pending, foldl_pending] | rfl

@[simp] theorem onStreamFailed_pending (s : State) (st c : Nat)  :
    (onStreamFailed s st c).pending = s.pending := by
  simp (disch := (intros; simp [ite_pending])) [onStreamFailed, ite_pending, foldl_pending]

@[simp] theorem onSkew_pending (s : State) (u : Nat)  :
    (onSkew s u).pending = s.pending := by
  simp (disch := (intros; simp [ite_pending])) [onSkew, ite_pending, foldl_pending]

@[simp] theorem takeRecord_pending (s : State) (r : Rec)  :
    (takeRecord s r).pending = s.pending := by
  unfold takeRecord
  (try dsimp only)
  repeat' split
  all_goals first | simp (disch := (intros; simp [ite_pending])) [ite_pending, foldl_pending] | rfl

@[simp] theorem startStep_pending (s : State) (w : Word) (auto : Bool)  :
    (startStep s w auto).pending = s.pending := by
  simp (disch := (intros; simp [ite_pending])) [startStep, ite_pending, foldl_pending]

@[simp] theorem goWrite_pending (s : State) (w : Word)  :
    (goWrite s w).pending = s.pending := by
  simp (disch := (intros; simp [ite_pending])) [goWrite, ite_pending, foldl_pending]

@[simp] theorem vsetWrite_pending (s : State) (o : Nat) (val : Word)  :
    (vsetWrite s o val).pending = s.pending := by
  simp (disch := (intros; simp [ite_pending])) [vsetWrite, ite_pending, foldl_pending]

@[simp] theorem thrWrite_pending (s : State) (o : Nat) (val : Word)  :
    (thrWrite s o val).pending = s.pending := by
  simp (disch := (intros; simp [ite_pending])) [thrWrite, ite_pending, foldl_pending]

@[simp] theorem railWrite_pending (s : State) (p : Nat) (val : Word)  :
    (railWrite s p val).pending = s.pending := by
  simp (disch := (intros; simp [ite_pending])) [railWrite, ite_pending, foldl_pending]

@[simp] theorem clockWrite_pending (s : State) (k r : Nat) (val : Word)  :
    (clockWrite s k r val).pending = s.pending := by
  simp (disch := (intros; simp [ite_pending])) [clockWrite, ite_pending, foldl_pending]

@[simp] theorem rgnWrite_pending (s : State) (p r : Nat) (val : Word)  :
    (rgnWrite s p r val).pending = s.pending := by
  simp (disch := (intros; simp [ite_pending])) [rgnWrite, ite_pending, foldl_pending]

@[simp] theorem winWrite_pending (s : State) (o : Nat) (val : Word)  :
    (winWrite s o val).pending = s.pending := by
  simp (disch := (intros; simp [ite_pending])) [winWrite, ite_pending, foldl_pending]

@[simp] theorem bumpAll_pending (s : State)  :
    (bumpAll s).pending = s.pending := by
  simp (disch := (intros; simp [ite_pending])) [bumpAll, ite_pending, foldl_pending]

@[simp] theorem coldState_pending (s0 : State)  :
    (coldState s0).pending = s0.pending := by
  simp (disch := (intros; simp [ite_pending])) [coldState, ite_pending, foldl_pending]

@[simp] theorem onBrup_pending (s : State) (p : Nat) (src : Word) (reads : Bool) (body : State) (h_body : body.pending = s.pending) :
    (onBrup s p src reads body).pending = s.pending := by
  unfold onBrup
  (try dsimp only)
  split <;> simp [h_body]

@[simp] theorem runStep_pending (s : State) (k : Nat) (body : State → State) (h_body : ∀ x0, (body x0).pending = x0.pending) :
    (runStep s k body).pending = s.pending := by
  simp (disch := (intros; simp [ite_pending])) [runStep, ite_pending, foldl_pending, h_body]

@[simp] theorem powerAll_pending (s : State)  :
    (powerAll s).pending = s.pending := by
  simp (disch := (intros; simp [ite_pending])) [powerAll, ite_pending, foldl_pending]

@[simp] theorem retrainAll_pending (s : State) (st : Nat)  :
    (retrainAll s st).pending = s.pending := by
  simp (disch := (intros; simp [ite_pending])) [retrainAll, ite_pending, foldl_pending]

@[simp] theorem brgClear_pending (s : State)  :
    (brgClear s).pending = s.pending := by
  simp (disch := (intros; simp [ite_pending])) [brgClear, ite_pending, foldl_pending]

@[simp] theorem autoStart_pending (s : State)  :
    (autoStart s).pending = s.pending := by
  simp (disch := (intros; simp [ite_pending])) [autoStart, ite_pending, foldl_pending]

@[simp] theorem stepFails_pending (s : State) (cause : Nat)  :
    (stepFails s cause).pending = s.pending := by
  simp (disch := (intros; simp [ite_pending])) [stepFails, ite_pending, foldl_pending]

@[simp] theorem loadFw_pending (s : State) (bad : List (Nat × Nat × Nat))  :
    (loadFw s bad).pending = s.pending := by
  unfold loadFw
  (try dsimp only)
  repeat' split
  all_goals first | simp (disch := (intros; simp [ite_pending])) [ite_pending, foldl_pending] | rfl

@[simp] theorem deviceErase_pending (s : State)  :
    (deviceErase s).pending = s.pending := by
  simp (disch := (intros; simp [ite_pending])) [deviceErase, ite_pending, foldl_pending]

@[simp] theorem transition_pending (s : State) (target : Nat) (token : List Byte) (fuses : Bool)  :
    (transition s target token fuses).1.pending = s.pending := by
  unfold transition
  (try dsimp only)
  repeat' split
  all_goals first | simp (disch := (intros; simp [ite_pending])) [ite_pending, foldl_pending] | rfl

@[simp] theorem transit_pending (s : State) (fuses : Bool)  :
    (transit s fuses).1.pending = s.pending := by
  unfold transit
  (try dsimp only)
  repeat' split
  all_goals first | simp (disch := (intros; simp [ite_pending])) [ite_pending, foldl_pending] | rfl

@[simp] theorem openRing0_pending (s : State)  :
    (openRing0 s).pending = s.pending := by
  unfold openRing0
  (try dsimp only)
  repeat' split
  all_goals first | simp (disch := (intros; simp [ite_pending])) [ite_pending, foldl_pending] | rfl

@[simp] theorem putOuts_pending (s : State)  :
    (putOuts s).pending = s.pending := by
  unfold putOuts
  (try dsimp only)
  repeat' split
  all_goals first | simp (disch := (intros; simp [ite_pending])) [ite_pending, foldl_pending] | rfl

@[simp] theorem layDist_pending (s : State)  :
    (layDist s).pending = s.pending := by
  simp (disch := (intros; simp [ite_pending])) [layDist, ite_pending, foldl_pending]

@[simp] theorem settleStore_pending (s : State)  :
    (settleStore s).pending = s.pending := by
  simp (disch := (intros; simp [ite_pending])) [settleStore, ite_pending, foldl_pending]

@[simp] theorem beginService_pending (s : State) (act : Nat) (standby : Bool)  :
    (beginService s act standby).pending = s.pending := by
  simp (disch := (intros; simp [ite_pending])) [beginService, ite_pending, foldl_pending]

@[simp] theorem startService_pending (s : State) (west east fuses : Bool)  :
    (startService s west east fuses).pending = s.pending := by
  simp (disch := (intros; simp [ite_pending])) [startService, ite_pending, foldl_pending]

@[simp] theorem onAttest_pending (s : State) (r : Nat) (pos : Word) (n : Nat) (own : State → HostBuf → List Word → List (Bool × Nat)) (eff : State → HostBuf → List Word → State) (h_eff : ∀ x0 x1 x2, (eff x0 x1 x2).pending = x0.pending) :
    (onAttest s r pos n own eff).pending = s.pending := commandIf_pending _ _ _ _ _ _ fun _ _ _ => by
  (try dsimp only)
  (repeat' split) <;> simp [ite_pending, h_eff]

@[simp] theorem installKey_pending (s : State) (p : Nat) (k : Partn) (key : List Byte)  :
    (installKey s p k key).pending = s.pending := by
  simp (disch := (intros; simp [ite_pending])) [installKey, ite_pending, foldl_pending]

@[simp] theorem issueMove_pending (s : State) (i : Issue) (f : MoveField) (eff : Core → Nat → Bool → Core)  :
    (issueMove s i f eff).pending = s.pending := by
  simp (disch := (intros; simp [ite_pending])) [issueMove, ite_pending, foldl_pending]

@[simp] theorem issueMatrix_pending (s : State) (i : Issue) (k : MatKind) (f : MatField)  :
    (issueMatrix s i k f).pending = s.pending := by
  simp (disch := (intros; simp [ite_pending])) [issueMatrix, ite_pending, foldl_pending]

@[simp] theorem reachDue_pending (s : State) (c : CoreId) (l : List Nat)  :
    (reachDue s c l).pending = s.pending := by
  unfold reachDue
  (try dsimp only)
  repeat' split
  all_goals first | simp (disch := (intros; simp [ite_pending])) [ite_pending, foldl_pending] | rfl

@[simp] theorem takePause_pending (p : Nat) (quanta : List (BitVec 16)) (s : State) (i : Nat)  :
    (takePause p quanta s i).pending = s.pending := by
  simp (disch := (intros; simp [ite_pending])) [takePause, ite_pending, foldl_pending]

@[simp] theorem sbSet_pending (s : State) (off : Nat) (w : Word)  :
    (sbSet s off w).pending = s.pending := by
  simp (disch := (intros; simp [ite_pending])) [sbSet, ite_pending, foldl_pending]

@[simp] theorem sbRead_pending (s : State) (off : Nat)  :
    (sbRead s off).2.pending = s.pending := by
  unfold sbRead
  (try dsimp only)
  repeat' split
  all_goals first | simp (disch := (intros; simp [ite_pending])) [ite_pending, foldl_pending] | rfl

@[simp] theorem fencePorts_pending (s : State)  :
    (fencePorts s).pending = s.pending := by
  simp (disch := (intros; simp [ite_pending])) [fencePorts, ite_pending, foldl_pending]

@[simp] theorem removalPath_pending (s : State)  :
    (removalPath s).pending = s.pending := by
  simp (disch := (intros; simp [ite_pending])) [removalPath, ite_pending, foldl_pending]

@[simp] theorem budgetWrite_pending (s : State) (val : Word)  :
    (budgetWrite s val).pending = s.pending := by
  simp (disch := (intros; simp [ite_pending])) [budgetWrite, ite_pending, foldl_pending]

@[simp] theorem sbWrite_pending (s : State) (off : Nat) (val : Word)  :
    (sbWrite s off val).pending = s.pending := by
  unfold sbWrite
  (try dsimp only)
  repeat' split
  all_goals first | simp (disch := (intros; simp [ite_pending])) [ite_pending, foldl_pending] | rfl

@[simp] theorem getCommon_pending (s : State) (ws : List Word)  :
    (getCommon s ws).pending = s.pending := by
  simp (disch := (intros; simp [ite_pending])) [getCommon, ite_pending, foldl_pending]

@[simp] theorem takeAddr_pending (s : State) (addr : BitVec 7)  :
    (takeAddr s addr).pending = s.pending := by
  simp (disch := (intros; simp [ite_pending])) [takeAddr, ite_pending, foldl_pending]

@[simp] theorem sendIbi_pending (s : State) (ack : Bool)  :
    (sendIbi s ack).pending = s.pending := by
  simp (disch := (intros; simp [ite_pending])) [sendIbi, ite_pending, foldl_pending]

@[simp] theorem regRead_pending (s : State) (tgt : RegTarget) (off : Nat)  :
    (regRead s tgt off).2.pending = s.pending := by
  unfold regRead
  (try dsimp only)
  repeat' split
  all_goals first | simp (disch := (intros; simp [ite_pending])) [ite_pending, foldl_pending] | rfl

@[simp] theorem regWrite_pending (s : State) (tgt : RegTarget) (off : Nat) (val : Word)  :
    (regWrite s tgt off val).pending = s.pending := by
  unfold regWrite
  (try dsimp only)
  repeat' split
  all_goals first | simp (disch := (intros; simp [ite_pending])) [ite_pending, foldl_pending] | rfl

@[simp] theorem regHard_pending (s : State) (tgt : RegTarget) (off : Nat) (pick : RegDef → Word) (ev : Word)  :
    (regHard s tgt off pick ev).pending = s.pending := by
  unfold regHard
  (try dsimp only)
  repeat' split
  all_goals first | simp (disch := (intros; simp [ite_pending])) [ite_pending, foldl_pending] | rfl

@[simp] theorem access_pending (s : State) (tgt : RegTarget) (off size : Nat) (body : State) (h_body : body.pending = s.pending) :
    (access s tgt off size body).pending = s.pending := by
  unfold access
  (repeat' split) <;> simp [h_body]

@[simp] theorem issueScalar_pending (s : State) (i : Issue) (bad : Bool) (addrBad : Core → Nat → Bool) (eff : State → Core → Nat → Bool → State) (h_eff : ∀ x0 x1 x2 x3, (eff x0 x1 x2 x3).pending = x0.pending) :
    (issueScalar s i bad addrBad eff).pending = s.pending := by
  simp (disch := (intros; simp [ite_pending])) [issueScalar, ite_pending, foldl_pending, h_eff]

@[simp] theorem scalarWrite_pending (i : Issue) (reg : Nat) (s : State) (c : Core) (t : Nat) (en : Bool) (v : PWord)  :
    (scalarWrite i reg s c t en v).pending = s.pending := by
  simp (disch := (intros; simp [ite_pending])) [scalarWrite, ite_pending, foldl_pending]

@[simp] theorem issueReg_pending (s : State) (i : Issue) (f : RegForm) (g : Word → Word → Word)  :
    (issueReg s i f g).pending = s.pending := by
  simp (disch := (intros; simp [ite_pending])) [issueReg, ite_pending, foldl_pending]

@[simp] theorem issueImm_pending (s : State) (i : Issue) (f : ImmForm) (g : Word → Word → Word)  :
    (issueImm s i f g).pending = s.pending := by
  simp (disch := (intros; simp [ite_pending])) [issueImm, ite_pending, foldl_pending]

@[simp] theorem issueVector_pending (s : State) (i : Issue) (judge : Core → Option Word) (unit occ : Nat) (run : VecCtx → Core → Core)  :
    (issueVector s i judge unit occ run).pending = s.pending := by
  simp (disch := (intros; simp [ite_pending])) [issueVector, ite_pending, foldl_pending]

@[simp] theorem issueUnary_pending (s : State) (i : Issue) (f : VecField) (mod : BitVec 6) (occ lat : Nat) (int : Bool) (g : Word → WF)  :
    (issueUnary s i f mod occ lat int g).pending = s.pending := by
  simp (disch := (intros; simp [ite_pending])) [issueUnary, ite_pending, foldl_pending]

@[simp] theorem issueBinary_pending (s : State) (i : Issue) (f : VecField) (mod : BitVec 6) (occ lat : Nat) (int : Bool) (g : Word → Word → WF)  :
    (issueBinary s i f mod occ lat int g).pending = s.pending := by
  simp (disch := (intros; simp [ite_pending])) [issueBinary, ite_pending, foldl_pending]

@[simp] theorem issueReduce_pending (s : State) (i : Issue) (f : VecField) (k : RedKind) (byRow : Bool)  :
    (issueReduce s i f k byRow).pending = s.pending := by
  simp (disch := (intros; simp [ite_pending])) [issueReduce, ite_pending, foldl_pending]

@[simp] theorem singleOut_pending (s : State) (l : Nat)  :
    (singleOut s l).pending = s.pending := by
  simp (disch := (intros; simp [ite_pending])) [singleOut, ite_pending, foldl_pending]

@[simp] theorem tickSettle_pending (s : State) (c : CoreId)  :
    (tickSettle s c).pending = s.pending := by
  simp (disch := (intros; simp [ite_pending])) [tickSettle, ite_pending, foldl_pending]

end Sys2Proof.Machine
end

