-- ==== Sys2Proof/Laws/Scalar.lean ====
section
/-! SUPPORT. The scalar unit: what issuing a scalar operation does. -/

namespace Sys2Proof.Machine

theorem fieldIssue_some {s : State} {c : Nat} {u : Core → Bool} {n : Nat} {k : Core} (h : fieldIssue s c u = some (n, k)) :
    (s.core c).idle = false ∧ openField (s.core c) s.now (u (s.core c)) = (n, k) ∧ k.idle = false := by
  unfold fieldIssue at h
  split at h
  · cases h
  · dsimp only at h
    split at h
    · cases h
    · rename_i h1 h2
      have h3 := Option.some.inj h
      rw [h3] at h2
      exact ⟨by simpa using h1, h3, by simpa using h2⟩

/-- A scalar field that issues in cycle n on core k acts there. -/
theorem issueScalar_acts {s : State} {i : Issue} {n : Nat} {k : Core} (h : fieldIssue s i.core.val (fun _ => false) = some (n, k))
    (bad : Bool) (ab : Core → Nat → Bool) (eff : State → Core → Nat → Bool → State) :
    issueScalar s i bad ab eff =
      if predReserved i || bad then (s.reach n).setCore i.core.val (goOn (scalarDiscard k sBadOp) n (n + 1))
      else if ab k n then (s.reach n).setCore i.core.val (goOn (scalarDiscard k sBadAddr) n (n + 1))
      else eff (s.reach n) k n (enabledAt k i n) := by
  obtain ⟨h1, h2, h3⟩ := fieldIssue_some h
  unfold issueScalar
  simp only [h1, h2, h3, Bool.false_eq_true, if_false]

theorem dataOf_pend (k : Core) (p : List ScalarRes) : dataOf { k with pend := p } = { dataOf k with pend := p } := rfl
theorem dataOf_regs (k : Core) (p : Map Word) : dataOf { k with regs := p } = { dataOf k with regs := p } := rfl

/-- A core as `setCore` stores it, after issue has gone on in sequence: all that has changed is where issue stands. -/
theorem dataOf_stored (k : Core) (t n : Nat) : dataOf { goOn k t n with outbox := [], check := false } = dataOf k :=
  (show dataOf { goOn k t n with outbox := [], check := false } = dataOf (goOn k t n) from rfl).trans (goOn_data k t n)

theorem regs_of_data {a b : Core} (h : dataOf a = dataOf b) : a.regs = b.regs := by
  have := congrArg Core.regs h; exact this

theorem cReg_of_data {a b : Core} (h : dataOf a = dataOf b) (o : Nat) : cReg a o = cReg b o := by
  unfold cReg; rw [regs_of_data h]

theorem gprAt_of_data {a b : Core} (h : dataOf a = dataOf b) (r u : Nat) : gprAt a r u = gprAt b r u :=
  gprAt_congr a b r u (show (dataOf a).pend = (dataOf b).pend by rw [h]) (show (dataOf a).gpr = (dataOf b).gpr by rw [h])

/-- A discarded scalar operation: one flag and one count (R250, R760). -/
theorem scalarDiscarded_of (k : Core) (b n m : Nat) (hb : b < 16) :
    scalarDiscarded b k { goOn (scalarDiscard k (BitVec.ofNat 32 (2 ^ b))) n m with outbox := [], check := false } := by
  have hd := dataOf_stored (scalarDiscard k (BitVec.ofNat 32 (2 ^ b))) n m
  have hr : ∀ o, cReg { goOn (scalarDiscard k (BitVec.ofNat 32 (2 ^ b))) n m with outbox := [], check := false } o
      = cReg (cCount (cFlag k rCtlStatus (BitVec.ofNat 32 (2 ^ b))) rCtlStatus 31 16 1) o := fun o => cReg_of_data hd o
  have hbit : ∀ j, bit (BitVec.ofNat 32 (2 ^ b)) j = decide (j = b) := by
    intro j
    simp only [bit, BitVec.getLsbD_ofNat, Nat.testBit_two_pow]
    by_cases h1 : b = j <;> simp [h1] <;> omega
  have hf : fld (BitVec.ofNat 32 (2 ^ b)) 31 16 = 0 := by
    apply Nat.eq_of_testBit_eq; intro i
    rw [testBit_fld, Nat.zero_testBit, ← bit, hbit]
    simp; intro _; omega
  refine ⟨?_, ?_, ?_, ?_, ?_⟩
  · rw [hr, cReg_cCount_self, bit_setFld _ _ _ _ _ (by omega), cReg_cFlag_self, bit_or, hbit]; simp
  · rw [hr, cReg_cCount_self, fld_setFld_self _ _ _ _ (by omega), cReg_cFlag_self, fld_or_zero _ _ _ _ hf]
    simp only [satTo]
    have := fld_lt (cReg k rCtlStatus) 31 16
    split <;> omega
  · intro j h1 h2
    rw [hr, cReg_cCount_self, bit_setFld _ _ _ _ _ (by omega), cReg_cFlag_self, bit_or, hbit]; simp [h2]
  · intro o h
    rw [hr, cReg_cCount_ne _ _ _ _ _ _ h, cReg_cFlag_ne _ _ _ _ h]
  · rw [dataOf_regs, hd]; rfl

/-- A scalar result written, with issue going on. -/
theorem scalarResult_of (en : Bool) (dst n d m : Nat) (v : PWord) (k : Core) :
    scalarResult en dst n d v k
      { goOn (if en then gprResult k dst (n + d) v else k) n m with outbox := [], check := false } := by
  have hd := dataOf_stored (if en then gprResult k dst (n + d) v else k) n m
  refine ⟨?_, ?_, ?_, ?_⟩
  · rw [dataOf_pend, hd]
    cases en
    · rfl
    · simp only [if_true]; rw [← dataOf_pend]; exact dataOf_gprResult k dst (n + d) v
  · intro h1 h2
    rw [gprAt_of_data hd, h1, if_pos rfl, gprAt_result_self _ _ _ _ h2]
  · intro u; simp [gprAt]
  · intro r u h
    rw [gprAt_of_data hd]
    cases en
    · rfl
    · simp only [if_true]
      exact gprAt_result_ne _ _ _ _ _ _ (by rcases h with h | h | h <;> [exact .inl h; exact .inr (.inl h); cases h])

/-! ### What a read of the scratchpad notes -/

/-- A core without what a read of the scratchpad may note. -/
theorem dataButNotes_trans {a b c : Core} (h1 : dataButNotes a b) (h2 : dataButNotes b c) : dataButNotes a c := by
  unfold dataButNotes at *
  have e : dataOf { c with regs := a.regs, recs := a.recs, lastRec := a.lastRec }
      = { dataOf { c with regs := b.regs, recs := b.recs, lastRec := b.lastRec } with
          regs := a.regs, recs := a.recs, lastRec := a.lastRec } := rfl
  rw [e, h2]
  exact (show _ = dataOf { b with regs := a.regs, recs := a.recs, lastRec := a.lastRec } from rfl).trans h1

theorem dataButNotes_refl (k : Core) : dataButNotes k k := rfl
theorem dataButNotes_cFlag (k : Core) (o : Nat) (m : Word) : dataButNotes k (cFlag k o m) := rfl
theorem dataButNotes_cCount (k : Core) (o hi lo n : Nat) : dataButNotes k (cCount k o hi lo n) := rfl
theorem dataButNotes_cSet (k : Core) (o : Nat) (w : Word) : dataButNotes k (cSet k o w) := rfl
theorem dataButNotes_cCheck (k : Core) : dataButNotes k (cCheck k) := rfl
theorem dataButNotes_cEmit (k : Core) (t : Nat) (r : Rec) : dataButNotes k (cEmit k t r) := by
  unfold cEmit
  dsimp only
  repeat' split
  all_goals rfl

theorem dataButNotes_noteParity (k : Core) (cl t : Nat) (ws : List Nat) : dataButNotes k (noteParity k cl t ws) := by
  unfold noteParity
  cases ws with
  | nil => rfl
  | cons w r =>
    refine dataButNotes_trans ?_ (dataButNotes_cCheck _)
    refine dataButNotes_trans ?_ (dataButNotes_cEmit _ _ _)
    refine dataButNotes_trans ?_ (dataButNotes_cCount _ _ _ _ _)
    refine dataButNotes_trans ?_ (dataButNotes_cFlag _ _ _)
    split <;> rfl

/-- A read of the scratchpad changes nothing of the core but registers and records (R230, R231). -/
theorem dataButNotes_noteReads (k : Core) (cl t : Nat) (rs : List (Nat × Nat)) : dataButNotes k (noteReads k cl t rs) := by
  unfold noteReads noteSplit
  dsimp only
  split
  · exact dataButNotes_trans (dataButNotes_noteParity _ _ _ _) (dataButNotes_cFlag _ _ _)
  · exact dataButNotes_noteParity _ _ _ _

theorem dataButNotes_stored {k m : Core} (h : dataButNotes k m) (t n : Nat) :
    dataButNotes k { goOn m t n with outbox := [], check := false } :=
  dataButNotes_trans h (by unfold dataButNotes; have := dataOf_stored m t n
                           exact (show _ = { dataOf { goOn m t n with outbox := [], check := false } with
                             regs := m.regs, recs := m.recs, lastRec := m.lastRec } from rfl).trans (by rw [this]))

theorem noteReads_pc (k : Core) (cl t : Nat) (rs : List (Nat × Nat)) :
    (noteReads k cl t rs).pc = k.pc ∧ (noteReads k cl t rs).loops = k.loops ∧ (noteReads k cl t rs).idle = k.idle := by
  have h : ∀ (k : Core) t r, (cEmit k t r).pc = k.pc ∧ (cEmit k t r).loops = k.loops ∧ (cEmit k t r).idle = k.idle := by
    intro k t r; unfold cEmit; dsimp only
    repeat' split
    all_goals exact ⟨rfl, rfl, rfl⟩
  have h2 : ∀ (k : Core) ws, (noteParity k cl t ws).pc = k.pc ∧ (noteParity k cl t ws).loops = k.loops ∧ (noteParity k cl t ws).idle = k.idle := by
    intro k ws
    cases ws with
    | nil => exact ⟨rfl, rfl, rfl⟩
    | cons w r =>
      simp only [noteParity, cCheck]
      refine ⟨(h _ _ _).1.trans ?_, (h _ _ _).2.1.trans ?_, (h _ _ _).2.2.trans ?_⟩ <;> (simp only [cCount, cFlag]; split <;> rfl)
  unfold noteReads noteSplit
  dsimp only
  split
  · exact h2 _ _
  · exact h2 _ _

theorem noteReads_reg (k : Core) (cl t : Nat) (rs : List (Nat × Nat)) (o : Nat)
    (h : o ≠ rSpdErrAddr ∧ o ≠ rSpdErrCyc ∧ o ≠ rSpdStatus ∧ o ≠ rSrcStatus) : cReg (noteReads k cl t rs) o = cReg k o := by
  have e : ∀ (k : Core) t r, cReg (cEmit k t r) o = cReg k o := by
    intro k t r; unfold cEmit; dsimp only
    repeat' split
    all_goals first | rfl | exact cReg_cCount_ne _ _ _ _ _ _ h.2.2.2
  have p : ∀ (k : Core) ws, cReg (noteParity k cl t ws) o = cReg k o := by
    intro k ws
    cases ws with
    | nil => rfl
    | cons w r =>
      show cReg (cEmit _ _ _) o = _
      rw [e, cReg_cCount_ne _ _ _ _ _ _ h.2.2.1, cReg_cFlag_ne _ _ _ _ h.2.2.1]
      split
      · rfl
      · rw [cReg_cSet_ne _ _ _ _ h.2.1, cReg_cSet_ne _ _ _ _ h.1]
  unfold noteReads noteSplit
  dsimp only
  split
  · rw [cReg_cFlag_ne _ _ _ _ h.2.2.1, p]
  · exact p _ _

/-- A read of the scratchpad does not change the latency of the mode. -/
theorem noteReads_latency (k : Core) (cl t : Nat) (rs : List (Nat × Nat)) : latency (noteReads k cl t rs) = latency k := by
  unfold latency; rw [noteReads_reg _ _ _ _ _ (by decide)]

theorem goOn_seq (k m : Core) (t n : Nat) (h1 : m.pc = k.pc) (h2 : m.loops = k.loops) :
    goesOnInSequence k { goOn m t n with outbox := [], check := false } :=
  ⟨(goOn_pc m t n).trans (by rw [h1, h2]; rfl), (goOn_loops m t n).trans (by rw [h1, h2])⟩

/-- A load's result put on its way after its read has been noted. -/
theorem loadPost (k q : Core) (dst n d : Nat) (v : PWord) (h : dataButNotes k q) (hp : q.pc = k.pc ∧ q.loops = k.loops)
    (k2 : Core) (hk : k2 = { goOn (gprResult q dst d v) n (n + 1) with outbox := [], check := false }) :
    dataButNotes k { k2 with pend := k.pend } ∧ goesOnInSequence k k2 ∧ k2.spad = k.spad ∧ (dst ≠ 0 → gprAt k2 dst d = v) ∧
      ∀ r u, (r ≠ dst ∨ u < d) → gprAt k2 r u = gprAt k r u := by
  have hd : dataOf k2 = dataOf (gprResult q dst d v) := by rw [hk]; exact dataOf_stored _ _ _
  have hg : dataOf { gprResult q dst d v with pend := q.pend } = dataOf q := dataOf_gprResult q dst d v
  have hpd : q.pend = k.pend := by
    have e := data_pend (show dataOf { q with regs := k.regs, recs := k.recs, lastRec := k.lastRec } = dataOf k from h); exact e
  have hgp : q.gpr = k.gpr := by
    have e := data_gpr (show dataOf { q with regs := k.regs, recs := k.recs, lastRec := k.lastRec } = dataOf k from h); exact e
  have hs : q.spad = k.spad := by
    have e := data_spad (show dataOf { q with regs := k.regs, recs := k.recs, lastRec := k.lastRec } = dataOf k from h); exact e
  have hpl : (gprResult q dst d v).pc = k.pc ∧ (gprResult q dst d v).loops = k.loops := by
    unfold gprResult; split <;> exact hp
  refine ⟨?_, ?_, ?_, ?_, ?_⟩
  · unfold dataButNotes at *
    have e1 := dataSet_pend hd k.pend
    rw [← hpd] at e1 ⊢
    exact (dataSet_lastRec (dataSet_recs (dataSet_regs (e1.trans hg) k.regs) k.recs) k.lastRec).trans h
  · rw [hk]; exact goOn_seq k _ _ _ hpl.1 hpl.2
  · exact (data_spad hd).trans ((data_spad hg).trans hs)
  · intro h0; rw [gprAt_of_data hd, gprAt_result_self _ _ _ _ h0]
  · intro r u hx
    rw [gprAt_of_data hd, gprAt_result_ne _ _ _ _ _ _ (by rcases hx with h | h <;> simp [h])]
    exact gprAt_congr _ _ _ _ hpd hgp

/-! ### Writes put into the scratchpad's log -/

/-- A write does not change what a byte reads as which it does not cover, or before it has committed. -/
theorem spadByte_push_ne (sp : Spad) (w : SpadWrite) (cyc a : Nat) (h : w.covers a = false ∨ cyc ≤ w.commit) :
    spadByte (spadPush sp w) cyc a = spadByte sp cyc a := by
  have hw : (decide (w.commit < cyc) && w.covers a) = false := by
    rcases h with h | h
    · simp [h]
    · simp; intro h2; omega
  have : ∀ (l : List SpadWrite) (b : Byte),
      (spadInsert l w).foldl (fun v w => if decide (w.commit < cyc) && w.covers a then w.bytes.getD (a - w.addr) 0#8 else v) b
        = l.foldl (fun v w => if decide (w.commit < cyc) && w.covers a then w.bytes.getD (a - w.addr) 0#8 else v) b := by
    intro l
    induction l with
    | nil => intro b; simp only [spadInsert, List.foldl_cons, List.foldl_nil, hw]; rfl
    | cons v t ih =>
      intro b
      simp only [spadInsert]
      split
      · simp only [List.foldl_cons, ih]
      · rw [List.foldl_cons, hw]; rfl
  exact this sp.log _

/-- A byte that no other write on its way covers reads as the write's once it has committed. -/
theorem spadByte_push_self (sp : Spad) (w : SpadWrite) (cyc a : Nat) (h : w.covers a = true) (hc : w.commit < cyc)
    (ho : ∀ v ∈ sp.log, v.covers a = false) : spadByte (spadPush sp w) cyc a = w.bytes.getD (a - w.addr) 0#8 := by
  have skip : ∀ (l : List SpadWrite) (b : Byte), (∀ v ∈ l, v.covers a = false) →
      l.foldl (fun v w => if decide (w.commit < cyc) && w.covers a then w.bytes.getD (a - w.addr) 0#8 else v) b = b := by
    intro l
    induction l with
    | nil => intro b _; rfl
    | cons v t ih =>
      intro b hl
      rw [List.foldl_cons, hl v (by simp), Bool.and_false]
      exact ih _ fun u hu => hl u (by simp [hu])
  have : ∀ (l : List SpadWrite) (b : Byte), (∀ v ∈ l, v.covers a = false) →
      (spadInsert l w).foldl (fun v w => if decide (w.commit < cyc) && w.covers a then w.bytes.getD (a - w.addr) 0#8 else v) b
        = w.bytes.getD (a - w.addr) 0#8 := by
    intro l
    induction l with
    | nil => intro b _; simp [spadInsert, h, hc]
    | cons v t ih =>
      intro b hl
      simp only [spadInsert]
      split
      · rw [List.foldl_cons, hl v (by simp), Bool.and_false]
        exact ih _ fun u hu => hl u (by simp [hu])
      · rw [List.foldl_cons, skip _ _ hl, h]; simp [hc]
  exact this sp.log _ ho

end Sys2Proof.Machine
end

