-- ==== Sys2Proof/WellFormed.lean ====
section
/-! DEFINITION. Which commands are well formed: operands that name parts which exist, and lists of the length the spec gives
them. A command whose operands break a check stands for no event of the device. -/

namespace Sys2Proof

/-- A partition number: PART has 12 bits (R63). -/
def partOk (p : Nat) : Bool := decide (p < 4096)

/-- A register access: 4, or a multiple of 4 up to 64, bytes at a 4-byte aligned offset (R16, R344). -/
def accessOk (off size : Nat) : Bool := off % 4 == 0 && size % 4 == 0 && decide (4 ≤ size ∧ size ≤ 64)

/-- Bytes that lie within a stack of 160 GiB (R377). -/
def stackSpanOk (off len : Nat) : Bool := decide (1 ≤ len ∧ off + len ≤ 171798691840)

/-- A block of 64 bytes of a stack (R378, R412). -/
def stackBlockOk (blk : Nat) : Bool := decide (blk * 64 < 171798691840)

/-- A stack, or a physical region, by its number (R5, R32). -/
def unitOk (isStack : Bool) (unit : Nat) : Bool := if isStack then decide (unit < 56) else decide (unit < 48)

/-- The payload of a service packet: at most 512 bytes (R341, R342). -/
def packetOk (p : Packet) : Bool := decide (p.payload.length ≤ 512)

/-- A physical core: region, row and column of its grid of 16 rows of 17 (R5, R6). -/
def coreSpotOk (c : Nat × Nat × Nat) : Bool := decide (c.1 < 48 ∧ c.2.1 < 16 ∧ c.2.2 < 17)

/-- The unit that a reset domain names: core, cluster, partition, device (R599). -/
def domainOk (dom unit : Nat) : Bool :=
  match dom with
  | 0 => decide (unit < 10752)
  | 1 => decide (unit < 768)
  | 2 => partOk unit
  | _ => unit == 0

/-- The check of each command. -/
def Instr.wellFormed : Instr → Bool
  | .registerWrite _ off size _ _ => accessOk off size
  | .rcRead _ off size _ => accessOk off size
  | .wideReadLatch _ off size => accessOk off size
  | .chmsg _ p => packetOk p
  | .packetIngress _ p => packetOk p
  | .wr p => packetOk p
  | .rd p => packetOk p
  | .hqp p => packetOk p
  | .regw p => packetOk p
  | .regr p => packetOk p
  | .mcwr _ p => packetOk p
  | .ack p => packetOk p
  | .rdata p => packetOk p
  | .xlat es _ => es.all fun e => e.byp.length == 16
  | .sectionBarrier part => partOk part
  | .sectionLaunch part => partOk part
  | .burmonRead _ off len _ _ _ => stackSpanOk off len
  | .burmonWrite _ off bytes _ _ _ _ => stackSpanOk off bytes.length
  | .correctedWriteback _ blk => stackBlockOk blk
  | .scrub _ blk _ => stackBlockOk blk
  | .contextDescriptorWrite _ _ _ words => words.length == 16
  | .alignmentWord isStack unit _ => unitOk isStack unit
  | .pfcReceive _ _ quanta => quanta.length == 8
  | .oldKeyErase part => partOk part
  | .sealReceive part _ => partOk part
  | .suspectCauseTimeout part => partOk part
  | .hallmarkRound part => partOk part
  | .hallmarkDigestDone part => partOk part
  | .hallmarkVote part => partOk part
  | .tsRetry part => partOk part
  | .tsTimeout part => partOk part
  | .heartbeatLoss isStack unit => unitOk isStack unit
  | .halt part => partOk part
  | .partitionReset part => partOk part
  | .resetEscalate dom unit => domainOk dom.val unit
  | .liveSend part => partOk part
  | .peerDead part _ => partOk part
  | .admitTimeout part => partOk part
  | .recoveryRestart part => partOk part
  | .phaseFail working => decide (working ≤ 12)
  | .pollardHoldEnd part => partOk part
  | .bist _ f => f.cores.all coreSpotOk && f.regions.all (fun p => decide (p < 48)) && f.stks.all fun n => decide (n < 56)
  | .loadFw bad => bad.all coreSpotOk
  | .pourPacket _ p => packetOk p
  | .i3cPrivateWrite _ vals => decide (vals.length ≤ 63)
  | .i3cPrivateRead n => decide (n ≤ 64)
  | _ => true

end Sys2Proof
end

