-- ==== Sys2Proof/Tests/Slice0.lean ====
section
/-! SUPPORT. Tests: ill-formed commands that the check refuses, worked values of the spec, and for each statement states and
operands that meet its hypotheses, with what the command then does. Expected values come from the rules that the comments name. -/

namespace Sys2Proof.Tests

set_option Elab.async false

open Sys2Proof Sys2Proof.Machine

/-! ### Well-formedness -/

/-- A packet with n payload bytes. -/
def pkt (n : Nat) : Packet :=
  { type := 0, cls := 0, dl := false, tarnish := false, bar := false, hops := 0, px := 0, py := 0, pep := 0, dkind := 0, lx := 0, ly := 0
    group := 0, sx := 0, sy := 0, skind := false, sep := 0, part := 0, addr := 0, tag := 0, mseq := 0, arg := 0, tdata := [], pcrc0 := 0
    pcrc1 := 0, hcrc := 0, payload := List.replicate n 0 }

/-- Accesses that are not of whole aligned words, or longer than 64 bytes (R16, R344). -/
theorem test_wf_access :
    Instr.wellFormed (.wideReadLatch .window 2 8) = false ∧ Instr.wellFormed (.registerWrite .window 0 2 0 0) = false ∧
    Instr.wellFormed (.rcRead .sideband 0 68 0) = false ∧ Instr.wellFormed (.rcRead .sideband 0 64 0) = true := by decide

/-- A payload of 513 bytes, in each command that carries a packet (R341). -/
theorem test_wf_packets :
    Instr.wellFormed (.chmsg 0 (pkt 513)) = false ∧ Instr.wellFormed (.packetIngress 0 (pkt 513)) = false ∧
    Instr.wellFormed (.wr (pkt 513)) = false ∧ Instr.wellFormed (.rd (pkt 513)) = false ∧ Instr.wellFormed (.hqp (pkt 513)) = false ∧
    Instr.wellFormed (.regw (pkt 513)) = false ∧ Instr.wellFormed (.regr (pkt 513)) = false ∧
    Instr.wellFormed (.mcwr 0 (pkt 513)) = false ∧ Instr.wellFormed (.ack (pkt 513)) = false ∧
    Instr.wellFormed (.rdata (pkt 513)) = false ∧ Instr.wellFormed (.pourPacket 0 (pkt 513)) = false ∧
    Instr.wellFormed (.wr (pkt 512)) = true := by decide +kernel

/-- A translation entry without its 16 bypass columns, a descriptor of 15 words, a PFC vector of 7 quanta (R359, R379, R475). -/
theorem test_wf_lists :
    Instr.wellFormed (.xlat [⟨0, 0, 0, true, []⟩] 0) = false ∧
    Instr.wellFormed (.contextDescriptorWrite 0 0 0 (List.replicate 15 0)) = false ∧
    Instr.wellFormed (.pfcReceive 0 0 (List.replicate 7 0)) = false ∧ Instr.wellFormed (.pfcReceive 0 0 (List.replicate 8 0)) = true := by
  decide

/-- Spans and blocks beyond a stack of 160 GiB, and an empty span (R377, R378). -/
theorem test_wf_stack_spans :
    Instr.wellFormed (.burmonRead 0 171798691840 1 0 false []) = false ∧ Instr.wellFormed (.burmonRead 0 0 0 0 false []) = false ∧
    Instr.wellFormed (.burmonWrite 0 171798691839 [0, 0] false 0 true []) = false ∧
    Instr.wellFormed (.correctedWriteback 0 2684354560) = false ∧ Instr.wellFormed (.scrub 0 2684354560 0) = false ∧
    Instr.wellFormed (.scrub 0 2684354559 0) = true := by decide

/-- Units that do not exist: region 48, stack 56, core 10752, cluster 768, a second device (R5, R599). -/
theorem test_wf_units :
    Instr.wellFormed (.alignmentWord false 48 0) = false ∧ Instr.wellFormed (.alignmentWord true 56 0) = false ∧
    Instr.wellFormed (.heartbeatLoss false 48) = false ∧ Instr.wellFormed (.heartbeatLoss true 55) = true ∧
    Instr.wellFormed (.resetEscalate 0 10752) = false ∧ Instr.wellFormed (.resetEscalate 1 768) = false ∧
    Instr.wellFormed (.resetEscalate 2 4096) = false ∧ Instr.wellFormed (.resetEscalate 3 1) = false := by decide

/-- Partition number 4096 (R63). -/
theorem test_wf_partitions :
    Instr.wellFormed (.sectionBarrier 4096) = false ∧ Instr.wellFormed (.sectionLaunch 4096) = false ∧
    Instr.wellFormed (.oldKeyErase 4096) = false ∧ Instr.wellFormed (.sealReceive 4096 0) = false ∧
    Instr.wellFormed (.suspectCauseTimeout 4096) = false ∧ Instr.wellFormed (.hallmarkRound 4096) = false ∧
    Instr.wellFormed (.hallmarkDigestDone 4096) = false ∧ Instr.wellFormed (.hallmarkVote 4096) = false ∧
    Instr.wellFormed (.tsRetry 4096) = false ∧ Instr.wellFormed (.tsTimeout 4096) = false ∧
    Instr.wellFormed (.halt 4096) = false ∧ Instr.wellFormed (.partitionReset 4096) = false ∧
    Instr.wellFormed (.liveSend 4096) = false ∧ Instr.wellFormed (.peerDead 4096 0) = false ∧
    Instr.wellFormed (.admitTimeout 4096) = false ∧ Instr.wellFormed (.recoveryRestart 4096) = false ∧
    Instr.wellFormed (.pollardHoldEnd 4096) = false ∧ Instr.wellFormed (.halt 4095) = true := by decide

/-- Thirteen working phases, findings in places that do not exist, sideband transfers that are too long (R6, R657, R682, R699). -/
theorem test_wf_findings :
    Instr.wellFormed (.phaseFail 13) = false ∧ Instr.wellFormed (.bist 0 ⟨[(48, 0, 0)], [], []⟩) = false ∧
    Instr.wellFormed (.bist 0 ⟨[], [48], []⟩) = false ∧ Instr.wellFormed (.bist 0 ⟨[], [], [56]⟩) = false ∧
    Instr.wellFormed (.loadFw [(0, 16, 0)]) = false ∧ Instr.wellFormed (.loadFw [(0, 0, 17)]) = false ∧
    Instr.wellFormed (.i3cPrivateWrite 0 (List.replicate 64 0)) = false ∧ Instr.wellFormed (.i3cPrivateRead 65) = false := by decide

/-! ### Helpers -/

/-- The state that a command leads to. -/
def after (x : Instr) (s : State) : State :=
  match exec x s with
  | .next t => t
  | _ => s

/-- A core that has its launch, before any bundle. -/
def run0 : Core := { Core.reset with awaiting := false, launchAt := some 0 }

/-- The device with core 0 as given. -/
def onCore (k : Core) : State := { State.reset with cores := [(0, k)] }

/-- A core with registers g1 and g2. -/
def gprs (a b : Word) : Core := { run0 with gpr := [(1, ⟨a, false⟩), (2, ⟨b, false⟩)] }

/-- A bundle on core 0 without a predicate, on predicate 1, and with the reserved PRED and PNEG (R246). -/
def i0 : Issue := ⟨0, 0, false⟩
def i1 : Issue := ⟨0, 1, false⟩
def iRes : Issue := ⟨0, 0, true⟩

/-- A field of core 0 issues, and `p` holds of its cycle and core. -/
def issues (s : State) (used : Core → Bool) (p : Nat → Core → Bool) : Bool :=
  match fieldIssue s 0 used with
  | some (n, k) => p n k
  | none => false

/-- Register r of core 0 in cycle n after a command. -/
def gAfter (x : Instr) (k : Core) (r n : Nat) : PWord := gprAt ((after x (onCore k)).core 0) r n

/-! ### The scalar unit (ArithmeticGivesResult, LoadAndStoreAct, ControlFlowActs) -/

/-- A scalar field of the running core 0 issues in cycle 0, enabled, with a good PRED and PNEG. -/
theorem hyp_scalarGives : issues (onCore (gprs 7 3)) (fun _ => false) (fun n k => n == 0 && enabledAt k i0 n) = true ∧ predReserved i0 = false ∧
    issues (onCore (gprs 7 3)) (fun _ => false) (fun n k => !enabledAt k i1 n) = true ∧ predReserved i1 = false ∧ predReserved iRes = true ∧
    (State.reset.core 0).idle = false := by
  decide

theorem test_reg_forms : gAfter (.add i0 ⟨3, 1, 2, 0⟩) (gprs 0xFFFFFFFF 3) 3 1 = ⟨2, false⟩ ∧
    gAfter (.sub i0 ⟨3, 1, 2, 0⟩) (gprs 7 9) 3 1 = ⟨0xFFFFFFFE, false⟩ ∧ gAfter (.and i0 ⟨3, 1, 2, 0⟩) (gprs 6 3) 3 1 = ⟨2, false⟩ ∧
    gAfter (.or i0 ⟨3, 1, 2, 0⟩) (gprs 6 3) 3 1 = ⟨7, false⟩ ∧ gAfter (.xor i0 ⟨3, 1, 2, 0⟩) (gprs 6 3) 3 1 = ⟨5, false⟩ ∧
    gAfter (.mul i0 ⟨3, 1, 2, 0⟩) (gprs 0x10001 0x10001) 3 1 = ⟨0x20001, false⟩ := by decide

/-- Shifts by bits [4:0] of SB: 35 shifts by 3; signed and unsigned compares differ at the sign bit (R249). -/
theorem test_shifts_compares : gAfter (.shl i0 ⟨3, 1, 2, 0⟩) (gprs 1 35) 3 1 = ⟨8, false⟩ ∧
    gAfter (.shr i0 ⟨3, 1, 2, 0⟩) (gprs 0x80000000 35) 3 1 = ⟨0x10000000, false⟩ ∧
    gAfter (.sra i0 ⟨3, 1, 2, 0⟩) (gprs 0x80000000 35) 3 1 = ⟨0xF0000000, false⟩ ∧
    gAfter (.slt i0 ⟨3, 1, 2, 0⟩) (gprs 0x80000000 1) 3 1 = ⟨1, false⟩ ∧
    gAfter (.sltu i0 ⟨3, 1, 2, 0⟩) (gprs 0x80000000 1) 3 1 = ⟨0, false⟩ := by decide

/-- The immediate is sign-extended from 15 bits; `shri` and `srai` go by its bits [4:0] (R248, R249). -/
theorem test_imm_forms : gAfter (.addi i0 ⟨3, 1, 0x7FFF⟩) (gprs 7 0) 3 1 = ⟨6, false⟩ ∧
    gAfter (.andi i0 ⟨3, 1, 0x4000⟩) (gprs 0xFFFFFFFF 0) 3 1 = ⟨0xFFFFC000, false⟩ ∧
    gAfter (.ori i0 ⟨3, 1, 8⟩) (gprs 7 0) 3 1 = ⟨15, false⟩ ∧ gAfter (.xori i0 ⟨3, 1, 1⟩) (gprs 7 0) 3 1 = ⟨6, false⟩ ∧
    gAfter (.shli i0 ⟨3, 1, 31⟩) (gprs 1 0) 3 1 = ⟨0x80000000, false⟩ ∧
    gAfter (.shri i0 ⟨3, 1, 33⟩) (gprs 0x80000000 0) 3 1 = ⟨0x40000000, false⟩ ∧
    gAfter (.srai i0 ⟨3, 1, 33⟩) (gprs 0x80000000 0) 3 1 = ⟨0xC0000000, false⟩ := by decide

/-- `movl`, `movh`, the four conditions of `pcmp`, a disabled bundle, a write of g0, a bad field (R249 to R251). -/
theorem test_moves : gAfter (.movl i0 ⟨3, 0xFFFF, 0⟩) (gprs 0 0) 3 1 = ⟨0xFFFF, false⟩ ∧
    gAfter (.movh i0 ⟨1, 0x8000, 0⟩) (gprs 7 0) 1 1 = ⟨0x80000007, false⟩ ∧
    gAfter (.pcmp i0 ⟨1, 1, 2, 0⟩) (gprs 7 7) 17 1 = ⟨1, false⟩ ∧ gAfter (.pcmp i0 ⟨6, 1, 2, 0⟩) (gprs 7 7) 18 1 = ⟨0, false⟩ ∧
    gAfter (.pcmp i0 ⟨11, 1, 2, 0⟩) (gprs 0xFFFFFFFF 0) 19 1 = ⟨1, false⟩ ∧ gAfter (.pcmp i0 ⟨13, 1, 2, 0⟩) (gprs 7 7) 17 1 = ⟨1, false⟩ ∧
    gAfter (.movl i1 ⟨3, 0xFFFF, 0⟩) (gprs 0 0) 3 1 = ⟨0, false⟩ ∧ gAfter (.movl i0 ⟨0, 5, 0⟩) (gprs 0 0) 0 1 = ⟨0, false⟩ ∧
    bit (cReg ((after (.snop i0 1) (onCore run0)).core 0) rCtlStatus) 0 = true ∧
    bit (cReg ((after (.snop iRes 0) (onCore run0)).core 0) rCtlStatus) 0 = true ∧
    cReg ((after (.snop i0 0) (onCore run0)).core 0) rCtlStatus = cReg run0 rCtlStatus := by decide

/-- A core whose scratchpad holds the word 0x44332211 at 16, with g1 and g2, at address `pc`. -/
def ldCore (base : Word) (pc : Nat) : Core :=
  { gprs base 0xA1B2C3D4 with pc := pc, spad := { Spad.reset with base := [(16, 0x11), (17, 0x22), (18, 0x33), (19, 0x44)] } }

/-- Good addresses at both ends of the scratchpad; an unaligned one, one beyond it, and a bundle at offset 0x70 (R252). -/
theorem hyp_loadStore :
    issues (onCore (ldCore 16 0)) (fun _ => false) (fun n k => effAddr k ⟨3, 1, 0⟩ n == 16 && enabledAt k i0 n && k.spad.log.isEmpty) = true ∧
    issues (onCore (ldCore 0x300000 0)) (fun _ => false) (fun n k => effAddr k ⟨3, 1, 0x7FFC⟩ n == 0x2FFFFC) = true ∧
    issues (onCore (ldCore 16 0)) (fun _ => false) (fun n k => effAddr k ⟨3, 1, 1⟩ n % 4 != 0) = true ∧
    issues (onCore (ldCore 0x300000 0)) (fun _ => false) (fun n k => decide (0x300000 ≤ effAddr k ⟨3, 1, 0⟩ n)) = true ∧
    issues (onCore (ldCore 16 0x70)) (fun _ => false) (fun _ k => k.pc % 128 == 0x70) = true := by decide

theorem test_ld : gAfter (.ld i0 ⟨3, 1, 0⟩) (ldCore 16 0) 3 (1 + latency run0) = ⟨0x44332211, false⟩ ∧
    gAfter (.ld i0 ⟨3, 1, 0⟩) (ldCore 16 0) 3 (latency run0) = ⟨0, false⟩ ∧
    bit (cReg ((after (.ld i0 ⟨3, 1, 1⟩) (onCore (ldCore 16 0))).core 0) rCtlStatus) 1 = true ∧
    bit (cReg ((after (.ld i0 ⟨3, 1, 0⟩) (onCore (ldCore 0x300000 0))).core 0) rCtlStatus) 1 = true ∧
    bit (cReg ((after (.ld i0 ⟨3, 1, 0⟩) (onCore (ldCore 16 0x70))).core 0) rCtlStatus) 1 = true := by decide

theorem test_st : let k := (after (.st i0 ⟨2, 1, 0x7FFC⟩) (onCore (ldCore 0x300000 0))).core 0
    spadByte k.spad (latency run0 + 1) 0x2FFFFC = 0xD4 ∧ spadByte k.spad (latency run0 + 1) 0x2FFFFF = 0xA1 ∧
    spadByte k.spad (latency run0) 0x2FFFFC = 0 ∧ spadByte k.spad (latency run0 + 1) 16 = 0x11 := by decide

/-- Targets: forward, backward past zero modulo 2^22 (which stops the core), `jr` to an unaligned address; not taken (R247, R253, R257). -/
theorem test_jumps : let k := (after (.jmp i0 ⟨0, 0, 4⟩) (onCore run0)).core 0
    k.pc = 64 ∧ k.nextIssue = latency run0 + 2 ∧ k.idle = false ∧
    ((after (.jmp i0 ⟨0, 0, 0x7FFF⟩) (onCore run0)).core 0).pc = 0x3FFFF0 ∧ ((after (.jmp i0 ⟨0, 0, 0x7FFF⟩) (onCore run0)).core 0).idle = true ∧
    gAfter (.call i0 ⟨0, 0, 4⟩) { run0 with pc := 0x20 } 15 1 = ⟨0x30, false⟩ ∧
    ((after (.jr i0 ⟨0, 1, 0, 0⟩) (onCore (gprs 8 0))).core 0).idle = true ∧
    ((after (.jr i0 ⟨0, 1, 0, 0⟩) (onCore (gprs 0x2FFFF0 0))).core 0).idle = false ∧
    ((after (.jmp i1 ⟨0, 0, 4⟩) (onCore run0)).core 0).pc = 16 ∧ ((after (.jmp i1 ⟨0, 0, 4⟩) (onCore run0)).core 0).nextIssue = latency run0 + 2 := by
  decide

/-- A `loop` with a count of 2, one with a count of 0, ones with 0 and 16,384 bundles, one that reaches past the body it stands in (R255). -/
theorem test_loop : ((after (.loop i0 ⟨0, 1, 2⟩) (onCore (gprs 2 0))).core 0).loops = [⟨16, 32, 2, false, false⟩] ∧
    ((after (.loop i0 ⟨0, 1, 2⟩) (onCore (gprs 0 0))).core 0).pc = 48 ∧ ((after (.loop i0 ⟨0, 1, 2⟩) (onCore (gprs 0 0))).core 0).loops = [] ∧
    bit (cReg ((after (.loop i0 ⟨0, 1, 0⟩) (onCore (gprs 2 0))).core 0) rCtlStatus) 2 = true ∧
    bit (cReg ((after (.loop i0 ⟨0, 1, 0x4000⟩) (onCore (gprs 2 0))).core 0) rCtlStatus) 2 = true ∧
    bit (cReg ((after (.loop i0 ⟨0, 1, 0x3FFF⟩) (onCore (gprs 2 0))).core 0) rCtlStatus) 2 = false ∧
    bit (cReg ((after (.loop i0 ⟨0, 1, 2⟩) (onCore { gprs 2 0 with loops := [⟨0, 16, 1, false, false⟩] })).core 0) rCtlStatus) 2 = true := by
  decide

/-- A `wait` of 1 and one of 16,384, which is a bad operation; `done` stops issue (R249, R250, R256). -/
theorem test_wait_done : ((after (.wait i0 ⟨0, 0, 1⟩) (onCore run0)).core 0).nextIssue = 2 ∧ (seqNext run0.pc run0.loops).2.2 = false ∧
    bit (cReg ((after (.wait i0 ⟨0, 0, 0x4000⟩) (onCore run0)).core 0) rCtlStatus) 0 = true ∧
    ((after (.done i1 0) (onCore run0)).core 0).idle = true ∧ bit (cReg ((after (.done i0 0) (onCore run0)).core 0) rCtlStatus) 4 = true := by
  decide

/-! ### Registers (AccessesAreWholeWords, RegisterWriteFollowsCodes, RegisterReadsAnswer, ProgramReachesRegisters, ResultsComeWhenDue) -/

/-- The word of the latest reply. -/
def replyOf (x : Instr) (s : State) : Option Reply := (after x s).reply

/-- A running core with one register stored. -/
def regCore (off : Nat) (w : Word) : Core := { run0 with regs := [(off, w)] }

/-- An offset of a register that starts nothing. -/
def plainAt (tgt : RegTarget) (off : Nat) : Bool :=
  off % 4 == 0 && inSpace tgt off && (regFind (regTable tgt) off).isSome

/-- Plain registers of every space, at the ends of the ranges; no shadow stands for them (R17). -/
theorem hyp_plainRegisters :
    plainAt (.core 0) 0x400 = true ∧ plainOff (.core 0) 0x400 ∧ plainAt (.core 10751) 0x8FC = true ∧ plainOff (.core 10751) 0x8FC ∧
    plainAt (.core 0) 0x1000 = true ∧ plainOff (.core 0) 0x1000 ∧ plainAt (.core 0) 0x121C = true ∧ plainOff (.core 0) 0x121C ∧
    plainAt (.router 0) 4 = true ∧ plainOff (.router 0) 4 ∧ plainAt (.router 0) 0x110 = true ∧ plainOff (.router 0) 0x110 ∧
    plainAt (.stack 55) 0x100 = true ∧ plainOff (.stack 55) 0x100 ∧ plainAt .window 0x30000 = true ∧ plainOff .window 0x30000 ∧
    plainAt .window 0x30010 = true ∧ plainOff .window 0x30010 ∧ plainAt .sideband 0xC = true ∧ plainOff .sideband 0xC ∧
    plainAt .sideband 0x5C = true ∧ plainOff .sideband 0x5C := by
  unfold plainOff; decide +kernel

theorem hyp_noShadow : noShadow State.reset (.core 0) 0x400 ∧ noShadow State.reset (.stack 0) 0x100 ∧ noShadow State.reset .window 0x30000 ∧
    noShadow State.reset (.router 0) 4 ∧ noShadow State.reset .sideband 0xC := by
  refine ⟨rfl, rfl, rfl, trivial, trivial⟩

/-- An access of 8 bytes, of 2 bytes, and at offset 2: refused, in each space (R16). -/
theorem test_refused : replyOf (.registerWrite .window 0x30010 8 1 0) State.reset = some ⟨1, []⟩ ∧
    replyOf (.rcRead (.core 0) 0x402 4 0) State.reset = some ⟨1, []⟩ ∧ replyOf (.wideReadLatch (.stack 0) 0 2) State.reset = some ⟨1, []⟩ ∧
    (after (.registerWrite (.core 0) 0x402 4 1 0) State.reset).cores = [] := by decide

/-- RW bits take the value written; a W1C bit written as 1 clears, but not where the hardware sets it in that cycle (R17, R19). -/
theorem test_register_write :
    cReg ((after (.registerWrite (.core 0) 0x400 4 0x12345678 0) (onCore run0)).core 0) 0x400 = 0x12345678 ∧
    cReg ((after (.registerWrite (.core 0) 0x408 4 0x7 0) (onCore (regCore 0x408 0x0F))).core 0) 0x408 = 0x08 ∧
    cReg ((after (.registerWrite (.core 0) 0x408 4 0x7 1) (onCore (regCore 0x408 0x0F))).core 0) 0x408 = 0x09 ∧
    cReg ((after (.registerWrite (.core 0) 0x408 4 0xFFFFFF00 0) (onCore (regCore 0x408 0x0F))).core 0) 0x408 = 0x0F := by decide +kernel

/-- Router 0 with one register stored. -/
def rtReg (off : Nat) (w : Word) : State := { State.reset with routers := [(0, { Router.reset with regs := [(off, w)] })] }

/-- A read of an RC register clears it, but for an event of that cycle (R20). -/
theorem test_rc_read : nReg ((after (.rcRead (.router 0) 0x110 4 0) (rtReg 0x110 9)).router 0) 0x110 = 0 ∧
    nReg ((after (.rcRead (.router 0) 0x110 4 2) (rtReg 0x110 9)).router 0) 0x110 = 2 := by decide +kernel

/-- Device time 0x1_0000_0002: the read of the low word latches 1, which the read of the upper word drops (R21, R430). -/
theorem test_wide_read :
    mget? { State.reset with now := 0x100000002 }.winShadow 0x10018 = none ∧
    mget? (after (.wideReadLatch .window 0x10018 4) { State.reset with now := 0x100000002 }).winShadow 0x1001C = some 1 ∧
    mkeysRising [(0x1001C, (1 : Word))] = true ∧
    (after (.wideReadLatch .window 0x1001C 4) { State.reset with now := 0x500000000, winShadow := [(0x1001C, 1)] }).winShadow = [] := by
  decide +kernel

/-- Offsets without a register: they read as zero and a write of them has no effect (R755). -/
theorem test_no_register : inSpace (.core 0) 0x40C = true ∧ regFind (regTable (.core 0)) 0x40C = none ∧ regFind (regTable (.core 0)) 0xFFFC = none ∧
    inSpace .window 0x30FFC = true ∧ regFind (regTable .window) 0x30FFC = none ∧ regFind (regTable .sideband) 0xFC = none ∧
    replyOf (.wideReadLatch (.core 0) 0x40C 4) State.reset = some ⟨0, [0]⟩ ∧
    replyOf (.registerWrite .sideband 0xFC 4 7 0) State.reset = some ⟨0, []⟩ ∧
    (after (.registerWrite .sideband 0xFC 4 7 0) State.reset).mod = State.reset.mod := by decide +kernel

/-- `rdr` of `arith.seed` and `wrr` of it; an offset that is not aligned, and offset 0x4000 (R249, R252). -/
theorem test_rdr_wrr : (gAfter (.rdr i0 ⟨3, 1, 0⟩) { gprs 0x400 0 with regs := [(0x400, 77)] } 3 2).bad = false ∧
    cReg ((after (.wrr i0 ⟨2, 1, 0⟩) (onCore (gprs 0x400 55))).core 0) 0x400 = 55 ∧
    bit (cReg ((after (.rdr i0 ⟨3, 1, 2⟩) (onCore (gprs 0x400 0))).core 0) rCtlStatus) 1 = true ∧
    bit (cReg ((after (.wrr i0 ⟨2, 1, 0⟩) (onCore (gprs 0x4000 0))).core 0) rCtlStatus) 1 = true ∧
    bit (cReg ((after (.wrr i0 ⟨2, 1, 0⟩) (onCore (gprs 0x3FFC 0))).core 0) rCtlStatus) 1 = false ∧
    issues (onCore (gprs 0x3FFC 0)) (fun _ => false) (fun n k => effAddr k ⟨2, 1, 0⟩ n == 0x3FFC && enabledAt k i0 n && !enabledAt k i1 n) = true := by
  decide +kernel

/-- A result due in cycle 9 comes with the command of its kind, and not with one of another kind (R251, R186). -/
theorem test_results : (after (.ldResult 0) (onCore { run0 with pend := [⟨9, 3, ⟨5, false⟩⟩] })).now = 9 ∧
    ((after (.ldResult 0) (onCore { run0 with pend := [⟨9, 3, ⟨5, false⟩⟩] })).core 0).pend = [] ∧
    mget? ((after (.ldResult 0) (onCore { run0 with pend := [⟨9, 3, ⟨5, false⟩⟩] })).core 0).gpr 3 = some ⟨5, false⟩ ∧
    after (.vectorResult 0) (onCore { run0 with pend := [⟨9, 3, ⟨5, false⟩⟩] }) = onCore { run0 with pend := [⟨9, 3, ⟨5, false⟩⟩] } ∧
    (after (.vectorResult 0) (onCore { run0 with vops := [⟨0, 4, [], [], false, some (1, 3), none, [], 0⟩] })).now = 4 ∧
    mget? ((after (.vectorResult 0) (onCore { run0 with vops := [⟨0, 4, [], [], false, some (1, 3), none, [], 0⟩] })).core 0).masks 1 = some 3 := by
  decide +kernel

/-! ### The matrix unit (MatrixFieldsAct, MatrixResultsStand) -/

/-- Descriptor 1 is an FP32 operand at 0 and descriptor 2 one at 0x10000, with K = 1; mask register 1 selects entry (0, 0); the operands'
first elements are 2.0 and 3.0. -/
def matCore : Core :=
  { run0 with
    regs := [(0x810, 0), (0x814, 0x4000), (0x81C, 1), (0x820, 0x10000), (0x824, 0x4000), (0x82C, 1), (0x940, 1), (0x944, 0), (0x948, 0)
             , (0x94C, 0), (0x950, 0), (0x954, 0), (0x958, 0), (0x95C, 0), (0x960, 1)]
    spad := { Spad.reset with base := [(3, 0x40), (0x10002, 0x40), (0x10003, 0x40)] } }

/-- An `mmac` of array 0 from those descriptors, an `mzero` of a gang, and a spill to descriptor 1. -/
def mmacF : MatField := ⟨0, 1, 2, 1, 0, 0, 0, 0⟩
def mzeroF : MatField := ⟨4, 0, 0, 1, 0, 0, 0, 0⟩
def mspillF : MatField := ⟨0, 1, 0, 0, 0, 0, 0, 0⟩

/-- Descriptor 3 holds 64 rows of 8 F8E4 elements: what an input-stationary load of array 0 takes. -/
def loadCore : Core := { run0 with regs := [(0x830, 0xC00000), (0x834, 0x1000), (0x83C, 8)] }
def mloadF : MatField := ⟨0, 3, 0, 0, 1, 1, 0, 0⟩

/-- Fields that are accepted, one of each operation, and one discarded for each cause of R756. -/
theorem hyp_matrixActs :
    issues (onCore matCore) Core.usedM (fun n k => matJudge { k with usedM := true } .mmac mmacF n == none && enabledAt k i0 n) = true ∧
    issues (onCore matCore) Core.usedM (fun n k => matJudge { k with usedM := true } .mzero mzeroF n == none) = true ∧
    issues (onCore matCore) Core.usedM (fun n k => matJudge { k with usedM := true } .mspill mspillF n == none) = true ∧
    issues (onCore matCore) Core.usedM (fun n k => matJudge { k with usedM := true } .mfill mspillF n == none) = true ∧
    issues (onCore loadCore) Core.usedM (fun n k => matJudge { k with usedM := true } .mload mloadF n == none) = true ∧
    issues (onCore matCore) Core.usedM (fun n k => matJudge { k with usedM := true } .mmac { mmacF with tgt := 7 } n == some mBadOp) = true ∧
    issues (onCore matCore) Core.usedM (fun n k => matJudge { k with usedM := true } .mmac { mmacF with da := 4 } n == some mBadDesc) = true ∧
    issues (after (.mmac i0 mmacF) (onCore matCore)) Core.usedM
      (fun n k => matJudge { k with usedM := true } .mspill mspillF n == some mBusy) = true := by decide +kernel

/-- `mzero` has its result in cycle 2, `mspill` in 33, `mfill` in 33 + L (R140); an `mload` takes its plane at once (R104). -/
theorem test_matrix_results :
    ((after (.mzero i0 mzeroF) (onCore matCore)).core 0).mops.map (fun o => o.result) = [2] ∧
    ((after (.mspill i0 mspillF) (onCore matCore)).core 0).mops.map (fun o => o.result) = [33] ∧
    ((after (.mfill i0 mspillF) (onCore matCore)).core 0).mops.map (fun o => o.result) = [33 + latency run0] ∧
    ((mget? ((after (.mload i0 mloadF) (onCore loadCore)).core 0).planes 1).map fun p => (p.loaded, p.stat, p.k)) = some (true, 1, 8) ∧
    bit (cReg ((after (.mnop i0 ⟨0, 0, 0, 0, 0, 0, 0, 1⟩) (onCore run0)).core 0) rMtxStatus) 2 = true ∧
    bit (cReg ((after (.mnop i0 ⟨0, 0, 0, 0, 0, 0, 0, 0⟩) (onCore run0)).core 0) rMtxStatus) 2 = false := by decide +kernel

/-- One `mmac` is on its way, enabled and not applied: entry (0, 0) becomes 2.0 * 3.0 = 6.0 and entry (0, 1) stays (R78). -/
theorem test_mmac : let s := after (.mmac i0 mmacF) (onCore matCore)
    ((s.core 0).mops.map fun o => (o.kind, o.applied, o.enabled, decide (o.tgt < 7))) = [(.mmac, false, true, true)] ∧
    [(0, 0), (0, 1)].map (fun p => accElem ((after (.mmacResult 0) s).core 0) p.1 p.2) = [⟨0x40C00000, false⟩, ⟨0, false⟩] := by
  decide +kernel

theorem hyp_tilesWhole : tilesWhole run0 := fun _ => by
  show (List.replicate 256 (⟨0#32, false⟩ : PWord)).length = 256
  exact List.length_replicate

/-- An `mfill` of array 0 is on its way, enabled and not applied, with its data read from address 0 (R126, R140). -/
theorem test_mfill : ((after (.mfill i0 mspillF) (onCore matCore)).core 0).mops.map (fun o => (o.kind, o.applied, o.enabled, o.da.base)) =
    [(.mfill, false, true, 0)] := by decide +kernel

/-- `mzero` of entry (0, 0) alone clears it in cycle 2 and leaves its neighbour (R140). -/
theorem test_mzero :
    let z := (after (.mzero i0 { mzeroF with tgt := 0 }) (onCore { matCore with acc := [(0, List.replicate 256 ⟨7, false⟩)] })).core 0
    (z.mops.map fun o => (o.kind, o.applied, o.enabled, o.result)) = [(.mzero, false, true, 2)] ∧
    [(0, 0), (0, 1)].map (fun p => (accElem (settleCore z 2) p.1 p.2).val) = [0, 7] := by decide +kernel

/-! ### The vector unit (VectorElementsAct to RowsAndTileTransfersAct) -/

/-- Vector constants 0 and 1 in a running core. -/
def consts (a b : Word) : Core := { run0 with regs := [(0x1200, a), (0x1204, b)] }

/-- A field with constants 0 and 1 as its sources and tile 3 as its destination. -/
def vf (mod : BitVec 6) : VecField := ⟨3, 40, 41, 0, mod⟩
def v1 (mod : BitVec 6) : VecField := ⟨3, 40, 0, 0, mod⟩

/-- Element 0 of what the one operation on its way writes, and its cycle. -/
def vecOut (x : Instr) (k : Core) : Option (Nat × Option PWord) :=
  ((after x (onCore k)).core 0).vops.head?.map fun v => (v.due, ((v.tiles.head?.map fun p => p.2).getD []).getD 0 none)

/-- The status of the vector unit after a field. -/
def vecStat (x : Instr) (k : Core) : Word := cReg ((after x (onCore k)).core 0) rVecStatus

/-- A good field is accepted, a bad one is not, a unit that is taken until cycle 4 refuses, a disabled bundle puts nothing on its way. -/
theorem hyp_vectorActs : issues (onCore (consts 1 2)) Core.usedV (fun n k => vecFieldOk (useBinary 1#6) (vf 0) &&
      decide (mgetD k.unitFree 0 0 ≤ n) && enabledAt k i0 n && !enabledAt k i1 n) = true ∧
    vecFieldOk (useBinary 1#6) { vf 0 with sa := 48 } = false ∧ vecFieldOk (useUnary 0#6) (vf 0) = false ∧
    issues (onCore { consts 1 2 with unitFree := [(0, 4)] }) Core.usedV (fun n k => decide (n < mgetD k.unitFree 0 0)) = true ∧
    vecStat (.vadd i0 { vf 0 with sa := 48 }) run0 = 0x00010002 ∧ vecStat (.vnop i0 (vf 0)) run0 = 0x00010002 ∧
    vecStat (.vadd i0 (vf 0)) { consts 1 2 with unitFree := [(0, 4)] } = 0x00010001 ∧
    vecOut (.vadd i1 (vf 0)) (consts 1 2) = none := by decide +kernel

/-- 1.5 + 2.0, 1.5 - 2.0, 1.5 * 2.0 and the rest, from FP32 and INT32 constants; results in cycle 4 (R153 to R156). -/
theorem test_elements :
    vecOut (.vadd i0 (vf 0)) (consts 0x3FC00000 0x40000000) = some (4, some ⟨0x40600000, false⟩) ∧
    vecOut (.vsub i0 (vf 0)) (consts 0x3FC00000 0x40000000) = some (4, some ⟨0xBF000000, false⟩) ∧
    vecOut (.vmul i0 (vf 0)) (consts 0x3FC00000 0x40000000) = some (4, some ⟨0x40400000, false⟩) ∧
    vecOut (.vadd i0 (vf 1)) (consts 0x7FFFFFFF 1) = some (4, some ⟨0x7FFFFFFF, false⟩) ∧
    vecOut (.vneg i0 (v1 1)) (consts 0x80000000 0) = some (4, some ⟨0x7FFFFFFF, false⟩) ∧
    vecOut (.vabs i0 (v1 0)) (consts 0xBF000000 0) = some (4, some ⟨0x3F000000, false⟩) ∧
    vecOut (.vmin i0 (vf 1)) (consts 0xFFFFFFFF 1) = some (4, some ⟨0xFFFFFFFF, false⟩) ∧
    vecOut (.vmax i0 (vf 1)) (consts 0xFFFFFFFF 1) = some (4, some ⟨1, false⟩) ∧
    vecOut (.vmov i0 (v1 0)) (consts 5 0) = some (4, some ⟨5, false⟩) := by decide +kernel

theorem test_bitwise :
    vecOut (.vand i0 (vf 0)) (consts 6 3) = some (4, some ⟨2, false⟩) ∧ vecOut (.vor i0 (vf 0)) (consts 6 3) = some (4, some ⟨7, false⟩) ∧
    vecOut (.vxor i0 (vf 0)) (consts 6 3) = some (4, some ⟨5, false⟩) ∧ vecOut (.vshl i0 (vf 0)) (consts 1 35) = some (4, some ⟨8, false⟩) ∧
    vecOut (.vshr i0 (vf 0)) (consts 0x80000000 35) = some (4, some ⟨0x10000000, false⟩) ∧
    vecOut (.vshr i0 (vf 2)) (consts 0x80000000 35) = some (4, some ⟨0xF0000000, false⟩) := by decide +kernel

/-- Constants 0 and 1, with a mask register 1 that selects element 0, and fields under it. -/
def ones (a b : Word) : Core := { consts a b with masks := [(1, 1)] }
def vs : VecField := ⟨3, 40, 0, 1, 0⟩
def vs2 : VecField := ⟨3, 40, 41, 1, 0⟩

/-- The special class: 6.0 / 2.0, 1 / 2.0, the roots of 4.0, and functions at 0 whose value is exact (R154, R157, R158). -/
theorem test_special :
    vecOut (.vdiv i0 vs2) (ones 0x40C00000 0x40000000) = some (12, some ⟨0x40400000, false⟩) ∧
    vecOut (.vrcp i0 vs) (ones 0x40000000 0) = some (12, some ⟨0x3F000000, false⟩) ∧
    vecOut (.vsqrt i0 vs) (ones 0x40800000 0) = some (12, some ⟨0x40000000, false⟩) ∧
    vecOut (.vrsqrt i0 vs) (ones 0x40800000 0) = some (12, some ⟨0x3F000000, false⟩) := by decide +kernel

theorem test_functions :
    vecOut (.vexp i0 vs) (ones 0 0) = some (14, some ⟨0x3F800000, false⟩) ∧
    vecOut (.vexp2 i0 vs) (ones 0x40000000 0) = some (14, some ⟨0x40800000, false⟩) ∧
    vecOut (.vlog i0 vs) (ones 0x3F800000 0) = some (14, some ⟨0, false⟩) ∧
    vecOut (.vlog2 i0 vs) (ones 0x40800000 0) = some (14, some ⟨0x40000000, false⟩) ∧
    vecOut (.vtanh i0 vs) (ones 0 0) = some (14, some ⟨0, false⟩) ∧
    vecOut (.vsigm i0 vs) (ones 0 0) = some (14, some ⟨0x3F000000, false⟩) ∧
    vecOut (.vgelu i0 vs) (ones 0 0) = some (14, some ⟨0, false⟩) ∧ vecOut (.vsilu i0 vs) (ones 0 0) = some (14, some ⟨0, false⟩) ∧
    vecOut (.vsin i0 vs) (ones 0 0) = some (14, some ⟨0, false⟩) ∧
    vecOut (.vcos i0 vs) (ones 0 0) = some (14, some ⟨0x3F800000, false⟩) := by decide +kernel

/-- 1.5 * 2.0 + 0 with the blank tile 3; a select under mask 1 of zeros takes SB; 1.0 to FP16 is 0x3C00; FMT 12 is reserved (R160). -/
theorem test_fused : vecOut (.vfma i0 (vf 0)) (consts 0x3FC00000 0x40000000) = some (4, some ⟨0x40400000, false⟩) ∧
    vecOut (.vsel i0 { vf 0 with msk := 1 }) (consts 5 6) = some (4, some ⟨6, false⟩) ∧
    vecOut (.vsel i0 (vf 0)) (consts 5 6) = some (4, some ⟨5, false⟩) ∧
    vecStat (.vcvt i0 (v1 12)) (consts 0 0) = 0x00010004 ∧
    cReg ((after (.vcvt i0 (v1 0x11)) (onCore (consts 0x3F800000 0))).core 0) rSrctr = 1 := by decide +kernel

/-- Tile 2 with elements 0, 1, 2, … as words. -/
def rampCore : Core := { run0 with tiles := [(2, (List.range 256).map fun n => ⟨BitVec.ofNat 32 n, false⟩)], masks := [(1, 0b1010)] }

/-- Elements 0 and 1 of the one tile on its way. -/
def two (x : Instr) (k : Core) : List (Option PWord) :=
  ((((after x (onCore k)).core 0).vops.head?.bind fun v => v.tiles.head?.map fun p => p.2).getD []).take 2

/-- `vtrn` puts element 16 at place 1; `vcmpr` packs elements 1 and 3 and counts 2; `vexpd` puts elements 0 and 1 at places 1 and 3;
`vcmp` LT of 1.0 and 2.0 gives ones where the mask is 1 (R161, R162, R168, R169). -/
theorem test_packing : two (.vtrn i0 ⟨3, 2, 0, 0, 0⟩) rampCore = [some ⟨0, false⟩, some ⟨16, false⟩] ∧
    two (.vcmpr i0 ⟨3, 2, 0, 1, 0⟩) rampCore = [some ⟨1, false⟩, some ⟨3, false⟩] ∧
    ((after (.vcmpr i0 ⟨3, 2, 0, 1, 0⟩) (onCore rampCore)).core 0).vops.map (fun v => v.count) = [some 2] ∧
    two (.vexpd i0 ⟨3, 2, 40, 1, 0⟩) { rampCore with regs := [(0x1200, 99)] } = [some ⟨99, false⟩, some ⟨0, false⟩] ∧
    ((after (.vcmp i0 ⟨2, 40, 41, 0, 0⟩) (onCore (consts 1 1))).core 0).vops.map (fun v => v.mask.map fun m => m.1) = [some 2] := by decide +kernel

/-- The integer sum of a row of four ones is 4 in every element of the row; the maximum of the ramp's column 0 is 240; a run of two that
leaves the tiles is refused (R163, R164). -/
theorem test_reductions :
    two (.vrsum i0 ⟨3, 2, 0, 0, 1⟩) rampCore = [some ⟨120, false⟩, some ⟨120, false⟩] ∧
    two (.vrmax i0 ⟨3, 2, 0, 0, 1⟩) rampCore = [some ⟨15, false⟩, some ⟨15, false⟩] ∧
    two (.vrmin i0 ⟨3, 2, 0, 0, 1⟩) rampCore = [some ⟨0, false⟩, some ⟨0, false⟩] ∧
    two (.vcsum i0 ⟨3, 2, 0, 0, 1⟩) rampCore = [some ⟨1920, false⟩, some ⟨1936, false⟩] ∧
    two (.vcmax i0 ⟨3, 2, 0, 0, 1⟩) rampCore = [some ⟨240, false⟩, some ⟨241, false⟩] ∧
    two (.vcmin i0 ⟨3, 2, 0, 0, 1⟩) rampCore = [some ⟨0, false⟩, some ⟨1, false⟩] ∧
    ((after (.vrsum i0 ⟨3, 2, 0, 0, 1⟩) (onCore rampCore)).core 0).vops.map (fun v => v.due) = [6] := by decide +kernel

/-- `vsmax` of a row of 16 equal elements gives 1/16 for an active element; `vrnorm` and `vlnorm` need a constant in SB (R172 to R175). -/
theorem test_rows : ((after (.vsmax i0 ⟨3, 5, 0, 0, 0⟩) (onCore run0)).core 0).vops.map (fun v => v.due) = [22] ∧
    ((after (.vrnorm i0 ⟨3, 5, 41, 1, 0⟩) (onCore (ones 0 0x3F800000))).core 0).vops.map (fun v => v.due) = [23] ∧
    two (.vrnorm i0 ⟨3, 5, 41, 1, 0⟩) (ones 0 0x3F800000) = [some ⟨0, false⟩, some ⟨0, false⟩] ∧
    two (.vlnorm i0 ⟨3, 5, 41, 1, 0⟩) (ones 0 0x3F800000) = [some ⟨0, false⟩, some ⟨0, false⟩] ∧
    two (.vsmax i0 ⟨3, 5, 0, 2, 0⟩) { run0 with masks := [(2, 0xFFFF)] } = [some ⟨0x3D800000, false⟩, some ⟨0x3D800000, false⟩] ∧
    vecStat (.vrnorm i0 ⟨3, 5, 4, 0, 0⟩) run0 = 0x00010002 ∧ vecStat (.vsmax i0 ⟨31, 5, 0, 0, 0x20⟩) run0 = 0x00010002 := by decide +kernel

/-- The worked example of R172: tile 5 under mask register 2. -/
def smaxCore : Core :=
  { run0 with
    masks := [(2, 0x0000FFFFFFFF0000FFFF000F)]
    tiles := [(5, (List.range 256).map fun n =>
      let c := n % 16
      let w : Word := match n / 16 with
        | 0 => if c < 4 then 0x40400000 else if c = 5 then 0x7FC00000 else 0
        | 1 => if c = 2 ∨ c = 9 ∨ c = 14 then 0x7F800000 else 0x3F800000
        | 3 => if c = 7 then 0x7FC00000 else 0x3F000000
        | 4 => if c = 0 then 0x7F800000 else if c = 9 then 0x7FC00000 else 0
        | _ => 0
      ⟨w, false⟩)] }

/-- After it: 0.25 in row 0, rne(1/3) where row 1 holds infinities, canonical NaN in rows 3 and 4, and the row status words (R172). -/
theorem test_vsmax_example : let k := (after (.vectorResult 0) (after (.vsmax i0 ⟨6, 5, 0, 2, 0⟩) (onCore smaxCore))).core 0
    [0, 3, 4, 16, 18, 25, 30, 32, 48, 64, 80].map (fun e => (tileElem k 6 e).val) =
      [0x3E800000, 0x3E800000, 0, 0, 0x3EAAAAAB, 0x3EAAAAAB, 0x3EAAAAAB, 0, 0x7FC00000, 0x7FC00000, 0] ∧
    coreBits k 0 22 0x1330 = 0x44411420 ∧ coreBits k 0 22 0x1334 = 0x44444444 := by decide +kernel

/-- Vector descriptor 1: FP32 rows of 64 bytes at 0x100. -/
def vdCore (fmt : Word) : Core := { run0 with regs := [(0x1010, 0x100 ||| (fmt <<< 22)), (0x1014, 0x40)], spad := { Spad.reset with base := [(0x103, 0x40)] } }

theorem hyp_tileTransfers : issues (onCore (vdCore 0)) Core.usedV (fun n k => (judgeTile ⟨3, 0, 0, 0, 1⟩ useVld k).isNone &&
      (judgeTile ⟨0, 3, 0, 0, 1⟩ useVst k).isNone && decide (mgetD k.unitFree 1 0 ≤ n) && decide (mgetD k.unitFree 2 0 ≤ n) &&
      decide (vecDesc ((onCore (vdCore 0)).core 0) 1 = vecDesc k 1)) = true ∧
    issues (onCore (vdCore 12)) Core.usedV (fun _ k => (judgeTile ⟨3, 0, 0, 0, 1⟩ useVld k).isSome) = true ∧
    issues (onCore (vdCore 3)) Core.usedV (fun _ k => (judgeQuant ⟨0, 3, 0, 0, 1⟩ k).isSome) = true := by decide +kernel

theorem test_vld_vst : let k := (after (.vst i0 ⟨0, 2, 0, 0, 1⟩) (onCore { vdCore 0 with tiles := rampCore.tiles })).core 0
    ((after (.vld i0 ⟨3, 0, 0, 0, 1⟩) (onCore (vdCore 0))).core 0).vloads.map (fun v => (v.tile, v.base, v.due)) =
      [(3, 0x100, 4 + latency run0 + 1)] ∧
    tileElem ((after (.vectorResult 0) (after (.vld i0 ⟨3, 0, 0, 0, 1⟩) (onCore (vdCore 0)))).core 0) 3 0 = ⟨0x40000000, false⟩ ∧
    spadByte k.spad 20 0x104 = 1 ∧ spadByte k.spad 20 0x140 = 16 := by decide +kernel

/-! ### Fabric, sections, channels, queues (FabricActs to QueuesAndBuffersAct) -/

/-- Move descriptor 1: 64 flits of 64 bytes from 0x100; descriptor 2 has a base that is not aligned. -/
def movCore : Core := { run0 with regs := [(0x3090, 0x100), (0x3094, 64), (0x3098, 64), (0x30A0, 0x101), (0x30A8, 1)] }
def xf (desc : BitVec 4) (kind : BitVec 2) : MoveField := ⟨desc, 2, 1, 3, 1, kind, 0⟩
def flit0 : Flit := ⟨5, 0, false, false, 0⟩

theorem hyp_moves : moveDescOk (moveDesc movCore 1) = true ∧ moveDescOk (moveDesc movCore 2) = false ∧
    issues (onCore movCore) Core.usedX (fun n k => mget? k.outs 2 == none && mget? k.ins 2 == none && enabledAt k i0 n) = true ∧
    issues (after (.xout i0 (xf 1 0)) (onCore movCore)) Core.usedX (fun _ k => (mget? k.outs 2).isSome && mkeysRising k.outs) = true ∧
    issues (onCore { movCore with localTok := [(2, List.replicate 16 7)] }) Core.usedX
      (fun n k => (mgetD k.localTok 2 []).length == 16 && enabledAt k i0 n) = true := by decide +kernel

theorem test_fabric_moves : let bitOf := fun (x : Instr) (k : Core) (b : Nat) => bit (cReg ((after x (onCore k)).core 0) rFabStatus) b
    bitOf (.xnop i0 { xf 0 0 with rsv := 1 }) run0 5 = true ∧ bitOf (.xnop i0 (xf 0 0)) run0 5 = false ∧
    ((after (.xout i0 (xf 1 0)) (onCore movCore)).core 0).outs = [(2, ⟨0x100, 64, 64, 0, latency run0 + 1, true⟩)] ∧
    bitOf (.xout i0 (xf 2 0)) movCore 5 = true ∧
    bitOf (.xout i0 (xf 1 0)) { movCore with outs := [(2, ⟨0, 64, 1, 0, 0, true⟩)] } 6 = true ∧
    ((after (.xin i0 (xf 1 0)) (onCore { movCore with gpr := [(1, ⟨9, false⟩)] })).core 0).ins = [(2, ⟨0x100, 64, 64, 0, 1, true, some (3, 9), none⟩)] ∧
    ((after (.xtok i0 (xf 0 1)) (onCore { movCore with gpr := [(1, ⟨9, false⟩)] })).core 0).localTok.map (fun q => (q.1, q.2.length)) = [(2, 1)] ∧
    ((after (.xtok i0 (xf 0 0)) (onCore movCore)).core 0).localTok = [] ∧
    bitOf (.xtok i0 (xf 0 1)) { movCore with localTok := [(2, List.replicate 16 7)] } 1 = true ∧
    ((after (.xstop i0 (xf 0 0)) (onCore { movCore with outs := [(2, ⟨0, 64, 1, 0, 0, true⟩)] })).core 0).outs = [] := by decide +kernel

/-- A flit of the current epoch, one of another epoch, and one at a full input; a token, and one of KIND none; one on its way. -/
theorem test_arrivals : ((after (.flitArrival 0 1 (some flit0)) (onCore run0)).core 0).flitQ = [(1, [flit0])] ∧
    fld (cReg ((after (.flitArrival 0 1 (some { flit0 with epoch := 3 })) (onCore run0)).core 0) rFabStale) 15 0 = 1 ∧
    fld (cReg ((after (.flitArrival 0 1 (some flit0)) (onCore Core.reset)).core 0) rFabStale) 15 0 = 1 ∧
    bit (cReg ((after (.flitArrival 0 1 (some flit0)) (onCore { run0 with flitQ := [(1, List.replicate 16 flit0)] })).core 0) rFabStatus) 1 = true ∧
    ((after (.tokenArrival 0 1 (some 0x01000005)) (onCore run0)).core 0).tokQ = [(1, [0x01000005])] ∧
    ((after (.tokenArrival 0 1 (some 5)) (onCore run0)).core 0).tokQ = [] ∧
    nextWire { onCore run0 with wires := [⟨7, 0, 1, some flit0, none⟩] } 0 1 true = some ⟨7, 0, 1, some flit0, none⟩ ∧
    (after (.flitArrival 0 1 none) { onCore run0 with wires := [⟨7, 0, 1, some flit0, none⟩] }).now = 7 ∧
    after (.tokenArrival 0 1 none) (onCore run0) = onCore run0 := by decide +kernel

/-- A prologue of one entry that sends the head of input 0 east; END is 4. -/
def slotCore : Core :=
  { run0 with
    regs := [(0x3014, 1), (0x3020, 4)]
    slots := [(0, 0x10)]
    flitQ := [(0, [flit0])] }

/-- The entry stands for section cycle 0, its flit goes to core 1 of the same region; no entry stands for cycle 1 (R265, R266). -/
theorem hyp_slotEntry : slotCore.launchAt = some 0 ∧ slotCore.awaiting = false ∧ sectEnd slotCore = 4 ∧ entryIndex (settleCore slotCore 0) 0 = some 0 ∧
    efld (slotEntry (settleCore slotCore 0) 0) 7 4 = 1 ∧ efld (slotEntry (settleCore slotCore 0) 0) 45 45 = 0 ∧
    headFlit (settleCore slotCore 0) 0 = some flit0 ∧ linkDest 0 1 = some (1, 3) ∧ regionOfCore 0 = regionOfCore 1 ∧
    entryIndex (settleCore slotCore 1) 1 = none := by decide +kernel

theorem test_slotEntry : ((after (.slotEntryApply 0) (onCore slotCore)).wires.map fun w => (w.due, w.dest, w.inp, w.flit)) = [(1, 1, 3, some flit0)] ∧
    ((after (.slotEntryApply 0) (onCore slotCore)).core 0).sectNext = 1 ∧
    mgetD ((after (.slotEntryApply 0) (onCore slotCore)).core 0).flitQ 0 [] = [] ∧
    after (.slotEntryApply 0) (onCore { slotCore with sectNext := 4 }) = onCore { slotCore with sectNext := 4 } := by decide +kernel

/-- A write on its way, in a scratchpad in good order. -/
def spdCore : Core := { run0 with spad := { Spad.reset with log := [⟨5, 0, 0, [1, 2], [], false, []⟩] } }

theorem hyp_commit : spadOk spdCore.spad ∧ (spdCore.spad.log.filter fun w => decide (0 ≤ w.commit)) ≠ [] := by
  refine ⟨⟨rfl, ?_⟩, by decide⟩
  simp [spdCore]

theorem test_commit : (after (.scratchpadCommit 0) (onCore spdCore)).now = 6 ∧
    spadByte ((after (.scratchpadCommit 0) (onCore spdCore)).core 0).spad 6 1 = 2 ∧ spadByte spdCore.spad 6 1 = 2 ∧ spadByte spdCore.spad 5 1 = 0 ∧
    after (.scratchpadCommit 0) (onCore run0) = onCore run0 := by decide +kernel

/-- A bank swap that is due, at a section of END 4; checkpoints at 65,536 and END; a section whose checkpoints are over. -/
theorem test_swap_checkpoint :
    (after (.bankSwap 0) (onCore { slotCore with swapDue := true })).now = 68 ∧
    fld (cReg ((after (.bankSwap 0) (onCore { slotCore with swapDue := true })).core 0) rFabTblPer) 16 16 = 1 ∧
    after (.bankSwap 0) (onCore slotCore) = onCore slotCore ∧
    (after (.checkpoint 0) (onCore slotCore)).now = 4 ∧ fld (cReg ((after (.checkpoint 0) (onCore slotCore)).core 0) 0x104) 31 16 = 1 ∧
    checkCycle { slotCore with regs := [(0x104, 0x10000), (0x3014, 1), (0x3020, 4)] } 0 = 4 ∧
    (after (.checkpointSilent 0) (onCore slotCore)).records = [⟨.silent, 0, [0]⟩] ∧
    mget? (after (.checkpointSilent 0) (onCore slotCore)).hw.probes 0 = some 2052 ∧
    (after (.silentTimeout 0) (after (.checkpointSilent 0) (onCore slotCore))).now = 2052 + 65536 := by decide +kernel

/-- Partition 1: one region, region 0, whose core 0 is as given. -/
def onPart (k : Core) : State :=
  { onCore k with
    regions := [(0, { Region.reset with part := 1 })]
    hw := { Heartwood.reset with parts := [(1, newPart State.reset 0 0 1 1 2 64 0)] } }

/-- A launch of it booked for cycle 8192. -/
def launchState : State :=
  { onPart Core.reset with tmb := { Timebase.reset with events := [⟨0, .launch 1, 8192⟩] } }

theorem hyp_launch : nextLaunch launchState 1 8192 ∧ (∃ k, launchState.hpart 1 = some k ∧ k.halted = false ∧ launchReady launchState 1 k = true ∧
    partRegions k = [0]) ∧ regionOfCore 0 = 0 ∧ (launchState.core 0).fenced = false ∧ (launchState.core 0).inReset = false := by
  refine ⟨⟨⟨⟨0, .launch 1, 8192⟩, by decide, rfl, rfl⟩, ?_⟩, ⟨_, rfl, rfl, by decide +kernel, by decide⟩, by decide, rfl, rfl⟩
  intro e he _
  simp [launchState] at he
  subst he
  decide

theorem test_launch : (after (.sectionLaunch 1) launchState).now = 8192 ∧ ((after (.sectionLaunch 1) launchState).core 0).launchAt = some 8192 ∧
    ((after (.sectionLaunch 1) launchState).core 15).idle = false ∧ ((after (.sectionLaunch 1) launchState).core 16).awaiting = true := by decide +kernel

theorem test_barrier : partLaunch (onPart slotCore) (newPart State.reset 0 0 1 1 2 64 0) = some 0 ∧
    (after (.sectionBarrier 1) (onPart slotCore)).now = 4 ∧ ((after (.sectionBarrier 1) (onPart slotCore)).core 0).awaiting = true ∧
    ((after (.sectionBarrier 1) (onPart slotCore)).core 0).flitQ = [] ∧
    cReg ((after (.sectionBarrier 1) (onPart slotCore)).core 0) rFabEpoch = 1 ∧
    after (.sectionBarrier 1) (onPart Core.reset) = onPart Core.reset := by decide +kernel

/-- Endpoint 0 sends records from a ring of 1 KiB; endpoint 1 receives from handle 7 in a ring at 0x1000, handler 5 present. -/
def sendCore : Core := { run0 with regs := [(0x3800, 1), (0x3804, 0x02800000)] }
def recvCore : Core := { run0 with regs := [(0x3414, 0x80000000), (0x3840, 2), (0x3844, 0x02801000), (0x384C, 7)] }

/-- A message of 16 bytes from handle 7 for handler 5. -/
def chMsg (len : Nat) (bytes : List Byte) : Packet :=
  { pkt 0 with payload := bytesOfWord (BitVec.ofNat 32 (len + 5 * 65536)) ++ bytesOfWord 0 ++ bytesOfWord 7 ++ bytesOfWord 0 ++ bytes }

/-- A post that passes and one for each code of R306 but BUSY, which is that of a post in progress. -/
theorem hyp_post : postJudge sendCore 0 16 = none ∧ postJudge run0 0 16 = some pcNotSend ∧
    postJudge { sendCore with eps := [(0, { Endpoint.blank with posting := some 0 })] } 0 16 = some pcBusy ∧
    postJudge { sendCore with regs := [(0x3800, 9), (0x3804, 0x02800000)] } 0 16 = some pcBroken ∧
    postJudge { sendCore with regs := [(0x3800, 5), (0x3804, 0x02800000)] } 0 16 = some pcClosed ∧
    postJudge sendCore 0 65521 = some pcTooBig ∧
    postJudge { sendCore with regs := [(0x3800, 1), (0x3804, 0x02800000), (0x381C, 8)] } 0 16 = some pcBadAddr ∧ sendCore.fenceAt = none := by
  decide +kernel

theorem test_post : (after (.post 0 0 16) (onCore sendCore)).net.length = 1 ∧
    (epOf ((after (.post 0 0 16) (onCore sendCore)).core 0) 0).posting = some 0 ∧
    (after (.post 0 0 16) (onCore { sendCore with fenceAt := some 0 })).net = [] ∧
    (after (.post 0 0 16) (onCore run0)).net = [] ∧
    fld (cReg ((after (.post 0 0 16) (onCore run0)).core 0) (epReg 0 epResult)) 3 0 = pcNotSend := by decide +kernel

/-- A message to no endpoint, one of another incarnation, one accepted whole, its commit, and one for a handler that is not there. -/
theorem test_chmsg :
    recvEndpoint run0 7 = none ∧ (after (.chmsg 0 (chMsg 4 [1, 2, 3, 4])) (onCore run0)).net.length = 1 ∧
    recvEndpoint recvCore 7 = some 1 ∧ (startMessage recvCore 1 (chMsg 4 [1, 2, 3, 4])).code = pcOk ∧
    ((epOf ((after (.chmsg 0 (chMsg 4 [1, 2, 3, 4])) (onCore recvCore)).core 0) 1).rx.map fun m => (m.code, m.left)) = some (pcOk, 0) ∧
    spadByte ((after (.chmsg 0 (chMsg 4 [1, 2, 3, 4])) (onCore recvCore)).core 0).spad 20 0x1011 = 2 ∧
    cReg ((after (.channelCommit 0 1) (after (.chmsg 0 (chMsg 4 [1, 2, 3, 4])) (onCore recvCore))).core 0) (epReg 1 epTail) = 32 ∧
    (after (.channelCommit 0 1) (after (.chmsg 0 (chMsg 4 [1, 2, 3, 4])) (onCore recvCore))).net.length = 1 ∧
    (startMessage { recvCore with regs := [(0x3840, 2), (0x3844, 0x02801000), (0x384C, 7)] } 1 (chMsg 4 [])).code = pcNoHandler ∧
    bit (cReg ((after (.chmsg 0 (chMsg 4 [])) (onCore { recvCore with regs := [(0x3840, 0x102), (0x3844, 0x02801000), (0x384C, 7)] })).core 0)
      rChnStatus) 1 = true := by decide +kernel

/-- A reply with OK, one with BROKEN, a late one; a post that no reply ends (R308 to R310). -/
theorem test_chrep : let s := after (.post 0 0 16) (onCore sendCore)
    (epOf ((after (.chrep 0 0 0) s).core 0) 0).seq = 1 ∧ epState ((after (.chrep 0 0 6) s).core 0) 0 = chBroken ∧
    fld (cReg ((after (.chrep 0 0 0) (onCore sendCore)).core 0) rSrcStatus) 31 16 = 1 ∧
    (after (.postTimeout 0 0) s).now = 1048576 ∧ epRole (s.core 0) 0 = roleSend ∧
    after (.postTimeout 0 0) (onCore sendCore) = onCore sendCore := by decide +kernel

/-- HEAD between its old value and TAIL, past TAIL, not a multiple of 16, and at a sending end (R314). -/
theorem test_head : let k := { recvCore with regs := [(0x3840, 2), (0x3844, 0x02801000), (0x3858, 32)] }
    cReg ((after (.headRelease 0 1 32) (onCore k)).core 0) (epReg 1 epHead) = 32 ∧
    bit (cReg ((after (.headRelease 0 1 48) (onCore k)).core 0) rChnStatus) 0 = true ∧
    bit (cReg ((after (.headRelease 0 1 8) (onCore k)).core 0) rChnStatus) 0 = true ∧
    cReg ((after (.headRelease 0 0 16) (onCore sendCore)).core 0) (epReg 0 epHead) = 0 := by decide +kernel

/-- Pushes of a handle, of zero, into a full queue; pops of a queue of two and of an empty one (R225 to R227). -/
theorem test_queues : mgetD ((after (.hqPush 0 7 9) (onCore run0)).core 0).hqs 7 [] = [9] ∧
    bit (cReg ((after (.hqPush 0 7 0) (onCore run0)).core 0) rSpdStatus) 4 = true ∧
    bit (cReg ((after (.hqPush 0 7 9) (onCore { run0 with hqs := [(7, List.replicate 16 1)] })).core 0) 0x257C) 8 = true ∧
    (hqCycle { run0 with hqs := [(7, List.replicate 16 1)] } 7 0) = (16, 0) ∧
    (after (.hqPop 0 7) (onCore { run0 with hqs := [(7, [4, 5])] })).reply = some ⟨0, [4]⟩ ∧
    (after (.hqPop 0 7) (onCore run0)).reply = some ⟨0, [0]⟩ := by decide +kernel

/-- Buffers: halves of 128 bytes, halves of 64, one that ends beyond the scratchpad, a disabled one; SWAP of an enabled and of a disabled one
(R219, R220). -/
theorem test_buffers : bufValid 0x80000000 0x80 = true ∧ bufValid 0x80000000 0x40 = false ∧ bufValid 0x802FFF80 0x80 = false ∧
    bit (cReg ((after (.bufferConfig 0 0 true 0x80000000) (onCore (regCore 0x2404 0x80))).core 0) 0x2400) 31 = true ∧
    bit (cReg ((after (.bufferConfig 0 0 true 0x80000000) (onCore (regCore 0x2404 0x40))).core 0) 0x2400) 31 = false ∧
    bit (cReg ((after (.bufferConfig 0 0 true 0x80000000) (onCore (regCore 0x2404 0x40))).core 0) rSpdStatus) 3 = true ∧
    bit (cReg ((after (.bufferConfig 0 0 false 0x40) (onCore run0)).core 0) rSpdStatus) 3 = false ∧
    fld (cReg ((after (.swap 0 0) (onCore (regCore 0x2400 0x80000000))).core 0) 0x2408) 0 0 = 1 ∧
    fld (cReg ((after (.swap 0 0) (onCore run0)).core 0) 0x2408) 0 0 = 0 := by decide +kernel

/-! ### The service network (ServicePacketsAct to RoutersKeepTheirState) -/

/-- The router of core 0, of region 0 and partition 1, with region 0 mapped onto the first physical region and nothing bypassed. -/
def rt0 : Router := { Router.reset with regs := [(4, 0x40), (0x1000, 0x80000000), (0x1004, 0x3FFFFFFF), (0x1008, 0x3FFFFFFF), (0x100C, 0x3FFFFFFF)] }

/-- A packet of the heartwood to core 0, sealed as its ingress router seals it, and the same to its router. -/
def toCore (p : Packet) : Packet := stampPacket { p with px := 1, py := 1, pep := 0 }
def toRouter (p : Packet) : Packet := stampPacket { p with px := 1, py := 1, pep := 0, dkind := 2 }

/-- Core 0 behind that router, with one packet on the network. -/
def netState (k : Core) (p : Packet) : State := { onPart k with routers := [(35, rt0)], net := [p] }

/-- A WR of two bytes at 0x40, one of none, one to the last two bytes of the scratchpad, and one past them. -/
def wrPkt (addr : BitVec 64) (bytes : List Byte) : Packet := toCore { pkt 0 with addr := addr, payload := bytes }

theorem hyp_packets : [wrPkt 0x40 [7, 8], wrPkt 0x40 [], wrPkt 0x2FFFFE [7, 8], wrPkt 0x2FFFFF [7, 8]].all (fun p =>
      hcrcOk p && pcrcOk p && p.dkind == 0#2 && !bufferMode p && (destCheck ((netState run0 p).takeNet p) p).isNone &&
      decide (0 = coreAt p.lx.toNat p.ly.toNat)) = true ∧
    pcrcOk { wrPkt 0x40 [7, 8] with pcrc0 := 0 } = false ∧ hcrcOf { wrPkt 0x40 [7, 8] with pcrc0 := 0 } ≠ (wrPkt 0x40 [7, 8]).hcrc := by
  decide +kernel

theorem hyp_reachesCore : reachesCore (netState run0 (wrPkt 0x40 [7, 8])) (wrPkt 0x40 [7, 8]) 0 :=
  ⟨by decide +kernel, by decide +kernel, by decide +kernel, by decide +kernel⟩

theorem test_wr : let st := fun (p : Packet) => (after (.wr p) (netState run0 p)).net.map fun q => q.arg.toNat % 16
    st (wrPkt 0x40 [7, 8]) = [stOk] ∧ st (wrPkt 0x40 []) = [stRange] ∧ st (wrPkt 0x2FFFFE [7, 8]) = [stOk] ∧ st (wrPkt 0x2FFFFF [7, 8]) = [stRange] ∧
    spadByte ((after (.wr (wrPkt 0x40 [7, 8])) (netState run0 (wrPkt 0x40 [7, 8]))).core 0).spad 20 0x41 = 8 := by decide +kernel

/-- An MCWR at core 0 stores without an answer; an RD of 3 bytes, of none and of 513; an HQP for queue 7 and for queue 8. -/
theorem test_rd_hqp_mcwr :
    let rd := fun (n : Word) => toCore { pkt 0 with type := 0, addr := 0x40, tdata := [n, 0] }
    let hq := fun (q : Word) => toCore { pkt 0 with tdata := [9, q] }
    let k : Core := { run0 with spad := { Spad.reset with base := [(0x41, 6)] } }
    (after (.mcwr 0 (wrPkt 0x40 [7, 8])) (netState run0 (wrPkt 0x40 [7, 8]))).net = [] ∧
    spadByte ((after (.mcwr 0 (wrPkt 0x40 [7, 8])) (netState run0 (wrPkt 0x40 [7, 8]))).core 0).spad 20 0x40 = 7 ∧
    ((after (.rd (rd 3)) (netState k (rd 3))).net.map fun q => (q.type, q.payload)) = [(tRDATA, [0, 6, 0])] ∧
    ((after (.rd (rd 0)) (netState k (rd 0))).net.map fun q => q.arg.toNat % 16) = [stRange] ∧
    ((after (.rd (rd 513)) (netState k (rd 513))).net.map fun q => q.arg.toNat % 16) = [stRange] ∧
    ((after (.hqp (hq 7)) (netState k (hq 7))).core 0).hqPend = [⟨latency run0, 7, 9⟩] ∧
    ((after (.hqp (hq 8)) (netState k (hq 8))).net.map fun q => q.arg.toNat % 16) = [stRange] := by decide +kernel

/-- REGW of a router's `svc.mc.hold` and of a core's `arith.seed` by the heartwood; from a partition; not aligned. -/
theorem test_regw_regr :
    let rw := fun (part : BitVec 12) (off : BitVec 64) => toRouter { pkt 0 with part := part, addr := off, payload := bytesOfWord 0x123 }
    let cw := toCore { pkt 0 with addr := 0x400, payload := bytesOfWord 0x123 }
    nReg ((after (.regw (rw 0 0x10)) (netState run0 (rw 0 0x10))).router 35) 0x10 = 0x123 ∧
    ((after (.regw (rw 0 0x10)) (netState run0 (rw 0 0x10))).net.map fun q => q.arg.toNat % 16) = [stOk] ∧
    ((after (.regw (rw 1 0x10)) (netState run0 (rw 1 0x10))).net.map fun q => q.arg.toNat % 16) = [stType] ∧
    ((after (.regw (rw 0 0x12)) (netState run0 (rw 0 0x12))).net.map fun q => q.arg.toNat % 16) = [stRange] ∧
    cReg ((after (.regw cw) (netState run0 cw)).core 0) 0x400 = 0x123 ∧
    ((after (.regr (rw 1 0x10)) (netState run0 (rw 1 0x10))).net.map fun q => q.arg.toNat % 16) = [stType] ∧
    ((after (.regr (rw 0 0x10)) (netState run0 (rw 0 0x10))).net.map fun q => q.type) = [tRDATA] ∧
    (regFind routerRegs 0x10).isSome = true ∧ pktDest (rw 0 0x10) = 35 := by decide +kernel

/-- A response with the tag of a request, and a late one; a request without an answer (R345, R362). -/
theorem test_responses :
    let k : Core := { run0 with reqs := [⟨5, 10, reqPlain, 0⟩] }
    let p := toCore { pkt 0 with tag := 5 }
    let q := toCore { pkt 0 with tag := 6 }
    hcrcOk p = true ∧ p.dkind = 0 ∧ coreAt p.lx.toNat p.ly.toNat = 0 ∧
    ((after (.ack p) (netState k p)).core 0).reqs = [] ∧ ((after (.rdata p) (netState k p)).core 0).reqs = [] ∧
    fld (cReg ((after (.ack q) (netState k q)).core 0) rSrcStatus) 31 16 = 1 ∧ ((after (.ack q) (netState k q)).core 0).reqs = k.reqs ∧
    (after (.requestTimeout (.core 0) 5) (onCore k)).now = 10 + 1048576 ∧
    bit (cReg ((after (.requestTimeout (.core 0) 5) (onCore k)).core 0) rSrcStatus) 0 = true ∧
    after (.requestTimeout (.core 0) 6) (onCore k) = onCore k := by decide +kernel

/-- A fence with a request older than it, and one without; a record that waits. -/
theorem test_fences : ((after (.fence 0) (onCore run0)).core 0).fenceAt = some 0 ∧
    after (.fenceDone 0) (onCore { run0 with fenceAt := some 5, reqs := [⟨1, 5, reqPlain, 0⟩] }) =
      onCore { run0 with fenceAt := some 5, reqs := [⟨1, 5, reqPlain, 0⟩] } ∧
    ((after (.fenceDone 0) (onCore { run0 with fenceAt := some 5, reqs := [⟨1, 6, reqPlain, 0⟩], held := [(pkt 0, 0, 0)] })).core 0).fenceAt = none ∧
    (after (.fenceDone 0) (onCore { run0 with fenceAt := some 5, held := [(pkt 0, reqPlain, 0)] })).net = [pkt 0] ∧
    (after (.recordSend 0) (onCore { run0 with recs := [⟨.badBuf, 0, [1]⟩], lastRec := some 10 })).now = 266 ∧
    (after (.recordSend 0) (onCore { run0 with recs := [⟨.badBuf, 0, [1]⟩] })).records = [⟨.badBuf, 0, [1]⟩] ∧
    after (.recordSend 0) (onCore run0) = onCore run0 := by decide +kernel

/-- A barrier slot: one arrival, a second, one behind a fence; the root's count below N and at N; a release of the generation. -/
theorem test_barriers :
    let root := fun (cnt : Word) => ({ State.reset with routers := [(35, { Router.reset with regs := [(0x3000, 0x80000002), (0x3004, cnt)] })] } : State)
    (after (.barrierSlotWrite 0 0 0x01000000) (onCore run0)).net.length = 1 ∧
    bit (cReg ((after (.barrierSlotWrite 0 0 0x01000000) (onCore run0)).core 0) (barReg 0)) 26 = true ∧
    bit (cReg ((after (.barrierSlotWrite 0 0 0x01000000) (onCore (regCore 0x3210 0x04000000))).core 0) rSrcStatus) 1 = true ∧
    ((after (.barrierSlotWrite 0 0 0x03000000) (onCore { run0 with reqs := [⟨5, 10, reqPlain, 0⟩] })).core 0).held.length = 1 ∧
    after (.barrierSlotWrite 0 0 7) (onCore run0) = onCore run0 ∧
    nReg ((after (.arrive 35 0 0) (root 0)).router 35) (nBarCnt 0) = 1 ∧ nReg ((after (.arrive 35 0 0) (root 1)).router 35) (nBarCnt 0) = 0x10000 ∧
    fld (nReg ((after (.arrive 35 0 7) (root 0)).router 35) nDrops) 31 16 = 1 ∧
    bit (cReg ((after (.release 0 3 0) (onCore (regCore 0x3210 0x04000003))).core 0) (barReg 0)) 27 = true ∧
    cReg ((after (.release 0 4 0) (onCore (regCore 0x3210 0x04000003))).core 0) (barReg 0) = 0x04000003 := by decide +kernel

/-- MISSED packets into a queue of none and of four; pops. -/
theorem test_missed : ((after (.missed 0 3 9 40) (onCore run0)).core 0).missQ = [0x7C030009] ∧
    bit (cReg ((after (.missed 0 3 9 2) (onCore { run0 with missQ := [1, 2, 3, 4] })).core 0) rSrcStatus) 2 = true ∧
    (after (.missPop 0) (onCore { run0 with missQ := [1, 2] })).reply = some ⟨0, [0x80000001]⟩ ∧ (after (.missPop 0) (onCore run0)).reply = some ⟨0, [0]⟩ := by
  decide +kernel

/-- A packet of the heartwood for core 0 enters at router 35: it stands in the local buffer; with no mapping it is answered UNREACH. -/
theorem test_ingress : let p := { pkt 0 with skind := true, payload := [1] }
    (fillDest (netState run0 p) rt0 p).2 = stOk ∧ (((after (.packetIngress 35 p) (netState run0 p)).router 35).bufs.map fun b => (b.1, b.2.length)) = [(32, 1)] ∧
    (after (.packetIngress 35 p) (netState run0 p)).net = [] ∧
    (fillDest State.reset Router.reset p).2 = stUnreach ∧
    bit (nReg ((after (.packetIngress 35 p) { State.reset with net := [p] }).router 35) nStatus) 5 = true := by decide +kernel

/-- Router 35 with a packet of h hops at its head for output `out`. -/
def headAt (h : BitVec 6) (out : Nat) : State :=
  { State.reset with routers := [(35, { Router.reset with bufs := [(32, [⟨{ pkt 0 with hops := h }, [out], [], 0, 0, none⟩])] })] }

/-- No head; a head for the local output 4, for the link 1 to a neighbour, and one of 63 hops; a head without credits. -/
theorem hyp_forward : headsFor (State.reset.router 35) 1 = [] ∧ missedFor (State.reset.router 35) 1 = none ∧ linkEnd 35 4 = none ∧
    (linkEnd 35 1).isSome = true ∧ (linkEnd 35 1).map (fun e => decide (e.1 ≠ 35)) = some true ∧
    (chooseHead ((headAt 0 1).router 35) 35 1).isSome = true ∧ (chooseHead ((headAt 0 4).router 35) 35 4).isSome = true ∧
    (chooseHead { (headAt 0 1).router 35 with used := [(9, (18, 0))] } 35 1).isNone = true ∧
    headsFor { (headAt 0 1).router 35 with used := [(9, (18, 0))] } 1 ≠ [] := by decide +kernel

theorem test_forward : (after (.packetForward 35 4 0) (headAt 0 4)).net.length = 1 ∧
    ((after (.packetForward 35 1 0) (headAt 0 1)).routers.map fun r => (r.1, r.2.bufs.map fun b => b.2.map fun q => q.pkt.hops)) =
      [(35, [[]]), (66, [[1]])] ∧
    (after (.packetForward 35 1 0) (headAt 63 1)).records = [⟨.hopsDrop, 35, []⟩] ∧
    after (.packetForward 35 1 0) State.reset = State.reset := by decide +kernel

/-- Credits on their way to output 1 of router 35; a branch of group 3 that waits there since cycle 20. -/
def backState : State := { State.reset with credits := [⟨9, 35, 1, 0, 2, 1⟩], routers := [(35, { Router.reset with used := [(8, (5, 3))] })] }
def cutState : State :=
  { State.reset with routers := [(35, { Router.reset with bufs := [(32, [⟨{ pkt 0 with dkind := 3, group := 3, mseq := 8 }, [1], [], 0, 20, none⟩])] })] }

/-- Credits come back; the branch is cut; a translation update; records of each kind. -/
theorem test_router_state :
    mgetD ((after (.creditReturn 35 1 0) backState).router 35).used 8 (0, 0) = (3, 2) ∧ (after (.creditReturn 35 1 0) backState).now = 9 ∧
    after (.creditReturn 35 2 0) backState = backState ∧
    mget? ((after (.multicastCut 35 1 3) cutState).router 35).missed 1027 = some (8, 1) ∧ (after (.multicastCut 35 1 3) cutState).now = 20 + 4096 ∧
    after (.multicastCut 35 1 4) cutState = cutState ∧
    fld (nReg ((after (.xlat [⟨2, 3, 4, true, List.replicate 16 31⟩] 9) State.reset).router 100) (nMap 2)) 5 0 = 0x23 ∧
    nReg ((after (.xlat [⟨2, 3, 4, true, List.replicate 16 31⟩] 9) State.reset).router 100) nGen = 9 ∧
    mget? (after .record { State.reset with now := 3, records := [⟨.heartbeat, 5, []⟩] }).hw.beats 5 = some 3 ∧
    mget? (after .record { State.reset with now := 3, records := [⟨.baseBeat, 5, []⟩] }).hw.beats 1005 = some 3 ∧
    after .record { State.reset with records := [⟨.watchdog, 5, []⟩] } = State.reset := by decide +kernel

/-! ### Stacks and streams (StackAccessesAct to TransfersAct) -/

/-- Stack 2, of which partition 3 may read and write the first GiB and read the second; a byte at 65. -/
def memState : State := { State.reset with stks := [(2, { Stack.reset with regs := [(0x100, 0x3003), (0x104, 0x2003)], mem := [(65, 9)] })] }

theorem hyp_stack : burmonRange 64 4 = true ∧ burmonRange 510 4 = false ∧ burmonRange 0 512 = true ∧ burmonRange 171798691836 4 = true ∧
    burmonRange 171798691837 4 = false ∧ ownOk (memState.stack 2) 64 3 true = true ∧ ownOk (memState.stack 2) 64 4 false = false ∧
    ownOk (memState.stack 2) 1073741824 3 false = true ∧ ownOk (memState.stack 2) 1073741824 3 true = false ∧
    cellsWf (memState.stack 2).mem = true := by decide +kernel

theorem test_burmon_read : (after (.burmonRead 2 64 2 3 false []) memState).reply = some ⟨stOk, [0, 0, 9]⟩ ∧
    (after (.burmonRead 2 510 4 3 false []) memState).reply = some ⟨stRange, [0]⟩ ∧
    (after (.burmonRead 2 64 2 4 false []) memState).reply = some ⟨stPart, [0]⟩ ∧
    kReg ((after (.burmonRead 2 64 2 0 false [(1, 3)]) memState).stack 2) kCe = 1 ∧
    ((after (.burmonRead 2 64 2 0 false [(1, 4)]) memState).stack 2).tarn = [1] ∧
    (after (.burmonRead 2 64 2 0 false [(1, 4)]) memState).records = [⟨.uncorrectable, 2, [1]⟩] := by decide +kernel

theorem test_burmon_write : ((after (.burmonWrite 2 64 [5, 0] false 3 true []) memState).stack 2).mem = [(64, 5)] ∧
    (after (.burmonWrite 2 64 [5, 0] false 3 false []) memState).reply = some ⟨stCrc, []⟩ ∧
    (after (.burmonWrite 2 1073741824 [5] false 3 true []) memState).reply = some ⟨stPart, []⟩ ∧
    (after (.burmonWrite 2 511 [5, 6] false 3 true []) memState).reply = some ⟨stRange, []⟩ ∧
    ((after (.burmonWrite 2 64 [5, 0] true 3 true []) memState).stack 2).tarn = [1] := by decide +kernel

/-- A row to repair in a bank with seven spare rows taken, and in one with eight; scrub enabled and not; training (R414 to R418, R423, R424). -/
theorem test_stack_upkeep :
    let stk := fun (k : Stack) => ({ State.reset with stks := [(2, k)] } : State)
    let fix := fun (n : Nat) => stk { Stack.reset with toFix := [rowNumber 1 0 0 7], spares := [(320, n)] }
    ((after (.correctedWriteback 2 1) (stk { Stack.reset with wback := [1, 2] })).stack 2).wback = [2] ∧
    mgetD ((after (.refreshSlot 2 1) (stk Stack.reset)).stack 2).refr 1 0 = 2 ∧ (after (.refreshSlot 2 1) (stk Stack.reset)).now = 512 ∧
    mgetD ((after (.refreshSlot 2 1) (stk { Stack.reset with regs := [(4, 4)] })).stack 2).refr 1 0 = 4 ∧
    after (.scrub 2 lastBlock 0) (stk { Stack.reset with regs := [(0x20, 0)] }) = stk { Stack.reset with regs := [(0x20, 0)] } ∧
    fld (kReg ((after (.scrub 2 lastBlock 0) (stk { Stack.reset with regs := [(0x20, 0x40)] })).stack 2) kScrub) 31 16 = 1 ∧
    ((after (.dramRowRepair 2 1 0 0 7) (fix 7)).stack 2).fixed = [rowNumber 1 0 0 7] ∧
    bit (kReg ((after (.dramRowRepair 2 1 0 0 7) (fix 8)).stack 2) kStatus) 4 = true ∧
    after (.dramRowRepair 2 1 0 0 6) (fix 7) = fix 7 ∧
    bit (kReg ((after (.retrainRequest 2 15) (stk Stack.reset)).stack 2) kStatus) 31 = true ∧
    ((after (.stackRetrainGo 2 0x13) (stk Stack.reset)).stack 2).trainBy = some 8192 ∧
    (after (.retrainDone 2) (stk { Stack.reset with trainBy := some 8192 })).now = 8192 ∧ after (.retrainDone 2) (stk Stack.reset) = stk Stack.reset := by
  decide +kernel

/-- A SCHED descriptor: one chunk of 64 bytes out of core 0's scratchpad at 0 into stack 0 at 64; SERVICE, SHARED and REMOTE ones. -/
def ctxWords (kind : Word) (out : Bool) : List Word :=
  [kind ||| (if out then 4 else 0) ||| 8 ||| 0x80 ||| 0x100000, 64, 0, 0x10002, 0, 0, 0, 0, 3, 64, 0, 0, 0, 0, 0, 0]
def ctxOf (kind : Word) (out : Bool) (st : Nat) : StreamCtx := { StreamCtx.reset with part := some 1, words := ctxWords kind out, state := st }
def ctxState (x : StreamCtx) : State :=
  { onPart { run0 with spad := { Spad.reset with base := [(1, 7)] } } with stks := [(0, { Stack.reset with regs := [(0x100, 0x3001)], ctxs := [(5, x)] })] }

theorem hyp_contexts : ctxPart (ctxOf 0 true xIdle) 1 = true ∧ ctxPart (ctxOf 0 true xIdle) 2 = false ∧ dKind (ctxOf 0 true xIdle) = kSched ∧
    dKind (ctxOf 1 false xIdle) = kService ∧ dKind (ctxOf 2 false xIdle) = kShared ∧ dKind (ctxOf 3 false xIdle) = kRemote ∧
    dTotal (ctxOf 0 true xRun) = 2 ∧ dOut (ctxOf 0 true xRun) = true ∧ dChunk (ctxOf 0 true xRun) = 64 ∧ dNbuf (ctxOf 0 true xRun) = 1 ∧
    chunkOff (ctxOf 0 true xRun) 0 0 = some 64 ∧ dDest (ctxOf 0 true xRun) = 0 ∧ descOk (ctxState (ctxOf 1 false xIdle)) 0 (ctxOf 1 false xIdle) = true ∧
    descOk (ctxState (ctxOf 1 false xIdle)) 0 { ctxOf 1 false xIdle with words := List.replicate 16 0 } = false ∧
    fillFirst (ctxOf 1 false xRun) 0 = true ∧ (fetchChunk (ctxState (ctxOf 1 false xRun)) 0 5 0 1 [] []).2.1 = stOk := by decide +kernel

theorem test_context_commands : let s := ctxState (ctxOf 1 false xIdle)
    (after (.streamStart 0 5 1) s).ctx 0 5 = { ctxOf 1 false xIdle with state := xRun, credits := dCredits (ctxOf 1 false xIdle) } ∧
    (after (.streamStart 0 5 2) s).reply = some ⟨stPart, []⟩ ∧
    (after (.streamStart 0 5 1) (ctxState (ctxOf 0 true xIdle))).reply = some ⟨stRange, []⟩ ∧
    ((after (.streamStart 0 5 1) (ctxState { ctxOf 1 false xIdle with words := (ctxWords 1 false).set 15 1 })).ctx 0 5).state = xFault ∧
    ((after (.streamStop 0 5 1) (ctxState (ctxOf 1 false xRun))).ctx 0 5).state = xStopped ∧
    ((after (.credit 0 5 1 3) s).ctx 0 5).credits = 1 ∧ ((after (.credit 0 5 1 3) s).ctx 0 5).credOvf = true ∧
    ((after (.contextDescriptorWrite 0 5 1 (ctxWords 0 true)) s).ctx 0 5).words = ctxWords 0 true ∧
    (after (.contextDescriptorWrite 0 5 1 (ctxWords 0 true)) (ctxState (ctxOf 1 false xRun))).reply = some ⟨stRange, []⟩ ∧
    (after (.memCredit 0 0x8405) s).net.map (fun q => (q.type, ctxAddr q.addr.toNat)) = [(tWR, some (2, 5, 68))] ∧
    after (.memCredit 0 0xF000) s = s := by decide +kernel

/-- A chunk out of the scratchpad in cycle 3; a chunk of a SERVICE stream with a credit and without, its HQP; a SHARED chunk and its sequence
word; a REMOTE stream that halts, goes on, and fails after 100 ms. -/
theorem test_chunks :
    let sched := ctxState (ctxOf 0 true xRun)
    let serve := fun (c : Nat) => ctxState { ctxOf 1 false xRun with credits := c }
    let share := fun (d : Bool) => ctxState { ctxOf 2 false xRun with credits := 1, seqDue := d }
    let remote := ctxState { ctxOf 3 false xRun with credits := 1 }
    (after (.schedChunk 0 5 [] []) sched).now = 3 ∧ cellGet ((after (.schedChunk 0 5 [] []) sched).stack 0).mem 65 = 7 ∧
    ((after (.schedChunk 0 5 [] []) sched).ctx 0 5).sent = 1 ∧
    (after (.serviceChunk 0 5 [] []) (serve 1)).net.map (fun q => (q.type, q.payload.length)) = [(tWR, 64)] ∧
    after (.serviceChunk 0 5 [] []) (serve 0) = serve 0 ∧
    (after (.serviceChunk 0 5 [] []) (ctxState { ctxOf 1 false xRun with hqpDue := true })).net.map (fun q => q.type) = [tHQP] ∧
    (after (.sharedChunk 0 5 []) (share false)).net.map (fun q => (q.type, q.payload.length)) = [(tMCWR, 64)] ∧
    (after (.sharedChunk 0 5 []) (share true)).net.map (fun q => (q.type, q.payload.length)) = [(tMCWR, 4)] ∧
    ((after (.remoteHalt 0 5 true) remote).ctx 0 5).state = xHalted ∧
    ((after (.remoteResume 0 5) (after (.remoteHalt 0 5 true) remote)).ctx 0 5).state = xRun ∧
    ((after (.remoteFail 0 5) (after (.remoteHalt 0 5 true) remote)).ctx 0 5).state = xFailed ∧
    (after (.remoteFail 0 5) (after (.remoteHalt 0 5 true) remote)).now = 160000000 ∧ after (.remoteResume 0 5) remote = remote := by decide +kernel

/-- A buffer filled by a SCHED stream inwards: buffer 0 of 128-byte halves, whose backState half is at 0x1080. -/
theorem hyp_sched_in : let k : Core := { run0 with regs := [(0x2400, 0x80001000), (0x2404, 0x80)] }
    (fillBegin (settleCore k 3) (dBuf (ctxOf 0 false xRun))).map (fun f => f.addr) = some 0x1080 ∧ fillFirst (ctxOf 0 false xRun) 0 = true ∧
    (settleCore k 3).spad.log = [] ∧ k.launchAt = some 0 ∧ dOut (ctxOf 0 false xRun) = false := by decide +kernel

/-- Transfer slot 3: a start of 64 bytes at 64, one with a bad length; its completion with and without answers owed, with its word. -/
theorem test_transfers :
    let k : Core := { run0 with regs := [(0x2C60, 64), (0x2C6C, 0x80000100)] }
    xferRefused k 3 64 = false ∧ xferRefused k 3 65 = true ∧
    (after (.xferStart 0 3 64) (onCore k)).net.length = 1 ∧ cReg ((after (.xferStart 0 3 64) (onCore k)).core 0) (xferReg 3 0x14) = 1 ∧
    fld (cReg ((after (.xferStart 0 3 65) (onCore k)).core 0) (xferReg 3 0x14)) 4 1 = 14 ∧
    bit (cReg ((after (.xferComplete 0 3) (onCore { k with xfers := [(3, ⟨false, 64, 0, 64, 0, 5, none⟩)] })).core 0) (xferReg 3 0x14)) 0 = false ∧
    spadByte ((after (.xferComplete 0 3) (onCore { k with xfers := [(3, ⟨false, 64, 0, 64, 0, 5, none⟩)] })).core 0).spad 20 0x103 >>> 7 = 1 ∧
    ((after (.xferComplete 0 3) (onCore { k with xfers := [(3, ⟨false, 64, 0, 64, 1, 0, none⟩)] })).core 0).regs = k.regs := by decide +kernel

/-! ### Time, ports and queue pairs (TimeFollowsPtp to RingsMove) -/

/-- Ports 0 and 1 listed, domain 0, threshold 1000 ns, PPS allowed; a master 0x77 heard twice on port 0. -/
def mst : Master := ⟨0x77, [1], 0, 3, 2, 0, -3, 0⟩
def ptpState : State :=
  { State.reset with
    win := [(0x10004, 0x400), (0x10008, 0x98), (0x1000C, 1000), (0x10010, 0x00640064)]
    tmb := { Timebase.reset with masters := [(0, [mst])] } }
def tmbWith (f : Timebase → Timebase) (st : Word) : State := { ptpState with tmb := f ptpState.tmb, win := (0x10000, st) :: ptpState.win }

theorem hyp_ptp : 0 ∈ listedPorts ptpState ∧ 1 ∈ listedPorts ptpState ∧ 2 ∉ listedPorts ptpState ∧ ptpDomain ptpState 0 = true ∧
    ptpDomain ptpState 1 = false ∧ isBest ptpState 0 0x77 = true ∧ isBest ptpState 0 0x78 = false ∧ firstPort ptpState = some 0 ∧
    firstPort State.reset = none ∧ (bestMaster ptpState 0).isSome = true := by decide +kernel

/-- A Sync at PTP time 5 s on the first port; on a port that is not listed; of another domain; with an interval of 2 s; in two steps, with its
Follow_Up (R434 to R438). -/
theorem test_sync : let t := after (.ptpSync 0 0 0x77 (-3) false 5000000000) ptpState
    let u := after (.ptpSync 0 0 0x77 (-3) true 0) ptpState
    t.tmb.serving = some 0 ∧ t.tmb.isSet = true ∧ mapAt t.tmb 0 = 5000000000 * (two40 : Int) ∧
    fld (wReg t tStatus) 4 3 = 1 ∧
    after (.ptpSync 2 0 0x77 (-3) false 0) ptpState = ptpState ∧
    fld (wReg (after (.ptpSync 0 1 0x77 (-3) false 0) ptpState) tCount) 15 0 = 1 ∧
    fld (wReg (after (.ptpSync 0 0 0x77 1 false 0) ptpState) tCount) 15 0 = 1 ∧
    u.tmb.twoStep = some (0, 0x77, 0) ∧
    (after (.followUp 0 0 0x77 5000000000) u).tmb.isSet = true ∧ after (.followUp 0 0 0x77 5) ptpState = ptpState ∧
    fld (wReg (after (.followUp 0 0 0x78 5) ptpState) tCount) 15 0 = 1 := by decide +kernel

/-- The sixteenth small offset locks from ACQUIRING (R438). -/
theorem test_lock : tState (after (.ptpSync 0 0 0x77 (-3) false 5) (tmbWith (fun t => { t with isSet := true, small := 15, serving := some 0 }) 1)) = tLocked ∧
    tState (tmbWith (fun t => t) 1) = tAcquiring := by decide +kernel

/-- A delay measurement; one that no request began; an Announce of a new master on port 1, and one with an interval of 4 s (R435, R439). -/
theorem test_delay_announce :
    let s := tmbWith (fun t => { t with serving := some 0, t1 := 100, t2 := 130, t3 := some 200 }) 1
    (after (.delayResp 0 0 0x77 240) s).tmb.delay = 35 ∧ (after (.delayResp 0 0 0x77 240) s).tmb.t3 = none ∧
    after (.delayResp 0 0 0x77 240) ptpState = ptpState ∧ (after .delayReq s).tmb.t3 = some (mapNs s.tmb 0) ∧ after .delayReq ptpState = ptpState ∧
    ((mgetD (after (.announce 1 0 ⟨0x99, 1, 2, 3, 4, 5, 6, 1, 2⟩) ptpState).tmb.masters 1 []).map fun m => (m.ident, m.annLog, m.timeout)) = [(0x99, 1, 3)] ∧
    fld (wReg (after (.announce 1 0 ⟨0x99, 1, 2, 3, 4, 5, 6, 2, 2⟩) ptpState) tCount) 15 0 = 1 := by decide +kernel

/-- The serving port loses its link, its Announces, its Syncs; hold-over ends after 100 s; PPS edges; alignment words (R438 to R441). -/
theorem test_sources :
    let s := tmbWith (fun t => { t with serving := some 0, isSet := true, p0 := 3 * 1000000000 * (two40 : Int) + 5 }) 2
    let h := tmbWith (fun t => { t with heldFrom := some 0, isSet := true }) 3
    tState s = tLocked ∧ tState (after (.servingPortMove 0) s) = tHoldover ∧ (after (.servingPortMove 1) s).now = 3 * 1600000000 + 1 ∧
    (after (.servingPortMove 2) s).now = 3 * 200000000 ∧ (after (.servingPortMove 2) s).tmb.silent = [0] ∧
    after (.servingPortMove 0) ptpState = ptpState ∧
    tState h = tHoldover ∧ tState (after .holdoverLimit h) = tAdrift ∧ (after .holdoverLimit h).now = 100 * secondCyc ∧
    after .ppsEdge ptpState = ptpState ∧ (after .ppsEdge h).tmb.ppsOn = true ∧
    bit (wReg (after .ppsEdge { h with tmb := { h.tmb with p0 := 400000000 * (two40 : Int) } }) tStatus) 10 = true ∧
    (after .ppsLapse { h with tmb := { h.tmb with ppsOn := true } }).now = 3200000000 ∧ after .ppsLapse h = h ∧
    (after (.alignmentWord false 47 3) h).tmb.lost = [47] ∧ (after (.alignmentWord true 55 (-2)) h).records = [] ∧
    wReg (after .errRecompute State.reset) tErr = 0xFFFFFFFF := by decide +kernel

/-- Clock 15 at 60 Hz with 1000 lines: enabled where the map runs, with BAD where it is UNSET, and its next line 1/60000 s later (R443, R445). -/
def clkState (st en : Word) : State :=
  { ptpState with win := [(0x10000, st), (0x102E0, 60), (0x102E4, 1), (0x102E8, en)], tmb := { Timebase.reset with isSet := true } }

theorem test_clock : clkOn (after (.frameClockEnable 15 0x800003E8) (clkState 2 0)) 15 = true ∧
    bit (wReg (after (.frameClockEnable 15 0x800003E8) (clkState 0 0)) (tClk 15 0x18)) 1 = true ∧
    clkOn (after (.frameClockEnable 15 0x3E8) (clkState 2 0x800003E8)) 15 = false ∧
    clkLines (after (.frameClockEnable 15 0x3E8) (clkState 2 0)) 15 = 1000 ∧
    after (.frameClockEnable 15 0x800003E8) (clkState 2 0x800003E8) = clkState 2 0x800003E8 ∧
    after (.lineStart 15) (clkState 2 0) = clkState 2 0 ∧ (after (.lineStart 15) (clkState 2 0x800003E8)).now = 26666 ∧
    clkPos (after (.lineStart 15) (clkState 2 0x800003E8)) 15 = ⟨0, 1, false⟩ := by decide +kernel

/-- Bookings at the lead of 4,096 cyc, before it, of a launch off its multiple; a cancel in time, too late, of none; SNAP (R446, R455). -/
theorem test_events : let s := { State.reset with tmb := { Timebase.reset with events := [⟨3, .launch 1, 8192⟩] } }
    (after (.eventBook (.launch 1) 4096) State.reset).tmb.events = [⟨0, .launch 1, 4096⟩] ∧
    (after (.eventBook (.launch 1) 0) State.reset).reply = some ⟨1, []⟩ ∧ (after (.eventBook (.launch 1) 8191) State.reset).reply = some ⟨1, []⟩ ∧
    (after (.eventCancel 3) s).tmb.events = [] ∧ (after (.eventCancel 3) { s with now := 4097 }).reply = some ⟨1, []⟩ ∧
    (after (.eventCancel 4) s).reply = some ⟨1, []⟩ ∧ wReg (after .snap State.reset) 0x10038 = 0xA0 := by decide +kernel

/-- Ports with MAC addresses from 0x100 on; port 0 in a given state; a frame of `n` bytes to it. -/
def portIn (st : Word) : State := { State.reset with win := [(0x20004, st)], mod := { Module.reset with mac := 0x100 } }
def frameTo (dst : BitVec 48) (n : Nat) : Frame := ⟨true, n, 0, 0, dst, 0x999, 0x0806, false, none, 0, 0⟩
def brupFrame (op : BitVec 8) : Frame := { frameTo 0x100 64 with etype := 0x0800, ip := some ⟨20, true, false, 44, 0xC0A80001, 0xFFFFFFFF, some 48112, some (op, 7)⟩ }
def roceFrame : Frame := { frameTo 0x100 200 with etype := 0x0800, ip := some ⟨20, true, false, 100, 5, 6, some 4791, none⟩ }

theorem hyp_frames : portState (portIn 3) 0 = poUp ∧ portState (portIn 2) 0 = poQuiet ∧ judgeFrame (portIn 3) 0 (frameTo 0x100 64) = none ∧
    judgeFrame (portIn 3) 0 (frameTo 0x100 9216) = none ∧ judgeFrame (portIn 3) 0 (frameTo 0x107 64) = some 2 ∧
    judgeFrame (portIn 2) 0 (brupFrame 1) = none ∧ judgeFrame (portIn 3) 0 roceFrame = none ∧ portIp (portIn 2) 0 = 0 ∧ rstHeld (portIn 2) = false := by
  decide +kernel

theorem test_frames : let c := fun (f : Frame) (st : Word) (k : Nat) => (wReg (after (.frameReceive 0 f) (portIn st)) (pReg 0 (0x60 + 4 * k))).toNat
    c { frameTo 0x100 64 with fcsOk := false } 3 0 = 1 ∧ c (frameTo 0x100 63) 3 1 = 1 ∧ c (frameTo 0x100 9217) 3 1 = 1 ∧ c (frameTo 0x107 64) 3 2 = 1 ∧
    wReg (after (.frameReceive 0 (frameTo 0x100 64)) (portIn 3)) (pReg 0 0x40) = 1 ∧ c (frameTo 0x100 64) 2 3 = 1 ∧
    c { frameTo 0x100 64 with etype := 0x8808, pause := true } 3 1 = 1 ∧
    after (.frameReceive 0 (frameTo 0x100 64)) (portIn 0) = portIn 0 ∧
    ((after (.frameReceive 0 (brupFrame 4)) (portIn 2)).port 0).brup = [(0xC0A80001, 0)] ∧
    (after (.frameReceive 0 (brupFrame 5)) (portIn 2)).reply = some ⟨1, [7]⟩ ∧
    mgetD ((after (.frameReceive 0 roceFrame) (portIn 3)).port 0).occ (framePrio (portIn 3) 0 roceFrame) 0 = 200 := by decide +kernel

/-- Locks in a device that serves and in one that does not; losses, fences; the announcement; requests without an answer (R458 to R469). -/
theorem test_port_states :
    let brup := { portIn 2 with ports := [(0, { Port.reset with brup := [(5, 100)], repeats := [9, 10] })] }
    let due := { portIn 2 with win := [(8, 0x2000), (0x20004, 2)] }
    let ready := { portIn 1 with hw := { Heartwood.reset with ready := true } }
    let mated := { portIn 4 with mod := { Module.reset with mated := true }, hw := { Heartwood.reset with fenced := [portUnit 0] } }
    portState (after (.linkLock 0) (portIn 1)) 0 = poQuiet ∧ portState (after (.linkLock 0) ready) 0 = poUp ∧
    after (.linkLock 0) (portIn 2) = portIn 2 ∧ portState (after (.linkLoss 0 false) (portIn 3)) 0 = poTraining ∧
    portState (after (.retrain 0) (portIn 0)) 0 = poTraining ∧ after (.retrain 0) (portIn 4) = portIn 4 ∧
    portState (after (.portFence 0) (portIn 3)) 0 = poFenced ∧ portState (after (.unfence 0) mated) 0 = poTraining ∧
    sbdLeaves mated = false ∧ after (.unfence 0) (portIn 3) = portIn 3 ∧
    portState (after .readyAnnouncement due) 0 = poUp ∧ (after .readyAnnouncement due).now = 1600000000 ∧
    after .readyAnnouncement (portIn 2) = portIn 2 ∧ (after (.readyRepeat 0) brup).now = 9 ∧ after (.readyRepeat 0) (portIn 2) = portIn 2 ∧
    (after (.bringupRequestExpire 0 5) brup).now = 16000100 ∧ ((after (.bringupRequestExpire 0 5) brup).port 0).brup = [] ∧
    after (.bringupRequestExpire 0 6) brup = brup := by decide +kernel

/-- Port 0 UP with PFC on priority 3 and a watchdog of 1 ms. -/
def pfcState (k : Port) : State := { portIn 3 with win := [(0x20004, 3), (0x20014, 0x00010008)], ports := [(0, k)] }

theorem test_flow_control :
    let q8 := (List.replicate 8 (0 : BitVec 16)).set 3 9
    let held := pfcState { Port.reset with pauses := [(3, 2000000)], heldBy := [(3, 0)], txq := [(3, [64, 64])] }
    let full := pfcState { Port.reset with pfcNext := [(3, 500)], occ := [(3, 131072)] }
    let grew := pfcState { Port.reset with grown := [(0, 10001)] }
    pfcOn held 0 3 = true ∧ wdCyc held 0 = 1600000 ∧ watchedCounters.contains 0 = true ∧ 0 < pauseEnd (pfcState Port.reset) 0 9 ∧
    mget? ((after (.pfcReceive 0 8 q8) (pfcState Port.reset)).port 0).pauses 3 = some (pauseEnd (pfcState Port.reset) 0 9) ∧
    mget? ((after (.pfcReceive 0 8 (List.replicate 8 0)) held).port 0).pauses 3 = none ∧
    (after (.pauseExpire 0 3) held).now = 2000000 ∧ ((after (.pauseExpire 0 3) held).port 0).txq = [] ∧
    mget? ((after (.pfcRepeat 0 3) full).port 0).pfcNext 3 = some 64500 ∧ after (.pfcRepeat 0 3) held = held ∧
    (after (.pfcWatchdog 0 3) held).now = 1600000 ∧ bit (wReg (after (.pfcWatchdog 0 3) held) (pReg 0 4)) 3 = true ∧
    (wReg (after (.pfcWatchdog 0 3) held) (pReg 0 0x78)).toNat = 2 ∧ after (.pfcWatchdog 0 3) full = full ∧
    (after (.pfcWdRelease 0 3) (pfcState { Port.reset with ignored := [(3, 5)] })).now = 1600005 ∧
    bit (wReg (after (.counterRateCheck 0) grew) (pReg 0 4)) 4 = true ∧ (after (.counterRateCheck 0) full).records = [] := by decide +kernel

/-- Queue pair 5 of port 0, partition 1, remote 9; key 3 lets it write 4 KiB at unit 2 of the memory. -/
def qp5 : Qp := newQp (portIn 3) 1 0x90000 9 6 100 200
def qpState (k : Qp) : State :=
  { portIn 3 with
    hw := { Heartwood.reset with
            parts := [(1, newPart State.reset 0 0 1 1 2 64 0)]
            qps := [(5, k)]
            keys := [(3, ⟨1, unitAddr 2, 4096, false, true, none⟩)] } }
def wrRoce (psn : BitVec 24) (op : BitVec 8) : RocePkt := ⟨op, 5, psn, false, 9, true, false, 100, 0, BitVec.ofNat 64 (unitAddr 2), 0x80100003, 4, 0, [1, 2, 3, 4]⟩

/-- The queue pair's port, remote and key; a PSN that is awaited, one behind and one ahead. -/
theorem hyp_roce : qp5.port = 0 ∧ qp5.remote = 9 ∧ qp5.epsn = 200 ∧ qp5.err = false ∧ keyOk (qpState qp5) qp5 0x80100003 (unitAddr 2) 4 true = true ∧
    keyOk (qpState qp5) qp5 0x80100003 (unitAddr 2) 4097 true = false ∧ psnAhead 199 200 < 8388608 ∧ 8388608 ≤ psnAhead 201 200 ∧
    ¬ (mbxBase ≤ unitAddr 2) ∧ psnAhead 201 200 ≠ 0 := by decide +kernel

theorem test_roce : let ctr := fun (x : RocePkt) (c : Nat) => (wReg (after (.rocePacket 0 x) (qpState qp5)) (pReg 0 (0x60 + 4 * c))).toNat
    ctr { wrRoce 200 10 with qpn := 6 } 7 = 1 ∧ ctr { wrRoce 200 10 with icrcOk := false } 8 = 1 ∧
    (after (.rocePacket 0 (wrRoce 200 10)) (qpState qp5)).net.map (fun p => p.payload) = [[1, 2, 3, 4]] ∧
    ((after (.rocePacket 0 (wrRoce 200 10)) (qpState qp5)).qp 5).map Qp.epsn = some 201 ∧
    ((after (.rocePacket 0 { wrRoce 200 10 with dmaLen := 4097 }) (qpState qp5)).qp 5).map Qp.err = some true ∧
    (after (.rocePacket 0 (wrRoce 199 10)) (qpState qp5)).reply = some ⟨31, [17, 6, 199]⟩ ∧ ctr (wrRoce 201 10) 9 = 1 ∧
    ((after (.rocePacket 0 (wrRoce 101 17)) (qpState { qp5 with una := [⟨100, 64⟩, ⟨102, 64⟩] })).qp 5).map Qp.una = some [⟨102, 64⟩] ∧
    fld (wReg (after (.rocePacket 0 { wrRoce 200 10 with ce := true }) (qpState qp5)) (pReg 0 0x90)) 15 0 = 1 := by decide +kernel

/-- A notification halves the rate; recovery; timeouts with and without retries; a queue pair that is not there (R476, R481, R482). -/
theorem test_qp_timers : let busy := { qp5 with una := [⟨100, 64⟩], left := 1, rnrAt := some 77, sentAt := 1000 }
    ((after (.cnpReceive 5) (qpState qp5)).qp 5).map (fun k => (decide (k.rt = qp5.rc), dyLe k.rc ⟨qp5.rc.num, 1⟩, dyLe ⟨qp5.rc.num, 1⟩ k.rc)) =
      some (true, true, true) ∧
    (after (.rateRecovery 5) (qpState qp5)).now = qp5.rateDue ∧ ((after (.ackTimeout 5) (qpState busy)).qp 5).map Qp.left = some 0 ∧
    ((after (.ackTimeout 5) (qpState { busy with left := 0 })).qp 5).map Qp.synd = some 0xFF ∧ after (.ackTimeout 5) (qpState qp5) = qpState qp5 ∧
    ((after (.rnrTimerExpire 5) (qpState busy)).qp 5).map Qp.rnrAt = some none ∧ after (.cnpReceive 4) (qpState qp5) = qpState qp5 := by decide +kernel

/-- Ring 1 of 64 commands, owned by the device, on queue pair 5, as given. -/
def ring0 : Ring := newRing 0 6 6 false (unitAddr 2) (unitAddr 2) 0 5 0
def ringState (k : Ring) : State := { qpState qp5 with hw := { (qpState qp5).hw with rings := [(1, k)] } }

def nopState : State := { ringState { ring0 with tail := 1 } with stks := (devWrite State.reset (unitAddr 2) (bytesOfWord 1)).stks }
def doneRec : Flight := ⟨0, [1, 0xAB, 0, 0, 0, 0, 0, 0, 0, 0, 0, 0, 0, 0, 0, 0], some (csOk, 0, []), true, none⟩
def evState : State :=
  { ringState { ring0 with events := true } with hw := { (ringState { ring0 with events := true }).hw with events := [⟨evPort, 0, 9, []⟩] } }

/-- TAIL at the ring's size and past it; CHEAD at CPOS and past it; a NOP taken, and an unknown code (R499 to R502). -/
theorem test_doorbells : ((after (.doorbell 1 64) (ringState ring0)).ring 1).map Ring.tail = some 64 ∧
    ((after (.doorbell 1 65) (ringState ring0)).ring 1).map Ring.dbBad = some true ∧
    ((after (.completionDoorbell 1 0) (ringState ring0)).ring 1).map Ring.dbBad = some false ∧
    ((after (.completionDoorbell 1 1) (ringState ring0)).ring 1).map Ring.dbBad = some true ∧ nextRing nopState = some 1 ∧
    ((after .commandTake nopState).ring 1).map (fun k => k.flight.map fun f => (f.pos, f.begun)) = some [(0, false)] ∧
    ((after .commandTake (ringState { ring0 with tail := 1 })).ring 1).map (fun k => k.flight.map fun f => f.done.map Prod.fst) = some [some csBadCode] ∧
    after .commandTake (ringState ring0) = ringState ring0 := by decide +kernel

/-- The completion of a NOP with its code, phase and tag; an event of a port with number 1 (R503, R538). -/
theorem test_completions :
    (after (.completionWrite 1) (ringState { ring0 with head := 1, tail := 1, flight := [doneRec] })).reply.map (fun r => (r.status, r.words.take 4)) =
      some (csOk, [0x80000001, 0xAB, 0, 0]) ∧
    after (.completionWrite 1) (ringState ring0) = ringState ring0 ∧
    (after .eventReport evState).reply.map (fun r => r.words.take 5) = some [0x8000FFFF, 0, 1, 9, BitVec.ofNat 32 evPort] ∧
    after .eventReport (ringState ring0) = ringState ring0 := by decide +kernel

/-- An old key that goes at its time, an ephemeral key that was not used (R718, R720). -/
theorem test_keys :
    let s := { ringState ring0 with hw := { (ringState ring0).hw with parts := [(1, { newPart State.reset 0 0 1 1 2 64 0 with oldKey := some ([], 50) })] } }
    (after (.oldKeyErase 1) s).now = 50 ∧ ((after (.oldKeyErase 1) s).hpart 1).map Partn.oldKey = some none ∧
    after (.oldKeyErase 2) s = s ∧ after (.ephemeralKeyExpire 1) s = s := by decide +kernel

/-! ### Commands of the mailbox (DeviceCommandsEnd to AttestationEnds)

A record stands at position 0 of ring 1, of 16 words, from words given by their index. A command checks its record before it acts, in the
order of R497, so that an end with OK shows that every check passes. -/

def rec16 (l : List (Nat × Word)) : List Word := (List.range 16).map fun i => mgetD l i 0
def mb (s : State) (l : List (Nat × Word)) : State :=
  { s with hw := { s.hw with rings := mset s.hw.rings 1 { ring0 with head := 1, tail := 1, flight := [⟨0, rec16 l, none, false, none⟩] } } }
def endOf (s : State) : Option (Nat × Word × List Word) := ((s.ring 1).bind fun k => k.flight.head?).bind Flight.done
def ends (x : Fin 16384 → Word → Instr) (s : State) : Option Nat := (endOf (after (x 1 0) s)).map Prod.fst
def low (a : Nat) : Word := BitVec.ofNat 32 a
def high (a : Nat) : Word := BitVec.ofNat 32 (a / 2 ^ 32)

/-- Partition 1, with queue pair 5, key 3 over 4 KiB at unit 2, and buffer 4 of 4 KiB at unit 3. -/
def mbBase : State := { qpState qp5 with hw := { (qpState qp5).hw with bufs := [(4, ⟨1, unitAddr 3, 4096, none⟩)] } }
def b4 : Word := 0x50100004
def p1 : Word := 0x10100001
def headed (s : State) (ws : List Word) : State := putHeader s ⟨1, unitAddr 3, 4096, none⟩ ws

/-- A record that stands, one of another code, a reserved bit of word 0. -/
theorem test_records : ends .nop (mb mbBase [(0, 1)]) = some csOk ∧ endOf (after (.nop 1 0) (mb mbBase [(0, 2)])) = none ∧
    ends .nop (mb mbBase [(0, 0x80000001)]) = some csBadArg ∧ badWord0 (rec16 [(0, 1)]) = false := by decide +kernel

theorem test_device_commands : ends .queryDevice (mb mbBase [(0, 2)]) = some csOk ∧
    ((endOf (after (.queryDevice 1 0) (mb mbBase [(0, 2)]))).map fun e => e.2.2.length) = some 10 ∧
    ends .readRegs (mb mbBase [(0, 3), (2, 0x100), (4, low windowBase), (5, high windowBase)]) = some csOk ∧
    ends .readRegs (mb mbBase [(0, 3), (2, 0xC02), (3, 55), (4, 0x18)]) = some csOk := by decide +kernel

/-- The address of port 0 written; a register that R524 does not list. -/
theorem test_write_regs : let a := windowBase + pReg 0 0x10
    let s := mb mbBase [(0, 4), (2, 0x100), (4, low a), (5, high a), (6, 0xC0A80002)]
    ends .writeRegs s = some csOk ∧ portIp (after (.writeRegs 1 0) s) 0 = 0xC0A80002#32 ∧
    ends .writeRegs (mb mbBase [(0, 4), (2, 0x100), (4, low (a - 4)), (5, high a)]) = some csDenied := by decide +kernel

theorem test_host_buffers : let s := mb mbBase [(0, 0x18), (2, p1), (3, low (unitAddr 4)), (4, high (unitAddr 4)), (5, 128)]
    let d := mb mbBase [(0, 0x19), (2, b4)]
    let rel := fun ws => mb (headed mbBase ws) [(0, 0x1A), (2, b4), (3, 7)]
    ends .createBuffer s = some csOk ∧ mget? (after (.createBuffer 1 0) s).hw.bufs 0 = some ⟨1, unitAddr 4, 128, none⟩ ∧
    ends .destroyBuffer d = some csOk ∧ mget? (after (.destroyBuffer 1 0) d).hw.bufs 4 = none ∧
    ends .destroyBuffer (mb (headed mbBase [2]) [(0, 0x19), (2, b4)]) = some csInUse ∧
    ends .releaseBuffer (rel [2, 7]) = some csOk ∧ ends .releaseBuffer (rel [1, 7]) = some csInUse ∧ ends .releaseBuffer (rel [3, 8]) = some csStale ∧
    hdrState (bufHeader (after (.releaseBuffer 1 0) (rel [3, 7])) ⟨1, unitAddr 3, 4096, none⟩) = bIdle := by decide +kernel

/-- Clock 15 set; enabled while the map is UNSET; set while it is enabled (R532). -/
theorem test_set_frame_clock : let f := fun (s : State) (w : Word) => mb s [(0, 0x23), (2, 15), (3, 60), (4, 1), (5, w)]
    ends .setFrameClock (f mbBase 0x3E8) = some csOk ∧ clkLines (after (.setFrameClock 1 0) (f mbBase 0x3E8)) 15 = 1000 ∧
    ends .setFrameClock (f mbBase 0x800003E8) = some csBadArg ∧
    clkLines (after (.setFrameClock 1 0) (f { mbBase with win := (0x102E8, 0x80000005) :: mbBase.win } 0x3E8)) 15 = 5 := by decide +kernel

theorem test_rings : let a := unitAddr 2
    let c := mb mbBase [(0, 0x28), (2, 0x66), (3, p1), (4, low a), (5, high a), (6, 0x80100003), (10, 0x70100005)]
    let d := mb { mbBase with hw := { mbBase.hw with rings := [(2, ring0)] } } [(0, 0x29), (2, 0x30100002)]
    ends .createRing c = some csOk ∧ ((after (.createRing 1 0) c).ring 2).map Ring.cmd = some a ∧
    ends .destroyRing d = some csOk ∧ (after (.destroyRing 1 0) d).ring 2 = none ∧ genOf (after (.destroyRing 1 0) d) hRing 2 = 2 := by decide +kernel

/-- A queue pair of a partition and one of the device; keys of both; their ends. -/
theorem test_qps_and_keys : let c := fun (h : Word) => mb mbBase [(0, 0x38), (2, h), (3, 0x46), (4, 0xC0A80003), (6, 0xFFFFFF), (7, 0xFFFFFF)]
    let d := mb { mbBase with hw := { mbBase.hw with qps := [(4, qp5), (5, qp5)] } } [(0, 0x39), (2, 0x70100004)]
    let g := fun (h : Word) (a : Nat) => mb mbBase [(0, 0x3A), (2, h), (3, low a), (4, high a), (5, 1), (7, 3)]
    let e := mb mbBase [(0, 0x3B), (2, 0x80100003)]
    ends .createQp (c p1) = some csOk ∧ ((after (.createQp 1 0) (c p1)).qp 2).map (fun q => (q.part, q.port, q.psn)) = some (1, 6, 0xFFFFFF) ∧
    ends .createQp (c 0) = some csOk ∧ qpInUse d 4 = false ∧ ends .destroyQp d = some csOk ∧ (after (.destroyQp 1 0) d).qp 4 = none ∧
    ends .registerMemory (g p1 (unitAddr 2)) = some csOk ∧ ends .registerMemory (g 0 (unitAddr 159)) = some csOk ∧
    mget? (after (.registerMemory 1 0) (g p1 (unitAddr 2))).hw.keys 0 = some ⟨1, unitAddr 2, 1, true, true, none⟩ ∧
    ends .deregisterMemory e = some csOk ∧ mget? (after (.deregisterMemory 1 0) e).hw.keys 3 = none := by decide +kernel

/-- A channel from core 0 to core 15, its ring at 128 with 256 bytes; one open on a pair of endpoints, closed; to the sender itself. -/
def chanState : State := { mbBase with regions := [(0, { Region.reset with part := 1 })] }

theorem test_channels : let w := fun (d : Nat) => mb chanState [(0, 0x30), (2, p1), (3, low (d * 16384)), (4, 128 + 0x2000000), (5, 64)]
    let c := mb { chanState with hw := { chanState.hw with chans := [(9, ⟨1, 0, 3, 15, 4, none, false⟩)] } } [(0, 0x31), (2, 0x40100009)]
    ends .openChannel (w 15) = some csOk ∧ mget? (after (.openChannel 1 0) (w 15)).hw.chans 0 = some ⟨1, 0, 0, 15, 0, none, false⟩ ∧
    epRole ((after (.openChannel 1 0) (w 15)).core 15) 0 = roleRecv ∧ ends .openChannel (w 0) ≠ some csOk ∧
    ends .closeChannel c = some csOk ∧ mget? (after (.closeChannel 1 0) c).hw.chans 9 = none := by decide +kernel

/-- Window 63 with queue pair 5 twice; its last page; its end (R537). -/
theorem test_windows : let m := mb mbBase [(0, 0x40), (2, 63), (3, 0x70100005), (4, 0x70100005)]
    let w : State := { mbBase with hw := { mbBase.hw with wins := [(63, ⟨1, 5, 5, []⟩)] } }
    let pg := mb (devWrite w (unitAddr 3) (bytesOfWord 0x12345678)) [(0, 0x41), (2, 0xA010003F), (3, 0xFFFFFF), (4, 1), (5, low (unitAddr 3)), (6, high (unitAddr 3))]
    let u := mb w [(0, 0x42), (2, 0xA010003F)]
    ends .mapWindow m = some csOk ∧ ends .mapPages pg = some csOk ∧
      (mget? (after (.mapPages 1 0) pg).hw.wins 63).map (fun x => mget? x.pages 0xFFFFFF) = some (some 0x12345678) ∧
      ends .unmapWindow u = some csOk ∧ mget? (after (.unmapWindow 1 0) u).hw.wins 63 = none := by decide +kernel

/-- A program of one section of 4,096 cyc and one plan of 64 bytes, loaded as program 0; session 7 on clock 15 at 60 Hz with 1000 lines. -/
def img1 : ProgImage :=
  { regions := 1, mode := bnat (remapMode 1), kmin := 0, secs := [⟨4096, 0, true, [], []⟩], plans := [⟨[0], 64⟩], binds := [], edges := []
    pours := [], groups := [], outs := [], keeps := [] }
def partMb (k : Partn) : State := { mbBase with hw := { mbBase.hw with parts := [(1, k)] } }
def part1 : Partn := { newPart State.reset 0 0 1 1 2 64 64 with liveAt := 0 }
def sess (used : Nat) (k : Partn) : State :=
  let b := partMb k
  { b with
    win := [(0x10000, 2), (0x102E0, 60), (0x102E4, 1), (0x102E8, 0x800003E8)], tmb := { Timebase.reset with isSet := true }
    hw := { b.hw with progs := [(0, ⟨1, img1, [], [], none⟩)], sessions := [(7, ⟨1, 0, 15, 0, 2, used, none⟩)] } }
def subm (s : State) (frame : Word) : State := mb s [(0, 0x22), (2, 0x20100007), (3, b4), (8, frame)]

theorem test_partitions : let o := mb mbBase [(0, 0x10), (2, 0x441), (3, 16), (4, 1)]
    let c := mb { mbBase with hw := { mbBase.hw with bufs := [] } } [(0, 0x11), (2, p1)]
    ends .openPartition o = some csOk ∧ ((after (.openPartition 1 0) o).hpart 2).map (fun g => (g.col0, g.unit0, g.units)) = some (1, 66, 16) ∧
    ((after (.openPartition 1 0) o).region 1).part = 2 ∧
    ends .closePartition c = some csOk ∧ (after (.closePartition 1 0) c).hpart 1 = none := by decide +kernel

/-- A program without pours, and one with a pour that it then waits for. -/
theorem test_load_program : let s := mb (partMb part1) [(0, 0x12), (2, p1), (3, low (unitAddr 3)), (4, high (unitAddr 3)), (5, 1)]
    let i2 := { img1 with pours := [⟨5, 1, 0, unitAddr 4, List.replicate 32 0, [0]⟩] }
    ends (fun r p => .loadProgram r p img1) s = some csOk ∧ ((mget? (after (.loadProgram 1 0 img1) s).hw.progs 0).map Program.img) = some img1 ∧
    ends (fun r p => .loadProgram r p i2) s = none ∧
    ((mget? (after (.loadProgram 1 0 i2) s).hw.progs 0).map fun q => (q.waits, q.cmd)) = some ([pourKey 1 5], some (1, 0)) := by decide +kernel

theorem test_checks_sessions : let c := mb (partMb part1) [(0, 0x14), (2, p1), (4, 77)]
    let o := mb { sess 0 part1 with hw := { (sess 0 part1).hw with sessions := [] } } [(0, 0x20), (2, p1), (3, 0x90100000), (4, 15), (5, 1024)]
    let d := fun (n : Nat) => mb (sess n part1) [(0, 0x21), (2, 0x20100007)]
    ends .setChecks c = some csOk ∧ ((after (.setChecks 1 0) c).hpart 1).map (fun g => g.checks.job) = some 77 ∧
    ends .openSession o = some csOk ∧ mget? (after (.openSession 1 0) o).hw.sessions 0 = some ⟨1, 0, 15, 0, 1024, 0, none⟩ ∧
    ends .closeSession (d 0) = some csOk ∧ mget? (after (.closeSession 1 0) (d 0)).hw.sessions 7 = none ∧
    ends .closeSession (d 1) = none ∧ (mget? (after (.closeSession 1 0) (d 1)).hw.sessions 7).map Session.ending = some (some (1, 0)) := by decide +kernel

/-- A request admitted for frame 1; shed for frame 0, for want of a credit, in a recovery, and beyond the horizon (R527). -/
theorem test_submit : let t := after (.submit 1 0) (subm (sess 0 part1) 1)
    ends .submit (subm (sess 0 part1) 1) = none ∧ (t.hpart 1).map (fun g => g.reqs.map fun e => (e.launches, e.barriers, e.buf)) = some [([16384], [20480], 4)] ∧
    (mget? t.hw.sessions 7).map Session.used = some 1 ∧ ends .submit (subm (sess 0 part1) 0) = some csLate ∧
    ends .submit (subm (sess 2 part1) 1) = some csBusy ∧ ends .submit (subm (sess 0 { part1 with recov := 1 }) 1) = some csBusy ∧
    ends .submit (subm (sess 0 { part1 with free := 64 * 4096 }) 1) = some csBusy := by decide +kernel

/-! #### Health -/

def act (n : Word) (k : Partn) (l : List (Nat × Word)) : State := mb (partMb k) ([(0, 0x13), (2, p1), (3, n)] ++ l)
def got (x : Fin 16384 → Word → Instr) (s : State) (f : Partn → α) : Option α := ((after (x 1 0) s).hpart 1).map f

theorem test_actions : got .resetPartitionRollback (act 0 part1 []) (fun g => (g.recov, g.haltAt, g.waiters)) = some (1, some 16384, [(1, 0, csFailed)]) ∧
    ends .resetPartitionReset (act 1 { part1 with halted := true, recov := 3 } []) = some csOk ∧
    got .resetPartitionReset (act 1 { part1 with halted := true, recov := 3, committed := 4 } []) (fun g => (g.recov, g.halted, g.step)) = some (0, false, 5) ∧
    ends .resetPartitionQuench (act 2 part1 []) = some csOk ∧ got .resetPartitionQuench (act 2 part1 []) Partn.heldJob = some true ∧
    ends .resetPartitionPeers (act 3 part1 [(4, 0x70100005), (12, 60000)]) = some csOk ∧
    got .resetPartitionPeers (act 3 part1 [(4, 0x70100005), (12, 60000)]) (fun g => (g.peers, g.liveMs)) = some ([5], 60000) ∧
    got .resetPartitionAdmit (act 4 { part1 with peers := [5] } [(4, 0x70100005), (5, 1)]) (fun g => g.joiner.map Admission.until_) = some (some 1600000) ∧
    ends .resetPartitionResume (act 5 part1 []) = some csDenied ∧ ends .resetPartitionResume (act 5 { part1 with heldJob := true } []) = some csOk := by
  decide +kernel

/-- Port 7 fenced; heartwood 0 where the other is fenced is the last one. -/
theorem test_fence_unit : let f := fun (u : Word) => mb mbBase [(0, 0x48), (2, u)]
    ends .fenceUnit (f (portUnit 7)) = some csOk ∧ portState (after (.fenceUnit 1 0) (f (portUnit 7))) 7 = poFenced ∧
    lastHeart { mbBase with hw := { mbBase.hw with fenced := [heartUnit 1] } } (heartUnit 0) = true ∧ unitKind (portUnit 7) = uPort ∧
    coreUnit 0 ∈ (after (.fenceUnit 1 0) (f (coreUnit 0))).hw.fenced := by decide +kernel

/-- A core outside every partition tested; a fenced core let in again, or not; a record of 4 bytes of a core read; 32 samples (R628). -/
def testRec (s : State) (u n w4 : Word) : State := mb s [(0, 0x49), (2, u), (3, n), (4, w4), (5, b4)]

theorem test_units : let u := coreUnit (272 * 47 + 271)
    let fenced := { mbBase with hw := { mbBase.hw with fenced := [u] } }
    let pm := { mbBase with hw := { mbBase.hw with pms := [(3, ⟨0, [], []⟩)] } }
    unitInUse mbBase u = false ∧
    endOf (after (.testUnitTest 1 0 ⟨false, 12, 3⟩) (testRec mbBase u 0 0)) = some (csOk, 0, [1, 12, 3]) ∧
    endOf (after (.testUnitReadmit 1 0 ⟨true, 12, 0⟩) (testRec fenced u 1 0)) = some (csOk, 0, [0, 12, 0]) ∧
    (after (.testUnitReadmit 1 0 ⟨true, 12, 0⟩) (testRec fenced u 1 0)).hw.fenced = [] ∧
    (after (.testUnitReadmit 1 0 ⟨false, 12, 1⟩) (testRec fenced u 1 0)).hw.fenced = [u] ∧
    ends .testUnitReadPm (testRec pm u 2 3) = some csOk ∧ ends .testUnitSamples (testRec mbBase u 3 32) = some csOk ∧
    ((after (.testUnitSamples 1 0) (testRec mbBase (coreUnit 0) 3 1)).hpart 1).map (fun g => g.samples.length) = some 1 := by decide +kernel

/-! #### Attestation -/

def attest (s : State) (n : Word) : State := mb s [(0, 0x50), (2, n), (3, p1), (4, b4)]

/-- The log to a buffer; a job key for a report that was never made; a report (its keys and its signature are uninterpreted, so that only
the checks are decided, below) (R715 to R720). -/
theorem test_attest : endOf (after (.attestLog 1 0) (attest mbBase 2)) = some (csOk, 0, [0, 0]) ∧ ends .attestJobKey (attest mbBase 1) = some csStale ∧
    lifeCycle mbBase.mod = 2 ∧ keyStale mbBase 1 none = true ∧
    keyStale { mbBase with hw := { mbBase.hw with reports := 1 } } 1 (some ⟨1, [], [], 0, false, false⟩) = false := by decide +kernel

/-- The checks of a report pass: its record, handles, life cycle, and a buffer that is IDLE and long enough. -/
theorem hyp_attest_report : attests 0 (rec16 [(0, 0x50), (3, p1), (4, b4)]) = true ∧ handleCheck mbBase hPart p1 = csOk ∧
    handleCheck mbBase hBuffer b4 = csOk ∧ lifeCycle mbBase.mod = 2 ∧ hdrState (bufHeader mbBase ⟨1, unitAddr 3, 4096, none⟩) = bIdle ∧
    64 + 2048 ≤ 4096 ∧ attestPart (rec16 [(3, p1)]) = 1 := by decide +kernel

/-! ### Steps, integrity and health (SealsAndReportsAct to ResetsAndMovesAct) -/

/-- A tag under the partition's key holds, whatever KMAC256 is. -/
theorem tag_holds (s : State) (k : Partn) (key body : List Byte) (n : Nat) (c : String) (hk : k.key = some key) (hn : body.length = n) :
    tagOk s k (body ++ Config.kmac256 key body 32 c) n c = true := by
  simp [tagOk, hk, ← hn, Config.kmac256, Config.sized]

/-- Partition 1 with a state of its own. -/
def pSt (k : Partn) : State := partMb k
def aft (x : Instr) (k : Partn) (f : Partn → α) : Option α := ((after x (pSt k)).hpart 1).map f
def seal1 (k : Partn) (sus : Bool) : State := { pSt k with seals := [(1, 0, k.sealed + 1, sus)] }

theorem test_seals : let sus := { part1 with seals := [(0, true)], sealAt := some 5 }
    after (.sealReceive 1 0) (pSt part1) = pSt part1 ∧ partRegions part1 = [0] ∧
    (after (.sealReceive 1 1) { pSt part1 with seals := [(1, 1, 1, false)] }).hpart 1 ≠ (pSt part1).hpart 1 ∧
    ((after (.sealReceive 1 0) (seal1 part1 false)).hpart 1).map (fun g => (g.committed, g.sealed, g.seals, g.runs)) = some (1, 1, [], 1) ∧
    explained part1.now_ 0 = false ∧
    ((after (.sealReceive 1 0) (seal1 part1 true)).hpart 1).map (fun g => (g.sealAt, g.sealed)) = some (some 0, 0) ∧
    after (.suspectCauseTimeout 1) (pSt part1) = pSt part1 ∧
    aft (.suspectCauseTimeout 1) sus (fun g => (g.recov, g.haltAt, g.committed)) = some (1, some (5 + 1048576 + 16384), 0) ∧
    wReg (after (.suspectCauseTimeout 1) (pSt sus)) iReruns = 1 := by decide +kernel

theorem test_assay_report : let t := after (.assayReport 0 0x12300007) State.reset
    (t.region 0).suspect = true ∧ t.records = [⟨.assay, 0, [7, 0x123]⟩] ∧ fld (cReg (t.core 0) 0xC10) 31 16 = 1 ∧
    (State.reset.coreNow 0).recs = [] ∧ (State.reset.coreNow 0).lastRec = none := by decide +kernel

/-- A FLEET partition of three replicas, replica 1, with peers on queue pairs 5 and 6, N = 3. -/
def fleet (r : Option Round) : Partn :=
  { part1 with checks := { Checks.none with cls := 1, replica := 1, nrep := 3, hmN := 3, peers := [5, 6], job := 9 }, key := some [1], round := r, step := 6 }

theorem test_hallmark : aft (.hallmarkRound 1) (fleet none) Partn.round = some (some ⟨0, 5, none, false⟩) ∧
    aft (.hallmarkRound 1) (fleet (some ⟨4, 2, some 7, true⟩)) Partn.round = some (some ⟨5, 5, none, false⟩) ∧
    after (.hallmarkRound 1) (pSt (fleet (some ⟨4, 3, some 7, true⟩))) = pSt (fleet (some ⟨4, 3, some 7, true⟩)) ∧
    after (.hallmarkRound 1) (pSt part1) = pSt part1 ∧ after (.hallmarkRound 2) (pSt part1) = pSt part1 ∧
    after (.hallmarkVote 1) (pSt (fleet (some ⟨4, 3, none, false⟩))) = pSt (fleet (some ⟨4, 3, none, false⟩)) ∧
    (after (.hallmarkVote 1) (pSt (fleet (some ⟨4, 3, some 7, false⟩)))).now = 1600000007 ∧
    aft (.hallmarkVote 1) (fleet (some ⟨4, 3, some 7, false⟩)) Partn.round = some (some ⟨4, 3, some 7, true⟩) := by decide +kernel

/-- The digest of the round's slice, whatever SHAKE256 is (R564). -/
theorem test_digest_done : after (.hallmarkDigestDone 1) (pSt (fleet (some ⟨4, 3, some 7, false⟩))) = pSt (fleet (some ⟨4, 3, some 7, false⟩)) ∧
    after (.hallmarkDigestDone 1) (pSt part1) = pSt part1 := by decide +kernel

/-- A message of a peer: TYPE, replica and job as given. -/
def msgOf (body key : List Byte) (c : String) : List Byte := body ++ Config.kmac256 key body 32 c
def intBody (ty who flags job serial index : Nat) : List Byte :=
  bytesLe 1 ty ++ bytesLe 1 who ++ bytesLe 1 flags ++ [0] ++ bytesLe 4 job ++ bytesLe 8 serial ++ bytesLe 4 index ++ List.replicate 44 0

/-- DIGEST and EXPEL from replica 0 on queue pair 5: every premise holds (R564, R565, R568). -/
theorem hyp_integrity (ty : Nat) (h : ty = 1 ∨ ty = 2) (idx : Nat) (hi : idx = 1 ∨ idx = 0) :
    tagOk (pSt (fleet none)) (fleet none) (msgOf (intBody ty 0 0 9 4 idx) [1] juIntegrity) 64 juIntegrity = true :=
  tag_holds _ _ _ _ _ _ rfl (by rcases h with rfl | rfl <;> rcases hi with rfl | rfl <;> decide +kernel)

theorem hyp_fields : let m := intBody 2 0 0 9 4 1
    msgNat m 0 1 = 2 ∧ msgNat m 1 1 = 0 ∧ msgNat m 4 4 = 9 ∧ msgNat m 8 8 = 4 ∧ msgNat m 16 4 = 1 ∧ replicaOf (fleet none) 5 = some 0 ∧
    (((pSt (fleet none)).qp 5).map Qp.part) = some 1 := by decide +kernel

/-- Messages without a partition, of another type, or too short, counted and dropped. -/
theorem test_bad_messages : fld (wReg (after (.digest 5 []) (pSt (fleet none))) iAuth) 15 0 = 1 ∧
    fld (wReg (after (.expel 9 []) (pSt (fleet none))) iAuth) 15 0 = 1 ∧ fld (wReg (after (.tsReq 9 [] []) (pSt (fleet none))) iAuth) 15 0 = 1 ∧
    fld (wReg (after (.tsResult 9 []) (pSt (fleet none))) iAuth) 15 0 = 1 := by decide +kernel

/-- A MASTER partition with step 4 held for its touchstone on queue pair 5. -/
def held4 (busy : Bool) (ans : Option (List Byte)) : Partn :=
  { part1 with
    checks := { Checks.none with cls := 2, tsQp := 5, job := 9, tsWait := 1 }
    touch := some ⟨4, 0, List.replicate 32 7, 10, 20, busy, ans⟩, later := [(5, true)] }

theorem test_touchstone : after (.tsRetry 1) (pSt (held4 false none)) = pSt (held4 false none) ∧
    (after (.tsRetry 1) (pSt (held4 true none))).now = 16000020 ∧ aft (.tsRetry 1) (held4 true none) (fun g => g.touch.map Touch.busy) = some (some false) ∧
    after (.tsTimeout 1) (pSt (held4 false (some []))) = pSt (held4 false (some [])) ∧ 1600010 ≤ (after (.tsTimeout 1) (pSt (held4 false none))).now ∧
    aft (.tsTimeout 1) (held4 false none) (fun g => (g.touch, g.later)) = some (none, []) ∧
    fld (wReg (after (.tsTimeout 1) (pSt (held4 false none))) iTouch) 31 24 = 1 ∧ after (.tsRetry 1) (pSt part1) = pSt part1 := by decide +kernel

/-- TS_RESULT of step 4 with BUSY, DONE and FAILED, and TS_REQ for plan 0 with 0 bytes: every premise holds (R572, R573). -/
theorem hyp_touch (ty flags : Nat) (k : Partn) (hk : k.key = some [1]) (h : (bytesLe 1 ty).length = 1) (h2 : (bytesLe 1 flags).length = 1) :
    tagOk (pSt k) k (msgOf (intBody ty 0 flags 9 4 0) [1] juIntegrity) 64 juIntegrity = true := by
  refine tag_holds _ _ _ _ _ _ hk ?_
  have e : (bytesLe 1 0).length = 1 ∧ (bytesLe 4 9).length = 4 ∧ (bytesLe 8 4).length = 8 ∧ (bytesLe 4 0).length = 4 := by decide
  simp [intBody, h, h2, e]

theorem hyp_status : let st := fun (flags : Nat) => msgNat (intBody 4 0 flags 9 4 0) 2 1 / 2 % 8
    st (2 * tsBusy) = tsBusy ∧ st (2 * tsDone) = tsDone ∧ st (2 * tsSpace) = tsSpace ∧ tsSpace ≠ tsBusy ∧ tsSpace ≠ tsDone ∧
    msgNat (intBody 4 0 0 9 4 0) 8 8 = 4 ∧ ((intBody 4 0 0 9 4 0).drop 32).take 32 ≠ List.replicate 32 7 ∧
    (let s := sess 0 { part1 with checks := { Checks.none with serve := true, mib := 1 } }
     (replayPlan s 1 0).map (fun e => (e.1, e.2.isEmpty)) = some (0, false) ∧
     (planTimes ((replayPlan s 1 0).getD (0, [])).2 16384).1.headD 0 < s.now + 64 * 4096) := by decide +kernel

/-! #### Detectors and heartwoods -/

/-- Heartbeats; burnish in region 1, whose core 0 has item 10's last piece behind it, or its first (R585, R590 to R595). -/
def burnAt (item piece : Nat) : State := { State.reset with burn := [(1, ⟨0, item, piece, 100, 0, 0, []⟩)] }

theorem test_heartbeats : (after (.regionHeartbeat 47) State.reset).records = [⟨.heartbeat, 47, []⟩] ∧
    after (.regionHeartbeat 47) { State.reset with win := [(0x42F20, 0xC00)] } = { State.reset with win := [(0x42F20, 0xC00)] } ∧
    (after (.baseDieHeartbeat 55) State.reset).records = [⟨.baseBeat, 55, []⟩] ∧
    (after (.heartbeatLoss true 55) State.reset).hw.fenced = [stackUnit 55] ∧ 3145728 ≤ (after (.heartbeatLoss false 47) State.reset).now ∧
    (after (.heartbeatLoss false 48) State.reset) = State.reset := by decide +kernel

theorem test_burnish : logCore (burnAt 10 63) 272 = some 16 ∧ itemPieces 10 = 64 ∧
    mget? (after (.burnishPiece 1 true true []) (burnAt 10 63)).burn 1 = some ⟨0, 10, 63, 100, 0, 0, []⟩ ∧
    mget? (after (.burnishPiece 1 false true []) (burnAt 10 62)).burn 1 = some ⟨0, 10, 63, 100, 0, 0, []⟩ ∧
    mget? (after (.burnishPiece 1 false true []) (burnAt 5 0)).burn 1 = some ⟨0, 6, 0, 100, 0, 0, []⟩ ∧
    fld (cReg ((after (.burnishPiece 1 false true []) (burnAt 10 63)).core 16) 0x108) 31 16 = 1 ∧
    coreUnit 272 ∈ (after (.burnishPiece 1 false false [true, false]) (burnAt 3 0)).hw.fenced ∧
    (after (.burnishTimeout 1) (burnAt 3 0)).now = 160000100 ∧ fld (cReg ((after (.burnishTimeout 1) (burnAt 3 0)).core 16) 0x108) 15 8 = 1 := by
  decide +kernel

theorem test_rootstock_patina : let w := { State.reset with win := [(0x200104, 0x2FFFF), (0x200108, 255)] }
    rstkState (after (.rootstockMarch 5 false) State.reset) 5 = rstkAbsent ∧ after (.rootstockMarch 5 true) State.reset = State.reset ∧
    fld (wReg (after .patinaDecay w) 0x200104) 15 0 = 65280 ∧ fld (wReg (after .patinaDecay w) 0x200108) 15 0 = 255 := by decide +kernel

theorem test_heartwoods : let dead := { State.reset with hw := { Heartwood.reset with dead := [1] } }
    let turned := { State.reset with win := [(0x200000, 1)], hw := { Heartwood.reset with turned := true, ready := true } }
    (after .beat State.reset).now = 1600000 ∧ fld (wReg (after .beat State.reset) 0x200000) 15 8 = 1 ∧
    after (.latchChange true) dead = dead ∧ activeHw (after (.latchChange false) State.reset) = 1 ∧ (after (.latchChange false) State.reset).now = 8000000 ∧
    after .takeover State.reset = State.reset ∧ heartUnit 0 ∈ (after .takeover turned).hw.fenced ∧ (after .takeover turned).hw.annSeq = 1 ∧
    after .heartwoodLost turned = turned ∧ bit (regRaw sidebandRegs (after .heartwoodLost State.reset).mod.sbd 8) 1 = true ∧
    (after .heartwoodLost State.reset).now = 88000000 := by decide +kernel

/-! #### Resets and moves -/

theorem test_halts : let h := { part1 with haltAt := some 500, committed := 3, step := 6 }
    (after (.halt 1) (pSt h)).now = 500 ∧ aft (.halt 1) h (fun g => (g.halted, g.committed)) = some (true, 3) ∧
    ((after (.halt 1) (pSt h)).core 0).idle = true ∧
    aft (.halt 1) { h with recov := 1 } (fun g => (g.halted, g.haltAt, g.recov, g.step)) = some (false, none, 0, 4) ∧
    after (.halt 1) (pSt part1) = pSt part1 ∧ after (.recoveryRestart 1) (pSt part1) = pSt part1 ∧
    aft (.recoveryRestart 1) { h with recov := 3, restarts := 2 } (fun g => (g.recov, g.restarts)) = some (3, 3) ∧
    aft (.recoveryRestart 1) { h with recov := 3, restarts := 3 } (fun g => (g.heldJob, g.restarts)) = some (true, 0) ∧
    aft (.partitionReset 1) part1 id = some part1 ∧ ((after (.partitionReset 1) (pSt part1)).core 0).awaiting = true := by decide +kernel

theorem test_unit_resets : let s := onCore (Core.reset)
    fld (wReg (after (.coreReset 0) s) 0x200004) 7 0 = 1 ∧ ((after (.coreReset 0) s).core 0).awaiting = true ∧
    fld (wReg (after (.clusterReset 1 3 3) State.reset) 0x200004) 15 8 = 1 ∧ clusterCores State.reset 1 3 3 ≠ [] ∧
    (after .deviceReset (pSt part1)).hw.parts = [] ∧ portState (after .deviceReset (portIn 3)) 0 = poQuiet ∧
    coreUnit (physCore State.reset 10751) ∈ (after (.resetEscalate 0 10751) State.reset).hw.fenced ∧
    (after (.resetEscalate 1 767) State.reset).hw.fenced ≠ [] ∧ (after (.resetEscalate 2 0) (pSt part1)).hw.parts = [] ∧
    (after (.resetEscalate 3 0) State.reset).hw.fault = true ∧ portState (after (.resetEscalate 3 0) State.reset) 7 = poFenced := by decide +kernel

/-- Partition 1 stands on physical region 0, the rootstock of row 0 on region 7; region 8 is a rootstock under test. -/
def rowSet (w : Word) (s : State) : State := { s with win := (rowReg 1, w) :: s.win }

theorem test_grafts : let acts := { State.reset with win := [(0x20010C, 0x20000)] }
    let dead := { pSt { part1 with recov := 2 } with hw := { (pSt { part1 with recov := 2 }).hw with fenced := [regionUnit 0] } }
    let test := rowSet 0x108 State.reset
    partOfPhys (pSt part1) 0 = some 1 ∧ canGraft State.reset 7 = false ∧ canGraft State.reset 3 = true ∧ regionActs acts 3 = true ∧
    after (.graft 7) State.reset = State.reset ∧ partOfPhys acts 3 = none ∧
    deadRegion dead 0 = true ∧ canGraft dead 0 = true ∧
    after (.regionTestDone 1 true) State.reset = State.reset ∧ rstkCol test 1 = 0 ∧ rstkState test 1 = rstkPending ∧
    rstkState (after (.regionTestDone 8 false) test) 1 = rstkAbsent ∧ breaksR26 (regionBad test 8) 8 = false ∧
    rstkState (after (.regionTestDone 8 true) test) 1 = rstkIntact ∧ physFenced (after (.regionTestDone 8 true) test) 8 = false := by decide +kernel

theorem test_bypass : let s0 := pSt { part1 with recov := 2 }
    let s := { s0 with hw := { s0.hw with fenced := [coreUnit (17 * 15 + 16)] }, win := (rowReg 0, 0x17) :: s0.win }
    canGraft s 0 = false ∧ logOf s 0 = some 0 ∧ partOfPhys s 0 = some 1 ∧ bypassOf s 0 15 = 17 ∧ bypassOf (after (.inPlaceBypass 0 15 16) s) 0 15 = 16 ∧
    17 * 15 + 16 ∈ (after (.inPlaceBypass 0 15 16) s).mod.bad ∧ after (.inPlaceBypass 0 14 16) s = s := by decide +kernel

/-! ### Jobs across modules (JobMessagesAct) -/

def jobBody (ty flags seq step len : Nat) : List Byte :=
  bytesLe 1 ty ++ bytesLe 1 flags ++ [0, 0] ++ bytesLe 4 9 ++ bytesLe 8 seq ++ List.replicate 8 0 ++ bytesLe 8 step ++ List.replicate 8 0 ++
    bytesLe 8 len ++ List.replicate 16 0 ++ List.replicate 32 0

def jobSeen (ty fl step : Nat) : List Nat :=
  let m := jobBody ty fl 1 step 0
  [m.length, msgNat m 0 1, msgNat m 1 1, msgNat m 4 4, msgNat m 8 8, msgNat m 24 8, msgNat m 40 8]

/-- Partition 1 of job 9 with a key, its peer on queue pair 5; `qp5` has taken no job message, so that any SEQ above 0 is new. -/
def job : Partn := { part1 with checks := { Checks.none with job := 9 }, key := some [1], peers := [5] }

/-- Every premise of a good message of each type holds: SEQ 1, a STEP behind, at and ahead of the committed one, HOLD set and not (R615, R616). -/
theorem hyp_job_fields : jobSeen 0x10 0 0 = [96, 0x10, 0, 9, 1, 0, 0] ∧ jobSeen 0x11 1 0 = [96, 0x11, 1, 9, 1, 0, 0] ∧ jobSeen 0x11 1 7 = [96, 0x11, 1, 9, 1, 7, 0] ∧
    jobSeen 0x12 0 0 = [96, 0x12, 0, 9, 1, 0, 0] ∧ jobSeen 0x13 0 7 = [96, 0x13, 0, 9, 1, 7, 0] ∧ jobSeen 0x14 0 0 = [96, 0x14, 0, 9, 1, 0, 0] := by decide +kernel

theorem hyp_job_peer : qp5.seqRx = 0 ∧ qp5.part = 1 ∧ (pSt job).qp 5 = some qp5 ∧ (pSt job).hpart 1 = some job := by decide +kernel

theorem hyp_job_tag (ty flags step : Nat) (h : (jobBody ty flags 1 step 0).length = 96) :
    tagOk (pSt job) job (msgOf (jobBody ty flags 1 step 0) [1] juJob) 96 juJob = true := tag_holds _ _ _ _ _ _ rfl h

/-- Dropped for want of a partition or a length, and counted: a QUENCH at its port (R616). -/
theorem test_job_dropped : wReg (after (.quench 5 []) (pSt job)) (pReg 0 0x8C) = 1 ∧ fld (wReg (after (.live 5 []) (pSt job)) iAuth) 15 0 = 1 ∧
    fld (wReg (after (.join 9 []) (pSt job)) iAuth) 15 0 = 1 ∧ fld (wReg (after (.state 5 [] []) (pSt job)) iAuth) 15 0 = 1 ∧
    fld (wReg (after (.joined 5 []) (pSt job)) iAuth) 15 0 = 1 := by decide +kernel

/-- LIVE every fifth of LIVE_MS; a peer silent for 50 ms; an admission and a hold that end (R614, R617, R623). -/
theorem test_job_times : let quiet := { job with key := none }
    let dj := { quiet with joiner := some ⟨1, 0, 5, 123456⟩ }
    let ho := { quiet with holdAt := some (5, 100), holdFor := some (6, 9), partner := some 5 }
    livePeers quiet = [5] ∧ unitFenced (pSt quiet) (peerUnit (pSt quiet) 5) = false ∧
    (after (.liveSend 1) (pSt quiet)).now = 16000000 ∧ (after (.peerDead 1 5) (pSt quiet)).now = 80000000 ∧
    aft (.peerDead 1 5) quiet (fun g => (g.dead, g.heldJob)) = some ([5], true) ∧ after (.peerDead 1 6) (pSt quiet) = pSt quiet ∧
    after (.admitTimeout 1) (pSt quiet) = pSt quiet ∧ aft (.admitTimeout 1) dj Partn.joiner = some none ∧ (after (.admitTimeout 1) (pSt dj)).now = 123456 ∧
    aft (.admitTimeout 1) ho (fun g => (g.holdAt, g.holdFor, g.partner)) = some (none, none, none) ∧
    (after (.admitTimeout 1) (pSt ho)).now = 3200000100 ∧ after (.liveSend 2) (pSt quiet) = pSt quiet := by decide +kernel

/-! ### Power, clocks and heat (PowerActs, HeatActs) -/

/-- Region p powered at 750 mV, with status words as given. -/
def powered (l : List (Nat × Word)) (s : State) : State := { s with win := s.win ++ [(rg 0 4, 4)] ++ l ++ [(rg 9 4, 4)] }
def onPart1 : State := powered [] (pSt part1)

theorem test_rail : let s := powered [] State.reset
    railOn s 9 = true ∧ railOn s 8 = false ∧ fld (wReg s (rg 9 0)) 9 0 = 750 ∧
    fld (wReg (after (.vsetUpdate 9 620) s) (rg 9 0)) 9 0 = 620 ∧ after (.vsetUpdate 9 619) s = s ∧ after (.vsetUpdate 9 823) s = s ∧
    bit (wReg (after (.vlow 9) s) (rg 9 8)) 0 = true ∧ after (.vlow 8) s = s ∧
    (after (.abnormalDrop 9) s).records = [⟨.supply, 9, []⟩] ∧
    wReg (after (.droop 9 720 63) s) (rg 9 8) = wReg s (rg 9 8) ∧ bit (wReg (after (.droop 9 719 0) s) (rg 9 8)) 1 = true ∧
    bit (wReg (after (.droop 9 700 0) s) (rg 9 8)) 2 = false ∧ bit (wReg (after (.droop 9 699 0) s) (rg 9 8)) 2 = true ∧
    after (.overcur 9 480) s = s ∧ bit (wReg (after (.overcur 9 481) s) (rg 9 8)) 4 = true ∧ fld (wReg (after (.overcur 9 600) s) (rg 9 0xC)) 15 0 = 5000 := by
  decide +kernel

/-- A step made suspect by a droop where an abnormal drop stands, and by a current, of partition 1 on region 0 (R547, R647). -/
theorem test_suspect : let s := powered [(rg 0 8, 8)] (pSt part1)
    logOf s 0 = some 0 ∧ (partOfRegion s 0).isSome = true ∧ bit (wReg s (rg 0 8)) 3 = true ∧ ((after (.droop 0 600 1) s).region 0).suspect = true ∧
    partRegions part1 = [0] ∧ part1.seals = [] ∧ ((after (.overcur 0 481) s).region 0).suspect = true ∧
    ((after (.overcur 0 481) s).hpart 1).map (fun g => g.now_.overcur) = some [0] := by decide +kernel

theorem test_notices : let n := { State.reset with tmb := { Timebase.reset with events := [⟨3, .notice 9 5, 8192⟩, ⟨4, .notice 9 (-5), 9000⟩] } }
    nextNotice n 9 = some (⟨3, .notice 9 5, 8192⟩, 5) ∧ nextNotice n 8 = none ∧
    (after (.loadStepNotice 9) (powered [] n)).mod.boost = [(9, (12992, true))] ∧ (after (.loadStepNotice 9) (powered [] n)).tmb.events.length = 1 ∧
    fld (wReg (after (.loadStepNotice 9) n) (rg 9 8)) 31 24 = 1 ∧ after (.loadStepNotice 8) n = n ∧
    (after (.noticeEnd 9) (after (.loadStepNotice 9) (powered [] n))).now = 12992 ∧ after (.noticeEnd 8) n = n := by decide +kernel

theorem test_module_power : let s := { pSt part1 with mod := { Module.reset with enabled := true } }
    (after (.phaseFail 12) s).mod.phases = 12 ∧ fld (wReg (after (.phaseFail 5) s) 0x30008) 15 0 = 8500 ∧ (after (.phaseFail 3) s).hw.fault = true ∧
    (after (.phaseFail 11) s).hw.fault = false ∧ (after .inputOutOfRange s).mod.enabled = false ∧ (after .inputOutOfRange s).hw.parts = [] ∧
    bit (wReg (after .vinLow s) 0x30010) 0 = true ∧ fld (wReg (after (.pinOver 18000) s) 0x30000) 31 16 = 18000 ∧ heaviest s = some 1 ∧
    fld (wReg (after (.pinOver 70000) s) 0x30000) 31 16 = 65535 ∧ ((after (.pinOver 18001) s).hpart 1).map Partn.heldJob = some true := by decide +kernel

/-- The clock inputs of region 0 in their order, the current one lost with and without another that has a clock (R653 to R656). -/
theorem test_clocks : let s := { pSt part1 with win := [(rg 0 0x20, 0xE4)] }
    let run := { s with cores := [(0, { Core.reset with awaiting := false })] }
    let held := { s with mod := { s.mod with noClock := [(0, 7)] } }
    (([0, 1, 2, 3].map fun i => fld (wReg s (rg 0 0x20)) (2 * i + 1) (2 * i)) = [0, 1, 2, 3]) ∧ running s part1 = false ∧ running run part1 = true ∧
    fld (wReg (after (.clockLoss 0 1) s) (rg 0 0x20)) 11 10 = 1 ∧ mget? (after (.clockLoss 0 1) s).mod.noClock 0 = some 0 ∧
    fld (wReg (after (.clockLoss 0 0xC) s) (rg 0 0x20)) 9 8 = 2 ∧ fld (wReg (after (.clockLoss 0 0xC) s) (rg 0 0x20)) 31 16 = 1 ∧
    ((after (.clockLoss 0 2) run).hpart 1).map (fun g => decide (g.recov ≠ 0)) = some true ∧
    (after (.clockDead 0) held).now = 64007 ∧ fld (wReg (after (.clockDead 0) held) (rg 0 0x20)) 11 10 = 3 ∧ after (.clockDead 0) s = s := by
  decide +kernel

/-- Region 9 outside every partition, region 0 in partition 1, with the reset thresholds 105, 115 and 125 °C. -/
def hot (p : Nat) (st : Word) (k : Partn) : State := powered [(rg p 0x38, st)] (pSt k)

def therm (s : State) (p : Nat) : Nat := fld (wReg s (rg p 0x38)) 2 0

theorem test_warm : therm (after (.warm 0 95) (hot 0 0 part1)) 0 = tWarm ∧ therm (after (.warm 0 94) (hot 0 0 part1)) 0 = tNormal ∧
    therm (after (.warm 0 94) (hot 0 1 part1)) 0 = tNormal ∧ therm (after (.warm 0 255) (hot 0 4 part1)) 0 = tHard ∧
    fld (wReg (after (.warm 0 255) (hot 0 4 part1)) (rg 0 0x30)) 7 0 = 255 ∧
    fld (wReg (hot 0 0 part1) (rg 0 0x34)) 7 0 = 105 ∧ fld (wReg (hot 0 0 part1) (rg 0 0x34)) 15 8 = 115 ∧ fld (wReg (hot 0 0 part1) (rg 0 0x34)) 23 16 = 125 := by
  decide +kernel

theorem test_pollard_request : partOfPhys (hot 0 0 part1) 0 = some 1 ∧ partOfPhys (pSt part1) 9 = none ∧
    therm (after (.pollardRequest 0 104) (hot 0 0 part1)) 0 = tNormal ∧ therm (after (.pollardRequest 0 105) (hot 0 0 part1)) 0 = tRequest ∧
    0 ∈ (after (.pollardRequest 0 105) (hot 0 0 part1)).hw.pollard ∧
    ((after (.pollardRequest 0 105) (hot 0 0 part1)).hpart 1).map Partn.standing = some true ∧
    therm (after (.pollardRequest 9 105) (powered [] (pSt part1))) 9 = tPollarded ∧ railOn (after (.pollardRequest 9 105) (powered [] (pSt part1))) 9 = false := by
  decide +kernel

theorem test_hard_trip : therm (after (.thermalHard 0 114) (hot 0 2 part1)) 0 = tRequest ∧ therm (after (.thermalHard 0 115) (hot 0 2 part1)) 0 = tHard ∧
    ((after (.thermalHard 0 115) (hot 0 2 part1)).hpart 1).map Partn.heldJob = some true ∧
    therm (after (.thermalHard 9 115) (powered [] (pSt part1))) 9 = tPollarded ∧ therm (after (.thermalHard 8 115) (pSt part1)) 8 = tHard ∧
    therm (after (.thermalTrip 0 124) (hot 0 2 part1)) 0 = tRequest ∧ therm (after (.thermalTrip 0 125) (hot 0 2 part1)) 0 = tTripped ∧
    fld (wReg (after (.thermalTrip 0 125) (hot 0 2 part1)) (rg 0 4)) 2 1 = 3 := by decide +kernel

/-- Region 0's turn at a barrier with a rootstock, and with none; region 9's outside every partition; a barrier not reached (R660, R661). -/
def turnOf (p : Nat) (s : State) : State := { s with hw := { s.hw with pollard := [p] } }

def rowSet0 (s : State) : State := { s with win := (rowReg 0, 0x17) :: s.win }

theorem hyp_pollard : let s := turnOf 0 (hot 0 2 part1)
    let absent := rowSet0 s
    let run := { s with cores := [(0, { Core.reset with awaiting := false })] }
    s.hw.pollard.find? (fun x => x / 8 == 0) = some 0 ∧ running s part1 = false ∧ canGraft s 0 = true ∧ canGraft absent 0 = false ∧
    after (.pollard 0) absent = absent.setPart 1 { part1 with heat := true } ∧ running run part1 = true ∧ after (.pollard 0) run = run ∧
    after (.pollard 1) s = s ∧ (after (.pollard 9) (turnOf 9 (powered [] (pSt part1)))).hw.pollard = [] := by decide +kernel

theorem test_pollard_return : let s := hot 0 3 part1
    let root := { s with win := (rowReg 0, 8) :: s.win }
    after (.pollardReturn 0 true) (hot 0 4 part1) = hot 0 4 part1 ∧ rstkCol s 0 ≠ 0 ∧ therm (after (.pollardReturn 0 true) s) 0 = tNormal ∧
    railOn (after (.pollardReturn 0 true) s) 0 = true ∧ aft (.pollardHoldEnd 1) { part1 with heat := true, standing := true } (fun g => (g.heat, g.standing, g.step)) =
      some (false, false, 1) ∧ rstkCol root 0 = 0 ∧ rstkState root 0 = rstkPending ∧
    rstkState (after (.pollardReturn 0 false) root) 0 = rstkAbsent ∧ after (.pollardHoldEnd 1) (pSt part1) = pSt part1 := by decide +kernel

theorem test_stack_heat : fld (kReg ((after (.stackOverheat 55 95) State.reset).stack 55) 0x28) 7 0 = 95 ∧
    bit (kReg ((after (.stackOverheat 55 96) State.reset).stack 55) kStatus) 3 = true ∧ (after (.stackCritical 0) (pSt part1)).hw.fault = true ∧
    ((after (.stackCritical 0) (pSt part1)).hpart 1).map Partn.heldJob = some true ∧
    fld (wReg (after (.cool 42 130) State.reset) 0x3000C) 31 16 = 130 := by decide +kernel

theorem test_bad_coolant : (after (.cool 43 130) State.reset).mod.coolTrip = true ∧ bit (wReg (after (.cool 42 129) State.reset) 0x30010) 2 = true := by
  decide +kernel

/-! ### Bring-up (BringUpStepsAct, BringUpMessagesAct) -/

/-- Step k runs since 0, with the word of `brg.go` and the fields DONE of the steps behind it. -/
def stepAt (k : Nat) (go : Word) (done : Nat) (s : State) : State :=
  { s with win := [(4, go), (8, BitVec.ofNat 32 (k + 16 + 256 * done))] ++ s.win }

def ended (s : State) (cause : Nat) : Bool := fld (wReg s 8) 6 4 == (if cause = 0 then 2 else 3) && fld (wReg s 8) 23 16 == cause

theorem hyp_steps : let s := stepAt 1 1 0 State.reset
    stepRuns s 1 = true ∧ s.now ≤ stepDue s ∧ stepRuns s 2 = false ∧ stepDue s < 80000001 ∧ coolBad s = true ∧
    coolBad { s with win := s.win ++ [(0x3000C, 0x00820000)] } = false ∧ brgState s = 1 ∧ brgState State.reset ≠ 1 := by decide +kernel

theorem test_enable_disable : let on := { State.reset with mod := { Module.reset with enabled := true } }
    after (.enable false true 0) on = on ∧ after .disable State.reset = State.reset ∧ (after .disable on).mod.enabled = false ∧
    (after (.enable true false 3) State.reset).mod.slot = 3 ∧ (after (.enable true false 3) State.reset).mod.tamper = true ∧
    (after (.enable true false 3) State.reset).mod.boots = 1 ∧ portState (after (.enable true false 3) State.reset) 7 = poTraining := by decide +kernel

/-- POWER that fails; that ends late; BIST at level 1 with a stack that cannot be repaired; stacks that do not train (R682, R683). -/
theorem test_first_steps : let s := stepAt 1 1 0 State.reset
    ended (after (.power false) s) 8 = true ∧ ended (after (.power true) { s with now := 80000001 }) 1 = true ∧
    after (.power true) State.reset = State.reset ∧ ended (after (.bist 1 ⟨[], [], [0]⟩) (stepAt 2 0x12 1 State.reset)) 3 = true ∧
    after (.bist 2 ⟨[], [], []⟩) (stepAt 2 0x12 1 State.reset) = stepAt 2 0x12 1 State.reset ∧
    ended (after (.trainStacks false) (stepAt 3 3 3 State.reset)) 3 = true ∧
    ended (after (.trainPorts 0x80) (stepAt 4 0x8004 7 State.reset)) 0 = true ∧
    portState (after (.trainPorts 0x80) (stepAt 4 0x8004 7 State.reset)) 7 = poTraining := by decide +kernel

/-- LOAD_FW with no package in the slot; a package whose form is right, so that its signatures decide. -/
def pkg : List Byte :=
  bytesLe 4 0x4B505744 ++ bytesLe 2 1 ++ bytesLe 2 0 ++ bytesLe 4 3 ++ bytesLe 4 2 ++ [0, 4, 0, 0] ++ List.replicate 364 0

theorem test_load_fw : let s := stepAt 5 5 15 State.reset
    let p := { s with mod := { s.mod with store := [(0, pkg)] } }
    pkgSource s = none ∧ ended (after (.loadFw []) s) 4 = true ∧ pkgSource p = some (pkg, false) ∧ pkgForm pkg = true ∧
    pkgMask pkg = 4 ∧ pkgMinSvn pkg = 2 ∧ pkgToken pkg = false := by decide +kernel

def rooted : Module := { Module.reset with roots := [(Config.shake256 (pkgPart pkg 24 57) 32, false)] }

/-- The signatures of the package are the only thing that Ed448 and SHAKE256 decide: where they hold, so do all the checks of R708. -/
theorem hyp_genuine (h1 : Config.ed448Verify false (pkgPart pkg 24 57) "Didudra signer" (pkgPart pkg 81 57) (pkgPart pkg 138 114) = true)
    (h2 : Config.ed448Verify true (pkgPart pkg 81 57) "Didudra firmware" (pkgPart pkg 0 252 ++ pkg.drop 384) (pkgPart pkg 252 114) = true) :
    pkgGenuine rooted pkg = true := by
  have e : msgNat pkg 16 1 = 0 ∧ decide (rooted.svn ≤ pkgSvn pkg) = true ∧ (pkgMask pkg / 2 ^ 2 % 2 == 1) = true := by decide +kernel
  have l : lifeCycle rooted = 2 := rfl
  have r : rooted.roots[0]? = some (Config.shake256 (pkgPart pkg 24 57) 32, false) := rfl
  simp only [pkgGenuine, e.1, r, l, h1, h2, e.2.1, e.2.2]
  simp

/-- START with ring 0 of 64 commands and 64 completions; with a loaded heartwood that passes, with one that does not (R684, R709). -/
theorem test_start : let s := stepAt 6 6 31 { State.reset with win := [(0x40, 0x66)] }
    let ok := { s with mod := { s.mod with loaded := [0, 1], package := pkg } }
    ring0Ok s = true ∧ ring0Ok (stepAt 6 6 31 State.reset) = false ∧ ended (after (.start true true false) (stepAt 6 6 31 State.reset)) 9 = true ∧
    ended (after (.start false true false) s) 6 = true ∧ 0 ∈ ok.mod.loaded ∧ unitFenced ok (heartUnit 0) = false ∧
    lifeCycle ok.mod ≠ 0 := by decide +kernel

theorem test_late_steps : let s7 := stepAt 7 0x3707 31 State.reset
    let s8 := stepAt 8 0x708 31 State.reset
    let s9 := stepAt 9 0x909 63 State.reset
    let auto := { State.reset with win := [(8, 0xF00)], mod := { Module.reset with auto := true } }
    (after (.retrainStack 55) s7).now = 65536 ∧ fld (kReg ((after (.retrainStack 55) s7).stack 55) kRetrain) 31 16 = 16 ∧
    after (.retrainStack 54) s7 = s7 ∧ portState (after (.retrainPort 7) s8) 7 = poTraining ∧ after (.retrainPort 6) s8 = s8 ∧
    after (.resetRegion 8) s9 = s9 ∧ after .stepTimeout State.reset = State.reset ∧ (after .stepTimeout s9).now = stepDue s9 ∧
    after .autoRestart State.reset = State.reset ∧ stepRuns (after .autoRestart auto) 5 = true ∧ rstHeld auto = false := by decide +kernel

theorem test_reset_region : railOn (after (.resetRegion 9) (stepAt 9 0x909 63 State.reset)) 9 = true := by decide +kernel

theorem test_reset_all : fld (wReg (after .resetAll (stepAt 10 10 63 State.reset)) 8) 13 8 = 0 := by decide +kernel

/-- A request with XID 7 from 10.0.0.1 outstanding on port 0, in QUIET and in UP. -/
def hears (st : Word) (s : State) : State :=
  { s with win := s.win ++ [(0x20004, st)], ports := [(0, { Port.reset with brup := [(0x0A000001, 0)] })] }

def answerOf (x : Instr) (s : State) : Option (Nat × Nat) := (after x s).reply.map fun r => (r.status, r.words.length)

theorem test_bringup_reads : let s := hears 2 State.reset
    let up := hears 3 State.reset
    let scrap := { s with mod := { s.mod with scrap := true } }
    let rd := fun (a : BitVec 64) (n len : Nat) => Instr.bringupRead 0 0x0A000001 7 len a n
    answerOf (.discover 0 0x0A000001 7 0) s = some (0, 11) ∧ answerOf (.discover 0 0x0A000001 7 1) s = some (6, 1) ∧
    after (.discover 0 5 7 0) s = s ∧ answerOf (rd 0x200000000002 1 10) s = some (2, 1) ∧ answerOf (rd 0x200000000000 5 10) s = some (0, 6) ∧
    answerOf (rd 0x200000000000 1 10) scrap = some (3, 1) ∧ answerOf (rd 0x200000010000 1 10) up = some (3, 1) ∧
    answerOf (rd 0x200000000000 1 9) up = some (6, 1) ∧ answerOf (rd 0x1FFFFFFFFFFC 1 10) up = some (2, 1) ∧ lifeCycle scrap.mod = 4 := by decide +kernel

theorem test_bringup_writes : let s := hears 2 State.reset
    let w := fun (a : BitVec 64) (ws : List Word) => Instr.bringupWrite 0 0x0A000001 7 (10 + 4 * ws.length) a ws.length ws
    answerOf (w 0x200000000010 [1]) s = some (0, 1) ∧ writeVerdict s 0 0x200000000004 1 14 [1] = 0 ∧
    stepRuns (after (w 0x200000000004 [1]) s) 1 = true ∧ answerOf (w 0x200000000004 [0]) s = some (1, 1) ∧ rstHeld s = false := by decide +kernel

theorem test_stage : let s := hears 2 State.reset
    let st := fun (o : Word) (n len : Nat) => Instr.stage 0 0x0A000001 7 len o (List.replicate n 5)
    answerOf (st 0xFFFFC0 64 68) s = some (0, 1) ∧ cellGets (after (st 0xFFFFC0 64 68) s).mod.stage 0xFFFFC0 64 = List.replicate 64 5 ∧
    answerOf (st 0xFFFFC0 128 132) s = some (2, 1) ∧ answerOf (st 0 64 68) (hears 3 State.reset) = some (3, 1) ∧
    answerOf (st 0 32 36) s = some (6, 1) := by decide +kernel

/-! ### Pours (PoursAct) -/

/-- Core 0's receiver for image 5 of 2 chunks at 0x1000, in a state, with some HAVE bits and their count; the pour of partition 0. -/
def rcv (st have_ : Nat) (pr : PourRx → PourRx) : Core :=
  { Core.reset with regs := [(0x600, 0x80020005), (0x604, 0x1000), (0x614, BitVec.ofNat 32 (st + 8 * (have_ % 2 + have_ / 2))), (0x640, BitVec.ofNat 32 have_)]
                    pour := pr Core.reset.pour }

/-- A piece of chunk `ch`, piece `n`, and an END (R690, R691). -/
def piece (ch n : Nat) (data : List Byte) : Packet :=
  let p : Packet := { Packet.blank with addr := BitVec.ofNat 64 (0x1000 + 4096 * ch + 512 * n), arg := 0x8000, payload := data, pcrc0 := (pcrcOf data).1
                                        pcrc1 := (pcrcOf data).2, tdata := [5, BitVec.ofNat 32 (ch + 65536 * n), 1, 2, 3] }
  sealHeader p

def atCore (x : Instr) (k : Core) : Core := (after x (onCore k)).core 0

theorem hyp_piece : let p := piece 1 7 [1, 2, 3, 4]
    hcrcOk p = true ∧ pcrcOk p = true ∧ isPour p = true ∧ fld (p.tdata.getD 0 0#32) 15 0 = pourImage (rcv 1 0 id) ∧ fld (p.tdata.getD 1 0#32) 9 0 = 1 ∧
    fld (p.tdata.getD 1 0#32) 18 16 = 7 ∧ p.addr.toNat % 2 ^ 22 + 4 ≤ 0x300000 ∧ pourChunks (rcv 1 0 id) = 2 ∧ haveChunk (rcv 1 0 id) 1 = false ∧
    haveChunk (rcv 1 2 id) 1 = true ∧ fld (cReg (rcv 1 3 id) rPourStatus) 12 3 = 2 := by decide +kernel

/-- A receiver enabled; a piece noted; an END; a packet of another image, and one with a broken header, let go (R689, R691). -/
theorem test_pour_packets : pourState (atCore (.pourEnable 0 0x80020005) Core.reset) = 1 ∧
    mgetD (atCore (.pourPacket 0 (piece 1 7 [1, 2, 3, 4])) (rcv 1 0 id)).pour.pieces 1 0 = 128 ∧
    pourState (atCore (.pourPacket 0 (piece 0 0 [])) (rcv 1 0 id)) = 2 ∧
    (atCore (.pourPacket 0 (piece 1 7 [1, 2, 3, 4])) (rcv 1 2 id)).pour.pieces = [] ∧
    (atCore (.pourPacket 0 (piece 3 7 [1, 2, 3, 4])) (rcv 1 0 id)).pour.pieces = [] ∧
    after (.pourPacket 0 { piece 1 7 [1] with hcrc := 0 }) (onCore (rcv 1 0 id)) = onCore (rcv 1 0 id) ∧
    (atCore (.pourPacket 0 (piece 1 7 [1, 2, 3, 4])) Core.reset).pour.pieces = [] := by decide +kernel

/-- PULLING with every chunk there; nothing to pull in IDLE and in DONE (R692). -/
theorem test_pulling : after (.pulling 0) (onCore (rcv 3 3 id)) = onCore (rcv 3 3 id) ∧ pourState (atCore (.pulling 0) (rcv 2 3 id)) = 2 ∧
    (after (.pulling 0) (onCore (rcv 1 3 fun r => { r with last := 10 }))).now = 65546 := by decide +kernel

/-- The end of an image without a pour at the heartwood; an image that is not whole; a core 20 ms late (R693, R695, R696). -/
theorem test_pour_ends : let late := onCore (rcv 2 0 fun r => { r with ended := some 5 })
    let s := { late with hw := { late.hw with pours := [(corePour late 0, ⟨0, [], [0], [], []⟩)] } }
    after (.pourDone 0) (onCore (rcv 2 1 id)) = onCore (rcv 2 1 id) ∧ after (.pourTimeout 0) late = late ∧
    (after (.pourTimeout 0) s).now = 32000005 ∧ coreUnit (physCore s 0) ∈ (after (.pourTimeout 0) s).hw.fenced ∧
    corePour s 0 / 65536 = 0 ∧ brgState s ≠ 1 := by decide +kernel

/-- A whole image, and a pour that waits for it, with another digest and with the one the core has. -/
theorem hyp_pour_done : let s := onCore (rcv 2 3 id)
    (pourState (s.coreNow 0) = 1 ∨ pourState (s.coreNow 0) = 2) ∧ fld (cReg (s.coreNow 0) rPourStatus) 12 3 = pourChunks (s.coreNow 0) ∧
    mkeysRising [(corePour s 0, (⟨0, [], [0], [], []⟩ : Pour))] = true := by decide +kernel

/-! ### The sideband target, removal and RST_N (SidebandAndRemovalAct) -/

def inSlot (f : Module → Module) : State := { State.reset with mod := f { Module.reset with enabled := true, i3cAddr := some 9, slot := 2 } }

theorem test_i3c : let s := inSlot id
    let free := inSlot fun m => { m with i3cAddr := none, hotJoin := true }
    (after .hotJoin free).reply = some ⟨0, [2]⟩ ∧ after .hotJoin s = s ∧ (after (.disec 1) s).mod.ibi = false ∧ (after .rstdaa s).mod.i3cAddr = none ∧
    (after (.entdaa 0x31) free).mod.i3cAddr = some 0x31 ∧ after (.entdaa 0x31) s = s ∧ (after (.setdasa 0x5A 0x32) free).mod.i3cAddr = some 0x32 ∧
    after (.setdasa 0x5B 0x32) free = free ∧ (after .getbcr s).reply = some ⟨0, [6]⟩ ∧ after .getbcr free = free ∧ (after .getmrl s).reply = some ⟨0, [256]⟩ ∧
    after .getdcr State.reset = State.reset ∧ (after .getdcr s).reply = some ⟨0, [0]⟩ ∧ (after .getmwl s).reply = some ⟨0, [256]⟩ := by decide +kernel

theorem test_private : let s := inSlot fun m => { m with sbd := [(8, 0x1FF)] }
    sbReg (after (.i3cPrivateWrite 8 [0xF]) s) 8 = 0x1F0 ∧ fld (sbReg (after (.i3cPrivateWrite 0xC [0x55]) s) 0xC) 8 0 = 0x55 ∧
    fld (wReg (after (.i3cPrivateWrite 0x14 [5000]) s) 0x30008) 15 0 = 6000 ∧ (after (.i3cPrivateWrite 4 []) s).mod.i3cOff = 4 ∧
    (after (.i3cPrivateRead 2) (after (.i3cPrivateWrite 4 []) s)).mod.i3cOff = 12 ∧ sbReg (after (.budgetWrite 20000) s) 0x14 = 20000 ∧
    fld (wReg (after (.budgetWrite 20000) s) 0x30008) 15 0 = 18000 ∧ after (.budgetWrite 20000) State.reset = State.reset := by decide +kernel

/-- Alerts 3, which MASK keeps back, and 5 on: IBI shows the lowest that is not kept back; not before its time; nothing to show; its repeat after 1 ms (R739, R740). -/
theorem test_ibi : let s := inSlot fun m => { m with sbd := [(8, 0x28)], ibiAt := some 7 }
    let quiet := inSlot fun m => { m with ibiAt := some 7 }
    let cause := fun (t : State) => t.reply.map Reply.words
    after (.ibi true) (inSlot id) = inSlot id ∧ after (.ibi true) s = s ∧ cause (after (.ibi true) { s with now := 7 }) = some [5] ∧
    (after (.ibi true) { s with now := 7 }).mod.ibiAt = none ∧ (after (.ibiRepeat false) s).mod.ibiAt = some 1600007 ∧
    cause (after (.ibiRepeat true) s) = some [5] ∧ (after (.ibiRepeat true) quiet).mod.ibiAt = none ∧ alertsOn s = 0x20 := by decide +kernel

theorem test_removal : let s := inSlot id
    let gone := inSlot fun m => { m with sbd := [(4, 3)] }
    let low := inSlot fun m => { m with rstLow := true, auto := true }
    let due := { low with win := [(8, 0xF00)] }
    after .shutdown gone = gone ∧ (after .removal gone).mod.mated = false ∧ sbdState (after .shutdown s) = 3 ∧ bit (sbReg (after .removal s) 8) 7 = true ∧
    portState (after .removal s) 7 = poFenced ∧ fld (sbReg (after .mateSenseBounce s) 4) 31 16 = 1 ∧ after .mateSenseBounce State.reset = State.reset ∧
    after .rstAssert low = low ∧ (after .rstAssert gone).mod.rstLow = true ∧ (after .rstAssert s).mod.rstLow = true ∧ sbdState s ≤ 1 ∧
    after .rstRelease s = s ∧ (after .rstRelease low).mod.rstLow = false ∧ stepRuns (after .rstRelease due) 5 = true := by decide +kernel

/-! ### The queue, fields and steps (StepTakesFront, StepPopsQueue, FieldsActOnTheirCore, StepsAlwaysGoOn) -/

/-- The command in front is taken, the rest waits; an empty queue passes a cycle (log entry 2). -/
theorem test_queue : (match step { State.reset with pending := [.beat, .snap] } with
      | .next t => (t.pending == [.snap], t.now)
      | _ => (false, 0)) = (true, 1600000) := by decide +kernel

theorem test_idle : (match step State.reset with
      | .next t => decide (t = { State.reset with now := 1 })
      | _ => false) = true := by decide +kernel

theorem hyp_fields_core : fieldCore (.add i0 ⟨1, 2, 3, 0⟩) = some 0 ∧ fieldCore .beat = none := by decide +kernel
end Sys2Proof.Tests
end

section
/-! PROOFS. Accesses to registers (R16 to R19): a refused access changes nothing, and a write of a register that starts nothing. A space of
registers is seen through the map of its stored words; an operation on one space gives that space a new map and leaves the other spaces
theirs. -/

namespace Sys2Proof.Machine

/-! ### Accesses that are refused -/

/-- An access of another width or at another address is answered as refused, whatever it would have done (R16). -/
theorem access_refused (s body : State) (tgt : RegTarget) {off size : Nat} (h : size ≠ 4 ∨ off % 4 ≠ 0) :
    access s tgt off size body = s.answer accRefused [] := by
  have hbad : accessOk off size = false := by
    simp only [accessOk, Bool.and_eq_false_iff, beq_eq_false_iff_ne]
    exact h
  simp [access, hbad]

/-- An aligned access of one word within a block of its space is done. -/
theorem access_done (s body : State) {tgt : RegTarget} {off : Nat} (h4 : off % 4 = 0) (hin : inSpace tgt off = true) :
    access s tgt off 4 body = body := by
  simp [access, accessOk, h4, hin]

/-- Settles O7: the rows of the tables are computed, and each of the three accesses is judged before anything is done. -/
theorem accessesAreWholeWords : Obligations.AccessesAreWholeWords := by
  unfold Obligations.AccessesAreWholeWords
  refine ⟨by decide +kernel, fun tgt off size val hw s h => ?_⟩
  have hrefused (body : State) : (.next (access s tgt off size body) : Host.Outcome State Fault Refusal) = .next (s.answer 1 []) :=
    congrArg Host.Outcome.next (access_refused s body tgt h)
  exact ⟨hrefused _, hrefused _, hrefused _⟩

/-! ### The stored words of a space -/

/-- The map of the stored words of a space. -/
def spaceRegs (s : State) : RegTarget → Map Word
  | .core c => (s.core c.val).regs
  | .router r => (s.router r.val).regs
  | .stack n => (s.stack n.val).regs
  | .window => s.win
  | .sideband => s.mod.sbd

/-- The same, with every result of a core that has come by now in its place. -/
def spaceRegsNow (s : State) : RegTarget → Map Word
  | .core c => (s.coreNow c.val).regs
  | tgt => spaceRegs s tgt

theorem storedReg_eq_regRaw (s : State) (tgt : RegTarget) (o : Nat) : storedReg s tgt o = regRaw (regTable tgt) (spaceRegs s tgt) o := by
  cases tgt <;> rfl

@[simp] theorem storedReg_answer (s : State) (st : Nat) (ws : List Word) (tgt : RegTarget) (o : Nat) :
    storedReg (s.answer st ws) tgt o = storedReg s tgt o := by
  cases tgt <;> rfl

theorem storedNow_eq_regRaw (s : State) (tgt : RegTarget) (o : Nat) :
    storedNow s tgt o = regRaw (regTable tgt) (spaceRegsNow s tgt) o := by
  cases tgt <;> rfl

/-- From `s` to `t` one space gets the map `m`, and every other space keeps its own. -/
def onlySpaceBecomes (s t : State) (tgt : RegTarget) (m : Map Word) : Prop :=
  spaceRegs t tgt = m ∧ ∀ tgt2, tgt2 ≠ tgt → spaceRegs t tgt2 = spaceRegs s tgt2

theorem onlySpaceBecomes_trans {s t u : State} {tgt : RegTarget} {m n : Map Word} (h1 : onlySpaceBecomes s t tgt m)
    (h2 : onlySpaceBecomes t u tgt n) : onlySpaceBecomes s u tgt n :=
  ⟨h2.1, fun tgt2 hne => (h2.2 tgt2 hne).trans (h1.2 tgt2 hne)⟩

theorem setCore_onlySpace (s : State) (c : CoreId) (k : Core) : onlySpaceBecomes s (s.setCore c.val k) (.core c) k.regs := by
  refine ⟨by simp [spaceRegs], fun tgt2 hne => ?_⟩
  cases tgt2 with
  | core d => exact congrArg Core.regs (core_setCore_ne s c.val d.val k fun h => hne (congrArg RegTarget.core (Fin.ext h)))
  | router r => simp [spaceRegs, State.router]
  | stack n => simp [spaceRegs, State.stack]
  | window => simp [spaceRegs]
  | sideband => simp [spaceRegs]

theorem setRouter_onlySpace (s : State) (r : RouterId) (k : Router) : onlySpaceBecomes s (s.setRouter r.val k) (.router r) k.regs := by
  refine ⟨by simp [spaceRegs], fun tgt2 hne => ?_⟩
  cases tgt2 with
  | router q => exact congrArg Router.regs (router_setRouter_ne s r.val q.val k fun h => hne (congrArg RegTarget.router (Fin.ext h)))
  | core _ | stack _ | window | sideband => rfl

theorem setStack_onlySpace (s : State) (n : StackId) (k : Stack) : onlySpaceBecomes s (s.setStack n.val k) (.stack n) k.regs := by
  refine ⟨by simp [spaceRegs], fun tgt2 hne => ?_⟩
  cases tgt2 with
  | stack q => exact congrArg Stack.regs (stack_setStack_ne s n.val q.val k fun h => hne (congrArg RegTarget.stack (Fin.ext h)))
  | core _ | router _ | window | sideband => rfl

theorem win_onlySpace (s : State) (m : Map Word) : onlySpaceBecomes s { s with win := m } .window m := by
  refine ⟨rfl, fun tgt2 hne => ?_⟩
  cases tgt2 with
  | window => exact absurd rfl hne
  | core _ | router _ | stack _ | sideband => rfl

theorem mod_onlySpace (s : State) (k : Module) : onlySpaceBecomes s { s with mod := k } .sideband k.sbd := by
  refine ⟨rfl, fun tgt2 hne => ?_⟩
  cases tgt2 with
  | sideband => exact absurd rfl hne
  | core _ | router _ | stack _ | window => rfl

/-! ### A write of a register that starts nothing -/

theorem outside_range {a b off : Nat} (h : off < a ∨ b ≤ off) : decide (a ≤ off ∧ off < b) = false := by
  simp only [decide_eq_false_iff_not]; omega

theorem cSet_regs (k : Core) (off : Nat) (w : Word) : (cSet k off w).regs = mset k.regs off w := rfl

theorem coreWrite_plain (s : State) (c : CoreId) {off : Nat} (val : Word) {r : RegDef} (hp : plainOff (.core c) off)
    (hr : regFind coreRegs off = some r) :
    coreWrite s c.val off val false =
      s.setCore c.val (cSet (s.coreNow c.val) off (regAfterWrite r (cReg (s.coreNow c.val) off) val)) := by
  simp only [plainOff] at hp
  have hfence : ¬ off = rSvcFence := by unfold rSvcFence; omega
  have hpour : ¬ off = rPourCfg := by unfold rPourCfg; omega
  have hstatus : ¬ off = rSpdStatus := by unfold rSpdStatus; omega
  simp (disch := omega) only [coreWrite, isSlotWord, hr, outside_range, Bool.false_and, Bool.false_eq_true, if_false, if_neg,
    hfence, hpour, plainRegWrite, hstatus, false_and, State.coreNow]

theorem routerWrite_of_found (s : State) (n : RouterId) {off : Nat} (val : Word) {r : RegDef} (hr : regFind routerRegs off = some r) :
    routerWrite s n.val off val = s.setRouter n.val (nSet (s.router n.val) off (regAfterWrite r (nReg (s.router n.val) off) val)) := by
  simp only [routerWrite, hr]

theorem stackWrite_plain (s : State) (n : StackId) {off : Nat} (val : Word) {r : RegDef} (hp : plainOff (.stack n) off)
    (hr : regFind stackRegs off = some r) :
    stackWrite s n.val off val = s.setStack n.val (kSet (s.stack n.val) off (regAfterWrite r (kReg (s.stack n.val) off) val)) := by
  simp only [plainOff] at hp
  have hretrain : ¬ off = kRetrain := by unfold kRetrain; omega
  have hstatus : ¬ off = kStatus := by unfold kStatus; omega
  simp only [stackWrite, hr, hretrain, hstatus, false_and, if_false]

theorem winWrite_plain (s : State) {off : Nat} (val : Word) {r : RegDef} (hp : plainOff .window off)
    (hr : regFind windowRegs off = some r) : winWrite s off val = wSet s off (regAfterWrite r (wReg s off) val) := by
  simp only [plainOff] at hp
  have hgo : ¬ off = brgGo := by unfold brgGo; omega
  simp (disch := omega) only [winWrite, hgo, if_neg, if_false, winPlain, outside_range, Bool.false_and, Bool.false_eq_true, hr]

/-- The sideband's write may also end the repeats of an interrupt, which is no register. -/
theorem sbWrite_plain (s : State) {off : Nat} (val : Word) {r : RegDef} (hp : plainOff .sideband off)
    (hr : regFind sidebandRegs off = some r) :
    ∃ ibi, sbWrite s off val =
      { s with mod := { s.mod with sbd := mset s.mod.sbd off (regAfterWrite r (sbReg s off) val), ibiAt := ibi } } := by
  simp only [plainOff] at hp
  simp (disch := omega) only [sbWrite, if_neg, hr]
  split
  · exact ⟨s.mod.ibiAt, rfl⟩
  · exact ⟨none, rfl⟩

/-- A write of a plain register puts the written word into the map of its space, as it stands now, and nothing else into any (R17). -/
theorem regWrite_onlySpace (s : State) {tgt : RegTarget} {off : Nat} (val : Word) {r : RegDef} (hp : plainOff tgt off)
    (hr : regFind (regTable tgt) off = some r) :
    onlySpaceBecomes s (regWrite s tgt off val) tgt (mset (spaceRegsNow s tgt) off (regAfterWrite r (storedNow s tgt off) val)) := by
  cases tgt with
  | core c =>
    simp only [regWrite, coreWrite_plain s c val hp hr, spaceRegsNow, storedNow]
    rw [← cSet_regs]
    exact setCore_onlySpace s c _
  | router n =>
    simp only [regWrite, routerWrite_of_found s n val hr, spaceRegsNow, spaceRegs, storedNow, storedReg]
    exact setRouter_onlySpace s n (nSet _ off _)
  | stack n =>
    simp only [regWrite, stackWrite_plain s n val hp hr, spaceRegsNow, spaceRegs, storedNow, storedReg]
    exact setStack_onlySpace s n (kSet _ off _)
  | window =>
    simp only [regWrite, winWrite_plain s val hp hr, spaceRegsNow, spaceRegs, storedNow, storedReg]
    exact win_onlySpace s _
  | sideband =>
    obtain ⟨ibi, h⟩ := sbWrite_plain s val hp hr
    simp only [regWrite, h, spaceRegsNow, spaceRegs, storedNow, storedReg]
    exact mod_onlySpace s _

/-! ### Bits that the hardware sets in the cycle of an access -/

/-- A map of stored words after the hardware has set the bits of a mask in one register. -/
def hardSet (tbl : List RegDef) (m : Map Word) (off : Nat) (mask : Word) : Map Word :=
  if mask = 0#32 then m else regSetBits tbl m off mask

theorem regRaw_hardSet_self (tbl : List RegDef) (m : Map Word) (off : Nat) (mask : Word) :
    regRaw tbl (hardSet tbl m off mask) off = regRaw tbl m off ||| mask := by
  unfold hardSet
  split
  · simp [*]
  · exact regRaw_mset_self tbl m off _

theorem regRaw_hardSet_ne (tbl : List RegDef) (m : Map Word) (off : Nat) (mask : Word) {o : Nat} (h : o ≠ off) :
    regRaw tbl (hardSet tbl m off mask) o = regRaw tbl m o := by
  unfold hardSet
  split
  · rfl
  · exact regRaw_mset_ne tbl m off o _ h

theorem regHard_onlySpace (s : State) {tgt : RegTarget} {off : Nat} (pick : RegDef → Word) (ev : Word) {r : RegDef}
    (hr : regFind (regTable tgt) off = some r) :
    onlySpaceBecomes s (regHard s tgt off pick ev) tgt (hardSet (regTable tgt) (spaceRegs s tgt) off (ev &&& pick r)) := by
  cases tgt with
  | core c => simp only [regTable] at hr; simp only [regHard, hr]; exact setCore_onlySpace s c _
  | router n => simp only [regTable] at hr; simp only [regHard, hr]; exact setRouter_onlySpace s n _
  | stack n => simp only [regTable] at hr; simp only [regHard, hr]; exact setStack_onlySpace s n _
  | window => simp only [regTable] at hr; simp only [regHard, hr]; exact win_onlySpace s _
  | sideband => simp only [regTable] at hr; simp only [regHard, hr]; exact mod_onlySpace s _

/-! ### The access codes -/

/-- Bit i after a write of `val` to a stored word `w`, with the hardware's bits `hw` put over it (R17, R19). -/
theorem bit_written (r : RegDef) (w val hw : Word) {i : Nat} (hi : i < 32) :
    bit (regAfterWrite r w val ||| (hw &&& r.w1c)) i =
      if bit r.w1c i && bit hw i then true
      else if bit r.w1c i && bit val i then false
      else if bit r.rw i then bit val i
      else bit w i := by
  simp only [bit, regAfterWrite, BitVec.getLsbD_or, BitVec.getLsbD_and, BitVec.getLsbD_not, hi, decide_true, Bool.true_and]
  by_cases hc : r.w1c.getLsbD i
  · by_cases hset : hw.getLsbD i
    · simp [hc, hset]
    · by_cases hv : val.getLsbD i <;> simp [hc, hset, hv, Bool.and_comm]
  · by_cases hrw : r.rw.getLsbD i <;> simp [hc, hrw]

/-- Settles O8: the write gives the map of the register's space the written word, the hardware's bits come over it, and no other word of
any space is touched. -/
theorem registerWriteFollowsCodes : Obligations.RegisterWriteFollowsCodes := by
  unfold Obligations.RegisterWriteFollowsCodes
  intro tgt off val hw s r h4 hin hp hr
  obtain ⟨hself, hother⟩ := onlySpaceBecomes_trans (regWrite_onlySpace s val hp hr) (regHard_onlySpace _ RegDef.w1c hw hr)
  rw [(regWrite_onlySpace s val hp hr).1] at hself
  refine ⟨_, congrArg Host.Outcome.next (access_done s _ h4 hin), rfl, by simp, fun i hi => ?bits, fun o ho => ?offsets,
    fun tgt2 o hne => ?spaces⟩
  case bits =>
    rw [storedReg_answer, storedReg_eq_regRaw, hself, regRaw_hardSet_self, regRaw_mset_self, bit_written r _ val hw hi]
  case offsets =>
    rw [storedReg_answer, storedReg_eq_regRaw, hself, regRaw_hardSet_ne _ _ _ _ ho, regRaw_mset_ne _ _ _ _ _ ho, storedNow_eq_regRaw]
  case spaces =>
    rw [storedReg_answer, storedReg_eq_regRaw, hother tgt2 hne, storedReg_eq_regRaw]

end Sys2Proof.Machine
end

section
/-! PROOFS. Vector operations that give one result: what issuing one does, whichever it is; masks put together bit by bit; the active
positions of a tile in order (R162, R165, R167 to R169, R182 to R186). -/

namespace Sys2Proof.Machine

/-! ### A discarded operation of a unit -/

theorem bit_two_pow (b j : Nat) (hb : b < 32) : bit (BitVec.ofNat 32 (2 ^ b)) j = decide (j = b) := by
  simp only [bit, BitVec.getLsbD_ofNat, Nat.testBit_two_pow, ← Bool.decide_and, decide_eq_decide]
  omega

theorem fld_two_pow_above (b hi lo : Nat) (hb : b < 32) (h : b < lo) : fld (BitVec.ofNat 32 (2 ^ b)) hi lo = 0 := by
  apply Nat.eq_of_testBit_eq
  intro i
  have hne : lo + i ≠ b := by omega
  rw [testBit_fld, Nat.zero_testBit, ← bit, bit_two_pow b _ hb]
  simp [hne]

/-- A flag set in the low half of a unit's status register, and a discard counted in its high half, is a discard of the unit
(R129, R184). -/
theorem unitDiscarded_flagged (k : Core) (off b : Nat) (hb : b < 16) :
    unitDiscarded off b k
      { cCheck (cCount (cFlag k off (BitVec.ofNat 32 (2 ^ b))) off 31 16 1) with outbox := [], check := false } := by
  have hreg (o : Nat) : cReg { cCheck (cCount (cFlag k off (BitVec.ofNat 32 (2 ^ b))) off 31 16 1) with outbox := [], check := false } o
      = cReg (cCount (cFlag k off (BitVec.ofNat 32 (2 ^ b))) off 31 16 1) o := rfl
  have hlow (j : Nat) (hj : j < 16) : bit (cReg (cCount (cFlag k off (BitVec.ofNat 32 (2 ^ b))) off 31 16 1) off) j
      = (bit (cReg k off) j || decide (j = b)) := by
    rw [cReg_cCount_self, bit_setFld _ _ _ _ _ (by omega), cReg_cFlag_self, bit_or, bit_two_pow b j (by omega)]
  refine ⟨?flag, ?count, fun j hj hne => ?bits, fun o ho => ?regs, rfl⟩
  case flag => rw [hreg, hlow b hb]; simp
  case count =>
    rw [hreg, cReg_cCount_self, fld_setFld_self _ _ _ _ (by omega), cReg_cFlag_self,
      fld_or_zero _ _ _ _ (fld_two_pow_above b 31 16 (by omega) hb)]
    have := fld_lt (cReg k off) 31 16
    simp only [satTo]
    split <;> omega
  case bits => rw [hreg, hlow j hj]; simp [hne]
  case regs => rw [hreg, cReg_cCount_ne _ _ _ _ _ _ ho, cReg_cFlag_ne _ _ _ _ ho]

/-! ### A vector operation that issues -/

/-- What a vector operation issued in cycle n on core k reads (R185). -/
def vecCtxAt (s : State) (i : Issue) (n : Nat) (k : Core) : VecCtx := ⟨vecView k n, n, enabledAt k i n, s.free⟩

@[simp] theorem vecCtxAt_view (s : State) (i : Issue) (n : Nat) (k : Core) : (vecCtxAt s i n k).view = vecView k n := rfl

/-- The core after a vector operation has issued in cycle n on core k: discarded for a cause or for a busy unit, or its unit taken and
the operation run (R152, R183, R184). -/
def vecIssued (s : State) (i : Issue) (judge : Core → Option Word) (unit occ : Nat) (run : VecCtx → Core → Core) (n : Nat)
    (k : Core) : Core :=
  match judge { k with usedV := true } with
  | some flag => vectorDiscard { k with usedV := true } flag
  | none =>
    if unitAccepts k unit n then
      run (vecCtxAt s i n k) { k with usedV := true, unitFree := mset k.unitFree unit (n + occ) }
    else vectorDiscard { k with usedV := true } vBusy

section
variable {s : State} {i : Issue} {judge : Core → Option Word} {unit occ : Nat} {run : VecCtx → Core → Core} {n : Nat} {k : Core}

/-- A vector field that issues in cycle n on core k acts there. -/
theorem issueVector_of_issue (h : fieldIssue s i.core.val Core.usedV = some (n, k)) :
    issueVector s i judge unit occ run = ((s.reach n).takeFree 16384).setCore i.core.val (vecIssued s i judge unit occ run n k) := by
  obtain ⟨hidle, hopen, hidle'⟩ := fieldIssue_some h
  simp only [issueVector, hidle, hopen, Bool.false_eq_true, if_false]
  rw [if_neg (by simp [hidle'])]
  rfl

theorem vecIssued_flagged {flag : Word} (h : judge { k with usedV := true } = some flag) :
    vecIssued s i judge unit occ run n k = vectorDiscard { k with usedV := true } flag := by
  simp only [vecIssued, h]

theorem vecIssued_busy (h : judge { k with usedV := true } = none) (hunit : n < mgetD k.unitFree unit 0) :
    vecIssued s i judge unit occ run n k = vectorDiscard { k with usedV := true } vBusy := by
  simp [vecIssued, h, unitAccepts, hunit]

theorem vecIssued_accepted (h : judge { k with usedV := true } = none) (hunit : mgetD k.unitFree unit 0 ≤ n) :
    vecIssued s i judge unit occ run n k =
      run (vecCtxAt s i n k) { k with usedV := true, unitFree := mset k.unitFree unit (n + occ) } := by
  simp [vecIssued, h, unitAccepts, hunit]

end

theorem unitDiscarded_vectorDiscard (k : Core) (b : Nat) (hb : b < 16) :
    unitDiscarded rVecStatus b k
      { vectorDiscard { k with usedV := true } (BitVec.ofNat 32 (2 ^ b)) with outbox := [], check := false } :=
  unitDiscarded_flagged { k with usedV := true } rVecStatus b hb

theorem judgeOp_some {ok : Bool} {k : Core} {flag : Word} (h : judgeOp ok k = some flag) : flag = BitVec.ofNat 32 (2 ^ 1) := by
  unfold judgeOp at h
  split at h
  · cases h
  · exact (Option.some.inj h).symm

theorem judgeOp_and_decide (ok : Bool) (p : Prop) [Decidable p] :
    judgeOp (ok && decide p) = fun _ => if ok = true ∧ p then none else some vBadOp := by
  funext k
  simp only [judgeOp, Bool.and_eq_true, decide_eq_true_eq]

@[simp] theorem putVec_unitFree (c : Core) (en : Bool) (v : VecRes) : (putVec c en v).unitFree = c.unitFree := by
  unfold putVec
  split <;> rfl

/-- A result put on its way where its bundle is enabled, on a core whose unit has been taken (R186, R247). -/
theorem vecResult_putVec {s : State} {i : Issue} {n lat : Nat} {k : Core} {what : State → Nat → Core → VecRes → Prop} {r : VecRes}
    (units : Map Nat) (hissue : r.issue = n) (hdue : r.due = n + lat) (hwhat : what s n k r) :
    vecResult i lat what s n k
      { putVec { k with usedV := true, unitFree := units } (enabledAt k i n) r with outbox := [], check := false } := by
  unfold vecResult
  cases enabledAt k i n with
  | false => exact ⟨rfl, fun _ => rfl, fun h => absurd h (by decide)⟩
  | true => exact ⟨rfl, fun h => absurd h (by decide), fun _ => ⟨r, rfl, hissue, hdue, hwhat⟩⟩

/-- An operation that is discarded only for its field, and otherwise puts one result on its way, acts as R152 and R182 to R186 say once
its result is known to be what it should be. -/
theorem vectorActs_putVec {x : Instr} {i : Issue} {ok : Bool} {unit occ lat : Nat} {what : State → Nat → Core → VecRes → Prop}
    {res : VecCtx → VecRes}
    (hexec : ∀ s, exec x s = .next (issueVector s i (judgeOp ok) unit occ fun y c => putVec c y.en (res y)))
    (hissue : ∀ y, (res y).issue = y.t) (hdue : ∀ y, (res y).due = y.t + lat)
    (hwhat : ∀ s n k, what s n k (res (vecCtxAt s i n k))) :
    vectorActs x i (judgeOp ok) unit occ (vecResult i lat what) := by
  intro s n k h
  have honly (k2 : Core) : onlyCore i.core.val s (((s.reach n).takeFree 16384).setCore i.core.val k2) :=
    onlyCore_trans (onlyCore_trans (onlyCore_reach _ s n) (onlyCore_takeFree _ _ _)) (onlyCore_setCore _ _ _)
  refine ⟨_, (hexec s).trans (congrArg Host.Outcome.next (issueVector_of_issue h)), honly _, ?_⟩
  rw [core_setCore_self]
  refine ⟨fun flag hflag => ⟨1, by decide, judgeOp_some hflag, ?discarded⟩, fun hnone hunit => ?busy, fun hnone hunit => ?accepted⟩
  case discarded =>
    rw [vecIssued_flagged hflag, judgeOp_some hflag]
    exact unitDiscarded_vectorDiscard k 1 (by decide)
  case busy =>
    rw [vecIssued_busy hnone hunit]
    exact unitDiscarded_vectorDiscard k 0 (by decide)
  case accepted =>
    rw [vecIssued_accepted (judge := judgeOp ok) hnone hunit]
    exact ⟨by simp, vecResult_putVec _ (hissue _) (hdue _) (hwhat s n k)⟩

/-! ### The elements of a source -/

theorem length_sourceTile (c : Core) (fr cyc sel : Nat) : (sourceTile c fr cyc sel).length = 256 := by
  unfold sourceTile
  split
  · rw [List.length_map, List.length_range]
  · split
    · rw [List.length_map, List.length_range]
    · exact List.length_replicate

theorem getLsbD_maskOf_vecView (k : Core) (n m e : Nat) : (maskOf (vecView k n) m).getLsbD e = vecActive k n m e := rfl

theorem src_getD (s : State) (i : Issue) (n : Nat) (k : Core) (j sel e : Nat) :
    ((vecCtxAt s i n k).src j sel).getD e ⟨0#32, false⟩ = vecSrc s k n j sel e := rfl

theorem src_getElem? (s : State) (i : Issue) (n : Nat) (k : Core) (j sel : Nat) {e : Nat} (he : e < 256) :
    ((vecCtxAt s i n k).src j sel)[e]? = some (vecSrc s k n j sel e) := by
  have hlen : e < ((vecCtxAt s i n k).src j sel).length := by simpa [VecCtx.src, length_sourceTile] using he
  rw [← src_getD s i, List.getD_eq_getElem _ _ hlen, List.getElem?_eq_getElem hlen]

/-- A result that lists its tile element by element writes that tile. -/
theorem oneTile_of_map {dst : Nat} {val g : Nat → Option PWord} {r : VecRes} (htiles : r.tiles = [(dst, (List.range 256).map g)])
    (h : ∀ e, e < 256 → g e = val e) : oneTile dst val r :=
  ⟨_, htiles, by simp, fun e he => by simp [he, h e he]⟩

/-! ### Masks put together bit by bit -/

/-- Setting the bits of a list that meet `p` sets those and no others. -/
theorem getLsbD_foldl_setBit (p : Nat → Prop) [DecidablePred p] (l : List Nat) (w : BitVec 256) {e : Nat} (he : e < 256) :
    (l.foldl (fun w e => if p e then w ||| BitVec.ofNat 256 (2 ^ e) else w) w).getLsbD e = (w.getLsbD e || decide (e ∈ l ∧ p e)) := by
  induction l generalizing w with
  | nil => simp
  | cons x t ih =>
    rw [List.foldl_cons, ih]
    by_cases hp : p x
    · rw [if_pos hp, BitVec.getLsbD_or, BitVec.getLsbD_ofNat, Nat.testBit_two_pow]
      by_cases hx : x = e
      · simp [← hx, hp, hx ▸ he]
      · simp [hx, Ne.symm hx]
    · have hx : p e → e ≠ x := fun hpe h => hp (h ▸ hpe)
      rw [if_neg hp]
      grind

/-- Bit e of a mask whose bits are set where `p` holds says whether it holds of e. -/
theorem getLsbD_setBits (p : Nat → Prop) [DecidablePred p] {e : Nat} (he : e < 256) :
    ((List.range 256).foldl (fun w e => if p e then w ||| BitVec.ofNat 256 (2 ^ e) else w) 0#256).getLsbD e = decide (p e) := by
  rw [getLsbD_foldl_setBit p _ _ he]
  simp [he]

/-- `vcmp`: the compare's bits where the mask is 1 (R162). -/
theorem vcmp_acts (i : Issue) (f : VecField) :
    vectorActs (.vcmp i f) i (judgeOp (vecFieldOk ⟨true, true, false, true, true, 0xF#6⟩ f)) 0 1
      (vecResult i 4 fun s n k r => r.tiles = [] ∧ ∃ m, r.mask = some (f.dst.toNat, m) ∧ ∀ e, e < 256 → m.getLsbD e =
        (vecActive k n f.msk.toNat e &&
          let a := (vecSrc s k n 0 f.sa.toNat e).val
          let b := (vecSrc s k n 1 f.sb.toNat e).val
          if vInt f then icompare (vCond f) a b else fcompare (vCond f) a b)) := by
  refine vectorActs_putVec (fun _ => rfl) (fun _ => rfl) (fun _ => rfl) fun s n k => ⟨rfl, _, rfl, fun e he => ?_⟩
  rw [getLsbD_setBits _ he]
  exact Bool.decide_eq_true

/-- `vstm`: a row's bits from its status (R167). -/
theorem vstm_acts (i : Issue) (f : VecField) :
    vectorActs (.vstm i f) i (judgeOp (vecFieldOk ⟨true, false, false, true, false, 0xF#6⟩ f && decide (f.sa.toNat < 32))) 0 1
      (vecResult i 4 fun s n k r => r.tiles = [] ∧ ∃ m, r.mask = some (f.dst.toNat, m) ∧ ∀ e, e < 256 → m.getLsbD e =
        decide ((statusSeen (vecView k n) s.free (n + 1) f.sa.toNat (e / 16)) &&& (f.mod.toNat % 16) ≠ 0)) := by
  refine vectorActs_putVec (fun _ => rfl) (fun _ => rfl) (fun _ => rfl) fun s n k => ⟨rfl, _, rfl, fun e he => ?_⟩
  exact getLsbD_setBits _ he

/-! ### The active positions of a stretch of a tile -/

/-- The active positions from `lo` on and below `hi`, in order. -/
def activeFrom (active : Nat → Bool) (lo hi : Nat) : List Nat := (List.range' lo (hi - lo)).filter active

/-- Picking the positions of a stretch out of a longer one leaves the active positions of the stretch. -/
theorem filter_range_eq_activeFrom (active : Nat → Bool) {lo hi m : Nat} (hlo : lo ≤ hi) (hm : hi ≤ m) :
    ((List.range m).filter fun e => decide (lo ≤ e ∧ e < hi) && active e) = activeFrom active lo hi := by
  have hsplit : List.range m = List.range' 0 lo ++ (List.range' lo (hi - lo) ++ List.range' hi (m - hi)) := by
    have h1 := List.range'_append_1 (s := lo) (m := hi - lo) (n := m - hi)
    have h2 := List.range'_append_1 (s := 0) (m := lo) (n := m - lo)
    rw [show lo + (hi - lo) = hi by omega, show hi - lo + (m - hi) = m - lo by omega] at h1
    rw [show 0 + lo = lo by omega, show lo + (m - lo) = m by omega] at h2
    rw [h1, h2, List.range_eq_range']
  have hbefore : ((List.range' 0 lo).filter fun e => decide (lo ≤ e ∧ e < hi) && active e) = [] := by
    simp only [List.filter_eq_nil_iff, List.mem_range'_1, Bool.and_eq_true, decide_eq_true_eq]
    omega
  have hafter : ((List.range' hi (m - hi)).filter fun e => decide (lo ≤ e ∧ e < hi) && active e) = [] := by
    simp only [List.filter_eq_nil_iff, List.mem_range'_1, Bool.and_eq_true, decide_eq_true_eq]
    omega
  have hwithin : ((List.range' lo (hi - lo)).filter fun e => decide (lo ≤ e ∧ e < hi) && active e) = activeFrom active lo hi := by
    refine List.filter_congr fun e he => ?_
    have : lo ≤ e ∧ e < hi := by rw [List.mem_range'_1] at he; omega
    simp [this]
  rw [hsplit, List.filter_append, List.filter_append, hbefore, hafter, hwithin, List.nil_append, List.append_nil]

theorem activeFrom_append (active : Nat → Bool) {lo mid hi : Nat} (h1 : lo ≤ mid) (h2 : mid ≤ hi) :
    activeFrom active lo mid ++ activeFrom active mid hi = activeFrom active lo hi := by
  have h := List.range'_append_1 (s := lo) (m := mid - lo) (n := hi - mid)
  rw [show lo + (mid - lo) = mid by omega, show mid - lo + (hi - mid) = hi - lo by omega] at h
  rw [activeFrom, activeFrom, activeFrom, ← List.filter_append, h]

theorem length_activeFrom_le (active : Nat → Bool) (lo hi : Nat) : (activeFrom active lo hi).length ≤ hi - lo :=
  (List.length_filter_le _ _).trans_eq (by simp)

/-- The active positions of a row (R168). -/
theorem activeIn_eq_activeFrom (mask : BitVec 256) (i : Nat) :
    activeIn mask i = activeFrom (fun e => mask.getLsbD e) (16 * i) (16 * i + 16) := by
  rw [activeFrom, Nat.add_sub_cancel_left, List.range'_eq_map_range, ← List.filterMap_eq_filter, List.filterMap_map]
  rfl

/-- Row after row, the active positions of the rows are those of the tile in order (R168). -/
theorem flatten_activeIn (mask : BitVec 256) (m : Nat) :
    ((List.range m).map fun r => activeIn mask r).flatten = activeFrom (fun e => mask.getLsbD e) 0 (16 * m) := by
  induction m with
  | zero => rfl
  | succ m ih =>
    rw [List.range_succ, List.map_append, List.flatten_append, ih,
      ← activeFrom_append _ (Nat.zero_le (16 * m)) (show 16 * m ≤ 16 * (m + 1) by omega)]
    simp [activeIn_eq_activeFrom, Nat.mul_add]

/-- The active positions of a stretch that lie before one of its positions (R169). -/
theorem filter_before_eq_activeFrom (active : Nat → Bool) {lo e : Nat} (hlo : lo ≤ e) :
    ((List.range e).filter fun p => decide (lo ≤ p) && active p) = activeFrom active lo e := by
  rw [← filter_range_eq_activeFrom active hlo (Nat.le_refl e)]
  refine List.filter_congr fun p hp => ?_
  simp [List.mem_range.mp hp]

/-- The counts of the rows add up to the count of the tile (R168). -/
theorem foldl_add_length_eq (rows : List (List Nat)) : (rows.map List.length).foldl (· + ·) 0 = rows.flatten.length := by
  rw [← List.sum_eq_foldl, List.length_flatten]

/-- `vcmpr`: place e holds the active element that is e-th in its stretch, if there is one (R168). -/
theorem vcmpr_acts (i : Issue) (f : VecField) :
    vectorActs (.vcmpr i f) i (judgeOp (vecFieldOk (useUnary 3#6) f)) 0 2
      (vecResult i 8 fun s n k r =>
        let act (lo hi : Nat) : List Nat := ((List.range 256).filter fun e => decide (lo ≤ e ∧ e < hi) && vecActive k n f.msk.toNat e)
        r.count = some (act 0 256).length ∧ oneTile f.dst.toNat (fun e =>
          let q := if vBit1 f then (act (16 * (e / 16)) (16 * (e / 16) + 16))[e % 16]? else (act 0 256)[e]?
          some (match q with
            | some p => vecSrc s k n 0 f.sa.toNat p
            | none => ⟨0#32, false⟩)) r) := by
  refine vectorActs_putVec (fun _ => rfl) (fun _ => rfl) (fun _ => rfl) fun s n k => ?_
  have hall : (((List.range 16).map fun r => activeIn (maskOf (vecView k n) f.msk.toNat) r).flatten) =
      (List.range 256).filter fun e => decide (0 ≤ e ∧ e < 256) && vecActive k n f.msk.toNat e :=
    (flatten_activeIn _ 16).trans (filter_range_eq_activeFrom _ (by omega) (by omega)).symm
  have hrow (e : Nat) (he : e < 256) :
      ((List.range 16).map fun r => activeIn (maskOf (vecView k n) f.msk.toNat) r).getD (e / 16) [] =
        (List.range 256).filter fun p => decide (16 * (e / 16) ≤ p ∧ p < 16 * (e / 16) + 16) && vecActive k n f.msk.toNat p := by
    have hr : e / 16 < 16 := by omega
    rw [filter_range_eq_activeFrom _ (by omega) (by omega), List.getD_eq_getElem?_getD, List.getElem?_map, List.getElem?_range hr]
    exact activeIn_eq_activeFrom _ _
  refine ⟨congrArg some ((foldl_add_length_eq _).trans (congrArg List.length hall)), oneTile_of_map rfl fun e he => ?_⟩
  simp only [vecCtxAt_view]
  rw [hrow e he, hall]
  generalize (if vBit1 f = true then _ else _) = q
  cases q <;> rfl

/-- `vexpd`: an active position holds the element of SA that its active predecessors leave to it (R169). -/
theorem vexpd_acts (i : Issue) (f : VecField) :
    vectorActs (.vexpd i f) i (judgeOp (vecFieldOk (useBinary 3#6) f)) 0 2
      (vecResult i 8 fun s n k r => oneTile f.dst.toNat (fun e =>
        let lo := if vBit1 f then 16 * (e / 16) else 0
        let before := ((List.range 256).filter fun p => decide (lo ≤ p ∧ p < e) && vecActive k n f.msk.toNat p).length
        some (if vecActive k n f.msk.toNat e then vecSrc s k n 0 f.sa.toNat (lo + before) else vecSrc s k n 1 f.sb.toNat e)) r) := by
  refine vectorActs_putVec (fun _ => rfl) (fun _ => rfl) (fun _ => rfl) fun s n k => oneTile_of_map rfl fun e he => ?_
  have hbefore (lo : Nat) (hlo : lo ≤ e) :
      ((List.range e).filter fun p => decide (lo ≤ p) && vecActive k n f.msk.toNat p) =
        (List.range 256).filter fun p => decide (lo ≤ p ∧ p < e) && vecActive k n f.msk.toNat p :=
    (filter_before_eq_activeFrom _ hlo).trans (filter_range_eq_activeFrom _ hlo (by omega)).symm
  have hwithin (lo : Nat) (hlo : lo ≤ e) :
      lo + ((List.range 256).filter fun p => decide (lo ≤ p ∧ p < e) && vecActive k n f.msk.toNat p).length < 256 := by
    have := length_activeFrom_le (vecActive k n f.msk.toNat) lo e
    rw [filter_range_eq_activeFrom _ hlo (by omega)]
    omega
  simp only [vecCtxAt_view, getLsbD_maskOf_vecView, Nat.mul_comm (e / 16) 16]
  by_cases hactive : vecActive k n f.msk.toNat e
  · by_cases hrow : vBit1 f
    · simp only [hactive, hrow, if_true]
      rw [hbefore _ (by omega), src_getElem? s i n k _ _ (hwithin _ (by omega))]
    · simp only [hactive, hrow, if_true, Bool.false_eq_true, if_false]
      rw [hbefore 0 (by omega), ← src_getElem? s i n k _ _ (hwithin 0 (by omega)), Nat.zero_add]
  · simp only [hactive, Bool.false_eq_true, if_false]
    exact src_getElem? s i n k _ _ he

/-- Settles O16: each of the four operations puts one result on its way; the masks' bits are read off the folds that set them, and the
positions that `vcmpr` and `vexpd` count are the active positions of a stretch in order. -/
theorem maskAndPackingOperationsAct : Obligations.MaskAndPackingOperationsAct := by
  unfold Obligations.MaskAndPackingOperationsAct
  refine ⟨⟨vcmp_acts, fun i f => ?_⟩, vcmpr_acts, vexpd_acts⟩
  rw [← judgeOp_and_decide]
  exact vstm_acts i f

end Sys2Proof.Machine
end

section
/-! PROOFS. Handle queues and buffers of the scratchpad: what a push and a pop leave of a core, what judging a buffer and swapping its
halves write into its registers (R219, R220, R225 to R227). -/

namespace Sys2Proof.Machine

/-- The reports that leave a core put into the state are not among its registers. -/
@[simp] theorem cReg_withoutReports (k : Core) (o : Nat) : cReg { k with outbox := [], check := false } o = cReg k o := rfl
@[simp] theorem countsOne_withoutReports (k k2 : Core) (off hi lo : Nat) :
    countsOne k { k2 with outbox := [], check := false } off hi lo = countsOne k k2 off hi lo := rfl

/-! ### Handle queues -/

theorem hqPush_of_accepted {c : Core} {q t : Nat} {v : Word} (hv : v ≠ 0#32) (hroom : (hqCycle c q t).1 + (hqCycle c q t).2 < 16) :
    hqPush c q t v = { c with hqs := mset c.hqs q (mgetD c.hqs q [] ++ [v])
                              hqCyc := mset c.hqCyc q (t, (hqCycle c q t).1, (hqCycle c q t).2 + 1) } :=
  if_neg (not_or.mpr ⟨hv, Nat.not_le.mpr hroom⟩)

theorem hqPush_of_refused {c : Core} {q t : Nat} {v : Word} (h : v = 0#32 ∨ 16 ≤ (hqCycle c q t).1 + (hqCycle c q t).2) :
    hqPush c q t v =
      cFlag (cCount (cFlag c (0x250C + 0x10 * q) 0x100#32) (0x250C + 0x10 * q) 31 16 1) rSpdStatus 16#32 :=
  if_pos h

/-- A push leaves the other queues as they are. -/
theorem hqPush_hqs_ne (c : Core) (q t : Nat) (v : Word) {j : Nat} (hj : j ≠ q) :
    mgetD (hqPush c q t v).hqs j [] = mgetD c.hqs j [] := by
  by_cases h : v = 0#32 ∨ 16 ≤ (hqCycle c q t).1 + (hqCycle c q t).2
  · rw [hqPush_of_refused h]; rfl
  · obtain ⟨hv, hroom⟩ := not_or.mp h
    rw [hqPush_of_accepted hv (Nat.not_le.mp hroom)]
    exact mgetD_mset_ne _ _ _ _ _ hj

/-- A refused push is flagged for its queue and in `spd.status`, and REFUSED counts it (R225). -/
theorem hqPush_refused_reported {c : Core} {q t : Nat} {v : Word} (h : v = 0#32 ∨ 16 ≤ (hqCycle c q t).1 + (hqCycle c q t).2) :
    bit (cReg (hqPush c q t v) rSpdStatus) 4 = true ∧ bit (cReg (hqPush c q t v) (0x250C + 0x10 * q)) 8 = true ∧
      countsOne c (hqPush c q t v) (0x250C + 0x10 * q) 31 16 := by
  have hne : 0x250C + 0x10 * q ≠ rSpdStatus := by simp only [rSpdStatus]; omega
  obtain ⟨hflag, hcount, -⟩ := unitDiscarded_flagged c (0x250C + 0x10 * q) 8 (by decide)
  rw [countsOne, hqPush_of_refused h, cReg_cFlag_ne _ _ _ _ hne, cReg_cFlag_self, bit_or]
  exact ⟨by simp [bit], hflag, hcount⟩

theorem hqPop_of_empty {c : Core} {q t : Nat} (h : mgetD c.hqs q [] = [] ∨ (hqCycle c q t).1 = 0) : hqPop c q t = (0#32, c) := by
  unfold hqPop
  cases hl : mgetD c.hqs q [] with
  | nil => rfl
  | cons v rest => exact if_pos (h.resolve_left (by simp [hl]))

theorem hqPop_of_head {c : Core} {q t : Nat} {v : Word} {rest : List Word} (hl : mgetD c.hqs q [] = v :: rest)
    (hn : (hqCycle c q t).1 ≠ 0) :
    hqPop c q t = (v, { c with hqs := mset c.hqs q rest, hqCyc := mset c.hqCyc q (t, (hqCycle c q t).1, (hqCycle c q t).2) }) := by
  simp only [hqPop, hl, hn, if_false]

/-- A pop leaves the registers and the other queues as they are. -/
theorem hqPop_frame (c : Core) (q t : Nat) :
    (hqPop c q t).2.regs = c.regs ∧ ∀ j, j ≠ q → mgetD (hqPop c q t).2.hqs j [] = mgetD c.hqs j [] := by
  by_cases h : mgetD c.hqs q [] = [] ∨ (hqCycle c q t).1 = 0
  · rw [hqPop_of_empty h]; exact ⟨rfl, fun _ _ => rfl⟩
  · obtain ⟨hl, hn⟩ := not_or.mp h
    obtain ⟨v, rest, hl⟩ := List.exists_cons_of_ne_nil hl
    rw [hqPop_of_head hl hn]
    exact ⟨rfl, fun j hj => mgetD_mset_ne _ _ _ _ _ hj⟩

/-- HQ_PUSH after the pushes that have landed (R225, R227). -/
theorem hqPush_acts (c : CoreId) (q : Fin 8) (val : Word) (s : State) :
    let k := settlePushes (s.coreNow c.val) (s.now + 1)
    let l := mgetD k.hqs q.val []
    let n := hqCycle k q.val s.now
    leads (.hqPush c q val) s fun t =>
      let k2 := t.core c.val
      onlyCore c.val s t ∧ t.now = s.now ∧ (∀ j, j ≠ q.val → mgetD k2.hqs j [] = mgetD k.hqs j []) ∧
      (val ≠ 0#32 → n.1 + n.2 < 16 → mgetD k2.hqs q.val [] = l ++ [val] ∧ k2.regs = k.regs) ∧
      (val = 0#32 ∨ 16 ≤ n.1 + n.2 → mgetD k2.hqs q.val [] = l ∧ bit (cReg k2 rSpdStatus) 4 = true ∧
        bit (cReg k2 (0x250C + 0x10 * q.val)) 8 = true ∧ countsOne k k2 (0x250C + 0x10 * q.val) 31 16) := by
  have hexec : exec (.hqPush c q val) s =
      .next (s.setCore c.val (hqPush (settlePushes (s.coreNow c.val) (s.now + 1)) q.val s.now val)) := rfl
  generalize settlePushes (s.coreNow c.val) (s.now + 1) = k at hexec
  refine ⟨_, hexec, onlyCore_setCore _ _ _, setCore_now _ _ _, ?_⟩
  simp only [core_setCore_self, cReg_withoutReports, countsOne_withoutReports]
  refine ⟨fun j hj => hqPush_hqs_ne k _ _ _ hj, fun hv hroom => ?accepted, fun h => ⟨?kept, hqPush_refused_reported h⟩⟩
  case accepted => rw [hqPush_of_accepted hv hroom]; exact ⟨mgetD_mset_self _ _ _ _, rfl⟩
  case kept => rw [hqPush_of_refused h]; rfl

/-- HQ_POP after the pushes that have landed (R226, R227). -/
theorem hqPop_acts (c : CoreId) (q : Fin 8) (s : State) :
    let k := settlePushes (s.coreNow c.val) (s.now + 1)
    let l := mgetD k.hqs q.val []
    let n := hqCycle k q.val s.now
    leads (.hqPop c q) s fun t =>
      let k2 := t.core c.val
      t.now = s.now ∧ k2.regs = k.regs ∧ (∀ j, j ≠ q.val → mgetD k2.hqs j [] = mgetD k.hqs j []) ∧
      (l = [] ∨ n.1 = 0 → t.reply = some ⟨0, [0#32]⟩ ∧ mgetD k2.hqs q.val [] = l) ∧
      (∀ v rest, l = v :: rest → n.1 ≠ 0 → t.reply = some ⟨0, [v]⟩ ∧ mgetD k2.hqs q.val [] = rest) := by
  have hexec : exec (.hqPop c q) s =
      let r := hqPop (settlePushes (s.coreNow c.val) (s.now + 1)) q.val s.now
      .next ((s.setCore c.val r.2).answer 0 [r.1]) := rfl
  generalize settlePushes (s.coreNow c.val) (s.now + 1) = k at hexec
  obtain ⟨hregs, hothers⟩ := hqPop_frame k q.val s.now
  refine ⟨_, hexec, setCore_now _ _ _, ?_⟩
  simp only [core_answer, core_setCore_self, answer_reply]
  refine ⟨hregs, hothers, fun h => ?empty, fun v rest hl hn => ?head⟩
  case empty => rw [hqPop_of_empty h]; exact ⟨rfl, rfl⟩
  case head => rw [hqPop_of_head hl hn]; exact ⟨rfl, mgetD_mset_self _ _ _ _⟩

/-! ### Buffers -/

/-- The registers of a buffer and `spd.status` are different registers. -/
theorem bufRegs_distinct (n : Nat) :
    bufHalf n ≠ bufBase n ∧ bufCtl n ≠ bufBase n ∧ bufHalf n ≠ bufCtl n ∧
      bufBase n ≠ rSpdStatus ∧ bufHalf n ≠ rSpdStatus ∧ bufCtl n ≠ rSpdStatus := by
  simp only [bufBase, bufHalf, bufCtl, rSpdStatus]; omega

section
variable {c : Core} {n : Nat} {isBase : Bool}

theorem bufJudge_of_disabled (hen : bit (cReg c (bufBase n)) 31 = false) : bufJudge c n isBase = c := by
  simp [bufJudge, hen]

theorem bufJudge_of_valid (hen : bit (cReg c (bufBase n)) 31 = true)
    (hvalid : bufValid (cReg c (bufBase n)) (cReg c (bufHalf n)) = true) :
    bufJudge c n isBase = if isBase then cFld c (bufCtl n) 4 4 0 else c := by
  simp [bufJudge, hen, hvalid]

theorem bufJudge_of_invalid (hen : bit (cReg c (bufBase n)) 31 = true)
    (hvalid : bufValid (cReg c (bufBase n)) (cReg c (bufHalf n)) = false) :
    bufJudge c n isBase = cFlag (cFld (cFld c (bufBase n) 31 31 0) (bufCtl n) 4 4 1) rSpdStatus 8#32 := by
  simp [bufJudge, hen, hvalid]

/-- Judging a buffer touches its control register at most, where the buffer is disabled or valid. -/
theorem cReg_bufJudge_of_valid {o : Nat}
    (h : bit (cReg c (bufBase n)) 31 = false ∨ bufValid (cReg c (bufBase n)) (cReg c (bufHalf n)) = true) (ho : o ≠ bufCtl n) :
    cReg (bufJudge c n isBase) o = cReg c o := by
  cases hen : bit (cReg c (bufBase n)) 31 with
  | false => rw [bufJudge_of_disabled hen]
  | true =>
    rw [bufJudge_of_valid hen (h.resolve_left (by simp [hen]))]
    cases isBase with
    | false => rfl
    | true => exact cReg_cFld_ne _ _ _ _ _ _ ho

/-- Judging a buffer touches nothing but its base and control registers and `spd.status`. -/
theorem cReg_bufJudge_ne {o : Nat} (hbase : o ≠ bufBase n) (hctl : o ≠ bufCtl n) (hstatus : o ≠ rSpdStatus) :
    cReg (bufJudge c n isBase) o = cReg c o := by
  by_cases h : bit (cReg c (bufBase n)) 31 = false ∨ bufValid (cReg c (bufBase n)) (cReg c (bufHalf n)) = true
  · exact cReg_bufJudge_of_valid h hctl
  · obtain ⟨hen, hvalid⟩ := not_or.mp h
    rw [bufJudge_of_invalid (by simpa using hen) (by simpa using hvalid), cReg_cFlag_ne _ _ _ _ hstatus, cReg_cFld_ne _ _ _ _ _ _ hctl,
      cReg_cFld_ne _ _ _ _ _ _ hbase]

/-- A valid enable clears BAD (R219). -/
theorem bufJudge_clears_bad (hen : bit (cReg c (bufBase n)) 31 = true)
    (hvalid : bufValid (cReg c (bufBase n)) (cReg c (bufHalf n)) = true) : bit (cReg (bufJudge c n true) (bufCtl n)) 4 = false := by
  rw [bufJudge_of_valid hen hvalid, if_pos rfl, cReg_cFld_self, bit_setFld_one _ _ _ (by decide)]
  rfl

/-- An enabled buffer that is not valid loses EN; BAD and BAD_BUF say so (R219). -/
theorem bufJudge_disables (hen : bit (cReg c (bufBase n)) 31 = true)
    (hvalid : bufValid (cReg c (bufBase n)) (cReg c (bufHalf n)) = false) :
    bit (cReg (bufJudge c n isBase) (bufBase n)) 31 = false ∧ bit (cReg (bufJudge c n isBase) (bufCtl n)) 4 = true ∧
      bit (cReg (bufJudge c n isBase) rSpdStatus) 3 = true := by
  obtain ⟨-, hctlBase, -, hbaseStatus, -, hctlStatus⟩ := bufRegs_distinct n
  rw [bufJudge_of_invalid hen hvalid]
  refine ⟨?en, ?bad, ?badBuf⟩
  case en =>
    rw [cReg_cFlag_ne _ _ _ _ hbaseStatus, cReg_cFld_ne _ _ _ _ _ _ hctlBase.symm, cReg_cFld_self, bit_setFld_one _ _ _ (by decide)]
    rfl
  case bad =>
    rw [cReg_cFlag_ne _ _ _ _ hctlStatus, cReg_cFld_self, bit_setFld_one _ _ _ (by decide)]
    rfl
  case badBuf => rw [cReg_cFlag_self, bit_or]; simp [bit]

end

/-- A core with a buffer's base or half register written and the buffer not yet judged. -/
def bufWritten (c : Core) (n : Nat) (isBase : Bool) (val : Word) : Core :=
  if isBase then cSet c (bufBase n) (val &&& 0x803FFFFF#32) else cSet c (bufHalf n) (val &&& 0x003FFFFF#32)

theorem writeBuf_eq_bufJudge (c : Core) (n : Nat) (isBase : Bool) (val : Word) :
    writeBuf c n isBase val = bufJudge (bufWritten c n isBase val) n isBase := by
  cases isBase <;> rfl

theorem cReg_bufWritten_base (c : Core) (n : Nat) (isBase : Bool) (val : Word) :
    cReg (bufWritten c n isBase val) (bufBase n) = if isBase then val &&& 0x803FFFFF#32 else cReg c (bufBase n) := by
  cases isBase with
  | false => exact cReg_cSet_ne _ _ _ _ (bufRegs_distinct n).1.symm
  | true => exact cReg_cSet_self _ _ _

theorem cReg_bufWritten_half (c : Core) (n : Nat) (isBase : Bool) (val : Word) :
    cReg (bufWritten c n isBase val) (bufHalf n) = if isBase then cReg c (bufHalf n) else val &&& 0x003FFFFF#32 := by
  cases isBase with
  | false => exact cReg_cSet_self _ _ _
  | true => exact cReg_cSet_ne _ _ _ _ (bufRegs_distinct n).1

theorem cReg_bufWritten_ne (c : Core) {n : Nat} (isBase : Bool) (val : Word) {o : Nat} (hbase : o ≠ bufBase n) (hhalf : o ≠ bufHalf n) :
    cReg (bufWritten c n isBase val) o = cReg c o := by
  cases isBase with
  | false => exact cReg_cSet_ne _ _ _ _ hhalf
  | true => exact cReg_cSet_ne _ _ _ _ hbase

/-- BUFFER_CONFIG writes its register and judges the buffer (R219). -/
theorem bufferConfig_acts (c : CoreId) (n : Fin 16) (s : State) (isBase : Bool) (val : Word) :
    let k := s.coreNow c.val
    leads (.bufferConfig c n isBase val) s fun t =>
      let k2 := t.core c.val
      let b := if isBase then val &&& 0x803FFFFF#32 else cReg k (bufBase n.val)
      let h := if isBase then cReg k (bufHalf n.val) else val &&& 0x003FFFFF#32
      onlyCore c.val s t ∧ t.now = s.now ∧ cReg k2 (bufHalf n.val) = h ∧
      (∀ o, o ≠ bufBase n.val → o ≠ bufHalf n.val → o ≠ bufCtl n.val → o ≠ rSpdStatus → cReg k2 o = cReg k o) ∧
      (bit b 31 = false ∨ bufValid b h = true → cReg k2 (bufBase n.val) = b ∧ cReg k2 rSpdStatus = cReg k rSpdStatus) ∧
      (bit b 31 = true → bufValid b h = true → isBase = true → bit (cReg k2 (bufCtl n.val)) 4 = false) ∧
      (bit b 31 = true → bufValid b h = false → bit (cReg k2 (bufBase n.val)) 31 = false ∧ bit (cReg k2 (bufCtl n.val)) 4 = true ∧
        bit (cReg k2 rSpdStatus) 3 = true) := by
  have hexec : exec (.bufferConfig c n isBase val) s = .next (s.setCore c.val (writeBuf (s.coreNow c.val) n.val isBase val)) := rfl
  generalize s.coreNow c.val = k at hexec
  obtain ⟨hhalfBase, hctlBase, hhalfCtl, hbaseStatus, hhalfStatus, hctlStatus⟩ := bufRegs_distinct n.val
  refine ⟨_, hexec, onlyCore_setCore _ _ _, setCore_now _ _ _, ?_⟩
  simp only [core_setCore_self, cReg_withoutReports, writeBuf_eq_bufJudge]
  rw [← cReg_bufWritten_base k, ← cReg_bufWritten_half k]
  refine ⟨cReg_bufJudge_ne hhalfBase hhalfCtl hhalfStatus, fun o h1 h2 h3 h4 => ?frame,
    fun h => ⟨cReg_bufJudge_of_valid h hctlBase.symm, ?status⟩, fun hen hvalid htrue => ?clear, bufJudge_disables⟩
  case frame => exact (cReg_bufJudge_ne h1 h3 h4).trans (cReg_bufWritten_ne k _ _ h1 h2)
  case status => exact (cReg_bufJudge_of_valid h hctlStatus.symm).trans (cReg_bufWritten_ne k _ _ hbaseStatus.symm hhalfStatus.symm)
  case clear => subst htrue; exact bufJudge_clears_bad hen hvalid

/-- A swap touches nothing but the buffer's control register. -/
theorem cReg_swapBuf_ne (c : Core) (n : Nat) {o : Nat} (ho : o ≠ bufCtl n) : cReg (swapBuf c n) o = cReg c o := by
  unfold swapBuf
  split
  · exact (cReg_cFld_ne _ _ _ _ _ _ ho).trans (cReg_cFld_ne _ _ _ _ _ _ ho)
  · rfl

theorem swapBuf_of_disabled {c : Core} {n : Nat} (hen : bit (cReg c (bufBase n)) 31 = false) : swapBuf c n = c := by
  simp [swapBuf, hen]

theorem cReg_swapBuf_ctl {c : Core} {n : Nat} (hen : bit (cReg c (bufBase n)) 31 = true) :
    cReg (swapBuf c n) (bufCtl n) =
      let cur := fld (cReg c (bufCtl n)) 0 0
      setFld (setFld (cReg c (bufCtl n)) 0 0 (1 - cur)) (2 + cur) (2 + cur) 0 := by
  simp [swapBuf, hen]

/-- A swap of an enabled buffer turns CUR and clears RDY of the half that was in front (R220). -/
theorem swapBuf_turns {c : Core} {n : Nat} (hen : bit (cReg c (bufBase n)) 31 = true) :
    let cur := fld (cReg c (bufCtl n)) 0 0
    fld (cReg (swapBuf c n) (bufCtl n)) 0 0 = 1 - cur ∧ bit (cReg (swapBuf c n) (bufCtl n)) (2 + cur) = false ∧
      bit (cReg (swapBuf c n) (bufCtl n)) (3 - cur) = bit (cReg c (bufCtl n)) (3 - cur) := by
  intro cur
  have hcur : cur < 2 := fld_lt _ 0 0
  rw [cReg_swapBuf_ctl hen]
  refine ⟨?turned, ?cleared, ?kept⟩
  case turned =>
    rw [fld_setFld_ne _ _ _ _ _ _ (by omega), fld_setFld_self _ _ _ _ (by decide)]
    exact Nat.mod_eq_of_lt (by omega)
  case cleared =>
    rw [bit_setFld_one _ _ _ (by omega)]
    rfl
  case kept => rw [bit_setFld _ _ _ _ _ (by omega), bit_setFld _ _ _ _ _ (by omega)]

/-- SWAP swaps the halves of the buffer in its core (R220). -/
theorem swap_acts (c : CoreId) (n : Fin 16) (s : State) :
    let k := s.coreNow c.val
    leads (.swap c n) s fun t =>
      let k2 := t.core c.val
      let cur := fld (cReg k (bufCtl n.val)) 0 0
      onlyCore c.val s t ∧ t.now = s.now ∧ (∀ o, o ≠ bufCtl n.val → cReg k2 o = cReg k o) ∧
      (bit (cReg k (bufBase n.val)) 31 = false → cReg k2 (bufCtl n.val) = cReg k (bufCtl n.val)) ∧
      (bit (cReg k (bufBase n.val)) 31 = true → fld (cReg k2 (bufCtl n.val)) 0 0 = 1 - cur ∧
        bit (cReg k2 (bufCtl n.val)) (2 + cur) = false ∧
        bit (cReg k2 (bufCtl n.val)) (3 - cur) = bit (cReg k (bufCtl n.val)) (3 - cur)) := by
  have hexec : exec (.swap c n) s = .next (s.setCore c.val (swapBuf (s.coreNow c.val) n.val)) := rfl
  generalize s.coreNow c.val = k at hexec
  refine ⟨_, hexec, onlyCore_setCore _ _ _, setCore_now _ _ _, ?_⟩
  simp only [core_setCore_self, cReg_withoutReports]
  exact ⟨fun o ho => cReg_swapBuf_ne k _ ho, fun hen => by rw [swapBuf_of_disabled hen], swapBuf_turns⟩

/-- Settles O24: a push and a pop act on the queue as the landed pushes leave it, accepted or refused by its count; a write of a buffer's
register is judged by the buffer it makes, and a swap by EN. -/
theorem queuesAndBuffersAct : Obligations.QueuesAndBuffersAct := by
  unfold Obligations.QueuesAndBuffersAct
  exact ⟨fun c q s => ⟨fun val => hqPush_acts c q val s, hqPop_acts c q s⟩,
    fun c n s => ⟨fun isBase val => bufferConfig_acts c n s isBase val, swap_acts c n s⟩⟩

end Sys2Proof.Machine
end

section
/-! PROOFS. Steps: every command answers a next state, takes nothing from the queue and does not move device time back, but for the ENABLE
with which device time starts. One lemma for the commands of each part of the model, in the order of its files; each rests on the laws of
the operations which its commands call. -/

set_option linter.unusedSimpArgs false

namespace Sys2Proof.Machine

/-- The outcome is a next state with the queue of `s` and no earlier device time. -/
def stepsOn (s : State) (o : Host.Outcome State Fault Refusal) : Prop := ∃ t, o = .next t ∧ t.pending = s.pending ∧ s.now ≤ t.now

/-- An operation keeps the queue and the device time of every state. -/
def keepsQueueAndTime (f : State → State) : Prop := ∀ a, (f a).pending = a.pending ∧ (f a).now = a.now

theorem stepsOn_of_keeps {f : State → State} (h : keepsQueueAndTime f) (s : State) : stepsOn s (.next (f s)) :=
  ⟨_, rfl, (h s).1, Nat.le_of_eq (h s).2.symm⟩

theorem command_stepsOn {body : State → Ring → List Word → State} (h : ∀ k ws, keepsQueueAndTime fun a => body a k ws) (s : State)
    (r : Nat) (pos : Word) (code : Nat) : stepsOn s (.next (command s r pos code body)) :=
  ⟨_, rfl, command_pending _ _ _ _ _ fun a k ws => (h k ws a).1, Nat.le_of_eq (command_now _ _ _ _ _ fun a k ws => (h k ws a).2).symm⟩

theorem commandIf_stepsOn {body : State → Ring → List Word → State} (h : ∀ k ws, keepsQueueAndTime fun a => body a k ws) (s : State)
    (r : Nat) (pos : Word) (code : Nat) (test : List Word → Bool) : stepsOn s (.next (commandIf s r pos code test body)) :=
  ⟨_, rfl, commandIf_pending _ _ _ _ _ _ fun a k ws => (h k ws a).1,
    Nat.le_of_eq (commandIf_now _ _ _ _ _ _ fun a k ws => (h k ws a).2).symm⟩

theorem runStep_stepsOn {body : State → State} (h : keepsQueueAndTime body) (s : State) (k : Nat) : stepsOn s (.next (runStep s k body)) :=
  stepsOn_of_keeps (f := fun a => runStep a k body) (fun _ => ⟨runStep_pending _ _ _ fun b => (h b).1, runStep_now _ _ _ fun b => (h b).2⟩) s

/-! ### Runs of registers -/

@[simp] theorem readSpaces_keeps (s : State) (kind target off n : Nat) :
    (readSpaces s kind target off n).2.pending = s.pending ∧ (readSpaces s kind target off n).2.now = s.now := by
  induction n generalizing s off with
  | zero => exact ⟨rfl, rfl⟩
  | succ n ih => simp [readSpaces, ih]

@[simp] theorem winReads_keeps (s : State) (o n : Nat) : (winReads s o n).2.pending = s.pending ∧ (winReads s o n).2.now = s.now := by
  induction n generalizing s o with
  | zero => exact ⟨rfl, rfl⟩
  | succ n ih => simp [winReads, ih]

@[simp] theorem winWrites_keeps (s : State) (o : Nat) (ws : List Word) :
    (winWrites s o ws).pending = s.pending ∧ (winWrites s o ws).now = s.now := by
  induction ws generalizing s o with
  | nil => exact ⟨rfl, rfl⟩
  | cons w t ih => simp [winWrites, ih]

@[simp] theorem sbReads_keeps (s : State) (off n : Nat) : (sbReads s off n).2.pending = s.pending ∧ (sbReads s off n).2.now = s.now := by
  induction n generalizing s off with
  | zero => exact ⟨rfl, rfl⟩
  | succ n ih => simp [sbReads, ih]

@[simp] theorem sbWrites_keeps (s : State) (off : Nat) (ws : List Word) :
    (sbWrites s off ws).pending = s.pending ∧ (sbWrites s off ws).now = s.now := by
  induction ws generalizing s off with
  | nil => exact ⟨rfl, rfl⟩
  | cons w t ih => simp [sbWrites, ih]

/-! ### Commands by part -/

@[simp] theorem registerCommands_stepsOn (s : State) :
    (∀ tgt off size val hw, stepsOn s (execRegisterWrite tgt off size val hw s)) ∧
    (∀ tgt off size ev, stepsOn s (execRcRead tgt off size ev s)) ∧ (∀ tgt off size, stepsOn s (execWideReadLatch tgt off size s)) := by
  unfold execRegisterWrite execRcRead execWideReadLatch
  dsimp only
  and_intros <;> intros
  all_goals exact ⟨_, rfl, by simp (disch := (intros; simp [ite_pending])) [ite_pending, foldl_pending],
    by simp (disch := (intros; simp [ite_now])) [ite_now, foldl_now, Nat.le_max_left]⟩

@[simp] theorem scalarArithmetic_stepsOn (s : State) :
    (∀ iss rsv, stepsOn s (execSnop iss rsv s)) ∧ (∀ iss f, stepsOn s (execAdd iss f s)) ∧ (∀ iss f, stepsOn s (execSub iss f s)) ∧
    (∀ iss f, stepsOn s (execAnd iss f s)) ∧ (∀ iss f, stepsOn s (execOr iss f s)) ∧ (∀ iss f, stepsOn s (execXor iss f s)) ∧
    (∀ iss f, stepsOn s (execShl iss f s)) ∧ (∀ iss f, stepsOn s (execShr iss f s)) ∧ (∀ iss f, stepsOn s (execSra iss f s)) ∧
    (∀ iss f, stepsOn s (execMul iss f s)) ∧ (∀ iss f, stepsOn s (execSlt iss f s)) ∧ (∀ iss f, stepsOn s (execSltu iss f s)) ∧
    (∀ iss f, stepsOn s (execAddi iss f s)) ∧ (∀ iss f, stepsOn s (execAndi iss f s)) ∧ (∀ iss f, stepsOn s (execOri iss f s)) ∧
    (∀ iss f, stepsOn s (execXori iss f s)) ∧ (∀ iss f, stepsOn s (execShli iss f s)) := by
  unfold execSnop execAdd execSub execAnd execOr execXor execShl execShr execSra execMul execSlt execSltu execAddi execAndi execOri
    execXori execShli
  and_intros <;> intros
  all_goals exact ⟨_, rfl, by simp (disch := (intros; simp [ite_pending])) [ite_pending, foldl_pending],
    by simp (disch := (intros; simp [ite_now])) [ite_now, foldl_now, Nat.le_max_left, issueScalar_now_le, issueReg_now_le, issueImm_now_le]⟩

@[simp] theorem scalarControl_stepsOn (s : State) :
    (∀ iss f, stepsOn s (execShri iss f s)) ∧ (∀ iss f, stepsOn s (execSrai iss f s)) ∧ (∀ iss f, stepsOn s (execMovl iss f s)) ∧
    (∀ iss f, stepsOn s (execMovh iss f s)) ∧ (∀ iss f, stepsOn s (execPcmp iss f s)) ∧ (∀ iss f, stepsOn s (execLd iss f s)) ∧
    (∀ iss f, stepsOn s (execSt iss f s)) ∧ (∀ c, stepsOn s (execLdResult c s)) ∧ (∀ iss f, stepsOn s (execRdr iss f s)) ∧
    (∀ iss f, stepsOn s (execWrr iss f s)) ∧ (∀ iss f, stepsOn s (execJmp iss f s)) ∧ (∀ iss f, stepsOn s (execCall iss f s)) ∧
    (∀ iss f, stepsOn s (execJr iss f s)) ∧ (∀ iss f, stepsOn s (execLoop iss f s)) ∧ (∀ iss f, stepsOn s (execWait iss f s)) ∧
    (∀ iss rsv, stepsOn s (execDone iss rsv s)) := by
  unfold execShri execSrai execMovl execMovh execPcmp execLd execSt execLdResult execRdr execWrr execJmp execCall execJr execLoop
    execWait execDone
  dsimp only
  and_intros <;> intros
  all_goals exact ⟨_, rfl, by simp (disch := (intros; simp [ite_pending])) [ite_pending, foldl_pending],
    by simp (disch := (intros; simp [ite_now])) [ite_now, foldl_now, Nat.le_max_left, reachDue_now_le, issueScalar_now_le, issueImm_now_le]⟩

@[simp] theorem matrixCommands_stepsOn (s : State) :
    (∀ iss f, stepsOn s (execMnop iss f s)) ∧ (∀ iss f, stepsOn s (execMmac iss f s)) ∧ (∀ iss f, stepsOn s (execMload iss f s)) ∧
    (∀ iss f, stepsOn s (execMzero iss f s)) ∧ (∀ iss f, stepsOn s (execMspill iss f s)) ∧ (∀ iss f, stepsOn s (execMfill iss f s)) ∧
    (∀ c, stepsOn s (execPlaneReady c s)) ∧ (∀ c, stepsOn s (execMmacResult c s)) ∧ (∀ c, stepsOn s (execMfillResult c s)) := by
  unfold execMnop execMmac execMload execMzero execMspill execMfill execPlaneReady execMmacResult execMfillResult
  dsimp only
  and_intros <;> intros <;> repeat' split
  all_goals exact ⟨_, rfl, by simp (disch := (intros; simp [ite_pending])) [ite_pending, foldl_pending],
    by simp (disch := (intros; simp [ite_now])) [ite_now, foldl_now, Nat.le_max_left, issueMatrix_now_le, reachDue_now_le]⟩

@[simp] theorem vectorElementwise_stepsOn (s : State) :
    (∀ iss f, stepsOn s (execVnop iss f s)) ∧ (∀ iss f, stepsOn s (execVmov iss f s)) ∧ (∀ iss f, stepsOn s (execVadd iss f s)) ∧
    (∀ iss f, stepsOn s (execVsub iss f s)) ∧ (∀ iss f, stepsOn s (execVmul iss f s)) ∧ (∀ iss f, stepsOn s (execVfma iss f s)) ∧
    (∀ iss f, stepsOn s (execVmin iss f s)) ∧ (∀ iss f, stepsOn s (execVmax iss f s)) ∧ (∀ iss f, stepsOn s (execVabs iss f s)) ∧
    (∀ iss f, stepsOn s (execVneg iss f s)) ∧ (∀ iss f, stepsOn s (execVsel iss f s)) ∧ (∀ iss f, stepsOn s (execVcmp iss f s)) ∧
    (∀ iss f, stepsOn s (execVand iss f s)) ∧ (∀ iss f, stepsOn s (execVor iss f s)) ∧ (∀ iss f, stepsOn s (execVxor iss f s)) ∧
    (∀ iss f, stepsOn s (execVshl iss f s)) ∧ (∀ iss f, stepsOn s (execVshr iss f s)) ∧ (∀ iss f, stepsOn s (execVcvt iss f s)) ∧
    (∀ iss f, stepsOn s (execVtrn iss f s)) ∧ (∀ iss f, stepsOn s (execVstm iss f s)) ∧ (∀ iss f, stepsOn s (execVdiv iss f s)) ∧
    (∀ iss f, stepsOn s (execVrcp iss f s)) ∧ (∀ iss f, stepsOn s (execVsqrt iss f s)) ∧ (∀ iss f, stepsOn s (execVrsqrt iss f s)) ∧
    (∀ iss f, stepsOn s (execVexp iss f s)) := by
  unfold execVnop execVmov execVadd execVsub execVmul execVfma execVmin execVmax execVabs execVneg execVsel execVcmp execVand execVor
    execVxor execVshl execVshr execVcvt execVtrn execVstm execVdiv execVrcp execVsqrt execVrsqrt execVexp
  dsimp only
  and_intros <;> intros <;> repeat' split
  all_goals exact ⟨_, rfl, by simp (disch := (intros; simp [ite_pending])) [ite_pending, foldl_pending],
    by simp (disch := (intros; simp [ite_now])) [ite_now, foldl_now, Nat.le_max_left, issueVector_now_le, issueUnary_now_le, issueBinary_now_le]⟩

@[simp] theorem vectorRowAndTransfer_stepsOn (s : State) :
    (∀ iss f, stepsOn s (execVexp2 iss f s)) ∧ (∀ iss f, stepsOn s (execVlog iss f s)) ∧ (∀ iss f, stepsOn s (execVlog2 iss f s)) ∧
    (∀ iss f, stepsOn s (execVtanh iss f s)) ∧ (∀ iss f, stepsOn s (execVsigm iss f s)) ∧ (∀ iss f, stepsOn s (execVgelu iss f s)) ∧
    (∀ iss f, stepsOn s (execVsilu iss f s)) ∧ (∀ iss f, stepsOn s (execVsin iss f s)) ∧ (∀ iss f, stepsOn s (execVcos iss f s)) ∧
    (∀ iss f, stepsOn s (execVrsum iss f s)) ∧ (∀ iss f, stepsOn s (execVrmax iss f s)) ∧ (∀ iss f, stepsOn s (execVrmin iss f s)) ∧
    (∀ iss f, stepsOn s (execVcsum iss f s)) ∧ (∀ iss f, stepsOn s (execVcmax iss f s)) ∧ (∀ iss f, stepsOn s (execVcmin iss f s)) ∧
    (∀ iss f, stepsOn s (execVcmpr iss f s)) ∧ (∀ iss f, stepsOn s (execVexpd iss f s)) ∧ (∀ iss f, stepsOn s (execVsmax iss f s)) ∧
    (∀ iss f, stepsOn s (execVlnorm iss f s)) ∧ (∀ iss f, stepsOn s (execVrnorm iss f s)) ∧ (∀ iss f, stepsOn s (execVld iss f s)) ∧
    (∀ iss f, stepsOn s (execVst iss f s)) ∧ (∀ iss f, stepsOn s (execVquant iss f s)) ∧ (∀ c, stepsOn s (execVectorResult c s)) := by
  unfold execVexp2 execVlog execVlog2 execVtanh execVsigm execVgelu execVsilu execVsin execVcos execVrsum execVrmax execVrmin execVcsum
    execVcmax execVcmin execVcmpr execVexpd execVsmax execVlnorm execVrnorm execVld execVst execVquant execVectorResult
  dsimp only
  and_intros <;> intros <;> repeat' split
  all_goals exact ⟨_, rfl, by simp (disch := (intros; simp [ite_pending])) [ite_pending, foldl_pending],
    by simp (disch := (intros; simp [ite_now])) [ite_now, foldl_now, Nat.le_max_left, reachDue_now_le, issueVector_now_le, issueUnary_now_le, issueReduce_now_le]⟩

@[simp] theorem fabricCommands_stepsOn (s : State) :
    (∀ iss f, stepsOn s (execXnop iss f s)) ∧ (∀ iss f, stepsOn s (execXout iss f s)) ∧ (∀ iss f, stepsOn s (execXin iss f s)) ∧
    (∀ iss f, stepsOn s (execXtok iss f s)) ∧ (∀ iss f, stepsOn s (execXstop iss f s)) ∧ (∀ c, stepsOn s (execScratchpadCommit c s)) ∧
    (∀ c inp fl, stepsOn s (execFlitArrival c inp fl s)) ∧ (∀ c inp tok, stepsOn s (execTokenArrival c inp tok s)) ∧
    (∀ c, stepsOn s (execSlotEntryApply c s)) := by
  unfold execXnop execXout execXin execXtok execXstop execScratchpadCommit execFlitArrival execTokenArrival execSlotEntryApply
  dsimp only
  and_intros <;> intros <;> repeat' split
  all_goals exact ⟨_, rfl, by simp (disch := (intros; simp [ite_pending])) [ite_pending, foldl_pending],
    by simp (disch := (intros; simp [ite_now])) [ite_now, foldl_now, Nat.le_max_left, issueMove_now_le]⟩

@[simp] theorem sectionCommands_stepsOn (s : State) :
    (∀ part, stepsOn s (execSectionLaunch part s)) ∧ (∀ part, stepsOn s (execSectionBarrier part s)) ∧
    (∀ c, stepsOn s (execBankSwap c s)) ∧ (∀ c, stepsOn s (execCheckpoint c s)) ∧ (∀ c, stepsOn s (execCheckpointSilent c s)) ∧
    (∀ c, stepsOn s (execSilentTimeout c s)) := by
  unfold execSectionLaunch execSectionBarrier execBankSwap execCheckpoint execCheckpointSilent execSilentTimeout
  dsimp only
  and_intros <;> intros <;> repeat' split
  all_goals exact ⟨_, rfl, by simp (disch := (intros; simp [ite_pending])) [ite_pending, foldl_pending],
    by simp (disch := (intros; simp [ite_now])) [ite_now, foldl_now, Nat.le_max_left, barrierPart_now_le]⟩

@[simp] theorem channelCommands_stepsOn (s : State) :
    (∀ c e val, stepsOn s (execPost c e val s)) ∧ (∀ c p, stepsOn s (execChmsg c p s)) ∧
    (∀ c e, stepsOn s (execChannelCommit c e s)) ∧ (∀ c e code, stepsOn s (execChrep c e code s)) ∧
    (∀ c e, stepsOn s (execPostTimeout c e s)) ∧ (∀ c e val, stepsOn s (execHeadRelease c e val s)) := by
  unfold execPost execChmsg execChannelCommit execChrep execPostTimeout execHeadRelease
  and_intros <;> intros
  all_goals exact ⟨_, rfl, by simp (disch := (intros; simp [ite_pending])) [ite_pending, foldl_pending],
    by simp (disch := (intros; simp [ite_now])) [ite_now, foldl_now, Nat.le_max_left, postTimeout_now_le]⟩

@[simp] theorem queueCommands_stepsOn (s : State) :
    (∀ c q val, stepsOn s (execHqPush c q val s)) ∧ (∀ c q, stepsOn s (execHqPop c q s)) ∧
    (∀ c n isBase val, stepsOn s (execBufferConfig c n isBase val s)) ∧ (∀ c n, stepsOn s (execSwap c n s)) := by
  unfold execHqPush execHqPop execBufferConfig execSwap
  dsimp only
  and_intros <;> intros
  all_goals exact ⟨_, rfl, by simp (disch := (intros; simp [ite_pending])) [ite_pending, foldl_pending],
    by simp (disch := (intros; simp [ite_now])) [ite_now, foldl_now, Nat.le_max_left]⟩

@[simp] theorem routerCommands_stepsOn (s : State) :
    (∀ r p, stepsOn s (execPacketIngress r p s)) ∧ (∀ r out perr, stepsOn s (execPacketForward r out perr s)) ∧
    (∀ r out vc, stepsOn s (execCreditReturn r out vc s)) ∧ (∀ r out grp, stepsOn s (execMulticastCut r out grp s)) ∧
    (∀ es gen, stepsOn s (execXlat es gen s)) := by
  unfold execPacketIngress execPacketForward execCreditReturn execMulticastCut execXlat
  dsimp only
  and_intros <;> intros <;> repeat' split
  all_goals exact ⟨_, rfl, by simp (disch := (intros; simp [ite_pending])) [ite_pending, foldl_pending],
    by simp (disch := (intros; simp [ite_now])) [ite_now, foldl_now, Nat.le_max_left]⟩

@[simp] theorem packetCommands_stepsOn (s : State) :
    (∀ p, stepsOn s (execWr p s)) ∧ (∀ p, stepsOn s (execRd p s)) ∧ (∀ p, stepsOn s (execHqp p s)) ∧ (∀ p, stepsOn s (execRegw p s)) ∧
    (∀ p, stepsOn s (execRegr p s)) ∧ (∀ c p, stepsOn s (execMcwr c p s)) ∧ (∀ p, stepsOn s (execAck p s)) ∧
    (∀ p, stepsOn s (execRdata p s)) ∧ (∀ src tag, stepsOn s (execRequestTimeout src tag s)) ∧ (∀ c, stepsOn s (execFence c s)) ∧
    (∀ c, stepsOn s (execFenceDone c s)) ∧ (∀ c, stepsOn s (execRecordSend c s)) ∧
    (∀ c k val, stepsOn s (execBarrierSlotWrite c k val s)) ∧ (∀ r grp gen, stepsOn s (execArrive r grp gen s)) ∧
    (∀ c grp gen, stepsOn s (execRelease c grp gen s)) ∧ (∀ c grp first count, stepsOn s (execMissed c grp first count s)) ∧
    (∀ c, stepsOn s (execMissPop c s)) := by
  unfold execWr execRd execHqp execRegw execRegr execMcwr execAck execRdata execRequestTimeout execFence execFenceDone execRecordSend
    execBarrierSlotWrite execArrive execRelease execMissed execMissPop
  dsimp only
  and_intros <;> intros <;> repeat' split
  all_goals exact ⟨_, rfl, by simp (disch := (intros; simp [ite_pending])) [ite_pending, foldl_pending],
    by simp (disch := (intros; simp [ite_now])) [ite_now, foldl_now, Nat.le_max_left, requestTimeout_now_le]⟩

@[simp] theorem recordCommands_stepsOn (s : State) :
    stepsOn s (execRecord s) := by
  unfold execRecord
  split
  all_goals exact ⟨_, rfl, by simp (disch := (intros; simp [ite_pending])) [ite_pending, foldl_pending],
    by simp (disch := (intros; simp [ite_now])) [ite_now, foldl_now, Nat.le_max_left]⟩

@[simp] theorem stackCommands_stepsOn (s : State) :
    (∀ st off bytes tarn part crcGood found, stepsOn s (execBurmonWrite st off bytes tarn part crcGood found s)) ∧
    (∀ st blk, stepsOn s (execCorrectedWriteback st blk s)) ∧ (∀ st pair, stepsOn s (execRefreshSlot st pair s)) ∧
    (∀ st blk errs, stepsOn s (execScrub st blk errs s)) ∧
    (∀ st ch die bank row, stepsOn s (execDramRowRepair st ch die bank row s)) ∧
    (∀ st pair, stepsOn s (execRetrainRequest st pair s)) ∧ (∀ st val, stepsOn s (execStackRetrainGo st val s)) ∧
    (∀ st, stepsOn s (execRetrainDone st s)) := by
  unfold execBurmonWrite execCorrectedWriteback execRefreshSlot execScrub execDramRowRepair execRetrainRequest execStackRetrainGo
    execRetrainDone
  dsimp only
  and_intros <;> intros <;> repeat' split
  all_goals exact ⟨_, rfl, by simp (disch := (intros; simp [ite_pending])) [ite_pending, foldl_pending],
    by simp (disch := (intros; simp [ite_now])) [ite_now, foldl_now, Nat.le_max_left]⟩

@[simp] theorem streamCommands_stepsOn (s : State) :
    (∀ st ctx part words, stepsOn s (execContextDescriptorWrite st ctx part words s)) ∧
    (∀ st ctx part, stepsOn s (execStreamStart st ctx part s)) ∧ (∀ st ctx part, stepsOn s (execStreamStop st ctx part s)) ∧
    (∀ st ctx part n, stepsOn s (execCredit st ctx part n s)) ∧ (∀ c val, stepsOn s (execMemCredit c val s)) ∧
    (∀ st ctx errs badPar, stepsOn s (execSchedChunk st ctx errs badPar s)) ∧
    (∀ st ctx errs host, stepsOn s (execServiceChunk st ctx errs host s)) ∧
    (∀ st ctx errs, stepsOn s (execSharedChunk st ctx errs s)) ∧ (∀ st ctx unreach, stepsOn s (execRemoteHalt st ctx unreach s)) ∧
    (∀ st ctx, stepsOn s (execRemoteResume st ctx s)) ∧ (∀ st ctx, stepsOn s (execRemoteFail st ctx s)) ∧
    (∀ c x val, stepsOn s (execXferStart c x val s)) ∧ (∀ c x, stepsOn s (execXferComplete c x s)) := by
  unfold execContextDescriptorWrite execStreamStart execStreamStop execCredit execMemCredit execSchedChunk execServiceChunk
    execSharedChunk execRemoteHalt execRemoteResume execRemoteFail execXferStart execXferComplete
  dsimp only
  and_intros <;> intros <;> repeat' split
  all_goals exact ⟨_, rfl, by simp (disch := (intros; simp [ite_pending])) [ite_pending, foldl_pending],
    by simp (disch := (intros; simp [ite_now])) [ite_now, foldl_now, Nat.le_max_left, schedChunk_now_le]⟩

@[simp] theorem timebaseCommands_stepsOn (s : State) :
    (∀ p domain ident log twoStep t1, stepsOn s (execPtpSync p domain ident log twoStep t1 s)) ∧
    (∀ p domain ident t, stepsOn s (execFollowUp p domain ident t s)) ∧ stepsOn s (execDelayReq s) ∧
    (∀ p domain ident t, stepsOn s (execDelayResp p domain ident t s)) ∧ (∀ p domain a, stepsOn s (execAnnounce p domain a s)) ∧
    (∀ why, stepsOn s (execServingPortMove why s)) ∧ stepsOn s (execHoldoverLimit s) ∧ stepsOn s (execPpsEdge s) ∧
    stepsOn s (execPpsLapse s) ∧ stepsOn s (execErrRecompute s) ∧
    (∀ isStack unit skew, stepsOn s (execAlignmentWord isStack unit skew s)) ∧ (∀ k val, stepsOn s (execFrameClockEnable k val s)) ∧
    (∀ k, stepsOn s (execLineStart k s)) ∧ (∀ k time, stepsOn s (execEventBook k time s)) ∧ (∀ id, stepsOn s (execEventCancel id s)) := by
  unfold execPtpSync execFollowUp execDelayReq execDelayResp execAnnounce execServingPortMove execHoldoverLimit execPpsEdge
    execPpsLapse execErrRecompute execAlignmentWord execFrameClockEnable execLineStart execEventBook execEventCancel
  dsimp only
  and_intros <;> intros <;> repeat' split
  all_goals exact ⟨_, rfl, by simp (disch := (intros; simp [ite_pending])) [ite_pending, foldl_pending],
    by simp (disch := (intros; simp [ite_now])) [ite_now, foldl_now, Nat.le_max_left]⟩

@[simp] theorem portCommands_stepsOn (s : State) :
    (∀ p f, stepsOn s (execFrameReceive p f s)) ∧ (∀ p, stepsOn s (execLinkLock p s)) ∧
    (∀ p inFrame, stepsOn s (execLinkLoss p inFrame s)) ∧ (∀ p, stepsOn s (execRetrain p s)) ∧ (∀ p, stepsOn s (execPortFence p s)) ∧
    (∀ p, stepsOn s (execUnfence p s)) ∧ stepsOn s (execReadyAnnouncement s) ∧ (∀ p, stepsOn s (execReadyRepeat p s)) ∧
    (∀ p src, stepsOn s (execBringupRequestExpire p src s)) ∧ (∀ p prio, stepsOn s (execPfcRepeat p prio s)) ∧
    (∀ p vec quanta, stepsOn s (execPfcReceive p vec quanta s)) ∧ (∀ p prio, stepsOn s (execPauseExpire p prio s)) ∧
    (∀ p prio, stepsOn s (execPfcWatchdog p prio s)) ∧ (∀ p prio, stepsOn s (execPfcWdRelease p prio s)) ∧
    (∀ p, stepsOn s (execCounterRateCheck p s)) := by
  unfold execFrameReceive execLinkLock execLinkLoss execRetrain execPortFence execUnfence execReadyAnnouncement execReadyRepeat
    execBringupRequestExpire execPfcRepeat execPfcReceive execPauseExpire execPfcWatchdog execPfcWdRelease execCounterRateCheck
  dsimp only
  and_intros <;> intros <;> repeat' split
  all_goals exact ⟨_, rfl, by simp (disch := (intros; simp [ite_pending])) [ite_pending, foldl_pending],
    by simp (disch := (intros; simp [ite_now])) [ite_now, foldl_now, Nat.le_max_left]⟩

@[simp] theorem roceCommands_stepsOn (s : State) :
    (∀ p k, stepsOn s (execRocePacket p k s)) ∧ (∀ q, stepsOn s (execCnpReceive q s)) ∧ (∀ q, stepsOn s (execRateRecovery q s)) ∧
    (∀ q, stepsOn s (execAckTimeout q s)) ∧ (∀ q, stepsOn s (execRnrTimerExpire q s)) := by
  unfold execRocePacket execCnpReceive execRateRecovery execAckTimeout execRnrTimerExpire
  and_intros <;> intros <;> repeat' split
  all_goals exact ⟨_, rfl, by simp (disch := (intros; simp [ite_pending])) [ite_pending, foldl_pending],
    by simp (disch := (intros; simp [ite_now])) [ite_now, foldl_now, Nat.le_max_left]⟩

@[simp] theorem objectCommands_stepsOn (s : State) :
    (∀ r val, stepsOn s (execDoorbell r val s)) ∧ (∀ r val, stepsOn s (execCompletionDoorbell r val s)) ∧
    stepsOn s (execCommandTake s) ∧ (∀ r pos, stepsOn s (execNop r pos s)) ∧ (∀ r pos, stepsOn s (execQueryDevice r pos s)) ∧
    (∀ r pos, stepsOn s (execWriteRegs r pos s)) ∧ (∀ r pos, stepsOn s (execDestroyBuffer r pos s)) ∧
    (∀ r pos, stepsOn s (execReleaseBuffer r pos s)) ∧ (∀ r pos, stepsOn s (execDestroyQp r pos s)) ∧
    (∀ r pos, stepsOn s (execDeregisterMemory r pos s)) ∧ (∀ r pos, stepsOn s (execSetFrameClock r pos s)) ∧
    (∀ r pos, stepsOn s (execMapWindow r pos s)) ∧ (∀ r pos, stepsOn s (execUnmapWindow r pos s)) := by
  unfold execDoorbell execCompletionDoorbell execCommandTake execNop execQueryDevice execWriteRegs execDestroyBuffer execReleaseBuffer
    execDestroyQp execDeregisterMemory execSetFrameClock execMapWindow execUnmapWindow
  dsimp only
  and_intros <;> intros
  all_goals exact ⟨_, rfl, by simp (disch := (intros; simp [ite_pending])) [ite_pending, foldl_pending],
    by simp (disch := (intros; simp [ite_now])) [ite_now, foldl_now, Nat.le_max_left]⟩

@[simp] theorem partitionCommands_stepsOn (s : State) :
    (∀ r, stepsOn s (execCompletionWrite r s)) ∧ stepsOn s (execEventReport s) := by
  unfold execCompletionWrite execEventReport
  dsimp only
  and_intros <;> intros
  all_goals exact ⟨_, rfl, by simp (disch := (intros; simp [ite_pending])) [ite_pending, foldl_pending],
    by simp (disch := (intros; simp [ite_now])) [ite_now, foldl_now, Nat.le_max_left]⟩

@[simp] theorem healthCommands_stepsOn (s : State) :
    (∀ r pos, stepsOn s (execResetPartitionRollback r pos s)) ∧ (∀ r pos, stepsOn s (execResetPartitionReset r pos s)) ∧
    (∀ r pos, stepsOn s (execResetPartitionQuench r pos s)) ∧ (∀ r pos, stepsOn s (execResetPartitionPeers r pos s)) ∧
    (∀ r pos, stepsOn s (execResetPartitionAdmit r pos s)) ∧ (∀ r pos, stepsOn s (execResetPartitionResume r pos s)) ∧
    (∀ r pos res, stepsOn s (execTestUnitTest r pos res s)) ∧ (∀ r pos res, stepsOn s (execTestUnitReadmit r pos res s)) := by
  unfold execResetPartitionRollback execResetPartitionReset execResetPartitionQuench execResetPartitionPeers execResetPartitionAdmit
    execResetPartitionResume execTestUnitTest execTestUnitReadmit
  dsimp only
  and_intros <;> intros
  all_goals exact ⟨_, rfl, by simp (disch := (intros; simp [ite_pending])) [ite_pending, foldl_pending],
    by simp (disch := (intros; simp [ite_now])) [ite_now, foldl_now, Nat.le_max_left]⟩

@[simp] theorem attestCommands_stepsOn (s : State) :
    (∀ r pos entropy, stepsOn s (execAttestReport r pos entropy s)) ∧ (∀ r pos, stepsOn s (execAttestLog r pos s)) ∧
    (∀ part, stepsOn s (execOldKeyErase part s)) ∧ (∀ id, stepsOn s (execEphemeralKeyExpire id s)) := by
  unfold execAttestReport execAttestLog execOldKeyErase execEphemeralKeyExpire
  dsimp only
  and_intros <;> intros <;> repeat' split
  all_goals exact ⟨_, rfl, by simp (disch := (intros; simp [ite_pending])) [ite_pending, foldl_pending],
    by simp (disch := (intros; simp [ite_now])) [ite_now, foldl_now, Nat.le_max_left]⟩

@[simp] theorem integrityCommands_stepsOn (s : State) :
    (∀ part l, stepsOn s (execSealReceive part l s)) ∧ (∀ part, stepsOn s (execSuspectCauseTimeout part s)) ∧
    (∀ c val, stepsOn s (execAssayReport c val s)) ∧ (∀ part, stepsOn s (execHallmarkRound part s)) ∧
    (∀ part, stepsOn s (execHallmarkDigestDone part s)) ∧ (∀ q m, stepsOn s (execDigest q m s)) ∧
    (∀ part, stepsOn s (execHallmarkVote part s)) ∧ (∀ q m, stepsOn s (execExpel q m s)) ∧
    (∀ q m data, stepsOn s (execTsReq q m data s)) ∧ (∀ part, stepsOn s (execTsRetry part s)) ∧
    (∀ part, stepsOn s (execTsTimeout part s)) := by
  unfold execSealReceive execSuspectCauseTimeout execAssayReport execHallmarkRound execHallmarkDigestDone execDigest execHallmarkVote
    execExpel execTsReq execTsRetry execTsTimeout
  dsimp only
  and_intros <;> intros <;> repeat' split
  all_goals exact ⟨_, rfl, by simp (disch := (intros; simp [ite_pending])) [ite_pending, foldl_pending],
    by simp (disch := (intros; simp [ite_now])) [ite_now, foldl_now, Nat.le_max_left]⟩

@[simp] theorem watchCommands_stepsOn (s : State) :
    (∀ p, stepsOn s (execRegionHeartbeat p s)) ∧ (∀ st, stepsOn s (execBaseDieHeartbeat st s)) ∧
    (∀ isStack unit, stepsOn s (execHeartbeatLoss isStack unit s)) ∧
    (∀ p abandoned ok repeats, stepsOn s (execBurnishPiece p abandoned ok repeats s)) ∧ (∀ p, stepsOn s (execBurnishTimeout p s)) ∧
    (∀ row pass, stepsOn s (execRootstockMarch row pass s)) ∧ stepsOn s (execBeat s) ∧
    (∀ yields, stepsOn s (execLatchChange yields s)) ∧ stepsOn s (execTakeover s) ∧ stepsOn s (execHeartwoodLost s) ∧
    stepsOn s (execPatinaDecay s) := by
  unfold execRegionHeartbeat execBaseDieHeartbeat execHeartbeatLoss execBurnishPiece execBurnishTimeout execRootstockMarch execBeat
    execLatchChange execTakeover execHeartwoodLost execPatinaDecay
  dsimp only
  and_intros <;> intros <;> repeat' split
  all_goals exact ⟨_, rfl, by simp (disch := (intros; simp [ite_pending])) [ite_pending, foldl_pending],
    by simp (disch := (intros; simp [ite_now])) [ite_now, foldl_now, Nat.le_max_left]⟩

@[simp] theorem recoveryCommands_stepsOn (s : State) :
    (∀ part, stepsOn s (execHalt part s)) ∧ (∀ part, stepsOn s (execRecoveryRestart part s)) ∧ (∀ c, stepsOn s (execCoreReset c s)) ∧
    (∀ p cx cy, stepsOn s (execClusterReset p cx cy s)) ∧ (∀ part, stepsOn s (execPartitionReset part s)) ∧
    stepsOn s (execDeviceReset s) ∧ (∀ dom unit, stepsOn s (execResetEscalate dom unit s)) ∧ (∀ p, stepsOn s (execGraft p s)) ∧
    (∀ p row col, stepsOn s (execInPlaceBypass p row col s)) ∧ (∀ p pass, stepsOn s (execRegionTestDone p pass s)) := by
  unfold execHalt execRecoveryRestart execCoreReset execClusterReset execPartitionReset execDeviceReset execResetEscalate execGraft
    execInPlaceBypass execRegionTestDone
  dsimp only
  and_intros <;> intros <;> repeat' split
  all_goals exact ⟨_, rfl, by simp (disch := (intros; simp [ite_pending])) [ite_pending, foldl_pending],
    by simp (disch := (intros; simp [ite_now])) [ite_now, foldl_now, Nat.le_max_left, applyHalt_now_le, haltNow_now_le]⟩

@[simp] theorem jobCommands_stepsOn (s : State) :
    (∀ q m, stepsOn s (execQuench q m s)) ∧ (∀ part, stepsOn s (execLiveSend part s)) ∧ (∀ q m, stepsOn s (execLive q m s)) ∧
    (∀ part q, stepsOn s (execPeerDead part q s)) ∧ (∀ q m, stepsOn s (execJoin q m s)) ∧ (∀ q m, stepsOn s (execJoined q m s)) ∧
    (∀ part, stepsOn s (execAdmitTimeout part s)) := by
  unfold execQuench execLiveSend execLive execPeerDead execJoin execJoined execAdmitTimeout
  dsimp only
  and_intros <;> intros <;> repeat' split
  all_goals exact ⟨_, rfl, by simp (disch := (intros; simp [ite_pending])) [ite_pending, foldl_pending],
    by simp (disch := (intros; simp [ite_now])) [ite_now, foldl_now, Nat.le_max_left]⟩

@[simp] theorem powerCommands_stepsOn (s : State) :
    (∀ p mv, stepsOn s (execVsetUpdate p mv s)) ∧ (∀ p, stepsOn s (execVlow p s)) ∧
    (∀ p mv sensor, stepsOn s (execDroop p mv sensor s)) ∧ (∀ p, stepsOn s (execLoadStepNotice p s)) ∧
    (∀ p, stepsOn s (execNoticeEnd p s)) ∧ (∀ p, stepsOn s (execAbnormalDrop p s)) ∧ (∀ p amps, stepsOn s (execOvercur p amps s)) ∧
    (∀ working, stepsOn s (execPhaseFail working s)) ∧ stepsOn s (execVinLow s) ∧ (∀ watts, stepsOn s (execPinOver watts s)) ∧
    (∀ p alive, stepsOn s (execClockLoss p alive s)) ∧ (∀ p, stepsOn s (execClockDead p s)) ∧
    (∀ p temp, stepsOn s (execWarm p temp s)) ∧ (∀ p temp, stepsOn s (execPollardRequest p temp s)) ∧
    (∀ p, stepsOn s (execPollard p s)) ∧ (∀ part, stepsOn s (execPollardHoldEnd part s)) ∧
    (∀ p temp, stepsOn s (execThermalHard p temp s)) ∧ (∀ p temp, stepsOn s (execThermalTrip p temp s)) ∧
    (∀ p pass, stepsOn s (execPollardReturn p pass s)) ∧ (∀ st temp, stepsOn s (execStackOverheat st temp s)) ∧
    (∀ st, stepsOn s (execStackCritical st s)) ∧ (∀ tin flow, stepsOn s (execCool tin flow s)) := by
  unfold execVsetUpdate execVlow execDroop execLoadStepNotice execNoticeEnd execAbnormalDrop execOvercur execPhaseFail execVinLow
    execPinOver execClockLoss execClockDead execWarm execPollardRequest execPollard execPollardHoldEnd execThermalHard execThermalTrip
    execPollardReturn execStackOverheat execStackCritical execCool
  dsimp only
  and_intros <;> intros <;> repeat' split
  all_goals exact ⟨_, rfl, by simp (disch := (intros; simp [ite_pending])) [ite_pending, foldl_pending],
    by simp (disch := (intros; simp [ite_now])) [ite_now, foldl_now, Nat.le_max_left, applyHalt_now_le]⟩

@[simp] theorem bringCommands_stepsOn (s : State) :
    stepsOn s (execDisable s) ∧ stepsOn s (execInputOutOfRange s) ∧ (∀ p src xid len, stepsOn s (execDiscover p src xid len s)) ∧
    (∀ p src xid len off bytes, stepsOn s (execStage p src xid len off bytes s)) ∧ (∀ ok, stepsOn s (execPower ok s)) ∧
    (∀ level f, stepsOn s (execBist level f s)) ∧ (∀ ok, stepsOn s (execTrainStacks ok s)) ∧ (∀ p, stepsOn s (execRetrainPort p s)) ∧
    stepsOn s (execResetAll s) ∧ stepsOn s (execStepTimeout s) ∧ stepsOn s (execAutoRestart s) := by
  unfold execDisable execInputOutOfRange execDiscover execStage execPower execBist execTrainStacks execRetrainPort execResetAll
    execStepTimeout execAutoRestart
  dsimp only
  and_intros <;> intros <;> repeat' split
  all_goals exact ⟨_, rfl, by simp (disch := (intros; simp [ite_pending])) [ite_pending, foldl_pending],
    by simp (disch := (intros; simp [ite_now])) [ite_now, foldl_now, Nat.le_max_left]⟩

@[simp] theorem startCommands_stepsOn (s : State) :
    (∀ bad, stepsOn s (execLoadFw bad s)) ∧ (∀ west east fuses, stepsOn s (execStart west east fuses s)) := by
  unfold execLoadFw execStart
  and_intros <;> intros
  all_goals exact ⟨_, rfl, by simp (disch := (intros; simp [ite_pending])) [ite_pending, foldl_pending],
    by simp (disch := (intros; simp [ite_now])) [ite_now, foldl_now, Nat.le_max_left]⟩

@[simp] theorem pourCommands_stepsOn (s : State) :
    (∀ c val, stepsOn s (execPourEnable c val s)) ∧ (∀ c p, stepsOn s (execPourPacket c p s)) ∧ (∀ c, stepsOn s (execPulling c s)) ∧
    (∀ c, stepsOn s (execPourDone c s)) ∧ (∀ c, stepsOn s (execPourTimeout c s)) := by
  unfold execPourEnable execPourPacket execPulling execPourDone execPourTimeout
  dsimp only
  and_intros <;> intros <;> repeat' split
  all_goals exact ⟨_, rfl, by simp (disch := (intros; simp [ite_pending])) [ite_pending, foldl_pending],
    by simp (disch := (intros; simp [ite_now])) [ite_now, foldl_now, Nat.le_max_left]⟩

@[simp] theorem sidebandCommands_stepsOn (s : State) :
    stepsOn s (execShutdown s) ∧ stepsOn s (execRemoval s) ∧ stepsOn s (execMateSenseBounce s) ∧
    (∀ val, stepsOn s (execBudgetWrite val s)) ∧ stepsOn s (execHotJoin s) ∧ (∀ events, stepsOn s (execEnec events s)) ∧
    (∀ events, stepsOn s (execDisec events s)) ∧ stepsOn s (execRstdaa s) ∧ (∀ addr, stepsOn s (execEntdaa addr s)) ∧
    (∀ static addr, stepsOn s (execSetdasa static addr s)) ∧ stepsOn s (execGetpid s) ∧ stepsOn s (execGetbcr s) ∧
    stepsOn s (execGetdcr s) ∧ stepsOn s (execGetstatus s) ∧ stepsOn s (execGetmwl s) ∧ stepsOn s (execGetmrl s) ∧
    (∀ ack, stepsOn s (execIbi ack s)) ∧ (∀ ack, stepsOn s (execIbiRepeat ack s)) ∧ stepsOn s (execRstAssert s) ∧
    stepsOn s (execRstRelease s) := by
  unfold execShutdown execRemoval execMateSenseBounce execBudgetWrite execHotJoin execEnec execDisec execRstdaa execEntdaa execSetdasa
    execGetpid execGetbcr execGetdcr execGetstatus execGetmwl execGetmrl execIbi execIbiRepeat execRstAssert execRstRelease
  dsimp only
  and_intros <;> intros <;> repeat' split
  all_goals exact ⟨_, rfl, by simp (disch := (intros; simp [ite_pending])) [ite_pending, foldl_pending],
    by simp (disch := (intros; simp [ite_now])) [ite_now, foldl_now, Nat.le_max_left]⟩

@[simp] theorem readRegs_stepsOn (r pos s) : stepsOn s (execReadRegs r pos s) :=
  command_stepsOn (fun k ws a => by
    dsimp only
    repeat' split
    all_goals simp (disch := (intros; simp [ite_now, ite_pending])) [ite_now, ite_pending, foldl_now, foldl_pending]) s _ _ _

@[simp] theorem openPartition_stepsOn (r pos s) : stepsOn s (execOpenPartition r pos s) :=
  command_stepsOn (fun k ws a => by
    dsimp only
    repeat' split
    all_goals simp (disch := (intros; simp [ite_now, ite_pending])) [ite_now, ite_pending, foldl_now, foldl_pending]) s _ _ _

@[simp] theorem closePartition_stepsOn (r pos s) : stepsOn s (execClosePartition r pos s) :=
  command_stepsOn (fun k ws a => by
    dsimp only
    repeat' split
    all_goals simp (disch := (intros; simp [ite_now, ite_pending])) [ite_now, ite_pending, foldl_now, foldl_pending]) s _ _ _

@[simp] theorem loadProgram_stepsOn (r pos img s) : stepsOn s (execLoadProgram r pos img s) :=
  command_stepsOn (fun k ws a => by
    dsimp only
    repeat' split
    all_goals simp (disch := (intros; simp [ite_now, ite_pending])) [ite_now, ite_pending, foldl_now, foldl_pending]) s _ _ _

@[simp] theorem setChecks_stepsOn (r pos s) : stepsOn s (execSetChecks r pos s) :=
  command_stepsOn (fun k ws a => by
    dsimp only
    repeat' split
    all_goals simp (disch := (intros; simp [ite_now, ite_pending])) [ite_now, ite_pending, foldl_now, foldl_pending]) s _ _ _

@[simp] theorem createBuffer_stepsOn (r pos s) : stepsOn s (execCreateBuffer r pos s) :=
  command_stepsOn (fun k ws a => by
    dsimp only
    repeat' split
    all_goals simp (disch := (intros; simp [ite_now, ite_pending])) [ite_now, ite_pending, foldl_now, foldl_pending]) s _ _ _

@[simp] theorem openSession_stepsOn (r pos s) : stepsOn s (execOpenSession r pos s) :=
  command_stepsOn (fun k ws a => by
    dsimp only
    repeat' split
    all_goals simp (disch := (intros; simp [ite_now, ite_pending])) [ite_now, ite_pending, foldl_now, foldl_pending]) s _ _ _

@[simp] theorem closeSession_stepsOn (r pos s) : stepsOn s (execCloseSession r pos s) :=
  command_stepsOn (fun k ws a => by
    dsimp only
    repeat' split
    all_goals simp (disch := (intros; simp [ite_now, ite_pending])) [ite_now, ite_pending, foldl_now, foldl_pending]) s _ _ _

@[simp] theorem submit_stepsOn (r pos s) : stepsOn s (execSubmit r pos s) :=
  command_stepsOn (fun k ws a => by
    dsimp only
    repeat' split
    all_goals simp (disch := (intros; simp [ite_now, ite_pending])) [ite_now, ite_pending, foldl_now, foldl_pending]) s _ _ _

@[simp] theorem createRing_stepsOn (r pos s) : stepsOn s (execCreateRing r pos s) :=
  command_stepsOn (fun k ws a => by
    dsimp only
    repeat' split
    all_goals simp (disch := (intros; simp [ite_now, ite_pending])) [ite_now, ite_pending, foldl_now, foldl_pending]) s _ _ _

@[simp] theorem destroyRing_stepsOn (r pos s) : stepsOn s (execDestroyRing r pos s) :=
  command_stepsOn (fun k ws a => by
    dsimp only
    repeat' split
    all_goals simp (disch := (intros; simp [ite_now, ite_pending])) [ite_now, ite_pending, foldl_now, foldl_pending]) s _ _ _

@[simp] theorem openChannel_stepsOn (r pos s) : stepsOn s (execOpenChannel r pos s) :=
  command_stepsOn (fun k ws a => by
    dsimp only
    repeat' split
    all_goals simp (disch := (intros; simp [ite_now, ite_pending])) [ite_now, ite_pending, foldl_now, foldl_pending]) s _ _ _

@[simp] theorem closeChannel_stepsOn (r pos s) : stepsOn s (execCloseChannel r pos s) :=
  command_stepsOn (fun k ws a => by
    dsimp only
    repeat' split
    all_goals simp (disch := (intros; simp [ite_now, ite_pending])) [ite_now, ite_pending, foldl_now, foldl_pending]) s _ _ _

@[simp] theorem createQp_stepsOn (r pos s) : stepsOn s (execCreateQp r pos s) :=
  command_stepsOn (fun k ws a => by
    dsimp only
    repeat' split
    all_goals simp (disch := (intros; simp [ite_now, ite_pending])) [ite_now, ite_pending, foldl_now, foldl_pending]) s _ _ _

@[simp] theorem registerMemory_stepsOn (r pos s) : stepsOn s (execRegisterMemory r pos s) :=
  command_stepsOn (fun k ws a => by
    dsimp only
    repeat' split
    all_goals simp (disch := (intros; simp [ite_now, ite_pending])) [ite_now, ite_pending, foldl_now, foldl_pending]) s _ _ _

@[simp] theorem mapPages_stepsOn (r pos s) : stepsOn s (execMapPages r pos s) :=
  command_stepsOn (fun k ws a => by
    dsimp only
    repeat' split
    all_goals simp (disch := (intros; simp [ite_now, ite_pending])) [ite_now, ite_pending, foldl_now, foldl_pending]) s _ _ _

@[simp] theorem fenceUnit_stepsOn (r pos s) : stepsOn s (execFenceUnit r pos s) :=
  command_stepsOn (fun k ws a => by
    dsimp only
    repeat' split
    all_goals simp (disch := (intros; simp [ite_now, ite_pending])) [ite_now, ite_pending, foldl_now, foldl_pending]) s _ _ _

@[simp] theorem testUnitReadPm_stepsOn (r pos s) : stepsOn s (execTestUnitReadPm r pos s) :=
  commandIf_stepsOn (fun k ws a => by
    dsimp only
    repeat' split
    all_goals simp (disch := (intros; simp [ite_now, ite_pending])) [ite_now, ite_pending, foldl_now, foldl_pending]) s _ _ _ _

@[simp] theorem testUnitSamples_stepsOn (r pos s) : stepsOn s (execTestUnitSamples r pos s) :=
  commandIf_stepsOn (fun k ws a => by
    dsimp only
    repeat' split
    all_goals simp (disch := (intros; simp [ite_now, ite_pending])) [ite_now, ite_pending, foldl_now, foldl_pending]) s _ _ _ _

@[simp] theorem burmonRead_stepsOn (st off len part mergeable found) (s : State) :
    stepsOn s (execBurmonRead st off len part mergeable found s) :=
  ⟨_, rfl, by simp, by simp only [answer_now, State.reach_now, burmonRead_now]; omega⟩

@[simp] theorem snap_stepsOn (s : State) : stepsOn s (execSnap s) := ⟨_, rfl, by simp, by simp⟩

@[simp] theorem tsResult_stepsOn (q m) (s : State) : stepsOn s (execTsResult q m s) := by
  refine ⟨_, rfl, onIntegrity_pending _ _ _ _ _ _ fun p k => ?queue, Nat.le_of_eq (onIntegrity_now _ _ _ _ _ _ fun p k => ?time).symm⟩
  all_goals
    repeat' split
    all_goals simp

@[simp] theorem stateMessage_stepsOn (q m data) (s : State) : stepsOn s (execState q m data s) := by
  refine ⟨_, rfl, onJob_pending _ _ _ _ _ fun a p k => ?queue, Nat.le_of_eq (onJob_now _ _ _ _ _ fun a p k => ?time).symm⟩
  all_goals
    repeat' split
    all_goals simp

@[simp] theorem attestJobKey_stepsOn (r pos) (s : State) : stepsOn s (execAttestJobKey r pos s) := by
  refine ⟨_, rfl, onAttest_pending _ _ _ _ _ _ fun a b ws => ?queue, Nat.le_of_eq (onAttest_now _ _ _ _ _ _ fun a b ws => ?time).symm⟩
  all_goals
    dsimp only
    repeat' split
    all_goals simp

/-- ENABLE starts device time where the module was not enabled (R430). -/
theorem enable_stepsOn (broken mated slot) (s : State) (h : s.mod.enabled = true) : stepsOn s (execEnable broken mated slot s) := by
  simp only [execEnable, h, if_true]
  exact ⟨s, rfl, rfl, Nat.le_refl _⟩

@[simp] theorem bringupRead_stepsOn (p src xid len addr count) (s : State) : stepsOn s (execBringupRead p src xid len addr count s) := by
  unfold execBringupRead onBrup
  dsimp only
  repeat' split
  all_goals exact ⟨_, rfl, by simp, by simp⟩

@[simp] theorem bringupWrite_stepsOn (p src xid len addr count words) (s : State) :
    stepsOn s (execBringupWrite p src xid len addr count words s) := by
  unfold execBringupWrite onBrup
  dsimp only
  repeat' split
  all_goals exact ⟨_, rfl, by simp, by simp⟩

@[simp] theorem trainPorts_stepsOn (ports) (s : State) : stepsOn s (execTrainPorts ports s) :=
  runStep_stepsOn (fun a => by split <;> simp (disch := (intros; simp)) [foldl_now, foldl_pending]) s 4

@[simp] theorem resetRegion_stepsOn (p) (s : State) : stepsOn s (execResetRegion p s) :=
  runStep_stepsOn (fun a => by dsimp only; repeat' split
                               all_goals simp) s 9

@[simp] theorem retrainStack_stepsOn (st) (s : State) : stepsOn s (execRetrainStack st s) := by
  simp only [execRetrainStack, runStep, apply_ite Host.Outcome.next]
  repeat' split
  all_goals exact ⟨_, rfl, by simp, by simp⟩

@[simp] theorem i3cPrivateWrite_stepsOn (off vals) (s : State) : stepsOn s (execI3cPrivateWrite off vals s) := by
  unfold execI3cPrivateWrite
  split
  all_goals exact ⟨_, rfl, by simp, by simp⟩

@[simp] theorem i3cPrivateRead_stepsOn (n) (s : State) : stepsOn s (execI3cPrivateRead n s) := by
  unfold execI3cPrivateRead
  split
  all_goals exact ⟨_, rfl, by simp, by simp⟩

/-! ### Every command -/

/-- Every command steps on, but for the ENABLE of a module that is not enabled. -/
theorem exec_stepsOn (x : Instr) (s : State) (h : ∀ broken mated slot, x = .enable broken mated slot → s.mod.enabled = true) :
    stepsOn s (exec x s) := by
  cases x
  case enable broken mated slot => exact enable_stepsOn _ _ _ _ (h _ _ _ rfl)
  all_goals simp [exec]

/-! ### A cycle of the clock -/

/-- From `s` to `t` the queue is kept and device time has not gone back. -/
def movesOn (s t : State) : Prop := t.pending = s.pending ∧ s.now ≤ t.now

theorem movesOn_refl (s : State) : movesOn s s := ⟨rfl, Nat.le_refl _⟩

theorem movesOn_trans {s t u : State} (h1 : movesOn s t) (h2 : movesOn t u) : movesOn s u :=
  ⟨h2.1.trans h1.1, Nat.le_trans h1.2 h2.2⟩

theorem movesOn_ite {s t u : State} (p : Prop) [Decidable p] (h1 : movesOn s t) (h2 : movesOn s u) : movesOn s (if p then t else u) := by
  split <;> assumption

theorem movesOn_foldl {α : Type} {g : State → α → State} (l : List α) (h : ∀ a, ∀ x ∈ l, movesOn a (g a x)) (s : State) :
    movesOn s (l.foldl g s) := by
  induction l generalizing s with
  | nil => exact movesOn_refl s
  | cons x t ih =>
    exact movesOn_trans (h s x List.mem_cons_self) (ih (fun a y hy => h a y (List.mem_cons_of_mem x hy)) (g s x))

theorem tickDo_movesOn {x : Instr} (hx : ∀ broken mated slot, x ≠ .enable broken mated slot) (s : State) : movesOn s (tickDo s x) := by
  obtain ⟨t, ht, hkept⟩ := exec_stepsOn x s fun b m k h => absurd h (hx b m k)
  simp only [tickDo, ht]
  exact hkept

/-- No field of a bundle spells an ENABLE. -/
theorem bundleFields_ne_enable (c : CoreId) (bytes : List Byte) :
    ∀ x ∈ bundleFields c bytes, ∀ broken mated slot, x ≠ .enable broken mated slot := by
  have hm (i : Issue) (w : Word) (b m k) : matrixField i w ≠ .enable b m k := by unfold matrixField; split <;> exact nofun
  have hv (i : Issue) (w : Word) (b m k) : vectorField i w ≠ .enable b m k := by unfold vectorField; split <;> exact nofun
  have hx (i : Issue) (w : Word) (b m k) : moveField i w ≠ .enable b m k := by unfold moveField; split <;> exact nofun
  have hs (i : Issue) (w : Word) (b m k) : scalarField i w ≠ .enable b m k := by unfold scalarField; split <;> exact nofun
  simp [bundleFields, hm, hv, hx, hs]

theorem tickIssue_movesOn (s : State) (c : CoreId) : movesOn s (tickIssue s c) :=
  movesOn_ite _ (movesOn_foldl _ (fun a x hx => tickDo_movesOn (bundleFields_ne_enable c _ x hx) a) s) (movesOn_refl s)

theorem tickSlot_movesOn (s : State) (c : CoreId) : movesOn s (tickSlot s c) := by
  unfold tickSlot
  dsimp only
  split
  · exact movesOn_ite _ (tickDo_movesOn (by simp) s) (movesOn_refl s)
  · exact movesOn_refl s

theorem tickWires_movesOn (s : State) : movesOn s (tickWires s) := by
  refine movesOn_foldl _ (fun a w _ => ?_) s
  split
  · have hflit (b : State) (c : CoreId) (i : Fin 4) : movesOn b (tickDo b (.flitArrival c i none)) := tickDo_movesOn (by simp) b
    have htok (b : State) (c : CoreId) (i : Fin 4) : movesOn b (tickDo b (.tokenArrival c i none)) := tickDo_movesOn (by simp) b
    exact movesOn_trans (movesOn_ite _ (hflit a _ _) (movesOn_refl a)) (movesOn_ite _ (htok _ _ _) (movesOn_refl _))
  · exact movesOn_refl a

theorem singleOut_movesOn (s : State) (l : Nat) : movesOn s (singleOut s l) := ⟨singleOut_pending s l, Nat.le_of_eq (singleOut_now s l).symm⟩

theorem tickSettle_movesOn (s : State) (c : CoreId) : movesOn s (tickSettle s c) :=
  ⟨tickSettle_pending s c, Nat.le_of_eq (tickSettle_now s c).symm⟩

/-- A cycle of the clock keeps the queue and moves device time on by at least a cycle (R13). -/
theorem tick_movesOn (s : State) : (tick s).pending = s.pending ∧ s.now + 1 ≤ (tick s).now := by
  have h1 (l : List Nat) (a : State) : movesOn a (l.foldl singleOut a) := movesOn_foldl l (fun b i _ => singleOut_movesOn b i) a
  have h2 (a : State) : movesOn a ((ownCores a).foldl tickSettle a) := movesOn_foldl _ (fun b c _ => tickSettle_movesOn b c) a
  have h3 (a : State) : movesOn a ((ownCores a).foldl tickSlot a) := movesOn_foldl _ (fun b c _ => tickSlot_movesOn b c) a
  have h4 (a : State) : movesOn a ((ownCores a).foldl tickIssue a) := movesOn_foldl _ (fun b c _ => tickIssue_movesOn b c) a
  have harrived := movesOn_trans (h1 (s.regions.map Prod.fst) s) (tickWires_movesOn _)
  have hall := movesOn_trans (movesOn_trans (movesOn_trans harrived (h2 _)) (h3 _)) (h4 _)
  exact ⟨hall.1, Nat.le_max_right _ _⟩

/-- Where no core and no region has a state of its own and no item is due, a cycle of the clock changes device time alone. -/
theorem tick_of_idle {s : State} (hc : s.cores = []) (hr : s.regions = []) (hw : ∀ w ∈ s.wires, s.now < w.due) :
    tick s = { s with now := s.now + 1 } := by
  have hnone : s.wires.filter (fun w => decide (w.due ≤ s.now)) = [] := by
    simp only [List.filter_eq_nil_iff, decide_eq_true_eq, Nat.not_le]
    exact hw
  have hwires : tickWires s = s := by simp only [tickWires, hnone, List.foldl_nil]
  have hown : ownCores s = [] := by simp [ownCores, hc]
  simp [tick, hr, hwires, hown]

/-! ### The obligations -/

/-- Settles O1: the step's own equation for a queue with a front. -/
theorem stepTakesFront : Obligations.StepTakesFront := by
  unfold Obligations.StepTakesFront
  intro c rest s h
  simp only [step, h]

/-- An ENABLE too keeps the queue. -/
theorem enable_pending (broken mated slot) (s : State) : ∃ t, execEnable broken mated slot s = .next t ∧ t.pending = s.pending := by
  unfold execEnable
  split
  · exact ⟨s, rfl, rfl⟩
  · exact ⟨_, rfl, by simp (disch := (intros; simp)) [foldl_pending]⟩

theorem exec_pending (x : Instr) (s : State) : ∃ t, exec x s = .next t ∧ t.pending = s.pending := by
  by_cases hx : ∃ broken mated slot, x = .enable broken mated slot
  · obtain ⟨broken, mated, slot, rfl⟩ := hx
    exact enable_pending broken mated slot s
  · obtain ⟨t, ht, hq, -⟩ := exec_stepsOn x s fun b m k h => absurd ⟨b, m, k, h⟩ hx
    exact ⟨t, ht, hq⟩

/-- Settles O2: no command and no cycle of the clock touches the queue, and a step has taken the front off it. -/
theorem stepPopsQueue : Obligations.StepPopsQueue := by
  unfold Obligations.StepPopsQueue
  intro s t h
  cases hp : s.pending with
  | nil =>
    simp only [step, hp, Host.Outcome.next.injEq] at h
    rw [← h, (tick_movesOn s).1, hp, List.tail_nil]
  | cons c rest =>
    obtain ⟨u, hu, hq⟩ := exec_pending c { s with pending := rest }
    simp only [step, hp, hu, Host.Outcome.next.injEq] at h
    rw [← h, hq, List.tail_cons]

/-- Settles O3: every command but an ENABLE that starts device time keeps or moves it on, and so does a cycle of the clock. -/
theorem timeNeverGoesBack : Obligations.TimeNeverGoesBack := by
  unfold Obligations.TimeNeverGoesBack
  intro s t h hen
  cases hp : s.pending with
  | nil =>
    simp only [step, hp, Host.Outcome.next.injEq] at h
    rw [← h]
    exact Nat.le_of_succ_le (tick_movesOn s).2
  | cons c rest =>
    obtain ⟨u, hu, -, hn⟩ := exec_stepsOn c { s with pending := rest } fun b m k hc => hen b m k rest (by rw [hp, hc])
    simp only [step, hp, hu, Host.Outcome.next.injEq] at h
    exact h ▸ hn

/-- Settles O59: every command answers a next state, and with no command waiting a step is one cycle of the clock. -/
theorem stepsAlwaysGoOn : Obligations.StepsAlwaysGoOn := by
  unfold Obligations.StepsAlwaysGoOn
  have hexec (x : Instr) (s : State) : goesOn (exec x s) := (exec_pending x s).imp fun _ h => h.1
  refine ⟨⟨hexec, fun s => ?goes⟩, fun s hp => ⟨⟨tick s, by simp only [step, hp], (tick_movesOn s).2⟩, fun hc hr hw => ?idle⟩⟩
  case goes =>
    unfold step
    split
    · exact ⟨_, rfl⟩
    · exact hexec _ _
  case idle => simp only [step, hp, tick_of_idle hc hr hw]

/-- Settles O60: the reset state is a literal, and each register of it holds the reset value of its row. -/
theorem resetLeaves : Obligations.ResetLeaves := by
  unfold Obligations.ResetLeaves
  dsimp only
  have hcore (c : CoreId) : State.reset.core c.val = Core.reset := rfl
  have hspad (cyc a : Nat) : spadByte Core.reset.spad cyc a = 0#8 := rfl
  have hstack (st : StackId) : State.reset.stack st.val = Stack.reset := rfl
  refine ⟨rfl, rfl, rfl, rfl, rfl, rfl, rfl, rfl, rfl, fun c => ?cores, fun st => ?perStack, ?regions, ?ports, ?_, ?_, ?_⟩
  case cores =>
    rw [hcore]
    exact ⟨rfl, rfl, hspad, by decide +kernel, by decide +kernel, by decide +kernel, by decide +kernel, by decide +kernel⟩
  case perStack =>
    rw [hstack]
    decide +kernel
  case regions => decide +kernel
  case ports => decide +kernel
  all_goals decide +kernel

end Sys2Proof.Machine
end

section
/-! PROOFS. The scalar unit (R245 to R257): arithmetic and moves, loads and stores, control transfers, accesses to registers. Each operation
gives its core one new state; what that state is worth is read off it. -/

namespace Sys2Proof.Machine

/-! ### A scalar operation that issues -/

/-- A core as a state stores it: what it had to report has left it. -/
def stored (k : Core) : Core := { k with outbox := [], check := false }

/-- The core after a scalar operation has issued on core k in cycle n: discarded with BAD_OP or BAD_ADDR, or acting as `g` says (R250,
R252, R760). -/
def scalarIssued (i : Issue) (bad : Bool) (addrBad : Core → Nat → Bool) (g : Core → Nat → Bool → Core) (n : Nat) (k : Core) : Core :=
  if predReserved i || bad then goOn (scalarDiscard k sBadOp) n (n + 1)
  else if addrBad k n then goOn (scalarDiscard k sBadAddr) n (n + 1)
  else g k n (enabledAt k i n)

section
variable {x : Instr} {i : Issue} {bad : Bool} {addrBad : Core → Nat → Bool} {g : Core → Nat → Bool → Core}
  {eff : State → Core → Nat → Bool → State}

/-- A scalar operation whose effect is on its core alone gives that core its new state and changes nothing else. -/
theorem scalar_issues (hexec : ∀ s, exec x s = .next (issueScalar s i bad addrBad eff))
    (heff : ∀ s1 c t en, eff s1 c t en = s1.setCore i.core.val (g c t en))
    {s : State} {n : Nat} {k : Core} (h : fieldIssue s i.core.val (fun _ => false) = some (n, k)) :
    ∃ t, exec x s = .next t ∧ onlyCore i.core.val s t ∧ t.core i.core.val = stored (scalarIssued i bad addrBad g n k) := by
  have hstep : issueScalar s i bad addrBad eff = (s.reach n).setCore i.core.val (scalarIssued i bad addrBad g n k) := by
    rw [issueScalar_acts h, scalarIssued, heff]
    split
    · rfl
    · split <;> rfl
  refine ⟨_, (hexec s).trans (congrArg _ hstep), onlyCore_trans (onlyCore_reach _ s n) (onlyCore_setCore _ _ _), ?_⟩
  exact core_setCore_self _ _ _

theorem scalarIssued_badOp (h : bad = true ∨ predReserved i = true) (n : Nat) (k : Core) :
    scalarDiscarded 0 k (stored (scalarIssued i bad addrBad g n k)) := by
  have hbad : (predReserved i || bad) = true := by rcases h with h | h <;> simp [h]
  rw [scalarIssued, if_pos hbad]
  exact scalarDiscarded_of k 0 n (n + 1) (by decide)

theorem scalarIssued_badAddr (hbad : bad = false) (hpred : predReserved i = false) {n : Nat} {k : Core} (ha : addrBad k n = true) :
    scalarDiscarded 1 k (stored (scalarIssued i bad addrBad g n k)) := by
  simp only [scalarIssued, hbad, hpred, ha, Bool.or_self, Bool.false_eq_true, if_false, if_true]
  exact scalarDiscarded_of k 1 n (n + 1) (by decide)

theorem scalarIssued_acting (hbad : bad = false) (hpred : predReserved i = false) {n : Nat} {k : Core} (ha : addrBad k n = false) :
    scalarIssued i bad addrBad g n k = g k n (enabledAt k i n) := by
  simp only [scalarIssued, hbad, hpred, ha, Bool.or_self, Bool.false_eq_true, if_false]

/-- A scalar operation completes where its own effect, or the discard of a bad address, is what is asked of it. -/
theorem scalarActs_of {post : Nat → Core → Core → Prop} (hexec : ∀ s, exec x s = .next (issueScalar s i bad addrBad eff))
    (heff : ∀ s1 c t en, eff s1 c t en = s1.setCore i.core.val (g c t en))
    (haddr : ∀ n k, addrBad k n = true → ∀ k2, scalarDiscarded 1 k k2 → post n k k2)
    (hacts : ∀ n k, addrBad k n = false → k.idle = false → post n k (stored (g k n (enabledAt k i n)))) : scalarActs x i bad post := by
  intro s n k h
  obtain ⟨-, -, hidle⟩ := fieldIssue_some h
  obtain ⟨t, ht, honly, hcore⟩ := scalar_issues hexec heff h
  refine ⟨t, ht, honly, fun hb => ?_, fun hb hp => ?_⟩
  · rw [hcore]
    exact scalarIssued_badOp hb n k
  · rw [hcore]
    cases ha : addrBad k n with
    | true => exact haddr n k ha _ (scalarIssued_badAddr hb hp ha)
    | false =>
      rw [scalarIssued_acting hb hp ha]
      exact hacts n k ha hidle

end

/-! ### Arithmetic and moves -/

/-- An operation that writes one result completes with it, whatever equal form of the result is asked for. -/
theorem scalarGives_of {x : Instr} {i : Issue} {bad : Bool} {dst : Nat} {v w : Core → Nat → PWord}
    (hexec : ∀ s, exec x s = .next (issueScalar s i bad noAddr fun s1 c t en => scalarWrite i dst s1 c t en (v c t)))
    (hv : ∀ c t, v c t = w c t) : scalarGives x i bad dst w := by
  obtain rfl : v = w := funext fun c => funext fun t => hv c t
  exact scalarActs_of (g := fun c t en => goOn (if en then gprResult c dst (t + 1) (v c t) else c) t (t + 1)) hexec (fun _ _ _ _ => rfl)
    (fun _ _ h => absurd h Bool.false_ne_true) fun n k _ _ => scalarResult_of _ dst n 1 (n + 1) (v k n) k

theorem regFormGives_of {mk : Issue → RegForm → Instr} {g g' : Word → Word → Word}
    (hexec : ∀ i f s, exec (mk i f) s = .next (issueReg s i f g)) (hg : ∀ a b, g a b = g' a b) : regFormGives mk g' :=
  fun i f => scalarGives_of (hexec i f) fun _ _ => by rw [hg]

theorem immFormGives_of {mk : Issue → ImmForm → Instr} {g : Word → Word → Word}
    (hexec : ∀ i f s, exec (mk i f) s = .next (issueImm s i f g)) : immFormGives mk g :=
  fun i f => scalarGives_of (hexec i f) fun _ _ => rfl

/-- A comparison of words as a result. -/
theorem ite_slt (a b : Word) : (if a.slt b then 1#32 else 0#32) = if a.toInt < b.toInt then 1#32 else 0#32 := by
  simp [BitVec.slt]

theorem ite_ult (a b : Word) : (if a.ult b then 1#32 else 0#32) = if a.toNat < b.toNat then 1#32 else 0#32 := by
  simp [BitVec.ult]

theorem mul_eq_ofNat (a b : Word) : a * b = BitVec.ofNat 32 (a.toNat * b.toNat) := by
  apply BitVec.eq_of_toNat_eq
  simp

/-- `movh` puts its immediate over the low half of the old word. -/
theorem low_half_or_shifted (w : Word) (v : BitVec 16) : (w &&& 0xFFFF#32) ||| (v.setWidth 32 <<< 16) = v ++ w.extractLsb' 0 16 := by
  have hones (j : Nat) : (0xFFFF#32).getLsbD j = decide (j < 16) := by
    rw [show (0xFFFF#32) = BitVec.ofNat 32 (2 ^ 16 - 1) from rfl, BitVec.getLsbD_ofNat, Nat.testBit_two_pow_sub_one, ← Bool.decide_and,
      decide_eq_decide]
    omega
  apply BitVec.eq_of_getLsbD_eq
  intro j hj
  simp only [BitVec.getLsbD_or, BitVec.getLsbD_and, hones, BitVec.getLsbD_shiftLeft, BitVec.getLsbD_setWidth, BitVec.getLsbD_append,
    BitVec.getLsbD_extractLsb']
  by_cases hlow : j < 16
  · simp [hlow]
  · simp [hlow, hj, show j - 16 < 32 by omega]

/-- The condition of `pcmp` by its code (R249). -/
theorem pcmpCond_iff {c : Nat} (hc : c < 4) (a b : Word) :
    pcmpCond c a b = true ↔ (c = 0 ∧ a = b) ∨ (c = 1 ∧ a ≠ b) ∨ (c = 2 ∧ a.toInt < b.toInt) ∨ (c = 3 ∧ b.toInt ≤ a.toInt) := by
  interval_cases c <;> simp [pcmpCond, BitVec.slt]

/-- Settles O4: each operation is issued with its function of the operands read in the cycle of issue. -/
theorem arithmeticGivesResult : Obligations.ArithmeticGivesResult := by
  unfold Obligations.ArithmeticGivesResult
  refine ⟨⟨?add, ?sub, ?and, ?or, ?xor, ?shl, ?shr, ?sra, ?mul, ?slt, ?sltu⟩, ⟨?addi, ?andi, ?ori, ?xori, ?shli, ?shri, ?srai⟩,
    fun i f => ?movl, fun i f => ?movh, fun i f => ?pcmp, fun i rsv => ?snop⟩
  case mul => exact regFormGives_of (fun _ _ _ => rfl) mul_eq_ofNat
  case slt => exact regFormGives_of (fun _ _ _ => rfl) ite_slt
  case sltu => exact regFormGives_of (fun _ _ _ => rfl) ite_ult
  case add | sub | and | or | xor | shl | shr | sra => exact regFormGives_of (fun _ _ _ => rfl) fun _ _ => rfl
  case addi | andi | ori | xori | shli | shri | srai => exact immFormGives_of fun _ _ _ => rfl
  case movl => exact scalarGives_of (fun _ => rfl) fun _ _ => by rw [BitVec.ofNat_toNat]
  case movh => exact scalarGives_of (fun _ => rfl) fun _ _ => by rw [low_half_or_shifted]
  case pcmp =>
    refine scalarGives_of (fun _ => rfl) fun c t => ?_
    simp only [pcmpCond_iff (show f.dst.toNat / 4 < 4 by omega)]
  case snop =>
    refine scalarActs_of (g := fun c t _ => goOn c t (t + 1)) (fun _ => rfl) (fun _ _ _ _ => rfl) (fun _ _ h => absurd h Bool.false_ne_true)
      fun n k _ _ => ?_
    have h := scalarResult_of (enabledAt k i n) 0 n 1 (n + 1) ⟨0#32, false⟩ k
    simp only [gprResult, if_true, ite_self] at h
    exact h

/-! ### Loads and stores -/

theorem effAddr_eq_scalarAddr (k : Core) (f : ImmForm) (n : Nat) : effAddr k f n = scalarAddr k f n := rfl

theorem memRefused_eq_false_iff (k : Core) (f : ImmForm) (n : Nat) : memRefused f k n = false ↔ memAddrOk k (effAddr k f n) := by
  simp only [memRefused, memAddrOk, effAddr_eq_scalarAddr, Bool.or_eq_false_iff, bne_eq_false_iff_eq, decide_eq_false_iff_not,
    Nat.not_le, beq_eq_false_iff_ne, and_assoc, ne_eq]
  rfl

/-- The core after a `ld` with a good address, and after a `st` (R251, R252). -/
def loadCore (f : ImmForm) (c : Core) (t : Nat) (en : Bool) : Core :=
  let a := scalarAddr c f t
  if en then goOn (gprResult (noteReads c 7 (t + 1) [(a, t + 1)]) f.dst.toNat (t + 1 + latency c) (spadWord c.spad (t + 1) a)) t (t + 1)
  else goOn c t (t + 1)

/-- The write of a `st` issued in cycle t (R211). -/
def storeWrite (f : ImmForm) (c : Core) (t : Nat) : SpadWrite :=
  let a := scalarAddr c f t
  let v := gprAt c f.dst.toNat t
  { plainWrite (t + latency c) 7 a (bytesOfWord v.val) false with bad := if v.bad then [a / 4] else [] }

def storeCore (f : ImmForm) (c : Core) (t : Nat) (en : Bool) : Core :=
  goOn (if en then { c with spad := spadPush c.spad (storeWrite f c t) } else c) t (t + 1)

theorem ld_acts (i : Issue) (f : ImmForm) : scalarActs (.ld i f) i false fun n k k2 =>
    let a := effAddr k f n
    (memAddrOk k a → dataButNotes k { k2 with pend := k.pend } ∧ goesOnInSequence k k2 ∧ k2.spad = k.spad ∧
      (enabledAt k i n = true → f.dst ≠ 0 → gprAt k2 f.dst.toNat (n + 1 + latency k) = spadWord k.spad (n + 1) a) ∧
      (∀ r u, (r ≠ f.dst.toNat ∨ u < n + 1 + latency k ∨ enabledAt k i n = false) → gprAt k2 r u = gprAt k r u)) ∧
    (¬ memAddrOk k a → scalarDiscarded 1 k k2) := by
  refine scalarActs_of (g := loadCore f) (fun _ => rfl) (fun _ _ _ en => by cases en <;> rfl) (fun n k h k2 hk2 => ?refused)
    fun n k h _ => ?done
  case refused =>
    have hbad : ¬ memAddrOk k (effAddr k f n) := by rw [← memRefused_eq_false_iff, h]; exact Bool.noConfusion
    exact ⟨fun hok => absurd hok hbad, fun _ => hk2⟩
  case done =>
    refine ⟨fun _ => ?_, fun hbad => absurd ((memRefused_eq_false_iff k f n).mp h) hbad⟩
    cases hen : enabledAt k i n with
    | false =>
      have hdata : dataOf (stored (goOn k n (n + 1))) = dataOf k := dataOf_stored k n (n + 1)
      exact ⟨dataSet_pend (dataSet_lastRec (dataSet_recs (dataSet_regs hdata k.regs) k.recs) k.lastRec) k.pend, goOn_seq k k n _ rfl rfl,
        data_spad hdata, nofun, fun r u _ => gprAt_of_data hdata r u⟩
    | true =>
      obtain ⟨hpc, hloops, -⟩ := noteReads_pc k 7 (n + 1) [(effAddr k f n, n + 1)]
      obtain ⟨hdata, hseq, hspad, hself, hother⟩ := loadPost k _ f.dst.toNat n (n + 1 + latency k) (spadWord k.spad (n + 1) (effAddr k f n))
        (dataButNotes_noteReads k 7 (n + 1) [(effAddr k f n, n + 1)]) ⟨hpc, hloops⟩ _ rfl
      have hdst (h0 : f.dst ≠ 0) : f.dst.toNat ≠ 0 := fun h => h0 (BitVec.eq_of_toNat_eq h)
      exact ⟨hdata, hseq, hspad, fun _ h0 => hself (hdst h0), fun r u hr => hother r u (by simpa using hr)⟩

/-- A byte of a word is eight of its bits. -/
theorem bytesOfWord_getD (w : Word) {j : Nat} (hj : j < 4) : (bytesOfWord w).getD j 0#8 = w.extractLsb' (8 * j) 8 := by
  apply BitVec.eq_of_toNat_eq
  have h : j = 0 ∨ j = 1 ∨ j = 2 ∨ j = 3 := by omega
  rcases h with rfl | rfl | rfl | rfl <;> simp [bytesOfWord]

theorem st_acts (i : Issue) (f : ImmForm) : scalarActs (.st i f) i false fun n k k2 =>
    let a := effAddr k f n
    (memAddrOk k a → dataOf { k2 with spad := k.spad } = dataOf k ∧ goesOnInSequence k k2 ∧
      (enabledAt k i n = false → k2.spad = k.spad) ∧
      (∀ cyc x, (x < a ∨ a + 4 ≤ x ∨ cyc ≤ n + latency k) → spadByte k2.spad cyc x = spadByte k.spad cyc x) ∧
      (enabledAt k i n = true → ∀ cyc j, j < 4 → n + latency k < cyc → (∀ w ∈ k.spad.log, w.covers (a + j) = false) →
        spadByte k2.spad cyc (a + j) = (gprAt k f.dst.toNat n).val.extractLsb' (8 * j) 8)) ∧
    (¬ memAddrOk k a → scalarDiscarded 1 k k2) := by
  refine scalarActs_of (g := storeCore f) (fun _ => rfl) (fun _ _ _ en => by cases en <;> rfl) (fun n k h k2 hk2 => ?refused)
    fun n k h _ => ?done
  case refused =>
    have hbad : ¬ memAddrOk k (effAddr k f n) := by rw [← memRefused_eq_false_iff, h]; exact Bool.noConfusion
    exact ⟨fun hok => absurd hok hbad, fun _ => hk2⟩
  case done =>
    refine ⟨fun _ => ?_, fun hbad => absurd ((memRefused_eq_false_iff k f n).mp h) hbad⟩
    cases hen : enabledAt k i n with
    | false =>
      have hdata : dataOf (stored (goOn k n (n + 1))) = dataOf k := dataOf_stored k n (n + 1)
      have hspad := data_spad hdata
      exact ⟨dataSet_spad hdata k.spad, goOn_seq k k n _ rfl rfl, fun _ => hspad, fun cyc x _ => by rw [← hspad]; rfl, nofun⟩
    | true =>
      have hdata := dataOf_stored { k with spad := spadPush k.spad (storeWrite f k n) } n (n + 1)
      have hspad : (stored (storeCore f k n true)).spad = spadPush k.spad (storeWrite f k n) := data_spad hdata
      have hlen : (storeWrite f k n).bytes.length = 4 := rfl
      have haddr : (storeWrite f k n).addr = effAddr k f n := rfl
      refine ⟨dataSet_spad hdata k.spad, goOn_seq k _ n _ rfl rfl, nofun, fun cyc x hx => ?frame, fun _ cyc j hj hcyc hlog => ?byte⟩
      case frame =>
        rw [hspad]
        refine spadByte_push_ne _ _ _ _ (hx.elim (fun h => .inl ?_) fun h => h.elim (fun h => .inl ?_) .inr)
        all_goals simp only [SpadWrite.covers, hlen, haddr, decide_eq_false_iff_not]; omega
      case byte =>
        rw [hspad, spadByte_push_self _ _ _ _ ?_ hcyc hlog]
        · rw [haddr, Nat.add_sub_cancel_left]
          exact bytesOfWord_getD _ hj
        · simp only [SpadWrite.covers, hlen, haddr, decide_eq_true_eq]; omega

/-- Settles O5: a load is a result on its way and a store a write on its way, each after its address has been judged. -/
theorem loadAndStoreAct : Obligations.LoadAndStoreAct := by
  unfold Obligations.LoadAndStoreAct
  exact ⟨ld_acts, st_acts⟩

/-! ### Control transfers -/

/-- A scalar result is read off the data of the core alone. -/
theorem scalarResult_of_data {en : Bool} {dst n d : Nat} {v : PWord} {k a b : Core} (h : dataOf b = dataOf a)
    (ha : scalarResult en dst n d v k a) : scalarResult en dst n d v k b := by
  obtain ⟨hdata, hself, hzero, hother⟩ := ha
  exact ⟨(dataSet_pend h k.pend).trans hdata, fun he h0 => (gprAt_of_data h dst (n + d)).trans (hself he h0),
    fun u => (gprAt_of_data h 0 u).trans (hzero u), fun r u hr => (gprAt_of_data h r u).trans (hother r u hr)⟩

@[simp] theorem latency_gprResult (c : Core) (r due : Nat) (v : PWord) : latency (gprResult c r due v) = latency c := by
  unfold gprResult; split <;> rfl

theorem jumpFrom_data (c : Core) (t : Nat) (taken : Bool) (target : Nat) (bad : Bool) : dataOf (jumpFrom c t taken target bad) = dataOf c := by
  unfold jumpFrom
  dsimp only
  split <;> (rw [goTo_data]; rfl)

/-- Issue stands at the target of a jump that is taken, and in sequence after one that is not, in the same cycle (R253, R257). -/
def jumpsTo (n : Nat) (en bad : Bool) (target : Nat) (k k2 : Core) : Prop :=
  k2.nextIssue = n + latency k + 2 ∧
  (en = true → k2.pc = target % 4194304 ∧ (k2.idle = true ↔ bad = true ∨ 0x300000 ≤ target % 4194304)) ∧
  (en = false → goesOnInSequence k k2)

theorem jumpFrom_jumps {k c : Core} (hidle : c.idle = false) (hpc : c.pc = k.pc) (hloops : c.loops = k.loops) (hlat : latency c = latency k)
    (n : Nat) (en bad : Bool) (target : Nat) : jumpsTo n en bad target k (stored (jumpFrom c n en target bad)) := by
  cases en with
  | true =>
    refine ⟨(goTo_nextIssue _ _ _ _).trans (by rw [hlat]), fun _ => ⟨goTo_pc _ _ _ _, ?_⟩, nofun⟩
    have h : (stored (jumpFrom c n true target bad)).idle = (c.idle || bad || decide (spadEnd ≤ target % 2 ^ 22)) := goTo_idle _ _ _ _
    rw [h, hidle]
    simp only [Bool.false_or, Bool.or_eq_true, decide_eq_true_eq]
    rfl
  | false =>
    refine ⟨(goTo_nextIssue _ _ _ _).trans (by rw [hlat]), nofun, fun _ => ⟨?_, ?_⟩⟩
    · rw [← hpc, ← hloops]; exact goTo_pc _ _ _ _
    · rw [← hpc, ← hloops]; exact goTo_loops _ _ _ _

/-- A taken jump modulo the address space is the jump modulo the address space (R255). -/
theorem jumpsTo_mod {n : Nat} {en bad : Bool} {target : Nat} {k k2 : Core} (h : jumpsTo n en bad (target % 2 ^ 22) k k2) :
    jumpsTo n en bad target k k2 := by
  simpa only [jumpsTo, show (2 ^ 22 : Nat) = 4194304 from rfl, Nat.mod_mod] using h

theorem jmp_acts (i : Issue) (f : ImmForm) : scalarActs (.jmp i f) i false fun n k k2 =>
    jumpsTo n (enabledAt k i n) false (k.pc + 16 * (f.imm.signExtend 32).toNat) k k2 ∧ dataOf k2 = dataOf k :=
  scalarActs_of (g := fun c t en => jumpFrom c t en (relTarget c f) false) (fun _ => rfl) (fun _ _ _ _ => rfl)
    (fun _ _ h => absurd h Bool.false_ne_true)
    fun n k _ hidle => ⟨jumpsTo_mod (jumpFrom_jumps hidle rfl rfl rfl n _ _ _), jumpFrom_data k n _ _ _⟩

theorem call_acts (i : Issue) (f : ImmForm) : scalarActs (.call i f) i false fun n k k2 =>
    jumpsTo n (enabledAt k i n) false (k.pc + 16 * (f.imm.signExtend 32).toNat) k k2 ∧
    scalarResult (enabledAt k i n) 15 n 1 ⟨BitVec.ofNat 32 (k.pc + 16), false⟩ k k2 := by
  refine scalarActs_of (g := fun c t en => jumpFrom (if en then gprResult c 15 (t + 1) ⟨BitVec.ofNat 32 (c.pc + 16), false⟩ else c) t en
    (relTarget c f) false) (fun _ => rfl) (fun _ _ _ _ => rfl) (fun _ _ h => absurd h Bool.false_ne_true) fun n k _ hidle => ⟨?jumps, ?returns⟩
  case jumps =>
    refine jumpsTo_mod (jumpFrom_jumps ?_ ?_ ?_ ?_ n _ _ _)
    all_goals split
    all_goals first | exact hidle | rfl
  case returns => exact scalarResult_of_data ((jumpFrom_data _ n _ _ _).trans (dataOf_stored _ n n).symm) (scalarResult_of _ 15 n 1 n _ k)

theorem jr_acts (i : Issue) (f : RegForm) : scalarActs (.jr i f) i (f.rsv != 0#11) fun n k k2 =>
    let a := (gprAt k f.sa.toNat n).val.toNat
    jumpsTo n (enabledAt k i n) (decide (a % 16 ≠ 0 ∨ 0x300000 ≤ a)) a k k2 ∧ dataOf k2 = dataOf k :=
  scalarActs_of (g := fun c t en => jumpFrom c t en (gprAt c f.sa.toNat t).val.toNat
      (decide ((gprAt c f.sa.toNat t).val.toNat % 16 ≠ 0 ∨ spadEnd ≤ (gprAt c f.sa.toNat t).val.toNat))) (fun _ => rfl) (fun _ _ _ _ => rfl)
    (fun _ _ h => absurd h Bool.false_ne_true)
    fun n k _ hidle => ⟨jumpFrom_jumps hidle rfl rfl rfl n _ _ _, jumpFrom_data k n _ _ _⟩

/-- Why a `loop` is discarded (R255). -/
def loopBad (k : Core) (m : Nat) : Prop :=
  m = 0 ∨ 16383 < m ∨ 4 ≤ k.loops.length ∨ ∃ l r, k.loops = l :: r ∧ l.last < k.pc + 16 * m

theorem loopRefused_iff (k : Core) (m : Nat) : loopRefused k m = true ↔ loopBad k m := by
  unfold loopRefused loopBad
  cases k.loops <;> simp [or_assoc]

/-- The core after a `loop`, by its count (R254, R255). -/
def loopCore (f : ImmForm) (c : Core) (t : Nat) : Core :=
  let m := f.imm.toNat
  let count := (gprAt c f.sa.toNat t).val.toNat
  let nx := seqNext (c.pc + 16 * m) c.loops
  if loopRefused c m then goOn (scalarDiscard c sLoop) t (t + 1)
  else if count = 0 then goTo (fetchThree { c with loops := nx.2.1 } nx.1 (t + 1)) nx.1 (t + latency c + 2) false
  else goOn { c with loops := ⟨c.pc + 16, c.pc + 16 * m, count, decide (64 < m), false⟩ :: c.loops } t (t + 1)

theorem loop_acts (i : Issue) (f : ImmForm) : scalarActs (.loop i f) i false fun n k k2 =>
    let m := f.imm.toNat
    let cnt := (gprAt k f.sa.toNat n).val.toNat
    (loopBad k m → scalarDiscarded 2 k k2) ∧
    (¬ loopBad k m → dataOf k2 = dataOf k ∧
      (cnt = 0 → k2.pc = (seqNext (k.pc + 16 * m) k.loops).1 % 4194304 ∧ k2.nextIssue = n + latency k + 2) ∧
      (cnt ≠ 0 → goesOnInSequence { k with loops := ⟨k.pc + 16, k.pc + 16 * m, cnt, decide (64 < m), false⟩ :: k.loops } k2)) := by
  refine scalarActs_of (g := fun c t _ => loopCore f c t) (fun _ => rfl) (fun s1 c t _ => ?setCore) (fun _ _ h => absurd h Bool.false_ne_true)
    fun n k _ _ => ⟨fun hbad => ?refused, fun hbad => ?taken⟩
  case setCore =>
    dsimp only [loopCore]
    split
    · rfl
    · split <;> rfl
  case refused =>
    rw [loopCore, if_pos ((loopRefused_iff k _).mpr hbad)]
    exact scalarDiscarded_of k 2 n (n + 1) (by decide)
  case taken =>
    rw [loopCore, if_neg (mt (loopRefused_iff k _).mp hbad)]
    by_cases hcnt : (gprAt k f.sa.toNat n).val.toNat = 0
    · rw [if_pos hcnt]
      exact ⟨goTo_data _ _ _ _, fun _ => ⟨goTo_pc _ _ _ _, goTo_nextIssue _ _ _ _⟩, fun h => absurd hcnt h⟩
    · rw [if_neg hcnt]
      exact ⟨dataOf_stored _ n (n + 1), fun h => absurd h hcnt, fun _ => goOn_seq _ _ n (n + 1) rfl rfl⟩

theorem goOn_nextIssue (c : Core) (t n : Nat) :
    (goOn c t n).nextIssue = if (seqNext c.pc c.loops).2.2 then max n (t + latency c + 2) else n := by
  unfold goOn
  dsimp only
  split <;> rw [goTo_nextIssue]

theorem wait_acts (i : Issue) (f : ImmForm) :
    scalarActs (.wait i f) i (f.imm.toNat == 0 || decide (16383 < f.imm.toNat)) fun n k k2 =>
      dataOf k2 = dataOf k ∧ goesOnInSequence k k2 ∧ n + 1 + f.imm.toNat ≤ k2.nextIssue ∧
      ((seqNext k.pc k.loops).2.2 = false → k2.nextIssue = n + 1 + f.imm.toNat) := by
  have hzero : (f.imm.toNat == 0) = (f.imm == 0#15) := by
    rw [Bool.eq_iff_iff, beq_iff_eq, beq_iff_eq, ← BitVec.toNat_inj]; rfl
  rw [hzero]
  refine scalarActs_of (g := fun c t _ => goOn c t (t + 1 + f.imm.toNat)) (fun _ => rfl) (fun _ _ _ _ => rfl)
    (fun _ _ h => absurd h Bool.false_ne_true) fun n k _ _ => ⟨dataOf_stored _ n _, goOn_seq k k n _ rfl rfl, ?later, fun h => ?exact⟩
  case later =>
    refine Nat.le_trans ?_ (Nat.le_of_eq (goOn_nextIssue k n (n + 1 + f.imm.toNat)).symm)
    split <;> omega
  case exact => exact (goOn_nextIssue k n _).trans (by rw [h]; rfl)

theorem done_acts (i : Issue) (rsv : BitVec 23) : scalarActs (.done i rsv) i (rsv != 0#23) fun _ k k2 =>
    k2.idle = true ∧ bit (cReg k2 rCtlStatus) 4 = true ∧ (∀ o, o ≠ rCtlStatus → cReg k2 o = cReg k o) ∧
    dataOf { k2 with regs := k.regs } = dataOf k := by
  refine scalarActs_of (g := fun c t _ => cFlag { c with idle := true, pc := (c.pc + 16) % 2 ^ 22, nextIssue := t + 1, openAt := none
                                                         usedM := false, usedV := false, usedX := false } rCtlStatus sDone)
    (fun _ => rfl) (fun _ _ _ _ => rfl) (fun _ _ h => absurd h Bool.false_ne_true) fun n k _ _ => ⟨rfl, ?flag, fun o ho => ?frame, rfl⟩
  case flag =>
    refine (congrArg (bit · 4) (cReg_cFlag_self _ rCtlStatus sDone)).trans ?_
    simp [bit, sDone]
  case frame => exact cReg_cFlag_ne _ rCtlStatus o sDone ho

/-- Settles O6: a jump goes to its target or on in sequence in the same cycle, and each operation that is done as if enabled gives its core
one state. -/
theorem controlFlowActs : Obligations.ControlFlowActs := by
  unfold Obligations.ControlFlowActs
  exact ⟨⟨jmp_acts, call_acts, jr_acts⟩, loop_acts, wait_acts, done_acts⟩

/-! ### Accesses to registers -/

/-- The address of a `rdr` or `wrr` names a word of the register space (R252). -/
def regAddrOk (k : Core) (f : ImmForm) (n : Nat) : Prop := effAddr k f n % 4 = 0 ∧ effAddr k f n < 0x4000

theorem regRefused_eq_false_iff (k : Core) (f : ImmForm) (n : Nat) : regRefused f k n = false ↔ regAddrOk k f n := by
  simp only [regRefused, regAddrOk, effAddr_eq_scalarAddr, Bool.or_eq_false_iff, bne_eq_false_iff_eq, decide_eq_false_iff_not, Nat.not_le]

theorem regRefused_of_not {k : Core} {f : ImmForm} {n : Nat} (h : ¬ regAddrOk k f n) : regRefused f k n = true := by
  rw [← Bool.not_eq_false]
  exact mt (regRefused_eq_false_iff k f n).mp h

section
variable {s : State} {i : Issue} {f : ImmForm} {n : Nat} {k : Core} {eff : State → Core → Nat → Bool → State}
  (h : fieldIssue s i.core.val (fun _ => false) = some (n, k)) (hpred : predReserved i = false)
include h hpred

theorem issueScalar_regAddr_refused (ha : ¬ regAddrOk k f n) :
    issueScalar s i false (regRefused f) eff = (s.reach n).setCore i.core.val (goOn (scalarDiscard k sBadAddr) n (n + 1)) := by
  rw [issueScalar_acts h, hpred, regRefused_of_not ha]
  rfl

theorem issueScalar_regAddr_ok (ha : regAddrOk k f n) :
    issueScalar s i false (regRefused f) eff = eff (s.reach n) k n (enabledAt k i n) := by
  rw [issueScalar_acts h, hpred, (regRefused_eq_false_iff k f n).mpr ha]
  rfl

end

theorem onlyCore_reach_setCore (s : State) (c n : Nat) (k : Core) : onlyCore c s ((s.reach n).setCore c k) :=
  onlyCore_trans (onlyCore_reach c s n) (onlyCore_setCore c _ k)

theorem rdr_acts (i : Issue) (f : ImmForm) (s : State) (n : Nat) (k : Core)
    (h : fieldIssue s i.core.val (fun _ => false) = some (n, k)) (hpred : predReserved i = false) :
    ∃ t, exec (.rdr i f) s = .next t ∧ onlyCore i.core.val s t ∧
      (¬ regAddrOk k f n → scalarDiscarded 1 k (t.core i.core.val)) ∧
      (regAddrOk k f n → enabledAt k i n = true → f.dst ≠ 0 → gprAt (t.core i.core.val) f.dst.toNat (n + 2) =
        ⟨(coreRead (settleCore (goOn k n (n + 1)) (n + 1)) s.free (n + 1) (effAddr k f n)).1, false⟩) ∧
      (regAddrOk k f n → enabledAt k i n = false → dataOf (t.core i.core.val) = dataOf k) := by
  refine ⟨_, rfl, ?_⟩
  by_cases ha : regAddrOk k f n
  · rw [issueScalar_regAddr_ok h hpred ha]
    cases hen : enabledAt k i n with
    | true =>
      refine ⟨onlyCore_trans (onlyCore_trans (onlyCore_reach _ s n) (onlyCore_takeFree _ _ 16)) (onlyCore_setCore _ _ _),
        fun hn => absurd ha hn, fun _ _ h0 => ?_, nofun⟩
      have hdst : f.dst.toNat ≠ 0 := fun h => h0 (BitVec.eq_of_toNat_eq h)
      simp only [if_true, core_setCore_self]
      exact gprAt_result_self _ _ _ _ hdst
    | false =>
      refine ⟨onlyCore_reach_setCore _ _ _ _, fun hn => absurd ha hn, nofun, fun _ _ => ?_⟩
      simp only [Bool.false_eq_true, if_false, core_setCore_self]
      exact dataOf_stored k n (n + 1)
  · rw [issueScalar_regAddr_refused h hpred ha]
    refine ⟨onlyCore_reach_setCore _ _ _ _, fun _ => ?_, fun hok => absurd hok ha, fun hok => absurd hok ha⟩
    rw [core_setCore_self]
    exact scalarDiscarded_of k 1 n (n + 1) (by decide)

theorem wrr_acts (i : Issue) (f : ImmForm) (s : State) (n : Nat) (k : Core)
    (h : fieldIssue s i.core.val (fun _ => false) = some (n, k)) (hpred : predReserved i = false) :
    ∃ t, exec (.wrr i f) s = .next t ∧
      (¬ regAddrOk k f n → onlyCore i.core.val s t ∧ scalarDiscarded 1 k (t.core i.core.val)) ∧
      (regAddrOk k f n → enabledAt k i n = true →
        t = coreWrite ((s.reach n).setCore i.core.val (goOn k n (n + 1))) i.core.val (effAddr k f n) (gprAt k f.dst.toNat n).val false) ∧
      (regAddrOk k f n → enabledAt k i n = false → onlyCore i.core.val s t ∧ dataOf (t.core i.core.val) = dataOf k) := by
  refine ⟨_, rfl, ?_⟩
  by_cases ha : regAddrOk k f n
  · rw [issueScalar_regAddr_ok h hpred ha]
    cases hen : enabledAt k i n with
    | true => exact ⟨fun hn => absurd ha hn, fun _ _ => rfl, nofun⟩
    | false =>
      refine ⟨fun hn => absurd ha hn, nofun, fun _ _ => ⟨onlyCore_reach_setCore _ _ _ _, ?_⟩⟩
      simp only [Bool.false_eq_true, if_false, core_setCore_self]
      exact dataOf_stored k n (n + 1)
  · rw [issueScalar_regAddr_refused h hpred ha]
    refine ⟨fun _ => ⟨onlyCore_reach_setCore _ _ _ _, ?_⟩, fun hok => absurd hok ha, fun hok => absurd hok ha⟩
    rw [core_setCore_self]
    exact scalarDiscarded_of k 1 n (n + 1) (by decide)

/-- Settles O10: a `rdr` is a result on its way, a `wrr` a write of the register in its issue cycle, each after its address has been
judged. -/
theorem programReachesRegisters : Obligations.ProgramReachesRegisters := by
  unfold Obligations.ProgramReachesRegisters
  exact ⟨fun i f s n k h hpred => rdr_acts i f s n k h hpred, fun i f s n k h hpred => wrr_acts i f s n k h hpred⟩

end Sys2Proof.Machine
end

section
/-! PROOFS. The fields of a bundle, whichever the operation: each acts on its own core alone (R246). -/

namespace Sys2Proof.Machine

/-! ### What issuing an operation leaves alone -/

theorem onlyCore_issueScalar (s : State) (i : Issue) (bad : Bool) (addrBad : Core → Nat → Bool) {eff : State → Core → Nat → Bool → State}
    (heff : ∀ s1 k n en, onlyCore i.core.val s1 (eff s1 k n en)) : onlyCore i.core.val s (issueScalar s i bad addrBad eff) := by
  unfold issueScalar
  dsimp only
  split
  · exact onlyCore_refl _ _
  · split
    · exact onlyCore_reach_setCore _ _ _ _
    · split
      · exact onlyCore_reach_setCore _ _ _ _
      · split
        · exact onlyCore_reach_setCore _ _ _ _
        · exact onlyCore_trans (onlyCore_reach _ _ _) (heff _ _ _ _)

/-- A scalar operation whose effect is one new state of its core. -/
theorem onlyCore_issueScalar_setCore (s : State) (i : Issue) (bad : Bool) (addrBad : Core → Nat → Bool) (g : Core → Nat → Bool → Core) :
    onlyCore i.core.val s (issueScalar s i bad addrBad fun s1 k n en => s1.setCore i.core.val (g k n en)) :=
  onlyCore_issueScalar s i bad addrBad fun _ _ _ _ => onlyCore_setCore _ _ _

theorem onlyCore_issueReg (s : State) (i : Issue) (f : RegForm) (g : Word → Word → Word) : onlyCore i.core.val s (issueReg s i f g) :=
  onlyCore_issueScalar _ _ _ _ fun _ _ _ _ => onlyCore_setCore _ _ _

theorem onlyCore_issueImm (s : State) (i : Issue) (f : ImmForm) (g : Word → Word → Word) : onlyCore i.core.val s (issueImm s i f g) :=
  onlyCore_issueScalar _ _ _ _ fun _ _ _ _ => onlyCore_setCore _ _ _

theorem onlyCore_reach_takeFree_setCore (s : State) (c n m : Nat) (k : Core) : onlyCore c s (((s.reach n).takeFree m).setCore c k) :=
  onlyCore_trans (onlyCore_trans (onlyCore_reach c s n) (onlyCore_takeFree c _ m)) (onlyCore_setCore c _ k)

theorem onlyCore_issueMatrix (s : State) (i : Issue) (kind : MatKind) (f : MatField) : onlyCore i.core.val s (issueMatrix s i kind f) := by
  unfold issueMatrix
  dsimp only
  split
  · exact onlyCore_refl _ _
  · split
    · exact onlyCore_reach_setCore _ _ _ _
    · exact onlyCore_reach_takeFree_setCore _ _ _ _ _

theorem onlyCore_issueVector (s : State) (i : Issue) (judge : Core → Option Word) (unit occ : Nat) (run : VecCtx → Core → Core) :
    onlyCore i.core.val s (issueVector s i judge unit occ run) := by
  unfold issueVector
  dsimp only
  split
  · exact onlyCore_refl _ _
  · split
    · exact onlyCore_reach_setCore _ _ _ _
    · exact onlyCore_reach_takeFree_setCore _ _ _ _ _

theorem onlyCore_issueMove (s : State) (i : Issue) (f : MoveField) (eff : Core → Nat → Bool → Core) :
    onlyCore i.core.val s (issueMove s i f eff) := by
  unfold issueMove
  dsimp only
  split
  · exact onlyCore_refl _ _
  · split <;> exact onlyCore_reach_setCore _ _ _ _

/-! ### The operations whose effect has several branches -/

theorem onlyCore_ld (i : Issue) (f : ImmForm) (s : State) : leads (.ld i f) s (onlyCore i.core.val s) := by
  refine ⟨_, rfl, onlyCore_issueScalar _ _ _ _ fun _ _ _ _ => ?_⟩
  split <;> exact onlyCore_setCore _ _ _

theorem onlyCore_st (i : Issue) (f : ImmForm) (s : State) : leads (.st i f) s (onlyCore i.core.val s) := by
  refine ⟨_, rfl, onlyCore_issueScalar _ _ _ _ fun _ _ _ _ => ?_⟩
  split <;> exact onlyCore_setCore _ _ _

theorem onlyCore_rdr (i : Issue) (f : ImmForm) (s : State) : leads (.rdr i f) s (onlyCore i.core.val s) := by
  refine ⟨_, rfl, onlyCore_issueScalar _ _ _ _ fun _ _ _ _ => ?_⟩
  dsimp only
  split
  · exact onlyCore_trans (onlyCore_takeFree _ _ _) (onlyCore_setCore _ _ _)
  · exact onlyCore_setCore _ _ _

theorem onlyCore_loop (i : Issue) (f : ImmForm) (s : State) : leads (.loop i f) s (onlyCore i.core.val s) := by
  refine ⟨_, rfl, onlyCore_issueScalar _ _ _ _ fun _ _ _ _ => ?_⟩
  dsimp only
  split
  · exact onlyCore_setCore _ _ _
  · split <;> exact onlyCore_setCore _ _ _

theorem onlyCore_mnop (i : Issue) (f : MatField) (s : State) : leads (.mnop i f) s (onlyCore i.core.val s) := by
  have hexec : exec (.mnop i f) s = execMnop i f s := rfl
  rw [leads, hexec, execMnop]
  dsimp only
  split
  · exact ⟨_, rfl, onlyCore_refl _ _⟩
  · split <;> exact ⟨_, rfl, onlyCore_reach_setCore _ _ _ _⟩

theorem onlyCore_vnop (i : Issue) (f : VecField) (s : State) : leads (.vnop i f) s (onlyCore i.core.val s) := by
  have hexec : exec (.vnop i f) s = execVnop i f s := rfl
  rw [leads, hexec, execVnop]
  dsimp only
  split
  · exact ⟨_, rfl, onlyCore_refl _ _⟩
  · split <;> exact ⟨_, rfl, onlyCore_reach_setCore _ _ _ _⟩

/-- Settles O58: an operation of any field issues on its core, and its effect is a new state of that core. -/
theorem fieldsActOnTheirCore : Obligations.FieldsActOnTheirCore := by
  unfold Obligations.FieldsActOnTheirCore
  intro x c s h
  cases x
  case snop | movl | movh | pcmp | jmp | call | jr | wait | done =>
    obtain rfl := Option.some.inj h
    exact ⟨_, rfl, onlyCore_issueScalar_setCore _ _ _ _ _⟩
  case add | sub | and | or | xor | shl | shr | sra | mul | slt | sltu =>
    obtain rfl := Option.some.inj h
    exact ⟨_, rfl, onlyCore_issueReg _ _ _ _⟩
  case addi | andi | ori | xori | shli | shri | srai =>
    obtain rfl := Option.some.inj h
    exact ⟨_, rfl, onlyCore_issueImm _ _ _ _⟩
  case ld i f => obtain rfl := Option.some.inj h; exact onlyCore_ld i f s
  case st i f => obtain rfl := Option.some.inj h; exact onlyCore_st i f s
  case rdr i f => obtain rfl := Option.some.inj h; exact onlyCore_rdr i f s
  case loop i f => obtain rfl := Option.some.inj h; exact onlyCore_loop i f s
  case mnop i f => obtain rfl := Option.some.inj h; exact onlyCore_mnop i f s
  case mmac | mload | mzero | mspill | mfill =>
    obtain rfl := Option.some.inj h
    exact ⟨_, rfl, onlyCore_issueMatrix _ _ _ _⟩
  case vnop i f => obtain rfl := Option.some.inj h; exact onlyCore_vnop i f s
  case vmov | vadd | vsub | vmul | vfma | vmin | vmax | vabs | vneg | vsel | vcmp | vand | vor | vxor | vshl | vshr | vcvt | vtrn
      | vstm | vdiv | vrcp | vsqrt | vrsqrt | vexp | vexp2 | vlog | vlog2 | vtanh | vsigm | vgelu | vsilu | vsin | vcos | vrsum | vrmax
      | vrmin | vcsum | vcmax | vcmin | vcmpr | vexpd | vsmax | vlnorm | vrnorm | vld | vst | vquant =>
    obtain rfl := Option.some.inj h
    exact ⟨_, rfl, onlyCore_issueVector _ _ _ _ _ _⟩
  case xnop | xout | xin | xtok | xstop =>
    obtain rfl := Option.some.inj h
    exact ⟨_, rfl, onlyCore_issueMove _ _ _ _⟩
  all_goals exact nomatch h

end Sys2Proof.Machine
end

section
/-! PROOFS. Vector operations on one tile and on a run of tiles, and the transfers of a tile (R153 to R182): the elementwise operations, the
special and the fused ones, the operations on rows, `vld` and `vst`. -/

namespace Sys2Proof.Machine

/-! ### A vector operation in general -/

section
variable {s : State} {i : Issue} {judge : Core → Option Word} {unit occ : Nat} {run : VecCtx → Core → Core} {n : Nat} {k : Core}

/-- A vector field that issues gives its core one new state and changes nothing else. -/
theorem issueVector_leads (h : fieldIssue s i.core.val Core.usedV = some (n, k)) :
    onlyCore i.core.val s (issueVector s i judge unit occ run) ∧
      (issueVector s i judge unit occ run).core i.core.val = stored (vecIssued s i judge unit occ run n k) := by
  rw [issueVector_of_issue h]
  exact ⟨onlyCore_reach_takeFree_setCore _ _ _ _ _, core_setCore_self _ _ _⟩

/-- A discard for a cause of its own: `flag` is one bit of the status register (R184, R198). -/
theorem vecIssued_discards {flag : Word} {b : Nat} (hb : b < 16) (hflag : flag = BitVec.ofNat 32 (2 ^ b))
    (h : judge { k with usedV := true } = some flag) :
    unitDiscarded rVecStatus b k (stored (vecIssued s i judge unit occ run n k)) := by
  rw [vecIssued_flagged h, hflag]
  exact unitDiscarded_vectorDiscard k b hb

theorem vecIssued_discards_busy (h : judge { k with usedV := true } = none) (hunit : n < mgetD k.unitFree unit 0) :
    unitDiscarded rVecStatus 0 k (stored (vecIssued s i judge unit occ run n k)) := by
  rw [vecIssued_busy h hunit]
  exact unitDiscarded_vectorDiscard k 0 (by decide)

end

/-- The core that an accepted operation runs on: its unit is taken (R183). -/
def unitTaken (k : Core) (unit until_ : Nat) : Core := { k with usedV := true, unitFree := mset k.unitFree unit until_ }

/-- A vector operation acts as R152 and R182 to R186 say once its discards are single flags that do not look at `usedV`, and what it does
when it runs is what is asked. -/
theorem vectorActs_of {x : Instr} {i : Issue} {judge : Core → Option Word} {unit occ : Nat} {run : VecCtx → Core → Core}
    {post : State → Nat → Core → Core → Prop} (hexec : ∀ s, exec x s = .next (issueVector s i judge unit occ run))
    (hjudge : ∀ k flag, judge k = some flag → ∃ b, b < 4 ∧ flag = BitVec.ofNat 32 (2 ^ b))
    (hused : ∀ k, judge { k with usedV := true } = judge k) (hunit : ∀ y c, (run y c).unitFree = c.unitFree)
    (hpost : ∀ s n k, judge k = none → post s n k (stored (run (vecCtxAt s i n k) (unitTaken k unit (n + occ))))) :
    vectorActs x i judge unit occ post := by
  intro s n k h
  obtain ⟨honly, hcore⟩ := issueVector_leads (judge := judge) (unit := unit) (occ := occ) (run := run) h
  refine ⟨_, hexec s, honly, ?_⟩
  rw [hcore]
  refine ⟨fun flag hflag => ?discarded, fun hnone hbusy => ?busy, fun hnone hfree => ?accepted⟩
  case discarded =>
    obtain ⟨b, hb, rfl⟩ := hjudge k flag hflag
    exact ⟨b, hb, rfl, vecIssued_discards (by omega) rfl ((hused k).trans hflag)⟩
  case busy => exact vecIssued_discards_busy ((hused k).trans hnone) hbusy
  case accepted =>
    rw [vecIssued_accepted ((hused k).trans hnone) hfree]
    refine ⟨?_, hpost s n k hnone⟩
    show mgetD (run _ _).unitFree unit 0 = n + occ
    rw [hunit]
    exact mgetD_mset_self _ _ _ _

/-! ### Elementwise operations -/

/-- The result of an elementwise operation (R153, R165, R166, R189, R193). -/
def elementRes (f : VecField) (lat : Nat) (int three two : Bool) (g : Nat → Word → Word → Word → WF) (x : VecCtx) : VecRes :=
  let mask := maskOf x.view f.msk.toNat
  let zeros := List.replicate 256 (⟨0#32, false⟩ : PWord)
  let a := x.src 0 f.sa.toNat
  let b := if two then x.src 1 f.sb.toNat else zeros
  let d := if three then x.src 2 f.dst.toNat else zeros
  let out := (List.range 256).map fun e =>
    if mask.getLsbD e then
      let p := a.getD e ⟨0#32, false⟩; let q := b.getD e ⟨0#32, false⟩; let r := d.getD e ⟨0#32, false⟩
      let o := g e p.val q.val r.val
      (some (⟨o.1, p.bad || q.bad || r.bad⟩ : PWord), o.2)
    else (none, 0#32)
  let elems := out.map Prod.fst
  let st := rowStatus int elems (fun e => mask.getLsbD e)
  let srcs := [f.sa.toNat] ++ (if two then [f.sb.toNat] else []) ++ (if three then [f.dst.toNat] else [])
  { resAt x.t lat with
    tiles := [(f.dst.toNat, elems)]
    status := [(f.dst.toNat, st)]
    tarn := opTarn x.view srcs f.msk.toNat
    guards := [(f.dst.toNat, guardElems int elems st (fun _ => true))]
    flags := out.foldl (fun w p => w ||| p.2) 0#32 }

theorem elementwise_eq_putVec (f : VecField) (lat : Nat) (int three two : Bool) (g : Nat → Word → Word → Word → WF) (x : VecCtx) (c : Core) :
    elementwise f lat int three two g x c = putVec c x.en (elementRes f lat int three two g x) := rfl

theorem getD_zeros {e : Nat} : (List.replicate 256 (⟨0#32, false⟩ : PWord)).getD e ⟨0#32, false⟩ = ⟨0#32, false⟩ := by
  rw [List.getD_eq_getElem?_getD, List.getElem?_replicate]
  split <;> rfl

/-- The elements of the sources that an elementwise operation reads. -/
def elementSrc (s : State) (k : Core) (n : Nat) (used : Bool) (j sel e : Nat) : PWord := if used then vecSrc s k n j sel e else ⟨0#32, false⟩

theorem elementRes_oneTile (s : State) (i : Issue) (n : Nat) (k : Core) (f : VecField) (lat : Nat) (int three two : Bool)
    (g : Nat → Word → Word → Word → WF) :
    oneTile f.dst.toNat (fun e =>
      let p := vecSrc s k n 0 f.sa.toNat e
      let q := elementSrc s k n two 1 f.sb.toNat e
      let r := elementSrc s k n three 2 f.dst.toNat e
      if vecActive k n f.msk.toNat e then some ⟨(g e p.val q.val r.val).1, p.bad || q.bad || r.bad⟩ else none)
      (elementRes f lat int three two g (vecCtxAt s i n k)) := by
  have hsrc (used : Bool) (j sel e : Nat) :
      (if used then (vecCtxAt s i n k).src j sel else List.replicate 256 ⟨0#32, false⟩).getD e ⟨0#32, false⟩ =
        elementSrc s k n used j sel e := by
    cases used with
    | false => exact getD_zeros
    | true => exact src_getD s i n k j sel e
  refine oneTile_of_map (congrArg (fun l => [(f.dst.toNat, l)]) List.map_map) fun e _ => ?_
  simp only [Function.comp_apply, vecCtxAt_view, getLsbD_maskOf_vecView, src_getD, hsrc]
  split <;> rfl

/-- An operation of one source gives what its function of the source gives. -/
theorem unaryGives_of {mk : Issue → VecField → Instr} {mod : BitVec 6} {occ lat : Nat} {g : VecField → Word → Word}
    (int : VecField → Bool) (h : VecField → Word → WF)
    (hexec : ∀ i f s, exec (mk i f) s = .next (issueUnary s i f mod occ lat (int f) (h f))) (hg : ∀ f a, (h f a).1 = g f a) :
    unaryGives mk mod occ lat g := by
  obtain rfl : (fun f a => (h f a).1) = g := funext fun f => funext fun a => hg f a
  intro i f
  refine vectorActs_putVec (res := elementRes f lat (int f) false false fun _ a _ _ => h f a) (hexec i f) (fun _ => rfl) (fun _ => rfl)
    fun s n k => ?_
  have helems := elementRes_oneTile s i n k f lat (int f) false false fun _ a _ _ => h f a
  simpa only [elementSrc, Bool.false_eq_true, if_false, Bool.or_false] using helems

/-- The same for two sources. -/
theorem binaryGives_of {mk : Issue → VecField → Instr} {mod : BitVec 6} {occ lat : Nat} {g : VecField → Word → Word → Word}
    (int : VecField → Bool) (h : VecField → Word → Word → WF)
    (hexec : ∀ i f s, exec (mk i f) s = .next (issueBinary s i f mod occ lat (int f) (h f))) (hg : ∀ f a b, (h f a b).1 = g f a b) :
    binaryGives mk mod occ lat g := by
  obtain rfl : (fun f a b => (h f a b).1) = g := funext fun f => funext fun a => funext fun b => hg f a b
  intro i f
  refine vectorActs_putVec (res := elementRes f lat (int f) false true fun _ a b _ => h f a b) (hexec i f) (fun _ => rfl) (fun _ => rfl)
    fun s n k => ?_
  have helems := elementRes_oneTile s i n k f lat (int f) false true fun _ a b _ => h f a b
  simpa only [elementSrc, Bool.false_eq_true, if_false, if_true, Bool.or_false] using helems

/-- A number clamped to INT32, with or without a flag (R156). -/
theorem satInt32_fst (z : Int) : (satInt32 z).1 = clampI32 z := by
  unfold satInt32 clampI32
  split
  · rw [show max (-2147483648) (min 2147483647 z) = 2147483647 by omega]; rfl
  · split
    · rw [show max (-2147483648) (min 2147483647 z) = -2147483648 by omega]; rfl
    · rw [show max (-2147483648) (min 2147483647 z) = z by omega]

theorem imin_eq_ofInt (a b : Word) : imin a b = BitVec.ofInt 32 (min a.toInt b.toInt) := by
  unfold imin
  split
  · rw [min_eq_left (by assumption), BitVec.ofInt_toInt]
  · rw [min_eq_right (by omega), BitVec.ofInt_toInt]

theorem imax_eq_ofInt (a b : Word) : imax a b = BitVec.ofInt 32 (max a.toInt b.toInt) := by
  unfold imax
  split
  · rw [max_eq_right (by assumption), BitVec.ofInt_toInt]
  · rw [max_eq_left (by omega), BitVec.ofInt_toInt]

/-- An operation with an INT form and an FP32 form without flags. -/
theorem fst_ite_noFlag (p : Bool) (a : WF) (b : Word) : (if p then a else noFlag b).1 = if p then a.1 else b := by
  cases p <;> rfl

theorem vnop_acts (i : Issue) (f : VecField) : fieldActs (.vnop i f) i Core.usedV fun _ _ k k2 =>
    (f = ⟨0, 0, 0, 0, 0⟩ → dataOf k2 = dataOf k) ∧ (f ≠ ⟨0, 0, 0, 0, 0⟩ → unitDiscarded rVecStatus 1 k k2) := by
  intro s n k h
  obtain ⟨hidle, hopen, hidle'⟩ := fieldIssue_some h
  have hexec : exec (.vnop i f) s = .next ((s.reach n).setCore i.core.val
      (if f = ⟨0, 0, 0, 0, 0⟩ then { k with usedV := true } else vectorDiscard { k with usedV := true } vBadOp)) := by
    have hdef : exec (.vnop i f) s = execVnop i f s := rfl
    rw [hdef, execVnop]
    simp only [hidle, hopen, Bool.false_eq_true, if_false]
    rw [if_neg (by simp [hidle'])]
  refine ⟨_, hexec, onlyCore_reach_setCore _ _ _ _, ?_⟩
  rw [core_setCore_self]
  refine ⟨fun hf => ?_, fun hf => ?_⟩
  · rw [if_pos hf]; rfl
  · rw [if_neg hf]; exact unitDiscarded_vectorDiscard k 1 (by decide)

/-- Settles O14: every operation of one tile is issued element by element; the INT forms clamp their exact results. -/
theorem vectorElementsAct : Obligations.VectorElementsAct := by
  unfold Obligations.VectorElementsAct
  refine ⟨vnop_acts, ?mov, ?abs, ?neg, ?add, ?sub, ?mul, ?min, ?max, ?and, ?or, ?xor, ?shl, ?shr⟩
  case mov => exact unaryGives_of vInt (fun _ => noFlag) (fun _ _ _ => rfl) fun _ _ => rfl
  case abs =>
    exact unaryGives_of vInt (fun f a => if vInt f then iabs a else noFlag (fabs a)) (fun _ _ _ => rfl) fun f a => by
      rw [fst_ite_noFlag, iabs, satInt32_fst]
  case neg =>
    exact unaryGives_of vInt (fun f a => if vInt f then ineg a else noFlag (fneg a)) (fun _ _ _ => rfl) fun f a => by
      rw [fst_ite_noFlag, ineg, satInt32_fst]
  case add =>
    exact binaryGives_of vInt (fun f a b => if vInt f then iadd a b else noFlag (fadd a b)) (fun _ _ _ => rfl) fun f a b => by
      rw [fst_ite_noFlag, iadd, satInt32_fst]
  case sub =>
    exact binaryGives_of vInt (fun f a b => if vInt f then isub a b else noFlag (fsub a b)) (fun _ _ _ => rfl) fun f a b => by
      rw [fst_ite_noFlag, isub, satInt32_fst]
  case mul =>
    exact binaryGives_of vInt (fun f a b => if vInt f then imul a b else noFlag (fmul a b)) (fun _ _ _ => rfl) fun f a b => by
      rw [fst_ite_noFlag, imul, satInt32_fst]
  case min =>
    exact binaryGives_of vInt (fun f a b => noFlag (if vInt f then imin a b else fmin a b)) (fun _ _ _ => rfl) fun f a b => by
      rw [← imin_eq_ofInt]; rfl
  case max =>
    exact binaryGives_of vInt (fun f a b => noFlag (if vInt f then imax a b else fmax a b)) (fun _ _ _ => rfl) fun f a b => by
      rw [← imax_eq_ofInt]; rfl
  case and => exact binaryGives_of (fun _ => false) (fun _ a b => noFlag (a &&& b)) (fun _ _ _ => rfl) fun _ _ _ => rfl
  case or => exact binaryGives_of (fun _ => false) (fun _ a b => noFlag (a ||| b)) (fun _ _ _ => rfl) fun _ _ _ => rfl
  case xor => exact binaryGives_of (fun _ => false) (fun _ a b => noFlag (a ^^^ b)) (fun _ _ _ => rfl) fun _ _ _ => rfl
  case shl =>
    exact binaryGives_of (fun _ => false) (fun _ a b => noFlag (a <<< (b.toNat % 32))) (fun _ _ _ => rfl) fun _ _ _ => rfl
  case shr =>
    exact binaryGives_of (fun _ => false) (fun f a b => noFlag (if vBit1 f then a.sshiftRight (b.toNat % 32) else a >>> (b.toNat % 32)))
      (fun _ _ _ => rfl) fun _ _ _ => rfl

/-! ### Special and fused operations -/

/-- An operation of one source in the special class (R157). -/
theorem specialUnary {mk : Issue → VecField → Instr} {lat : Nat} {g : Word → Word}
    (hexec : ∀ i f s, exec (mk i f) s = .next (issueUnary s i f 0#6 4 lat false fun a => noFlag (g a))) :
    unaryGives mk 0#6 4 lat fun _ a => g a :=
  unaryGives_of (fun _ => false) (fun _ a => noFlag (g a)) hexec fun _ _ => rfl

theorem vfma_acts (i : Issue) (f : VecField) :
    vectorActs (.vfma i f) i (fun _ => if vecFieldOk (useBinary 0#6) f then none else some vBadOp) 0 1
      (vecResult i 4 fun s n k r => oneTile f.dst.toNat (fun e =>
        let a := vecSrc s k n 0 f.sa.toNat e
        let b := vecSrc s k n 1 f.sb.toNat e
        let d := vecSrc s k n 2 f.dst.toNat e
        if vecActive k n f.msk.toNat e then some ⟨ffma a.val b.val d.val, a.bad || b.bad || d.bad⟩ else none) r) :=
  vectorActs_putVec (res := elementRes f 4 false true true fun _ a b c => noFlag (ffma a b c)) (fun _ => rfl) (fun _ => rfl) (fun _ => rfl)
    fun s n k => elementRes_oneTile s i n k f 4 false true true fun _ a b c => noFlag (ffma a b c)

theorem vsel_acts (i : Issue) (f : VecField) :
    vectorActs (.vsel i f) i (fun _ => if vecFieldOk (useBinary 1#6) f then none else some vBadOp) 0 1
      (vecResult i 4 fun s n k r => oneTile f.dst.toNat (fun e =>
        some (if vecActive k n f.msk.toNat e then vecSrc s k n 0 f.sa.toNat e else vecSrc s k n 1 f.sb.toNat e)) r) := by
  refine vectorActs_putVec (fun _ => rfl) (fun _ => rfl) (fun _ => rfl) fun s n k => oneTile_of_map rfl fun e he => ?_
  rw [src_getElem? s i n k 0 _ he, src_getElem? s i n k 1 _ he, vecCtxAt_view, getLsbD_maskOf_vecView]
  split <;> rfl

theorem vtrn_acts (i : Issue) (f : VecField) :
    vectorActs (.vtrn i f) i (fun _ => if vecFieldOk ⟨true, false, true, false, false, 1#6⟩ f then none else some vBadOp) 0 1
      (vecResult i 5 fun s n k r => oneTile f.dst.toNat (fun e => some (vecSrc s k n 0 f.sa.toNat (16 * (e % 16) + e / 16))) r) :=
  vectorActs_putVec (fun _ => rfl) (fun _ => rfl) (fun _ => rfl) fun s n k =>
    oneTile_of_map rfl fun e he => src_getElem? s i n k 0 _ (by omega)

/-- The draw counter goes on by the draws of an operation with RND = 1 (R67). -/
theorem cReg_bumpCtr_self (c : Core) (rnd : Bool) (n : Nat) :
    cReg (bumpCtr c rnd n) rSrctr = if rnd then cReg c rSrctr + BitVec.ofNat 32 n else cReg c rSrctr := by
  cases rnd with
  | false => rfl
  | true => exact cReg_cSet_self _ _ _

theorem cReg_bumpCtr_ne (c : Core) (rnd : Bool) (n : Nat) {o : Nat} (h : rnd = false ∨ o ≠ rSrctr) : cReg (bumpCtr c rnd n) o = cReg c o := by
  cases rnd with
  | false => rfl
  | true => exact cReg_cSet_ne _ _ _ _ (h.resolve_left (by decide))

@[simp] theorem bumpCtr_unitFree (c : Core) (rnd : Bool) (n : Nat) : (bumpCtr c rnd n).unitFree = c.unitFree := by cases rnd <;> rfl
@[simp] theorem bumpCtr_vops (c : Core) (rnd : Bool) (n : Nat) : (bumpCtr c rnd n).vops = c.vops := by cases rnd <;> rfl
@[simp] theorem bumpCtr_tiles (c : Core) (rnd : Bool) (n : Nat) : (bumpCtr c rnd n).tiles = c.tiles := by cases rnd <;> rfl
@[simp] theorem bumpCtr_spad (c : Core) (rnd : Bool) (n : Nat) : (bumpCtr c rnd n).spad = c.spad := by cases rnd <;> rfl

@[simp] theorem putVec_regs (c : Core) (en : Bool) (v : VecRes) : (putVec c en v).regs = c.regs := by
  unfold putVec
  split <;> rfl

theorem cReg_putVec (c : Core) (en : Bool) (v : VecRes) (o : Nat) : cReg (putVec c en v) o = cReg c o := by
  unfold cReg
  rw [putVec_regs]

/-- Why a `vcvt` is discarded (R160, R161). -/
def cvtJudge (f : VecField) : Option Word :=
  if !vecFieldOk (useUnary 0x3F#6) f then some vBadOp
  else if 12 ≤ f.mod.toNat % 16 ∧ f.mod.toNat % 16 ≠ 15 ∨ vRnd f = true ∧ (f.mod.toNat % 16 = 0 ∨ f.mod.toNat % 16 = 15) then some vBadFmt
  else none

theorem cvtJudge_eq (f : VecField) : cvtJudge f =
    if !vecFieldOk (useUnary 0x3F#6) f then some vBadOp
    else if (decide (12 ≤ vLow4 f) && vLow4 f != 15) || (vRnd f && (vLow4 f == 0 || vLow4 f == 15)) then some vBadFmt
    else none := by
  simp only [cvtJudge, Bool.or_eq_true, Bool.and_eq_true, decide_eq_true_eq, bne_iff_ne, beq_iff_eq]
  rfl

theorem cvtJudge_some {f : VecField} {flag : Word} (h : cvtJudge f = some flag) : ∃ b, b < 4 ∧ flag = BitVec.ofNat 32 (2 ^ b) := by
  unfold cvtJudge at h
  split at h
  · exact ⟨1, by decide, (Option.some.inj h).symm⟩
  · split at h
    · exact ⟨2, by decide, (Option.some.inj h).symm⟩
    · cases h

theorem vcvt_acts (i : Issue) (f : VecField) : vectorActs (.vcvt i f) i (fun _ => cvtJudge f) 0 1 fun s n k k2 =>
    (vRnd f = true → cReg k2 rSrctr = cReg k rSrctr + 1#32) ∧ (∀ o, vRnd f = false ∨ o ≠ rSrctr → cReg k2 o = cReg k o) ∧
    (enabledAt k i n = true → ∃ r, k2.vops = vecInsert k.vops r ∧ r.due = n + 4 ∧ oneTile f.dst.toNat (fun e =>
      let a := vecSrc s k n 0 f.sa.toNat e
      if vecActive k n f.msk.toNat e then
        some ⟨(cvtElem (vLow4 f) (if vRnd f then .sr (srDraw (cReg k rSeed) (cReg k rSrctr) e) else .rne) (vTop f) a.val).1, a.bad⟩
      else none) r) := by
  refine vectorActs_of (run := fun x c => elementwise f 4 (vLow4 f == 8 || vLow4 f == 9 || vLow4 f == 15) false false
      (fun e a _ _ => cvtElem (vLow4 f) (drawMode c (vRnd f) 0 e) (vTop f) a) x (bumpCtr c (vRnd f) 1))
    (fun s => by rw [funext fun _ : Core => cvtJudge_eq f]; rfl) (fun _ _ h => cvtJudge_some h) (fun _ => rfl) (fun y c => ?unitFree)
    fun s n k _ => ?runs
  case unitFree => rw [elementwise_eq_putVec, putVec_unitFree, bumpCtr_unitFree]
  case runs =>
    have hreg (o : Nat) : cReg (stored (elementwise f 4 (vLow4 f == 8 || vLow4 f == 9 || vLow4 f == 15) false false
        (fun e a _ _ => cvtElem (vLow4 f) (drawMode (unitTaken k 0 (n + 1)) (vRnd f) 0 e) (vTop f) a) (vecCtxAt s i n k)
        (bumpCtr (unitTaken k 0 (n + 1)) (vRnd f) 1))) o = cReg (bumpCtr (unitTaken k 0 (n + 1)) (vRnd f) 1) o :=
      cReg_putVec _ _ _ o
    refine ⟨fun hr => ?counter, fun o ho => ?others, fun hen => ?result⟩
    case counter => rw [hreg, cReg_bumpCtr_self, if_pos hr]; rfl
    case others => rw [hreg, cReg_bumpCtr_ne _ _ _ ho]; rfl
    case result =>
      refine ⟨elementRes f 4 (vLow4 f == 8 || vLow4 f == 9 || vLow4 f == 15) false false
        (fun e a _ _ => cvtElem (vLow4 f) (drawMode (unitTaken k 0 (n + 1)) (vRnd f) 0 e) (vTop f) a) (vecCtxAt s i n k), ?_, rfl, ?_⟩
      · show (putVec _ (enabledAt k i n) _).vops = _
        rw [hen, putVec, if_pos rfl]
        simp only [bumpCtr_vops]
        rfl
      · have helems := elementRes_oneTile s i n k f 4 (vLow4 f == 8 || vLow4 f == 9 || vLow4 f == 15) false false
          fun e a _ _ => cvtElem (vLow4 f) (drawMode (unitTaken k 0 (n + 1)) (vRnd f) 0 e) (vTop f) a
        have hdraw (e : Nat) : drawMode (unitTaken k 0 (n + 1)) (vRnd f) 0 e =
            if vRnd f then .sr (srDraw (cReg k rSeed) (cReg k rSrctr) e) else .rne := by
          unfold drawMode
          split
          · rw [BitVec.add_zero]; rfl
          · rfl
        simpa only [elementSrc, Bool.false_eq_true, if_false, Bool.or_false, hdraw] using helems

/-- Settles O15: the special operations are elementwise with their rounded functions; `vcvt` reads its draws before it advances the
counter. -/
theorem specialAndFusedOperationsAct : Obligations.SpecialAndFusedOperationsAct := by
  unfold Obligations.SpecialAndFusedOperationsAct
  refine ⟨⟨?div, ?rcp, ?sqrt, ?rsqrt, ?exp, ?exp2, ?log, ?log2, ?tanh, ?sigm, ?gelu, ?silu, ?sin, ?cos⟩, vfma_acts, vsel_acts, vtrn_acts,
    vcvt_acts⟩
  case div => exact binaryGives_of (fun _ => false) (fun _ a b => noFlag (fdiv a b)) (fun _ _ _ => rfl) fun _ _ _ => rfl
  all_goals exact specialUnary fun _ _ _ => rfl

end Sys2Proof.Machine
end

section
/-! PROOFS. Operations on runs of tiles and transfers of a tile (R171 to R182): what a run writes, and the bytes that a list of scratchpad
writes leaves behind. -/

namespace Sys2Proof.Machine

/-! ### Lists of writes put into the scratchpad's log -/

/-- What a byte reads as after the writes of a log: the last one that has committed and covers it. -/
def logByte (l : List SpadWrite) (cyc a : Nat) (b : Byte) : Byte :=
  l.foldl (fun v w => if decide (w.commit < cyc) && w.covers a then w.bytes.getD (a - w.addr) 0#8 else v) b

theorem spadByte_eq_logByte (sp : Spad) (cyc a : Nat) : spadByte sp cyc a = logByte sp.log cyc a (cellGet sp.base a) := rfl

/-- A byte that every write covering it sets to the same value reads as that value. -/
theorem logByte_of_agreeing {l : List SpadWrite} {cyc a : Nat} {b v : Byte}
    (hall : ∀ w ∈ l, w.covers a = true → w.commit < cyc ∧ w.bytes.getD (a - w.addr) 0#8 = v)
    (hsome : b = v ∨ ∃ w ∈ l, w.covers a = true) : logByte l cyc a b = v := by
  induction l generalizing b with
  | nil => exact hsome.resolve_right (by simp)
  | cons w t ih =>
    refine ih (fun u hu => hall u (List.mem_cons_of_mem w hu)) ?_
    cases hw : w.covers a with
    | true =>
      obtain ⟨hcommit, hbyte⟩ := hall w List.mem_cons_self hw
      exact .inl (by simpa [hw, hcommit] using hbyte)
    | false =>
      rcases hsome with rfl | ⟨u, hu, hcov⟩
      · exact .inl (by simp [hw])
      · rcases List.mem_cons.mp hu with rfl | hu
        · rw [hw] at hcov; cases hcov
        · exact .inr ⟨u, hu, hcov⟩

theorem mem_spadInsert {l : List SpadWrite} {v w : SpadWrite} : w ∈ spadInsert l v ↔ w ∈ l ∨ w = v := by
  induction l with
  | nil => simp [spadInsert]
  | cons u t ih =>
    simp only [spadInsert]
    split
    · simp only [List.mem_cons, ih, or_assoc]
    · simp only [List.mem_cons]
      tauto

theorem mem_log_spadPushes {sp : Spad} {ws : List SpadWrite} {w : SpadWrite} : w ∈ (spadPushes sp ws).log ↔ w ∈ sp.log ∨ w ∈ ws := by
  induction ws generalizing sp with
  | nil => simp [spadPushes]
  | cons v t ih =>
    rw [show spadPushes sp (v :: t) = spadPushes (spadPush sp v) t from rfl, ih, spadPush, mem_spadInsert, List.mem_cons, or_assoc]

@[simp] theorem base_spadPushes (sp : Spad) (ws : List SpadWrite) : (spadPushes sp ws).base = sp.base := by
  induction ws generalizing sp with
  | nil => rfl
  | cons v t ih => exact ih (spadPush sp v)

/-- A byte that a list of writes sets, and no other write on its way touches, reads as set once they have committed. -/
theorem spadByte_pushes {sp : Spad} {ws : List SpadWrite} {cyc a : Nat} {v : Byte} (hlog : ∀ w ∈ sp.log, w.covers a = false)
    (hall : ∀ w ∈ ws, w.covers a = true → w.commit < cyc ∧ w.bytes.getD (a - w.addr) 0#8 = v) (hsome : ∃ w ∈ ws, w.covers a = true) :
    spadByte (spadPushes sp ws) cyc a = v := by
  refine logByte_of_agreeing (fun w hw hcov => ?_) (.inr ?_)
  · rcases mem_log_spadPushes.mp hw with hw | hw
    · rw [hlog w hw] at hcov; cases hcov
    · exact hall w hw hcov
  · obtain ⟨w, hw, hcov⟩ := hsome
    exact ⟨w, mem_log_spadPushes.mpr (.inr hw), hcov⟩

/-! ### The writes of sixteen rows -/

/-- Which rows a transfer clears of tarnish does not touch the bytes it writes (R190). -/
theorem mem_markClears {ws : List SpadWrite} {w : SpadWrite} (h : w ∈ markClears ws) : ∃ u ∈ ws, w = { u with clears := w.clears } := by
  unfold markClears at h
  split at h
  · exact ⟨w, h, rfl⟩
  · obtain ⟨p, hp, rfl⟩ := List.mem_map.mp h
    exact ⟨p.1, (List.mem_zipIdx' hp).2 ▸ List.getElem_mem _, rfl⟩

theorem exists_mem_markClears {ws : List SpadWrite} {u : SpadWrite} (h : u ∈ ws) : ∃ w ∈ markClears ws, w = { u with clears := w.clears } := by
  unfold markClears
  split
  · exact ⟨u, h, rfl⟩
  · obtain ⟨i, hi, rfl⟩ := List.getElem_of_mem h
    exact ⟨_, List.mem_map.mpr ⟨(ws[i], i), by rw [List.mk_mem_zipIdx_iff_getElem?]; exact List.getElem?_eq_getElem hi, rfl⟩, rfl⟩

/-- A write is a piece of a row: it holds the row's bytes from an offset on, and commits in the cycle of that offset (R182, R210). -/
structure PieceOf (lat first i : Nat) (row : Nat × List Byte × (Nat → Bool)) (w : SpadWrite) : Prop where
  within : row.1 ≤ w.addr ∧ w.addr + w.bytes.length ≤ row.1 + row.2.1.length
  bytes : ∀ j, j < w.bytes.length → w.bytes.getD j 0#8 = row.2.1.getD (w.addr - row.1 + j) 0#8
  commit : w.commit = first + (i * row.2.1.length + (w.addr - row.1)) / 256 + lat - 1

theorem PieceOf.byte {lat first i : Nat} {row : Nat × List Byte × (Nat → Bool)} {w : SpadWrite} (h : PieceOf lat first i row w) {a : Nat}
    (hcov : w.covers a = true) : w.bytes.getD (a - w.addr) 0#8 = row.2.1.getD (a - row.1) 0#8 := by
  simp only [SpadWrite.covers, decide_eq_true_eq] at hcov
  rw [h.bytes _ (by omega)]
  have hwithin := h.within
  congr 1
  omega

/-- The pieces of one row: the whole row, or the two parts on either side of a cycle's 256 bytes. -/
def rowPieces (lat first : Nat) (tarn : Bool) (p : (Nat × List Byte × (Nat → Bool)) × Nat) : List SpadWrite :=
  let a := p.1.1
  let bs := p.1.2.1
  let pos := p.2 * bs.length
  let cut := 256 - pos % 256
  let mk (off : Nat) (part : List Byte) : SpadWrite :=
    { commit := first + (pos + off) / 256 + lat - 1, client := 4, addr := a + off, bytes := part
      bad := (touched 4 (a + off) part.length).filter fun w => p.1.2.2 (4 * w - a)
      tarn, clears := [] }
  if bs.length ≤ cut then [mk 0 bs] else [mk 0 (bs.take cut), mk cut (bs.drop cut)]

theorem rowWrites_eq_flatMap (lat first : Nat) (tarn : Bool) (rows : List (Nat × List Byte × (Nat → Bool))) :
    rowWrites lat first tarn rows = rows.zipIdx.flatMap (rowPieces lat first tarn) := rfl

theorem pieceOf_of_mem {lat first : Nat} {tarn : Bool} {p : (Nat × List Byte × (Nat → Bool)) × Nat} {w : SpadWrite}
    (h : w ∈ rowPieces lat first tarn p) : PieceOf lat first p.2 p.1 w := by
  unfold rowPieces at h
  dsimp only at h
  split at h
  case isTrue =>
    obtain rfl := List.mem_singleton.mp h
    exact ⟨by simp, fun j _ => by simp, by simp⟩
  case isFalse hcut =>
    simp only [List.mem_cons, List.not_mem_nil, or_false] at h
    rcases h with rfl | rfl
    · refine ⟨⟨by simp, by simp⟩, fun j hj => ?_, by simp⟩
      rw [List.length_take] at hj
      simp only [List.getD_eq_getElem?_getD, List.getElem?_take, Nat.add_zero, Nat.sub_self, Nat.zero_add]
      rw [if_pos (by omega)]
    · refine ⟨⟨by simp, by simp only [List.length_drop]; omega⟩, fun j _ => ?_, by simp⟩
      simp only [List.getD_eq_getElem?_getD, List.getElem?_drop, Nat.add_sub_cancel_left]

theorem exists_covering_piece {lat first : Nat} {tarn : Bool} {p : (Nat × List Byte × (Nat → Bool)) × Nat} {b : Nat}
    (hb : b < p.1.2.1.length) : ∃ w ∈ rowPieces lat first tarn p, w.covers (p.1.1 + b) = true := by
  unfold rowPieces
  dsimp only
  split
  case isTrue => exact ⟨_, List.mem_singleton.mpr rfl, by simp [SpadWrite.covers, hb]⟩
  case isFalse hcut =>
    by_cases hlow : b < 256 - p.2 * p.1.2.1.length % 256
    · exact ⟨_, List.mem_cons_self, by simp [SpadWrite.covers, hlow, hb]⟩
    · refine ⟨_, List.mem_cons_of_mem _ (List.mem_singleton.mpr rfl), ?_⟩
      simp only [SpadWrite.covers, List.length_drop, decide_eq_true_eq]
      omega

section
variable {lat first base stride rb : Nat} {tarn : Bool} {bytes : Nat → List Byte} {badAt : Nat → Nat → Bool}

/-- The writes of sixteen rows. -/
def sixteenRows (base stride : Nat) (bytes : Nat → List Byte) (badAt : Nat → Nat → Bool) : List (Nat × List Byte × (Nat → Bool)) :=
  (List.range 16).map fun i => (base + i * stride, bytes i, badAt i)

theorem mem_zipIdx_sixteenRows {p : (Nat × List Byte × (Nat → Bool)) × Nat} (h : p ∈ (sixteenRows base stride bytes badAt).zipIdx) :
    p.2 < 16 ∧ p.1 = (base + p.2 * stride, bytes p.2, badAt p.2) := by
  obtain ⟨hlt, heq⟩ := List.mem_zipIdx' h
  have hlen : p.2 < 16 := by simpa [sixteenRows] using hlt
  exact ⟨hlen, by rw [heq]; simp [sixteenRows]⟩

theorem sixteenRows_mem_zipIdx {i : Nat} (hi : i < 16) :
    ((base + i * stride, bytes i, badAt i), i) ∈ (sixteenRows base stride bytes badAt).zipIdx := by
  rw [List.mk_mem_zipIdx_iff_getElem?]
  simp [sixteenRows, hi]

/-- Sixteen rows of `rb` bytes that do not overlap read as written once their cycles and the latency have passed (R177, R210). -/
theorem spadByte_rowWrites {sp : Spad} {i b cyc : Nat} (hlen : ∀ i, (bytes i).length = rb) (hstride : rb ≤ stride) (hi : i < 16)
    (hb : b < rb) (hcyc : first + (16 * rb - 1) / 256 + lat ≤ cyc) (hfirst : 0 < first)
    (hlog : ∀ w ∈ sp.log, w.covers (base + i * stride + b) = false) :
    spadByte (spadPushes sp (markClears (rowWrites lat first tarn (sixteenRows base stride bytes badAt)))) cyc (base + i * stride + b) =
      (bytes i).getD b 0#8 := by
  refine spadByte_pushes hlog (fun w hw hcov => ?only) ?some
  case some =>
    obtain ⟨u, hu, hcov⟩ := exists_covering_piece (lat := lat) (first := first) (tarn := tarn)
      (p := ((base + i * stride, bytes i, badAt i), i)) (b := b) (by rw [hlen]; exact hb)
    obtain ⟨w, hw, heq⟩ := exists_mem_markClears
      (show u ∈ rowWrites lat first tarn (sixteenRows base stride bytes badAt) from
        List.mem_flatMap.mpr ⟨_, sixteenRows_mem_zipIdx hi, hu⟩)
    exact ⟨w, hw, by rw [heq]; exact hcov⟩
  case only =>
    obtain ⟨u, hu, heq⟩ := mem_markClears hw
    obtain ⟨p, hp, hpiece⟩ := List.mem_flatMap.mp (rowWrites_eq_flatMap lat first tarn _ ▸ hu)
    obtain ⟨hp16, hrow⟩ := mem_zipIdx_sixteenRows hp
    have hu := pieceOf_of_mem hpiece
    have hcovu : u.covers (base + i * stride + b) = true := by rw [heq] at hcov; exact hcov
    obtain ⟨hlo, hhi⟩ := hu.within
    have hspan := hcovu
    simp only [SpadWrite.covers, decide_eq_true_eq] at hspan
    rw [hrow] at hlo hhi
    rw [hlen] at hhi
    have hsame : p.2 = i := by
      rcases Nat.lt_trichotomy p.2 i with hlt | heq' | hgt
      · have := Nat.mul_le_mul_right stride (show p.2 + 1 ≤ i from hlt)
        rw [Nat.add_mul] at this
        omega
      · exact heq'
      · have := Nat.mul_le_mul_right stride (show i + 1 ≤ p.2 from hgt)
        rw [Nat.add_mul] at this
        omega
    have hbyte := hu.byte hcovu
    have hcommit := hu.commit
    rw [hrow, hsame] at hbyte hcommit
    rw [hlen] at hcommit
    rw [hsame] at hlo hhi
    rw [heq]
    refine ⟨?_, ?_⟩
    · show u.commit < cyc
      have hrows := Nat.mul_le_mul_right rb (show i ≤ 15 by omega)
      have hdiv : (i * rb + (u.addr - (base + i * stride))) / 256 ≤ (16 * rb - 1) / 256 := Nat.div_le_div_right (by omega)
      omega
    · show u.bytes.getD (base + i * stride + b - u.addr) 0#8 = _
      rw [hbyte]
      congr 1
      omega

end

/-! ### Runs of tiles -/

/-- The active elements of row r of a run of tiles, in order (R165). -/
def runRow (s : State) (n : Nat) (k : Core) (f : VecField) (r : Nat) : List (Option PWord) :=
  (List.range (vRun f)).flatMap fun q => (List.range 16).map fun j =>
    if vecActive k n f.msk.toNat (16 * r + j) then some (vecSrc s k n q (f.sa.toNat + q) (16 * r + j)) else none

theorem tileRow_src (s : State) (i : Issue) (n : Nat) (k : Core) (j sel m : Nat) {r : Nat} (hr : r < 16) :
    tileRow ((vecCtxAt s i n k).src j sel) (maskOf (vecView k n) m) r = (List.range 16).map fun e =>
      if vecActive k n m (16 * r + e) then some (vecSrc s k n j sel (16 * r + e)) else none := by
  refine List.map_congr_left fun e he => ?_
  rw [getLsbD_maskOf_vecView, src_getElem? s i n k j sel (by have := List.mem_range.mp he; omega)]

theorem flatMap_tileRow_src (s : State) (i : Issue) (n : Nat) (k : Core) (f : VecField) {r : Nat} (hr : r < 16) :
    ((List.range (vRun f)).map fun q => (vecCtxAt s i n k).src q (f.sa.toNat + q)).flatMap
      (fun tl => tileRow tl (maskOf (vecView k n) f.msk.toNat) r) = runRow s n k f r := by
  rw [List.flatMap_map]
  unfold runRow
  congr 1
  funext q
  exact tileRow_src s i n k q _ _ hr

/-- The result of a row operation over a run (R171 to R175). -/
def rowsRes (f : VecField) (lat : Nat) (stats : Bool) (eps : List Nat) (row : Nat → List (Option PWord) → RowOut) (x : VecCtx) : VecRes :=
  let n := vRun f
  let mask := maskOf x.view f.msk.toNat
  let tiles := (List.range n).map fun q => x.src q (f.sa.toNat + q)
  let outs := (List.range 16).map fun r => row n (tiles.flatMap fun tl => tileRow tl mask r)
  let st := outs.map fun o => o.status
  let dst := f.dst.toNat
  let outTiles := (List.range n).map fun q =>
    (dst + q, (List.range 256).map fun e => ((outs.getD (e / 16) ⟨[], 0#32, 0#32, 0⟩).ys)[16 * q + e % 16]?)
  let statTile : List (Option PWord) := (List.range 256).map fun e =>
    let o := outs.getD (e / 16) ⟨[], 0#32, 0#32, 0⟩
    let bad := o.ys.any fun p => p.bad
    some (if e % 16 = 0 then ⟨o.m, bad⟩ else if e % 16 = 1 then ⟨o.s, bad⟩ else ⟨0#32, false⟩)
  let all := outTiles ++ (if stats then [(dst + n, statTile)] else [])
  { resAt x.t lat with
    tiles := all
    status := all.map fun p => (p.1, st)
    tarn := opTarn x.view (((List.range n).map fun q => f.sa.toNat + q) ++ eps) f.msk.toNat
    guards := all.map fun p => (p.1, guardElems false p.2 st (fun e => if p.1 < dst + n then mask.getLsbD e else true)) }

theorem runRows_eq_putVec (f : VecField) (lat : Nat) (stats : Bool) (eps : List Nat) (row : Nat → List (Option PWord) → RowOut) (x : VecCtx)
    (c : Core) : runRows f lat stats eps row x c = putVec c x.en (rowsRes f lat stats eps row x) := rfl

/-- The tiles of a row operation: the run's, and one more for the statistics. -/
theorem rowsRes_tiles (s : State) (i : Issue) (n : Nat) (k : Core) (f : VecField) (lat : Nat) (stats : Bool) (eps : List Nat)
    (row : Nat → List (Option PWord) → RowOut) :
    (rowsRes f lat stats eps row (vecCtxAt s i n k)).tiles.length = vRun f + (if stats then 1 else 0) ∧
      ∀ q, q < vRun f → ∃ el, (rowsRes f lat stats eps row (vecCtxAt s i n k)).tiles[q]? = some (f.dst.toNat + q, el) ∧
        ∀ e, e < 256 → el.getD e none = (row (vRun f) (runRow s n k f (e / 16))).ys[16 * q + e % 16]? := by
  unfold rowsRes
  dsimp only
  refine ⟨?_, fun q hq => ?_⟩
  · cases stats <;> simp
  · rw [List.getElem?_append_left (by simpa using hq), List.getElem?_map, List.getElem?_range hq]
    refine ⟨_, rfl, fun e he => ?_⟩
    have hrow : e / 16 < 16 := by omega
    simp only [List.getD_eq_getElem?_getD, List.getElem?_map, List.getElem?_range he, Option.map_some, Option.getD_some,
      List.getElem?_range hrow, vecCtxAt_view, flatMap_tileRow_src s i n k f hrow]

/-- A row operation over a run acts as asked; its rows may look at the registers of the core that runs it. -/
theorem runRows_acts {x : Instr} {i : Issue} {f : VecField} {ok : Bool} {per lat : Nat} {stats : Bool} {eps : List Nat}
    {row : Core → Nat → List (Option PWord) → RowOut} (hrow : ∀ k unit u, row (unitTaken k unit u) = row k)
    (hexec : ∀ s, exec x s = .next (issueVector s i (judgeOp ok) 0 (per * vRun f) fun y c =>
      runRows f (per * vRun f + lat) stats eps (row c) y c)) :
    vectorActs x i (judgeOp ok) 0 (per * vRun f) (vecResult i (per * vRun f + lat) fun s n k r =>
      r.tiles.length = vRun f + (if stats then 1 else 0) ∧ ∀ q, q < vRun f → ∃ el, r.tiles[q]? = some (f.dst.toNat + q, el) ∧
        ∀ e, e < 256 → el.getD e none = (row k (vRun f) (runRow s n k f (e / 16))).ys[16 * q + e % 16]?) := by
  refine vectorActs_of hexec (fun _ _ h => ⟨1, by decide, judgeOp_some h⟩) (fun _ => rfl)
    (fun y c => (congrArg Core.unitFree (runRows_eq_putVec f _ stats eps (row c) y c)).trans (putVec_unitFree _ _ _)) fun s n k _ => ?_
  rw [runRows_eq_putVec, hrow]
  exact vecResult_putVec _ rfl rfl (rowsRes_tiles s i n k f _ stats eps (row k))

/-- A run and its statistics fit in the tile registers (R172). -/
theorem statsRun_fits (d n : Nat) (stats : Bool) :
    (decide (d + n ≤ 32) && (!stats || decide (d + n ≤ 31))) = decide (d + n + (if stats then 1 else 0) ≤ 32) := by
  cases stats with
  | false => simp
  | true =>
    rw [Bool.eq_iff_iff]
    simp only [Bool.not_true, Bool.false_or, Bool.and_eq_true, decide_eq_true_eq, if_true]
    omega

/-! ### `vld` and `vst` -/

theorem of_ite_none {α : Type} {p : Prop} [Decidable p] {a : α} (h : (if p then none else some a) = none) : p := by
  by_contra hp
  rw [if_neg hp] at h
  cases h

theorem eq_of_ite_some {α : Type} {p : Prop} [Decidable p] {a b : α} (h : (if p then none else some a) = some b) : a = b := by
  split at h
  · cases h
  · exact Option.some.inj h

theorem vecDescOk_stride {d : VecDesc} {g : Fmt} {rb align scales : Nat} (h : vecDescOk d g rb align scales = true) : rb ≤ d.rstride := by
  simp only [vecDescOk, Bool.and_eq_true, decide_eq_true_eq] at h
  exact h.1.1.1.2

/-- What an accepted transfer of a tile knows of its descriptor: a format with a row, and rows that do not overlap (R178). -/
theorem judgeTile_none {f : VecField} {u : VecUse} {k : Core} (h : judgeTile f u k = none) :
    descFmt (vecDesc k (vLow4 f)) ≠ .t5 ∧ tileRowBytes (descFmt (vecDesc k (vLow4 f))) ≤ (vecDesc k (vLow4 f)).rstride := by
  unfold judgeTile at h
  split at h
  · cases h
  · dsimp only at h
    unfold descFmt
    cases hfmt : fmtOfCode (vecDesc k (vLow4 f)).fmt with
    | none => rw [hfmt] at h; cases h
    | some g =>
      rw [hfmt] at h
      rw [Option.getD_some]
      cases g with
      | t5 => cases h
      | _ =>
        exact ⟨by decide, vecDescOk_stride (of_ite_none h)⟩

theorem judgeTile_some {f : VecField} {u : VecUse} {k : Core} {flag : Word} (h : judgeTile f u k = some flag) :
    ∃ b, b < 4 ∧ flag = BitVec.ofNat 32 (2 ^ b) := by
  unfold judgeTile at h
  split at h
  · exact ⟨1, by decide, (Option.some.inj h).symm⟩
  · dsimp only at h
    split at h
    · exact ⟨2, by decide, (Option.some.inj h).symm⟩
    · exact ⟨2, by decide, (Option.some.inj h).symm⟩
    · exact ⟨3, by decide, (eq_of_ite_some h).symm⟩

/-- `vld` puts a load on its way (R176, R182). -/
theorem vld_acts (i : Issue) (f : VecField) (s : State) (n : Nat) (k : Core) (h : fieldIssue s i.core.val Core.usedV = some (n, k))
    (hdesc : vecDesc (s.core i.core.val) (vLow4 f) = vecDesc k (vLow4 f)) :
    let d := vecDesc k (vLow4 f)
    let occ := tileCycles (descFmt d) + (if d.scaled then 1 else 0)
    ∃ t, exec (.vld i f) s = .next t ∧ onlyCore i.core.val s t ∧
      (∀ flag, judgeTile f useVld k = some flag → ∃ b, b < 4 ∧ flag = BitVec.ofNat 32 (2 ^ b) ∧ unitDiscarded rVecStatus b k (t.core i.core.val)) ∧
      (judgeTile f useVld k = none → mgetD k.unitFree 1 0 ≤ n →
        dataOf { t.core i.core.val with vloads := k.vloads, unitFree := k.unitFree } = dataOf k ∧
        mgetD (t.core i.core.val).unitFree 1 0 = n + occ ∧
        ∃ v, (t.core i.core.val).vloads = k.vloads ++ [v] ∧ v.tile = f.dst.toNat ∧ v.issue = n ∧ v.due = n + occ + latency k + 1 ∧
          v.enabled = enabledAt k i n ∧ v.base = d.base ∧ v.fmt = d.fmt ∧ v.rstride = d.rstride) := by
  intro d occ
  obtain ⟨honly, hcore⟩ := issueVector_leads (judge := judgeTile f useVld) (unit := 1) (occ := occ) (run := fun x c =>
    { c with vloads := c.vloads ++ [{ issue := x.t, due := x.t + occ + latency c + 1, enabled := x.en, tile := f.dst.toNat
                                      base := d.base, fmt := d.fmt, scaled := d.scaled, rstride := d.rstride, sbase := d.sbase
                                      sstride := d.sstride }] }) h
  refine ⟨_, ?exec, honly, ?_⟩
  case exec =>
    have hdef : exec (.vld i f) s = execVld i f s := rfl
    rw [hdef, execVld, hdesc]
  rw [hcore]
  refine ⟨fun flag hflag => ?discarded, fun hnone hfree => ?accepted⟩
  case discarded =>
    obtain ⟨b, hb, rfl⟩ := judgeTile_some hflag
    exact ⟨b, hb, rfl, vecIssued_discards (by omega) rfl hflag⟩
  case accepted =>
    rw [vecIssued_accepted (judge := judgeTile f useVld) hnone hfree]
    exact ⟨rfl, mgetD_mset_self _ _ _ _, _, rfl, rfl, rfl, rfl, rfl, rfl, rfl, rfl⟩

/-- The bytes of row r that a store of a tile writes (R177). -/
def storedRow (s : State) (n : Nat) (k : Core) (f : VecField) (r : Nat) : List Byte :=
  packCodes (descFmt (vecDesc k (vLow4 f))) ((List.range 16).map fun j =>
    (storeElem k f (vecDesc k (vLow4 f)) (descFmt (vecDesc k (vLow4 f))) (16 * r + j) (vecSrc s k n 0 f.sa.toNat (16 * r + j)).val).1)

theorem length_packCodes {g : Fmt} (hg : g ≠ .t5) {codes : List Nat} (h : codes.length = 16) :
    (packCodes g codes).length = tileRowBytes g := by
  have hflat (m : Nat) : (codes.flatMap fun c => bytesOfNat m c).length = 16 * m := by
    simp only [List.length_flatMap, bytesOfNat, List.length_map, List.length_range, List.map_const', List.sum_replicate, h, smul_eq_mul]
  cases g with
  | t5 => exact absurd rfl hg
  | f6e3 | f6e2 => simp [packCodes, tileRowBytes, packBytes, fmtBits, bytesOfNat, List.length_flatMap, h]
  | f4e2 | i4 | l4 => simp [packCodes, tileRowBytes, packBytes, fmtBits, h]
  | fp32 | fp16 | bf16 | f8e4 | f8e5 | i8 => exact hflat _

theorem length_storedRow (s : State) (n : Nat) (k : Core) (f : VecField) (hg : descFmt (vecDesc k (vLow4 f)) ≠ .t5) (r : Nat) :
    (storedRow s n k f r).length = tileRowBytes (descFmt (vecDesc k (vLow4 f))) :=
  length_packCodes hg (by simp)

theorem rowOf_map_range {α : Type} (g : Nat → α) {r : Nat} (hr : r < 16) :
    rowOf ((List.range 256).map g) r = (List.range 16).map fun j => g (16 * r + j) := by
  refine List.ext_getElem (by simp [rowOf]; omega) fun j hj _ => ?_
  simp [rowOf]

theorem tileRowBytes_pos (g : Fmt) : 0 < tileRowBytes g := by cases g <;> decide

/-- The writes of an accepted, enabled `vst`, row by row (R177, R182, R190). -/
theorem runStore_enabled (s : State) (i : Issue) (n : Nat) (k : Core) (f : VecField) (hen : enabledAt k i n = true) (u : Nat) :
    ∃ tarn badAt, (runStore f (vecCtxAt s i n k) (unitTaken k 2 u)).spad = spadPushes k.spad
      (markClears (rowWrites (latency k) (n + 2) tarn
        (sixteenRows (vecDesc k (vLow4 f)).base (vecDesc k (vLow4 f)).rstride (storedRow s n k f) badAt))) := by
  have hen' : (vecCtxAt s i n k).en = true := hen
  refine ⟨opTarn (vecView k n) [f.sa.toNat] 0, fun r b => ((List.range 4).flatMap fun q => elemsOfByte (descFmt (vecDesc k (vLow4 f))) (b + q)).any fun e =>
    (((vecCtxAt s i n k).src 0 f.sa.toNat).getD (16 * r + e % 16) ⟨0#32, false⟩).bad, ?_⟩
  unfold runStore
  simp only [hen', if_true, bumpCtr_spad]
  have hrows : (List.range 16).map (fun r => ((vecDesc (unitTaken k 2 u) (vLow4 f)).base + r * (vecDesc (unitTaken k 2 u) (vLow4 f)).rstride,
        packCodes (descFmt (vecDesc (unitTaken k 2 u) (vLow4 f))) ((rowOf ((List.range 256).map fun e =>
          storeElem (unitTaken k 2 u) f (vecDesc (unitTaken k 2 u) (vLow4 f)) (descFmt (vecDesc (unitTaken k 2 u) (vLow4 f))) e
            (((vecCtxAt s i n k).src 0 f.sa.toNat).getD e ⟨0#32, false⟩).val) r).map Prod.fst),
        fun b => ((List.range 4).flatMap fun q => elemsOfByte (descFmt (vecDesc (unitTaken k 2 u) (vLow4 f))) (b + q)).any fun e =>
          (((vecCtxAt s i n k).src 0 f.sa.toNat).getD (16 * r + e % 16) ⟨0#32, false⟩).bad)) =
      sixteenRows (vecDesc k (vLow4 f)).base (vecDesc k (vLow4 f)).rstride (storedRow s n k f) (fun r b =>
        ((List.range 4).flatMap fun q => elemsOfByte (descFmt (vecDesc k (vLow4 f))) (b + q)).any fun e =>
          (((vecCtxAt s i n k).src 0 f.sa.toNat).getD (16 * r + e % 16) ⟨0#32, false⟩).bad) := by
    refine List.map_congr_left fun r hr => ?_
    rw [rowOf_map_range _ (List.mem_range.mp hr), List.map_map]
    rfl
  rw [hrows]
  rfl

theorem runStore_disabled (s : State) (i : Issue) (n : Nat) (k : Core) (f : VecField) (hen : enabledAt k i n = false) (c : Core) :
    runStore f (vecCtxAt s i n k) c = bumpCtr c (vRnd f) 1 := by
  have hen' : (vecCtxAt s i n k).en = false := hen
  unfold runStore
  simp only [hen', Bool.false_eq_true, if_false]

/-- Apart from the scratchpad and the flags on their way a `vst` changes the draw counter alone. -/
theorem runStore_frame (f : VecField) (x : VecCtx) (c : Core) : (runStore f x c).unitFree = c.unitFree ∧ (runStore f x c).tiles = c.tiles ∧
    (runStore f x c).regs = (bumpCtr c (vRnd f) 1).regs := by
  unfold runStore
  dsimp only
  split <;> exact ⟨bumpCtr_unitFree _ _ _, bumpCtr_tiles _ _ _, rfl⟩

/-- `vst` puts the encoded rows of its tile in the scratchpad (R177, R182). -/
theorem vst_acts (i : Issue) (f : VecField) (s : State) (n : Nat) (k : Core) (h : fieldIssue s i.core.val Core.usedV = some (n, k))
    (hdesc : vecDesc (s.core i.core.val) (vLow4 f) = vecDesc k (vLow4 f)) :
    let d := vecDesc k (vLow4 f)
    let g := descFmt d
    ∃ t, exec (.vst i f) s = .next t ∧ onlyCore i.core.val s t ∧
      (∀ flag, judgeTile f useVst k = some flag → ∃ b, b < 4 ∧ flag = BitVec.ofNat 32 (2 ^ b) ∧ unitDiscarded rVecStatus b k (t.core i.core.val)) ∧
      (judgeTile f useVst k = none → mgetD k.unitFree 2 0 ≤ n →
        (t.core i.core.val).tiles = k.tiles ∧ (vRnd f = true → cReg (t.core i.core.val) rSrctr = cReg k rSrctr + 1#32) ∧
        rowsStored (enabledAt k i n) (n + 1 + tileCycles g + latency k) d.base d.rstride (tileRowBytes g) (fun r b =>
          (storedRow s n k f r).getD b 0#8) k (t.core i.core.val)) := by
  intro d g
  obtain ⟨honly, hcore⟩ := issueVector_leads (judge := judgeTile f useVst) (unit := 2) (occ := tileCycles g + 1) (run := runStore f) h
  refine ⟨_, ?exec, honly, ?_⟩
  case exec =>
    have hdef : exec (.vst i f) s = execVst i f s := rfl
    rw [hdef, execVst, hdesc]
  rw [hcore]
  refine ⟨fun flag hflag => ?discarded, fun hnone hfree => ?accepted⟩
  case discarded =>
    obtain ⟨b, hb, rfl⟩ := judgeTile_some hflag
    exact ⟨b, hb, rfl, vecIssued_discards (by omega) rfl hflag⟩
  case accepted =>
    obtain ⟨hfmt, hstride⟩ := judgeTile_none hnone
    rw [vecIssued_accepted (judge := judgeTile f useVst) hnone hfree]
    obtain ⟨-, htiles, hregs⟩ := runStore_frame f (vecCtxAt s i n k) (unitTaken k 2 (n + (tileCycles g + 1)))
    refine ⟨htiles, fun hr => ?counter, fun hen => ?off, fun hen hlog r b cyc hr hb hcyc => ?on⟩
    case counter =>
      refine (congrArg (fun m => mgetD m rSrctr _) hregs).trans ((cReg_bumpCtr_self (unitTaken k 2 _) (vRnd f) 1).trans ?_)
      rw [if_pos hr]
      rfl
    case off =>
      refine (congrArg Core.spad (runStore_disabled s i n k f hen (unitTaken k 2 (n + (tileCycles g + 1))))).trans ?_
      exact bumpCtr_spad _ _ _
    case on =>
      obtain ⟨tarn, badAt, hspad⟩ := runStore_enabled s i n k f hen (n + (tileCycles g + 1))
      refine (congrArg (spadByte · cyc _) hspad).trans ?_
      have hpos := tileRowBytes_pos g
      refine spadByte_rowWrites (length_storedRow s n k f hfmt) hstride hr hb ?_ (by omega) fun w hw => hlog w hw r b hr hb
      have hcycles : (16 * tileRowBytes g - 1) / 256 + 1 ≤ tileCycles g := by
        unfold tileCycles
        omega
      show n + 2 + (16 * tileRowBytes g - 1) / 256 + latency k ≤ cyc
      omega

/-- Settles O18: a run's rows are worked out one by one; a store is the list of its rows' writes, a load an item on its way. -/
theorem rowsAndTileTransfersAct : Obligations.RowsAndTileTransfersAct := by
  unfold Obligations.RowsAndTileTransfersAct
  refine ⟨⟨fun i f => ?smax, fun i f => ?lnorm, fun i f => ?rnorm⟩, vld_acts, vst_acts⟩
  case smax =>
    have hacts := runRows_acts (x := .vsmax i f) (i := i) (per := 6) (lat := 16) (row := fun _ => smaxRow) (fun _ _ _ => rfl) fun _ => rfl
    rw [Bool.and_assoc, statsRun_fits] at hacts
    exact hacts
  case lnorm =>
    exact runRows_acts (row := fun c n l => normRow true n (cReg c (0x1200 + 4 * (f.sb.toNat - 40))) l) (fun _ _ _ => rfl) fun _ => rfl
  case rnorm =>
    exact runRows_acts (row := fun c n l => normRow false n (cReg c (0x1200 + 4 * (f.sb.toNat - 40))) l) (fun _ _ _ => rfl) fun _ => rfl

end Sys2Proof.Machine
end

section
/-! PROOFS. The fabric: the move field, arrivals at a router's inputs, slot-table entries (R258 to R278). -/

namespace Sys2Proof.Machine

/-! ### Keys erased from a map -/

section
variable {α : Type}

theorem mkeysRising_tail {e : Nat × α} {m : Map α} (h : mkeysRising (e :: m) = true) : mkeysRising m = true := by
  cases m with
  | nil => rfl
  | cons f t => simp only [mkeysRising, Bool.and_eq_true] at h; exact h.2

/-- A key below the first of a map in order is not in it. -/
theorem mget_of_lt_head {e : Nat × α} {m : Map α} {k : Nat} (h : mkeysRising (e :: m) = true) (hk : k ≤ e.1) : mget? m k = none := by
  cases m with
  | nil => rfl
  | cons f t =>
    simp only [mkeysRising, Bool.and_eq_true, decide_eq_true_eq] at h
    rw [mget?, if_neg (by omega), if_pos (by omega)]

theorem mget_merase_self (m : Map α) (k : Nat) (h : mkeysRising m = true) : mget? (merase m k) k = none := by
  induction m with
  | nil => rfl
  | cons e t ih =>
    rw [merase]
    split
    case isTrue heq => exact mget_of_lt_head h (by omega)
    case isFalse hne =>
      split
      case isTrue hlt => rw [mget?, if_neg hne, if_pos hlt]
      case isFalse hge => rw [mget?, if_neg hne, if_neg hge]; exact ih (mkeysRising_tail h)

end

/-! ### Counting and flagging -/

theorem satTo_eq_min (m v : Nat) : satTo m v = min m v := by
  unfold satTo
  split <;> omega

/-- A field that is counted up goes up by n, to its limit (R20). -/
theorem fld_cCount_self (c : Core) (off hi lo n : Nat) (hhi : hi < 32) :
    fld (cReg (cCount c off hi lo n) off) hi lo = min (2 ^ (hi + 1 - lo) - 1) (fld (cReg c off) hi lo + n) := by
  have hpos := Nat.two_pow_pos (hi + 1 - lo)
  rw [cReg_cCount_self, fld_setFld_self _ _ _ _ hhi, satTo_eq_min]
  exact Nat.mod_eq_of_lt (by omega)

theorem bit_cFlag_self (c : Core) (off b : Nat) (hb : b < 32) : bit (cReg (cFlag c off (BitVec.ofNat 32 (2 ^ b))) off) b = true := by
  rw [cReg_cFlag_self, bit_or, bit_two_pow b b hb]
  simp

theorem bit_cFlag_ne (c : Core) (off b : Nat) (hb : b < 32) {j : Nat} (hj : j ≠ b) :
    bit (cReg (cFlag c off (BitVec.ofNat 32 (2 ^ b))) off) j = bit (cReg c off) j := by
  rw [cReg_cFlag_self, bit_or, bit_two_pow b j hb]
  simp [hj]

/-! ### The move field -/

section
variable {s : State} {i : Issue} {f : MoveField} {n : Nat} {k : Core}

/-- The core after a move field has issued in cycle n on core k (R271). -/
def moveIssued (i : Issue) (f : MoveField) (eff : Core → Nat → Bool → Core) (n : Nat) (k : Core) : Core :=
  if f.rsv ≠ 0#12 then moveDiscard { k with usedX := true } fBadOp else eff { k with usedX := true } n (enabledAt k i n)

theorem issueMove_of_issue (h : fieldIssue s i.core.val Core.usedX = some (n, k)) (eff : Core → Nat → Bool → Core) :
    issueMove s i f eff = (s.reach n).setCore i.core.val (moveIssued i f eff n k) := by
  obtain ⟨hidle, hopen, hidle'⟩ := fieldIssue_some h
  simp only [issueMove, hidle, hopen, Bool.false_eq_true, if_false]
  rw [if_neg (by simp [hidle'])]
  rfl

end

theorem moveDiscarded_of (k : Core) (b : Nat) (hb : b < 32) :
    moveDiscarded b k (stored (moveDiscard { k with usedX := true } (BitVec.ofNat 32 (2 ^ b)))) :=
  ⟨bit_cFlag_self { k with usedX := true } _ b hb, fun _ hj => bit_cFlag_ne { k with usedX := true } _ b hb hj,
    fun o ho => cReg_cFlag_ne { k with usedX := true } _ o _ ho, rfl⟩

/-- A move operation acts as asked where it is discarded for its reserved field and its own effect is what is asked. -/
theorem moveActs_of {x : Instr} {i : Issue} {f : MoveField} {eff : Core → Nat → Bool → Core} {post : Nat → Core → Core → Prop}
    (hexec : ∀ s, exec x s = .next (issueMove s i f eff))
    (hpost : ∀ n k, post n k (stored (eff { k with usedX := true } n (enabledAt k i n)))) :
    fieldActs x i Core.usedX fun _ n k k2 => (f.rsv ≠ 0#12 → moveDiscarded 5 k k2) ∧ (f.rsv = 0#12 → post n k k2) := by
  intro s n k h
  refine ⟨_, (hexec s).trans (congrArg _ (issueMove_of_issue h eff)), onlyCore_reach_setCore _ _ _ _, ?_⟩
  rw [core_setCore_self]
  refine ⟨fun hr => ?_, fun hr => ?_⟩
  · rw [moveIssued, if_pos hr]
    exact moveDiscarded_of k 5 (by decide)
  · rw [moveIssued, if_neg (not_not.mpr hr)]
    exact hpost n k

theorem xnop_acts (i : Issue) (f : MoveField) : fieldActs (.xnop i f) i Core.usedX fun _ _ k k2 =>
    (f.rsv ≠ 0#12 → moveDiscarded 5 k k2) ∧ (f.rsv = 0#12 → dataOf k2 = dataOf k) :=
  moveActs_of (eff := fun c _ _ => c) (fun _ => rfl) fun _ _ => rfl

theorem xout_acts (i : Issue) (f : MoveField) : fieldActs (.xout i f) i Core.usedX fun _ n k k2 =>
    (f.rsv ≠ 0#12 → moveDiscarded 5 k k2) ∧ (f.rsv = 0#12 →
      let d := moveDesc k f.desc.toNat
      let l := f.link.toNat
      (moveDescOk d = false → moveDiscarded 5 k k2) ∧
      (moveDescOk d = true → (mget? k.outs l).isSome = true → moveDiscarded 6 k k2) ∧
      (moveDescOk d = true → mget? k.outs l = none → dataOf { k2 with outs := k.outs } = dataOf k ∧
        mget? k2.outs l = some ⟨d.1, d.2.1, d.2.2, 0, n + latency k + 1, enabledAt k i n⟩ ∧ ∀ j, j ≠ l → mget? k2.outs j = mget? k.outs j)) := by
  refine moveActs_of (eff := fun c t en =>
    if !moveDescOk (moveDesc c f.desc.toNat) then moveDiscard c fBadOp
    else if (mget? c.outs f.link.toNat).isSome then moveDiscard c fBusy
    else { c with outs := mset c.outs f.link.toNat ⟨(moveDesc c f.desc.toNat).1, (moveDesc c f.desc.toNat).2.1, (moveDesc c f.desc.toNat).2.2, 0,
      t + latency c + 1, en⟩ }) (fun _ => rfl) fun n k => ?_
  have hdesc : moveDesc { k with usedX := true } f.desc.toNat = moveDesc k f.desc.toNat := rfl
  simp only [hdesc]
  refine ⟨fun hd => ?bad, fun hd hbusy => ?busy, fun hd hfree => ?started⟩
  case bad => rw [hd]; exact moveDiscarded_of k 5 (by decide)
  case busy => rw [hd, hbusy]; exact moveDiscarded_of k 6 (by decide)
  case started =>
    rw [hd, hfree]
    exact ⟨rfl, mget_mset_self _ _ _, fun j hj => mget_mset_ne _ _ _ _ hj⟩

theorem xin_acts (i : Issue) (f : MoveField) : fieldActs (.xin i f) i Core.usedX fun _ n k k2 =>
    (f.rsv ≠ 0#12 → moveDiscarded 5 k k2) ∧ (f.rsv = 0#12 →
      let d := moveDesc k f.desc.toNat
      let l := f.link.toNat
      (moveDescOk d = false → moveDiscarded 5 k k2) ∧
      (moveDescOk d = true → (mget? k.ins l).isSome = true → moveDiscarded 6 k k2) ∧
      (moveDescOk d = true → mget? k.ins l = none → dataOf { k2 with ins := k.ins, regs := k.regs } = dataOf k ∧
        cReg k2 (0x3180 + 4 * l) = 0#32 ∧ (∀ o, o ≠ 0x3180 + 4 * l → cReg k2 o = cReg k o) ∧
        (∀ j, j ≠ l → mget? k2.ins j = mget? k.ins j) ∧ mget? k2.ins l = some ⟨d.1, d.2.1, d.2.2, 0, n + 1, enabledAt k i n,
          if f.push = 1#1 then some (f.hq.toNat, (gprAt k f.sreg.toNat n).val) else none, none⟩)) := by
  refine moveActs_of (eff := fun c t en =>
    if !moveDescOk (moveDesc c f.desc.toNat) then moveDiscard c fBadOp
    else if (mget? c.ins f.link.toNat).isSome then moveDiscard c fBusy
    else { cSet c (0x3180 + 4 * f.link.toNat) 0#32 with
      ins := mset c.ins f.link.toNat ⟨(moveDesc c f.desc.toNat).1, (moveDesc c f.desc.toNat).2.1, (moveDesc c f.desc.toNat).2.2, 0, t + 1, en,
        if f.push = 1#1 then some (f.hq.toNat, (gprAt c f.sreg.toNat t).val) else none, none⟩ }) (fun _ => rfl) fun n k => ?_
  have hdesc : moveDesc { k with usedX := true } f.desc.toNat = moveDesc k f.desc.toNat := rfl
  simp only [hdesc]
  refine ⟨fun hd => ?bad, fun hd hbusy => ?busy, fun hd hfree => ?started⟩
  case bad => rw [hd]; exact moveDiscarded_of k 5 (by decide)
  case busy => rw [hd, hbusy]; exact moveDiscarded_of k 6 (by decide)
  case started =>
    rw [hd, hfree]
    exact ⟨rfl, cReg_cSet_self k _ _, fun o ho => cReg_cSet_ne k _ o _ ho, fun j hj => mget_mset_ne _ _ _ _ hj, mget_mset_self _ _ _⟩

/-! ### Tokens -/

/-- The word of a token before its parity (R275). -/
def tokenBody (value kind : Nat) (epoch : BitVec 8) : Word := BitVec.ofNat 32 (value % 65536 + epoch.toNat * 65536 + kind % 4 * 2 ^ 24)

theorem mkToken_eq (value kind : Nat) (epoch : BitVec 8) (bad : Bool) : mkToken value kind epoch bad =
    if parityW (tokenBody value kind epoch) != bad then tokenBody value kind epoch ||| 0x80000000#32 else tokenBody value kind epoch := rfl

theorem tokenBody_toNat (value kind : Nat) (epoch : BitVec 8) :
    (tokenBody value kind epoch).toNat = value % 65536 + epoch.toNat * 65536 + kind % 4 * 2 ^ 24 := by
  have := epoch.isLt
  rw [tokenBody, BitVec.toNat_ofNat]
  exact Nat.mod_eq_of_lt (by omega)

/-- The top bit carries the parity and nothing else of a token. -/
theorem fld_mkToken (value kind : Nat) (epoch : BitVec 8) (bad : Bool) {hi lo : Nat} (h : hi < 31) :
    fld (mkToken value kind epoch bad) hi lo = fld (tokenBody value kind epoch) hi lo := by
  rw [mkToken_eq]
  split
  · refine fld_or_zero _ _ _ _ (Nat.eq_of_testBit_eq fun i => ?_)
    rw [testBit_fld, Nat.zero_testBit, show (0x80000000#32 : Word) = BitVec.ofNat 32 (2 ^ 31) from rfl, ← bit, bit_two_pow 31 _ (by decide)]
    simp only [Bool.and_eq_false_iff, decide_eq_false_iff_not]
    omega
  · rfl

theorem tokEpoch_eq_fld (w : Word) : tokEpoch w = BitVec.ofNat 8 (fld w 23 16) := by
  apply BitVec.eq_of_toNat_eq
  rw [fld]
  simp [tokEpoch, BitVec.toNat_ushiftRight, Nat.shiftRight_eq_div_pow]

/-- Parity counts the top bit with the others. -/
theorem parityW_or_top (w : Word) (h : w.getLsbD 31 = false) : parityW (w ||| 0x80000000#32) = !parityW w := by
  have hsplit (v : Word) : parityW v = ((List.range 31).foldl (fun p i => p != v.getLsbD i) false != v.getLsbD 31) := by
    rw [parityW, List.range_succ, List.foldl_append]
    rfl
  have hlow : ∀ l : List Nat, (∀ i ∈ l, i < 31) → ∀ p : Bool,
      l.foldl (fun p i => p != (w ||| 0x80000000#32).getLsbD i) p = l.foldl (fun p i => p != w.getLsbD i) p := by
    intro l
    induction l with
    | nil => exact fun _ _ => rfl
    | cons i t ih =>
      intro hl p
      have hi : (0x80000000#32).getLsbD i = false := by
        have hlt := hl i List.mem_cons_self
        rw [show (0x80000000#32) = BitVec.ofNat 32 (2 ^ 31) from rfl, ← bit, bit_two_pow 31 i (by decide)]
        exact decide_eq_false (by omega)
      rw [List.foldl_cons, List.foldl_cons, BitVec.getLsbD_or, hi, Bool.or_false]
      exact ih (fun j hj => hl j (List.mem_cons_of_mem i hj)) _
  rw [hsplit, hsplit w, hlow _ (fun i hi => List.mem_range.mp hi), BitVec.getLsbD_or, h]
  cases (List.range 31).foldl (fun p i => p != w.getLsbD i) false <;> rfl

/-- What the fields of a token read as (R275). -/
theorem mkToken_fields (value kind : Nat) (epoch : BitVec 8) (bad : Bool) :
    fld (mkToken value kind epoch bad) 15 0 = value % 65536 ∧ tokKind (mkToken value kind epoch bad) = kind % 4 ∧
      tokEpoch (mkToken value kind epoch bad) = epoch ∧ tokOk (mkToken value kind epoch bad) = !bad := by
  have hbody := tokenBody_toNat value kind epoch
  have hepoch := epoch.isLt
  refine ⟨?value, ?kind, ?epoch, ?parity⟩
  case value => rw [fld_mkToken _ _ _ _ (by decide), fld, hbody]; omega
  case kind => rw [tokKind, fld_mkToken _ _ _ _ (by decide), fld, hbody]; omega
  case epoch =>
    rw [tokEpoch_eq_fld, fld_mkToken _ _ _ _ (by decide), fld, hbody]
    apply BitVec.eq_of_toNat_eq
    rw [BitVec.toNat_ofNat]
    omega
  case parity =>
    have htop : (tokenBody value kind epoch).getLsbD 31 = false := by
      rw [← BitVec.testBit_toNat, hbody]
      exact Nat.testBit_lt_two_pow (by omega)
    rw [mkToken_eq, tokOk]
    cases hp : parityW (tokenBody value kind epoch) <;> cases bad <;> simp [hp, parityW_or_top _ htop]

theorem xtok_acts (i : Issue) (f : MoveField) : fieldActs (.xtok i f) i Core.usedX fun _ n k k2 =>
    (f.rsv ≠ 0#12 → moveDiscarded 5 k k2) ∧ (f.rsv = 0#12 →
      let q := mgetD k.localTok f.link.toNat []
      let v := gprAt k f.sreg.toNat n
      (f.kind = 0#2 ∨ enabledAt k i n = false → dataOf k2 = dataOf k) ∧
      (f.kind ≠ 0#2 → enabledAt k i n = true → 16 ≤ q.length → moveDiscarded 1 k k2) ∧
      (f.kind ≠ 0#2 → enabledAt k i n = true → q.length < 16 → dataOf { k2 with localTok := k.localTok } = dataOf k ∧
        ∃ w, mgetD k2.localTok f.link.toNat [] = q ++ [w] ∧ fld w 15 0 = fld v.val 15 0 ∧ tokKind w = f.kind.toNat ∧
          tokEpoch w = epochTag k ∧ tokOk w = !v.bad)) := by
  refine moveActs_of (eff := fun c t en =>
    if f.kind = 0#2 ∨ ¬ en then c
    else if (mgetD c.localTok f.link.toNat []).length ≥ 16 then moveDiscard c fQovf
    else { c with localTok := mset c.localTok f.link.toNat (mgetD c.localTok f.link.toNat [] ++
      [mkToken (fld (gprAt c f.sreg.toNat t).val 15 0) f.kind.toNat (epochTag c) (gprAt c f.sreg.toNat t).bad]) }) (fun _ => rfl) fun n k => ?_
  have hgpr (r u : Nat) : gprAt { k with usedX := true } r u = gprAt k r u := rfl
  simp only [hgpr]
  refine ⟨fun h => ?none, fun hkind hen hfull => ?full, fun hkind hen hroom => ?queued⟩
  case none =>
    rw [if_pos (h.imp_right fun hen => by rw [hen]; exact Bool.false_ne_true)]
    rfl
  case full =>
    rw [if_neg (by simp [hkind, hen]), if_pos hfull]
    exact moveDiscarded_of k 1 (by decide)
  case queued =>
    rw [if_neg (by simp [hkind, hen]), if_neg (Nat.not_le.mpr hroom)]
    obtain ⟨hvalue, hk, hepoch, hok⟩ := mkToken_fields (fld (gprAt k f.sreg.toNat n).val 15 0) f.kind.toNat (epochTag k)
      (gprAt k f.sreg.toNat n).bad
    refine ⟨rfl, _, mgetD_mset_self _ _ _ _, hvalue.trans (Nat.mod_eq_of_lt (fld_lt _ 15 0)), hk.trans (Nat.mod_eq_of_lt f.kind.isLt),
      hepoch, hok⟩

theorem xstop_acts (i : Issue) (f : MoveField) : fieldActs (.xstop i f) i Core.usedX fun _ _ k k2 =>
    (f.rsv ≠ 0#12 → moveDiscarded 5 k k2) ∧ (f.rsv = 0#12 → dataOf { k2 with outs := k.outs, ins := k.ins } = dataOf k ∧
      (mkeysRising k.outs = true → mget? k2.outs f.link.toNat = none ∧ ∀ j, j ≠ f.link.toNat → mget? k2.outs j = mget? k.outs j) ∧
      (mkeysRising k.ins = true → mget? k2.ins f.link.toNat = none ∧ ∀ j, j ≠ f.link.toNat → mget? k2.ins j = mget? k.ins j)) :=
  moveActs_of (eff := fun c _ _ => { c with outs := merase c.outs f.link.toNat, ins := merase c.ins f.link.toNat }) (fun _ => rfl)
    fun _ _ => ⟨rfl, fun h => ⟨mget_merase_self _ _ h, fun _ hj => mget_merase_ne _ _ _ hj h⟩,
      fun h => ⟨mget_merase_self _ _ h, fun _ hj => mget_merase_ne _ _ _ hj h⟩⟩

/-! ### Arrivals -/

/-- A flit given to its core arrives there (R260, R281). -/
theorem flitArrives_arriveFlit (inp : Nat) (f : Flit) (k : Core) : flitArrives inp f k (stored (arriveFlit k inp f)) := by
  unfold arriveFlit
  refine ⟨fun h => ?stale, fun ha he hfull => ?lost, fun ha he hroom => ?queued⟩
  case stale =>
    rw [if_pos (by simpa using h)]
    exact ⟨rfl, fld_cCount_self k rFabStale 15 0 1 (by decide)⟩
  case lost =>
    rw [if_neg (by simp [ha, he]), if_pos hfull]
    exact ⟨rfl, bit_cFlag_self k rFabStatus 1 (by decide)⟩
  case queued =>
    rw [if_neg (by simp [ha, he]), if_neg (Nat.not_le.mpr hroom)]
    exact ⟨rfl, mgetD_mset_self _ _ _ _, fun i hi => mgetD_mset_ne _ _ _ _ _ hi⟩

/-- The same for a token (R260, R275, R281). -/
theorem tokenArrives_arriveTok (inp : Nat) (w : Word) (k : Core) : tokenArrives inp w k (stored (arriveTok k inp w)) := by
  unfold arriveTok
  refine ⟨fun h => ?none, fun hk h => ?stale, fun hk ha he hfull => ?lost, fun hk ha he hroom => ?queued⟩
  case none => rw [if_pos h]; exact ⟨rfl, rfl⟩
  case stale =>
    rw [if_neg hk, if_pos (by simpa using h)]
    exact ⟨rfl, fld_cCount_self k rFabStale 31 16 1 (by decide)⟩
  case lost =>
    rw [if_neg hk, if_neg (by simp [ha, he]), if_pos hfull]
    exact ⟨rfl, bit_cFlag_self k rFabStatus 1 (by decide)⟩
  case queued =>
    rw [if_neg hk, if_neg (by simp [ha, he]), if_neg (Nat.not_le.mpr hroom)]
    exact ⟨rfl, mgetD_mset_self _ _ _ _, fun i hi => mgetD_mset_ne _ _ _ _ _ hi⟩

@[simp] theorem takeWire_core (s : State) (w : Wire) (flit : Bool) (c : Nat) : (takeWire s w flit).core c = s.core c := rfl

theorem arrivals_act (c : CoreId) (inp : Fin 4) (s : State) :
    (∀ f, ∃ t, exec (.flitArrival c inp (some f)) s = .next t ∧ onlyCore c.val s t ∧ t.now = s.now ∧
      flitArrives inp.val f (s.core c.val) (t.core c.val)) ∧
    (nextWire s c.val inp.val true = none → exec (.flitArrival c inp none) s = .next s) ∧
    (∀ w f, nextWire s c.val inp.val true = some w → w.flit = some f → ∃ t, exec (.flitArrival c inp none) s = .next t ∧
      t.now = max s.now w.due ∧ flitArrives inp.val f (s.core c.val) (t.core c.val)) ∧
    (∀ v, ∃ t, exec (.tokenArrival c inp (some v)) s = .next t ∧ onlyCore c.val s t ∧ t.now = s.now ∧
      tokenArrives inp.val v (s.core c.val) (t.core c.val)) ∧
    (nextWire s c.val inp.val false = none → exec (.tokenArrival c inp none) s = .next s) ∧
    (∀ w v, nextWire s c.val inp.val false = some w → w.tok = some v → ∃ t, exec (.tokenArrival c inp none) s = .next t ∧
      t.now = max s.now w.due ∧ tokenArrives inp.val v (s.core c.val) (t.core c.val)) := by
  have hflit (fl : Option Flit) : exec (.flitArrival c inp fl) s = execFlitArrival c inp fl s := rfl
  have htok (tk : Option Word) : exec (.tokenArrival c inp tk) s = execTokenArrival c inp tk s := rfl
  refine ⟨fun f => ?flitGiven, fun h => ?flitNone, fun w f h hw => ?flitNext, fun v => ?tokGiven, fun h => ?tokNone, fun w v h hw => ?tokNext⟩
  case flitGiven =>
    refine ⟨_, rfl, onlyCore_setCore _ _ _, setCore_now _ _ _, ?_⟩
    rw [core_setCore_self]
    exact flitArrives_arriveFlit _ _ _
  case flitNone => simp only [hflit, execFlitArrival, h]
  case flitNext =>
    refine ⟨_, by simp only [hflit, execFlitArrival, h, hw]; rfl, setCore_now _ _ _, ?_⟩
    rw [core_setCore_self]
    exact flitArrives_arriveFlit _ _ _
  case tokGiven =>
    refine ⟨_, rfl, onlyCore_setCore _ _ _, setCore_now _ _ _, ?_⟩
    rw [core_setCore_self]
    exact tokenArrives_arriveTok _ _ _
  case tokNone => simp only [htok, execTokenArrival, h]
  case tokNext =>
    refine ⟨_, by simp only [htok, execTokenArrival, h, hw]; rfl, setCore_now _ _ _, ?_⟩
    rw [core_setCore_self]
    exact tokenArrives_arriveTok _ _ _

end Sys2Proof.Machine
end

section
/-! PROOFS. Slot-table entries: what an entry leaves of the flit queues, and the flit it forwards (R265 to R268). -/

namespace Sys2Proof.Machine

/-! ### What the parts of an entry leave of the flit queues -/

/-- The flit queues and the section cycle are as they were. -/
def queuesKept (k k2 : Core) : Prop := k2.flitQ = k.flitQ ∧ k2.sectNext = k.sectNext

theorem queuesKept_refl (k : Core) : queuesKept k k := ⟨rfl, rfl⟩

theorem queuesKept_trans {a b c : Core} (h1 : queuesKept a b) (h2 : queuesKept b c) : queuesKept a c :=
  ⟨h2.1.trans h1.1, h2.2.trans h1.2⟩

theorem queuesKept_foldl {α : Type} {f : Core → α → Core} (hf : ∀ k x, queuesKept k (f k x)) (l : List α) (k : Core) :
    queuesKept k (l.foldl f k) := by
  induction l generalizing k with
  | nil => exact queuesKept_refl k
  | cons x t ih => exact queuesKept_trans (hf k x) (ih _)

theorem headFlit_of_kept {k k2 : Core} (h : queuesKept k k2) (i : Nat) : headFlit k2 i = headFlit k i := by
  rw [headFlit, headFlit, h.1]

theorem queuesKept_of_notes {k k2 : Core} (h : dataButNotes k k2) : queuesKept k k2 := by
  have hdata : dataOf { k2 with regs := k.regs, recs := k.recs, lastRec := k.lastRec } = dataOf k := h
  exact ⟨by have hq := congrArg Core.flitQ hdata; exact hq, by have hq := congrArg Core.sectNext hdata; exact hq⟩

theorem cEmit_queues (c : Core) (t : Nat) (r : Rec) : queuesKept c (cEmit c t r) := queuesKept_of_notes (dataButNotes_cEmit c t r)

theorem slotMiss_queues (c : Core) (t : Nat) : queuesKept c (slotMiss c t) :=
  cEmit_queues (cFlag c rFabStatus fSlotMiss) t _

theorem fabricParity_queues (c : Core) (t : Nat) : queuesKept c (fabricParity c t) :=
  cEmit_queues (cFlag c rFabStatus fPerr) t _

theorem noteReads_queues (c : Core) (client t : Nat) (reads : List (Nat × Nat)) : queuesKept c (noteReads c client t reads) :=
  queuesKept_of_notes (dataButNotes_noteReads c client t reads)

theorem outFlit_queues {c : Core} {l t : Nat} {r : Flit × Core} (h : outFlit c l t = some r) : queuesKept c r.2 := by
  unfold outFlit at h
  split at h
  · cases h
  · split at h
    · obtain rfl := Option.some.inj h
      exact noteReads_queues c 6 t _
    · cases h

theorem linkFlit_queues (c : Core) (l code t : Nat) : queuesKept c (linkFlit c l code t).1 := by
  unfold linkFlit
  split
  · exact queuesKept_refl c
  · split
    · split
      · exact queuesKept_refl c
      · exact slotMiss_queues c t
    · split
      · split
        · exact outFlit_queues ‹_›
        · exact slotMiss_queues c t
      · split
        · split
          · exact queuesKept_refl c
          · exact slotMiss_queues c t
        · exact ⟨rfl, rfl⟩

theorem linkTok_queues (c : Core) (l code t : Nat) : queuesKept c (linkTok c l code t).1 := by
  unfold linkTok
  split
  · exact queuesKept_refl c
  · split
    · split
      · exact queuesKept_refl c
      · exact slotMiss_queues c t
    · split
      · split
        · exact queuesKept_refl c
        · exact slotMiss_queues c t
      · exact ⟨rfl, rfl⟩

theorem ejectFlit_queues (c : Core) (i t : Nat) (f : Flit) : queuesKept c (ejectFlit c i t f) := by
  unfold ejectFlit
  split
  · exact slotMiss_queues c t
  · split
    · extract_lets a lat bad real other clears wr c1 c2 cov c3
      have h1 : queuesKept c c1 := by
        unfold c1
        split <;> exact ⟨rfl, rfl⟩
      have h2 : queuesKept c c2 := by
        unfold c2
        split
        · exact queuesKept_trans h1 (fabricParity_queues c1 t)
        · exact h1
      unfold c3
      split
      · split
        · split <;> exact h2
        · exact h2
      · exact h2
    · exact slotMiss_queues c t

theorem checkToks_queues (c : Core) (t : Nat) (ks : List Word) : queuesKept c (checkToks c t ks) := by
  unfold checkToks
  split
  · exact fabricParity_queues c t
  · exact queuesKept_refl c

theorem applyFiring_queues (t : Nat) (sent : List Nat) (c : Core) (g : Firing) : queuesKept c (applyFiring t sent c g) := by
  unfold applyFiring
  extract_lets c1 c2 c3 c4
  have h1 : queuesKept c c1 := by
    unfold c1
    split
    · exact slotMiss_queues c t
    · exact queuesKept_refl c
  have h2 : queuesKept c c2 := by
    unfold c2
    split <;> exact h1
  have h3 : queuesKept c c3 := by
    unfold c3
    split
    · exact queuesKept_trans h2 (slotMiss_queues c2 t)
    · exact h2
  split <;> exact h3

/-! ### A whole entry -/

/-- The codes of an entry's four links (R266). -/
def entryCodes (e : BitVec 64) : List Nat := [efld e 3 0, efld e 7 4, efld e 11 8, efld e 15 12]

theorem entryCodes_getElem (e : BitVec 64) {l : Nat} (h : l < 4) : (entryCodes e)[l]? = some (efld e (4 * l + 3) (4 * l)) := by
  interval_cases l <;> rfl

/-- Links are served one after the other: each on a core whose queues are as the first found them. -/
theorem foldl_links {β : Type} {step : Core → Nat × Nat → Core × β} (hstep : ∀ k p, queuesKept k (step k p).1) (l : List (Nat × Nat))
    (k : Core) (acc : List β) :
    let r := l.foldl (fun (a : Core × List β) p => ((step a.1 p).1, a.2 ++ [(step a.1 p).2])) (k, acc)
    queuesKept k r.1 ∧ (∀ j, j < acc.length → r.2[j]? = acc[j]?) ∧
      ∀ j p, l[j]? = some p → ∃ k', queuesKept k k' ∧ r.2[acc.length + j]? = some (step k' p).2 := by
  induction l generalizing k acc with
  | nil => exact ⟨queuesKept_refl k, fun _ _ => rfl, fun _ _ h => by simp at h⟩
  | cons x t ih =>
    obtain ⟨hkept, hold, hnew⟩ := ih (step k x).1 (acc ++ [(step k x).2])
    refine ⟨queuesKept_trans (hstep k x) hkept, fun j hj => ?_, fun j p hp => ?_⟩
    · exact (hold j (by simp; omega)).trans (List.getElem?_append_left hj)
    · cases j with
      | zero =>
        obtain rfl : x = p := by simpa using hp
        exact ⟨k, queuesKept_refl k, (hold acc.length (by simp)).trans (by simp)⟩
      | succ j =>
        obtain ⟨k', hk', hval⟩ := hnew j p (by simpa using hp)
        refine ⟨k', queuesKept_trans (hstep k x) hk', ?_⟩
        rw [← hval, List.length_append]
        congr 1
        simp
        omega

section
variable (c : Core) (e : BitVec 64) (t fr : Nat)

/-- What serving one link gives (R266, R268, R269). -/
def linkStep (k : Core) (p : Nat × Nat) : Core × Option Flit :=
  ((linkFlit k p.2 p.1 t).1, (linkFlit k p.2 p.1 t).2.map (gateFlit c e p.2 fr))

/-- The core and the flits after the four links have been served. -/
def entryLinks : Core × List (Option Flit) :=
  (entryCodes e).zipIdx.foldl (fun a p => ((linkStep c e t fr a.1 p).1, a.2 ++ [(linkStep c e t fr a.1 p).2])) (c, [])

theorem entryLinks_facts : queuesKept c (entryLinks c e t fr).1 ∧ ∀ l, l < 4 → ∃ k, queuesKept c k ∧
    (entryLinks c e t fr).2[l]? = some (linkStep c e t fr k (efld e (4 * l + 3) (4 * l), l)).2 := by
  obtain ⟨hkept, -, hnew⟩ := foldl_links (step := linkStep c e t fr) (fun k p => linkFlit_queues k p.2 p.1 t) (entryCodes e).zipIdx c []
  refine ⟨hkept, fun l hl => ?_⟩
  obtain ⟨k, hk, hval⟩ := hnew l (efld e (4 * l + 3) (4 * l), l) (by simp [List.getElem?_zipIdx, entryCodes_getElem e hl])
  refine ⟨k, hk, Eq.trans ?_ hval⟩
  rw [List.length_nil, Nat.zero_add]
  rfl

/-- The flits that an entry sends are those of its links, in order. -/
theorem applyEntry_sends {l : Nat} (hl : l < 4) : ∃ tok, (applyEntry c e t fr).2[l]? = some (l, (entryLinks c e t fr).2.getD l none, tok) := by
  unfold applyEntry
  dsimp only
  rw [List.getElem?_map, List.getElem?_range hl]
  exact ⟨_, rfl⟩

/-- An entry drops heads of the flit queues, those that its links forward among them, and nothing else of them. -/
theorem applyEntry_queues : (applyEntry c e t fr).1.sectNext = c.sectNext ∧ ∃ others, (applyEntry c e t fr).1.flitQ =
    dropHeads c.flitQ (((entryCodes e).filterMap fun k => if 1 ≤ k ∧ k ≤ 4 then some (k - 1) else none) ++ others) := by
  have hlinks := (entryLinks_facts c e t fr).1
  have htoks (l : List (Nat × Nat)) (k : Core) (hk : queuesKept c k) : queuesKept c
      (l.foldl (fun (a : Core × List (Option Word)) p => ((linkTok a.1 p.2 p.1 t).1, a.2 ++ [(linkTok a.1 p.2 p.1 t).2])) (k, [])).1 :=
    queuesKept_trans hk (foldl_links (step := fun k p => linkTok k p.2 p.1 t) (fun k p => linkTok_queues k p.2 p.1 t) l k []).1
  have heject (l : List Nat) (k : Core) (hk : queuesKept c k) : queuesKept c (l.foldl (fun k i =>
      match headFlit c i with
      | some f => ejectFlit k i t f
      | none => ejectFlit (slotMiss k t) i t (emptyFlit c)) k) := by
    refine queuesKept_trans hk (queuesKept_foldl (fun k i => ?_) l k)
    split
    · exact ejectFlit_queues k i t _
    · exact queuesKept_trans (slotMiss_queues k t) (ejectFlit_queues _ i t _)
  have hmiss (p : Bool) (k : Core) (hk : queuesKept c k) : queuesKept c (if p then slotMiss k t else k) := by
    cases p with
    | false => exact hk
    | true => exact queuesKept_trans hk (slotMiss_queues k t)
  have hcheck (k : Core) (ks : List Word) (hk : queuesKept c k) : queuesKept c (checkToks k t ks) :=
    queuesKept_trans hk (checkToks_queues k t ks)
  have hset (p : Bool) (k : Core) (o : Nat) (w : Word) (hk : queuesKept c k) : queuesKept c (if p then cSet k o w else k) := by
    cases p <;> exact hk
  have hfire (sent : List Nat) (l : List (Nat × Firing)) (k : Core) (hk : queuesKept c k) :
      queuesKept c (l.foldl (fun k p => applyFiring t sent k p.2) k) :=
    queuesKept_trans hk (queuesKept_foldl (fun k p => applyFiring_queues t sent k p.2) l k)
  unfold applyEntry
  dsimp only
  refine (fun h : queuesKept c _ => ⟨h.2, _, (congrArg (dropHeads · _) h.1).trans (by rw [List.append_assoc]; rfl)⟩) ?_
  exact hcheck _ _ (hfire _ _ _ (hset _ _ _ _ (hcheck _ _ (hmiss _ _ (heject _ _ (htoks _ _ hlinks))))))

end

/-! ### Heads dropped and flits sent -/

theorem nodup_eraseDups (l : List Nat) : l.eraseDups.Nodup := by
  induction h : l.length using Nat.strong_induction_on generalizing l with
  | _ n ih =>
    cases l with
    | nil => exact List.nodup_nil
    | cons a t =>
      have hlen := List.length_filter_le (fun b => !b == a) t
      rw [List.eraseDups_cons, List.nodup_cons]
      exact ⟨by simp, ih _ (by rw [← h, List.length_cons]; omega) _ rfl⟩

theorem mgetD_foldl_drop {α : Type} (is : List Nat) (hnodup : is.Nodup) (m : Map (List α)) (i : Nat) :
    mgetD (is.foldl (fun m i => mset m i ((mgetD m i []).drop 1)) m) i [] = if i ∈ is then (mgetD m i []).drop 1 else mgetD m i [] := by
  induction is generalizing m with
  | nil => rfl
  | cons j t ih =>
    obtain ⟨hj, ht⟩ := List.nodup_cons.mp hnodup
    rw [List.foldl_cons, ih ht]
    by_cases hij : i = j
    · subst hij
      rw [if_neg hj, if_pos List.mem_cons_self, mgetD_mset_self]
    · rw [mgetD_mset_ne _ _ _ _ _ hij]
      simp [hij]

/-- A queue whose head is dropped loses it once, however many times it is named. -/
theorem mgetD_dropHeads {α : Type} (m : Map (List α)) {is : List Nat} {i : Nat} (h : i ∈ is) :
    mgetD (dropHeads m is) i [] = (mgetD m i []).drop 1 := by
  rw [dropHeads, mgetD_foldl_drop _ (nodup_eraseDups is), if_pos (List.mem_eraseDups.mpr h)]

/-- Putting items on a link leaves time and its own core alone, and takes nothing off a wire. -/
theorem sendLink_keeps (s : State) (c t l : Nat) (f : Option Flit) (k : Option Word) :
    (sendLink s c t l f k).now = s.now ∧ (sendLink s c t l f k).core c = s.core c ∧ ∀ w ∈ s.wires, w ∈ (sendLink s c t l f k).wires := by
  unfold sendLink
  split
  · exact ⟨rfl, rfl, fun _ h => h⟩
  · split
    · exact ⟨rfl, rfl, fun _ h => h⟩
    · rename_i d inp _
      split
      · exact ⟨rfl, rfl, fun _ h => List.mem_append_left _ h⟩
      · rename_i hregion
        have hne : c ≠ d := fun h => hregion (by rw [h])
        dsimp only
        split
        · exact ⟨rfl, rfl, fun _ h => List.mem_append_left _ h⟩
        · exact ⟨setCore_now _ _ _, core_setCore_ne _ _ _ _ hne, fun _ h => by rw [setCore_wires]; exact h⟩

/-- Inside a region a flit is on the wire for the next cycle (R259). -/
theorem sendLink_wire (s : State) {c t l : Nat} {f : Flit} (k : Option Word) {d inp : Nat} (hdest : linkDest c l = some (d, inp))
    (hregion : regionOfCore c = regionOfCore d) : ⟨t + 1, d, inp, some f, k⟩ ∈ (sendLink s c t l (some f) k).wires := by
  unfold sendLink
  rw [if_neg (by simp), hdest]
  dsimp only
  rw [if_pos hregion]
  exact List.mem_append_right _ List.mem_cons_self

theorem foldl_sendLink_keeps (ps : List (Nat × Option Flit × Option Word)) (s : State) (c t : Nat) :
    let s2 := ps.foldl (fun st p => sendLink st c t p.1 p.2.1 p.2.2) s
    s2.now = s.now ∧ s2.core c = s.core c ∧ ∀ w ∈ s.wires, w ∈ s2.wires := by
  induction ps generalizing s with
  | nil => exact ⟨rfl, rfl, fun _ h => h⟩
  | cons p u ih =>
    obtain ⟨hnow, hcore, hwires⟩ := ih (sendLink s c t p.1 p.2.1 p.2.2)
    obtain ⟨hnow1, hcore1, hwires1⟩ := sendLink_keeps s c t p.1 p.2.1 p.2.2
    exact ⟨hnow.trans hnow1, hcore.trans hcore1, fun w hw => hwires w (hwires1 w hw)⟩

theorem foldl_sendLink_wire {ps : List (Nat × Option Flit × Option Word)} (s : State) {c t l d inp : Nat} {f : Flit} {k : Option Word}
    (hmem : (l, some f, k) ∈ ps) (hdest : linkDest c l = some (d, inp)) (hregion : regionOfCore c = regionOfCore d) :
    ⟨t + 1, d, inp, some f, k⟩ ∈ (ps.foldl (fun st p => sendLink st c t p.1 p.2.1 p.2.2) s).wires := by
  induction ps generalizing s with
  | nil => cases hmem
  | cons p u ih =>
    rcases List.mem_cons.mp hmem with rfl | hmem
    · exact (foldl_sendLink_keeps u _ c t).2.2 _ (sendLink_wire s k hdest hregion)
    · exact ih _ hmem

/-! ### SLOT_ENTRY_APPLY -/

/-- A link that forwards the head flit of an input, ungated, sends it and takes it off its queue (R266, R268). -/
theorem applyEntry_forwards (c : Core) (e : BitVec 64) (t fr : Nat) {lk i : Nat} {f : Flit} (hlk : lk < 4) (hi : i < 4)
    (hcode : efld e (4 * lk + 3) (4 * lk) = i + 1) (hgate : efld e 45 45 = 0) (hhead : headFlit c i = some f) :
    (∃ tok, (lk, some f, tok) ∈ (applyEntry c e t fr).2) ∧
      mgetD (applyEntry c e t fr).1.flitQ i [] = (mgetD c.flitQ i []).drop 1 := by
  constructor
  · obtain ⟨k, hk, hval⟩ := (entryLinks_facts c e t fr).2 lk hlk
    obtain ⟨tok, htok⟩ := applyEntry_sends c e t fr hlk
    have hflit : (entryLinks c e t fr).2.getD lk none = some f := by
      rw [List.getD_eq_getElem?_getD, hval, Option.getD_some, linkStep]
      have hlink : linkFlit k lk (i + 1) t = (k, some f) := by
        rw [linkFlit, if_neg (Nat.succ_ne_zero i), if_pos (show i + 1 ≤ 4 from hi)]
        simp only [Nat.add_sub_cancel, headFlit_of_kept hk, hhead]
      simp only [hcode, hlink, Option.map_some, gateFlit, hgate]
      rfl
    exact ⟨tok, hflit ▸ List.mem_of_getElem? htok⟩
  · obtain ⟨-, others, hqueues⟩ := applyEntry_queues c e t fr
    rw [hqueues]
    refine mgetD_dropHeads _ (List.mem_append_left _ (List.mem_filterMap.mpr ⟨i + 1, ?_, ?_⟩))
    · exact hcode ▸ List.mem_of_getElem? (entryCodes_getElem e hlk)
    · rw [if_pos ⟨Nat.succ_pos i, hi⟩]
      rfl

theorem slotEntryApply_acts (c : CoreId) (s : State) :
    let k0 := s.core c.val
    (k0.launchAt = none → exec (.slotEntryApply c) s = .next s) ∧
    ∀ l, k0.launchAt = some l →
      let n := max k0.sectNext (s.now - l)
      let k := settleCore k0 (l + n)
      (k0.awaiting = true ∨ sectEnd k0 ≤ n → exec (.slotEntryApply c) s = .next s) ∧
      (k0.awaiting = false → n < sectEnd k0 → ∃ t, exec (.slotEntryApply c) s = .next t ∧ t.now = max s.now (l + n) ∧
        (t.core c.val).sectNext = n + 1 ∧ (entryIndex k n = none → t.wires = s.wires) ∧
        ∀ idx lk i f d inp, entryIndex k n = some idx → lk < 4 → i < 4 → efld (slotEntry k idx) (4 * lk + 3) (4 * lk) = i + 1 →
          efld (slotEntry k idx) 45 45 = 0 → headFlit k i = some f → linkDest c.val lk = some (d, inp) → regionOfCore c.val = regionOfCore d →
          (∃ w ∈ t.wires, w.due = l + n + 1 ∧ w.dest = d ∧ w.inp = inp ∧ w.flit = some f) ∧
          mgetD (t.core c.val).flitQ i [] = (mgetD k.flitQ i []).drop 1) := by
  intro k0
  have hexec : exec (.slotEntryApply c) s = execSlotEntryApply c s := rfl
  refine ⟨fun h => ?unlaunched, fun l hl => ?_⟩
  case unlaunched =>
    have h' : (s.core c.val).launchAt = none := h
    simp only [hexec, execSlotEntryApply, h']
  have hl' : (s.core c.val).launchAt = some l := hl
  intro n k
  have hunfold : exec (.slotEntryApply c) s =
      if k0.awaiting || decide (sectEnd k0 ≤ n) then .next s
      else match entryIndex { k with sectNext := n + 1 } n with
        | none => .next ((s.reach (l + n)).setCore c.val { k with sectNext := n + 1 })
        | some idx =>
          let r := applyEntry { k with sectNext := n + 1 } (slotEntry { k with sectNext := n + 1 } idx) (l + n) s.free
          .next (r.2.foldl (fun st p => sendLink st c.val (l + n) p.1 p.2.1 p.2.2) (((s.reach (l + n)).takeFree 16).setCore c.val r.1)) := by
    simp only [hexec, execSlotEntryApply, hl']
    rfl
  rw [hunfold]
  clear_value k n
  refine ⟨fun h => if_pos (by simpa using h), fun hawait hbefore => ?_⟩
  rw [if_neg (by simp only [hawait, Bool.false_or, decide_eq_true_eq]; omega)]
  have hindex : entryIndex { k with sectNext := n + 1 } n = entryIndex k n := rfl
  rw [hindex]
  cases hidx : entryIndex k n with
  | none => exact ⟨_, rfl, setCore_now _ _ _, by rw [core_setCore_self], fun _ => setCore_wires _ _ _, fun idx _ _ _ _ _ h => by cases h⟩
  | some idx =>
    obtain ⟨hnow, hcore, -⟩ := foldl_sendLink_keeps
      (applyEntry { k with sectNext := n + 1 } (slotEntry k idx) (l + n) s.free).2
      (((s.reach (l + n)).takeFree 16).setCore c.val (applyEntry { k with sectNext := n + 1 } (slotEntry k idx) (l + n) s.free).1) c.val (l + n)
    rw [core_setCore_self] at hcore
    refine ⟨_, rfl, hnow.trans (setCore_now _ _ _), ?sectNext, fun h => (by cases h), fun j lk i f d inp hj hlk hi hcode hgate hhead hdest hreg => ?sent⟩
    case sectNext =>
      refine (congrArg Core.sectNext hcore).trans ?_
      exact (applyEntry_queues { k with sectNext := n + 1 } (slotEntry k idx) (l + n) s.free).1
    case sent =>
      obtain rfl : idx = j := Option.some.inj hj
      obtain ⟨⟨tok, hmem⟩, hdrop⟩ := applyEntry_forwards { k with sectNext := n + 1 } (slotEntry k idx) (l + n) s.free hlk hi hcode hgate hhead
      exact ⟨⟨_, foldl_sendLink_wire _ hmem hdest hreg, rfl, rfl, rfl, rfl⟩, (congrArg (fun q : Core => mgetD q.flitQ i []) hcore).trans hdrop⟩

/-- Settles O19: a move field gives its core one new state, an arrival one queue, and a slot-table entry serves its links on the queues as
they stood. -/
theorem fabricActs : Obligations.FabricActs := by
  unfold Obligations.FabricActs
  exact ⟨⟨xnop_acts, xout_acts, xin_acts, xtok_acts, xstop_acts⟩, arrivals_act, slotEntryApply_acts⟩

end Sys2Proof.Machine
end

section
/-! PROOFS. Results that come (R186, R187, R211, R214, R251): what settling a core leaves of its scratchpad and of its accumulators, and what
retired writes leave of what reads find. -/

namespace Sys2Proof.Machine

/-! ### Settling all but the matrix unit -/

/-- The scratchpad and the matrix unit are as they were. -/
structure BanksKept (k k2 : Core) : Prop where
  spad : k2.spad = k.spad
  acc : k2.acc = k.acc
  mops : k2.mops = k.mops
  planes : k2.planes = k.planes

theorem BanksKept.refl (k : Core) : BanksKept k k := ⟨rfl, rfl, rfl, rfl⟩

theorem BanksKept.trans {a b c : Core} (h1 : BanksKept a b) (h2 : BanksKept b c) : BanksKept a c :=
  ⟨h2.spad.trans h1.spad, h2.acc.trans h1.acc, h2.mops.trans h1.mops, h2.planes.trans h1.planes⟩

theorem BanksKept.foldl {α : Type} {f : Core → α → Core} (hf : ∀ k x, BanksKept k (f k x)) (l : List α) (k : Core) :
    BanksKept k (l.foldl f k) := by
  induction l generalizing k with
  | nil => exact .refl k
  | cons x t ih => exact (hf k x).trans (ih _)

theorem BanksKept.of_notes {k k2 : Core} (h : dataButNotes k k2) : BanksKept k k2 := by
  have hdata : dataOf { k2 with regs := k.regs, recs := k.recs, lastRec := k.lastRec } = dataOf k := h
  exact ⟨by have hq := congrArg Core.spad hdata; exact hq, by have hq := congrArg Core.acc hdata; exact hq,
    by have hq := congrArg Core.mops hdata; exact hq, by have hq := congrArg Core.planes hdata; exact hq⟩

theorem guardCheck_banks (c : Core) (t g tile : Nat) (elems : List (Option Word)) : BanksKept c (guardCheck c t g tile elems) := by
  unfold guardCheck
  dsimp only
  split
  · split
    · exact .of_notes (dataButNotes_trans (dataButNotes_trans (dataButNotes_cCount _ _ _ _ _) (dataButNotes_cFlag _ _ _))
        (dataButNotes_cEmit _ _ _))
    · exact ⟨rfl, rfl, rfl, rfl⟩
  · exact .refl c

theorem applyVec_banks (c : Core) (v : VecRes) : BanksKept c (applyVec c v) := by
  unfold applyVec guardChecks
  extract_lets c1 c2
  have h2 : BanksKept c c2 := by
    unfold c2
    split <;> exact ⟨rfl, rfl, rfl, rfl⟩
  exact h2.trans (.foldl (fun k p => .foldl (fun k g => guardCheck_banks k _ g _ _) _ k) _ c2)

theorem loadsDue_banks (c : Core) (t : Nat) : BanksKept c (loadsDue c t) := by
  refine .foldl (fun k v => ?_) _ c
  have h := BanksKept.of_notes (dataButNotes_noteReads k 3 v.due (loadReads v ((fmtOfCode v.fmt).getD .fp32)))
  exact ⟨h.spad, h.acc, h.mops, h.planes⟩

theorem settleVector_banks (c : Core) (t : Nat) : BanksKept c (settleVector c t) := by
  have h := (loadsDue_banks c t).trans (.foldl applyVec_banks ((loadsDue c t).vops.filter fun v => decide (v.due ≤ t)) (loadsDue c t))
  exact ⟨h.spad, h.acc, h.mops, h.planes⟩

theorem hqPush_banks (c : Core) (q t : Nat) (v : Word) : BanksKept c (hqPush c q t v) := by
  unfold hqPush
  dsimp only
  split <;> exact ⟨rfl, rfl, rfl, rfl⟩

theorem settlePushes_banks (c : Core) (t : Nat) : BanksKept c (settlePushes c t) := by
  have h := BanksKept.foldl (fun k (p : HqPush) => hqPush_banks k p.queue p.due p.val) (c.hqPend.filter fun p => decide (p.due < t)) c
  exact ⟨h.spad, h.acc, h.mops, h.planes⟩

theorem settleFlags_banks (c : Core) (t : Nat) : BanksKept c (settleFlags c t) := by
  have h := BanksKept.foldl (fun k (p : Nat × Word) => (⟨rfl, rfl, rfl, rfl⟩ : BanksKept k (cFlag k rArithFlags p.2)))
    (c.flagPend.filter fun p => decide (p.1 < t)) c
  exact ⟨h.spad, h.acc, h.mops, h.planes⟩

theorem settleFault_banks (c : Core) (t : Nat) : BanksKept c (settleFault c t) := by
  unfold settleFault
  split
  · split
    · have h := BanksKept.of_notes (dataButNotes_cEmit (cFlag { c with faultAt := none } rCtlStatus 8#32) ‹_› ⟨.pcFault, 0, [c.pc]⟩)
      exact ⟨h.spad, h.acc, h.mops, h.planes⟩
    · exact .refl c
  · exact .refl c

theorem settleRcvd_banks (c : Core) (t : Nat) : BanksKept c (settleRcvd c t) := by
  have h := BanksKept.foldl (fun k (p : Nat × Nat) => (⟨rfl, rfl, rfl, rfl⟩ : BanksKept k
      { k with regs := regUpd coreRegs k.regs (0x3180 + 4 * p.2) (fun w => setFld w 20 0 (fld w 20 0 + 1)) }))
    (c.rcvdPend.filter fun p => decide (p.1 < t)) c
  exact ⟨h.spad, h.acc, h.mops, h.planes⟩

theorem fillEnd_banks (c : Core) (t n : Nat) (f : Fill) : BanksKept c (fillEnd c t n f) := by
  unfold fillEnd badBuf
  split
  · exact ⟨rfl, rfl, rfl, rfl⟩
  · exact .of_notes (dataButNotes_trans (dataButNotes_cFlag _ _ _) (dataButNotes_cEmit _ _ _))

theorem settleRdy_banks (c : Core) (t : Nat) : BanksKept c (settleRdy c t) := by
  have h := BanksKept.foldl (fun k (p : Nat × Nat × Fill) => fillEnd_banks k t p.2.1 p.2.2) (c.rdyPend.filter fun p => decide (p.1 < t)) c
  exact ⟨h.spad, h.acc, h.mops, h.planes⟩

theorem settleFetches_banks (c : Core) (t : Nat) : BanksKept c (settleFetches c t) := by
  have h := BanksKept.foldl (fun k (p : Nat × Nat) => BanksKept.of_notes (dataButNotes_noteReads k 7 p.2
      ((List.range 32).map fun i => (128 * p.1 + 4 * i, p.2)))) (c.fetches.filter fun p => decide (p.2 < t ∧ 128 * p.1 < spadEnd)) c
  exact ⟨h.spad, h.acc, h.mops, h.planes⟩

/-! ### Settling a core -/

theorem noteOpReads_notes (c : Core) (op : MatOp) (fa fb : Fmt) (s : Nat) : dataButNotes c (noteOpReads c op fa fb s) :=
  dataButNotes_trans (dataButNotes_noteReads _ _ _ _) (dataButNotes_noteReads _ _ _ _)

theorem noteOpReads_banks (c : Core) (op : MatOp) (fa fb : Fmt) (s : Nat) : BanksKept c (noteOpReads c op fa fb s) :=
  .of_notes (noteOpReads_notes c op fa fb s)

/-- A matrix result leaves the scratchpad as it is. -/
theorem applyMat_spad (c : Core) (op : MatOp) : (applyMat c op).spad = c.spad := by
  unfold applyMat
  split
  · unfold applyMmac
    dsimp only
    split
    · exact (noteOpReads_banks _ _ _ _ _).spad
    · exact (noteOpReads_banks _ _ _ _ _).spad
  · unfold applyLoad
    dsimp only
    split
    · rfl
    · refine (noteOpReads_banks _ _ _ _ _).spad.trans ?_
      generalize arraysOf op.tgt = l
      have hfold (g : Core → Nat → Map Plane) (l : List Nat) (k : Core) :
          (l.foldl (fun (k : Core) n => { k with planes := g k n }) k).spad = k.spad := by
        induction l generalizing k with
        | nil => rfl
        | cons n t ih => exact ih _
      exact hfold _ l c
  · unfold applyMzero
    split <;> rfl
  · unfold applyMfill
    dsimp only
    split <;> exact (BanksKept.of_notes (dataButNotes_noteReads _ _ _ _)).spad
  · rfl

theorem settleMatrixFrom_spad (t : Nat) (all ops : List MatOp) (c : Core) : (settleMatrixFrom t all ops c).spad = c.spad := by
  induction ops generalizing c with
  | nil => rfl
  | cons op rest ih =>
    rw [settleMatrixFrom]
    split
    · exact (ih _).trans (applyMat_spad c op)
    · exact ih c

theorem settleMatrix_spad (c : Core) (t : Nat) : (settleMatrix c t).spad = c.spad := settleMatrixFrom_spad t c.mops c.mops c

/-- A settled core holds the accumulators that the matrix unit leaves, and a scratchpad with some early writes retired (R211, R214). -/
theorem settleCore_banks (c : Core) (t : Nat) :
    (settleCore c t).acc = (settleMatrix (settleScalar c t) t).acc ∧ ∃ b, b ≤ t ∧ (settleCore c t).spad = spadRetire c.spad b := by
  unfold settleCore
  extract_lets c1 c2
  have h1 : BanksKept (settleMatrix (settleScalar c t) t) c1 :=
    (((settleVector_banks _ t).trans (settlePushes_banks _ t)).trans (settleFlags_banks _ t)).trans (settleFault_banks _ t)
  have h2 : BanksKept (settleMatrix (settleScalar c t) t) c2 :=
    ((h1.trans (settleRcvd_banks c1 t)).trans (settleRdy_banks _ t)).trans (settleFetches_banks _ t)
  have hspad : c2.spad = c.spad := h2.spad.trans (settleMatrix_spad _ t)
  clear_value c2
  exact ⟨h2.acc, _, (Nat.min_le_right _ _).trans (Nat.sub_le _ _), congrArg (spadRetire · _) hspad⟩

/-! ### Retired writes -/

/-- A write moved into the arrays reads as it read on its way. -/
theorem cellGet_spadApply (sp : Spad) (w : SpadWrite) (a : Nat) (h : cellsWf sp.base = true) :
    cellGet (spadApply sp w).base a = if w.covers a then w.bytes.getD (a - w.addr) 0#8 else cellGet sp.base a := by
  simp only [spadApply, SpadWrite.covers, decide_eq_true_eq]
  split
  case isTrue hcov =>
    obtain ⟨i, rfl⟩ : ∃ i, a = w.addr + i := ⟨a - w.addr, by omega⟩
    rw [Nat.add_sub_cancel_left, cellGet_cellPuts_inside _ _ _ _ h (by omega)]
  case isFalse hcov => exact cellGet_cellPuts_outside _ _ _ _ h (by omega)

theorem cellGet_foldl_spadApply (l : List SpadWrite) (sp : Spad) (cyc a : Nat) (h : cellsWf sp.base = true) (hl : ∀ w ∈ l, w.commit < cyc) :
    cellGet (l.foldl spadApply sp).base a = logByte l cyc a (cellGet sp.base a) := by
  induction l generalizing sp with
  | nil => rfl
  | cons w t ih =>
    rw [List.foldl_cons, ih _ (spadApply_wf sp w h) fun v hv => hl v (List.mem_cons_of_mem w hv), cellGet_spadApply sp w a h]
    simp only [logByte, List.foldl_cons, hl w List.mem_cons_self, decide_true, Bool.true_and]

/-- A log in commit order is its part before a cycle and its part from that cycle on. -/
theorem log_split {l : List SpadWrite} (h : l.Pairwise fun a b => a.commit ≤ b.commit) (b : Nat) :
    l = (l.filter fun w => decide (w.commit < b)) ++ l.filter fun w => decide (b ≤ w.commit) := by
  induction l with
  | nil => rfl
  | cons w t ih =>
    obtain ⟨hw, ht⟩ := List.pairwise_cons.mp h
    by_cases hlt : w.commit < b
    · rw [List.filter_cons_of_pos (by simpa using hlt), List.filter_cons_of_neg (by simpa using hlt), List.cons_append, ← ih ht]
    · have hnone : t.filter (fun w => decide (w.commit < b)) = [] :=
        List.filter_eq_nil_iff.mpr fun v hv => by simpa using (Nat.not_lt.mp hlt).trans (hw v hv)
      have hall : t.filter (fun w => decide (b ≤ w.commit)) = t :=
        List.filter_eq_self.mpr fun v hv => by simpa using (Nat.not_lt.mp hlt).trans (hw v hv)
      rw [List.filter_cons_of_neg (by simpa using hlt), List.filter_cons_of_pos (by simpa using hlt), hnone, hall, List.nil_append]

/-- Retiring the writes that commit before a cycle changes no read from that cycle on. -/
theorem spadByte_spadRetire {sp : Spad} (h : spadOk sp) {b cyc : Nat} (hb : b ≤ cyc) (a : Nat) :
    spadByte (spadRetire sp b) cyc a = spadByte sp cyc a := by
  obtain ⟨hwf, hsorted⟩ := h
  have hearly : ∀ w ∈ sp.log.filter (fun w => decide (w.commit < b)), w.commit < cyc := fun w hw =>
    (of_decide_eq_true (List.mem_filter.mp hw).2).trans_le hb
  have hbase : cellGet (spadRetire sp b).base a = logByte (sp.log.filter fun w => decide (w.commit < b)) cyc a (cellGet sp.base a) :=
    cellGet_foldl_spadApply _ sp cyc a hwf hearly
  rw [spadByte_eq_logByte, hbase, spadByte_eq_logByte, logByte, logByte, logByte]
  conv_rhs => rw [log_split hsorted b, List.foldl_append]
  rfl

theorem spadOk_spadRetire {sp : Spad} (h : spadOk sp) (b : Nat) : spadOk (spadRetire sp b) :=
  ⟨spadRetire_wf sp b h.1, h.2.filter _⟩

theorem spadOk_settleCore {c : Core} (h : spadOk c.spad) (t : Nat) : spadOk (settleCore c t).spad := by
  obtain ⟨-, b, -, hspad⟩ := settleCore_banks c t
  rw [hspad]
  exact spadOk_spadRetire h b

theorem spadByte_settleCore {c : Core} (h : spadOk c.spad) {t cyc : Nat} (ht : t ≤ cyc) (a : Nat) :
    spadByte (settleCore c t).spad cyc a = spadByte c.spad cyc a := by
  obtain ⟨-, b, hb, hspad⟩ := settleCore_banks c t
  rw [hspad]
  exact spadByte_spadRetire h (hb.trans ht) a

/-- SCRATCHPAD_COMMIT (R211, R214). -/
theorem scratchpadCommit_acts (c : CoreId) (s : State) :
    let coming := (s.core c.val).spad.log.filter fun w => decide (s.now ≤ w.commit)
    (coming = [] → exec (.scratchpadCommit c) s = .next s) ∧
    (coming ≠ [] → spadOk (s.core c.val).spad → ∃ t w, exec (.scratchpadCommit c) s = .next t ∧ onlyCore c.val s t ∧ w ∈ coming ∧
      (∀ v ∈ coming, w.commit ≤ v.commit) ∧ t.now = w.commit + 1 ∧ spadOk (t.core c.val).spad ∧
      ∀ cyc a, t.now ≤ cyc → spadByte (t.core c.val).spad cyc a = spadByte (s.core c.val).spad cyc a) := by
  intro coming
  have hdef : exec (.scratchpadCommit c) s = execScratchpadCommit c s := rfl
  refine ⟨fun h => by simp only [hdef, execScratchpadCommit, show (s.core c.val).spad.log.filter _ = [] from h], fun hne hok => ?_⟩
  obtain ⟨w, rest, hw⟩ := List.exists_cons_of_ne_nil hne
  have hsorted : coming.Pairwise fun a b => a.commit ≤ b.commit := hok.2.filter _
  have hmem : w ∈ coming := by rw [hw]; exact List.mem_cons_self
  have hnow : (s.reach (w.commit + 1)).now = w.commit + 1 := by
    have := of_decide_eq_true (List.mem_filter.mp hmem).2
    exact Nat.max_eq_right (by omega)
  have hexec : exec (.scratchpadCommit c) s =
      .next ((s.reach (w.commit + 1)).setCore c.val (settleCore (s.core c.val) (s.reach (w.commit + 1)).now)) := by
    simp only [hdef, execScratchpadCommit, show (s.core c.val).spad.log.filter _ = w :: rest from hw]
  clear_value coming
  refine ⟨_, w, hexec, onlyCore_reach_setCore _ _ _ _, hmem, fun v hv => ?first, (setCore_now _ _ _).trans hnow, ?ok,
    fun cyc a hcyc => ?reads⟩
  case first =>
    rw [hw] at hv hsorted
    rcases List.mem_cons.mp hv with rfl | hv
    · exact Nat.le_refl _
    · exact (List.pairwise_cons.mp hsorted).1 v hv
  case ok =>
    rw [core_setCore_self]
    dsimp only
    exact spadOk_settleCore hok _
  case reads =>
    rw [core_setCore_self]
    rw [setCore_now] at hcyc
    dsimp only
    exact spadByte_settleCore hok hcyc a

end Sys2Proof.Machine
end

section
/-! PROOFS. Matrix results (R78, R105 to R116, R126, R139, R140): what a result cycle leaves in the accumulators. -/

namespace Sys2Proof.Machine

/-! ### Places of entries -/

/-- An entry of a target's output lies at one place of one array. -/
theorem entryPlace_inj {tgt r q r2 q2 : Nat} (htgt : tgt < 7) (hr : r < (shapeOf tgt).1) (hq : q < (shapeOf tgt).2)
    (hr2 : r2 < (shapeOf tgt).1) (hq2 : q2 < (shapeOf tgt).2) (h : entryPlace tgt r q = entryPlace tgt r2 q2) : r = r2 ∧ q = q2 := by
  interval_cases tgt <;> simp only [shapeOf] at hr hq hr2 hq2 <;> simp only [entryPlace, Prod.mk.injEq] at h <;> omega

theorem entryPlace_lt {tgt r q : Nat} (htgt : tgt < 7) (hr : r < (shapeOf tgt).1) (hq : q < (shapeOf tgt).2) :
    (entryPlace tgt r q).2.1 < 64 ∧ (entryPlace tgt r q).2.2 < 8 := by
  interval_cases tgt <;> simp only [shapeOf] at hr hq <;> simp only [entryPlace] <;> omega

/-- A local position of an array lies at one element of one tile. -/
theorem accPlace_inj {n r c n2 r2 c2 : Nat} (hr : r < 64) (hc : c < 8) (hr2 : r2 < 64) (hc2 : c2 < 8)
    (h : accPlace n r c = accPlace n2 r2 c2) : n = n2 ∧ r = r2 ∧ c = c2 := by
  simp only [accPlace, Prod.mk.injEq] at h
  omega

theorem accPlace_lt {n r c : Nat} (hc : c < 8) : (accPlace n r c).2 < 256 := by
  simp only [accPlace]
  omega

/-- The tile and element of an entry. -/
def entryCell (op : MatOp) (rc : Nat × Nat) : Nat × Nat :=
  let p := entryPlace op.tgt rc.1 rc.2
  accPlace p.1 p.2.1 p.2.2

theorem mem_activeEntries (op : MatOp) (rc : Nat × Nat) : rc ∈ activeEntries op ↔
    (rc.1 < (shapeOf op.tgt).1 ∧ op.rows.getLsbD rc.1 = true) ∧ rc.2 < (shapeOf op.tgt).2 ∧ op.cols.getLsbD rc.2 = true := by
  obtain ⟨r, q⟩ := rc
  simp only [activeEntries, List.mem_flatMap, List.mem_map, List.mem_filter, List.mem_range, Prod.mk.injEq]
  constructor
  · rintro ⟨r', hr, q', hq, rfl, rfl⟩
    exact ⟨hr, hq⟩
  · rintro ⟨hr, hq⟩
    exact ⟨r, hr, q, hq, rfl, rfl⟩

theorem entryCell_inj {op : MatOp} (htgt : op.tgt < 7) {x y : Nat × Nat} (hx : x ∈ activeEntries op) (hy : y ∈ activeEntries op)
    (h : entryCell op x = entryCell op y) : x = y := by
  obtain ⟨⟨hxr, -⟩, hxq, -⟩ := (mem_activeEntries op x).mp hx
  obtain ⟨⟨hyr, -⟩, hyq, -⟩ := (mem_activeEntries op y).mp hy
  obtain ⟨hx1, hx2⟩ := entryPlace_lt htgt hxr hxq
  obtain ⟨hy1, hy2⟩ := entryPlace_lt htgt hyr hyq
  obtain ⟨hn, hr, hc⟩ := accPlace_inj hx1 hx2 hy1 hy2 h
  obtain ⟨h1, h2⟩ := entryPlace_inj htgt hxr hxq hyr hyq (Prod.ext hn (Prod.ext hr hc))
  exact Prod.ext h1 h2

theorem entryCell_lt {op : MatOp} (htgt : op.tgt < 7) {x : Nat × Nat} (hx : x ∈ activeEntries op) : (entryCell op x).2 < 256 := by
  obtain ⟨⟨hxr, -⟩, hxq, -⟩ := (mem_activeEntries op x).mp hx
  obtain ⟨-, hx2⟩ := entryPlace_lt htgt hxr hxq
  exact accPlace_lt hx2

/-! ### Elements put into accumulator tiles -/

/-- An element of the tiles of a bank. -/
def bankElem (m : Map (List PWord)) (a e : Nat) : PWord := (mgetD m a blankTile).getD e ⟨0#32, false⟩

theorem accElem_eq_bankElem (c : Core) (a e : Nat) : accElem c a e = bankElem c.acc a e := rfl

/-- Every tile of a bank holds 256 elements. -/
def bankWhole (m : Map (List PWord)) : Prop := ∀ a, (mgetD m a blankTile).length = 256

theorem bankWhole_accPut {m : Map (List PWord)} (h : bankWhole m) (a e : Nat) (v : PWord) : bankWhole (accPut m a e v) := by
  intro b
  by_cases hb : b = a
  · rw [hb, accPut, mgetD_mset_self, List.length_set]
    exact h a
  · rw [accPut, mgetD_mset_ne _ _ _ _ _ hb]
    exact h b

theorem bankElem_accPut_self {m : Map (List PWord)} (h : bankWhole m) (a : Nat) {e : Nat} (he : e < 256) (v : PWord) :
    bankElem (accPut m a e v) a e = v := by
  rw [bankElem, accPut, mgetD_mset_self, List.getD_eq_getElem?_getD, List.getElem?_set_self (by rw [h a]; exact he), Option.getD_some]

theorem bankElem_accPut_ne (m : Map (List PWord)) {a e b f : Nat} (v : PWord) (h : (b, f) ≠ (a, e)) :
    bankElem (accPut m a e v) b f = bankElem m b f := by
  by_cases hb : b = a
  · have hf : e ≠ f := fun hf => h (by rw [hb, hf])
    rw [hb, bankElem, accPut, mgetD_mset_self, List.getD_eq_getElem?_getD, List.getElem?_set_ne hf]
    rfl
  · rw [bankElem, accPut, mgetD_mset_ne _ _ _ _ _ hb]
    rfl

/-- Elements put at the cells of a list of entries. -/
def putEntries {α : Type} (cell : α → Nat × Nat) (val : α → PWord) (l : List α) (m : Map (List PWord)) : Map (List PWord) :=
  l.foldl (fun m x => accPut m (cell x).1 (cell x).2 (val x)) m

section
variable {α : Type} {cell : α → Nat × Nat} {val : α → PWord} {l : List α} {m : Map (List PWord)}

theorem bankElem_putEntries_outside {a e : Nat} (h : ∀ x ∈ l, cell x ≠ (a, e)) : bankElem (putEntries cell val l m) a e = bankElem m a e := by
  induction l generalizing m with
  | nil => rfl
  | cons x t ih =>
    exact (ih fun y hy => h y (List.mem_cons_of_mem x hy)).trans
      (bankElem_accPut_ne m (val x) fun heq => h x List.mem_cons_self heq.symm)

theorem bankElem_putEntries_inside (hm : bankWhole m) (hinj : ∀ x ∈ l, ∀ y ∈ l, cell x = cell y → x = y)
    {x : α} (hx : x ∈ l) (hlt : (cell x).2 < 256) : bankElem (putEntries cell val l m) (cell x).1 (cell x).2 = val x := by
  induction l generalizing m with
  | nil => cases hx
  | cons y t ih =>
    by_cases hxt : x ∈ t
    · exact ih (bankWhole_accPut hm _ _ _) (fun u hu v hv => hinj u (List.mem_cons_of_mem y hu) v (List.mem_cons_of_mem y hv)) hxt
    · obtain rfl : x = y := (List.mem_cons.mp hx).resolve_right hxt
      refine (bankElem_putEntries_outside (l := t) fun u hu heq => hxt ?_).trans (bankElem_accPut_self hm _ hlt _)
      rwa [hinj x hx u (List.mem_cons_of_mem x hu) heq.symm]

end

/-! ### One operation on its way -/

@[simp] theorem stored_acc (k : Core) : (stored k).acc = k.acc := rfl

/-- The one operation of a core, due and not yet applied, is applied when the core settles (R139). -/
theorem settleCore_acc_of_one {k : Core} {op : MatOp} {u : Nat} (hmops : k.mops = [op]) (happlied : op.applied = false) (hdue : op.result ≤ u) :
    (settleCore k u).acc = (applyMat (settleScalar k u) op).acc := by
  have hmops' : (settleScalar k u).mops = [op] := hmops
  have hdue' : matDue [op] op u = true := by
    rw [matDue, decide_eq_true hdue]
    rfl
  rw [(settleCore_banks k u).1]
  show (settleMatrixFrom u (settleScalar k u).mops (settleScalar k u).mops (settleScalar k u)).acc = _
  rw [hmops', settleMatrixFrom, happlied, hdue']
  rfl

/-- The core of a command that stands for the result cycle of the one operation it names. -/
theorem reachDue_one (s : State) (c : CoreId) (d : Nat) : (reachDue s c [d]).now = max s.now d ∧
    (reachDue s c [d]).core c.val = stored (settleCore (s.core c.val) (max s.now d)) := by
  have hdef : reachDue s c [d] = (s.reach (max s.now d)).setCore c.val (settleCore (s.core c.val) (max s.now d)) := rfl
  rw [hdef, setCore_now, core_setCore_self, stored]
  exact ⟨Nat.max_eq_right (Nat.le_max_left _ _), rfl⟩

/-- What an `mmac` puts at an entry: the reduction of R78 from the entry's value, or from zero. -/
def mmacVal (k : Core) (op : MatOp) (rc : Nat × Nat) : PWord :=
  let ff := opFmts op
  let e := entryReaders k op ff.1 ff.2 (sliceLen ff.1 ff.2) rc.1 rc.2
  let o := reduceEntry (accPath ff.1 ff.2 op.da.scaled op.db.scaled) (pathBlock ff.1 ff.2 op.da.scaled op.db.scaled) op.da.k e.a e.b
    e.sa e.sb (if op.clr then ⟨0#32, false⟩ else accElem k (entryCell op rc).1 (entryCell op rc).2)
  ⟨o.acc, o.bad⟩

theorem foldl_fst {α β γ : Type} (f : β → α → β) (g : β × γ → α → γ) (l : List α) (b : β) (c : γ) :
    (l.foldl (fun (p : β × γ) x => (f p.1 x, g p x)) (b, c)).1 = l.foldl f b := by
  induction l generalizing b c with
  | nil => rfl
  | cons x t ih => exact ih _ _

theorem applyMmac_acc (k : Core) {op : MatOp} (hen : op.enabled = true) :
    (applyMmac k op).acc = putEntries (entryCell op) (mmacVal k op) (activeEntries op) k.acc := by
  unfold applyMmac
  simp only [hen, Bool.not_true, Bool.false_eq_true, if_false]
  refine (noteOpReads_banks _ _ _ _ _).acc.trans ?_
  exact foldl_fst (fun m rc => accPut m (entryCell op rc).1 (entryCell op rc).2 (mmacVal k op rc)) _ _ _ _

theorem applyMzero_acc (k : Core) {op : MatOp} (hen : op.enabled = true) :
    (applyMzero k op).acc = putEntries (entryCell op) (fun _ => ⟨0#32, false⟩) (activeEntries op) k.acc := by
  unfold applyMzero
  simp only [hen, Bool.not_true, Bool.false_eq_true, if_false]
  rfl

theorem applyMat_mmac (k : Core) {op : MatOp} (h : op.kind = .mmac) : applyMat k op = applyMmac k op := by simp only [applyMat, h]
theorem applyMat_mzero (k : Core) {op : MatOp} (h : op.kind = .mzero) : applyMat k op = applyMzero k op := by simp only [applyMat, h]
theorem applyMat_mfill (k : Core) {op : MatOp} (h : op.kind = .mfill) : applyMat k op = applyMfill k op := by simp only [applyMat, h]

/-- The cells an accumulating operation writes are those of its active entries. -/
theorem opWrites_of_active {op : MatOp} (hkind : op.kind = .mmac) (hen : op.enabled = true) (a e : Nat) (h : opWrites op a e = false) :
    ∀ x ∈ activeEntries op, entryCell op x ≠ (a, e) := by
  intro x hx heq
  have hmem : opWrites op a e = true := by
    simp only [opWrites, hen, hkind, Bool.true_and, List.any_eq_true, beq_iff_eq]
    exact ⟨x, hx, heq⟩
  rw [hmem] at h
  cases h

theorem mmacResult_acts (c : CoreId) (s : State) (op : MatOp) (hmops : (s.core c.val).mops = [op]) (hkind : op.kind = .mmac)
    (happlied : op.applied = false) (hen : op.enabled = true) (htgt : op.tgt < 7) (hwhole : tilesWhole (s.core c.val)) :
    ∃ t, exec (.mmacResult c) s = .next t ∧ t.now = max s.now op.result ∧
      (∀ r q, r < (shapeOf op.tgt).1 → q < (shapeOf op.tgt).2 → op.rows.getLsbD r = true → op.cols.getLsbD q = true →
        accElem (t.core c.val) (entryCell op (r, q)).1 (entryCell op (r, q)).2 = mmacVal (s.core c.val) op (r, q)) ∧
      (∀ a e, opWrites op a e = false → accElem (t.core c.val) a e = accElem (s.core c.val) a e) := by
  have hexec : exec (.mmacResult c) s = .next (reachDue s c [op.result]) := by
    have hdef : exec (.mmacResult c) s = execMmacResult c s := rfl
    rw [hdef, execMmacResult, hmops, List.filter_cons_of_pos (by simp [hkind])]
    rfl
  obtain ⟨hnow, hcore⟩ := reachDue_one s c op.result
  have hacc : ((reachDue s c [op.result]).core c.val).acc =
      putEntries (entryCell op) (mmacVal (s.core c.val) op) (activeEntries op) (s.core c.val).acc := by
    rw [hcore, stored_acc, settleCore_acc_of_one hmops happlied (Nat.le_max_right _ _), applyMat_mmac _ hkind, applyMmac_acc _ hen]
    rfl
  refine ⟨_, hexec, hnow, fun r q hr hq hrow hcol => ?inside, fun a e h => ?outside⟩
  case inside =>
    have hmem : (r, q) ∈ activeEntries op := (mem_activeEntries op (r, q)).mpr ⟨⟨hr, hrow⟩, hq, hcol⟩
    rw [accElem_eq_bankElem, hacc]
    exact bankElem_putEntries_inside hwhole (fun x hx y hy => entryCell_inj htgt hx hy) hmem (entryCell_lt htgt hmem)
  case outside =>
    rw [accElem_eq_bankElem, hacc]
    exact bankElem_putEntries_outside (opWrites_of_active hkind hen a e h)

theorem mzero_settles (k : Core) (op : MatOp) (u : Nat) (hmops : k.mops = [op]) (hkind : op.kind = .mzero) (happlied : op.applied = false)
    (hen : op.enabled = true) (hdue : op.result ≤ u) (htgt : op.tgt < 7) (hwhole : tilesWhole k) (r q : Nat) (hr : r < (shapeOf op.tgt).1)
    (hq : q < (shapeOf op.tgt).2) (hrow : op.rows.getLsbD r = true) (hcol : op.cols.getLsbD q = true) :
    accElem (settleCore k u) (entryCell op (r, q)).1 (entryCell op (r, q)).2 = ⟨0#32, false⟩ := by
  have hmem : (r, q) ∈ activeEntries op := (mem_activeEntries op (r, q)).mpr ⟨⟨hr, hrow⟩, hq, hcol⟩
  rw [accElem_eq_bankElem, settleCore_acc_of_one hmops happlied hdue, applyMat_mzero _ hkind, applyMzero_acc _ hen]
  exact bankElem_putEntries_inside (val := fun _ => ⟨0#32, false⟩) hwhole (fun x hx y hy => entryCell_inj htgt hx hy) hmem
    (entryCell_lt htgt hmem)

/-! ### `mfill` -/

/-- Tile h of array n as an `mfill` reads it (R126, R140). -/
def fillTile (sp : Spad) (op : MatOp) (n h : Nat) : List PWord :=
  (List.range 256).map fun e => spadWord sp (spillPlace op n (256 * h + e)).2 (spillPlace op n (256 * h + e)).1

/-- Tiles of arrays put one array after the other: those of an array in the list are that array's, whatever came before. -/
theorem mgetD_foldl_fillTile (sp : Spad) (op : MatOp) (l : List Nat) (m : Map (List PWord)) {n h : Nat} (hh : h < 2) :
    mgetD (l.foldl (fun m n => [0, 1].foldl (fun m h => mset m (2 * n + h) (fillTile sp op n h)) m) m) (2 * n + h) blankTile =
      if n ∈ l then fillTile sp op n h else mgetD m (2 * n + h) blankTile := by
  induction l generalizing m with
  | nil => rfl
  | cons j t ih =>
    rw [List.foldl_cons, ih]
    by_cases hnt : n ∈ t
    · rw [if_pos hnt, if_pos (List.mem_cons_of_mem j hnt)]
    · rw [if_neg hnt, List.foldl_cons, List.foldl_cons, List.foldl_nil]
      by_cases hnj : n = j
      · rw [if_pos (by rw [hnj]; exact List.mem_cons_self), hnj]
        obtain rfl | rfl : h = 0 ∨ h = 1 := by omega
        · rw [mgetD_mset_ne _ _ _ _ _ (by omega), mgetD_mset_self]
        · rw [mgetD_mset_self]
      · rw [if_neg (by simp [hnj, hnt]), mgetD_mset_ne _ _ _ _ _ (by omega), mgetD_mset_ne _ _ _ _ _ (by omega)]

theorem applyMfill_acc (k : Core) {op : MatOp} (hen : op.enabled = true) : (applyMfill k op).acc =
    (arraysOf op.tgt).foldl (fun m n => [0, 1].foldl (fun m h => mset m (2 * n + h) (fillTile k.spad op n h)) m) k.acc := by
  unfold applyMfill
  simp only [hen, Bool.not_true, Bool.false_eq_true, if_false]
  rfl

theorem applyMfill_elem (k : Core) {op : MatOp} (hen : op.enabled = true) {n h e : Nat} (hn : n ∈ arraysOf op.tgt) (hh : h < 2) (he : e < 256) :
    bankElem (applyMfill k op).acc (2 * n + h) e =
      spadWord k.spad (spillPlace op n (256 * h + e)).2 (spillPlace op n (256 * h + e)).1 := by
  rw [applyMfill_acc k hen, bankElem, mgetD_foldl_fillTile _ _ _ _ hh, if_pos hn]
  simp [fillTile, he]

theorem mfillResult_acts (c : CoreId) (s : State) (op : MatOp) (hmops : (s.core c.val).mops = [op]) (hkind : op.kind = .mfill)
    (happlied : op.applied = false) (hen : op.enabled = true) :
    ∃ t, exec (.mfillResult c) s = .next t ∧ t.now = max s.now op.result ∧
      ∀ n ∈ arraysOf op.tgt, ∀ h e, h < 2 → e < 256 →
        let a := op.da.base + (if op.tgt < 4 then 0 else 2048 * n) + 4 * (256 * h + e)
        accElem (t.core c.val) (2 * n + h) e = spadWord (s.core c.val).spad (op.issue + 1 + 4 * (256 * h + e) / 64) a := by
  have hexec : exec (.mfillResult c) s = .next (reachDue s c [op.result]) := by
    have hdef : exec (.mfillResult c) s = execMfillResult c s := rfl
    rw [hdef, execMfillResult, hmops, List.filter_cons_of_pos (by simp [hkind])]
    rfl
  obtain ⟨hnow, hcore⟩ := reachDue_one s c op.result
  refine ⟨_, hexec, hnow, fun n hn h e hh he => ?_⟩
  rw [accElem_eq_bankElem, hcore, stored_acc, settleCore_acc_of_one hmops happlied (Nat.le_max_right _ _), applyMat_mfill _ hkind,
    applyMfill_elem _ hen hn hh he]
  rfl

/-- Settles O13: the one operation on its way is applied when its core settles; its entries lie at cells of their own. -/
theorem matrixResultsStand : Obligations.MatrixResultsStand := by
  unfold Obligations.MatrixResultsStand
  exact ⟨fun c s op hm hk ha he ht hw => mmacResult_acts c s op hm hk ha he ht hw,
    fun c s op hm hk ha he => mfillResult_acts c s op hm hk ha he,
    fun k op u hm hk ha he hd ht hw r q hr hq hrow hcol => mzero_settles k op u hm hk ha he hd ht hw r q hr hq hrow hcol⟩

end Sys2Proof.Machine
end

section
/-! PROOFS. What a fence leaves of the list of fenced units (R596 to R600). -/

namespace Sys2Proof.Machine

@[simp] theorem setPart_fenced (s : State) (p : Nat) (k : Partn) : (s.setPart p k).hw.fenced = s.hw.fenced := rfl
@[simp] theorem setQp_fenced (s : State) (q : Nat) (k : Qp) : (s.setQp q k).hw.fenced = s.hw.fenced := rfl
@[simp] theorem updPart_fenced (s : State) (p : Nat) (f : Partn → Partn) : (updPart s p f).hw.fenced = s.hw.fenced := by
  unfold updPart
  split <;> rfl
theorem foldl_fenced {α : Type} {g : State → α → State} (h : ∀ a x, (g a x).hw.fenced = a.hw.fenced) (l : List α) (s : State) :
    (l.foldl g s).hw.fenced = s.hw.fenced := by
  induction l generalizing s with
  | nil => rfl
  | cons x t ih => rw [List.foldl_cons, ih, h]

theorem ite_fenced (p : Prop) [Decidable p] (a b : State) : (if p then a else b).hw.fenced = if p then a.hw.fenced else b.hw.fenced := by
  split <;> rfl

@[simp] theorem breakChannel_fenced (s : State) (core e : Nat) : (breakChannel s core e).hw.fenced = s.hw.fenced := by simp [breakChannel]

@[simp] theorem readBlock_fenced (s : State) (st blk errs : Nat) (scrub : Bool) :
    (readBlock s st blk errs scrub).hw.fenced = s.hw.fenced := by simp [readBlock, ite_fenced]

@[simp] theorem writeBlock_fenced (st off len : Nat) (tarn : Bool) (found : List (Nat × Nat)) (s : State) (blk : Nat) :
    (writeBlock st off len tarn found s blk).hw.fenced = s.hw.fenced := by simp [writeBlock, ite_fenced]

@[simp] theorem burmonWrite_fenced (s : State) (st off : Nat) (bytes : List Byte) (tarn : Bool) (part : Nat) (crcGood : Bool) (found : List (Nat × Nat)) :
    (burmonWrite s st off bytes tarn part crcGood found).1.hw.fenced = s.hw.fenced := by
  unfold burmonWrite
  dsimp only
  repeat' split
  all_goals simp (disch := (intros; simp [ite_fenced])) [foldl_fenced]

@[simp] theorem setPhysFenced_fenced (s : State) (p : Nat) (b : Bool) : (setPhysFenced s p b).hw.fenced = s.hw.fenced := by simp [setPhysFenced]

@[simp] theorem devWrite_fenced (s : State) (a : Nat) (bytes : List Byte) : (devWrite s a bytes).hw.fenced = s.hw.fenced := foldl_fenced (fun _ _ => by dsimp only; split <;> simp) _ _

@[simp] theorem putHeader_fenced (s : State) (b : HostBuf) (ws : List Word) : (putHeader s b ws).hw.fenced = s.hw.fenced := by simp [putHeader]

@[simp] theorem finishCmd_fenced (s : State) (r pos status : Nat) (handle : Word) (res : List Word) :
    (finishCmd s r pos status handle res).hw.fenced = s.hw.fenced := by
  unfold finishCmd
  dsimp only
  repeat' split
  all_goals simp

@[simp] theorem raiseEvent_fenced (s : State) (kind part : Nat) (obj : Word) (ws : List Word) :
    (raiseEvent s kind part obj ws).hw.fenced = s.hw.fenced := by simp [raiseEvent]

@[simp] theorem sbdFlag_fenced (s : State) (m : Word) : (sbdFlag s m).hw.fenced = s.hw.fenced := by simp [sbdFlag]

@[simp] theorem setSbdState_fenced (s : State) (v : Nat) : (setSbdState s v).hw.fenced = s.hw.fenced := by simp [setSbdState]

@[simp] theorem setPortState_fenced (s : State) (p v : Nat) : (setPortState s p v).hw.fenced = s.hw.fenced := by simp [setPortState, ite_fenced]

@[simp] theorem qpFail_fenced (s : State) (q synd : Nat) : (qpFail s q synd).hw.fenced = s.hw.fenced := by
  unfold qpFail
  dsimp only
  repeat' split
  all_goals simp

@[simp] theorem portCount64_fenced (s : State) (p o n : Nat) : (portCount64 s p o n).hw.fenced = s.hw.fenced := by simp [portCount64]

@[simp] theorem putFrame_fenced (s : State) (p len : Nat) : (putFrame s p len).hw.fenced = s.hw.fenced := by simp [putFrame]

@[simp] theorem sendFrame_fenced (s : State) (p prio len : Nat) : (sendFrame s p prio len).hw.fenced = s.hw.fenced := by simp [sendFrame, ite_fenced]

@[simp] theorem portFence_fenced (s : State) (p : Nat) : (portFence s p).hw.fenced = s.hw.fenced := by simp [portFence]

@[simp] theorem qpSend_fenced (s : State) (q bytes ext : Nat) : (qpSend s q bytes ext).hw.fenced = s.hw.fenced := by
  unfold qpSend
  split
  · rfl
  · split
    · rfl
    · dsimp only
      rw [foldl_fenced (fun _ _ => by simp), setQp_fenced]

@[simp] theorem cancelBooked_fenced (s : State) (p : Nat) : (cancelBooked s p).hw.fenced = s.hw.fenced := by simp [cancelBooked]

@[simp] theorem endRequest_fenced (s : State) (p : Nat) (q : Request) (status cause : Nat) (tarn : Bool) :
    (endRequest s p q status cause tarn).hw.fenced = s.hw.fenced := by
  unfold endRequest
  dsimp only
  split
  · simp
  · split <;> simp [ite_fenced]

@[simp] theorem endRequests_fenced (s : State) (p status cause : Nat) : (endRequests s p status cause).hw.fenced = s.hw.fenced := by
  unfold endRequests
  repeat' split
  all_goals simp (disch := (intros; simp [ite_fenced])) [foldl_fenced]

@[simp] theorem abortUnlaunched_fenced (s : State) (p : Nat) (test : Request → Bool) :
    (abortUnlaunched s p test).hw.fenced = s.hw.fenced := by
  unfold abortUnlaunched
  repeat' split
  all_goals simp (disch := (intros; simp [ite_fenced])) [foldl_fenced]

@[simp] theorem breakOn_fenced (s : State) (hit : Nat → Bool) (cause : Nat) : (breakOn s hit cause).hw.fenced = s.hw.fenced := by simp (disch := simp) [breakOn, foldl_fenced]

@[simp] theorem sendAll_fenced (s : State) (l : List (Nat × List Byte)) : (sendAll s l).hw.fenced = s.hw.fenced := by simp (disch := simp) [sendAll, ite_fenced, foldl_fenced]

@[simp] theorem sendJob_fenced (s : State) (p : Nat) (qs : List Nat) (j : JobWords) : (sendJob s p qs j).hw.fenced = s.hw.fenced := by
  unfold sendJob
  split
  · rfl
  · split
    · rfl
    · dsimp only
      rw [sendAll_fenced, foldl_fenced (fun _ _ => by split <;> simp)]

@[simp] theorem originateQuench_fenced (s : State) (p cause : Nat) : (originateQuench s p cause).hw.fenced = s.hw.fenced := by
  unfold originateQuench
  split
  · rfl
  · split <;> simp

@[simp] theorem haltFor_fenced (s : State) (p next : Nat) : (haltFor s p next).hw.fenced = s.hw.fenced := by
  unfold haltFor
  split
  · rfl
  · simp [ite_fenced]

@[simp] theorem endWaiters_fenced (s : State) (p : Nat) (ok : Bool) : (endWaiters s p ok).hw.fenced = s.hw.fenced := by
  unfold endWaiters
  split
  · rfl
  · rw [foldl_fenced (fun _ _ => by simp), setPart_fenced]

@[simp] theorem failPartition_fenced (s : State) (p cause : Nat) : (failPartition s p cause).hw.fenced = s.hw.fenced := by
  unfold failPartition
  split <;> simp

@[simp] theorem startRecovery_fenced (s : State) (p next : Nat) : (startRecovery s p next).hw.fenced = s.hw.fenced := by simp [startRecovery, ite_fenced]

@[simp] theorem quenchHold_fenced (s : State) (p : Nat) : (quenchHold s p).hw.fenced = s.hw.fenced := by
  unfold quenchHold
  simp

@[simp] theorem expel_fenced (s : State) (p : Nat) : (expel s p).hw.fenced = s.hw.fenced := by
  unfold expel
  split
  · rfl
  · split <;> simp

@[simp] theorem moduleFault_fenced (s : State) : (moduleFault s).hw.fenced = s.hw.fenced := by simp (disch := simp) [moduleFault, ite_fenced, foldl_fenced]

@[simp] theorem turnLatch_fenced (s : State) : (turnLatch s).hw.fenced = s.hw.fenced := by simp [turnLatch]

@[simp] theorem fenceEffect_fenced (s : State) (u : Word) (cause part : Nat) :
    (fenceEffect s u cause part).hw.fenced = s.hw.fenced := by
  unfold fenceEffect
  split
  case h_2 => rw [foldl_fenced (fun _ _ => by simp), breakOn_fenced]
  case h_9 => dsimp only; split <;> simp
  case h_1 => split <;> simp
  case h_3 => dsimp only; split <;> simp
  case h_11 => rfl
  all_goals simp [ite_fenced]

@[simp] theorem afterFence_fenced (s : State) (u : Word) (p : Nat) : (afterFence s u p).hw.fenced = s.hw.fenced := by
  unfold afterFence
  dsimp only
  repeat' split
  all_goals simp

/-- A fenced unit stands in the list of fenced units. -/
theorem fenceUnit_fenced (s : State) (u : Word) (cause part pm : Nat) : unitFenced (fenceUnit s u cause part pm) u = true := by
  unfold fenceUnit
  split
  case isTrue h => exact h
  case isFalse h =>
    have hin : ∀ t : State, t.hw.fenced = s.hw.fenced ++ [u] → unitFenced t u = true := fun t ht => by simp [unitFenced, ht]
    apply hin
    dsimp only
    repeat' split
    all_goals simp [raiseEvent]

end Sys2Proof.Machine
end

section
/-! PROOFS. Bank swaps and checkpoints of a section (R283, R586 to R588). -/

namespace Sys2Proof.Machine

theorem fld_bit_le_one (w : Word) (i : Nat) : fld w i i ≤ 1 := by
  have := fld_lt w i i
  simp only [Nat.add_sub_cancel_left] at this
  omega

theorem cReg_cEmit_ne (k : Core) (t : Nat) (r : Rec) {o : Nat} (h : o ≠ rSrcStatus) : cReg (cEmit k t r) o = cReg k o := by
  unfold cEmit
  dsimp only
  repeat' split
  all_goals first | rfl | exact cReg_cCount_ne k _ _ _ _ _ h

/-- BANK_SWAP (R283). -/
theorem bankSwap_acts (c : CoreId) (s : State) :
    let k := s.core c.val
    (k.swapDue = false → exec (.bankSwap c) s = .next s) ∧
    (∀ l, k.swapDue = true → k.launchAt = some l → leads (.bankSwap c) s fun t =>
      onlyCore c.val s t ∧ t.now = max s.now (l + sectEnd k + 64) ∧ (t.core c.val).swapDue = false ∧
      fld (cReg (t.core c.val) rFabTblPer) 16 16 = 1 - fld (cReg k rFabTblPer) 16 16 ∧
      ∀ o, o ≠ rFabTblPer → cReg (t.core c.val) o = cReg k o) := by
  intro k
  have hdef : exec (.bankSwap c) s = execBankSwap c s := rfl
  refine ⟨fun h => ?_, fun l h hl => ?_⟩
  · rw [hdef, execBankSwap, if_pos (by rw [h]; decide)]
  · have hexec : exec (.bankSwap c) s = .next ((s.reach (l + sectEnd k + 64)).setCore c.val (swapBank k)) := by
      rw [hdef, execBankSwap, if_neg (by rw [h]; decide), hl]
      rfl
    refine ⟨_, hexec, onlyCore_reach_setCore _ _ _ _, by simp [State.reach], ?_⟩
    rw [core_setCore_self]
    unfold swapBank
    rw [if_pos h]
    refine ⟨rfl, ?_, fun o ho => ?_⟩
    · change fld (cReg (cFld k _ _ _ _) rFabTblPer) 16 16 = _
      rw [cReg_cFld_self, fld_setFld_self _ _ _ _ (by decide)]
      have := fld_bit_le_one (cReg k rFabTblPer) 16
      omega
    · exact cReg_cFld_ne k _ _ _ _ _ ho

/-- CHECKPOINT (R586, R587). -/
theorem checkpoint_acts (c : CoreId) (s : State) (l : Nat) (hl : (s.core c.val).launchAt = some l) :
    let k := s.core c.val
    let i := fld (cReg k 0x104) 31 16
    ¬ (0 < i ∧ checkCycle k (i - 1) = sectEnd k) → leads (.checkpoint c) s fun t =>
      let k1 := settleCore k (max s.now (l + checkCycle k i))
      t.now = max s.now (l + checkCycle k i) ∧ fld (cReg (t.core c.val) 0x104) 31 16 = (i + 1) % 65536 ∧
      (wordsOfBytes (spadBytes k1.spad t.now (fld (cReg k1 0x100) 21 0 + 32 * i) 28) 7 ≠ checkWords k1 (checkCycle k i == sectEnd k1) →
        bit (cReg (t.core c.val) 0x104) 0 = true) := by
  dsimp only
  intro hmore
  have hdef : exec (.checkpoint c) s = execCheckpoint c s := rfl
  unfold leads
  simp only [hdef, execCheckpoint, hl]
  rw [if_neg hmore]
  refine ⟨_, rfl, ?_⟩
  have hnow : ∀ u, (s.reach u).now = max s.now u := fun _ => rfl
  have hcore : ∀ (u : State) (k2 : Core) (h : Heartwood), ({ u.setCore c.val k2 with hw := h }).core c.val = { k2 with outbox := [], check := false } :=
    fun u k2 _ => core_setCore_self u c.val k2
  simp only [hcore]
  simp only [setCore_now, hnow]
  generalize settleCore (s.core c.val) _ = k1
  generalize hk2 : cFld (noteReads k1 _ _ _) 0x104 31 16 _ = k2
  have hcount : fld (cReg k2 0x104) 31 16 = (fld (cReg (s.core c.val) 0x104) 31 16 + 1) % 65536 := by
    rw [← hk2, cReg_cFld_self]
    exact fld_setFld_self _ _ _ _ (by decide)
  refine ⟨trivial, ?_, fun hne => ?_⟩
  · split
    · exact hcount
    · change fld (cReg (cEmit (cFlag k2 0x104 1#32) _ _) 0x104) 31 16 = _
      rw [cReg_cEmit_ne _ _ _ (by decide), cReg_cFlag_self, fld_or_zero _ _ _ _ (by decide)]
      exact hcount
  · rw [if_neg hne]
    change bit (cReg (cEmit (cFlag k2 0x104 1#32) _ _) 0x104) 0 = _
    rw [cReg_cEmit_ne _ _ _ (by decide)]
    exact bit_cFlag_self k2 0x104 0 (by decide)

/-- Settles O20: the bytes that a commit folds into the scratchpad read as before; a report that comes is compared word by word; a core
that does not answer is fenced. -/
theorem commitsSwapsAndCheckpointsAct : Obligations.CommitsSwapsAndCheckpointsAct := by
  refine ⟨scratchpadCommit_acts, fun c s => ?_⟩
  intro k
  obtain ⟨hidle, hswap⟩ := bankSwap_acts c s
  have hcheck : exec (.checkpoint c) s = execCheckpoint c s := rfl
  have hsilent : exec (.checkpointSilent c) s = execCheckpointSilent c s := rfl
  have htimeout : exec (.silentTimeout c) s = execSilentTimeout c s := rfl
  refine ⟨hidle, hswap, fun hnone => ?_, fun l hl => ⟨fun hlast => ?_, fun hmore => ⟨checkpoint_acts c s l hl hmore, fun hp => ?_⟩⟩,
    fun hp => ?_, fun u hu => ?_⟩
  case refine_1 => simp only [hcheck, hsilent, execCheckpoint, execCheckpointSilent, show (s.core c.val).launchAt = none from hnone, and_self]
  case refine_2 =>
    simp only [hcheck, hsilent, execCheckpoint, execCheckpointSilent, show (s.core c.val).launchAt = some l from hl]
    exact ⟨if_pos hlast, if_pos (Or.inl hlast)⟩
  case refine_3 =>
    unfold leads
    simp only [hsilent, execCheckpointSilent, show (s.core c.val).launchAt = some l from hl]
    rw [if_neg (by rw [hp]; exact fun h => h.elim hmore (by simp))]
    exact ⟨_, rfl, rfl, rfl, mget_mset_self _ _ _, rfl⟩
  case refine_4 => simp only [htimeout, execSilentTimeout, hp]
  case refine_5 =>
    unfold leads
    simp only [htimeout, execSilentTimeout, hu]
    exact ⟨_, rfl, by simp [State.reach], fenceUnit_fenced _ _ _ _ _⟩

end Sys2Proof.Machine
end

section
/-! PROOFS. Reads of registers (R17, R19 to R21, R755). -/

namespace Sys2Proof.Machine

/-! ### A read of a register that holds what it shows -/

/-- What such a read leaves in the map of stored words: the register without its RC bits, where it has any. -/
def readMap (r : RegDef) (m : Map Word) (off : Nat) (w : Word) : Map Word := if r.rc = 0#32 then m else mset m off (regAfterRead r w)

theorem regRaw_readMap_self (r : RegDef) (tbl : List RegDef) (m : Map Word) (off : Nat) :
    regRaw tbl (readMap r m off (regRaw tbl m off)) off = regAfterRead r (regRaw tbl m off) := by
  unfold readMap
  split
  case isTrue h =>
    rw [regAfterRead, h]
    exact BitVec.and_allOnes.symm
  case isFalse h => rw [regRaw_mset_self]

theorem regRaw_readMap_ne (r : RegDef) (tbl : List RegDef) (m : Map Word) (off : Nat) (w : Word) {o : Nat} (h : o ≠ off) :
    regRaw tbl (readMap r m off w) o = regRaw tbl m o := by
  unfold readMap
  split
  · rfl
  · rw [regRaw_mset_ne _ _ _ _ _ h]

theorem coreRead_plain (k : Core) (fr t : Nat) {c : CoreId} {off : Nat} {r : RegDef} (hp : plainOff (.core c) off)
    (hshadow : mget? k.shadow off = none) (hr : regFind coreRegs off = some r) :
    (coreRead k fr t off).1 = regReadVal r (cReg k off) (Config.freeWord fr) ∧
      (coreRead k fr t off).2.regs = readMap r k.regs off (cReg k off) := by
  simp only [plainOff] at hp
  have hbits : coreBits k fr t off = cReg k off := by
    unfold coreBits
    simp (disch := omega) only [outside_range, Bool.false_and, Bool.false_eq_true, if_false, if_neg, decide_eq_true_eq]
  have hpair : corePairLow off = false := by
    simp (disch := omega) only [corePairLow, outside_range, Bool.false_and, Bool.or_false, Bool.or_eq_false_iff, beq_eq_false_iff_ne, ne_eq]
    omega
  unfold coreRead
  simp (disch := omega) only [isSlotWord, hr, hshadow, hbits, hpair, outside_range, Bool.false_and, Bool.false_eq_true, if_false, if_neg,
    true_and]
  unfold readMap
  split <;> rfl

theorem routerRead_plain (k : Router) (fr n : Nat) {i : RouterId} {off : Nat} {r : RegDef} (hp : plainOff (.router i) off)
    (hr : regFind routerRegs off = some r) :
    (routerRead k fr n off).1 = regReadVal r (nReg k off) (Config.freeWord fr) ∧
      (routerRead k fr n off).2.regs = readMap r k.regs off (nReg k off) := by
  simp only [plainOff] at hp
  have hdepth : (decide (0x100 ≤ off ∧ off < 0x200) && off % 0x20 == 0xC) = false := by
    simp only [Bool.and_eq_false_iff, beq_eq_false_iff_ne]
    exact Or.inr hp.2
  unfold routerRead
  simp only [hr, hp.1, hdepth, if_false, Bool.false_eq_true, true_and]
  unfold readMap
  split <;> rfl

theorem stackRead_plain (k : Stack) (fr n : Nat) {i : StackId} {off : Nat} {r : RegDef} (hp : plainOff (.stack i) off)
    (hshadow : mget? k.shadow off = none) (hr : regFind stackRegs off = some r) :
    (stackRead k fr n off).1 = regReadVal r (kReg k off) (Config.freeWord fr) ∧
      (stackRead k fr n off).2.regs = readMap r k.regs off (kReg k off) := by
  simp only [plainOff] at hp
  have hid : ¬ off = 0 := by omega
  have hue : ¬ off = kUeLo := by unfold kUeLo; omega
  unfold stackRead
  simp only [hr, hid, hue, hshadow, if_false, true_and]
  unfold readMap
  split <;> rfl

theorem winRead_plain (s : State) {off : Nat} {r : RegDef} (hp : plainOff .window off) (hshadow : mget? s.winShadow off = none)
    (hr : regFind windowRegs off = some r) :
    (winRead s off).1 = regReadVal r (wReg s off) (Config.freeWord s.free) ∧
      onlySpaceBecomes s (winRead s off).2 .window (readMap r s.win off (wReg s off)) ∧ (winRead s off).2.now = s.now := by
  simp only [plainOff] at hp
  have hbits : winBits s off = wReg s off := by
    have herr : ¬ off = tErr := by unfold tErr; omega
    unfold winBits
    simp (disch := omega) only [outside_range, Bool.false_and, Bool.false_eq_true, if_false, if_neg, herr, false_and]
  have hpair : winPairLow off = false := by
    simp (disch := omega) only [winPairLow, outside_range, Bool.false_and, Bool.or_false, Bool.or_eq_false_iff, beq_eq_false_iff_ne, ne_eq]
    omega
  unfold winRead
  simp (disch := omega) only [hr, hshadow, hbits, hpair, outside_range, Bool.false_eq_true, if_false, true_and]
  unfold readMap
  split
  · exact ⟨win_onlySpace (s.takeFree 1) _, rfl⟩
  · exact ⟨win_onlySpace (s.takeFree 1) _, rfl⟩

theorem sbRead_plain (s : State) {off : Nat} {r : RegDef} (hp : plainOff .sideband off) (hr : regFind sidebandRegs off = some r) :
    (sbRead s off).1 = regReadVal r (sbReg s off) (Config.freeWord s.free) ∧
      onlySpaceBecomes s (sbRead s off).2 .sideband (readMap r s.mod.sbd off (sbReg s off)) ∧ (sbRead s off).2.now = s.now := by
  simp only [plainOff] at hp
  have hbits : sbBits s off = sbReg s off := by
    unfold sbBits
    simp (disch := omega) only [if_neg]
  unfold sbRead
  simp (disch := omega) only [hr, hbits, if_neg, true_and]
  unfold readMap
  split
  · exact ⟨mod_onlySpace (s.takeFree 1) s.mod, rfl⟩
  · exact ⟨mod_onlySpace (s.takeFree 1) { s.mod with sbd := mset s.mod.sbd off (regAfterRead r (sbReg s off)) }, rfl⟩

/-- Such a read gives the register's stored word under its access codes, and takes its RC bits out of it (R20). -/
theorem regRead_plain (s : State) {tgt : RegTarget} {off : Nat} {r : RegDef} (hp : plainOff tgt off) (hs : noShadow s tgt off)
    (hr : regFind (regTable tgt) off = some r) :
    (regRead s tgt off).1 = regReadVal r (storedNow s tgt off) (Config.freeWord s.free) ∧
      onlySpaceBecomes s (regRead s tgt off).2 tgt (readMap r (spaceRegsNow s tgt) off (storedNow s tgt off)) ∧
      (regRead s tgt off).2.now = s.now := by
  cases tgt with
  | core c =>
    obtain ⟨hv, hm⟩ := coreRead_plain (s.coreNow c.val) s.free s.now hp hs hr
    refine ⟨hv, ?_, by simp [regRead]⟩
    have h := setCore_onlySpace s c (coreRead (s.coreNow c.val) s.free s.now off).2
    rw [hm] at h
    exact h
  | router n =>
    obtain ⟨hv, hm⟩ := routerRead_plain (s.router n.val) s.free n.val hp hr
    refine ⟨hv, ?_, by simp [regRead]⟩
    have h := setRouter_onlySpace s n (routerRead (s.router n.val) s.free n.val off).2
    rw [hm] at h
    exact h
  | stack n =>
    obtain ⟨hv, hm⟩ := stackRead_plain (s.stack n.val) s.free n.val hp hs hr
    refine ⟨hv, ?_, by simp [regRead]⟩
    have h := setStack_onlySpace s n (stackRead (s.stack n.val) s.free n.val off).2
    rw [hm] at h
    exact h
  | window => exact winRead_plain s hp hs hr
  | sideband => exact sbRead_plain s hp hr

theorem bit_regReadVal_shown (r : RegDef) (w f : Word) {i : Nat} (h : bit (r.rw ||| r.ro ||| r.w1c ||| r.rc) i = true) :
    bit (regReadVal r w f) i = bit w i := by
  simp only [bit] at h
  simp only [bit, regReadVal, BitVec.getLsbD_or, BitVec.getLsbD_and, BitVec.getLsbD_not] at h ⊢
  simp [h]

theorem bit_regReadVal_wo (r : RegDef) (w f : Word) {i : Nat} (h : bit (r.rw ||| r.ro ||| r.w1c ||| r.rc) i = false) (hw : bit r.wo i = true) :
    bit (regReadVal r w f) i = false := by
  simp only [bit] at h hw
  simp only [bit, regReadVal, BitVec.getLsbD_or, BitVec.getLsbD_and, BitVec.getLsbD_not] at h ⊢
  simp [h, hw]

/-- Bit i of a register that was read, with the bits that the hardware sets in that cycle. -/
theorem bit_afterRead (r : RegDef) (w ev : Word) {i : Nat} (hi : i < 32) :
    bit (regAfterRead r w ||| (ev &&& r.rc)) i = if bit r.rc i then bit ev i else bit w i := by
  simp only [bit, regAfterRead, BitVec.getLsbD_or, BitVec.getLsbD_and, BitVec.getLsbD_not, hi, decide_true, Bool.true_and]
  by_cases hc : r.rc.getLsbD i <;> simp [hc]

theorem rcRead_answers (tgt : RegTarget) (off : Nat) (ev : Word) (s : State) (r : RegDef) (h4 : off % 4 = 0) (hin : inSpace tgt off = true)
    (hp : plainOff tgt off) (hs : noShadow s tgt off) (hr : regFind (regTable tgt) off = some r) :
    ∃ t w, exec (.rcRead tgt off 4 ev) s = .next t ∧ t.reply = some ⟨0, [w]⟩ ∧ t.now = s.now ∧
      (∀ i, i < 32 → (bit (r.rw ||| r.ro ||| r.w1c ||| r.rc) i = true → bit w i = bit (storedNow s tgt off) i) ∧
        (bit (r.rw ||| r.ro ||| r.w1c ||| r.rc) i = false → bit r.wo i = true → bit w i = false) ∧
        bit (storedReg t tgt off) i = (if bit r.rc i then bit ev i else bit (storedNow s tgt off) i)) ∧
      (∀ o, o ≠ off → storedReg t tgt o = storedNow s tgt o) := by
  obtain ⟨hval, hread, hnow⟩ := regRead_plain s hp hs hr
  have hself := (regHard_onlySpace (regRead s tgt off).2 RegDef.rc ev hr).1
  rw [hread.1] at hself
  refine ⟨_, _, congrArg Host.Outcome.next (access_done s _ h4 hin), rfl, ?_, fun i hi => ⟨fun h => ?_, fun h hw => ?_, ?_⟩, fun o ho => ?_⟩
  · rw [answer_now, regHard_now]; exact hnow
  · rw [hval]; exact bit_regReadVal_shown r _ _ h
  · rw [hval]; exact bit_regReadVal_wo r _ _ h hw
  · rw [storedReg_answer, storedReg_eq_regRaw, hself, regRaw_hardSet_self, storedNow_eq_regRaw, regRaw_readMap_self, bit_afterRead r _ ev hi]
  · rw [storedReg_answer, storedReg_eq_regRaw, hself, regRaw_hardSet_ne _ _ _ _ ho, regRaw_readMap_ne _ _ _ _ _ ho, storedNow_eq_regRaw]

/-! ### Device time -/

/-- The row of the low word of device time. -/
def timeLo : RegDef :=
  ⟨"tmb.time.lo", 0x10018, [], 0x00000000#32, 0x00000000#32, 0xFFFFFFFF#32, 0x00000000#32, 0x00000000#32, 0x00000000#32⟩

/-- The row of the upper word. -/
def timeHi : RegDef :=
  ⟨"tmb.time.hi", 0x1001C, [], 0x00000000#32, 0x00000000#32, 0xFFFFFFFF#32, 0x00000000#32, 0x00000000#32, 0x00000000#32⟩

theorem regFind_timeLo : regFind windowRegs 0x10018 = some timeLo := by decide +kernel
theorem regFind_timeHi : regFind windowRegs 0x1001C = some timeHi := by decide +kernel

/-- A read of the low word of device time latches the upper one, whatever device time is by the next read (R21, R430). -/
theorem wideReadLatch_latches (s : State) (hn : mget? s.winShadow 0x10018 = none) :
    (∃ t, exec (.wideReadLatch .window 0x10018 4) s = .next t ∧ t.reply = some ⟨0, [BitVec.ofNat 32 s.now]⟩ ∧
      mget? t.winShadow 0x1001C = some (BitVec.ofNat 32 (s.now / 4294967296)) ∧ t.win = s.win ∧ t.cores = s.cores) ∧
    ∀ v, mget? s.winShadow 0x1001C = some v → mkeysRising s.winShadow = true →
      ∃ t, exec (.wideReadLatch .window 0x1001C 4) s = .next t ∧ t.reply = some ⟨0, [v]⟩ ∧ mget? t.winShadow 0x1001C = none ∧ t.win = s.win := by
  have hshown : ∀ w f : Word, regReadVal timeLo w f = w ∧ regReadVal timeHi w f = w := fun w f => by
    constructor <;> simp [regReadVal, timeLo, timeHi] <;> exact BitVec.and_allOnes
  refine ⟨?_, fun v hv hrise => ?_⟩
  · have hread : winRead s 0x10018 = (regReadVal timeLo (winBits s 0x10018) (Config.freeWord s.free),
        { s.takeFree 1 with winShadow := mset s.winShadow 0x1001C (winBits s 0x1001C) }) := by
      unfold winRead
      rw [regFind_timeLo, if_neg (by decide)]
      simp only [hn]
      rfl
    refine ⟨_, congrArg Host.Outcome.next (access_done s _ (by decide) (by decide)), ?_⟩
    simp only [regRead, hread]
    refine ⟨congrArg (fun w => some (Reply.mk 0 [w])) (hshown _ _).1, ?_, rfl, rfl⟩
    exact mget_mset_self _ _ _
  · have hread : winRead s 0x1001C = (regReadVal timeHi v (Config.freeWord s.free),
        { s.takeFree 1 with winShadow := merase s.winShadow 0x1001C }) := by
      unfold winRead
      rw [regFind_timeHi, if_neg (by decide)]
      simp only [hv]
      rfl
    refine ⟨_, congrArg Host.Outcome.next (access_done s _ (by decide) (by decide)), ?_⟩
    simp only [regRead, hread]
    refine ⟨congrArg (fun w => some (Reply.mk 0 [w])) (hshown _ _).2, ?_, rfl⟩
    exact mget_merase_self _ _ hrise

/-! ### Offsets that hold no register -/

/-- Where no row is found, an array of registers of the table does not reach. -/
theorem no_match_of_not_found {tbl : List RegDef} {off : Nat} (h : regFind tbl off = none) {b : Nat} {dims : List (Nat × Nat)}
    (hrow : ∃ r ∈ tbl, r.base = b ∧ r.dims = dims) (hb : b ≤ off) : regMatch dims (off - b) ≠ true := by
  obtain ⟨r, hr, rfl, rfl⟩ := hrow
  simpa [hb] using List.find?_eq_none.mp h r hr

theorem regMatch_one {n st d : Nat} : regMatch [(n, st)] d = true ↔ d % st = 0 ∧ d / st < n := by
  simp [regMatch]

theorem onlySpaceBecomes_takeFree {s t : State} {tgt : RegTarget} {m : Map Word} (h : onlySpaceBecomes s t tgt m) (n : Nat) :
    onlySpaceBecomes s (t.takeFree n) tgt m := by
  obtain ⟨hself, hother⟩ := h
  have hregs : ∀ tgt2, spaceRegs (t.takeFree n) tgt2 = spaceRegs t tgt2 := fun tgt2 => by cases tgt2 <;> rfl
  exact ⟨(hregs tgt).trans hself, fun tgt2 hne => (hregs tgt2).trans (hother tgt2 hne)⟩

/-- A read where no register is gives zero and leaves every space as it stands. -/
theorem regRead_none (s : State) {tgt : RegTarget} {off : Nat} (hr : regFind (regTable tgt) off = none)
    (hcore : ∀ c, tgt = .core c → off < 0x10000) (hside : tgt = .sideband → off < 0x100)
    (hclk : tgt = .window → ¬ (0x10100 ≤ off ∧ off < 0x10300)) :
    (regRead s tgt off).1 = 0#32 ∧ onlySpaceBecomes s (regRead s tgt off).2 tgt (spaceRegsNow s tgt) := by
  cases tgt with
  | core c =>
    have := hcore c rfl
    have hslot : isSlotWord off = false := outside_range (by omega)
    simp only [regTable] at hr
    simp only [regRead, coreRead, hslot, hr, Bool.false_eq_true, if_false, true_and]
    exact onlySpaceBecomes_takeFree (setCore_onlySpace s c (s.coreNow c.val)) 1
  | router n =>
    simp only [regTable] at hr
    simp only [regRead, routerRead, hr, true_and]
    exact onlySpaceBecomes_takeFree (setRouter_onlySpace s n (s.router n.val)) 1
  | stack n =>
    simp only [regTable] at hr
    simp only [regRead, stackRead, hr, true_and]
    exact onlySpaceBecomes_takeFree (setStack_onlySpace s n (s.stack n.val)) 1
  | window =>
    simp only [regTable] at hr
    simp only [regRead, winRead, hr, decide_eq_false (hclk rfl), Bool.false_eq_true, if_false, true_and]
    exact ⟨rfl, fun _ _ => rfl⟩
  | sideband =>
    have := hside rfl
    simp only [regTable] at hr
    simp (disch := omega) only [regRead, sbRead, hr, if_neg, true_and]
    exact ⟨rfl, fun _ _ => rfl⟩

/-- Every offset of the window at which a write starts something has a row. -/
theorem winWrite_none (s : State) {off : Nat} (val : Word) (h4 : off % 4 = 0) (hclk : ¬ (0x10100 ≤ off ∧ off < 0x10300))
    (hr : regFind windowRegs off = none) : winWrite s off val = s := by
  have hno (b n st : Nat) (hrow : ∃ r ∈ windowRegs, r.base = b ∧ r.dims = [(n, st)]) (hb : b ≤ off) :
      ¬ ((off - b) % st = 0 ∧ (off - b) / st < n) := fun h => no_match_of_not_found hr hrow hb (regMatch_one.mpr h)
  have hgo : ¬ off = brgGo := by rintro rfl; exact absurd hr (by decide +kernel)
  have hsnap : ¬ off = 0x10020 := by rintro rfl; exact absurd hr (by decide +kernel)
  have hplain : winPlain s off val = s := by
    unfold winPlain
    split
    case isTrue h =>
      simp only [Bool.and_eq_true, decide_eq_true_eq, beq_iff_eq] at h
      have := hno 0x20000 8 1024 (by decide +kernel) h.1.1
      omega
    case isFalse => rw [hr]
  unfold winWrite
  rw [if_neg hgo, if_neg hsnap, if_neg hclk]
  split
  case isTrue h =>
    have hvset := hno 0x40000 48 256 (by decide +kernel) h.1
    have hrail := fun hb => hno 0x40004 48 256 (by decide +kernel) hb
    have hthr := fun hb => hno 0x40034 48 256 (by decide +kernel) hb
    unfold rgnWrite
    rw [if_neg (by omega), if_neg (by omega), if_neg (by omega), show rg ((off - 0x40000) / 256) ((off - 0x40000) % 256) = off by unfold rg; omega]
    exact hplain
  case isFalse =>
    split
    case isTrue h =>
      have htail := hno 0x100000 16384 16 (by decide +kernel) h.1
      have hchead := fun hb => hno 0x100004 16384 16 (by decide +kernel) hb
      rw [if_neg (by omega), if_neg (by omega)]
    case isFalse => exact hplain

theorem regWrite_none (s : State) {tgt : RegTarget} {off : Nat} (val : Word) (h4 : off % 4 = 0) (hr : regFind (regTable tgt) off = none)
    (hcore : ∀ c, tgt = .core c → off < 0x10000) (hclk : tgt = .window → ¬ (0x10100 ≤ off ∧ off < 0x10300)) :
    regWrite s tgt off val = s := by
  cases tgt with
  | core c =>
    have := hcore c rfl
    have hslot : isSlotWord off = false := outside_range (by omega)
    simp only [regTable] at hr
    simp only [regWrite, coreWrite, hslot, hr, Bool.false_eq_true, if_false]
  | router n =>
    simp only [regTable] at hr
    simp only [regWrite, routerWrite, hr]
  | stack n =>
    simp only [regTable] at hr
    simp only [regWrite, stackWrite, hr]
  | window => exact winWrite_none s val h4 (hclk rfl) hr
  | sideband =>
    simp only [regTable] at hr
    have hctl : ¬ off = 0x10 := by rintro rfl; exact absurd hr (by decide)
    have hbudget : ¬ off = 0x14 := by rintro rfl; exact absurd hr (by decide)
    simp only [regWrite, sbWrite, hr, hctl, hbudget, if_false]

/-- The hardware sets no bit where no register is. -/
theorem regHard_none (s : State) {tgt : RegTarget} {off : Nat} (pick : RegDef → Word) (ev : Word) (hr : regFind (regTable tgt) off = none)
    (tgt2 : RegTarget) : spaceRegs (regHard s tgt off pick ev) tgt2 = spaceRegs s tgt2 := by
  have hkeep (t : State) (h : onlySpaceBecomes s t tgt (spaceRegs s tgt)) : spaceRegs t tgt2 = spaceRegs s tgt2 := by
    by_cases he : tgt2 = tgt
    · rw [he, h.1]
    · exact h.2 tgt2 he
  apply hkeep
  cases tgt with
  | core c => simp only [regTable] at hr; simp only [regHard, hr]; exact setCore_onlySpace s c _
  | router n => simp only [regTable] at hr; simp only [regHard, hr]; exact setRouter_onlySpace s n _
  | stack n => simp only [regTable] at hr; simp only [regHard, hr]; exact setStack_onlySpace s n _
  | window => simp only [regTable] at hr; simp only [regHard, hr]; exact win_onlySpace s _
  | sideband => simp only [regTable] at hr; simp only [regHard, hr]; exact mod_onlySpace s _

/-- Settles O9: a read goes through the one row that its offset names, or through none. -/
theorem registerReadsAnswer : Obligations.RegisterReadsAnswer := by
  refine ⟨rcRead_answers, wideReadLatch_latches, fun tgt off val hw s h4 hin hr hcore hside hclk => ⟨?_, ?_⟩⟩
  · obtain ⟨hval, hself, hother⟩ := regRead_none s hr hcore hside hclk
    refine ⟨_, congrArg Host.Outcome.next (access_done s _ h4 hin), congrArg (fun w => some (Reply.mk 0 [w])) hval, fun tgt2 o => ?_⟩
    rw [storedReg_answer, storedReg_eq_regRaw]
    split
    case isTrue he => rw [he, hself, storedNow_eq_regRaw]
    case isFalse he => rw [hother tgt2 he, storedReg_eq_regRaw]
  · refine ⟨_, congrArg Host.Outcome.next (access_done s _ h4 hin), rfl, fun tgt2 o => ?_⟩
    rw [storedReg_answer, storedReg_eq_regRaw, regHard_none _ _ _ hr, regWrite_none s val h4 hr hcore hclk, storedReg_eq_regRaw]

end Sys2Proof.Machine
end

section
/-! PROOFS. Messages of channels (R302 to R310): what a message stores where no cycle has passed. -/

namespace Sys2Proof.Machine

/-- A core with a receiving end in the middle of a message that it has accepted. Its scratchpad answers in the cycle of a request: the
field of R206 that gives L is 0. -/
def hastyCore : Core :=
  { Core.reset with
    regs := [(rSpdCfg, 0#32), (epReg 0 epCfg, BitVec.ofNat 32 roleRecv)]
    eps := [(0, { Endpoint.blank with rx := some ⟨pcOk, 1, 1, 0#32, 0#32, 0#32, none, 0, 0, 0, false⟩ })] }

/-- The device in cycle 0 with that core. -/
def hastyState : State := { State.reset with cores := [(0, hastyCore)] }

/-- The last packet of the message, with one byte. -/
def lastPiece : Packet := { Packet.blank with payload := List.replicate 16 0#8 ++ [1#8] }

/-- Refutes O22: the commit cycle n + L - 1 of a write is cycle 0 where n and L are 0, and no read in cycle 0 finds it. -/
theorem not_channelsCarryMessages : ¬ Obligations.ChannelsCarryMessages := by
  rintro ⟨-, hmessage, -⟩
  obtain ⟨t, ht, -, haccepted⟩ := hmessage 0 lastPiece hastyState
  obtain rfl : takeMessage (hastyState.takeNet lastPiece) 0 lastPiece = t := Host.Outcome.next.inj ht
  obtain ⟨-, hstored, -⟩ := haccepted 0 (by decide +kernel)
  obtain ⟨-, -, hbytes⟩ := hstored (by decide +kernel) (by decide +kernel)
  exact absurd (hbytes 0 0 (by decide +kernel) (by decide +kernel) (by decide +kernel)) (by decide +kernel)

end Sys2Proof.Machine
end

section
/-! PROOFS. Packets in the routers of the service network (R346 to R357, R373). -/

namespace Sys2Proof.Machine

/-! ### Registers and buffers of a router -/

theorem nReg_nWrap_self (k : Router) (o n : Nat) : nReg (nWrap k o n) o = nReg k o + BitVec.ofNat 32 n := regRaw_mset_self _ _ _ _

theorem nReg_nWrap_ne (k : Router) (o n : Nat) {p : Nat} (h : p ≠ o) : nReg (nWrap k o n) p = nReg k p := regRaw_mset_ne _ _ _ _ _ h

theorem nReg_nFlag_self (k : Router) (m : Word) : nReg (nFlag k m) nStatus = nReg k nStatus ||| m := regRaw_mset_self _ _ _ _

theorem nPort_ne {p j i : Nat} (h : j ≠ i) : nPort p j ≠ nPort p i := by unfold nPort; omega

/-- A router with one buffer replaced, and credits on their way back. -/
def withBuffer (s : State) (r key : Nat) (bs : List BufPkt) (cs : List CreditBack) : State :=
  { s.setRouter r { s.router r with bufs := mset (s.router r).bufs key bs } with credits := cs }

theorem withBuffer_router_self (s : State) (r key : Nat) (bs : List BufPkt) (cs : List CreditBack) :
    (withBuffer s r key bs cs).router r = { s.router r with bufs := mset (s.router r).bufs key bs } := router_setRouter_self s r _

theorem withBuffer_router_ne (s : State) (r key : Nat) (bs : List BufPkt) (cs : List CreditBack) {q : Nat} (h : q ≠ r) :
    (withBuffer s r key bs cs).router q = s.router q := router_setRouter_ne s r q _ h

/-- The head of a buffer taken out leaves one packet fewer. -/
theorem popHead_eq (s : State) (r key : Nat) {h : BufPkt} {rest : List BufPkt} (hbuf : mgetD (s.router r).bufs key [] = h :: rest) :
    ∃ bs cs, bs.length = rest.length ∧ popHead s r key = withBuffer s r key bs cs := by
  unfold popHead
  simp only [hbuf]
  cases rest with
  | nil =>
    split
    · exact ⟨_, _, rfl, rfl⟩
    · exact ⟨_, s.credits, rfl, rfl⟩
  | cons g t =>
    split
    · exact ⟨{ g with since := s.now } :: t, _, rfl, rfl⟩
    · exact ⟨{ g with since := s.now } :: t, s.credits, rfl, rfl⟩

/-- A branch done changes one buffer at most. -/
theorem doneBranch_eq (s : State) (r key out : Nat) : doneBranch s r key out = s ∨ ∃ bs cs, doneBranch s r key out = withBuffer s r key bs cs := by
  unfold doneBranch
  dsimp only
  split
  case h_1 => exact Or.inl rfl
  case h_2 h rest hbuf =>
    split
    · obtain ⟨bs, cs, -, hpop⟩ := popHead_eq s r key hbuf
      exact Or.inr ⟨bs, cs, hpop⟩
    · exact Or.inr ⟨_, s.credits, rfl⟩

theorem doneBranch_effect (s : State) (r key out : Nat) :
    (doneBranch s r key out).net = s.net ∧ (∀ q, q ≠ r → (doneBranch s r key out).router q = s.router q) ∧
      ((doneBranch s r key out).router r).regs = (s.router r).regs := by
  rcases doneBranch_eq s r key out with h | ⟨bs, cs, h⟩
  · rw [h]; exact ⟨rfl, fun _ _ => rfl, rfl⟩
  · rw [h, withBuffer_router_self]
    exact ⟨rfl, fun q hq => withBuffer_router_ne s r key bs cs hq, rfl⟩

/-! ### The packet that an output chooses -/

theorem headsFor_mem {k : Router} {out : Nat} {c : Nat × BufPkt} (h : c ∈ headsFor k out) :
    ∃ rest, mgetD k.bufs c.1 [] = c.2 :: rest := by
  obtain ⟨key, -, hkey⟩ := List.mem_filterMap.mp h
  split at hkey
  case h_1 b hb =>
    split at hkey
    · cases hkey
      exact List.head?_eq_some_iff.mp hb
    · cases hkey
  case h_2 => cases hkey

theorem chooseHead_mem {k : Router} {r out : Nat} {c : Nat × BufPkt} (h : chooseHead k r out = some c) :
    c ∈ headsFor k out ∧ holdsCredits k r c.1 out c.2.pkt = true := by
  have hfold : ∀ (l : List (Nat × BufPkt)) (score : Nat × BufPkt → Nat) (b : Option (Nat × BufPkt)) (d : Nat × BufPkt),
      l.foldl (fun b c => match b with
        | none => some c
        | some d => if score c < score d then some c else b) b = some d → d ∈ l ∨ b = some d := by
    intro l score
    induction l with
    | nil => exact fun b d h => Or.inr h
    | cons x t ih =>
      intro b d hd
      rw [List.foldl_cons] at hd
      rcases ih _ d hd with hin | hx
      · exact Or.inl (List.mem_cons_of_mem x hin)
      · split at hx
        · cases hx; exact Or.inl List.mem_cons_self
        · split at hx
          · cases hx; exact Or.inl List.mem_cons_self
          · exact Or.inr hx
  have hmem := (hfold _ _ _ _ h).resolve_right (by simp)
  exact List.mem_filter.mp hmem

/-! ### A packet put into a buffer -/

theorem branchesOf_single {k : Router} {r : Nat} {p : Packet} (h : p.dkind ≠ 3#2) : ∃ q, branchesOf k r p = ([q], []) := by
  unfold branchesOf
  rw [if_neg h]
  split
  · exact ⟨_, rfl⟩
  · exact ⟨_, rfl⟩

theorem noteDepth_bufs (k : Router) (p v : Nat) : (noteDepth k p v).bufs = k.bufs := rfl

/-- A packet of no group joins the input buffer of its port and channel, whatever credits it took (R347). -/
theorem enterRouter_joins (s : State) (r inp : Nat) (p : Packet) (res : Nat) (up : Option (Nat × Nat)) (h : p.dkind ≠ 3#2) :
    (enterRouter s r inp p res up).net = s.net ∧ (∀ q, q ≠ r → (enterRouter s r inp p res up).router q = s.router q) ∧
      ∃ b, mgetD ((enterRouter s r inp p res up).router r).bufs (8 * inp + vcOf p p.dl) [] =
        mgetD (s.router r).bufs (8 * inp + vcOf p p.dl) [] ++ [b] ∧ b.pkt = p := by
  obtain ⟨out, hout⟩ := branchesOf_single (k := s.router r) (r := r) h
  have hgroup : (p.dkind == 3#2) = false := beq_eq_false_iff_ne.mpr h
  unfold enterRouter
  simp only [hgroup, Bool.false_and, Bool.false_eq_true, if_false, hout, List.isEmpty_cons]
  refine ⟨rfl, fun q hq => router_setRouter_ne s r q _ hq, ⟨p, [out], [], res, s.now, up⟩, ?_, rfl⟩
  rw [router_setRouter_self, noteDepth_bufs, mgetD_mset_self]

/-- A packet sent over a link counts at its output and joins the next router's buffer (R349, R350, R373). -/
theorem sendOver_joins (s : State) (r inp out : Nat) (p : Packet) {e : Nat × Nat} (he : linkEnd r out = some e) (hne : e.1 ≠ r)
    (hk : p.dkind ≠ 3#2) {c : Nat × Nat} (hc : creditsFor (s.router r) out (vcOf p (nextDl r inp out p.dl)) p = some c) :
    let q : Packet := { p with dl := nextDl r inp out p.dl, hops := p.hops + 1#6 }
    let t := sendOver s r inp out p
    t.net = s.net ∧ nReg (t.router r) (nPort out 0) = nReg (s.router r) (nPort out 0) + 1#32 ∧ (t.router r).bufs = (s.router r).bufs ∧
      ∃ b, mgetD (t.router e.1).bufs (8 * e.2 + vcOf q q.dl) [] = mgetD (s.router e.1).bufs (8 * e.2 + vcOf q q.dl) [] ++ [b] ∧ b.pkt = q := by
  intro q t
  obtain ⟨k2, ht, hreg, hbufs⟩ : ∃ k2 : Router, t = enterRouter (s.setRouter r k2) e.1 e.2 q c.2 (some (r, out)) ∧
      nReg k2 (nPort out 0) = nReg (s.router r) (nPort out 0) + 1#32 ∧ k2.bufs = (s.router r).bufs := by
    let v := 8 * out + vcOf p (nextDl r inp out p.dl)
    let u := mgetD (s.router r).used v (0, 0)
    refine ⟨nWrap (nWrap { s.router r with used := mset (s.router r).used v (u.1 + c.1, u.2 + c.2) } (nPort out 0) 1) (nPort out 4) (flitsOf p),
      ?_, ?_, rfl⟩
    · show sendOver s r inp out p = _
      unfold sendOver
      simp only [he, hc]
      rfl
    · rw [nReg_nWrap_ne _ _ _ (nPort_ne (by decide)), nReg_nWrap_self]
      rfl
  obtain ⟨hnet, hother, b, hb, hpkt⟩ := enterRouter_joins (s.setRouter r k2) e.1 e.2 q c.2 (some (r, out)) hk
  rw [ht]
  refine ⟨hnet, ?_, ?_, b, ?_, hpkt⟩
  · rw [hother r hne.symm, router_setRouter_self]
    exact hreg
  · rw [hother r hne.symm, router_setRouter_self]
    exact hbufs
  · rw [hb, router_setRouter_ne s r e.1 _ hne]

/-! ### Ingress and outputs -/

/-- The checks of a stamped packet hold: its header is sealed as it stands. -/
theorem hcrcOk_stampPacket (p : Packet) : hcrcOk (stampPacket p) = true := beq_self_eq_true _

theorem packetIngress_acts (r : RouterId) (p : Packet) (s : State) :
    let k := s.router r.val
    let f := fillDest s k { p with part := if p.skind then p.part else BitVec.ofNat 12 (fld (nReg k nRegion) 17 6) }
    let inp := if isRim r.val && f.1.sep == 1 then 5 else 4
    let q := stampPacket f.1
    leads (.packetIngress r p) s fun t =>
      (f.2 ≠ stOk → t.net = (s.takeNet p).net ++ refuse f.1 f.2) ∧
      (f.2 = stUnreach → bit (nReg (t.router r.val) nStatus) 5 = true) ∧
      (f.2 = stOk → q.dkind ≠ 3#2 → bufDepth k (8 * inp + vcOf q false) + flitsOf q ≤ 18 → t.net = (s.takeNet p).net ∧
        hcrcOk q = true ∧ q.hops = 0#6 ∧
        ∃ b, mgetD (t.router r.val).bufs (8 * inp + vcOf q false) [] = mgetD k.bufs (8 * inp + vcOf q false) [] ++ [b] ∧ b.pkt = q) := by
  intro k f inp q
  refine ⟨ingress s r.val p, rfl, fun hbad => ?_, fun hbad => ?_, fun hok hkind hroom => ?_⟩
  · unfold ingress
    exact congrArg State.net (if_pos hbad)
  · have hne : f.2 ≠ stOk := by rw [hbad]; decide
    have ht : ingress s r.val p = { (s.takeNet p).setRouter r.val (nFlag k nfUnreach) with net := (s.takeNet p).net ++ refuse f.1 f.2 } := by
      unfold ingress
      refine (if_pos hne).trans ?_
      rw [if_pos hbad]
    rw [ht]
    refine (congrArg (fun k2 => bit (nReg k2 nStatus) 5) (router_setRouter_self (s.takeNet p) r.val (nFlag k nfUnreach))).trans ?_
    rw [nReg_nFlag_self, bit_or]
    exact Bool.or_eq_true_iff.mpr (Or.inr (by decide))
  · have hfits : bufDepth k (8 * inp + vcOf q false) + flitsOf q ≤ 18 + if q.bar && q.cls == 2 then 8 else 0 := Nat.le_add_right_of_le hroom
    have ht : ingress s r.val p = enterRouter (s.takeNet p) r.val inp q 0 none := by
      unfold ingress
      refine (if_neg (not_not_intro hok)).trans ?_
      exact if_pos hfits
    obtain ⟨hnet, -, hbuf⟩ := enterRouter_joins (s.takeNet p) r.val inp q 0 none hkind
    rw [ht]
    exact ⟨hnet, hcrcOk_stampPacket f.1, rfl, hbuf⟩

theorem dropHead_effect (s : State) (r key : Nat) {b : BufPkt} {rest : List BufPkt} (hbuf : mgetD (s.router r).bufs key [] = b :: rest) :
    let t := dropHead s r key nfHdrop
    t.net = s.net ∧ bit (nReg (t.router r) nStatus) 2 = true ∧ t.records = s.records ++ [⟨.hopsDrop, r, []⟩] ∧
      (mgetD (t.router r).bufs key []).length + 1 = (mgetD (s.router r).bufs key []).length := by
  intro t
  obtain ⟨bs, cs, hlen, hpop⟩ := popHead_eq (s.setRouter r (nFlag (s.router r) nfHdrop)) r key (h := b) (rest := rest)
    (by rw [router_setRouter_self]; exact hbuf)
  have ht : t = (withBuffer (s.setRouter r (nFlag (s.router r) nfHdrop)) r key bs cs).record ⟨.hopsDrop, r, []⟩ := congrArg (State.record · _) hpop
  have hrouter : t.router r = { nFlag (s.router r) nfHdrop with bufs := mset (s.router r).bufs key bs } := by
    rw [ht]
    refine (withBuffer_router_self _ r key bs cs).trans ?_
    rw [router_setRouter_self]
    rfl
  refine ⟨by rw [ht]; rfl, ?_, by rw [ht]; rfl, ?_⟩
  · rw [hrouter]
    refine (congrArg (bit · 2) (nReg_nFlag_self (s.router r) nfHdrop)).trans ?_
    rw [bit_or]
    exact Bool.or_eq_true_iff.mpr (Or.inr (by decide))
  · rw [hrouter, hbuf, List.length_cons]
    exact congrArg (· + 1) ((congrArg List.length (mgetD_mset_self _ _ _ _)).trans hlen)

/-- What an output does with the packet it chose, where no MISSED waits and no parity error was found (R347, R350). -/
theorem forward_chosen (s : State) (r out : Nat) {c : Nat × BufPkt} (hc : chooseHead (s.router r) r out = some c)
    (hm : missedFor (s.router r) out = none) :
    forward s r out 0 = if c.2.pkt.hops = 63#6 then dropHead s r c.1 nfHdrop else sendHead s r c.1 out c.2 := by
  unfold forward
  simp [hc, hm]

theorem setLast_router (s : State) (r q : Nat) (l : Map Nat) :
    (s.setRouter r { s.router r with last := l }).net = s.net ∧
      ((s.setRouter r { s.router r with last := l }).router q).regs = (s.router q).regs ∧
      ((s.setRouter r { s.router r with last := l }).router q).bufs = (s.router q).bufs := by
  by_cases h : q = r
  · rw [h, router_setRouter_self]; exact ⟨rfl, rfl, rfl⟩
  · rw [router_setRouter_ne _ _ _ _ h]; exact ⟨rfl, rfl, rfl⟩

/-- What follows the sending of a head: the packet leaves its buffer with its last branch. -/
theorem sendHead_rest (s0 : State) (r key out : Nat) :
    let t := doneBranch (s0.setRouter r { s0.router r with last := mset (s0.router r).last out key }) r key out
    t.net = s0.net ∧ (t.router r).regs = (s0.router r).regs ∧ ∀ q, q ≠ r → (t.router q).bufs = (s0.router q).bufs := by
  intro t
  obtain ⟨hnet, hother, hregs⟩ := doneBranch_effect (s0.setRouter r { s0.router r with last := mset (s0.router r).last out key }) r key out
  exact ⟨hnet, hregs.trans (setLast_router s0 r r _).2.1, fun q hq => (congrArg Router.bufs (hother q hq)).trans (setLast_router s0 r q _).2.2⟩

theorem packetForward_acts (r : RouterId) (out : Fin 8) (s : State) :
    let k := s.router r.val
    (headsFor k out.val = [] → missedFor k out.val = none → exec (.packetForward r out 0) s = .next s) ∧
    (headsFor k out.val ≠ [] → chooseHead k r.val out.val = none → missedFor k out.val = none → leads (.packetForward r out 0) s fun t =>
      t.net = s.net ∧ (t.router r.val).bufs = k.bufs ∧ nReg (t.router r.val) (nPort out.val 8) = nReg k (nPort out.val 8) + 1#32) ∧
    ∀ c, chooseHead k r.val out.val = some c → missedFor k out.val = none →
      (c.2.pkt.hops = 63#6 → leads (.packetForward r out 0) s fun t => t.net = s.net ∧ bit (nReg (t.router r.val) nStatus) 2 = true ∧
        t.records = s.records ++ [⟨.hopsDrop, r.val, []⟩] ∧ (mgetD (t.router r.val).bufs c.1 []).length + 1 = (mgetD k.bufs c.1 []).length) ∧
      (c.2.pkt.hops ≠ 63#6 → linkEnd r.val out.val = none → c.2.pkt.dkind ≠ 3#2 → leads (.packetForward r out 0) s fun t =>
        t.net = s.net ++ [c.2.pkt] ∧ nReg (t.router r.val) (nPort out.val 0) = nReg k (nPort out.val 0) + 1#32) ∧
      (∀ e, c.2.pkt.hops ≠ 63#6 → linkEnd r.val out.val = some e → e.1 ≠ r.val → c.2.pkt.dkind ≠ 3#2 → leads (.packetForward r out 0) s fun t =>
        let q : Packet := { c.2.pkt with dl := nextDl r.val (c.1 / 8) out.val c.2.pkt.dl, hops := c.2.pkt.hops + 1#6 }
        t.net = s.net ∧ nReg (t.router r.val) (nPort out.val 0) = nReg k (nPort out.val 0) + 1#32 ∧
        ∃ b, mgetD (t.router e.1).bufs (8 * e.2 + vcOf q q.dl) [] = mgetD (s.router e.1).bufs (8 * e.2 + vcOf q q.dl) [] ++ [b] ∧ b.pkt = q) := by
  intro k
  have hdef : ∀ u, forward s r.val out.val 0 = u → exec (.packetForward r out 0) s = .next u := fun u h => congrArg Host.Outcome.next h
  refine ⟨fun hheads hm => ?_, fun hheads hc hm => ?_, fun c hc hm => ⟨fun hhops => ?_, fun hhops hlink hkind => ?_, fun e hhops hlink hne hkind => ?_⟩⟩
  case refine_1 =>
    have hc : chooseHead k r.val out.val = none := by unfold chooseHead; rw [hheads]; rfl
    apply hdef
    unfold forward
    simp [show s.router r.val = k from rfl, hc, hm, hheads]
  case refine_2 =>
    refine ⟨s.setRouter r.val (nWrap k (nPort out.val 8) 1), hdef _ ?_, rfl, ?_, ?_⟩
    · unfold forward
      simp [show s.router r.val = k from rfl, hc, hm, hheads]
    · rw [router_setRouter_self]; rfl
    · rw [router_setRouter_self, nReg_nWrap_self]
  case refine_3 =>
    obtain ⟨rest, hbuf⟩ := headsFor_mem (chooseHead_mem hc).1
    exact ⟨_, hdef _ ((forward_chosen s _ _ hc hm).trans (if_pos hhops)), dropHead_effect s r.val c.1 hbuf⟩
  case refine_4 =>
    refine ⟨_, hdef _ ((forward_chosen s _ _ hc hm).trans (if_neg hhops)), ?_⟩
    have hcopies : localCopies c.2 = [c.2.pkt] := if_neg hkind
    unfold sendHead
    simp only [hlink, hcopies, Option.isSome_none, Bool.false_eq_true, if_false, List.length_singleton]
    obtain ⟨hnet, hregs, -⟩ := sendHead_rest { s.setRouter r.val (nWrap (nWrap k (nPort out.val 0) 1) (nPort out.val 4) (1 * flitsOf c.2.pkt)) with
      net := s.net ++ [c.2.pkt] } r.val c.1 out.val
    refine ⟨hnet, ?_⟩
    refine (congrArg (fun m => regRaw routerRegs m (nPort out.val 0)) hregs).trans ?_
    refine (congrArg (nReg · (nPort out.val 0)) (router_setRouter_self s r.val _)).trans ?_
    rw [nReg_nWrap_ne _ _ _ (nPort_ne (by decide)), nReg_nWrap_self]
  case refine_5 =>
    refine ⟨_, hdef _ ((forward_chosen s _ _ hc hm).trans (if_neg hhops)), ?_⟩
    have hcred := (chooseHead_mem hc).2
    unfold holdsCredits at hcred
    rw [hlink, Option.isNone_some, Bool.false_or] at hcred
    obtain ⟨cr, hcr⟩ := Option.isSome_iff_exists.mp hcred
    obtain ⟨hnet, hreg, -, b, hb, hpkt⟩ := sendOver_joins s r.val (c.1 / 8) out.val c.2.pkt hlink hne hkind hcr
    unfold sendHead
    simp only [hlink, Option.isSome_some, if_true]
    obtain ⟨hnet2, hregs2, hbufs2⟩ := sendHead_rest (sendOver s r.val (c.1 / 8) out.val c.2.pkt) r.val c.1 out.val
    refine ⟨hnet2.trans hnet, (congrArg (fun m => regRaw routerRegs m (nPort out.val 0)) hregs2).trans hreg, b, ?_, hpkt⟩
    rw [hbufs2 e.1 hne]
    exact hb

/-- Settles O28: a packet joins the buffer of its port and channel, at its ingress and behind every link. -/
theorem routersMovePackets : Obligations.RoutersMovePackets := ⟨packetIngress_acts, packetForward_acts⟩

end Sys2Proof.Machine
end

section
/-! PROOFS. The upkeep of a stack (R388, R389, R414, R417, R418, R423, R424). -/

namespace Sys2Proof.Machine

/-! ### Registers of a stack -/

theorem kReg_kFld_self (k : Stack) (o hi lo v : Nat) : kReg (kFld k o hi lo v) o = setFld (kReg k o) hi lo v := regRaw_mset_self _ _ _ _

theorem kReg_kFld_ne (k : Stack) (o hi lo v : Nat) {p : Nat} (h : p ≠ o) : kReg (kFld k o hi lo v) p = kReg k p := regRaw_mset_ne _ _ _ _ _ h

theorem kReg_kFlag_self (k : Stack) (o : Nat) (m : Word) : kReg (kFlag k o m) o = kReg k o ||| m := regRaw_mset_self _ _ _ _

theorem kReg_kFlag_ne (k : Stack) (o : Nat) (m : Word) {p : Nat} (h : p ≠ o) : kReg (kFlag k o m) p = kReg k p := regRaw_mset_ne _ _ _ _ _ h

/-- Bit i of a word with bit b raised. -/
theorem bit_raised (w : Word) {b : Nat} (hb : b < 32) (i : Nat) :
    bit (w ||| BitVec.ofNat 32 (2 ^ b)) i = (decide (i = b) || bit w i) := by
  rw [bit_or, Bool.or_comm]
  congr 1
  simp only [bit, BitVec.getLsbD_ofNat, Nat.testBit_two_pow]
  by_cases h : i = b
  · simp [h, hb]
  · simp [h, Ne.symm h]

theorem bit_setFld_zero (w : Word) {i : Nat} (h : i < 32) : bit (setFld w i i 0) i = false := by
  rw [bit_setFld_one w i 0 h, Nat.zero_testBit]

theorem mem_keyAdd_self (l : List Nat) (k : Nat) : k ∈ keyAdd l k := by
  induction l with
  | nil => exact List.mem_singleton_self k
  | cons j t ih =>
    unfold keyAdd
    split
    · rename_i h; rw [h]; exact List.mem_cons_self
    · split
      · exact List.mem_cons_self
      · exact List.mem_cons_of_mem j ih

/-! ### The commands -/

/-- A command leads to what it is said to, by the state that it gives. -/
theorem leads_of {x : Instr} {s t : State} {post : State → Prop} (h : exec x s = .next t) (hp : post t) : leads x s post := ⟨t, h, hp⟩

theorem refreshSlot_acts (st : StackId) (p : Fin 16) (s : State) :
    let k := s.stack st.val
    leads (.refreshSlot st p) s fun t => s.now < t.now ∧ t.now ≤ s.now + 4096 + 256 ∧ t.now % 4096 = (256 * p.val + 256) % 4096 ∧
      mgetD (t.stack st.val).refr p.val 0 = (mgetD k.refr p.val 0 + if bit (kReg k kStatus) 2 then 4 else 2) % 16384 := by
  intro k
  refine leads_of rfl ?_
  rw [stack_setStack_self]
  have hp := p.isLt
  have hslot : ∀ b, b = (if s.now < s.now / 4096 * 4096 + 256 * p.val + 256 then s.now / 4096 * 4096 + 256 * p.val
      else s.now / 4096 * 4096 + 256 * p.val + 4096) → s.now < max s.now (b + 256) ∧ max s.now (b + 256) ≤ s.now + 4096 + 256 ∧
        max s.now (b + 256) % 4096 = (256 * p.val + 256) % 4096 := by
    rintro b rfl
    split <;> omega
  obtain ⟨hlt, hle, hmod⟩ := hslot _ rfl
  exact ⟨hlt, hle, hmod, mgetD_mset_self _ _ _ _⟩

theorem scrub_acts (st : StackId) (s : State) :
    let k := s.stack st.val
    (∀ b e, bit (kReg k kScrub) 6 = false ∨ lastBlock < b → exec (.scrub st b e) s = .next s) ∧
    (∀ b, bit (kReg k kScrub) 6 = true → b < lastBlock → exec (.scrub st b 0) s = .next (s.setStack st.val k)) ∧
    (bit (kReg k kScrub) 6 = true → leads (.scrub st lastBlock 0) s fun t =>
      fld (kReg (t.stack st.val) kScrub) 31 16 = (fld (kReg k kScrub) 31 16 + 1) % 65536 ∧ bit (kReg (t.stack st.val) kScrub) 6 = true) := by
  intro k
  have hdef : ∀ b e, exec (.scrub st b e) s = execScrub st b e s := fun _ _ => rfl
  have hclean : ∀ b, readBlock s st.val b 0 true = s := fun _ => rfl
  refine ⟨fun b e h => ?_, fun b hon hb => ?_, fun hon => ?_⟩
  · rw [hdef, execScrub]
    exact if_pos (h.imp (fun h => by rw [show bit (kReg (s.stack st.val) kScrub) 6 = false from h]; decide) id)
  · rw [hdef, execScrub, if_neg (by simp [show bit (kReg (s.stack st.val) kScrub) 6 = true from hon]; omega)]
    simp only [hclean]
    rw [if_neg (by omega)]
  · refine leads_of (t := s.setStack st.val (kFld k kScrub 31 16 (fld (kReg k kScrub) 31 16 + 1))) ?_ ?_
    · rw [hdef, execScrub, if_neg (by simp [show bit (kReg (s.stack st.val) kScrub) 6 = true from hon])]
      simp only [hclean]
      rw [if_pos trivial]
    · rw [stack_setStack_self, kReg_kFld_self]
      exact ⟨fld_setFld_self _ _ _ _ (by decide), (bit_setFld _ _ _ _ _ (by decide)).trans hon⟩

theorem dramRowRepair_acts (st : StackId) (s : State) (ch : Fin 32) (die : Fin 20) (bank : Fin 16) (row : Fin 16384) :
    let k := s.stack st.val
    let r := rowNumber ch.val die.val bank.val row.val
    let n := mgetD k.spares ((ch.val * 20 + die.val) * 16 + bank.val) 0
    (r ∉ k.toFix → exec (.dramRowRepair st ch die bank row) s = .next s) ∧
    (r ∈ k.toFix → leads (.dramRowRepair st ch die bank row) s fun t =>
      (t.stack st.val).toFix = keyDel k.toFix r ∧
      (n < 8 → r ∈ (t.stack st.val).fixed ∧ mgetD (t.stack st.val).spares ((ch.val * 20 + die.val) * 16 + bank.val) 0 = n + 1) ∧
      (8 ≤ n → bit (kReg (t.stack st.val) kStatus) 4 = true ∧ (t.stack st.val).fixed = k.fixed ∧
        t.records = s.records ++ [⟨.repairFull, st.val, []⟩])) := by
  intro k r n
  have hdef : exec (.dramRowRepair st ch die bank row) s = execDramRowRepair st ch die bank row s := rfl
  refine ⟨fun h => ?_, fun h => ?_⟩
  · rw [hdef, execDramRowRepair]
    exact if_pos (by simpa using h)
  · have hin : ¬ ¬ (k.toFix.contains r = true) := by simpa using h
    unfold leads
    rw [hdef, execDramRowRepair]
    dsimp only
    rw [if_neg hin]
    by_cases hn : n < 8
    · rw [if_pos hn]
      refine ⟨_, rfl, ?_⟩
      rw [stack_setStack_self]
      exact ⟨rfl, fun _ => ⟨mem_keyAdd_self _ _, mgetD_mset_self _ _ _ _⟩, fun h8 => absurd hn (Nat.not_lt.mpr h8)⟩
    · rw [if_neg hn]
      refine ⟨_, rfl, ?_⟩
      rw [show ∀ (u : State) (q : Rec), (u.record q).stack st.val = u.stack st.val from fun _ _ => rfl, stack_setStack_self]
      refine ⟨rfl, fun h => absurd h hn, fun _ => ⟨?_, rfl, rfl⟩⟩
      rw [kReg_kFlag_self, show (16#32 : Word) = BitVec.ofNat 32 (2 ^ 4) from rfl, bit_raised _ (by decide)]
      rfl

theorem retrainRequest_acts (st : StackId) (s : State) (p : Fin 16) :
    let k := s.stack st.val
    leads (.retrainRequest st p) s fun t => t.now = s.now ∧ bit (kReg (t.stack st.val) kStatus) (16 + p.val) = true ∧
      ∀ i, i ≠ 16 + p.val → bit (kReg (t.stack st.val) kStatus) i = bit (kReg k kStatus) i := by
  intro k
  have hp : 16 + p.val < 32 := by omega
  refine leads_of (t := s.setStack st.val (kFlag k kStatus (BitVec.ofNat 32 (2 ^ (16 + p.val))))) rfl ?_
  rw [stack_setStack_self, kReg_kFlag_self]
  exact ⟨rfl, by rw [bit_raised _ hp]; simp, fun i hi => by rw [bit_raised _ hp]; simp [hi]⟩

theorem stackRetrainGo_acts (st : StackId) (s : State) (val : Word) :
    let k := s.stack st.val
    leads (.stackRetrainGo st val) s fun t => t.now = s.now ∧
      (bit (kReg k kRetrain) 5 = true → (t.stack st.val).regs = k.regs ∧ (t.stack st.val).trainBy = k.trainBy) ∧
      (bit (kReg k kRetrain) 5 = false → fld (kReg (t.stack st.val) kRetrain) 3 0 = fld val 3 0 ∧
        (bit val 4 = true → bit (kReg (t.stack st.val) kRetrain) 5 = true ∧ (t.stack st.val).trainBy = some ((s.now / 4096 + 2) * 4096)) ∧
        (bit val 4 = false → (t.stack st.val).trainBy = k.trainBy)) := by
  intro k
  refine leads_of (t := s.setStack st.val (retrainGo k s.now val)) rfl ?_
  rw [stack_setStack_self]
  refine ⟨rfl, fun hbusy => ?_, fun hfree => ?_⟩
  · rw [retrainGo, if_pos hbusy]
    exact ⟨rfl, rfl⟩
  · have hfield : fld (kReg (kFld k kRetrain 3 0 (fld val 3 0)) kRetrain) 3 0 = fld val 3 0 := by
      rw [kReg_kFld_self, fld_setFld_self _ _ _ _ (by decide)]
      exact Nat.mod_eq_of_lt (fld_lt val 3 0)
    rw [retrainGo, if_neg (by rw [hfree]; decide)]
    dsimp only
    by_cases hgo : bit val 4 = true
    · rw [if_pos hgo]
      have hreg : kReg { kFld (kFld (kFld k kRetrain 3 0 (fld val 3 0)) kRetrain 5 5 1) kStatus 1 1 1 with trainBy := some ((s.now / 4096 + 2) * 4096) } kRetrain =
          setFld (kReg (kFld k kRetrain 3 0 (fld val 3 0)) kRetrain) 5 5 1 :=
        (kReg_kFld_ne _ _ _ _ _ (by decide)).trans (kReg_kFld_self _ _ _ _ _)
      rw [hreg, fld_setFld_ne _ _ _ _ _ _ (by decide), bit_setFld_one _ _ _ (by decide)]
      exact ⟨hfield, fun _ => ⟨rfl, rfl⟩, fun h => absurd h (by rw [hgo]; decide)⟩
    · rw [if_neg hgo]
      exact ⟨hfield, fun h => absurd h hgo, fun _ => rfl⟩

theorem retrainDone_acts (st : StackId) (s : State) :
    let k := s.stack st.val
    (k.trainBy = none → exec (.retrainDone st) s = .next s) ∧
    (∀ e, k.trainBy = some e → leads (.retrainDone st) s fun t => t.now = max s.now e ∧ (t.stack st.val).trainBy = none ∧
      bit (kReg (t.stack st.val) kRetrain) 5 = false ∧ bit (kReg (t.stack st.val) kStatus) 1 = false ∧
      bit (kReg (t.stack st.val) kStatus) (16 + fld (kReg k kRetrain) 3 0) = false ∧
      fld (kReg (t.stack st.val) kRetrain) 31 16 = (fld (kReg k kRetrain) 31 16 + 1) % 65536) := by
  intro k
  have hdef : exec (.retrainDone st) s = execRetrainDone st s := rfl
  refine ⟨fun h => ?_, fun e h => ?_⟩
  · simp only [hdef, execRetrainDone, show (s.stack st.val).trainBy = none from h]
  · let p := 16 + fld (kReg k kRetrain) 3 0
    let k1 := kFld (kFld k kRetrain 5 5 0) kRetrain 31 16 (fld (kReg k kRetrain) 31 16 + 1)
    let k2 := kFld (kFld k1 kStatus 1 1 0) kStatus p p 0
    have hp : p < 32 := by have := fld_lt (kReg k kRetrain) 3 0; omega
    have hexec : exec (.retrainDone st) s =
        .next (((s.reach e).setStack st.val { k2 with trainBy := none }).record ⟨.retrain, st.val, [fld (kReg k kRetrain) 3 0]⟩) := by
      simp only [hdef, execRetrainDone, show (s.stack st.val).trainBy = some e from h]
      rfl
    have hcore : ∀ (u : State) (q : Rec), (u.record q).stack st.val = u.stack st.val := fun _ _ => rfl
    refine leads_of hexec ?_
    rw [hcore, stack_setStack_self]
    have hretrain : kReg { k2 with trainBy := none } kRetrain = kReg k1 kRetrain :=
      (kReg_kFld_ne _ _ _ _ _ (by decide)).trans (kReg_kFld_ne _ _ _ _ _ (by decide))
    have hstatus : kReg { k2 with trainBy := none } kStatus = setFld (kReg (kFld k1 kStatus 1 1 0) kStatus) p p 0 := kReg_kFld_self _ _ _ _ _
    rw [hretrain, hstatus, kReg_kFld_self, kReg_kFld_self, kReg_kFld_self]
    refine ⟨rfl, rfl, ?_, ?_, bit_setFld_zero _ hp, fld_setFld_self _ _ _ _ (by decide)⟩
    · rw [bit_setFld _ _ _ _ _ (by decide), bit_setFld_zero _ (by decide)]
    · rw [bit_setFld _ _ _ _ _ (by omega), bit_setFld_zero _ (by decide)]

/-- Settles O31: each clause is the one command's effect on the stack. -/
theorem stackUpkeepActs : Obligations.StackUpkeepActs := by
  intro st s k
  obtain ⟨hoff, hclean, hpass⟩ := scrub_acts st s
  obtain ⟨hrest, hdone⟩ := retrainDone_acts st s
  refine ⟨fun b => leads_of rfl ?_, fun p => refreshSlot_acts st p s, hoff, hclean, hpass, fun ch die bank row => dramRowRepair_acts st s ch die bank row,
    fun p => retrainRequest_acts st s p, fun val => stackRetrainGo_acts st s val, hrest, hdone⟩
  rw [stack_setStack_self]
  exact ⟨rfl, rfl, rfl⟩

end Sys2Proof.Machine
end

section
/-! PROOFS. Chunks of scheduled streams (R398, R399): what a chunk stores where no cycle has passed. -/

namespace Sys2Proof.Machine

/-- A stream of one chunk of 64 bytes, from the first block of stack 0 into buffer 0 of core 0, planned for section cycle 0. -/
def firstChunk : StreamCtx := { StreamCtx.reset with state := xRun, words := [8#32, 0#32, 0#32, 0x10001#32] }

/-- The core in a section launched in cycle 0. Its scratchpad answers in the cycle of a request: the field of R206 that gives L is 0. -/
def hastyDest : Core :=
  { Core.reset with regs := [(rSpdCfg, 0#32), (bufBase 0, 0x80000000#32)], launchAt := some 0, awaiting := false }

/-- The device in cycle 0, with a byte in the stream's block. -/
def chunkState : State :=
  { State.reset with
    cores := [(0, hastyDest)]
    stks := [(0, { Stack.reset with mem := [(0, 1#8)], ctxs := [(0, firstChunk)] })] }

/-- Refutes O32: the commit cycle u + L - 1 of a chunk is cycle 0 where u and L are 0, and no read in cycle 0 finds its bytes. -/
theorem not_scheduledStreamsAct : ¬ Obligations.ScheduledStreamsAct := by
  rintro ⟨-, hchunk⟩
  obtain ⟨t, ht, -, -, -, -, hin⟩ := (hchunk 0 0 chunkState).2 0 0 (by decide +kernel) (by decide +kernel) (by decide +kernel) (by decide +kernel)
    (by decide +kernel) (by decide +kernel)
  obtain rfl : schedChunk chunkState 0 0 [] [] = t := Host.Outcome.next.inj ht
  obtain ⟨-, hbytes⟩ := hin (by decide +kernel)
  have hbyte := hbytes ⟨0, 1, 0x80000000#32, 0#32, true⟩ (by decide +kernel) (by decide +kernel) (by decide +kernel) 0 0 (by decide +kernel)
    (by decide +kernel)
  exact absurd hbyte (by decide +kernel)

end Sys2Proof.Machine
end

section
/-! PROOFS. Service, shared and remote streams (R403 to R406, R421, R422). -/

namespace Sys2Proof.Machine

/-! ### Contexts of a stack -/

@[simp] theorem ctx_setCtx_self (s : State) (st c : Nat) (x : StreamCtx) : (s.setCtx st c x).ctx st c = x := by
  simp [State.ctx, State.setCtx]

/-- What a stream sends: one packet, and a request for its answer; no context changes. -/
theorem sendStream_effect (s : State) (st c part arg : Nat) (p : Packet) :
    (∃ q, (sendStream s st c part arg p).net = s.net ++ [q] ∧ q.type = p.type ∧ q.payload = p.payload ∧ q.tdata = p.tdata ∧ q.tarnish = p.tarnish) ∧
      (sendStream s st c part arg p).ctx st c = s.ctx st c := by
  refine ⟨⟨_, rfl, rfl, rfl, rfl, rfl⟩, ?_⟩
  exact (congrArg (fun k : Stack => mgetD k.ctxs c StreamCtx.reset) (stack_setStack_self s st _)).trans rfl

theorem streamDone_effect (s : State) (st c : Nat) :
    (streamDone s st c).net = s.net ∧ ((streamDone s st c).ctx st c).seqDue = (s.ctx st c).seqDue := by
  unfold streamDone
  dsimp only
  split
  · exact ⟨rfl, by rw [ctx_setCtx_self]⟩
  · exact ⟨rfl, rfl⟩

theorem serviceChunk_idle {s : State} {st c : Nat} {errs : List (Nat × Nat)} {host : List Byte}
    (h : (s.ctx st c).state ≠ xRun ∨ ¬ (dKind (s.ctx st c) = kService ∨ dKind (s.ctx st c) = kRemote)) : serviceChunk s st c errs host = s := by
  unfold serviceChunk
  exact if_pos (by rwa [not_or] at h)

theorem sharedChunk_idle {s : State} {st c : Nat} {errs : List (Nat × Nat)} (h : (s.ctx st c).state ≠ xRun ∨ dKind (s.ctx st c) ≠ kShared) :
    sharedChunk s st c errs = s := by
  unfold sharedChunk
  exact if_pos h

/-- The next chunk of a stream waits: all are sent, or its fill has no credit. -/
def chunkWaits (x : StreamCtx) : Prop := dTotal x ≤ x.sent ∨ (fillFirst x x.sent = true ∧ x.credits = 0)

theorem not_chunkWaits {x : StreamCtx} (hmore : x.sent < dTotal x) (hcred : fillFirst x x.sent = false ∨ 0 < x.credits) : ¬ chunkWaits x := by
  rintro (h | ⟨h1, h2⟩)
  · omega
  · rcases hcred with h | h
    · rw [h1] at h; cases h
    · omega

theorem serviceChunk_waits {s : State} {st c : Nat} {errs : List (Nat × Nat)} {host : List Byte} (hq : (s.ctx st c).hqpDue = false)
    (h : chunkWaits (s.ctx st c)) : serviceChunk s st c errs host = s := by
  unfold serviceChunk
  dsimp only
  split
  · rfl
  · rw [if_neg (by rw [hq]; decide)]
    exact if_pos h

theorem sharedChunk_waits {s : State} {st c : Nat} {errs : List (Nat × Nat)} (hq : (s.ctx st c).seqDue = false)
    (h : chunkWaits (s.ctx st c)) : sharedChunk s st c errs = s := by
  unfold sharedChunk
  dsimp only
  split
  · rfl
  · rw [if_neg (by rw [hq]; decide)]
    exact if_pos h

/-- A service chunk that goes: one WR, the context one chunk further. -/
theorem serviceChunk_sends {s : State} {st c : Nat} {errs : List (Nat × Nat)} {host : List Byte} (hrun : (s.ctx st c).state = xRun)
    (hkind : dKind (s.ctx st c) = kService ∨ dKind (s.ctx st c) = kRemote) (hq : (s.ctx st c).hqpDue = false) (hgo : ¬ chunkWaits (s.ctx st c))
    (hok : (fetchChunk s st c (s.ctx st c).sent ((s.ctx st c).part.getD 0) errs host).2.1 = stOk) :
    let x := s.ctx st c
    let f := fetchChunk s st c x.sent (x.part.getD 0) errs host
    let t := serviceChunk s st c errs host
    ∃ q, t.net = f.1.net ++ [q] ∧ q.type = tWR ∧ q.payload = f.2.2.1 ∧ q.tarnish = f.2.2.2 ∧ (t.ctx st c).sent = x.sent + 1 ∧
      (t.ctx st c).credits = (if fillFirst x x.sent then x.credits - 1 else x.credits) ∧ (t.ctx st c).hqpDue = (fillLast x x.sent && dPush x) := by
  intro x f t
  have hsend : ∀ (y : StreamCtx) (p : Packet), y.sent = x.sent + 1 → y.credits = (if fillFirst x x.sent then x.credits - 1 else x.credits) →
      y.hqpDue = (fillLast x x.sent && dPush x) → p.type = tWR → p.payload = f.2.2.1 → p.tarnish = f.2.2.2 →
      ∀ ht : t = sendStream (f.1.setCtx st c y) st c (x.part.getD 0) x.sent p,
      ∃ q, t.net = f.1.net ++ [q] ∧ q.type = tWR ∧ q.payload = f.2.2.1 ∧ q.tarnish = f.2.2.2 ∧ (t.ctx st c).sent = x.sent + 1 ∧
        (t.ctx st c).credits = (if fillFirst x x.sent then x.credits - 1 else x.credits) ∧ (t.ctx st c).hqpDue = (fillLast x x.sent && dPush x) := by
    intro y p hsent hcred hdue htype hpay htarn ht
    obtain ⟨⟨q, hnet, hqt, hqp, -, hqn⟩, hctx⟩ := sendStream_effect (f.1.setCtx st c y) st c (x.part.getD 0) x.sent p
    rw [ht, hctx, ctx_setCtx_self]
    exact ⟨q, hnet, hqt.trans htype, hqp.trans hpay, hqn.trans htarn, hsent, hcred, hdue⟩
  apply hsend
  case ht =>
    unfold chunkWaits at hgo
    show serviceChunk s st c errs host = _
    unfold serviceChunk
    dsimp only
    rw [if_neg (by rw [not_or, not_not, ← not_or, not_not]; exact ⟨hrun, hkind⟩), if_neg (by rw [hq]; decide), if_neg hgo, if_neg (not_not_intro hok)]
  all_goals rfl

/-- After a fill a service stream sends its HQP. -/
theorem serviceChunk_handover {s : State} {st c : Nat} {errs : List (Nat × Nat)} {host : List Byte} (hrun : (s.ctx st c).state = xRun)
    (hkind : dKind (s.ctx st c) = kService ∨ dKind (s.ctx st c) = kRemote) (hq : (s.ctx st c).hqpDue = true) :
    let x := s.ctx st c
    let t := serviceChunk s st c errs host
    ∃ q, t.net = s.net ++ [q] ∧ q.type = tHQP ∧ q.tdata = [dHandle x, BitVec.ofNat 32 (dHq x)] ∧ (t.ctx st c).hqpDue = false ∧
      (t.ctx st c).sent = x.sent := by
  intro x t
  have ht : t = sendStream (s.setCtx st c { x with hqpDue := false }) st c (x.part.getD 0) (dTotal x)
      (toCore (dDest x) { Packet.blank with type := tHQP, tdata := [dHandle x, BitVec.ofNat 32 (dHq x)] }) := by
    show serviceChunk s st c errs host = _
    unfold serviceChunk
    dsimp only
    rw [if_neg (by rw [not_or, not_not, ← not_or, not_not]; exact ⟨hrun, hkind⟩), if_pos hq]
  obtain ⟨⟨q, hnet, hqt, -, hqd, -⟩, hctx⟩ := sendStream_effect (s.setCtx st c { x with hqpDue := false }) st c (x.part.getD 0) (dTotal x)
    (toCore (dDest x) { Packet.blank with type := tHQP, tdata := [dHandle x, BitVec.ofNat 32 (dHq x)] })
  rw [ht, hctx, ctx_setCtx_self]
  exact ⟨q, hnet, hqt, hqd, rfl, rfl⟩

/-- A shared chunk that goes: one MCWR to the group, the context one chunk further. -/
theorem sharedChunk_sends {s : State} {st c : Nat} {errs : List (Nat × Nat)} (hrun : (s.ctx st c).state = xRun)
    (hkind : dKind (s.ctx st c) = kShared) (hq : (s.ctx st c).seqDue = false) (hgo : ¬ chunkWaits (s.ctx st c))
    (hok : (fetchChunk s st c (s.ctx st c).sent ((s.ctx st c).part.getD 0) errs []).2.1 = stOk) :
    let x := s.ctx st c
    let g := fetchChunk s st c x.sent (x.part.getD 0) errs []
    let t := sharedChunk s st c errs
    ∃ q, t.net = g.1.net ++ [q] ∧ q.type = tMCWR ∧ q.group = BitVec.ofNat 10 (dGroup x) ∧ q.payload = g.2.2.1 ∧
      q.mseq = BitVec.ofNat 16 x.mseq ∧ (t.ctx st c).sent = x.sent + 1 ∧ (t.ctx st c).seqDue = fillLast x x.sent := by
  intro x g t
  have hsend : ∀ (y : StreamCtx) (a : Nat), y.sent = x.sent + 1 → y.words = x.words → y.seqDue = fillLast x x.sent →
      ∀ ht : t = sendShared (g.1.setCtx st c y) st c (x.part.getD 0) x.mseq a g.2.2.1 g.2.2.2,
      ∃ q, t.net = g.1.net ++ [q] ∧ q.type = tMCWR ∧ q.group = BitVec.ofNat 10 (dGroup x) ∧ q.payload = g.2.2.1 ∧
        q.mseq = BitVec.ofNat 16 x.mseq ∧ (t.ctx st c).sent = x.sent + 1 ∧ (t.ctx st c).seqDue = fillLast x x.sent := by
    intro y a hsent hwords hdue ht
    have hctx : (sendShared (g.1.setCtx st c y) st c (x.part.getD 0) x.mseq a g.2.2.1 g.2.2.2).ctx st c = y := ctx_setCtx_self g.1 st c y
    have hgroup : dGroup ((g.1.setCtx st c y).ctx st c) = dGroup x := by
      rw [ctx_setCtx_self]
      simp only [dGroup, dWord, hwords]
    rw [ht, hctx]
    exact ⟨_, rfl, rfl, congrArg (BitVec.ofNat 10) hgroup, rfl, rfl, hsent, hdue⟩
  apply hsend
  case ht =>
    unfold chunkWaits at hgo
    show sharedChunk s st c errs = _
    unfold sharedChunk
    dsimp only
    rw [if_neg (by rw [not_or, not_not, not_not]; exact ⟨hrun, hkind⟩), if_neg (by rw [hq]; decide), if_neg hgo, if_neg (not_not_intro hok)]
  all_goals rfl

/-- After a fill a shared stream sends its sequence word. -/
theorem sharedChunk_sequence {s : State} {st c : Nat} {errs : List (Nat × Nat)} (hrun : (s.ctx st c).state = xRun)
    (hkind : dKind (s.ctx st c) = kShared) (hq : (s.ctx st c).seqDue = true) :
    let x := s.ctx st c
    let t := sharedChunk s st c errs
    ∃ q, t.net = s.net ++ [q] ∧ q.type = tMCWR ∧ q.group = BitVec.ofNat 10 (dGroup x) ∧ q.payload = bytesOfWord (BitVec.ofNat 32 x.sent) ∧
      q.addr = BitVec.ofNat 64 (dSword x) ∧ (t.ctx st c).seqDue = false := by
  intro x t
  let y : StreamCtx := { x with seqDue := false, mseq := x.mseq + 1, pos := x.sent }
  let u := sendShared (s.setCtx st c y) st c (x.part.getD 0) x.mseq (dSword x) (bytesOfWord (BitVec.ofNat 32 x.sent)) false
  have ht : t = streamDone u st c := by
    show sharedChunk s st c errs = _
    unfold sharedChunk
    dsimp only
    rw [if_neg (by rw [not_or, not_not, not_not]; exact ⟨hrun, hkind⟩), if_pos hq]
  have hctx : u.ctx st c = y := ctx_setCtx_self s st c y
  have hgroup : dGroup ((s.setCtx st c y).ctx st c) = dGroup x := by
    rw [ctx_setCtx_self]
    rfl
  obtain ⟨hnet, hdue⟩ := streamDone_effect u st c
  rw [ht, hnet, hdue, hctx]
  exact ⟨_, rfl, rfl, congrArg (BitVec.ofNat 10) hgroup, rfl, rfl, rfl⟩

/-! ### Remote streams -/

theorem remoteHalt_acts (st : StackId) (ctx : Fin 512) (s : State) (un : Bool) :
    let x := s.ctx st.val ctx.val
    let after (t : State) : StreamCtx := t.ctx st.val ctx.val
    (x.state ≠ xRun ∨ dKind x ≠ kRemote → exec (.remoteHalt st ctx un) s = .next s) ∧
    (x.state = xRun → dKind x = kRemote → leads (.remoteHalt st ctx un) s fun t => t.now = s.now ∧ (after t).state = xHalted ∧
      (after t).reason = (if un then whyUnreach else whyMiss) ∧ (after t).pos = x.pos ∧
      fld (kReg (t.stack st.val) kUe) 31 16 = min 65535 (fld (kReg (s.stack st.val) kUe) 31 16 + 1) ∧
      t.records = s.records ++ [⟨.pageMiss, st.val, [ctx.val, if un then whyUnreach else whyMiss]⟩]) := by
  intro x after
  have hdef : ∀ u, remoteHalt s st.val ctx.val un = u → exec (.remoteHalt st ctx un) s = .next u := fun u h => congrArg Host.Outcome.next h
  refine ⟨fun h => hdef s (if_pos h), fun hrun hkind => leads_of (hdef _ (if_neg (by rw [not_or, not_not, not_not]; exact ⟨hrun, hkind⟩))) ?_⟩
  have hrecord : ∀ (u : State) (q : Rec), (u.record q).stack st.val = u.stack st.val := fun _ _ => rfl
  have hctx : ∀ (u : State) (y : StreamCtx) (k : Stack), k.ctxs = ((u.setCtx st.val ctx.val y).stack st.val).ctxs →
      ∀ q, (((u.setCtx st.val ctx.val y).setStack st.val k).record q).ctx st.val ctx.val = y := by
    intro u y k hk q
    unfold State.ctx
    rw [hrecord, stack_setStack_self, hk]
    exact ctx_setCtx_self u st.val ctx.val y
  have hcount : ∀ k : Stack, fld (kReg (kCount k kUe 31 16 1) kUe) 31 16 = min 65535 (fld (kReg k kUe) 31 16 + 1) := by
    intro k
    have hself : kReg (kCount k kUe 31 16 1) kUe = setFld (kReg k kUe) 31 16 (satTo 65535 (fld (kReg k kUe) 31 16 + 1)) := regRaw_mset_self _ _ _ _
    rw [hself, fld_setFld_self _ _ _ _ (by decide), satTo_eq_min]
    omega
  simp only [after]
  rw [hctx]
  · rw [hrecord, stack_setStack_self]
    refine ⟨rfl, rfl, rfl, rfl, ?_, rfl⟩
    refine (hcount _).trans ?_
    rw [State.setCtx, stack_setStack_self]
    rfl
  · rfl

/-- Settles O33: a chunk that goes is one packet and one step of its context. -/
theorem serviceStreamsAct : Obligations.ServiceStreamsAct := by
  refine ⟨fun st ctx errs host s => ?_, fun st ctx s => ?_⟩
  · have hserve : ∀ u, serviceChunk s st.val ctx.val errs host = u → exec (.serviceChunk st ctx errs host) s = .next u :=
      fun u h => congrArg Host.Outcome.next h
    have hshare : ∀ u, sharedChunk s st.val ctx.val errs = u → exec (.sharedChunk st ctx errs) s = .next u := fun u h => congrArg Host.Outcome.next h
    exact ⟨fun h => hserve s (serviceChunk_idle h), fun h => hshare s (sharedChunk_idle h),
      fun hrun hkind hq => leads_of rfl (serviceChunk_handover hrun hkind hq),
      fun hq hd hw => ⟨hserve s (serviceChunk_waits hq hw), hshare s (sharedChunk_waits hd hw)⟩,
      fun hrun hkind hq hmore hcred hok => leads_of rfl (serviceChunk_sends hrun hkind hq (not_chunkWaits hmore hcred) hok),
      fun hrun hkind hd => leads_of rfl (sharedChunk_sequence hrun hkind hd),
      fun hrun hkind hd hmore hcred hok => leads_of rfl (sharedChunk_sends hrun hkind hd (not_chunkWaits hmore hcred) hok)⟩
  · have hresume : ∀ u, remoteResume s st.val ctx.val = u → exec (.remoteResume st ctx) s = .next u := fun u h => congrArg Host.Outcome.next h
    have hfail : exec (.remoteFail st ctx) s = execRemoteFail st ctx s := rfl
    refine ⟨fun un => remoteHalt_acts st ctx s un, fun h => ⟨hresume s (if_pos h), ?_⟩, fun h => ?_, fun h => ?_⟩
    · rw [hfail, execRemoteFail]
      exact if_pos h
    · refine leads_of (hresume _ (if_neg (not_not_intro h))) ?_
      dsimp only
      rw [ctx_setCtx_self]
      exact ⟨rfl, rfl, rfl, rfl⟩
    · unfold leads
      rw [hfail, execRemoteFail]
      dsimp only
      rw [if_neg (not_not_intro h)]
      refine ⟨_, rfl, rfl, ?_, rfl⟩
      exact congrArg StreamCtx.state (ctx_setCtx_self (s.reach _) st.val ctx.val _)

end Sys2Proof.Machine
end

section
/-! PROOFS. Transfers of a core (R383, R410, R411), and what settling a core leaves of its service client. -/

namespace Sys2Proof.Machine

/-! ### Settling a core keeps its service client -/

/-- The fence, the transfers and the pour receiver of a core are as they were. -/
structure ServiceKept (k k2 : Core) : Prop where
  fenceAt : k2.fenceAt = k.fenceAt
  xfers : k2.xfers = k.xfers
  pour : k2.pour = k.pour

theorem ServiceKept.refl (k : Core) : ServiceKept k k := ⟨rfl, rfl, rfl⟩

theorem ServiceKept.trans {a b c : Core} (h1 : ServiceKept a b) (h2 : ServiceKept b c) : ServiceKept a c :=
  ⟨h2.fenceAt.trans h1.fenceAt, h2.xfers.trans h1.xfers, h2.pour.trans h1.pour⟩

theorem ServiceKept.foldl {α : Type} {f : Core → α → Core} (hf : ∀ k x, ServiceKept k (f k x)) (l : List α) (k : Core) :
    ServiceKept k (l.foldl f k) := by
  induction l generalizing k with
  | nil => exact .refl k
  | cons x t ih => exact (hf k x).trans (ih _)

theorem ServiceKept.of_notes {k k2 : Core} (h : dataButNotes k k2) : ServiceKept k k2 := by
  have hdata : dataOf { k2 with regs := k.regs, recs := k.recs, lastRec := k.lastRec } = dataOf k := h
  exact ⟨by have hq := congrArg Core.fenceAt hdata; exact hq, by have hq := congrArg Core.xfers hdata; exact hq,
    by have hq := congrArg Core.pour hdata; exact hq⟩

/-- A fold over results leaves the client alone, and so does what the step puts in place afterwards. -/
theorem ServiceKept.of_eq {k k1 k2 : Core} (h : ServiceKept k k1) (h1 : k2.fenceAt = k1.fenceAt) (h2 : k2.xfers = k1.xfers)
    (h3 : k2.pour = k1.pour) : ServiceKept k k2 := h.trans ⟨h1, h2, h3⟩

theorem guardCheck_service (c : Core) (t g tile : Nat) (elems : List (Option Word)) : ServiceKept c (guardCheck c t g tile elems) := by
  unfold guardCheck
  dsimp only
  split
  · split
    · exact .of_notes (dataButNotes_trans (dataButNotes_trans (dataButNotes_cCount _ _ _ _ _) (dataButNotes_cFlag _ _ _))
        (dataButNotes_cEmit _ _ _))
    · exact ⟨rfl, rfl, rfl⟩
  · exact .refl c

theorem applyVec_service (c : Core) (v : VecRes) : ServiceKept c (applyVec c v) := by
  unfold applyVec guardChecks
  extract_lets c1 c2
  have h2 : ServiceKept c c2 := by
    unfold c2
    split <;> exact ⟨rfl, rfl, rfl⟩
  exact h2.trans (.foldl (fun k p => .foldl (fun k g => guardCheck_service k _ g _ _) _ k) _ c2)

theorem loadsDue_service (c : Core) (t : Nat) : ServiceKept c (loadsDue c t) := by
  refine .foldl (fun k v => ?_) _ c
  exact (ServiceKept.of_notes (dataButNotes_noteReads k 3 v.due (loadReads v ((fmtOfCode v.fmt).getD .fp32)))).of_eq rfl rfl rfl

theorem settleVector_service (c : Core) (t : Nat) : ServiceKept c (settleVector c t) :=
  ((loadsDue_service c t).trans (.foldl applyVec_service ((loadsDue c t).vops.filter fun v => decide (v.due ≤ t)) (loadsDue c t))).of_eq rfl rfl rfl

theorem hqPush_service (c : Core) (q t : Nat) (v : Word) : ServiceKept c (hqPush c q t v) := by
  unfold hqPush
  dsimp only
  split <;> exact ⟨rfl, rfl, rfl⟩

theorem settlePushes_service (c : Core) (t : Nat) : ServiceKept c (settlePushes c t) :=
  (ServiceKept.foldl (fun k (p : HqPush) => hqPush_service k p.queue p.due p.val) (c.hqPend.filter fun p => decide (p.due < t)) c).of_eq rfl rfl rfl

theorem settleFlags_service (c : Core) (t : Nat) : ServiceKept c (settleFlags c t) :=
  (ServiceKept.foldl (fun k (p : Nat × Word) => (⟨rfl, rfl, rfl⟩ : ServiceKept k (cFlag k rArithFlags p.2)))
    (c.flagPend.filter fun p => decide (p.1 < t)) c).of_eq rfl rfl rfl

theorem settleFault_service (c : Core) (t : Nat) : ServiceKept c (settleFault c t) := by
  unfold settleFault
  split
  · split
    · have h := ServiceKept.of_notes (dataButNotes_cEmit (cFlag { c with faultAt := none } rCtlStatus 8#32) ‹_› ⟨.pcFault, 0, [c.pc]⟩)
      exact ⟨h.fenceAt, h.xfers, h.pour⟩
    · exact .refl c
  · exact .refl c

theorem settleRcvd_service (c : Core) (t : Nat) : ServiceKept c (settleRcvd c t) :=
  (ServiceKept.foldl (fun k (p : Nat × Nat) => (⟨rfl, rfl, rfl⟩ : ServiceKept k
      { k with regs := regUpd coreRegs k.regs (0x3180 + 4 * p.2) (fun w => setFld w 20 0 (fld w 20 0 + 1)) }))
    (c.rcvdPend.filter fun p => decide (p.1 < t)) c).of_eq rfl rfl rfl

theorem fillEnd_service (c : Core) (t n : Nat) (f : Fill) : ServiceKept c (fillEnd c t n f) := by
  unfold fillEnd badBuf
  split
  · exact ⟨rfl, rfl, rfl⟩
  · exact .of_notes (dataButNotes_trans (dataButNotes_cFlag _ _ _) (dataButNotes_cEmit _ _ _))

theorem settleRdy_service (c : Core) (t : Nat) : ServiceKept c (settleRdy c t) :=
  (ServiceKept.foldl (fun k (p : Nat × Nat × Fill) => fillEnd_service k t p.2.1 p.2.2) (c.rdyPend.filter fun p => decide (p.1 < t)) c).of_eq rfl rfl rfl

theorem settleFetches_service (c : Core) (t : Nat) : ServiceKept c (settleFetches c t) :=
  (ServiceKept.foldl (fun k (p : Nat × Nat) => ServiceKept.of_notes (dataButNotes_noteReads k 7 p.2
      ((List.range 32).map fun i => (128 * p.1 + 4 * i, p.2)))) (c.fetches.filter fun p => decide (p.2 < t ∧ 128 * p.1 < spadEnd)) c).of_eq rfl rfl rfl

theorem noteOpReads_service (c : Core) (op : MatOp) (fa fb : Fmt) (s : Nat) : ServiceKept c (noteOpReads c op fa fb s) :=
  .of_notes (noteOpReads_notes c op fa fb s)

theorem applyMmac_service (c : Core) (op : MatOp) : ServiceKept c (applyMmac c op) := by
  unfold applyMmac
  extract_lets ff s sa sb k path bl rd tarn res tw c1
  split
  · exact noteOpReads_service _ _ _ _ _
  · clear_value tarn res tw
    exact ServiceKept.trans (b := c1) ⟨rfl, rfl, rfl⟩ (noteOpReads_service _ _ _ _ _)

theorem applyLoad_service (c : Core) (op : MatOp) : ServiceKept c (applyLoad c op) := by
  unfold applyLoad
  split
  · exact .refl c
  · extract_lets f s rd tarn d el c1
    clear_value tarn d el
    have hfold (g : Core → Nat → Map Plane) (l : List Nat) : ServiceKept c (l.foldl (fun (k : Core) n => { k with planes := g k n }) c) :=
      .foldl (f := fun k n => { k with planes := g k n }) (fun k n => ⟨rfl, rfl, rfl⟩) l c
    have h1 : ServiceKept c c1 := hfold _ _
    exact h1.trans (noteOpReads_service _ _ _ _ _)

theorem applyMfill_service (c : Core) (op : MatOp) : ServiceKept c (applyMfill c op) := by
  unfold applyMfill
  extract_lets reads c0
  have h0 : ServiceKept c c0 := .of_notes (dataButNotes_noteReads _ _ _ _)
  clear_value c0
  split
  · exact h0
  · exact ⟨h0.fenceAt, h0.xfers, h0.pour⟩

theorem applyMat_service (c : Core) (op : MatOp) : ServiceKept c (applyMat c op) := by
  unfold applyMat
  split
  · exact applyMmac_service c op
  · exact applyLoad_service c op
  · unfold applyMzero
    split <;> exact ⟨rfl, rfl, rfl⟩
  · exact applyMfill_service c op
  · exact ⟨rfl, rfl, rfl⟩

theorem settleMatrixFrom_service (t : Nat) (all ops : List MatOp) (c : Core) : ServiceKept c (settleMatrixFrom t all ops c) := by
  induction ops generalizing c with
  | nil => exact ⟨rfl, rfl, rfl⟩
  | cons op rest ih =>
    rw [settleMatrixFrom]
    split
    · extract_lets c1
      have h : ServiceKept c c1 := applyMat_service c op
      clear_value c1
      refine ServiceKept.trans ?_ (ih _)
      exact ⟨h.fenceAt, h.xfers, h.pour⟩
    · exact ih c

theorem settleMatrix_service (c : Core) (t : Nat) : ServiceKept c (settleMatrix c t) := by
  have h := settleMatrixFrom_service t c.mops c.mops c
  exact ⟨h.fenceAt, h.xfers, h.pour⟩

theorem settleCore_service (c : Core) (t : Nat) : ServiceKept c (settleCore c t) := by
  unfold settleCore
  extract_lets c1 c2
  have h0 : ServiceKept c (settleMatrix (settleScalar c t) t) :=
    ServiceKept.trans (b := settleScalar c t) ⟨rfl, rfl, rfl⟩ (settleMatrix_service _ t)
  have h1 : ServiceKept c c1 :=
    (((h0.trans (settleVector_service _ t)).trans (settlePushes_service _ t)).trans (settleFlags_service _ t)).trans (settleFault_service _ t)
  have h2 : ServiceKept c c2 := ((h1.trans (settleRcvd_service c1 t)).trans (settleRdy_service _ t)).trans (settleFetches_service _ t)
  clear_value c2
  exact ⟨h2.fenceAt, h2.xfers, h2.pour⟩

/-! ### Packets of a transfer -/

/-- A request of a core that no fence holds back: its packets leave, and no register or transfer of the core changes. -/
theorem sendRequest_open {s : State} {c : Nat} (h : (s.core c).fenceAt = none) (ps : List Packet) (what arg : Nat) :
    (sendRequest s c ps what arg).net.length = s.net.length + ps.length ∧ ((sendRequest s c ps what arg).core c).fenceAt = none ∧
      ((sendRequest s c ps what arg).core c).regs = (s.core c).regs ∧ ((sendRequest s c ps what arg).core c).xfers = (s.core c).xfers := by
  unfold sendRequest
  dsimp only
  rw [if_neg (by rw [h]; decide)]
  have hcore : ∀ (k : Core) (l : List Packet), ({ s.setCore c k with net := l }).core c = { k with outbox := [], check := false } :=
    fun k l => core_setCore_self s c k
  rw [hcore]
  exact ⟨by simp, h, rfl, rfl⟩

theorem foldl_sendRequest_open {α : Type} (f : State → α → List Packet × Nat × Nat) {c : Nat} (hf : ∀ s x, (f s x).1.length = 1) (l : List α) (s : State)
    (h : (s.core c).fenceAt = none) :
    let t := l.foldl (fun s x => sendRequest s c (f s x).1 (f s x).2.1 (f s x).2.2) s
    t.net.length = s.net.length + l.length ∧ (t.core c).regs = (s.core c).regs ∧ (t.core c).xfers = (s.core c).xfers := by
  induction l generalizing s with
  | nil => exact ⟨rfl, rfl, rfl⟩
  | cons x l ih =>
    obtain ⟨hnet, hopen, hregs, hxfers⟩ := sendRequest_open h (f s x).1 (f s x).2.1 (f s x).2.2
    obtain ⟨inet, iregs, ixfers⟩ := ih _ hopen
    refine ⟨?_, iregs.trans hregs, ixfers.trans hxfers⟩
    rw [List.foldl_cons, inet, hnet, hf, List.length_cons]
    omega

theorem xferStart_acts (c : CoreId) (x : Fin 4) (val : Word) (s : State) :
    let k := settleCore (s.core c.val) s.now
    let r := xferReg x.val 0x14
    leads (.xferStart c x val) s fun t =>
      (xferRefused k x.val val = true → t.net = s.net ∧ fld (cReg (t.core c.val) r) 4 1 = 14 ∧ (t.core c.val).xfers = k.xfers) ∧
      (xferRefused k x.val val = false → (s.core c.val).fenceAt = none → cReg (t.core c.val) r = 1#32 ∧
        t.net.length = s.net.length + (touched 512 (xferAddr k x.val) (fld val 20 0)).length ∧
        ∃ f, mget? (t.core c.val).xfers x.val = some f ∧ f.left = (touched 512 (xferAddr k x.val) (fld val 20 0)).length ∧
          f.len = fld val 20 0 ∧ f.toBurmon = bit val 21) := by
  intro k r
  have hservice : ServiceKept (s.core c.val) k := settleCore_service _ _
  refine leads_of (t := xferStart s c.val x.val val) rfl ?_
  unfold xferStart
  rw [show settleCore (s.core c.val) s.now = k from rfl]
  clear_value k
  dsimp only
  refine ⟨fun hbad => ?_, fun hgood hopen => ?_⟩
  · rw [if_pos hbad, core_setCore_self]
    refine ⟨setCore_net _ _ _, ?_, rfl⟩
    refine (congrArg (fld · 4 1) (cReg_cFld_self k r 4 1 0xE)).trans ?_
    exact fld_setFld_self _ _ _ _ (by decide)
  · rw [if_neg (by rw [hgood]; decide)]
    generalize hk1 : ({ cSet k (xferReg x.val 0x14) 1#32 with xfers := _ } : Core) = k1
    have hpieces : (xferPieces (xferAddr k x.val) (fld val 20 0)).length = (touched 512 (xferAddr k x.val) (fld val 20 0)).length := by
      simp [xferPieces]
    obtain ⟨hnet, hregs, hxfers⟩ := foldl_sendRequest_open (c := c.val)
      (fun _ p => ([xferPacket k s.now (bit val 21) (xferAddr k x.val) (fld (cReg k (xferReg x.val 8)) 21 0) p], reqXfer, x.val + 4 * p.1))
      (fun _ _ => rfl) (xferPieces (xferAddr k x.val) (fld val 20 0)) (s.setCore c.val k1)
      (by rw [core_setCore_self, ← hk1]; exact hservice.fenceAt.trans hopen)
    refine ⟨(congrArg (fun m => regRaw coreRegs m r) hregs).trans ?_, hnet.trans (by rw [setCore_net, hpieces]), ?_⟩
    · rw [core_setCore_self, ← hk1]
      exact cReg_cSet_self k r 1#32
    · have hf : ∃ f, mget? k1.xfers x.val = some f ∧ f.left = (touched 512 (xferAddr k x.val) (fld val 20 0)).length ∧ f.len = fld val 20 0 ∧
          f.toBurmon = bit val 21 := by
        rw [← hk1]
        exact ⟨_, mget_mset_self _ _ _, hpieces, rfl, rfl⟩
      obtain ⟨f, hget, hprops⟩ := hf
      refine ⟨f, (congrArg (mget? · x.val) hxfers).trans ?_, hprops⟩
      rw [core_setCore_self]
      exact hget

/-! ### The end of a transfer -/

/-- The word that a transfer's end writes (R411). -/
theorem completionWord (status tarn : Nat) :
    bit (BitVec.ofNat 32 (packFields [(4, status), (1, tarn), (26, 0), (1, 1)])) 31 = true ∧
      fld (BitVec.ofNat 32 (packFields [(4, status), (1, tarn), (26, 0), (1, 1)])) 3 0 = status % 16 := by
  have hvalue : packFields [(4, status), (1, tarn), (26, 0), (1, 1)] = status % 16 + 16 * (tarn % 2 + 2 * (67108864)) := by
    simp [packFields]
  rw [hvalue]
  refine ⟨?_, ?_⟩
  · simp only [bit, BitVec.getLsbD_ofNat]
    rw [Nat.testBit_eq_decide_div_mod_eq]
    simp
    omega
  · simp only [fld, BitVec.toNat_ofNat]
    omega

theorem xferComplete_effect (k : Core) (x t : Nat) {f : Xfer} (hf : mget? k.xfers x = some f) (hend : f.left = 0) :
    let r := xferReg x 0x14
    let k2 := xferComplete k x t
    let cw := cReg k (xferReg x 0xC)
    bit (cReg k2 r) 0 = false ∧ fld (cReg k2 r) 4 1 = f.status % 16 ∧ (bit cw 31 = false → k2.spad = k.spad) ∧
      (bit cw 31 = true → fld cw 21 2 * 4 + 4 ≤ 0x300000 →
        ∃ w, bytesStored (t + 1) (fld cw 21 2 * 4) (bytesOfWord w) k k2 ∧ bit w 31 = true ∧ fld w 3 0 = f.status % 16) := by
  intro r k2 cw
  obtain ⟨c2, hregs, hspad, hk2⟩ : ∃ c2 : Core, c2.regs = mset k.regs r (setFld (setFld (cReg k r) 0 0 0) 4 1 f.status) ∧ c2.spad = k.spad ∧
      k2 = if bit cw 31 then (if fld cw 21 2 * 4 + 4 ≤ spadEnd then
          { c2 with spad := spadPush c2.spad (plainWrite (t + latency k) 7 (fld cw 21 2 * 4)
            (bytesOfWord (BitVec.ofNat 32 (packFields [(4, f.status), (1, fld (cReg k r) 5 5), (26, 0), (1, 1)]))) false) }
        else cFlag c2 rSpdStatus 4#32) else c2 := by
    show ∃ c2 : Core, _ ∧ _ ∧ xferComplete k x t = _
    unfold xferComplete
    simp only [hf, hend, ne_eq, not_true_eq_false, if_false]
    refine ⟨_, ?_, ?_, rfl⟩
    · split
      · split <;> rfl
      · rfl
    · split
      · split <;> rfl
      · rfl
  have hreg : cReg k2 r = setFld (setFld (cReg k r) 0 0 0) 4 1 f.status := by
    have h2 : cReg c2 r = setFld (setFld (cReg k r) 0 0 0) 4 1 f.status := by
      rw [cReg, hregs, regRaw_mset_self]
    rw [hk2]
    split
    · split
      · exact h2
      · exact (cReg_cFlag_ne c2 _ _ _ (by simp only [r, xferReg, rSpdStatus]; omega)).trans h2
    · exact h2
  obtain ⟨hdone, hstatus⟩ := completionWord f.status (fld (cReg k r) 5 5)
  refine ⟨?_, ?_, fun hno => ?_, fun hyes hfits => ?_⟩
  · rw [hreg, bit_setFld _ _ _ _ _ (by decide), bit_setFld_zero _ (by decide)]
  · rw [hreg]
    exact fld_setFld_self _ _ _ _ (by decide)
  · rw [hk2, if_neg (by rw [hno]; decide)]
    exact hspad
  · rw [hk2, if_pos hyes, if_pos (show fld cw 21 2 * 4 + 4 ≤ spadEnd from hfits), hspad]
    refine ⟨BitVec.ofNat 32 (packFields [(4, f.status), (1, fld (cReg k r) 5 5), (26, 0), (1, 1)]), fun i cyc hi hcyc hlog => ?_, hdone, hstatus⟩
    have hcov : (plainWrite (t + latency k) 7 (fld cw 21 2 * 4)
        (bytesOfWord (BitVec.ofNat 32 (packFields [(4, f.status), (1, fld (cReg k r) 5 5), (26, 0), (1, 1)]))) false).covers (fld cw 21 2 * 4 + i) = true := by
      exact decide_eq_true ⟨Nat.le_add_right _ _, Nat.add_lt_add_left hi _⟩
    rw [show spadByte _ cyc (fld cw 21 2 * 4 + i) = _ from spadByte_push_self k.spad _ cyc _ hcov (by simp only [plainWrite]; omega) hlog]
    simp [plainWrite]

/-- Settles O34: the packets of a transfer are counted as they leave, and its end clears BUSY and writes the completion word. -/
theorem transfersAct : Obligations.TransfersAct := by
  intro c x val s k r
  refine ⟨xferStart_acts c x val s, fun h => ?_, fun f h => ⟨fun hleft => ?_, fun hleft => ?_⟩⟩
  · refine leads_of (t := s.setCore c.val (xferComplete (s.core c.val) x.val s.now)) rfl ⟨onlyCore_setCore _ _ _, ?_⟩
    rw [core_setCore_self]
    simp only [xferComplete, h]
  · refine leads_of (t := s.setCore c.val (xferComplete (s.core c.val) x.val s.now)) rfl ⟨onlyCore_setCore _ _ _, ?_⟩
    rw [core_setCore_self]
    simp only [xferComplete, h, if_pos hleft, and_self]
  · refine leads_of (t := s.setCore c.val (xferComplete (s.core c.val) x.val s.now)) rfl ⟨onlyCore_setCore _ _ _, ?_⟩
    rw [core_setCore_self]
    exact xferComplete_effect (s.core c.val) x.val s.now h hleft

end Sys2Proof.Machine
end

section
/-! PROOFS. Pours (R689 to R692): what a piece stores where no cycle has passed. -/

namespace Sys2Proof.Machine

/-- A receiver of image 5 of 2 chunks at 0x1000. Its scratchpad answers in the cycle of a request: the field of R206 that gives L is 0. -/
def hastyReceiver : Core :=
  { Core.reset with regs := [(rPourCfg, 0x80020005#32), (0x604, 0x1000#32), (rPourStatus, 1#32), (rSpdCfg, 0#32)] }

/-- The device in cycle 0 with that core. -/
def pourCycleZero : State := { State.reset with cores := [(0, hastyReceiver)] }

/-- A piece of chunk 1, with its header check and its payload check. -/
def onePiece : Packet :=
  sealHeader { Packet.blank with
    addr := 0x2E00#64, arg := 0x8000, payload := [1, 2, 3, 4], tdata := [5#32, 0x70001#32, 1#32, 2#32, 3#32]
    pcrc0 := (pcrcOf [1, 2, 3, 4]).1, pcrc1 := (pcrcOf [1, 2, 3, 4]).2 }

/-- Refutes O56: the commit cycle n + L - 1 of a piece is cycle 0 where n and L are 0, and no read in cycle 0 finds its bytes. -/
theorem not_poursAct : ¬ Obligations.PoursAct := by
  intro h
  obtain ⟨-, hpacket, -⟩ := h 0 pourCycleZero
  obtain ⟨-, -, -, -, hpiece⟩ := hpacket onePiece
  obtain ⟨t, ht, -, hbytes, -⟩ := hpiece (by decide +kernel) (by decide +kernel) (by decide +kernel) (by decide +kernel) (by decide +kernel)
    (by decide +kernel)
  have hdef : exec (.pourPacket 0 onePiece) pourCycleZero = execPourPacket 0 onePiece pourCycleZero := rfl
  rw [hdef, execPourPacket, if_neg (by decide +kernel)] at ht
  have hcore : t.core 0 = pourPacket (pourCycleZero.coreNow 0) 0 onePiece := by
    rw [← Host.Outcome.next.inj ht]
    decide +kernel
  have hbyte := hbytes 0 0 (by decide +kernel) (by decide +kernel) (by decide +kernel)
  change spadByte (t.core 0).spad 0 _ = _ at hbyte
  rw [hcore] at hbyte
  exact absurd hbyte (by decide +kernel)

end Sys2Proof.Machine
end

section
/-! PROOFS. Power of the module (R650): the partition with the largest current sum, where a list of partitions is out of order. -/

namespace Sys2Proof.Machine

/-- An image of one section with a peak of 1 A. -/
def smallImage : ProgImage := ⟨1, 0, 0, [⟨0, 0, false, [1], []⟩], [], [], [], [], [], [], []⟩

/-- Two partitions whose keys do not rise, so that a look-up finds no partition 3; the program of partition 3 draws the larger current. -/
def unsortedState : State :=
  { State.reset with hw := { State.reset.hw with
      parts := [(5, newPart State.reset 0 0 1 1 0 1 1), (3, newPart State.reset 0 0 1 1 0 1 1)]
      progs := [(0, ⟨3, smallImage, [], [], none⟩)] } }

/-- Refutes O52: `heaviest` names a partition that no look-up finds where the keys do not rise, and none is held. -/
theorem not_powerActs : ¬ Obligations.PowerActs := by
  rintro ⟨-, -, -, -, hpin, -⟩
  obtain ⟨t, ht, -, -, -, hheld⟩ := (hpin 65535 unsortedState).2 (by decide +kernel)
  obtain ⟨g, hg, -⟩ := hheld 3 (by decide +kernel)
  have hparts : t.hpart 3 = none := by
    rw [← Host.Outcome.next.inj ht]
    decide +kernel
  exact absurd (hparts ▸ hg) (by simp)

end Sys2Proof.Machine
end

section
/-! PROOFS. Registers of the window as the statements read them, and frame clocks with booked events (R443 to R449, R454, R455). -/

namespace Sys2Proof.Machine

/-! ### Counts, fields and flags of the window -/

theorem satTo_lt_field (hi lo n : Nat) : satTo (2 ^ (hi + 1 - lo) - 1) n < 2 ^ (hi + 1 - lo) := by
  rw [satTo_eq_min]
  have := Nat.two_pow_pos (hi + 1 - lo)
  omega

/-- A count of a field, read back. -/
theorem fld_wCount_self (s : State) (o : Nat) {hi : Nat} (lo n : Nat) (h : hi < 32) :
    fld (wReg (wCount s o hi lo n) o) hi lo = min (2 ^ (hi + 1 - lo) - 1) (fld (wReg s o) hi lo + n) := by
  rw [wReg_wCount_self, fld_setFld_self _ _ _ _ h, Nat.mod_eq_of_lt (satTo_lt_field hi lo _), satTo_eq_min]

theorem winCounts_wCount (s : State) (o : Nat) {hi : Nat} (lo n : Nat) (h : hi < 32) : winCounts s (wCount s o hi lo n) o hi lo n :=
  fld_wCount_self s o lo n h

/-- A count as any state shows it that agrees with the counted one in the register. -/
theorem winCounts_of_reg {s t u : State} {o hi lo n : Nat} (h : winCounts s t o hi lo n) (hreg : fld (wReg u o) hi lo = fld (wReg t o) hi lo) :
    winCounts s u o hi lo n := hreg.trans h

theorem fld_wFld_self (s : State) (o : Nat) {hi : Nat} (lo v : Nat) (h : hi < 32) : fld (wReg (wFld s o hi lo v) o) hi lo = v % 2 ^ (hi + 1 - lo) := by
  rw [wReg_wFld_self, fld_setFld_self _ _ _ _ h]

theorem fld_wFld_apart (s : State) (o hi lo v : Nat) {hi2 lo2 : Nat} (h : hi2 < lo ∨ hi < lo2) (p : Nat) :
    fld (wReg (wFld s o hi lo v) p) hi2 lo2 = fld (wReg s p) hi2 lo2 := by
  by_cases hp : p = o
  · rw [hp, wReg_wFld_self, fld_setFld_ne _ _ _ _ _ _ h]
  · rw [wReg_wFld_ne _ _ _ _ _ _ hp]

theorem fld_wCount_apart (s : State) (o hi lo n : Nat) {hi2 lo2 : Nat} (h : hi2 < lo ∨ hi < lo2) (p : Nat) :
    fld (wReg (wCount s o hi lo n) p) hi2 lo2 = fld (wReg s p) hi2 lo2 := by
  by_cases hp : p = o
  · rw [hp, wReg_wCount_self, fld_setFld_ne _ _ _ _ _ _ h]
  · rw [wReg_wCount_ne _ _ _ _ _ _ hp]

theorem bit_wFld_apart (s : State) (o hi lo v : Nat) {i : Nat} (h : i < lo ∨ hi < i) (p : Nat) : bit (wReg (wFld s o hi lo v) p) i = bit (wReg s p) i := by
  by_cases hp : p = o
  · rw [hp, wReg_wFld_self, bit_setFld _ _ _ _ _ h]
  · rw [wReg_wFld_ne _ _ _ _ _ _ hp]

theorem bit_wFld_self (s : State) (o : Nat) {i : Nat} (v : Nat) (h : i < 32) : bit (wReg (wFld s o i i v) o) i = v.testBit 0 := by
  rw [wReg_wFld_self, bit_setFld_one _ _ _ h]

/-- A flag raised stands, and a field outside it is as it was. -/
theorem bit_wFlag_self (s : State) (o : Nat) (m : Word) {i : Nat} (h : bit m i = true) : bit (wReg (wFlag s o m) o) i = true := by
  rw [wReg_wFlag_self, bit_or, h, Bool.or_true]

theorem fld_wFlag_apart (s : State) (o : Nat) (m : Word) {hi lo : Nat} (h : fld m hi lo = 0) (p : Nat) :
    fld (wReg (wFlag s o m) p) hi lo = fld (wReg s p) hi lo := by
  by_cases hp : p = o
  · rw [hp, wReg_wFlag_self, fld_or_zero _ _ _ _ h]
  · rw [wReg_wFlag_ne _ _ _ _ hp]

/-- A field set is set modulo its width. -/
theorem fld_mod (w : Word) (hi lo : Nat) : fld w hi lo % 2 ^ (hi + 1 - lo) = fld w hi lo := Nat.mod_eq_of_lt (fld_lt w hi lo)

/-! ### Frame clocks -/

/-- The registers of frame clock k differ from those of the timebase's block before them, and from each other. -/
theorem tClk_ne {k r r2 : Nat} (h : r ≠ r2) : tClk k r ≠ tClk k r2 := by
  unfold tClk
  omega

theorem tClk_ne_below {o : Nat} (k r : Nat) (h : o < 0x10100) : o ≠ tClk k r := by
  unfold tClk
  omega

/-- The position registers of a frame clock, and nothing of it that says how it runs. -/
theorem wReg_putClk (s : State) (k : Nat) (c : FrameClk) {o : Nat} (h0 : o ≠ tClk k 0xC) (h1 : o ≠ tClk k 0x10) (h2 : o ≠ tClk k 0x14)
    (h3 : o ≠ tClk k 0x18) : wReg (putClk s k c) o = wReg s o := by
  unfold putClk
  rw [wReg_wFld_ne _ _ _ _ _ _ h3, wReg_wSet_ne _ _ _ _ h2, wReg_wSet_ne _ _ _ _ h1, wReg_wSet_ne _ _ _ _ h0]
  rfl

theorem clkPos_putClk_self (s : State) (k : Nat) (c : FrameClk) : clkPos (putClk s k c) k = c := mgetD_mset_self _ _ _ _

theorem clkPos_putClk_ne (s : State) (k : Nat) (c : FrameClk) {j : Nat} (h : j ≠ k) : clkPos (putClk s k c) j = clkPos s j :=
  mgetD_mset_ne _ _ _ _ _ h

theorem clkEnable_acts (s : State) (k : Nat) (val : Word) :
    let n := clkNum s k
    let d := clkDen s k
    let l := fld val 13 0
    let ok := (tState s = tLocked ∨ tState s = tHoldover ∨ tState s = tAdrift) ∧ 24000 * d ≤ 1001 * n ∧ n ≤ 240 * d ∧
      3 * n * l ≤ 1000000 * d ∧ 1 ≤ n ∧ n ≤ 240000 ∧ 1 ≤ d ∧ d ≤ 65535 ∧ 1 ≤ l ∧ l ≤ 16383
    (clkOn s k = true → bit val 31 = true → clkEnable s k val = s) ∧
    (clkOn s k = true → bit val 31 = false → onlyWin s (clkEnable s k val) ∧ clkOn (clkEnable s k val) k = false ∧
      clkLines (clkEnable s k val) k = clkLines s k) ∧
    (clkOn s k = false → bit val 31 = false → onlyWin s (clkEnable s k val) ∧ clkOn (clkEnable s k val) k = false ∧
      clkLines (clkEnable s k val) k = l) ∧
    (clkOn s k = false → bit val 31 = true → ¬ ok → onlyWin s (clkEnable s k val) ∧ clkOn (clkEnable s k val) k = false ∧
      bit (wReg (clkEnable s k val) (tClk k 0x18)) 1 = true) ∧
    (clkOn s k = false → bit val 31 = true → ok → clkOn (clkEnable s k val) k = true ∧ clkLines (clkEnable s k val) k = l ∧
      clkPos (clkEnable s k val) k = ⟨lineAt n d l (mapNs s.tmb s.now).toNat / l, lineAt n d l (mapNs s.tmb s.now).toNat % l, false⟩) := by
  intro n d l ok
  have hlines : clkLines (wFld s (tClk k 8) 13 0 l) k = l := by
    rw [clkLines, fld_wFld_self _ _ _ _ (by decide)]
    exact fld_mod val 13 0
  have hon : bit (wReg (wFld s (tClk k 8) 13 0 l) (tClk k 8)) 31 = clkOn s k := bit_wFld_apart s (tClk k 8) 13 0 l (Or.inr (by decide)) _
  have hnum : clkNum (wFld s (tClk k 8) 13 0 l) k = n := congrArg (fld · 17 0) (wReg_wFld_ne s _ _ _ _ _ (tClk_ne (by decide)))
  have hden : clkDen (wFld s (tClk k 8) 13 0 l) k = d := congrArg (fld · 15 0) (wReg_wFld_ne s _ _ _ _ _ (tClk_ne (by decide)))
  have hstate : tState (wFld s (tClk k 8) 13 0 l) = tState s :=
    congrArg (fld · 2 0) (wReg_wFld_ne s _ _ _ _ _ (tClk_ne_below k 8 (by decide : tStatus < 0x10100)))
  refine ⟨fun h hb => ?_, fun h hb => ?_, fun h hb => ?_, fun h hb hno => ?_, fun h hb hok => ?_⟩
  · rw [clkEnable, if_pos h, if_pos hb]
  · rw [clkEnable, if_pos h, hb, if_neg (by decide)]
    exact ⟨rfl, bit_wFld_self s _ 0 (by decide), fld_wFld_apart s _ _ _ _ (Or.inl (by decide)) _⟩
  · rw [clkEnable, h, hb, if_neg (by decide), if_neg (by decide)]
    exact ⟨rfl, hon.trans h, hlines⟩
  · rw [clkEnable, h, hb, if_neg (by decide), if_pos rfl]
    dsimp only
    rw [if_neg (by rw [hnum, hden, hlines, hstate]; exact hno)]
    exact ⟨rfl, (congrArg (bit · 31) (wReg_wFlag_ne _ _ _ _ (tClk_ne (by decide)))).trans (hon.trans h), bit_wFlag_self _ _ _ (by decide)⟩
  · rw [clkEnable, h, hb, if_neg (by decide), if_pos rfl]
    dsimp only
    rw [if_pos (by rw [hnum, hden, hlines, hstate]; exact hok), hlines]
    have hput : ∀ (u : State) c, wReg (putClk u k c) (tClk k 8) = wReg u (tClk k 8) := fun u c =>
      wReg_putClk u k c (tClk_ne (by decide)) (tClk_ne (by decide)) (tClk_ne (by decide)) (tClk_ne (by decide))
    refine ⟨(congrArg (bit · 31) (hput _ _)).trans (bit_wFld_self _ _ 1 (by decide)), ?_, ?_⟩
    · exact (congrArg (fld · 13 0) (hput _ _)).trans ((fld_wFld_apart _ _ _ _ _ (Or.inl (by decide)) _).trans hlines)
    · rw [clkPos_putClk_self]
      have hline : clkLineNow (wFld (wFld s (tClk k 8) 13 0 l) (tClk k 8) 31 31 1) k = lineAt n d l (mapNs s.tmb s.now).toNat := by
        have hn2 : clkNum (wFld (wFld s (tClk k 8) 13 0 l) (tClk k 8) 31 31 1) k = n :=
          (congrArg (fld · 17 0) (wReg_wFld_ne _ _ _ _ _ _ (tClk_ne (by decide)))).trans hnum
        have hd2 : clkDen (wFld (wFld s (tClk k 8) 13 0 l) (tClk k 8) 31 31 1) k = d :=
          (congrArg (fld · 15 0) (wReg_wFld_ne _ _ _ _ _ _ (tClk_ne (by decide)))).trans hden
        have hl2 : clkLines (wFld (wFld s (tClk k 8) 13 0 l) (tClk k 8) 31 31 1) k = l :=
          (fld_wFld_apart _ _ _ _ _ (Or.inl (by decide)) _).trans hlines
        rw [clkLineNow, hn2, hd2, hl2]
        rfl
      rw [hline]

/-- A position that is not before another. -/
def FrameClk.upTo (a b : FrameClk) : Prop := a.frame < b.frame ∨ (a.frame = b.frame ∧ a.line ≤ b.line)

/-- A clock brought to the present: as it was, or at a position that is not before the one it had, with what it skipped counted. -/
theorem clkUpdate_cases (st : Bool) (s : State) (k : Nat) :
    clkUpdate st s k = s ∨ ∃ c, (clkPos s k).upTo c ∧
      (clkUpdate st s k = putClk s k c ∨ ∃ n, clkUpdate st s k = wCount (putClk s k c) (tClk k 0x18) 31 16 n) := by
  unfold clkUpdate
  split
  · extract_lets n f l c s1
    right
    split
    · next h =>
      refine ⟨⟨f, l, false⟩, ?_, ?_⟩
      · show c.frame < f ∨ (c.frame = f ∧ c.line ≤ l)
        omega
      · split
        · exact Or.inr ⟨_, rfl⟩
        · exact Or.inl rfl
    · exact ⟨{ clkPos s k with held := true }, Or.inr ⟨rfl, Nat.le_refl _⟩, Or.inl rfl⟩
  · exact Or.inl rfl

theorem clkPos_wCount (s : State) (o hi lo n j : Nat) : clkPos (wCount s o hi lo n) j = clkPos s j := rfl

/-- A running clock brought to the present does not go back, and no other clock moves. -/
theorem clkUpdate_acts (st : Bool) (s : State) (k : Nat) :
    (clkPos s k).upTo (clkPos (clkUpdate st s k) k) ∧ (∀ j, j ≠ k → clkPos (clkUpdate st s k) j = clkPos s j) ∧ (clkUpdate st s k).now = s.now := by
  obtain h | ⟨c, hc, h | ⟨n, h⟩⟩ := clkUpdate_cases st s k
  · rw [h]
    exact ⟨Or.inr ⟨rfl, Nat.le_refl _⟩, fun _ _ => rfl, rfl⟩
  · rw [h, clkPos_putClk_self]
    exact ⟨hc, fun j hj => clkPos_putClk_ne _ _ _ hj, putClk_now ..⟩
  · rw [h, clkPos_wCount, clkPos_putClk_self, wCount_now]
    exact ⟨hc, fun j hj => (clkPos_wCount ..).trans (clkPos_putClk_ne _ _ _ hj), putClk_now ..⟩

theorem lineStart_acts (k : Fin 16) (s : State) :
    let c := clkPos s k.val
    let m := c.frame * clkLines s k.val + c.line + 1
    (clkOn s k.val = false ∨ clkLines s k.val = 0 → exec (.lineStart k) s = .next s) ∧
    (clkOn s k.val = true → clkLines s k.val ≠ 0 → leads (.lineStart k) s fun t =>
      t.now = max s.now (devOf s.tmb (lineNs (clkNum s k.val) (clkDen s k.val) (clkLines s k.val) m)) ∧
      (c.frame < (clkPos t k.val).frame ∨ (c.frame = (clkPos t k.val).frame ∧ c.line ≤ (clkPos t k.val).line)) ∧
      ∀ j, j ≠ k.val → clkPos t j = clkPos s j) := by
  intro c m
  have hdef : exec (.lineStart k) s = execLineStart k s := rfl
  refine ⟨fun h => ?_, fun hon hl => ?_⟩
  · rw [hdef, execLineStart, if_pos]
    exact h.imp (fun h => by rw [h]; decide) id
  · refine leads_of (by rw [hdef, execLineStart, if_neg (by simp [hon, hl])]) ?_
    obtain ⟨hfwd, hothers, hnow⟩ := clkUpdate_acts false (s.reach (devOf s.tmb (lineNs (clkNum s k.val) (clkDen s k.val) (clkLines s k.val) m))) k.val
    exact ⟨hnow, hfwd, hothers⟩

/-! ### Booked events -/

theorem eventBook_acts (b : BookKind) (time : Nat) (s : State) :
    let full := 16 ≤ (s.tmb.events.filter fun e => sameTarget e.kind b).length
    let odd := (∃ p, b = .launch p) ∧ time % 4096 ≠ 0
    (time < s.now + 4096 ∨ full ∨ odd → exec (.eventBook b time) s = .next (s.answer 1 [])) ∧
    (s.now + 4096 ≤ time → ¬ full → ¬ odd → leads (.eventBook b time) s fun t =>
      t.tmb.events = s.tmb.events ++ [⟨s.tmb.nextEv, b, time⟩] ∧ t.reply = some ⟨0, [BitVec.ofNat 32 s.tmb.nextEv]⟩ ∧ t.now = s.now) := by
  intro full odd
  have hdef : exec (.eventBook b time) s = execEventBook b time s := rfl
  have hok : bookOk s b time = true ↔ s.now + 4096 ≤ time ∧ ¬ full ∧ ¬ odd := by
    cases b <;> simp [bookOk, full, odd, and_assoc]
  refine ⟨fun h => ?_, fun hlead hroom hplace => ?_⟩
  · rw [hdef, execEventBook, if_neg]
    rw [hok]
    rintro ⟨hlead, hroom, hplace⟩
    rcases h with h | h | h
    · omega
    · exact hroom h
    · exact hplace h
  · have htaken := hok.mpr ⟨hlead, hroom, hplace⟩
    refine leads_of (by rw [hdef, execEventBook, if_pos htaken, bookEvent, if_pos htaken]) ?_
    exact ⟨rfl, rfl, rfl⟩

theorem eventCancel_acts (id : Nat) (s : State) :
    ((∀ e ∈ s.tmb.events, e.id ≠ id) → exec (.eventCancel id) s = .next (s.answer 1 [])) ∧
    ∀ e, s.tmb.events.find? (fun e => e.id == id) = some e →
      (e.time < s.now + 4096 → exec (.eventCancel id) s = .next (s.answer 1 [])) ∧
      (s.now + 4096 ≤ e.time → leads (.eventCancel id) s fun t => t.reply = some ⟨0, []⟩ ∧
        ∀ x, x ∈ t.tmb.events ↔ x ∈ s.tmb.events ∧ x.id ≠ id) := by
  have hdef : exec (.eventCancel id) s = execEventCancel id s := rfl
  refine ⟨fun h => ?_, fun e he => ⟨fun hlate => ?_, fun htime => ?_⟩⟩
  · rw [hdef, execEventCancel, List.find?_eq_none.mpr (fun e he => by simpa using h e he)]
  · rw [hdef, execEventCancel, he]
    exact if_neg (by omega)
  · refine leads_of (by rw [hdef, execEventCancel, he]; exact if_pos htime) ⟨rfl, fun x => ?_⟩
    simp [List.mem_filter]

theorem onlyWin_refl (s : State) : onlyWin s s := rfl

/-- A write of one more window register is still a change of the registers alone. -/
theorem onlyWin.wSet {s t : State} (h : onlyWin s t) (off : Nat) (w : Word) : onlyWin s (wSet t off w) := h

theorem snap_acts (s : State) :
    leads .snap s fun t => onlyWin s t ∧ wReg t 0x10024 = BitVec.ofNat 32 s.tmb.d0 ∧ wReg t 0x10028 = BitVec.ofNat 32 (s.tmb.d0 / 2 ^ 32) ∧
      wReg t 0x1002C = BitVec.ofNat 32 (s.tmb.p0 / (two40 : Int)).toNat ∧
      wReg t 0x10030 = BitVec.ofNat 32 ((s.tmb.p0 / (two40 : Int)).toNat / 2 ^ 32) ∧
      wReg t 0x10034 = BitVec.ofNat 32 s.tmb.rate ∧ wReg t 0x10038 = BitVec.ofNat 32 (s.tmb.rate / 2 ^ 32) := by
  have hdef : exec .snap s = .next (snapMap s) := rfl
  refine leads_of hdef ⟨?_, ?_⟩
  · unfold snapMap
    exact (((((onlyWin_refl s).wSet ..).wSet ..).wSet ..).wSet ..).wSet .. |>.wSet ..
  · unfold snapMap
    simp [wReg_wSet_ne]

theorem exec_frameClockEnable (k : Fin 16) (val : Word) (s : State) :
    exec (.frameClockEnable k val) s = .next (clkEnable s k.val val) := rfl

/-- Settles O36: the commands of frame clocks and booked events, one by one. -/
theorem clocksAndEventsAct : Obligations.ClocksAndEventsAct := by
  intro s
  refine ⟨fun k val => ?_, fun k => lineStart_acts k s, fun b time => eventBook_acts b time s, fun id => eventCancel_acts id s, snap_acts s⟩
  obtain ⟨hsame, hoff, hstays, hbad, hgood⟩ := clkEnable_acts s k.val val
  rw [exec_frameClockEnable]
  exact ⟨fun hon hb => congrArg _ (hsame hon hb), fun hon hb => leads_of (exec_frameClockEnable ..) (hoff hon hb),
    fun h hb => leads_of (exec_frameClockEnable ..) (hstays h hb),
    fun h hb hno => leads_of (exec_frameClockEnable ..) (hbad h hb hno), fun h hb hok => leads_of (exec_frameClockEnable ..) (hgood h hb hok)⟩

end Sys2Proof.Machine
end

section
/-! PROOFS. The bring-up messages. -/
namespace Sys2Proof.Machine

/-! ### What a frame that leaves keeps (R462) -/

/-- An offset of the window that no count of sent frames or bytes stands at. -/
def notSent (o : Nat) : Prop := o < 0x20050 ∨ o % 0x400 < 0x50 ∨ 0x60 ≤ o % 0x400

/-- A port but for the frames that wait to leave. -/
def Port.sameButQueue (a b : Port) : Prop := { b with txq := a.txq } = a

/-- What frames that leave may change: the counts of what was sent and the frames that wait. -/
structure FramesSent (s t : State) : Prop where
  rest : { t with win := s.win, ports := s.ports } = s
  reg : ∀ o, notSent o → wReg t o = wReg s o
  port : ∀ p, (s.port p).sameButQueue (t.port p)

theorem FramesSent.refl (s : State) : FramesSent s s := ⟨rfl, fun _ _ => rfl, fun _ => rfl⟩

theorem FramesSent.trans {s t u : State} (h : FramesSent s t) (h2 : FramesSent t u) : FramesSent s u where
  rest := by
    have e := congrArg (fun x : State => { x with win := s.win, ports := s.ports }) h2.rest
    exact e.trans h.rest
  reg o ho := (h2.reg o ho).trans (h.reg o ho)
  port p := by
    have e := congrArg (fun x : Port => { x with txq := (s.port p).txq }) (h2.port p)
    exact e.trans (h.port p)

theorem pReg_ne_of_notSent {o : Nat} (h : notSent o) (p : Nat) {r : Nat} (h1 : 0x50 ≤ r) (h2 : r < 0x60) : o ≠ pReg p r := by
  unfold notSent at h
  unfold pReg
  omega

theorem portCount64_sent (s : State) (p n : Nat) {o : Nat} (h1 : 0x50 ≤ o) (h2 : o < 0x5C) : FramesSent s (portCount64 s p o n) := by
  unfold portCount64
  refine ⟨rfl, fun q hq => ?_, fun _ => rfl⟩
  rw [wReg_wSet_ne _ _ _ _ (pReg_ne_of_notSent hq p (by omega) (by omega)), wReg_wSet_ne _ _ _ _ (pReg_ne_of_notSent hq p h1 (by omega))]

theorem putFrame_sent (s : State) (p len : Nat) : FramesSent s (putFrame s p len) :=
  (portCount64_sent s p 1 (by decide) (by decide)).trans (portCount64_sent _ p _ (by decide) (by decide))

/-- A port whose queue alone changed. -/
theorem setPort_sent (s : State) (p : Nat) (q : List (Nat × List Nat)) : FramesSent s (s.setPort p { s.port p with txq := q }) := by
  refine ⟨rfl, fun _ _ => rfl, fun r => ?_⟩
  by_cases h : r = p
  · subst h
    rw [port_setPort_self]
    rfl
  · rw [port_setPort_ne _ _ _ _ h]
    rfl

theorem sendFrame_sent (s : State) (p prio len : Nat) : FramesSent s (sendFrame s p prio len) := by
  unfold sendFrame
  split
  · exact FramesSent.refl s
  · split
    · exact setPort_sent s p _
    · exact putFrame_sent s p len

theorem FramesSent.mod {s t : State} (h : FramesSent s t) : t.mod = s.mod := by
  simpa using congrArg State.mod h.rest
theorem FramesSent.hw {s t : State} (h : FramesSent s t) : t.hw = s.hw := by
  simpa using congrArg State.hw h.rest
theorem FramesSent.now {s t : State} (h : FramesSent s t) : t.now = s.now := by
  simpa using congrArg State.now h.rest
theorem FramesSent.brup {s t : State} (h : FramesSent s t) (p : Nat) : (t.port p).brup = (s.port p).brup := by
  simpa using congrArg Port.brup (show { t.port p with txq := (s.port p).txq } = s.port p from h.port p)

/-! ### Replies (R464, R465, R672) -/

theorem onBrup_asked {s : State} {p : Nat} {src : Word} {reads : Bool} (h : asked s p src reads) (body : State) : onBrup s p src reads body = body := by
  obtain ⟨⟨e, he, hsrc⟩, hport, hrst⟩ := h
  refine if_pos ⟨List.any_eq_true.mpr ⟨e, he, by simpa using hsrc⟩, hport, hrst.imp_right fun h => by simp [h]⟩

theorem onBrup_silent {s : State} {p : Nat} {src : Word} {reads : Bool} (h : ¬ asked s p src reads) (body : State) : onBrup s p src reads body = s := by
  refine if_neg fun ⟨hout, hport, hrst⟩ => h ⟨?_, hport, hrst.imp_right fun h => by simpa using h⟩
  obtain ⟨e, he, hsrc⟩ := List.any_eq_true.mp hout
  exact ⟨e, he, by simpa using hsrc⟩

theorem brupReply_replied (s : State) (p : Nat) (src xid : Word) (status : Nat) (body : List Word) :
    repliedWith (brupReply s p src xid status body) p src xid status body := by
  refine ⟨rfl, fun e he => ?_⟩
  have hbrup := (sendFrame_sent (s.setPort p { s.port p with brup := (s.port p).brup.filter fun e => e.1 != src.toNat }) p 0 (62 + 4 * body.length)).brup p
  rw [port_setPort_self] at hbrup
  have he2 : e ∈ (s.port p).brup.filter fun e => e.1 != src.toNat := by
    exact (congrArg (e ∈ ·) hbrup).mp he
  simpa using (List.mem_filter.mp he2).2

theorem brupReply_mod (s : State) (p : Nat) (src xid : Word) (status : Nat) (body : List Word) : (brupReply s p src xid status body).mod = s.mod :=
  (sendFrame_sent _ p 0 _).mod

theorem brupReply_hw (s : State) (p : Nat) (src xid : Word) (status : Nat) (body : List Word) : (brupReply s p src xid status body).hw = s.hw :=
  (sendFrame_sent _ p 0 _).hw

theorem wReg_brupReply (s : State) (p : Nat) (src xid : Word) (status : Nat) (body : List Word) {o : Nat} (h : notSent o) :
    wReg (brupReply s p src xid status body) o = wReg s o := (sendFrame_sent _ p 0 _).reg o h

/-! ### The messages -/

theorem winReads_length (s : State) (o n : Nat) : (winReads s o n).1.length = n := by
  induction n generalizing s o with
  | zero => rfl
  | succ n ih => exact congrArg (· + 1) (ih _ _)

theorem cellGets_cellPuts (m : List Host.Cell) (a : Nat) (l : List Byte) (hm : cellsWf m = true) :
    cellGets (cellPuts m a l) a l.length = l := by
  refine List.ext_getElem (by simp [cellGets]) fun i _ h2 => ?_
  simp [cellGets, cellGet_cellPuts_inside m a i l hm h2, List.getElem?_eq_getElem h2]

theorem discover_acts (p : PortId) (src xid : Word) (len : Nat) (s : State) :
    (¬ asked s p.val src true → exec (.discover p src xid len) s = .next s) ∧
    (asked s p.val src true →
      (len ≠ 0 → leads (.discover p src xid len) s fun t => repliedWith t p.val src xid 6 []) ∧
      (len = 0 → leads (.discover p src xid len) s fun t => repliedWith t p.val src xid 0 (discoverWords s p.val))) := by
  have hdef : exec (.discover p src xid len) s = execDiscover p src xid len s := rfl
  refine ⟨fun h => by rw [hdef, execDiscover, onBrup_silent h], fun h => ⟨fun hl => ?_, fun hl => ?_⟩⟩
  · exact leads_of (by rw [hdef, execDiscover, onBrup_asked h, if_pos hl]; exact rfl) (brupReply_replied ..)
  · exact leads_of (by rw [hdef, execDiscover, onBrup_asked h, if_neg (not_not.mpr hl)]; exact rfl) (brupReply_replied ..)

/-- A message judged by three causes of a refusal is answered with the first of them, or executed. -/
theorem judged_reply (s body : State) (p : Nat) (src xid : Word) (a b c : Bool) :
    (if buJudge [(a, buBadAddr), (b, buDenied), (c, buBadLen)] ≠ buOk then
      brupReply s p src xid (buJudge [(a, buBadAddr), (b, buDenied), (c, buBadLen)]) [] else body) =
    if a then brupReply s p src xid 2 [] else if b then brupReply s p src xid 3 [] else if c then brupReply s p src xid 6 [] else body := by
  cases a <;> cases b <;> cases c <;> rfl

theorem bringupRead_acts (p : PortId) (src xid : Word) (len : Nat) (s : State) (a : BitVec 64) (n : Nat) :
    let x := Instr.bringupRead p src xid len a n
    let reply (status : Nat) (body : List Word) : Prop := leads x s fun t => repliedWith t p.val src xid status body
    let scrapped := lifeCycle s.mod = 4
    let low := portState s p.val = poUp ∧ ∃ i < max 1 (min 256 n), 0x1000 ≤ buOffset a.toNat i
    (¬ asked s p.val src true → exec x s = .next s) ∧
    (asked s p.val src true →
      (buAddrBad a.toNat n = true → reply 2 []) ∧
      (buAddrBad a.toNat n = false → scrapped ∨ low → reply 3 []) ∧
      (buAddrBad a.toNat n = false → ¬ scrapped → ¬ low → len ≠ 10 ∨ n = 0 ∨ 256 < n → reply 6 []) ∧
      (buAddrBad a.toNat n = false → ¬ scrapped → ¬ low → len = 10 → n ≠ 0 → n ≤ 256 →
        (winReads s (buOffset a.toNat 0) n).1.length = n ∧ reply 0 (winReads s (buOffset a.toNat 0) n).1)) := by
  intro x reply scrapped low
  have hdef : exec x s = execBringupRead p src xid len a n s := rfl
  have hdenied : (lifeCycle s.mod == 4 || (portState s p.val == poUp && (List.range (max 1 (min 256 n))).any fun i =>
      decide (0x1000 ≤ buOffset a.toNat i))) = true ↔ scrapped ∨ low := by
    simp [scrapped, low]
  have hlen : (len != 10 || n == 0 || decide (256 < n)) = true ↔ len ≠ 10 ∨ n = 0 ∨ 256 < n := by
    simp [or_assoc]
  refine ⟨fun h => by rw [hdef, execBringupRead, onBrup_silent h], fun h => ?_⟩
  rw [execBringupRead, onBrup_asked h, judged_reply] at hdef
  refine ⟨fun hbad => ?_, fun hgood hden => ?_, fun hgood hscr hlow hl => ?_, fun hgood hscr hlow hl h0 hn => ⟨winReads_length .., ?_⟩⟩
  · rw [if_pos hbad] at hdef
    exact leads_of hdef (brupReply_replied ..)
  · rw [if_neg (by simp [hgood]), if_pos (hdenied.mpr hden)] at hdef
    exact leads_of hdef (brupReply_replied ..)
  · rw [if_neg (by simp [hgood]), if_neg (mt hdenied.mp (not_or.mpr ⟨hscr, hlow⟩)), if_pos (hlen.mpr hl)] at hdef
    exact leads_of hdef (brupReply_replied ..)
  · rw [if_neg (by simp [hgood]), if_neg (mt hdenied.mp (not_or.mpr ⟨hscr, hlow⟩)), if_neg (mt hlen.mp (by omega))] at hdef
    exact leads_of hdef (brupReply_replied ..)

/-- The status of a word written to `brg.go` is one of those that a WRITE names. -/
theorem goStatus_ok {s : State} {w : Word} (h1 : goStatus s w ≠ buBadOp) (h2 : goStatus s w ≠ buDenied) (h3 : goStatus s w ≠ buBusy)
    (h4 : goStatus s w ≠ buOrder) : goStatus s w = buOk := by
  have hall : goStatus s w = buBadOp ∨ goStatus s w = buDenied ∨ goStatus s w = buBusy ∨ goStatus s w = buOrder ∨ goStatus s w = buOk := by
    unfold goStatus
    split_ifs <;> simp
  simpa [h1, h2, h3, h4] using hall

/-- A WRITE of `brg.go` that is not refused writes a word that starts its step. -/
theorem goStatus_of_verdict {s : State} {p n len : Nat} {w : Word} (h : writeVerdict s p 0x200000000004 n len [w] = 0) : goStatus s w = buOk := by
  have hgos : ((List.range (max 1 (min 256 n))).filter fun i => buOffset 0x200000000004 i == brgGo).filterMap (fun i => [w][i]?) = [w] := by
    obtain ⟨m, hm⟩ : ∃ m, max 1 (min 256 n) = m + 1 := ⟨max 1 (min 256 n) - 1, by omega⟩
    have hrest : (List.map Nat.succ (List.range m)).filter (fun i => buOffset 0x200000000004 i == brgGo) = [] := by
      refine List.filter_eq_nil_iff.mpr fun i hi => ?_
      obtain ⟨j, _, rfl⟩ := List.mem_map.mp hi
      simp [buOffset, brgGo, windowBase]
      omega
    rw [hm, List.range_succ_eq_map, List.filter_cons_of_pos (by decide), hrest]
    rfl
  unfold writeVerdict at h
  simp only [hgos, List.any_cons, List.any_nil, Bool.or_false, buJudge] at h
  refine goStatus_ok ?_ ?_ ?_ ?_ <;> intro hst <;> simp [hst, buBadOp, buDenied, buBadAddr, buBusy, buOrder] at h
  all_goals split_ifs at h

theorem startStep_runs (s : State) (w : Word) (auto : Bool) :
    stepRuns (startStep s w auto) (goStep w) = true ∧ (startStep s w auto).mod.stepAt = s.now := by
  refine ⟨?_, rfl⟩
  have hreg : ∃ r x, wReg (startStep s w auto) brgStep =
      setFld (setFld (setFld (setFld (setFld r 3 0 (goStep w)) 6 4 bsRunning) 13 8 x) 23 16 0) 31 24 0 :=
    ⟨_, _, (wReg_wSet_ne _ _ _ _ (by decide)).trans (wReg_wSet_self ..)⟩
  obtain ⟨r, x, hreg⟩ := hreg
  rw [stepRuns, brgState, brgCur, hreg]
  simp (disch := decide) [fld_setFld_ne, fld_setFld_self, bsRunning]
  exact fld_lt w 3 0

/-- A WRITE of one word to `brg.go` is the start of its step. -/
theorem winWrites_go {s : State} {w : Word} (h : goStatus s w = buOk) : winWrites s (buOffset 0x200000000004 0) [w] = startStep s w false :=
  if_pos h

theorem bringupWrite_acts (p : PortId) (src xid : Word) (len : Nat) (s : State) (a : BitVec 64) (n : Nat) (ws : List Word) :
    let x := Instr.bringupWrite p src xid len a n ws
    let verdict := writeVerdict s p.val a.toNat n len ws
    (¬ asked s p.val src false → exec x s = .next s) ∧
    (asked s p.val src false →
      (verdict ≠ 0 → leads x s fun t => repliedWith t p.val src xid verdict [] ∧ t.mod = s.mod ∧ t.hw = s.hw) ∧
      (verdict = 0 → leads x s fun t => repliedWith t p.val src xid 0 []) ∧
      ∀ w, verdict = 0 → a.toNat = 0x200000000004 → ws = [w] → leads x s fun t => repliedWith t p.val src xid 0 [] ∧
        stepRuns t (fld w 3 0) = true ∧ t.mod.stepAt = s.now) := by
  intro x verdict
  have hdef : exec x s = execBringupWrite p src xid len a n ws s := rfl
  refine ⟨fun h => by rw [hdef, execBringupWrite, onBrup_silent h], fun h => ?_⟩
  have hgood (h0 : verdict = 0) : exec x s = .next (brupReply (winWrites s (buOffset a.toNat 0) ws) p.val src xid buOk []) := by
    rw [hdef, execBringupWrite, onBrup_asked h]
    exact congrArg _ (if_neg (not_not.mpr h0))
  refine ⟨fun hbad => ?_, fun h0 => leads_of (hgood h0) (brupReply_replied ..), fun w h0 ha hw => ?_⟩
  · refine leads_of (t := brupReply s p.val src xid verdict []) ?_ ⟨brupReply_replied .., brupReply_mod .., brupReply_hw ..⟩
    rw [hdef, execBringupWrite, onBrup_asked h]
    exact congrArg _ (if_pos hbad)
  · subst hw
    have hgo := goStatus_of_verdict (s := s) (p := p.val) (n := n) (len := len) (w := w) (by rw [← ha]; exact h0)
    have hex := hgood h0
    rw [ha, winWrites_go hgo] at hex
    obtain ⟨hruns, hat⟩ := startStep_runs s w false
    refine leads_of hex ⟨brupReply_replied .., ?_, ?_⟩
    · rw [stepRuns, brgState, brgCur, wReg_brupReply _ _ _ _ _ _ (Or.inl (by decide))]
      exact hruns
    · rw [brupReply_mod]
      exact hat

theorem stage_acts (p : PortId) (src xid : Word) (len : Nat) (s : State) (o : Word) (bytes : List Byte) :
    let x := Instr.stage p src xid len o bytes
    let reply (status : Nat) (body : List Word) : Prop := leads x s fun t => repliedWith t p.val src xid status body
    let outside := o.toNat % 64 ≠ 0 ∨ 16777216 < o.toNat + bytes.length
    let scrapped := lifeCycle s.mod = 4
    let up := portState s p.val = poUp
    let sized := len = 4 + bytes.length ∧ bytes.length % 64 = 0 ∧ bytes ≠ [] ∧ bytes.length ≤ 8192
    (¬ asked s p.val src false → exec x s = .next s) ∧
    (asked s p.val src false →
      (outside → reply 2 []) ∧ (¬ outside → scrapped ∨ up → reply 3 []) ∧ (¬ outside → ¬ scrapped → ¬ up → ¬ sized → reply 6 []) ∧
      (¬ outside → ¬ scrapped → ¬ up → sized → cellsWf s.mod.stage = true → leads x s fun t => repliedWith t p.val src xid 0 [] ∧
        cellGets t.mod.stage o.toNat bytes.length = bytes ∧ cellsWf t.mod.stage = true)) := by
  intro x reply outside scrapped up sized
  have hdef : exec x s = execStage p src xid len o bytes s := rfl
  have hout : (o.toNat % 64 != 0 || decide (16777216 < o.toNat + bytes.length)) = true ↔ outside := by
    simp [outside]
  have hshut : (lifeCycle s.mod == 4 || portState s p.val == poUp) = true ↔ scrapped ∨ up := by
    simp [scrapped, up]
  have hlen : (len != 4 + bytes.length || bytes.length % 64 != 0 || bytes.isEmpty || decide (8192 < bytes.length)) = true ↔ ¬ sized := by
    simp only [sized, Bool.or_eq_true, bne_iff_ne, List.isEmpty_iff, decide_eq_true_eq, not_and_or, ne_eq, not_not, not_le, or_assoc]
  refine ⟨fun h => by rw [hdef, execStage, onBrup_silent h], fun h => ?_⟩
  rw [execStage, onBrup_asked h, judged_reply] at hdef
  refine ⟨fun hbad => ?_, fun hin hden => ?_, fun hin hscr hup hl => ?_, fun hin hscr hup hl hwf => ?_⟩
  · rw [if_pos (hout.mpr hbad)] at hdef
    exact leads_of hdef (brupReply_replied ..)
  · rw [if_neg (mt hout.mp hin), if_pos (hshut.mpr hden)] at hdef
    exact leads_of hdef (brupReply_replied ..)
  · rw [if_neg (mt hout.mp hin), if_neg (mt hshut.mp (not_or.mpr ⟨hscr, hup⟩)), if_pos (hlen.mpr hl)] at hdef
    exact leads_of hdef (brupReply_replied ..)
  · rw [if_neg (mt hout.mp hin), if_neg (mt hshut.mp (not_or.mpr ⟨hscr, hup⟩)), if_neg (mt hlen.mp (not_not.mpr hl))] at hdef
    refine leads_of hdef ⟨brupReply_replied .., ?_⟩
    rw [brupReply_mod]
    exact ⟨cellGets_cellPuts _ _ _ hwf, cellPuts_wf _ _ _ hwf⟩

/-- Settles O55: the four messages, each by the causes of its refusal. -/
theorem bringUpMessagesAct : Obligations.BringUpMessagesAct := by
  intro p src xid len s
  obtain ⟨hsilent, hasked⟩ := discover_acts p src xid len s
  exact ⟨hsilent, hasked, fun a n => bringupRead_acts p src xid len s a n, fun a n ws => bringupWrite_acts p src xid len s a n ws,
    fun o bytes => stage_acts p src xid len s o bytes⟩

end Sys2Proof.Machine
end

section
/-! PROOFS. What messages that leave keep, and hallmark (R562 to R569). -/
namespace Sys2Proof.Machine

/-! ### Messages on queue pairs (R721) -/

/-- A queue pair but for what it has sent. -/
def Qp.unsent (k : Qp) : Qp := { k with psn := 0, una := [], sentAt := 0, seqTx := 0 }

/-- What messages that leave on queue pairs may change: the counts of what was sent, the frames that wait, the packets that await
their acknowledgement, and the answer that shows them. -/
structure JobsSent (s t : State) : Prop where
  rest : { t with win := s.win, ports := s.ports, reply := s.reply, hw := { t.hw with qps := s.hw.qps } } = s
  reg : ∀ o, notSent o → wReg t o = wReg s o
  port : ∀ p, (s.port p).sameButQueue (t.port p)
  qp : ∀ q, (t.qp q).map Qp.unsent = (s.qp q).map Qp.unsent

theorem JobsSent.refl (s : State) : JobsSent s s := ⟨rfl, fun _ _ => rfl, fun _ => rfl, fun _ => rfl⟩

theorem JobsSent.trans {s t u : State} (h : JobsSent s t) (h2 : JobsSent t u) : JobsSent s u where
  rest := by
    have e := congrArg (fun x : State => { x with win := s.win, ports := s.ports, reply := s.reply, hw := { x.hw with qps := s.hw.qps } }) h2.rest
    exact e.trans h.rest
  reg o ho := (h2.reg o ho).trans (h.reg o ho)
  port p := by
    have e := congrArg (fun x : Port => { x with txq := (s.port p).txq }) (h2.port p)
    exact e.trans (h.port p)
  qp q := (h2.qp q).trans (h.qp q)

theorem JobsSent.foldl {α : Type} {f : State → α → State} (hf : ∀ s x, JobsSent s (f s x)) (l : List α) (s : State) : JobsSent s (l.foldl f s) := by
  induction l generalizing s with
  | nil => exact JobsSent.refl s
  | cons x t ih => exact (hf s x).trans (ih _)

theorem FramesSent.jobs {s t : State} (h : FramesSent s t) : JobsSent s t where
  rest := by
    have e := congrArg (fun x : State => { x with reply := s.reply, hw := { x.hw with qps := s.hw.qps } }) h.rest
    exact e
  reg := h.reg
  port := h.port
  qp q := by rw [State.qp, h.hw]; rfl

theorem setQp_sent {s : State} {q : Nat} {k k1 : Qp} (hk : s.qp q = some k) (h : k1.unsent = k.unsent) : JobsSent s (s.setQp q k1) := by
  refine ⟨rfl, fun _ _ => rfl, fun _ => rfl, fun r => ?_⟩
  by_cases hr : r = q
  · subst hr
    rw [hk]
    simpa [State.qp, State.setQp] using h
  · simp [State.qp, State.setQp, mget_mset_ne _ _ _ _ hr]

theorem answer_sent (s : State) (st : Nat) (ws : List Word) : JobsSent s (s.answer st ws) := ⟨rfl, fun _ _ => rfl, fun _ => rfl, fun _ => rfl⟩

theorem qpSend_sent (s : State) (q bytes ext : Nat) : JobsSent s (qpSend s q bytes ext) := by
  unfold qpSend
  split
  · exact JobsSent.refl s
  · next k hk =>
    split
    · exact JobsSent.refl s
    · extract_lets n pk l k1
      have hk1 : JobsSent s (s.setQp q k1) := setQp_sent hk rfl
      exact hk1.trans (JobsSent.foldl (fun a x => (sendFrame_sent ..).jobs) _ _)

theorem sendAll_sent (s : State) (l : List (Nat × List Byte)) : JobsSent s (sendAll s l) := by
  unfold sendAll
  split
  · exact JobsSent.refl s
  · exact (JobsSent.foldl (fun a e => qpSend_sent ..) l s).trans (answer_sent ..)

theorem sendJob_sent (s : State) (p : Nat) (qs : List Nat) (j : JobWords) : JobsSent s (sendJob s p qs j) := by
  unfold sendJob
  split
  · exact JobsSent.refl s
  · split
    · exact JobsSent.refl s
    · refine (JobsSent.foldl (fun a q => ?_) qs s).trans (sendAll_sent ..)
      split
      · next x hx => exact setQp_sent hx rfl
      · exact JobsSent.refl a

theorem sendIntegrity_sent (s : State) (p : Nat) (qs : List Nat) (ty replica flags serial index : Nat) (extra digest : List Byte) :
    JobsSent s (sendIntegrity s p qs ty replica flags serial index extra digest) := by
  unfold sendIntegrity
  split
  · exact JobsSent.refl s
  · split
    · exact JobsSent.refl s
    · exact sendAll_sent ..

theorem JobsSent.now {s t : State} (h : JobsSent s t) : t.now = s.now := by simpa using congrArg State.now h.rest
theorem JobsSent.mod {s t : State} (h : JobsSent s t) : t.mod = s.mod := by simpa using congrArg State.mod h.rest
theorem JobsSent.parts {s t : State} (h : JobsSent s t) : t.hw.parts = s.hw.parts := by simpa using congrArg (fun x : State => x.hw.parts) h.rest
theorem JobsSent.hpart {s t : State} (h : JobsSent s t) (p : Nat) : t.hpart p = s.hpart p := congrArg (mget? · p) h.parts

/-! ### Writes of device memory (R412 to R417) -/

/-- What a write of device memory may change: the stacks, the records and the free bits that an uncorrectable block takes. -/
def memWritten (s t : State) : Prop := { t with stks := s.stks, records := s.records, free := s.free } = s

theorem memWritten.refl (s : State) : memWritten s s := rfl

theorem memWritten.trans {s t u : State} (h : memWritten s t) (h2 : memWritten t u) : memWritten s u := by
  have e := congrArg (fun x : State => { x with stks := s.stks, records := s.records, free := s.free }) h2
  exact e.trans h

theorem memWritten.foldl {α : Type} {f : State → α → State} (hf : ∀ s x, memWritten s (f s x)) (l : List α) (s : State) : memWritten s (l.foldl f s) := by
  induction l generalizing s with
  | nil => rfl
  | cons x t ih => exact (hf s x).trans (ih _)

theorem setStack_written (s : State) (n : Nat) (k : Stack) : memWritten s (s.setStack n k) := rfl

theorem readBlock_written (s : State) (st blk errs : Nat) (scrub : Bool) : memWritten s (readBlock s st blk errs scrub) := by
  unfold readBlock
  dsimp only
  split_ifs <;> exact rfl

theorem writeBlock_written (st off len : Nat) (tarn : Bool) (found : List (Nat × Nat)) (s : State) (blk : Nat) :
    memWritten s (writeBlock st off len tarn found s blk) := by
  unfold writeBlock
  extract_lets whole s1 k mark
  have h1 : memWritten s s1 := by
    show memWritten s (if whole then s else readBlock s st blk (errsOf found blk) false)
    split_ifs
    · exact rfl
    · exact readBlock_written ..
  exact h1.trans (setStack_written ..)

theorem burmonWrite_written (s : State) (st off : Nat) (bytes : List Byte) (tarn : Bool) (part : Nat) (crcGood : Bool) (found : List (Nat × Nat)) :
    memWritten s (burmonWrite s st off bytes tarn part crcGood found).1 := by
  unfold burmonWrite
  split
  · exact rfl
  · split
    · exact rfl
    · split
      · exact rfl
      · extract_lets s1 k
        have h1 : memWritten s s1 := memWritten.foldl (fun a b => writeBlock_written ..) _ s
        exact h1.trans (setStack_written ..)

theorem devWrite_written (s : State) (a : Nat) (bytes : List Byte) : memWritten s (devWrite s a bytes) := by
  unfold devWrite
  refine memWritten.foldl (fun s1 b => ?_) _ s
  dsimp only
  split
  · exact burmonWrite_written ..
  · exact rfl

theorem putHeader_written (s : State) (b : HostBuf) (ws : List Word) : memWritten s (putHeader s b ws) := devWrite_written ..

theorem memWritten.hw {s t : State} (h : memWritten s t) : t.hw = s.hw := by simpa using congrArg State.hw h

/-! ### The end of requests (R526, R527) -/

/-- A partition but for its requests. -/
def Partn.noReqs (k : Partn) : Partn := { k with reqs := [] }

/-- What the end of requests may change: device memory, the buffers and rings they came with, their launches, and which requests a
partition has. -/
structure ReqsEnded (s t : State) : Prop where
  rest : { t with stks := s.stks, records := s.records, free := s.free, tmb := { t.tmb with events := s.tmb.events },
                  hw := { t.hw with parts := s.hw.parts, rings := s.hw.rings, bufs := s.hw.bufs } } = s
  part : ∀ r, (t.hpart r).map Partn.noReqs = (s.hpart r).map Partn.noReqs

theorem ReqsEnded.refl (s : State) : ReqsEnded s s := ⟨rfl, fun _ => rfl⟩

theorem ReqsEnded.trans {s t u : State} (h : ReqsEnded s t) (h2 : ReqsEnded t u) : ReqsEnded s u where
  rest := by
    have e := congrArg (fun x : State => { x with stks := s.stks, records := s.records, free := s.free, tmb := { x.tmb with events := s.tmb.events },
                                                  hw := { x.hw with parts := s.hw.parts, rings := s.hw.rings, bufs := s.hw.bufs } }) h2.rest
    exact e.trans h.rest
  part r := (h2.part r).trans (h.part r)

theorem ReqsEnded.foldl {α : Type} {f : State → α → State} (hf : ∀ s x, ReqsEnded s (f s x)) (l : List α) (s : State) : ReqsEnded s (l.foldl f s) := by
  induction l generalizing s with
  | nil => exact ReqsEnded.refl s
  | cons x t ih => exact (hf s x).trans (ih _)

theorem memWritten.reqs {s t : State} (h : memWritten s t) : ReqsEnded s t where
  rest := by
    have e := congrArg (fun x : State => { x with tmb := { x.tmb with events := s.tmb.events },
                                                  hw := { x.hw with parts := s.hw.parts, rings := s.hw.rings, bufs := s.hw.bufs } }) h
    exact e
  part r := by rw [State.hpart, h.hw]; rfl

/-- A partition that changed in its requests alone. -/
theorem updPart_reqs (s : State) (p : Nat) {f : Partn → Partn} (hf : ∀ k, (f k).noReqs = k.noReqs) : ReqsEnded s (updPart s p f) := by
  unfold updPart
  split
  · next k hk =>
    refine ⟨rfl, fun r => ?_⟩
    by_cases h : r = p
    · subst h
      rw [hpart_setPart_self, hk]
      exact congrArg some (hf k)
    · rw [hpart_setPart_ne _ _ _ _ h]
  · exact ReqsEnded.refl s

theorem finishCmd_reqs (s : State) (r pos status : Nat) (handle : Word) (res : List Word) : ReqsEnded s (finishCmd s r pos status handle res) := by
  unfold finishCmd
  split
  · exact ReqsEnded.refl s
  · exact ⟨rfl, fun _ => rfl⟩

theorem endRequest_reqs (s : State) (p : Nat) (q : Request) (status cause : Nat) (tarn : Bool) : ReqsEnded s (endRequest s p q status cause tarn) := by
  unfold endRequest
  extract_lets s0 mine t1 s1 good
  have h0 : ReqsEnded s s0 := updPart_reqs s p fun _ => rfl
  have h1 : ReqsEnded s s1 := h0.trans ⟨rfl, fun _ => rfl⟩
  split
  · exact h1
  · split
    · exact h1.trans (finishCmd_reqs ..)
    · extract_lets b1 s2 s3 h
      have h2 : ReqsEnded s s2 := h1.trans ⟨rfl, fun _ => rfl⟩
      have h3 : ReqsEnded s2 s3 := by
        unfold s3
        split
        · exact (putHeader_written ..).reqs.trans ⟨rfl, fun _ => rfl⟩
        · exact ReqsEnded.refl s2
      exact (h2.trans h3).trans (finishCmd_reqs ..)

theorem endRequests_reqs (s : State) (p status cause : Nat) : ReqsEnded s (endRequests s p status cause) := by
  unfold endRequests
  split
  · exact ReqsEnded.refl s
  · exact ReqsEnded.foldl (fun a q => endRequest_reqs ..) _ s

theorem abortUnlaunched_reqs (s : State) (p : Nat) (test : Request → Bool) : ReqsEnded s (abortUnlaunched s p test) := by
  unfold abortUnlaunched
  split
  · exact ReqsEnded.refl s
  · exact ReqsEnded.foldl (fun a q => endRequest_reqs ..) _ s

theorem ReqsEnded.now {s t : State} (h : ReqsEnded s t) : t.now = s.now := by simpa using congrArg State.now h.rest
theorem ReqsEnded.win {s t : State} (h : ReqsEnded s t) : t.win = s.win := by simpa using congrArg State.win h.rest

theorem ReqsEnded.hpart {s t : State} (h : ReqsEnded s t) {p : Nat} {k : Partn} (hk : s.hpart p = some k) :
    ∃ rs, t.hpart p = some { k with reqs := rs } := by
  have e := h.part p
  rw [hk] at e
  obtain ⟨g, hg, hgk⟩ := Option.map_eq_some_iff.mp e
  refine ⟨g.reqs, hg.trans (congrArg some ?_)⟩
  have e2 := congrArg (fun x : Partn => { x with reqs := g.reqs }) hgk
  exact e2

/-! ### Hallmark (R562 to R569) -/

theorem hallmarkRound_none {s : State} {part : Nat} (h : s.hpart part = none) : exec (.hallmarkRound part) s = .next s := by
  have hdef : exec (.hallmarkRound part) s = execHallmarkRound part s := rfl
  rw [hdef, execHallmarkRound, h]

theorem hallmarkRound_acts (part : Nat) (s : State) {k : Partn} (hk : s.hpart part = some k) :
    (k.checks.cls ≠ 1 → exec (.hallmarkRound part) s = .next s) ∧
    (k.checks.cls = 1 → k.round = none → exec (.hallmarkRound part) s = .next (s.setPart part { k with round := some ⟨0, k.step - 1, none, false⟩ })) ∧
    ∀ r, k.round = some r →
      (k.checks.cls = 1 → r.own = none ∨ k.step - 1 < r.step + k.checks.hmN → exec (.hallmarkRound part) s = .next s) ∧
      (k.checks.cls = 1 → r.own ≠ none → r.step + k.checks.hmN ≤ k.step - 1 → leads (.hallmarkRound part) s fun t =>
        ∃ g, t.hpart part = some g ∧ g.round = some ⟨r.num + 1, k.step - 1, none, false⟩) := by
  have hdef : exec (.hallmarkRound part) s = execHallmarkRound part s := rfl
  simp only [execHallmarkRound, hk] at hdef
  refine ⟨fun hc => hdef.trans (if_pos hc), fun hc hr => ?_, fun r hr => ⟨fun hc hno => ?_, fun hc hown hn => ?_⟩⟩
  · rw [if_neg (not_not.mpr hc)] at hdef
    simp only [hr] at hdef
    exact hdef
  · rw [if_neg (not_not.mpr hc)] at hdef
    simp only [hr] at hdef
    refine hdef.trans (if_neg fun ⟨hsome, hle⟩ => ?_)
    obtain h | h := hno
    · rw [h] at hsome
      cases hsome
    · omega
  · rw [if_neg (not_not.mpr hc)] at hdef
    simp only [hr] at hdef
    rw [if_pos ⟨Option.isSome_iff_ne_none.mpr hown, hn⟩] at hdef
    exact leads_of hdef ⟨_, hpart_setPart_self .., rfl⟩

theorem hallmarkDigestDone_none {s : State} {part : Nat} (h : ∀ k, s.hpart part = some k → k.round = none) :
    exec (.hallmarkDigestDone part) s = .next s := by
  have hdef : exec (.hallmarkDigestDone part) s = execHallmarkDigestDone part s := rfl
  rw [hdef, execHallmarkDigestDone]
  split
  · rfl
  · next k hk => rw [h k hk]

theorem hallmarkDigestDone_acts (part : Nat) (s : State) {k : Partn} {r : Round} (hk : s.hpart part = some k) (hr : k.round = some r) :
    (r.own ≠ none → exec (.hallmarkDigestDone part) s = .next s) ∧
    (r.own = none → leads (.hallmarkDigestDone part) s fun t => t.now = s.now ∧ ∃ g, t.hpart part = some g ∧
      g.round = some { r with own := some s.now } ∧ mget? g.digests (8 * r.num + k.checks.replica) =
        some (sliceTarn s k.checks.ref (roundSlice s k r.num), sliceDigest s k.checks.ref (roundSlice s k r.num))) := by
  have hdef : exec (.hallmarkDigestDone part) s = execHallmarkDigestDone part s := rfl
  simp only [execHallmarkDigestDone, hk, hr] at hdef
  refine ⟨fun hown => hdef.trans (if_pos (Option.isSome_iff_ne_none.mpr hown)), fun hown => ?_⟩
  rw [if_neg (by simp [hown])] at hdef
  exact leads_of hdef ⟨(sendIntegrity_sent ..).now, _, ((sendIntegrity_sent ..).hpart part).trans (hpart_setPart_self ..), rfl, mget_mset_self ..⟩

/-- A replica that is expelled keeps its round, and no vote is counted with it. -/
theorem expel_acts (s : State) (p : Nat) :
    (expel s p).now = s.now ∧ fld (wReg (expel s p) iHallmark) 15 0 = fld (wReg s iHallmark) 15 0 ∧
    ∀ k, s.hpart p = some k → ∃ g, (expel s p).hpart p = some g ∧ g.expelled = true ∧ g.round = k.round := by
  unfold expel
  split
  · next h => exact ⟨rfl, rfl, fun k hk => by simp [h] at hk⟩
  · next k hk =>
    split
    · next he => exact ⟨rfl, rfl, fun k2 hk2 => ⟨k, hk, he, by rw [Option.some.inj (hk.symm.trans hk2)]⟩⟩
    · have hended := abortUnlaunched_reqs (s.setPart p { k with expelled := true }) p fun _ => true
      have hwin : ∀ o, wReg (abortUnlaunched (s.setPart p { k with expelled := true }) p fun _ => true) o = wReg s o :=
        fun o => congrArg (fun w => regRaw windowRegs w o) hended.win
      refine ⟨hended.now, ?_, fun k2 hk2 => ?_⟩
      · exact (fld_wCount_apart _ 0x5000C 23 16 1 (Or.inl (by decide)) iHallmark).trans (congrArg (fld · 15 0) (hwin _))
      · obtain ⟨rs, hrs⟩ := hended.hpart (hpart_setPart_self s p { k with expelled := true })
        exact ⟨_, hrs, rfl, by rw [Option.some.inj (hk.symm.trans hk2)]⟩

theorem notSent_iHallmark : notSent iHallmark := Or.inr (Or.inl (by decide))

/-- A vote is counted once and kept in its round. -/
theorem vote_acts (s : State) (p : Nat) (k : Partn) (r : Round) :
    (vote s p k r).now = s.now ∧ winCounts s (vote s p k r) iHallmark 15 0 1 ∧
    ∃ g, (vote s p k r).hpart p = some g ∧ g.round = some { r with voted := true } := by
  unfold vote
  extract_lets ds d0 ref maj odd own split s1 s2 s3 s4
  have h3 : s3.now = s.now ∧ winCounts s s3 iHallmark 15 0 1 ∧ s3.hw.parts = s1.hw.parts := by
    unfold s3
    split_ifs
    · exact ⟨rfl, winCounts_of_reg (winCounts_wCount s1 iHallmark 0 1 (by decide)) (fld_wCount_apart s2 iHallmark 31 24 1 (Or.inl (by decide)) _), rfl⟩
    · exact ⟨rfl, winCounts_wCount s1 iHallmark 0 1 (by decide), rfl⟩
  obtain ⟨hnow, hcount, hparts⟩ := h3
  have h4 : JobsSent s3 s4 := JobsSent.foldl (fun a i => sendIntegrity_sent ..) _ s3
  have hcount4 := winCounts_of_reg hcount (congrArg (fld · 15 0) (h4.reg _ notSent_iHallmark))
  have hpart4 : s4.hpart p = some _ := (h4.hpart p).trans ((congrArg (mget? · p) hparts).trans (hpart_setPart_self ..))
  obtain ⟨henow, hereg, hepart⟩ := expel_acts s4 p
  split
  · obtain ⟨g, hg, _, hround⟩ := hepart _ hpart4
    exact ⟨henow.trans (h4.now.trans hnow), winCounts_of_reg hcount4 hereg, g, hg, hround⟩
  · exact ⟨h4.now.trans hnow, hcount4, _, hpart4, rfl⟩

theorem hallmarkVote_none {s : State} {part : Nat} (h : ∀ k, s.hpart part = some k → k.round = none) : exec (.hallmarkVote part) s = .next s := by
  have hdef : exec (.hallmarkVote part) s = execHallmarkVote part s := rfl
  rw [hdef, execHallmarkVote]
  split
  · rfl
  · next k hk => rw [h k hk]

theorem hallmarkVote_acts (part : Nat) (s : State) {k : Partn} {r : Round} (hk : s.hpart part = some k) (hr : k.round = some r) :
    (r.own = none ∨ r.voted = true → exec (.hallmarkVote part) s = .next s) ∧
    (∀ u, r.own = some u → r.voted = false → leads (.hallmarkVote part) s fun t => winCounts s t iHallmark 15 0 1 ∧
      (t.now = if (roundDigests k r.num).length = k.checks.nrep then s.now else max s.now (u + 1600000000)) ∧
      ∃ g, t.hpart part = some g ∧ g.round = some { r with voted := true }) := by
  have hdef : exec (.hallmarkVote part) s = execHallmarkVote part s := rfl
  simp only [execHallmarkVote, hk, hr] at hdef
  refine ⟨fun hno => ?_, fun u hu hv => ?_⟩
  · cases hown : r.own with
    | none => simpa only [hown] using hdef
    | some u =>
      simp only [hown] at hdef
      exact hdef.trans (if_pos (hno.resolve_left (by simp [hown])))
  · simp only [hu, hv] at hdef
    rw [if_neg (by decide)] at hdef
    obtain ⟨hnow, hcount, hround⟩ := vote_acts (if (roundDigests k r.num).length == k.checks.nrep then s else s.reach (u + secondCyc)) part k r
    refine leads_of hdef ⟨?_, hnow.trans ?_, hround⟩
    · refine (?_ : winCounts _ _ _ _ _ _ ↔ _).mp hcount
      split <;> exact Iff.rfl
    · by_cases hfull : (roundDigests k r.num).length = k.checks.nrep
      · rw [if_pos hfull, if_pos (beq_iff_eq.mpr hfull)]
      · rw [if_neg hfull, if_neg (mt beq_iff_eq.mp hfull)]
        rfl

/-! ### Messages of hallmark (R565 to R568) -/

/-- An integrity message whose partition, tag, kind, job or sender is not the one it needs is counted and dropped. -/
theorem onIntegrity_bad {s : State} {q ty : Nat} {m : List Byte} {sender : Partn → Bool} {eff : Nat → Partn → State}
    (h : ∀ k, ¬ (s.hpart (((s.qp q).map Qp.part).getD 0) = some k ∧ tagOk s k m 64 juIntegrity = true ∧ msgNat m 0 1 = ty ∧
      msgNat m 4 4 = k.checks.job ∧ q ∉ k.dead ∧ sender k = true)) : onIntegrity s q ty m sender eff = wCount s iAuth 15 0 1 := by
  unfold onIntegrity
  dsimp only
  split
  · rfl
  · next k hk =>
    refine if_pos (by_contra fun hno => h k ⟨hk, ?_⟩)
    simpa [not_or] using hno

theorem onIntegrity_good {s : State} {q ty : Nat} {m : List Byte} {sender : Partn → Bool} {eff : Nat → Partn → State} {k : Partn}
    (hk : s.hpart (((s.qp q).map Qp.part).getD 0) = some k) (htag : tagOk s k m 64 juIntegrity = true) (hty : msgNat m 0 1 = ty)
    (hjob : msgNat m 4 4 = k.checks.job) (hlive : q ∉ k.dead) (hfrom : sender k = true) :
    onIntegrity s q ty m sender eff = eff (((s.qp q).map Qp.part).getD 0) k := by
  unfold onIntegrity
  simp only [hk]
  exact if_neg (by simp [htag, hty, hjob, hlive, hfrom])

theorem fromReplica_iff (q : Nat) (m : List Byte) (k : Partn) : fromReplica q m k = true ↔ k.checks.cls = 1 ∧ replicaOf k q = some (msgNat m 1 1) := by
  simp [fromReplica]

theorem iAuth_counted (s : State) : onlyWin s (wCount s iAuth 15 0 1) ∧ winCounts s (wCount s iAuth 15 0 1) iAuth 15 0 1 :=
  ⟨rfl, winCounts_wCount s iAuth 0 1 (by decide)⟩

theorem hallmarkMessages_act (q : BitVec 16) (m : List Byte) (s : State) :
    let p := ((s.qp q.toNat).map Qp.part).getD 0
    let good (ty : Nat) (k : Partn) : Prop := s.hpart p = some k ∧ tagOk s k m 64 juIntegrity = true ∧ msgNat m 0 1 = ty ∧ msgNat m 4 4 = k.checks.job ∧
      q.toNat ∉ k.dead ∧ k.checks.cls = 1 ∧ replicaOf k q.toNat = some (msgNat m 1 1)
    ((∀ k, ¬ good 1 k) → leads (.digest q m) s fun t => onlyWin s t ∧ winCounts s t iAuth 15 0 1) ∧
    ((∀ k, ¬ good 2 k) → leads (.expel q m) s fun t => onlyWin s t ∧ winCounts s t iAuth 15 0 1) ∧
    ∀ k, (good 1 k → leads (.digest q m) s fun t => t.win = s.win ∧ ∃ g, t.hpart p = some g ∧
        mget? g.digests (8 * msgNat m 8 8 + msgNat m 1 1) = some (msgNat m 2 1 % 2 == 1, (m.drop 32).take 32)) ∧
      (good 2 k → msgNat m 16 4 ≠ k.checks.replica → exec (.expel q m) s = .next s) ∧
      (good 2 k → msgNat m 16 4 = k.checks.replica → leads (.expel q m) s fun t => ∃ g, t.hpart p = some g ∧ g.expelled = true) := by
  intro p good
  have hdigest : exec (.digest q m) s = execDigest q m s := rfl
  have hexpel : exec (.expel q m) s = execExpel q m s := rfl
  have hbad (ty : Nat) (hno : ∀ k, ¬ good ty k) (eff : Nat → Partn → State) :
      onIntegrity s q.toNat ty m (fromReplica q.toNat m) eff = wCount s iAuth 15 0 1 :=
    onIntegrity_bad fun k ⟨hk, htag, hty, hjob, hlive, hfrom⟩ => hno k ⟨hk, htag, hty, hjob, hlive, (fromReplica_iff ..).mp hfrom⟩
  have hgood (ty : Nat) (k : Partn) (h : good ty k) (eff : Nat → Partn → State) :
      onIntegrity s q.toNat ty m (fromReplica q.toNat m) eff = eff p k := by
    obtain ⟨hk, htag, hty, hjob, hlive, hfrom⟩ := h
    exact onIntegrity_good hk htag hty hjob hlive ((fromReplica_iff ..).mpr hfrom)
  refine ⟨fun hno => ?_, fun hno => ?_, fun k => ⟨fun h => ?_, fun h hne => ?_, fun h heq => ?_⟩⟩
  · exact leads_of (by rw [hdigest, execDigest, hbad 1 hno]) (iAuth_counted s)
  · exact leads_of (by rw [hexpel, execExpel, hbad 2 hno]) (iAuth_counted s)
  · rw [execDigest, hgood 1 k h] at hdigest
    exact leads_of hdigest ⟨rfl, _, hpart_setPart_self .., mget_mset_self ..⟩
  · rw [hexpel, execExpel, hgood 2 k h, if_neg hne]
  · obtain ⟨_, _, hpart⟩ := expel_acts s p
    obtain ⟨g, hg, he, _⟩ := hpart k h.1
    exact leads_of (by rw [hexpel, execExpel, hgood 2 k h, if_pos heq]) ⟨g, hg, he⟩

/-- Settles O47: the round, the digest, the vote and the messages, each by what its partition holds. -/
theorem hallmarkActs : Obligations.HallmarkActs := by
  refine ⟨fun part s => ⟨fun hnone => ?_, fun k hk => ?_⟩, fun q m s => hallmarkMessages_act q m s⟩
  · have hno : ∀ k, s.hpart part = some k → k.round = none := fun k hk => by simp [hnone] at hk
    exact ⟨hallmarkRound_none hnone, hallmarkDigestDone_none hno, hallmarkVote_none hno⟩
  · obtain ⟨hother, hfirst, hnext⟩ := hallmarkRound_acts part s hk
    have hno (h : k.round = none) : ∀ k2, s.hpart part = some k2 → k2.round = none := fun k2 hk2 => Option.some.inj (hk.symm.trans hk2) ▸ h
    refine ⟨hother, hfirst, fun h => ⟨hallmarkDigestDone_none (hno h), hallmarkVote_none (hno h)⟩, fun r hr => ?_⟩
    obtain ⟨hstays, hgoes⟩ := hnext r hr
    obtain ⟨hdone, hdigest⟩ := hallmarkDigestDone_acts part s hk hr
    exact ⟨hstays, hgoes, hdone, hdigest, hallmarkVote_acts part s hk hr⟩

end Sys2Proof.Machine
end

section
/-! PROOFS. Seals, causes and reports (R547 to R549, R558). -/
namespace Sys2Proof.Machine

/-! ### A step judged (R548, R549) -/

/-- Whether a partition holds the seal of each of its regions. -/
def sealsHeld (k : Partn) : Prop := ∀ r ∈ partRegions k, ∃ e ∈ k.seals, e.1 = r

theorem sealsHeld_iff (k : Partn) : (partRegions k).all (fun l => k.seals.any fun e => e.1 == l) = true ↔ sealsHeld k := by
  simp [sealsHeld]

theorem judgeStep_waits {s : State} {p : Nat} {k : Partn} (hk : s.hpart p = some k) (h : ¬ sealsHeld k) : judgeStep s p = s := by
  unfold judgeStep
  simp only [hk]
  exact if_pos (Or.inr (Or.inr (mt (sealsHeld_iff k).mp h)))

theorem judgeStep_judged {s : State} {p : Nat} {k : Partn} (hk : s.hpart p = some k) (h : sealsHeld k) (hrec : k.recov = 0) (hhalt : k.halted = false) :
    judgeStep s p = if (k.seals.filter fun e => e.2).isEmpty then cleanStep s p false
      else if (k.seals.filter fun e => e.2).all (fun e => explained k.now_ e.1) then resolveStep s p k
      else s.setPart p { k with sealAt := some (k.sealAt.getD s.now) } := by
  unfold judgeStep
  simp only [hk]
  exact if_neg (by rw [(sealsHeld_iff k).mpr h]; simp [hrec, hhalt])

theorem judgeStep_explained {s : State} {p : Nat} {k : Partn} (hk : s.hpart p = some k) (h : sealsHeld k) (hrec : k.recov = 0) (hhalt : k.halted = false)
    (hsus : ∃ e ∈ k.seals, e.2 = true) (hwhy : ∀ e ∈ k.seals, explained k.now_ e.1 = true) : judgeStep s p = resolveStep s p k := by
  obtain ⟨e, he, hsus⟩ := hsus
  have hmem : e ∈ k.seals.filter fun e => e.2 := List.mem_filter.mpr ⟨he, hsus⟩
  rw [judgeStep_judged hk h hrec hhalt, if_neg (fun h => List.ne_nil_of_mem hmem (List.isEmpty_iff.mp h)), if_pos]
  exact List.all_eq_true.mpr fun e he => hwhy e (List.mem_filter.mp he).1

/-- With no findings of an earlier run there is nothing to settle. -/
theorem settleBefore_none {s : State} {p : Nat} {k : Partn} (hk : s.hpart p = some k) (h : k.before = Findings.none) : settleBefore s p = s := by
  unfold settleBefore
  simp [hk, h, Findings.none]

theorem bookAhead_none {s : State} {p : Nat} {k : Partn} (hk : s.hpart p = some k) (h : k.reqs = []) : bookAhead s p = s := by
  unfold bookAhead
  simp [hk, h]

theorem answerJoin_none {s : State} {p : Nat} {k : Partn} (hk : s.hpart p = some k) (h : k.partner = none) : answerJoin s p = s := by
  unfold answerJoin
  simp [hk, h]

theorem takeHold_none {s : State} {p : Nat} {k : Partn} (hk : s.hpart p = some k) (h : k.holdFor = none) : takeHold s p = s := by
  unfold takeHold
  simp [hk, h]

/-- The commit of a step without requests, of a partition that is asked neither to join nor to hold. -/
theorem commitStep_quiet {s : State} {p n : Nat} {k : Partn} (hk : s.hpart p = some k) (hreqs : k.reqs = []) (hpartner : k.partner = none)
    (hhold : k.holdFor = none) :
    commitStep s p n = s.setPart p { k with committed := n, epochs := k.epochs.filter fun e => decide (n ≤ e.1) } := by
  unfold commitStep
  simp only [hk, hreqs, List.map_nil, List.filter_nil, List.any_nil, Bool.false_eq_true, and_false, if_false, List.foldl_nil]
  have hself := hpart_setPart_self s p { k with reqs := [], committed := n, epochs := k.epochs.filter fun e => decide (n ≤ e.1) }
  rw [answerJoin_none hself hpartner, takeHold_none hself hhold, bookAhead_none hself rfl, ← hreqs]

/-- A partition whose awaited step, number n, is sealed with nothing against it. -/
def Partn.sealedClean (n : Nat) (x : Partn) : Partn :=
  { x with sealed := n, seals := [], sealAt := none, runs := 1, now_ := Findings.none, before := Findings.none, odd := false }

/-- A partition whose suspect step has a cause that is not known. -/
def Partn.causeUnknown (k : Partn) : Partn := { k with now_ := { k.now_ with other := true } }

/-- A step with nothing against it, of a partition with no checks and nothing held, is committed. -/
theorem cleanStep_quiet {s : State} {p : Nat} {k : Partn} (hk : s.hpart p = some k) (hcls : k.checks.cls = 0) (htouch : k.touch = none)
    (hbefore : k.before = Findings.none) (hreqs : k.reqs = []) (hpartner : k.partner = none) (hhold : k.holdFor = none) :
    (cleanStep s p false).seals = s.seals ∧ ∃ g, (cleanStep s p false).hpart p = some g ∧
      g.committed = k.sealed + 1 ∧ g.sealed = k.sealed + 1 ∧ g.seals = [] ∧ g.runs = 1 := by
  have hupd : updPart s p (Partn.sealedClean (k.sealed + 1)) = s.setPart p (k.sealedClean (k.sealed + 1)) := by
    rw [updPart, hk]
  have hstep : cleanStep s p false = commitStep (updPart s p (Partn.sealedClean (k.sealed + 1))) p (k.sealed + 1) := by
    unfold cleanStep
    simp only [hk, settleBefore_none hk hbefore, htouch, hcls]
    rfl
  rw [hupd] at hstep
  rw [hstep, commitStep_quiet (k := k.sealedClean (k.sealed + 1)) (hpart_setPart_self ..) hreqs hpartner hhold]
  exact ⟨rfl, _, hpart_setPart_self .., rfl, rfl, rfl, rfl⟩

theorem sealReceive_acts (part : Nat) (l : RegionId) (s : State) :
    let awaited (k : Partn) (x : Nat × Nat × Nat × Bool) : Bool := x.1 == part && x.2.1 == l.val && x.2.2.1 == k.sealed + 1
    ((∀ k, s.hpart part = some k → s.seals.find? (awaited k) = none) → exec (.sealReceive part l) s = .next s) ∧
    ∀ k x, s.hpart part = some k → s.seals.find? (awaited k) = some x →
      let held := k.seals ++ [(l.val, x.2.2.2)]
      let all := ∀ r ∈ partRegions k, ∃ e ∈ held, e.1 = r
      let idle := k.recov = 0 ∧ k.halted = false
      (¬ all → exec (.sealReceive part l) s = .next ({ s with seals := s.seals.erase x }.setPart part { k with seals := held })) ∧
      (all → idle → (∀ e ∈ held, e.2 = false) → k.checks.cls = 0 → k.touch = none → k.before = Findings.none → k.reqs = [] → k.partner = none →
        k.holdFor = none → leads (.sealReceive part l) s fun t => t.seals = s.seals.erase x ∧ ∃ g, t.hpart part = some g ∧
          g.committed = k.sealed + 1 ∧ g.sealed = k.sealed + 1 ∧ g.seals = [] ∧ g.runs = 1) ∧
      (all → idle → (∃ e ∈ held, e.2 = true ∧ explained k.now_ e.1 = false) → k.sealAt = none → leads (.sealReceive part l) s fun t =>
        ∃ g, t.hpart part = some g ∧ g.sealAt = some s.now ∧ g.committed = k.committed ∧ g.sealed = k.sealed) := by
  intro awaited
  have hdef : exec (.sealReceive part l) s = execSealReceive part l s := rfl
  refine ⟨fun hno => ?_, ?_⟩
  · rw [hdef, execSealReceive]
    split
    · rfl
    · next k hk =>
      have hnone := hno k hk
      unfold awaited at hnone
      rw [hnone]
  · intro k x hk hx held all idle
    unfold awaited at hx
    simp only [execSealReceive, hk, hx] at hdef
    have hpart := hpart_setPart_self { s with seals := s.seals.erase x } part { k with seals := held }
    refine ⟨fun hall => ?_, fun hall hidle hclean hcls htouch hbefore hreqs hpartner hhold => ?_, fun hall hidle hbad hat => ?_⟩
    · rw [judgeStep_waits hpart hall] at hdef
      exact hdef
    · obtain ⟨hrec, hhalt⟩ := hidle
      have hnone : (held.filter fun e => e.2) = [] := List.filter_eq_nil_iff.mpr fun e he => by simp [hclean e he]
      rw [judgeStep_judged hpart hall hrec hhalt, hnone, List.isEmpty_nil, if_pos rfl] at hdef
      have hdone := cleanStep_quiet hpart hcls htouch hbefore hreqs hpartner hhold
      exact leads_of hdef hdone
    · obtain ⟨hrec, hhalt⟩ := hidle
      obtain ⟨e, he, hsus, hunx⟩ := hbad
      have hmem : e ∈ held.filter fun e => e.2 := List.mem_filter.mpr ⟨he, hsus⟩
      rw [judgeStep_judged hpart hall hrec hhalt, if_neg (fun h => List.ne_nil_of_mem hmem (List.isEmpty_iff.mp h)),
        if_neg (fun h => by simpa [hunx] using List.all_eq_true.mp h e hmem)] at hdef
      exact leads_of hdef ⟨_, hpart_setPart_self .., by rw [hat]; rfl, rfl, rfl⟩

/-! ### The cause that does not come (R548, R549) -/

theorem hpart_wFld (s : State) (o hi lo v p : Nat) : (wFld s o hi lo v).hpart p = s.hpart p := rfl

/-- A halt asked for a partition in use, that has none yet. -/
theorem haltFor_first {s : State} {p n : Nat} {k : Partn} (hk : s.hpart p = some k) (hrec : k.recov = 0) (hhalt : k.halted = false) (hat : k.haltAt = none) :
    haltFor s p n = wFld ((cancelBooked s p).setPart p { k with haltAt := some (s.now + 16384), recov := n }) 0x200008 3 0 1 := by
  unfold haltFor
  simp [hk, hrec, hhalt, hat]

/-- A recovery that begins, of a partition in use. -/
theorem startRecovery_first {s : State} {p n : Nat} {k : Partn} (hk : s.hpart p = some k) (hrec : k.recov = 0) (hhalt : k.halted = false)
    (hat : k.haltAt = none) (hfew : k.restarts < 4) :
    startRecovery s p n = wFld ((cancelBooked s p).setPart p { k with haltAt := some (s.now + 16384), recov := n }) 0x200008 3 0 1 := by
  unfold startRecovery
  rw [haltFor_first hk hrec hhalt hat]
  have hself : (wFld ((cancelBooked s p).setPart p { k with haltAt := some (s.now + 16384), recov := n }) 0x200008 3 0 1).hpart p =
      some { k with haltAt := some (s.now + 16384), recov := n } := hpart_setPart_self ..
  simp only [hself]
  exact if_neg (by simpa using hfew)

/-- A partition that runs its step again, with the findings that remain. -/
def Partn.again (n : Findings) (x : Partn) : Partn := { x with before := n, now_ := Findings.none, seals := [], sealAt := none }

/-- A step that runs again for the first three times, of a partition in use. -/
theorem rerunStep_first {s : State} {p : Nat} {n : Findings} {k : Partn} (hk : s.hpart p = some k) (hruns : k.runs < 4) (hrec : k.recov = 0)
    (hhalt : k.halted = false) (hat : k.haltAt = none) (hfew : k.restarts < 4) :
    rerunStep s p n = wFld ((cancelBooked (s.setPart p (k.again n)) p).setPart p { k.again n with haltAt := some (s.now + 16384), recov := 1 })
      0x200008 3 0 1 := by
  have hupd : updPart s p (Partn.again n) = s.setPart p (k.again n) := by rw [updPart, hk]
  have hstart : rerunStep s p n = startRecovery (updPart s p (Partn.again n)) p 1 := by
    unfold rerunStep
    simp only [hk]
    exact if_neg (by omega)
  rw [hstart, hupd]
  exact startRecovery_first (hpart_setPart_self ..) hrec hhalt hat hfew

theorem suspectCauseTimeout_acts (part : Nat) (s : State) :
    ((∀ k, s.hpart part = some k → k.sealAt = none) → exec (.suspectCauseTimeout part) s = .next s) ∧
    ∀ k u, s.hpart part = some k → k.sealAt = some u → k.recov = 0 → k.halted = false → k.haltAt = none → k.restarts < 4 → k.runs < 4 →
      k.now_.parity = [] → (∀ r ∈ partRegions k, ∃ e ∈ k.seals, e.1 = r) → (∃ e ∈ k.seals, e.2 = true) →
      leads (.suspectCauseTimeout part) s fun t => t.now = max s.now (u + 1048576) ∧ winCounts s t iReruns 15 0 1 ∧
        ∃ g, t.hpart part = some g ∧ g.recov = 1 ∧ g.haltAt = some (t.now + 16384) ∧ g.seals = [] ∧ g.committed = k.committed := by
  have hdef : exec (.suspectCauseTimeout part) s = execSuspectCauseTimeout part s := rfl
  refine ⟨fun hno => ?_, fun k u hk hu hrec hhalt hat hfew hruns hparity hall hsus => ?_⟩
  · have hnone : (s.hpart part).bind Partn.sealAt = none := Option.bind_eq_none_iff.mpr hno
    rw [hdef, execSuspectCauseTimeout, hnone]
  · have hsome : (s.hpart part).bind Partn.sealAt = some u := by rw [hk]; exact hu
    have hupd : updPart (s.reach (u + 1048576)) part Partn.causeUnknown =
        (s.reach (u + 1048576)).setPart part k.causeUnknown := by
      rw [updPart, show (s.reach (u + 1048576)).hpart part = some k from hk]
    have hjudge : judgeStep ((s.reach (u + 1048576)).setPart part k.causeUnknown) part =
        resolveStep ((s.reach (u + 1048576)).setPart part k.causeUnknown) part k.causeUnknown :=
      judgeStep_explained (hpart_setPart_self ..) hall hrec hhalt hsus fun e _ => by simp [explained, Partn.causeUnknown]
    have hresolve (a : State) : resolveStep a part k.causeUnknown = rerunStep (wCount a iReruns 15 0 1) part Findings.none := by
      unfold resolveStep
      simp [Partn.causeUnknown, hparity]
    have hex : exec (.suspectCauseTimeout part) s =
        .next (rerunStep (wCount ((s.reach (u + 1048576)).setPart part k.causeUnknown) iReruns 15 0 1) part Findings.none) := by
      rw [hdef, execSuspectCauseTimeout, hsome, ← hresolve, ← hjudge, ← hupd]
      rfl
    have hrerun := rerunStep_first (s := wCount ((s.reach (u + 1048576)).setPart part k.causeUnknown) iReruns 15 0 1) (p := part)
      (n := Findings.none) (hpart_setPart_self ..) hruns hrec hhalt hat hfew
    rw [hrerun] at hex
    refine leads_of hex ⟨by simp, ?_, _, (hpart_wFld ..).trans (hpart_setPart_self ..), rfl, by simp, rfl, rfl⟩
    exact winCounts_of_reg (winCounts_wCount s iReruns 0 1 (by decide)) (congrArg (fld · 15 0) (wReg_wFld_ne _ _ _ _ _ _ (by decide)))

/-! ### Assay reports (R558, R577) -/

/-- A record that a core emits with nothing before it, in a cycle in which it may, is the next one out. -/
theorem cEmit_out {k : Core} {t : Nat} (r : Rec) (hnone : k.recs = []) (hdue : ∀ l, k.lastRec = some l → l + 256 ≤ t) :
    (cEmit k t r).outbox = k.outbox ++ [r] := by
  unfold cEmit
  dsimp only
  rw [if_pos]
  rw [hnone, Bool.and_eq_true]
  refine ⟨?_, rfl⟩
  split
  · rfl
  · next l hl => exact decide_eq_true (hdue l hl)

theorem assayReport_acts (c : CoreId) (val : Word) (s : State) :
    leads (.assayReport c val) s fun t => countsOne (s.coreNow c.val) (t.core c.val) 0xC10 31 16 ∧ (t.region (regionOfCore c.val)).suspect = true ∧
      ((s.coreNow c.val).recs = [] → (∀ l, (s.coreNow c.val).lastRec = some l → l + 256 ≤ s.now) →
        ⟨.assay, c.val, [fld val 19 0, fld val 28 20]⟩ ∈ t.records) := by
  have hdef : exec (.assayReport c val) s = .next (s.setCore c.val (assayReport (s.coreNow c.val) s.now val)) := rfl
  generalize s.coreNow c.val = k at hdef ⊢
  refine leads_of hdef ⟨?_, ?_, fun hnone hdue => ?_⟩
  · have hreg : cReg ((s.setCore c.val (assayReport k s.now val)).core c.val) 0xC10 = cReg (cCount k 0xC10 31 16 1) 0xC10 := by
      rw [core_setCore_self]
      exact cReg_cEmit_ne _ _ _ (by decide)
    rw [countsOne, hreg]
    exact fld_cCount_self k 0xC10 31 16 1 (by decide)
  · rw [setCore_suspect]
    exact if_pos ⟨rfl, rfl⟩
  · rw [setCore_records]
    refine List.mem_append_right _ (List.mem_map.mpr ⟨⟨.assay, 0, [fld val 19 0, fld val 28 20]⟩, ?_, rfl⟩)
    have hout : (assayReport k s.now val).outbox = k.outbox ++ [⟨.assay, 0, [fld val 19 0, fld val 28 20]⟩] :=
      cEmit_out (k := cCount k 0xC10 31 16 1) _ hnone hdue
    simp [hout]

/-- Settles O46: the seal, the cause that does not come and the assay report. -/
theorem sealsAndReportsAct : Obligations.SealsAndReportsAct :=
  ⟨fun part l s => sealReceive_acts part l s, fun part s => suspectCauseTimeout_acts part s, fun c val s => assayReport_acts c val s⟩

end Sys2Proof.Machine
end

section
/-! PROOFS. What halts, quenches and failures of partitions keep (R597, R618 to R627). -/
namespace Sys2Proof.Machine

/-- A partition but for what a halt, a quench or a failure changes of it. -/
def Partn.calm (k : Partn) : Partn :=
  { k with reqs := [], waiters := [], quenches := [], haltAt := none, recov := 0, restarts := 0, heldJob := false }

/-- What work on partitions may change: what sends and the end of requests may, the events and the numbers of quenches, the register of
recoveries, and of a partition what a halt, a quench or a failure changes; a partition that is held stays held. -/
structure PartsActed (s t : State) : Prop where
  rest : { t with win := s.win, ports := s.ports, reply := s.reply, stks := s.stks, records := s.records, free := s.free,
                  tmb := { t.tmb with events := s.tmb.events },
                  hw := { t.hw with parts := s.hw.parts, rings := s.hw.rings, bufs := s.hw.bufs, qps := s.hw.qps, events := s.hw.events,
                                    qid := s.hw.qid } } = s
  reg : ∀ o, notSent o → o ≠ 0x200008 → wReg t o = wReg s o
  port : ∀ p, (s.port p).sameButQueue (t.port p)
  none : ∀ p, s.hpart p = none → t.hpart p = none
  part : ∀ p k, s.hpart p = some k → ∃ g, t.hpart p = some g ∧ g.calm = k.calm ∧ (k.heldJob = true → g.heldJob = true)

theorem PartsActed.refl (s : State) : PartsActed s s := ⟨rfl, fun _ _ _ => rfl, fun _ => rfl, fun _ h => h, fun _ k hk => ⟨k, hk, rfl, id⟩⟩

theorem PartsActed.trans {s t u : State} (h : PartsActed s t) (h2 : PartsActed t u) : PartsActed s u where
  rest := by
    have e := congrArg (fun x : State =>
      { x with win := s.win, ports := s.ports, reply := s.reply, stks := s.stks, records := s.records, free := s.free,
               tmb := { x.tmb with events := s.tmb.events },
               hw := { x.hw with parts := s.hw.parts, rings := s.hw.rings, bufs := s.hw.bufs, qps := s.hw.qps, events := s.hw.events,
                                 qid := s.hw.qid } }) h2.rest
    exact e.trans h.rest
  reg o ho hr := (h2.reg o ho hr).trans (h.reg o ho hr)
  port p := by
    have e := congrArg (fun x : Port => { x with txq := (s.port p).txq }) (h2.port p)
    exact e.trans (h.port p)
  none p hp := h2.none p (h.none p hp)
  part p k hk := by
    obtain ⟨g, hg, hcalm, hheld⟩ := h.part p k hk
    obtain ⟨g2, hg2, hcalm2, hheld2⟩ := h2.part p g hg
    exact ⟨g2, hg2, hcalm2.trans hcalm, fun hk => hheld2 (hheld hk)⟩

theorem PartsActed.foldl {α : Type} {f : State → α → State} (hf : ∀ s x, PartsActed s (f s x)) (l : List α) (s : State) : PartsActed s (l.foldl f s) := by
  induction l generalizing s with
  | nil => exact PartsActed.refl s
  | cons x t ih => exact (hf s x).trans (ih _)

theorem JobsSent.acted {s t : State} (h : JobsSent s t) : PartsActed s t where
  rest := by
    have e := congrArg (fun x : State =>
      { x with stks := s.stks, records := s.records, free := s.free, tmb := { x.tmb with events := s.tmb.events },
               hw := { x.hw with parts := s.hw.parts, rings := s.hw.rings, bufs := s.hw.bufs, events := s.hw.events, qid := s.hw.qid } }) h.rest
    exact e
  reg o ho _ := h.reg o ho
  port := h.port
  none p hp := (h.hpart p).trans hp
  part p k hk := ⟨k, (h.hpart p).trans hk, rfl, id⟩

theorem ReqsEnded.acted {s t : State} (h : ReqsEnded s t) : PartsActed s t where
  rest := by
    have e := congrArg (fun x : State =>
      { x with win := s.win, ports := s.ports, reply := s.reply,
               hw := { x.hw with qps := s.hw.qps, events := s.hw.events, qid := s.hw.qid } }) h.rest
    exact e
  reg o _ _ := congrArg (fun w => regRaw windowRegs w o) h.win
  port p := by
    have e : t.ports = s.ports := by simpa using congrArg State.ports h.rest
    rw [State.port, State.port, e]
    rfl
  none p hp := by
    have e := h.part p
    rw [hp] at e
    exact Option.map_eq_none_iff.mp e
  part p k hk := by
    obtain ⟨rs, hrs⟩ := h.hpart hk
    exact ⟨_, hrs, rfl, id⟩

/-- A change of one partition in what a halt, a quench or a failure changes. -/
theorem setPart_acted {s : State} {p : Nat} {k k1 : Partn} (hk : s.hpart p = some k) (hcalm : k1.calm = k.calm)
    (hheld : k.heldJob = true → k1.heldJob = true) : PartsActed s (s.setPart p k1) where
  rest := rfl
  reg _ _ _ := rfl
  port _ := rfl
  none q hq := by
    have h : q ≠ p := by
      rintro rfl
      rw [hk] at hq
      cases hq
    rw [hpart_setPart_ne _ _ _ _ h]
    exact hq
  part q g hg := by
    by_cases h : q = p
    · subst h
      obtain rfl : k = g := Option.some.inj (hk.symm.trans hg)
      exact ⟨k1, hpart_setPart_self .., hcalm, hheld⟩
    · exact ⟨g, (hpart_setPart_ne _ _ _ _ h).trans hg, rfl, id⟩

theorem updPart_acted (s : State) (p : Nat) {f : Partn → Partn} (hcalm : ∀ k, (f k).calm = k.calm) (hheld : ∀ k, k.heldJob = true → (f k).heldJob = true) :
    PartsActed s (updPart s p f) := by
  unfold updPart
  split
  · next k hk => exact setPart_acted hk (hcalm k) (hheld k)
  · exact PartsActed.refl s

/-- Changes of the register of recoveries, of the events and of bookings are among them. -/
theorem wFld_acted (s : State) (hi lo v : Nat) : PartsActed s (wFld s 0x200008 hi lo v) :=
  ⟨rfl, fun _ _ hr => wReg_wFld_ne _ _ _ _ _ _ hr, fun _ => rfl, fun _ h => h, fun _ k hk => ⟨k, hk, rfl, id⟩⟩

theorem wCount_acted (s : State) (hi lo n : Nat) : PartsActed s (wCount s 0x200008 hi lo n) :=
  ⟨rfl, fun _ _ hr => wReg_wCount_ne _ _ _ _ _ _ hr, fun _ => rfl, fun _ h => h, fun _ k hk => ⟨k, hk, rfl, id⟩⟩

theorem raiseEvent_acted (s : State) (kind part : Nat) (obj : Word) (ws : List Word) : PartsActed s (raiseEvent s kind part obj ws) :=
  ⟨rfl, fun _ _ _ => rfl, fun _ => rfl, fun _ h => h, fun _ k hk => ⟨k, hk, rfl, id⟩⟩

theorem cancelBooked_acted (s : State) (p : Nat) : PartsActed s (cancelBooked s p) :=
  ⟨rfl, fun _ _ _ => rfl, fun _ => rfl, fun _ h => h, fun _ k hk => ⟨k, hk, rfl, id⟩⟩

theorem haltFor_acted (s : State) (p next : Nat) : PartsActed s (haltFor s p next) := by
  unfold haltFor
  split
  · exact PartsActed.refl s
  · next k hk =>
    extract_lets again s1 k1 s2
    have h1 : PartsActed s s1 := cancelBooked_acted s p
    have hs1 : PartsActed s1 (s1.setPart p k1) := setPart_acted (k := k) hk rfl id
    have h2 : PartsActed s s2 := (h1.trans hs1).trans (wFld_acted ..)
    split
    · exact h2.trans (wCount_acted ..)
    · exact h2

theorem originateQuench_acted (s : State) (p cause : Nat) : PartsActed s (originateQuench s p cause) := by
  unfold originateQuench
  split
  · exact PartsActed.refl s
  · next k hk =>
    split
    · exact PartsActed.refl s
    · extract_lets n _ s1 s2
      have h0 : PartsActed s { s with hw := { s.hw with qid := n } } := ⟨rfl, fun _ _ _ => rfl, fun _ => rfl, fun _ h => h, fun _ k hk => ⟨k, hk, rfl, id⟩⟩
      have h1 : PartsActed s s1 := h0.trans (setPart_acted (k := k) hk rfl id)
      have h2 : PartsActed s s2 := h1.trans (sendJob_sent ..).acted
      exact h2.trans (raiseEvent_acted ..)

theorem endWaiters_acted (s : State) (p : Nat) (ok : Bool) : PartsActed s (endWaiters s p ok) := by
  unfold endWaiters
  split
  · exact PartsActed.refl s
  · next k hk =>
    have h1 : PartsActed s (s.setPart p { k with waiters := [] }) := setPart_acted hk rfl id
    exact h1.trans (PartsActed.foldl (fun a w => (finishCmd_reqs ..).acted) _ _)

theorem quenchHold_acted (s : State) (p : Nat) : PartsActed s (quenchHold s p) :=
  ((endRequests_reqs ..).acted.trans (haltFor_acted ..)).trans (updPart_acted _ _ (fun _ => rfl) fun _ _ => rfl)

theorem failPartition_acted (s : State) (p cause : Nat) : PartsActed s (failPartition s p cause) := by
  unfold failPartition
  split
  · exact PartsActed.refl s
  · exact ((((endWaiters_acted ..).trans (endRequests_reqs ..).acted).trans (originateQuench_acted ..)).trans (haltFor_acted ..)).trans
      (updPart_acted _ _ (fun _ => rfl) fun _ _ => rfl)

theorem startRecovery_acted (s : State) (p next : Nat) : PartsActed s (startRecovery s p next) := by
  unfold startRecovery
  dsimp only
  split
  · exact (haltFor_acted ..).trans (failPartition_acted ..)
  · exact haltFor_acted ..

theorem quenchAll_acted (s : State) (cause : Nat) : PartsActed s (quenchAll s cause) :=
  PartsActed.foldl (fun _ _ => (originateQuench_acted ..).trans (quenchHold_acted ..)) _ s

theorem PartsActed.now {s t : State} (h : PartsActed s t) : t.now = s.now := by simpa using congrArg State.now h.rest
theorem PartsActed.mod {s t : State} (h : PartsActed s t) : t.mod = s.mod := by simpa using congrArg State.mod h.rest

/-! ### Partitions held -/

/-- A partition whose job is quenched is held. -/
theorem quenchHold_held {s : State} {p : Nat} {k : Partn} (hk : s.hpart p = some k) : ∃ g, (quenchHold s p).hpart p = some g ∧ g.heldJob = true := by
  obtain ⟨g, hg, _⟩ := ((endRequests_reqs s p csAborted 0).acted.trans (haltFor_acted _ p 1)).part p k hk
  refine ⟨{ g with heldJob := true }, ?_, rfl⟩
  unfold quenchHold
  rw [updPart, hg]
  exact hpart_setPart_self ..

/-- The key of what a map holds is one of its keys. -/
theorem mem_of_mget {α : Type} {m : Map α} {k : Nat} {v : α} (h : mget? m k = some v) : (k, v) ∈ m := by
  induction m with
  | nil => cases h
  | cons e t ih =>
    obtain ⟨j, w⟩ := e
    unfold mget? at h
    split_ifs at h with h1
    · rw [← h1, ← Option.some.inj h]
      exact List.mem_cons_self ..
    · exact List.mem_cons_of_mem _ (ih h)

/-- Every partition is held once all are quenched. -/
theorem quenchAll_held {s : State} (cause : Nat) {p : Nat} {k : Partn} (hk : s.hpart p = some k) :
    ∃ g, (quenchAll s cause).hpart p = some g ∧ g.heldJob = true := by
  have hmem : p ∈ s.hw.parts.map Prod.fst := List.mem_map.mpr ⟨_, mem_of_mget hk, rfl⟩
  unfold quenchAll
  generalize s.hw.parts.map Prod.fst = l at hmem
  induction l generalizing s k with
  | nil => cases hmem
  | cons q t ih =>
    rw [List.foldl_cons]
    have hstep : PartsActed s (quenchHold (originateQuench s q cause) q) := (originateQuench_acted ..).trans (quenchHold_acted ..)
    by_cases hq : p = q
    · subst hq
      obtain ⟨g, hg, _⟩ := (originateQuench_acted s p cause).part p k hk
      obtain ⟨g2, hg2, hheld⟩ := quenchHold_held hg
      obtain ⟨g3, hg3, _, hheld3⟩ := (PartsActed.foldl (fun a x => (originateQuench_acted a x cause).trans (quenchHold_acted _ x)) t _).part p g2 hg2
      exact ⟨g3, hg3, hheld3 hheld⟩
    · obtain ⟨g, hg, _⟩ := hstep.part p k hk
      exact ih hg ((List.mem_cons.mp hmem).resolve_left hq)

end Sys2Proof.Machine
end

section
/-! PROOFS. The sideband target, removal and RST_N (R736 to R752). -/
namespace Sys2Proof.Machine

/-! ### Fields and flags of a table of registers -/

theorem regRaw_regUpd_self (tbl : List RegDef) (m : Map Word) (o : Nat) (f : Word → Word) : regRaw tbl (regUpd tbl m o f) o = f (regRaw tbl m o) := regRaw_mset_self ..

theorem regRaw_regUpd_ne (tbl : List RegDef) (m : Map Word) (o : Nat) (f : Word → Word) {p : Nat} (h : p ≠ o) :
    regRaw tbl (regUpd tbl m o f) p = regRaw tbl m p := by
  simp [regUpd, regRaw_mset_ne _ _ _ _ _ h]

theorem sbReg_of_mod {s t : State} (h : t.mod = s.mod) (o : Nat) : sbReg t o = sbReg s o := by rw [sbReg, sbReg, h]

theorem sbReg_setSbdState_ne (s : State) (v : Nat) {o : Nat} (h : o ≠ 4) : sbReg (setSbdState s v) o = sbReg s o :=
  regRaw_regUpd_ne sidebandRegs s.mod.sbd 4 (fun w => setFld w 2 0 v) h

theorem sbdState_setSbdState (s : State) (v : Nat) : sbdState (setSbdState s v) = v % 8 := by
  have h : sbReg (setSbdState s v) 4 = setFld (sbReg s 4) 2 0 v :=
    regRaw_regUpd_self sidebandRegs s.mod.sbd 4 fun w => setFld w 2 0 v
  exact (congrArg (fld · 2 0) h).trans (fld_setFld_self _ _ _ _ (by decide))

theorem sbReg_sbdFlag_self (s : State) (m : Word) : sbReg (sbdFlag s m) 8 = sbReg s 8 ||| m :=
  regRaw_regUpd_self sidebandRegs s.mod.sbd 8 (· ||| m)

theorem setSbdState_hpart (s : State) (v q : Nat) : (setSbdState s v).hpart q = s.hpart q := rfl
theorem setSbdState_i3cOff (s : State) (v : Nat) : (setSbdState s v).mod.i3cOff = s.mod.i3cOff := rfl
theorem setSbdState_mated (s : State) (v : Nat) : (setSbdState s v).mod.mated = s.mod.mated := rfl
theorem portState_setSbdState (s : State) (v p : Nat) : portState (setSbdState s v) p = portState s p := rfl

/-! ### The target (R736 to R739) -/

/-- Whether the module answers what is sent to its dynamic address. -/
theorem targeted_iff (s : State) : targeted s = true ↔ s.mod.enabled = true ∧ ∃ a, s.mod.i3cAddr = some a := by
  simp [targeted, Option.isSome_iff_exists]

/-- A common command that reads a value answers it where the module has its address. -/
theorem getCommon_gives {x : Instr} {s : State} {ws : List Word} (hdef : exec x s = .next (getCommon s ws)) :
    let mine := s.mod.enabled = true ∧ ∃ a, s.mod.i3cAddr = some a
    (¬ mine → exec x s = .next s) ∧ (mine → exec x s = .next { s with reply := some ⟨0, ws⟩ }) := by
  refine ⟨fun h => ?_, fun h => ?_⟩
  · rw [hdef, getCommon, if_neg (mt (targeted_iff s).mp h)]
  · rw [hdef, getCommon, if_pos ((targeted_iff s).mpr h)]
    rfl

theorem hotJoin_acts (s : State) :
    (s.mod.enabled = true ∧ s.mod.hotJoin = true → leads .hotJoin s fun t => t.mod.hotJoin = false ∧ t.reply = some ⟨0, [2#32]⟩) ∧
    (¬ (s.mod.enabled = true ∧ s.mod.hotJoin = true) → exec .hotJoin s = .next s) := by
  have hdef : exec .hotJoin s = execHotJoin s := rfl
  refine ⟨fun h => ?_, fun h => ?_⟩
  · rw [execHotJoin, if_pos h] at hdef
    exact leads_of hdef ⟨rfl, rfl⟩
  · rw [hdef, execHotJoin, if_neg h]

theorem eventCommands_act (s : State) (e : BitVec 8) :
    (¬ s.mod.enabled = true → exec (.enec e) s = .next s ∧ exec (.disec e) s = .next s) ∧
    (s.mod.enabled = true → (leads (.enec e) s fun t => t.mod.ibi = (s.mod.ibi || e.getLsbD 0) ∧ { t with mod := s.mod } = s) ∧
      leads (.disec e) s fun t => t.mod.ibi = (s.mod.ibi && !e.getLsbD 0) ∧ { t with mod := s.mod } = s) := by
  have henec : exec (.enec e) s = execEnec e s := rfl
  have hdisec : exec (.disec e) s = execDisec e s := rfl
  refine ⟨fun h => ?_, fun h => ?_⟩
  · rw [henec, hdisec, execEnec, execDisec, if_pos (by simpa using h), if_pos (by simpa using h)]
    exact ⟨rfl, rfl⟩
  · rw [execEnec, if_neg (by simp [h])] at henec
    rw [execDisec, if_neg (by simp [h])] at hdisec
    exact ⟨leads_of henec ⟨rfl, rfl⟩, leads_of hdisec ⟨rfl, rfl⟩⟩

theorem rstdaa_acts (s : State) :
    (¬ s.mod.enabled = true → exec .rstdaa s = .next s) ∧ (s.mod.enabled = true → leads .rstdaa s fun t => t.mod.i3cAddr = none) := by
  have hdef : exec .rstdaa s = execRstdaa s := rfl
  refine ⟨fun h => ?_, fun h => ?_⟩
  · rw [hdef, execRstdaa, if_neg h]
  · rw [execRstdaa, if_pos h] at hdef
    exact leads_of hdef rfl

theorem entdaa_acts (s : State) (a : BitVec 7) :
    (¬ (s.mod.enabled = true ∧ s.mod.i3cAddr = none) → exec (.entdaa a) s = .next s) ∧
    (s.mod.enabled = true ∧ s.mod.i3cAddr = none → leads (.entdaa a) s fun t => t.mod.i3cAddr = some a.toNat ∧ t.mod.hotJoin = false ∧
      t.reply = some ⟨0, pidWords s ++ [6#32, 0#32]⟩) := by
  have hdef : exec (.entdaa a) s = execEntdaa a s := rfl
  refine ⟨fun h => ?_, fun h => ?_⟩
  · rw [hdef, execEntdaa, if_neg (by simpa using h)]
  · rw [execEntdaa, if_pos (by simpa using h)] at hdef
    exact leads_of hdef ⟨rfl, rfl, rfl⟩

theorem setdasa_acts (s : State) (b a : BitVec 7) :
    (¬ (s.mod.enabled = true ∧ s.mod.i3cAddr = none ∧ b.toNat = 0x58 + s.mod.slot) → exec (.setdasa b a) s = .next s) ∧
    (s.mod.enabled = true ∧ s.mod.i3cAddr = none ∧ b.toNat = 0x58 + s.mod.slot → leads (.setdasa b a) s fun t => t.mod.i3cAddr = some a.toNat ∧
      t.reply = s.reply) := by
  have hdef : exec (.setdasa b a) s = execSetdasa b a s := rfl
  refine ⟨fun h => ?_, fun h => ?_⟩
  · rw [hdef, execSetdasa, if_neg (by simpa using h)]
  · rw [execSetdasa, if_pos (by simpa using h)] at hdef
    exact leads_of hdef ⟨rfl, rfl⟩

theorem getLsbD_low_half (i : Nat) : (0xFFFF#32).getLsbD i = decide (i < 16) := by
  rw [show (0xFFFF#32) = onesAt 15 0 by decide, getLsbD_onesAt]
  simp
  omega

/-- The upper half of a word that has a lower half alone. -/
theorem fld_low_half (w : Word) : fld (w &&& 0xFFFF#32) 31 16 = 0 := by
  refine Nat.eq_of_testBit_eq fun i => ?_
  rw [testBit_fld, Nat.zero_testBit, BitVec.getLsbD_and, getLsbD_low_half]
  by_cases h : i < 16 <;> simp

theorem getstatus_acts (s : State) :
    let mine := s.mod.enabled = true ∧ ∃ a, s.mod.i3cAddr = some a
    (¬ mine → exec .getstatus s = .next s) ∧ (mine → leads .getstatus s fun t => ∃ w : Word, t.reply = some ⟨0, [w]⟩ ∧ fld w 31 16 = 0) := by
  have hdef : exec .getstatus s = execGetstatus s := rfl
  refine ⟨fun h => ?_, fun h => ?_⟩
  · rw [hdef, execGetstatus, if_neg (mt (targeted_iff s).mp h)]
  · rw [execGetstatus, if_pos ((targeted_iff s).mpr h), getCommon, if_pos ((targeted_iff (s.takeFree 1)).mpr h)] at hdef
    exact leads_of hdef ⟨_, rfl, fld_low_half _⟩

/-! ### The removal path (R745 to R747) -/

theorem portFence_mod (s : State) (p : Nat) : (portFence s p).mod = s.mod := by
  unfold portFence setPortState
  dsimp only
  split <;> rfl

theorem portFence_hpart (s : State) (p q : Nat) : (portFence s p).hpart q = s.hpart q := by
  unfold portFence setPortState
  dsimp only
  split <;> rfl

/-- A fence is seen in its port's state, and in no other's. -/
theorem portState_setPortState (s : State) (p v q : Nat) : portState (setPortState s p v) q = if q = p then v % 8 else portState s q := by
  have hreg : wReg (setPortState s p v) (pReg q 4) = wReg (wFld s (pReg p 4) 2 0 v) (pReg q 4) := by
    unfold setPortState
    dsimp only
    split <;> rfl
  rw [portState, hreg]
  by_cases h : q = p
  · subst h
    rw [if_pos rfl]
    exact fld_wFld_self s _ 0 v (by decide)
  · rw [if_neg h, wReg_wFld_ne _ _ _ _ _ _ (by unfold pReg; omega)]
    rfl

theorem portState_portFence (s : State) (p q : Nat) : portState (portFence s p) q = if q = p then poFenced else portState s q :=
  portState_setPortState s p poFenced q

theorem fencePorts_mod (s : State) : (fencePorts s).mod = s.mod := by
  unfold fencePorts
  simp [List.range, List.range.loop, portFence_mod]

theorem fencePorts_hpart (s : State) (q : Nat) : (fencePorts s).hpart q = s.hpart q := by
  unfold fencePorts
  simp [List.range, List.range.loop, portFence_hpart]

theorem fencePorts_fenced (s : State) (p : Fin 8) : portState (fencePorts s) p.val = poFenced := by
  unfold fencePorts
  simp only [List.range, List.range.loop, List.foldl_cons, List.foldl_nil, portState_portFence]
  fin_cases p <;> rfl

/-- What the removal path starts from and ends in. -/
def leavingState (s : State) : State := setSbdState (sbdFlag s 0x80#32) 2

/-- The state of a module that has left. -/
def safeState (t s : State) : Prop :=
  sbdState t = 3 ∧ bit (sbReg t 8) 7 = true ∧ (∀ p : Fin 8, portState t p.val = poFenced) ∧
    ∀ q k, s.hpart q = some k → ∃ g, t.hpart q = some g ∧ g.heldJob = true

theorem sbdLeaves_iff (s : State) : sbdLeaves s = true ↔ sbdState s = 2 ∨ sbdState s = 3 := by simp [sbdLeaves]

theorem removalPath_stays {s : State} (h : ¬ (s.mod.enabled = true ∧ sbdState s ≠ 2 ∧ sbdState s ≠ 3)) : removalPath s = s := by
  unfold removalPath
  refine if_pos ?_
  rw [sbdLeaves_iff]
  cases hen : s.mod.enabled <;> simp [hen] at h ⊢
  tauto

theorem removalPath_leaves {s : State} (h : s.mod.enabled = true ∧ sbdState s ≠ 2 ∧ sbdState s ≠ 3) :
    removalPath s = setSbdState (fencePorts (quenchAll (leavingState s) quRemoval)) 3 := by
  unfold removalPath
  refine if_neg ?_
  rw [sbdLeaves_iff]
  obtain ⟨hen, h2, h3⟩ := h
  simp [hen, h2, h3]

theorem leaving_mod (s : State) : (fencePorts (quenchAll (leavingState s) quRemoval)).mod = (leavingState s).mod :=
  (fencePorts_mod _).trans (quenchAll_acted ..).mod

theorem removalPath_safe {s : State} (h : s.mod.enabled = true ∧ sbdState s ≠ 2 ∧ sbdState s ≠ 3) : safeState (removalPath s) s := by
  rw [removalPath_leaves h]
  refine ⟨sbdState_setSbdState .., ?_, fun p => (portState_setSbdState ..).trans (fencePorts_fenced _ p), fun q k hk => ?_⟩
  · rw [sbReg_setSbdState_ne _ _ (by decide), sbReg_of_mod (leaving_mod s), leavingState, sbReg_setSbdState_ne _ _ (by decide), sbReg_sbdFlag_self,
      bit_or]
    exact Bool.or_true _
  · obtain ⟨g, hg, hheld⟩ := quenchAll_held (s := leavingState s) quRemoval hk
    exact ⟨g, ((setSbdState_hpart ..).trans (fencePorts_hpart _ q)).trans hg, hheld⟩

theorem removalPath_i3cOff (s : State) : (removalPath s).mod.i3cOff = s.mod.i3cOff ∧ (removalPath s).mod.mated = s.mod.mated := by
  by_cases h : s.mod.enabled = true ∧ sbdState s ≠ 2 ∧ sbdState s ≠ 3
  · rw [removalPath_leaves h]
    rw [setSbdState_i3cOff, setSbdState_mated, leaving_mod]
    exact ⟨rfl, rfl⟩
  · rw [removalPath_stays h]
    exact ⟨rfl, rfl⟩

theorem removal_acts (s : State) :
    let leaves := s.mod.enabled = true ∧ sbdState s ≠ 2 ∧ sbdState s ≠ 3
    (¬ leaves → exec .shutdown s = .next s ∧ exec .removal s = .next { s with mod := { s.mod with mated := false } }) ∧
    (leaves → leads .shutdown s (safeState · s) ∧ leads .removal s fun t => safeState t s ∧ t.mod.mated = false) := by
  have hshut : exec .shutdown s = .next (removalPath s) := rfl
  have hrem : exec .removal s = .next (removalPath { s with mod := { s.mod with mated := false } }) := rfl
  refine ⟨fun h => ⟨?_, ?_⟩, fun h => ⟨leads_of hshut (removalPath_safe h), leads_of hrem ⟨?_, (removalPath_i3cOff _).2⟩⟩⟩
  · rw [hshut, removalPath_stays h]
  · rw [hrem, removalPath_stays (s := { s with mod := { s.mod with mated := false } }) h]
  · exact removalPath_safe (s := { s with mod := { s.mod with mated := false } }) h

theorem mateSenseBounce_acts (s : State) :
    (s.mod.enabled = false → exec .mateSenseBounce s = .next s) ∧
    (s.mod.enabled = true → leads .mateSenseBounce s fun t => fld (sbReg t 4) 31 16 = min 65535 (fld (sbReg s 4) 31 16 + 1) ∧
      { t with mod := s.mod } = s) := by
  have hdef : exec .mateSenseBounce s = execMateSenseBounce s := rfl
  refine ⟨fun h => ?_, fun h => ?_⟩
  · rw [hdef, execMateSenseBounce, if_neg (by simp [h])]
  · rw [execMateSenseBounce, if_pos h] at hdef
    refine leads_of hdef ⟨?_, rfl⟩
    have hreg : sbReg { s with mod := { s.mod with sbd := regCount sidebandRegs s.mod.sbd 4 31 16 1 } } 4 =
        setFld (sbReg s 4) 31 16 (satTo (2 ^ (31 + 1 - 16) - 1) (fld (sbReg s 4) 31 16 + 1)) :=
      regRaw_regUpd_self sidebandRegs s.mod.sbd 4 fun w => setFld w 31 16 (satTo (2 ^ (31 + 1 - 16) - 1) (fld w 31 16 + 1))
    rw [hreg, fld_setFld_self _ _ _ _ (by decide), satTo_eq_min]
    exact Nat.mod_eq_of_lt (by omega)

/-! ### Private writes and reads (R737, R738, R741) -/

theorem sbReg_sbSet_self (s : State) (o : Nat) (w : Word) : sbReg (sbSet s o w) o = w := regRaw_mset_self ..

theorem budgetWrite_acts (s : State) (w : Word) :
    sbReg (budgetWrite s w) 0x14 = w &&& 0xFFFF#32 ∧ fld (wReg (budgetWrite s w) 0x30008) 15 0 = clampBudget s (fld w 15 0) := by
  refine ⟨sbReg_sbSet_self .., (fld_wFld_self _ 0x30008 0 _ (by decide)).trans (Nat.mod_eq_of_lt ?_)⟩
  unfold clampBudget
  dsimp only
  split_ifs <;> omega

theorem sbWrite_i3cOff (s : State) (off : Nat) (val : Word) : (sbWrite s off val).mod.i3cOff = s.mod.i3cOff := by
  unfold sbWrite
  split
  · split
    · exact (removalPath_i3cOff s).1
    · rfl
  · split
    · exact rfl
    · split
      · rfl
      · dsimp only
        split <;> rfl

theorem sbWrites_i3cOff (s : State) (off : Nat) (ws : List Word) : (sbWrites s off ws).mod.i3cOff = s.mod.i3cOff := by
  induction ws generalizing s off with
  | nil => rfl
  | cons w t ih => exact (ih _ _).trans (sbWrite_i3cOff ..)

/-- A word written over the sideband to a register of its table. -/
theorem sbReg_sbWrite (s : State) {off : Nat} {r : RegDef} (val : Word) (h10 : off ≠ 0x10) (h14 : off ≠ 0x14) (hr : regFind sidebandRegs off = some r) :
    sbReg (sbWrite s off val) off = regAfterWrite r (sbReg s off) val := by
  unfold sbWrite
  rw [if_neg h10, if_neg h14, hr]
  dsimp only
  split
  · exact sbReg_sbSet_self ..
  · exact sbReg_sbSet_self s off _

theorem regFind_alert : regFind sidebandRegs 0x8 =
    some ⟨"sbd.alert", 0x8, [], 0x00000000#32, 0x00000000#32, 0x00000000#32, 0x00000000#32, 0x000001FF#32, 0x00000000#32⟩ := by decide +kernel
theorem regFind_mask : regFind sidebandRegs 0xC =
    some ⟨"sbd.mask", 0xC, [], 0x000001F7#32, 0x000001FF#32, 0x00000000#32, 0x00000000#32, 0x00000000#32, 0x00000000#32⟩ := by decide +kernel

/-- The field of a word written that its register takes. -/
theorem fld_written_low (old w : Word) : fld ((old &&& ~~~0x1FF#32 ||| w &&& 0x1FF#32) &&& ~~~(w &&& 0#32)) 8 0 = fld w 8 0 := by
  refine Nat.eq_of_testBit_eq fun i => ?_
  have hmask : (0x1FF#32).getLsbD i = decide (i < 9) := by
    rw [show (0x1FF#32) = onesAt 8 0 by decide, getLsbD_onesAt]
    simp
    omega
  rw [testBit_fld, testBit_fld]
  by_cases h : i < 9
  · simp only [BitVec.getLsbD_or, BitVec.getLsbD_and, BitVec.getLsbD_not, BitVec.and_zero, BitVec.not_zero, BitVec.and_allOnes, Nat.zero_add, hmask]
    simp [h]
  · simp [h]

/-- What a word written leaves of a register whose bits it clears. -/
theorem written_clears (old w : Word) : (old &&& ~~~0#32 ||| w &&& 0#32) &&& ~~~(w &&& 0x1FF#32) = old &&& ~~~(w &&& 0x1FF#32) := by
  rw [BitVec.and_zero, BitVec.or_zero, BitVec.not_zero, BitVec.and_allOnes]

theorem i3cPrivateWrite_acts (s : State) (off : BitVec 16) (vals : List Word) :
    let mine := s.mod.enabled = true ∧ ∃ a, s.mod.i3cAddr = some a
    let x := Instr.i3cPrivateWrite off vals
    (¬ mine → exec x s = .next s) ∧
    (mine → leads x s fun t => t.mod.i3cOff = off.toNat) ∧
    ∀ w : Word, mine → vals = [w] →
      (off = 0x8#16 → leads x s fun t => sbReg t 8 = sbReg s 8 &&& ~~~(w &&& 0x1FF#32)) ∧
      (off = 0xC#16 → leads x s fun t => fld (sbReg t 0xC) 8 0 = fld w 8 0) ∧
      (off = 0x14#16 → leads x s fun t => sbReg t 0x14 = w &&& 0xFFFF#32 ∧ fld (wReg t 0x30008) 15 0 = clampBudget s (fld w 15 0)) := by
  intro mine x
  have hdef : exec x s = execI3cPrivateWrite off vals s := rfl
  have hmine (h : mine) : exec x s = .next (sbWrites { s with mod := { s.mod with i3cOff := off.toNat } } off.toNat (vals.take 63)) := by
    rw [hdef, execI3cPrivateWrite, if_neg (by simp [(targeted_iff s).mpr h])]
  refine ⟨fun h => ?_, fun h => leads_of (hmine h) (sbWrites_i3cOff ..), fun w h hv => ?_⟩
  · rw [hdef, execI3cPrivateWrite, if_pos (by simp [mt (targeted_iff s).mp h])]
  · have hone := hmine h
    subst hv
    refine ⟨fun ho => ?_, fun ho => ?_, fun ho => ?_⟩ <;> subst ho
    · refine leads_of hone ((sbReg_sbWrite _ w (by decide) (by decide) regFind_alert).trans ?_)
      exact written_clears ..
    · exact leads_of hone ((congrArg (fld · 8 0) (sbReg_sbWrite _ w (by decide) (by decide) regFind_mask)).trans (fld_written_low _ w))
    · exact leads_of hone (budgetWrite_acts { s with mod := { s.mod with i3cOff := (0x14#16).toNat } } w)

theorem sbReads_length (s : State) (off n : Nat) : (sbReads s off n).1.length = n := by
  induction n generalizing s off with
  | zero => rfl
  | succ n ih => exact congrArg (· + 1) (ih _ _)

theorem i3cPrivateRead_acts (s : State) (n : Nat) :
    let mine := s.mod.enabled = true ∧ ∃ a, s.mod.i3cAddr = some a
    (¬ mine → exec (.i3cPrivateRead n) s = .next s) ∧ (mine → leads (.i3cPrivateRead n) s fun t =>
      (∃ ws, t.reply = some ⟨0, ws⟩ ∧ ws.length = min 64 n ∧ ∀ w, ws.head? = some w → w = (sbRead s s.mod.i3cOff).1) ∧
      t.mod.i3cOff = (s.mod.i3cOff + 4 * min 64 n) % 65536) := by
  have hdef : exec (.i3cPrivateRead n) s = execI3cPrivateRead n s := rfl
  refine ⟨fun h => ?_, fun h => ?_⟩
  · rw [hdef, execI3cPrivateRead, if_pos (by simp [mt (targeted_iff s).mp h])]
  · rw [execI3cPrivateRead, if_neg (by simp [(targeted_iff s).mpr h])] at hdef
    refine leads_of hdef ⟨⟨_, rfl, sbReads_length .., fun w hw => ?_⟩, rfl⟩
    cases hm : min 64 n with
    | zero => simp [hm, sbReads] at hw
    | succ m =>
      rw [hm] at hw
      exact (Option.some.inj hw).symm

theorem budgetCommand_acts (s : State) (w : Word) :
    (¬ s.mod.enabled = true → exec (.budgetWrite w) s = .next s) ∧ (s.mod.enabled = true → leads (.budgetWrite w) s fun t => sbReg t 0x14 = w &&& 0xFFFF#32 ∧
      fld (wReg t 0x30008) 15 0 = clampBudget s (fld w 15 0)) := by
  have hdef : exec (.budgetWrite w) s = execBudgetWrite w s := rfl
  refine ⟨fun h => ?_, fun h => ?_⟩
  · rw [hdef, execBudgetWrite, if_neg h]
  · rw [execBudgetWrite, if_pos h] at hdef
    exact leads_of hdef (budgetWrite_acts s w)

/-! ### IBIs (R740) -/

theorem alertLow_iff (s : State) : alertLow s = true ↔ alertsOn s ≠ 0#32 := by simp [alertLow]

/-- The alert whose number an IBI gives. -/
theorem lowestAlert_eq {s : State} {n : Nat} (h : n < 9) (hn : bit (alertsOn s) n = true) (hlow : ∀ m < n, bit (alertsOn s) m = false) : lowestAlert s = n := by
  have hfind : (List.range 9).find? (fun i => bit (alertsOn s) i) = some n := by
    rw [List.find?_range_eq_some]
    exact ⟨hn, List.mem_range.mpr h, fun m hm => by simp [hlow m hm]⟩
  rw [lowestAlert, hfind]
  rfl

theorem sendIbi_quiet {s : State} (ack : Bool) (h : ¬ ((s.mod.enabled = true ∧ ∃ a, s.mod.i3cAddr = some a) ∧ s.mod.ibi = true ∧ alertsOn s ≠ 0#32)) :
    sendIbi s ack = { s with mod := { s.mod with ibiAt := none } } := by
  refine if_pos ?_
  rw [← targeted_iff, ← alertLow_iff] at h
  cases h1 : targeted s <;> cases h2 : s.mod.ibi <;> cases h3 : alertLow s <;> simp [h1, h2, h3] at h ⊢

theorem sendIbi_rings {s : State} (ack : Bool) {n : Nat} (h : (s.mod.enabled = true ∧ ∃ a, s.mod.i3cAddr = some a) ∧ s.mod.ibi = true ∧ alertsOn s ≠ 0#32)
    (hn : n < 9 ∧ bit (alertsOn s) n = true ∧ ∀ m < n, bit (alertsOn s) m = false) :
    (sendIbi s ack).reply = some ⟨0, [BitVec.ofNat 32 n]⟩ ∧ (sendIbi s ack).now = s.now ∧
      (sendIbi s ack).mod.ibiAt = if ack then none else some (s.now + 1600000) := by
  obtain ⟨hmine, hibi, hon⟩ := h
  obtain ⟨h9, hbit, hlow⟩ := hn
  have hsend : sendIbi s ack = ({ s with mod := { s.mod with ibiAt := if ack then none else some (s.now + msCyc) } }).answer 0
      [BitVec.ofNat 32 (lowestAlert s)] := if_neg (by simp [(targeted_iff s).mpr hmine, hibi, (alertLow_iff s).mpr hon])
  rw [hsend, lowestAlert_eq h9 hbit hlow]
  exact ⟨rfl, rfl, rfl⟩

theorem ibi_acts (s : State) :
    let rings := (s.mod.enabled = true ∧ ∃ a, s.mod.i3cAddr = some a) ∧ s.mod.ibi = true ∧ alertsOn s ≠ 0#32
    let lowest (n : Nat) : Prop := n < 9 ∧ bit (alertsOn s) n = true ∧ ∀ m < n, bit (alertsOn s) m = false
    (s.mod.ibiAt = none → ∀ ack, exec (.ibi ack) s = .next s ∧ exec (.ibiRepeat ack) s = .next s) ∧
    ∀ u, s.mod.ibiAt = some u →
      (∀ ack, s.now < u → exec (.ibi ack) s = .next s) ∧
      (∀ ack, ¬ rings → (u ≤ s.now → leads (.ibi ack) s fun t => t.mod.ibiAt = none ∧ t.reply = s.reply) ∧
        leads (.ibiRepeat ack) s fun t => t.mod.ibiAt = none ∧ t.reply = s.reply ∧ t.now = max s.now u) ∧
      ∀ ack n, rings → lowest n →
        (u ≤ s.now → leads (.ibi ack) s fun t => t.reply = some ⟨0, [BitVec.ofNat 32 n]⟩ ∧ t.now = s.now ∧
          t.mod.ibiAt = if ack then none else some (s.now + 1600000)) ∧
        leads (.ibiRepeat ack) s fun t => t.reply = some ⟨0, [BitVec.ofNat 32 n]⟩ ∧ t.now = max s.now u ∧
          t.mod.ibiAt = if ack then none else some (max s.now u + 1600000) := by
  intro rings lowest
  have hibi (ack : Bool) : exec (.ibi ack) s = execIbi ack s := rfl
  have hrep (ack : Bool) : exec (.ibiRepeat ack) s = execIbiRepeat ack s := rfl
  refine ⟨fun hnone ack => ⟨by rw [hibi, execIbi, hnone], by rw [hrep, execIbiRepeat, hnone]⟩, fun u hu => ?_⟩
  have hdue (ack : Bool) (h : u ≤ s.now) : exec (.ibi ack) s = .next (sendIbi s ack) := by
    rw [hibi, execIbi, hu]
    exact congrArg _ (if_pos h)
  have hagain (ack : Bool) : exec (.ibiRepeat ack) s = .next (sendIbi (s.reach u) ack) := by rw [hrep, execIbiRepeat, hu]
  refine ⟨fun ack h => ?_, fun ack hno => ⟨fun h => ?_, ?_⟩, fun ack n hr hn => ⟨fun h => ?_, ?_⟩⟩
  · rw [hibi, execIbi, hu]
    exact congrArg _ (if_neg (by omega))
  · exact leads_of ((hdue ack h).trans (congrArg _ (sendIbi_quiet ack hno))) ⟨rfl, rfl⟩
  · exact leads_of ((hagain ack).trans (congrArg _ (sendIbi_quiet (s := s.reach u) ack hno))) ⟨rfl, rfl, rfl⟩
  · exact leads_of (hdue ack h) (sendIbi_rings ack hr hn)
  · exact leads_of (hagain ack) (sendIbi_rings (s := s.reach u) ack hr hn)

/-! ### RST_N (R750 to R752) -/

theorem resetPort_keeps (s : State) (p : Nat) : (resetPort s p).hw = s.hw ∧ (resetPort s p).net = s.net := by
  unfold resetPort
  extract_lets st s1 s2
  have h2 : s2.hw = s.hw ∧ s2.net = s.net := by
    unfold s2
    split <;> exact ⟨rfl, rfl⟩
  exact h2

theorem foldl_resetPort_keeps (l : List Nat) (s : State) : (l.foldl resetPort s).hw = s.hw ∧ (l.foldl resetPort s).net = s.net := by
  induction l generalizing s with
  | nil => exact ⟨rfl, rfl⟩
  | cons p t ih => exact ⟨(ih _).1.trans (resetPort_keeps s p).1, (ih _).2.trans (resetPort_keeps s p).2⟩

/-- A device that is reset has no partition and no packet, and is not ready. -/
theorem deviceReset_empties (s : State) : (deviceReset s).hw.parts = [] ∧ (deviceReset s).net = [] ∧ (deviceReset s).hw.ready = false := by
  unfold deviceReset
  extract_lets s1 s2 tm s3 s4
  have h4 : s4.hw = s1.hw ∧ s4.net = [] := by
    unfold s4
    split <;> exact ⟨rfl, rfl⟩
  obtain ⟨hhw, hnet⟩ := foldl_resetPort_keeps (List.range 8) { s4 with mod := { s4.mod with coolTrip := false, auto := true, boost := [], noClock := [] } }
  rw [hhw, hnet]
  refine ⟨(congrArg Heartwood.parts h4.1).trans rfl, h4.2, (congrArg Heartwood.ready h4.1).trans rfl⟩

theorem rstAssert_acts (s : State) :
    (s.mod.enabled = false ∨ s.mod.rstLow = true → exec .rstAssert s = .next s) ∧
    (s.mod.enabled = true → s.mod.rstLow = false →
      (2 ≤ sbdState s → exec .rstAssert s = .next { s with mod := { s.mod with rstLow := true } }) ∧
      (sbdState s ≤ 1 → leads .rstAssert s fun t => t.mod.rstLow = true ∧ t.hw.parts = [] ∧ t.net = [] ∧ t.hw.ready = false ∧ t.now = s.now)) := by
  have hdef : exec .rstAssert s = execRstAssert s := rfl
  refine ⟨fun h => ?_, fun hen hlow => ?_⟩
  · rw [hdef, execRstAssert, if_pos (by simpa using h)]
  · rw [execRstAssert, if_neg (by simp [hen, hlow])] at hdef
    refine ⟨fun h => ?_, fun h => ?_⟩
    · rw [if_neg (by omega)] at hdef
      exact hdef
    · rw [if_pos h] at hdef
      obtain ⟨hparts, hnet, hready⟩ := deviceReset_empties s
      exact leads_of hdef ⟨rfl, hparts, hnet, hready, deviceReset_now s⟩

theorem bit_of_fld_full {w : Word} (h : fld w 11 8 = 15) {i : Nat} (h8 : 8 ≤ i) (h11 : i ≤ 11) : bit w i = true := by
  obtain ⟨j, rfl⟩ := Nat.exists_eq_add_of_le h8
  have hj := congrArg (·.testBit j) h
  rw [testBit_fld] at hj
  have h4 : j < 4 := by omega
  have h15 : (15 : Nat).testBit j = true := by
    interval_cases j <;> rfl
  rw [h15] at hj
  simpa [h4, bit] using hj

theorem autoStart_rstLow (s : State) : (autoStart s).mod.rstLow = s.mod.rstLow := by
  unfold autoStart
  split
  · rfl
  · unfold startStep
    extract_lets s0
    have h0 : s0.mod = s.mod := by
      unfold s0 brgEnd
      dsimp only
      split_ifs <;> rfl
    exact (congrArg Module.rstLow h0 :)

/-- The engine goes on by itself with the step that follows the first four. -/
theorem autoStart_goes {s : State} (hauto : s.mod.auto = true) (hlow : s.mod.rstLow = false) (hrun : brgState s ≠ bsRunning)
    (hdone : fld (wReg s brgStep) 11 8 = 15) : autoStart s = startStep s 5#32 true := by
  have hbit (k : Nat) (h1 : 1 ≤ k) (h4 : k ≤ 4) : brgDone s k = true := bit_of_fld_full hdone (by omega) (by omega)
  refine if_neg ?_
  simp [hauto, rstHeld, hlow, hrun, hbit]

theorem rstRelease_acts (s : State) :
    (s.mod.rstLow = false → exec .rstRelease s = .next s) ∧
    (s.mod.rstLow = true → leads .rstRelease s fun t => t.mod.rstLow = false ∧
      (s.mod.auto = true → brgState s ≠ 1 → fld (wReg s 8) 11 8 = 15 → stepRuns t 5 = true ∧ t.mod.stepAt = s.now) ∧
      (s.mod.auto = false → { t with mod := s.mod } = s)) := by
  have hdef : exec .rstRelease s = execRstRelease s := rfl
  refine ⟨fun h => ?_, fun h => ?_⟩
  · rw [hdef, execRstRelease, if_pos (by simp [h])]
  · rw [execRstRelease, if_neg (by simp [h])] at hdef
    refine leads_of hdef ⟨autoStart_rstLow _, fun hauto hrun hdone => ?_, fun hauto => ?_⟩
    · rw [autoStart_goes (s := { s with mod := { s.mod with rstLow := false } }) hauto rfl hrun hdone]
      exact startStep_runs _ 5#32 true
    · rw [autoStart, if_pos (by simp [hauto])]

/-- Settles O57: the target, its registers and its IBIs, the removal path and RST_N. -/
theorem sidebandAndRemovalAct : Obligations.SidebandAndRemovalAct := by
  refine ⟨fun s => ?_, fun s => ?_⟩
  · obtain ⟨hjoin, hnojoin⟩ := hotJoin_acts s
    obtain ⟨hrst, hrstOn⟩ := rstdaa_acts s
    obtain ⟨hstat, hstatOn⟩ := getstatus_acts s
    obtain ⟨hnoibi, hibi⟩ := ibi_acts s
    exact ⟨hjoin, hnojoin, fun e => eventCommands_act s e, hrst, hrstOn, fun a => entdaa_acts s a, fun b a => setdasa_acts s b a,
      getCommon_gives rfl, getCommon_gives rfl, getCommon_gives rfl, getCommon_gives rfl, getCommon_gives rfl, hstat, hstatOn,
      fun off vals => i3cPrivateWrite_acts s off vals, fun n => i3cPrivateRead_acts s n, fun w => budgetCommand_acts s w, hnoibi, hibi⟩
  · obtain ⟨hstays, hleaves⟩ := removal_acts s
    obtain ⟨hnobounce, hbounce⟩ := mateSenseBounce_acts s
    obtain ⟨hnoassert, hassert⟩ := rstAssert_acts s
    obtain ⟨hnorelease, hrelease⟩ := rstRelease_acts s
    exact ⟨hstays, hleaves, hnobounce, hbounce, hnoassert, hassert, hnorelease, hrelease⟩

end Sys2Proof.Machine
end

section
/-! PROOFS. Mailbox commands: what stands in a ring, and how a command ends (R497, R503, R506, R512). -/
namespace Sys2Proof.Machine

/-! ### A command taken up -/

/-- The ring once the heartwood has begun a command. -/
def Ring.beginAt (k : Ring) (pos : Nat) : Ring := { k with flight := k.flight.map fun g => if g.pos = pos then { g with begun := true } else g }

/-- The state once the heartwood has begun a command. -/
def State.beginAt (s : State) (r pos : Nat) (k : Ring) : State := s.setRing r (k.beginAt pos)

theorem command_idle {s : State} {r : Nat} {pos : Word} {code : Nat} (h : cmdIdle s r pos code) (body : State → Ring → List Word → State) :
    command s r pos code body = s := by
  unfold command
  split
  · rfl
  · next k hk =>
    have hnone : k.flight.find? (fun f => f.pos == pos.toNat && !f.begun && f.done.isNone && fld (f.words.getD 0 0#32) 15 0 == code) = none := by
      refine List.find?_eq_none.mpr fun f hf hsel => ?_
      simp only [Bool.and_eq_true, beq_iff_eq, Bool.not_eq_true', Option.isNone_iff_eq_none] at hsel
      obtain ⟨⟨⟨hpos, hbegun⟩, hdone⟩, hcode⟩ := hsel
      rcases h k hk f hf hpos with h | h | h
      · rw [hbegun] at h
        cases h
      · exact h hdone
      · exact h hcode
    rw [hnone]

theorem command_stands {s : State} {r : Nat} {pos : Word} {code : Nat} {k : Ring} {ws : List Word} (h : cmdStands s r pos code k ws)
    (body : State → Ring → List Word → State) : command s r pos code body = body (s.beginAt r pos.toNat k) k ws := by
  obtain ⟨hk, f, hf, hws, hbegun, hdone, hcode, hfence⟩ := h
  obtain ⟨hpos, before, after, hl, hbefore⟩ := List.find?_eq_some_iff_append.mp hf
  have hfind : k.flight.find? (fun f => f.pos == pos.toNat && !f.begun && f.done.isNone && fld (f.words.getD 0 0#32) 15 0 == code) = some f := by
    refine List.find?_eq_some_iff_append.mpr ⟨?_, before, after, hl, fun a ha => ?_⟩
    · have hc : fld (f.words.getD 0 0#32) 15 0 = code := by rw [hws]; exact hcode
      rw [hpos, hbegun, hdone, hc]
      simp
    · have hne := hbefore a ha
      simp only [Bool.not_eq_true'] at hne
      rw [hne]
      rfl
  have hpos' : f.pos = pos.toNat := by simpa using hpos
  unfold command
  simp only [hk, hfind]
  have hfree : ¬ (fenceBit f.words = true ∧ k.flight.head?.map Flight.pos ≠ some f.pos) := by
    rintro ⟨h1, h2⟩
    rw [hws] at h1
    exact hfence.elim (fun h => by rw [h] at h1; cases h1) h2
  rw [if_neg hfree, hws, hpos']
  rfl

theorem commandIf_idle {s : State} {r : Nat} {pos : Word} {code : Nat} (h : cmdIdle s r pos code) (sel : List Word → Bool)
    (body : State → Ring → List Word → State) : commandIf s r pos code sel body = s := by
  unfold commandIf
  rw [command_idle h]
  split <;> simp

theorem commandIf_stands {s : State} {r : Nat} {pos : Word} {code : Nat} {k : Ring} {ws : List Word} (h : cmdStands s r pos code k ws)
    {sel : List Word → Bool} (hsel : sel ws = true) (body : State → Ring → List Word → State) :
    commandIf s r pos code sel body = body (s.beginAt r pos.toNat k) k ws := by
  obtain ⟨hk, f, hf, hws, _⟩ := id h
  unfold commandIf
  simp only [hk, Option.bind_some, hf, hws, hsel, if_true]
  exact command_stands h body

/-! ### A command ended -/

/-- Whether a ring still holds a command that is not done. -/
def ringOpen (a : State) (r pos : Nat) : Prop := ∃ k, a.ring r = some k ∧ ∃ f ∈ k.flight, f.pos = pos ∧ f.done = none

theorem ringOpen_of_rings {a b : State} {r pos : Nat} (h : ringOpen a r pos) (he : b.hw.rings = a.hw.rings) : ringOpen b r pos := by
  obtain ⟨k, hk, hf⟩ := h
  refine ⟨k, ?_, hf⟩
  rw [State.ring, he]
  exact hk

/-- A command begun is not done. -/
theorem beginAt_open {s : State} {r : Nat} {pos : Word} {code : Nat} {k : Ring} {ws : List Word} (h : cmdStands s r pos code k ws) :
    ringOpen (s.beginAt r pos.toNat k) r pos.toNat := by
  obtain ⟨hk, f, hf, hws, hbegun, hdone, _⟩ := h
  have hpos : f.pos = pos.toNat := by simpa using List.find?_some hf
  refine ⟨k.beginAt pos.toNat, ring_setRing_self .., { f with begun := true }, List.mem_map.mpr ⟨f, List.mem_of_find?_eq_some hf, if_pos hpos⟩, hpos, hdone⟩

/-- A ring with a command ended. -/
def Ring.ended (k : Ring) (pos st : Nat) (hd : Word) (rs : List Word) : Ring :=
  { k with flight := k.flight.map fun f =>
      if f.pos = pos ∧ f.done.isNone then { f with begun := true, done := some (st, hd, rs) } else f }

theorem finishCmd_ring {a : State} {r : Nat} {k : Ring} (hk : a.ring r = some k) (pos st : Nat) (hd : Word) (rs : List Word) :
    (finishCmd a r pos st hd rs).ring r = some (k.ended pos st hd rs) := by
  have hk' : mget? a.hw.rings r = some k := hk
  unfold finishCmd
  rw [hk']
  exact mget_mset_self ..

/-- The end of a command that its ring still holds. -/
theorem cmdDone_finish {a : State} {r pos st : Nat} {hd : Word} {rs : List Word} {post : Nat → Word → List Word → Prop} (h : ringOpen a r pos)
    (hp : post st hd rs) : cmdDone (finishCmd a r pos st hd rs) r pos post := by
  obtain ⟨k, hk, f, hf, hpos, hdone⟩ := h
  have hmem : { f with begun := true, done := some (st, hd, rs) } ∈ (k.ended pos st hd rs).flight :=
    List.mem_map.mpr ⟨f, hf, if_pos ⟨hpos, by rw [hdone]; rfl⟩⟩
  exact ⟨_, _, _, finishCmd_ring hk pos st hd rs, hmem, hpos, rfl, rfl, hp⟩

/-- A row of the table whose records are told by a test, from what its body does with a begun command. -/
theorem mbxLeads_of {x : Instr} {r : Nat} {pos : Word} {code : Nat} {sel : List Word → Bool} {own : State → Ring → List Word → Prop}
    {post : State → Ring → List Word → State → Prop} {body : State → Ring → List Word → State}
    (hdef : ∀ s, exec x s = .next (commandIf s r pos code sel body))
    (hbad : ∀ a k ws, badWord0 ws = true → ∃ hd rs, body a k ws = finishCmd a r pos.toNat csBadArg hd rs)
    (hgood : ∀ s k ws, cmdStands s r pos code k ws → sel ws = true → badWord0 ws = false → own s k ws →
      post s k ws (body (s.beginAt r pos.toNat k) k ws)) : mbxLeads x r pos code sel own post := by
  refine fun s => ⟨fun h => by rw [hdef, commandIf_idle h], fun k ws h hsel => ⟨fun hw => ?_, fun hw hown => ?_⟩⟩
  · obtain ⟨hd, rs, hbody⟩ := hbad (s.beginAt r pos.toNat k) k ws hw
    exact leads_of (by rw [hdef, commandIf_stands h hsel, hbody]) (cmdDone_finish (beginAt_open h) rfl)
  · exact leads_of (by rw [hdef, commandIf_stands h hsel]) (hgood s k ws h hsel hw hown)

/-- The same, for a row that stands for every record of its code. -/
theorem mbxLeads_all {x : Instr} {r : Nat} {pos : Word} {code : Nat} {own : State → Ring → List Word → Prop}
    {post : State → Ring → List Word → State → Prop} {body : State → Ring → List Word → State}
    (hdef : ∀ s, exec x s = .next (command s r pos code body))
    (hbad : ∀ a k ws, badWord0 ws = true → ∃ hd rs, body a k ws = finishCmd a r pos.toNat csBadArg hd rs)
    (hgood : ∀ s k ws, cmdStands s r pos code k ws → badWord0 ws = false → own s k ws →
      post s k ws (body (s.beginAt r pos.toNat k) k ws)) (sel : List Word → Bool) : mbxLeads x r pos code sel own post := by
  refine fun s => ⟨fun h => by rw [hdef, command_idle h], fun k ws h _ => ⟨fun hw => ?_, fun hw hown => ?_⟩⟩
  · obtain ⟨hd, rs, hbody⟩ := hbad (s.beginAt r pos.toNat k) k ws hw
    exact leads_of (by rw [hdef, command_stands h, hbody]) (cmdDone_finish (beginAt_open h) rfl)
  · exact leads_of (by rw [hdef, command_stands h]) (hgood s k ws h hw hown)

/-! ### Checks (R496, R512 to R515) -/

/-- Every check passes. -/
theorem judge_ok {l : List (Bool × Nat)} (h : ∀ c ∈ l, c.1 = false) : judge l = csOk := by
  induction l with
  | nil => rfl
  | cons c t ih =>
    obtain ⟨b, st⟩ := c
    have hb : b = false := h _ (List.mem_cons_self ..)
    rw [judge, hb]
    exact ih fun c hc => h c (List.mem_cons_of_mem _ hc)

theorem badHandle_ok {s : State} {ty : Nat} {w : Word} (h : hOk s ty w) : (badHandle s ty w).1 = false := by
  have e : handleCheck s ty w = csOk := h
  simp [badHandle, e]

theorem outOfScope_ok {k : Ring} {p : Nat} (h : inScope k p) : (outOfScope k p).1 = false := by
  rcases h with h | h <;> simp [outOfScope, h]

/-- The generations and objects that handles name are those of the state in which the command stood. -/
theorem handleCheck_beginAt {s : State} {r : Nat} {pos : Word} {code : Nat} {k : Ring} {ws : List Word} (h : cmdStands s r pos code k ws) (ty : Nat) (w : Word) :
    handleCheck (s.beginAt r pos.toNat k) ty w = handleCheck s ty w := by
  have hring (i : Nat) : (mget? (s.beginAt r pos.toNat k).hw.rings i).isSome = (mget? s.hw.rings i).isSome := by
    by_cases hi : i = r
    · have hk : mget? s.hw.rings r = some k := h.1
      rw [hi, hk]
      exact (congrArg Option.isSome (mget_mset_self s.hw.rings r (k.beginAt pos.toNat)) :)
    · exact congrArg Option.isSome (mget_mset_ne _ _ _ _ hi)
  have hat (i : Nat) : objectAt (s.beginAt r pos.toNat k) ty i = objectAt s ty i := by
    unfold objectAt
    simp only [hring]
    rfl
  unfold handleCheck
  rw [hat]
  rfl

theorem hOk_beginAt {s : State} {r : Nat} {pos : Word} {code : Nat} {k : Ring} {ws : List Word} {ty : Nat} {w : Word} (h : cmdStands s r pos code k ws)
    (hw : hOk s ty w) : hOk (s.beginAt r pos.toNat k) ty w := (handleCheck_beginAt h ty w).trans hw

end Sys2Proof.Machine
end

section
/-! PROOFS. Attestation (R715 to R720). -/
namespace Sys2Proof.Machine

/-- What `attest` does with a record that has been begun. -/
def attestBody (r : Nat) (pos : Word) (own : State → HostBuf → List Word → List (Bool × Nat)) (eff : State → HostBuf → List Word → State)
    (a : State) (k : Ring) (ws : List Word) : State :=
  match mget? a.hw.bufs (hIndex (arg ws 4)) with
  | none => finishCmd a r pos.toNat (judge (attestChecks a k ws)) 0#32 []
  | some b =>
    if judge ((judge (attestChecks a k ws) != csOk, judge (attestChecks a k ws)) :: own a b ws) ≠ csOk then
      finishCmd a r pos.toNat (judge ((judge (attestChecks a k ws) != csOk, judge (attestChecks a k ws)) :: own a b ws)) 0#32 []
    else eff a b ws

theorem attestBody_bad (r : Nat) (pos : Word) (own : State → HostBuf → List Word → List (Bool × Nat)) (eff : State → HostBuf → List Word → State)
    (a : State) (k : Ring) {ws : List Word} (h : badWord0 ws = true) : ∃ hd rs, attestBody r pos own eff a k ws = finishCmd a r pos.toNat csBadArg hd rs := by
  have hst : judge (attestChecks a k ws) = csBadArg := by
    unfold attestChecks
    simp only [h, Bool.true_or, judge, if_true]
  refine ⟨0#32, [], ?_⟩
  unfold attestBody
  rw [hst]
  split
  · rfl
  · rfl

/-- The conditions that every ACTION shares, on a record that names a buffer. -/
def attestOwn (s : State) (k : Ring) (ws : List Word) (b : HostBuf) : Prop :=
  fld (arg ws 2) 31 2 = 0 ∧ fld (arg ws 2) 1 0 ≠ 3 ∧
    (arg ws 3 = 0#32 ∨ hOk s hPart (arg ws 3)) ∧ hOk s hBuffer (arg ws 4) ∧ lifeCycle s.mod ≠ 0 ∧ lifeCycle s.mod ≠ 4 ∧
    inScope k (attestPart ws) ∧ mget? s.hw.bufs (hIndex (arg ws 4)) = some b ∧ inScope k b.part

theorem attestOwn.buffer {s : State} {k : Ring} {ws : List Word} {b : HostBuf} (h : attestOwn s k ws b) : mget? s.hw.bufs (hIndex (arg ws 4)) = some b := by
  obtain ⟨_, _, _, _, _, _, _, hb, _⟩ := h
  exact hb

theorem attestChecks_ok {a : State} {k : Ring} {ws : List Word} {b : HostBuf} (hw : badWord0 ws = false) (h : attestOwn a k ws b) :
    judge (attestChecks a k ws) = csOk := by
  obtain ⟨hres, hact, hpart, hbuf, h0, h4, hscope, hb, hbscope⟩ := h
  refine judge_ok fun c hc => ?_
  unfold attestChecks at hc
  simp only [List.mem_cons, List.not_mem_nil, or_false, hb] at hc
  rcases hc with rfl | rfl | rfl | rfl | rfl | rfl | rfl
  · simp [hw, hres]
  · split
    · rfl
    · next hne => exact badHandle_ok (hpart.resolve_left hne)
  · exact badHandle_ok hbuf
  · simp [h0, h4]
  · exact outOfScope_ok hscope
  · exact outOfScope_ok hbscope
  · simpa using hact

theorem attestOwn_beginAt {s : State} {r : Nat} {pos : Word} {code : Nat} {k : Ring} {ws : List Word} {b : HostBuf} (hs : cmdStands s r pos code k ws)
    (h : attestOwn s k ws b) : attestOwn (s.beginAt r pos.toNat k) k ws b := by
  obtain ⟨hres, hact, hpart, hbuf, hrest⟩ := h
  exact ⟨hres, hact, hpart.imp_right (hOk_beginAt hs), hOk_beginAt hs hbuf, hrest⟩

theorem attestBody_good {r : Nat} {pos : Word} {own : State → HostBuf → List Word → List (Bool × Nat)} {eff : State → HostBuf → List Word → State}
    {a : State} {k : Ring} {ws : List Word} {b : HostBuf} (hw : badWord0 ws = false) (h : attestOwn a k ws b) (hown : ∀ c ∈ own a b ws, c.1 = false) :
    attestBody r pos own eff a k ws = eff a b ws := by
  have hst : judge ((judge (attestChecks a k ws) != csOk, judge (attestChecks a k ws)) :: own a b ws) = csOk := by
    refine judge_ok fun c hc => ?_
    rcases List.mem_cons.mp hc with rfl | hc
    · simp [attestChecks_ok hw h]
    · exact hown c hc
  have hb : mget? a.hw.bufs (hIndex (arg ws 4)) = some b := h.buffer
  unfold attestBody
  rw [hb]
  exact if_neg (not_not.mpr hst)

/-- What a report's or a log's buffer must be: idle, not held and large enough. -/
theorem outBuffer_ok {a : State} {b : HostBuf} (h : hdrState (bufHeader a b) = bIdle ∧ b.held = none ∧ 64 + 2048 ≤ b.bytes) :
    ∀ c ∈ outBuffer a b 2048, c.1 = false := by
  obtain ⟨hidle, hheld, hbytes⟩ := h
  intro c hc
  unfold outBuffer at hc
  simp only [List.mem_cons, List.not_mem_nil, or_false] at hc
  rcases hc with rfl | rfl
  · simp [hidle, hheld]
  · simpa using hbytes

theorem fillBuffer_written (s : State) (b : HostBuf) (parts : List (Nat × List Byte)) (len : Nat) : memWritten s (fillBuffer s b parts len) := by
  have h1 : memWritten s (parts.foldl (fun a e => devWrite a (b.addr + 64 + e.1) e.2) s) := memWritten.foldl (fun _ _ => devWrite_written ..) _ s
  exact h1.trans (putHeader_written ..)

/-- The end of a command is a change of the rings alone. -/
theorem finishCmd_form (a : State) (r pos st : Nat) (hd : Word) (rs : List Word) :
    ∃ g, finishCmd a r pos st hd rs = { a with hw := { a.hw with rings := g } } := by
  unfold finishCmd
  split <;> exact ⟨_, rfl⟩

theorem finishCmd_hpart (a : State) (r pos st : Nat) (hd : Word) (rs : List Word) (p : Nat) : (finishCmd a r pos st hd rs).hpart p = a.hpart p := by
  obtain ⟨g, hg⟩ := finishCmd_form a r pos st hd rs
  rw [hg]
  rfl

theorem attestReport_acts (r : Fin 16384) (pos : Word) (entropy : List Byte) :
    mbxRow (.attestReport r pos entropy) r.val pos 0x50 (attests 0)
      (fun s k ws => ∃ b, attestOwn s k ws b ∧ hdrState (bufHeader s b) = bIdle ∧ b.held = none ∧ 64 + 2048 ≤ b.bytes)
      (fun s _ ws t st _ res => st = csOk ∧ t.hw.reports = s.hw.reports + 1 ∧
        (∀ b, mget? s.hw.bufs (hIndex (arg ws 4)) = some b →
          res = [BitVec.ofNat 32 (b.addr + 64), BitVec.ofNat 32 ((b.addr + 64) / 2 ^ 32), BitVec.ofNat 32 (s.hw.reports + 1)]) ∧
        ∃ e, mget? t.hw.eph (s.hw.reports + 1) = some e ∧ e.part = attestPart ws ∧ e.secret = padTo 56 entropy ∧
          e.public_ = Config.x448 (padTo 56 entropy) x448Base ∧ e.made = s.now ∧ e.used = false) := by
  refine mbxLeads_of (body := attestBody r.val pos _ _) (fun s => rfl) (fun a k ws => attestBody_bad r.val pos _ _ a k)
    fun s k ws hs _ hw ⟨b, hown, hout⟩ => ?_
  have hbuf : mget? s.hw.bufs (hIndex (arg ws 4)) = some b := hown.buffer
  rw [attestBody_good hw (attestOwn_beginAt hs hown) (outBuffer_ok hout)]
  extract_lets id secret pub body sig cert key _ a1 a2
  have hhw : a2.hw = a1.hw := (fillBuffer_written ..).hw
  have hopen : ringOpen a2 r.val pos.toNat := ringOpen_of_rings (beginAt_open hs) (congrArg Heartwood.rings hhw :)
  obtain ⟨g, hg⟩ := finishCmd_form a2 r.val pos.toNat csOk 0#32
    [BitVec.ofNat 32 (b.addr + 64), BitVec.ofNat 32 ((b.addr + 64) / 2 ^ 32), BitVec.ofNat 32 id]
  refine cmdDone_finish hopen ⟨rfl, ?_, fun b2 hb2 => ?_, key, ?_, rfl, rfl, rfl, rfl, rfl⟩
  · rw [hg]
    exact congrArg Heartwood.reports hhw
  · rw [← Option.some.inj (hbuf.symm.trans hb2)]
    rfl
  · rw [hg]
    exact (congrArg (fun h : Heartwood => mget? h.eph (s.hw.reports + 1)) hhw).trans (mget_mset_self ..)

theorem attestLog_acts (r : Fin 16384) (pos : Word) :
    mbxRow (.attestLog r pos) r.val pos 0x50 (attests 2)
      (fun s k ws => ∃ b, attestOwn s k ws b ∧ hdrState (bufHeader s b) = bIdle ∧ b.held = none ∧ 64 + 2048 ≤ b.bytes)
      (fun s _ ws _ st _ res => st = csOk ∧ ∀ b, mget? s.hw.bufs (hIndex (arg ws 4)) = some b →
        res = [BitVec.ofNat 32 (min ((b.bytes - 64) / 64) (s.hw.log.length - fld (arg ws 5) 15 0)), BitVec.ofNat 32 s.hw.logN]) := by
  refine mbxLeads_of (body := attestBody r.val pos _ _) (fun s => rfl) (fun a k ws => attestBody_bad r.val pos _ _ a k)
    fun s k ws hs _ hw ⟨b, hown, hout⟩ => ?_
  have hbuf : mget? s.hw.bufs (hIndex (arg ws 4)) = some b := hown.buffer
  rw [attestBody_good hw (attestOwn_beginAt hs hown) (outBuffer_ok hout)]
  extract_lets l a1
  have hopen : ringOpen a1 r.val pos.toNat := ringOpen_of_rings (beginAt_open hs) (congrArg Heartwood.rings (fillBuffer_written ..).hw)
  refine cmdDone_finish hopen ⟨rfl, fun b2 hb2 => ?_⟩
  rw [← Option.some.inj (hbuf.symm.trans hb2)]
  have hlen : l.length = min ((b.bytes - 64) / 64) (s.hw.log.length - fld (arg ws 5) 15 0) := by
    unfold l
    rw [List.length_take, List.length_drop]
    rfl
  rw [hlen]
  rfl

/-! ### Job keys (R717 to R720) -/

/-- A key installed stands with its number. -/
theorem installKey_acts (s : State) (p : Nat) (k : Partn) (key : List Byte) :
    (∃ g, (installKey s p k key).hpart p = some g ∧ g.key = some key ∧ g.keyId = keyIdOf key k.checks.job) ∧
      (installKey s p k key).hw.rings = s.hw.rings := by
  unfold installKey
  exact ⟨⟨_, hpart_setPart_self .., rfl, rfl⟩, rfl⟩

/-- What the key of a report becomes once it is asked for. -/
def spendKey (a : State) (id : Nat) : State :=
  match mget? a.hw.eph id with
  | some x => { a with hw := { a.hw with eph := mset a.hw.eph id { x with secret := [], used := true } } }
  | none => a

theorem spendKey_keeps (a : State) (id : Nat) : (∀ p, (spendKey a id).hpart p = a.hpart p) ∧ (spendKey a id).hw.rings = a.hw.rings := by
  unfold spendKey
  split <;> exact ⟨fun _ => rfl, rfl⟩

theorem attestJobKey_acts (r : Fin 16384) (pos : Word) :
    mbxRow (.attestJobKey r pos) r.val pos 0x50 (attests 1) (fun s k ws => arg ws 3 ≠ 0#32 ∧ ∃ b, attestOwn s k ws b ∧ 192 ≤ b.bytes)
      (fun s _ ws t st _ res => ∀ b g, mget? s.hw.bufs (hIndex (arg ws 4)) = some b → s.hpart (attestPart ws) = some g →
        let m := devRead s (b.addr + 64) 128
        let e := mget? s.hw.eph (msgNat m 0 4)
        (keyStale s (attestPart ws) e = true → st = csStale ∧ t.hpart (attestPart ws) = some g) ∧
        ∀ x, e = some x → keyStale s (attestPart ws) e = false →
          let u := unwrapKey x m
          let bad := (∀ y ∈ u.1, y = 0#8) ∨ u.2.2 = false ∨ msgNat m 4 4 ≠ g.checks.job ∨ s.mod.tamper = true
          (bad → st = csFailed ∧ t.hpart (attestPart ws) = some g) ∧
          (¬ bad → st = csOk ∧ res = wordsOfBytes (keyIdOf u.2.1 g.checks.job) 2 ∧
            ∃ g2, t.hpart (attestPart ws) = some g2 ∧ g2.key = some u.2.1 ∧ g2.keyId = keyIdOf u.2.1 g.checks.job)) := by
  refine mbxLeads_of (body := attestBody r.val pos _ _) (fun s => rfl) (fun a k ws => attestBody_bad r.val pos _ _ a k)
    fun s k ws hs _ hw ⟨hpart, b, hown, hbytes⟩ => ?_
  have hbuf : mget? s.hw.bufs (hIndex (arg ws 4)) = some b := hown.buffer
  have hchecks : ∀ c ∈ [(arg ws 3 == 0#32, csBadArg), (decide (b.bytes < 192), csBadArg)], c.1 = false := by
    intro c hc
    simp only [List.mem_cons, List.not_mem_nil, or_false] at hc
    rcases hc with rfl | rfl
    · simpa using hpart
    · simpa using hbytes
  rw [attestBody_good hw (attestOwn_beginAt hs hown) hchecks]
  extract_lets p m id e
  obtain ⟨hparts, hrings⟩ := spendKey_keeps (s.beginAt r.val pos.toNat k) id
  have hopen : ringOpen (spendKey (s.beginAt r.val pos.toNat k) id) r.val pos.toNat := ringOpen_of_rings (beginAt_open hs) hrings
  have hkeep (st : Nat) (q : Nat) : (finishCmd (spendKey (s.beginAt r.val pos.toNat k) id) r.val pos.toNat st 0#32 []).hpart q = s.hpart q :=
    (finishCmd_hpart ..).trans (hparts q)
  have hp : (spendKey (s.beginAt r.val pos.toNat k) id).hpart p = s.hpart p := hparts p
  have hthis (b2 : HostBuf) (h : mget? s.hw.bufs (hIndex (arg ws 4)) = some b2) : b2 = b := (Option.some.inj (hbuf.symm.trans h)).symm
  split
  · next x g he hg =>
    have hg' : s.hpart p = some g := hp.symm.trans hg
    extract_lets u
    split
    · next hst =>
      refine cmdDone_finish hopen fun b2 g2 hb2 hg2 => ?_
      rw [hthis b2 hb2]
      exact ⟨fun _ => ⟨rfl, (hkeep _ _).trans hg2⟩, fun x2 _ hno => by cases (show keyStale s p e = true from hst).symm.trans hno⟩
    · next hst =>
      have hbad : (u.1.all (fun y => y == 0#8) = true ∨ (!u.2.2) = true ∨ msgNat m 4 4 ≠ g.checks.job ∨ s.mod.tamper = true) ↔
          ((∀ y ∈ u.1, y = 0#8) ∨ u.2.2 = false ∨ msgNat m 4 4 ≠ g.checks.job ∨ s.mod.tamper = true) := by
        simp
      split
      · next hfails =>
        refine cmdDone_finish hopen fun b2 g2 hb2 hg2 => ?_
        rw [hthis b2 hb2]
        obtain rfl : g = g2 := Option.some.inj (hg'.symm.trans hg2)
        refine ⟨fun h => absurd h hst, fun x2 hx2 _ => ?_⟩
        obtain rfl : x = x2 := Option.some.inj (he.symm.trans hx2)
        exact ⟨fun _ => ⟨rfl, (hkeep _ _).trans hg2⟩, fun hno => (hno (hbad.mp hfails)).elim⟩
      · next hholds =>
        obtain ⟨⟨g3, hg3, hkey, hid⟩, hr3⟩ := installKey_acts (spendKey (s.beginAt r.val pos.toNat k) id) p g u.2.1
        refine cmdDone_finish (ringOpen_of_rings hopen hr3) fun b2 g2 hb2 hg2 => ?_
        rw [hthis b2 hb2]
        obtain rfl : g = g2 := Option.some.inj (hg'.symm.trans hg2)
        refine ⟨fun h => absurd h hst, fun x2 hx2 _ => ?_⟩
        obtain rfl : x = x2 := Option.some.inj (he.symm.trans hx2)
        exact ⟨fun h => (hholds (hbad.mpr h)).elim, fun _ => ⟨rfl, rfl, g3, (finishCmd_hpart ..).trans hg3, hkey, hid⟩⟩
  · next hno =>
    refine cmdDone_finish hopen fun b2 g2 hb2 hg2 => ?_
    rw [hthis b2 hb2]
    refine ⟨fun _ => ⟨rfl, (hkeep _ _).trans hg2⟩, fun x2 hx2 _ => (hno x2 g2 hx2 (hp.trans hg2)).elim⟩

/-- Settles O45: the report, the log and the job key. -/
theorem attestationEnds : Obligations.AttestationEnds :=
  fun r pos => ⟨fun entropy => attestReport_acts r pos entropy, attestLog_acts r pos, attestJobKey_acts r pos⟩

end Sys2Proof.Machine
end

section
/-! PROOFS. Ports: what their work keeps, and priority flow control (R456 to R474, R488). -/
namespace Sys2Proof.Machine

/-! ### What the work of one port keeps -/

/-- A port but for what a change of its state, a fence or a count changes of it. -/
def Port.settled (k : Port) : Port :=
  { k with brup := [], txq := [], pauses := [], heldBy := [], ignored := [], pfcNext := [], grown := [] }

/-- What a change of a port's state, its fence, its counts and its patina may change. -/
structure PortActed (p : Nat) (s t : State) : Prop where
  rest : { t with win := s.win, ports := s.ports, hw := { t.hw with fenced := s.hw.fenced, events := s.hw.events } } = s
  reg : ∀ o, o / 0x400 ≠ 0x80 + p → o ≠ 0x200300 + 4 * p → wReg t o = wReg s o
  status : fld (wReg t (pReg p 4)) 15 3 = fld (wReg s (pReg p 4)) 15 3
  other : ∀ q, q ≠ p → t.port q = s.port q
  own : (t.port p).settled = (s.port p).settled

theorem PortActed.refl (p : Nat) (s : State) : PortActed p s s := ⟨rfl, fun _ _ _ => rfl, rfl, fun _ _ => rfl, rfl⟩

theorem PortActed.trans {p : Nat} {s t u : State} (h : PortActed p s t) (h2 : PortActed p t u) : PortActed p s u where
  rest := by
    have e := congrArg (fun x : State => { x with win := s.win, ports := s.ports, hw := { x.hw with fenced := s.hw.fenced, events := s.hw.events } }) h2.rest
    exact e.trans h.rest
  reg o h1 h3 := (h2.reg o h1 h3).trans (h.reg o h1 h3)
  status := h2.status.trans h.status
  other q hq := (h2.other q hq).trans (h.other q hq)
  own := h2.own.trans h.own

/-- A change of a field of a port's own register. -/
theorem wFld_port {p r : Nat} (hr : r < 0x400) (s : State) (hi lo v : Nat) (hst : r ≠ 4 ∨ 15 < lo ∨ hi < 3) : PortActed p s (wFld s (pReg p r) hi lo v) where
  rest := rfl
  reg o h1 _ := wReg_wFld_ne _ _ _ _ _ _ fun h => h1 (by rw [h]; unfold pReg; omega)
  status := by
    rcases hst with h | h
    · rw [wReg_wFld_ne _ _ _ _ _ _ (by unfold pReg; omega)]
    · exact fld_wFld_apart _ _ _ _ _ h _
  other _ _ := rfl
  own := rfl

theorem wCount_port {p r : Nat} (hr : r < 0x400) (s : State) (hi lo n : Nat) (hst : r ≠ 4 ∨ 15 < lo ∨ hi < 3) : PortActed p s (wCount s (pReg p r) hi lo n) where
  rest := rfl
  reg o h1 _ := wReg_wCount_ne _ _ _ _ _ _ fun h => h1 (by rw [h]; unfold pReg; omega)
  status := by
    rcases hst with h | h
    · rw [wReg_wCount_ne _ _ _ _ _ _ (by unfold pReg; omega)]
    · exact fld_wCount_apart _ _ _ _ _ h _
  other _ _ := rfl
  own := rfl

/-- A change of the port's patina register. -/
theorem wFld_patina {p : Nat} (hp : p < 8) (s : State) (hi lo v : Nat) : PortActed p s (wFld s (0x200300 + 4 * p) hi lo v) where
  rest := rfl
  reg o _ h2 := wReg_wFld_ne _ _ _ _ _ _ h2
  status := by rw [wReg_wFld_ne _ _ _ _ _ _ (by unfold pReg; omega)]
  other _ _ := rfl
  own := rfl

theorem setPort_acted {p : Nat} (s : State) {k : Port} (h : k.settled = (s.port p).settled) : PortActed p s (s.setPort p k) where
  rest := rfl
  reg _ _ _ := rfl
  status := rfl
  other q hq := port_setPort_ne _ _ _ _ hq
  own := by rw [port_setPort_self]; exact h

theorem raiseEvent_port (p : Nat) (s : State) (kind part : Nat) (obj : Word) (ws : List Word) : PortActed p s (raiseEvent s kind part obj ws) :=
  ⟨rfl, fun _ _ _ => rfl, rfl, fun _ _ => rfl, rfl⟩

theorem setPortState_port (s : State) (p v : Nat) : PortActed p s (setPortState s p v) := by
  have h : PortActed p s (wFld s (pReg p 4) 2 0 v) := wFld_port (by decide) s 2 0 v (Or.inr (Or.inr (by decide)))
  unfold setPortState
  dsimp only
  split
  · exact h
  · exact h.trans (raiseEvent_port ..)

theorem portFence_port (s : State) (p : Nat) : PortActed p s (portFence s p) := by
  have h := setPortState_port s p poFenced
  exact h.trans (setPort_acted _ h.own.symm)

theorem portErr_port (s : State) (p : Nat) {c : Nat} (hc : c < 32) (half n : Nat) : PortActed p s (portErr s p c half n) := by
  unfold portErr
  extract_lets hi lo k
  have h1 : PortActed p s (wCount s (pReg p (0x60 + 4 * c)) hi lo n) := wCount_port (by omega) s hi lo n (Or.inl (by omega))
  exact h1.trans (setPort_acted _ rfl)

theorem portDown_port (s : State) (p : Nat) : PortActed p s (portDown s p) := by
  unfold portDown
  extract_lets st s1
  split
  · exact PortActed.refl p s
  · have h1 : PortActed p s s1 := (setPortState_port s p poTraining).trans (wCount_port (by decide) _ 31 16 1 (Or.inr (Or.inl (by decide))))
    split
    · exact h1.trans (portErr_port _ _ (by decide) _ _)
    · exact h1

/-! ### The patina of a port (R604 to R607) -/

theorem portUnit_facts {p : Nat} (hp : p < 8) : unitKind (portUnit p) = 4 ∧ fld (portUnit p) 6 4 = p ∧ unitId (portUnit p) = p := by
  interval_cases p <;> decide

theorem patReg_port {p : Nat} (hp : p < 8) : patReg (portUnit p) = some (0x200300 + 4 * p) := by
  obtain ⟨hkind, hfld, _⟩ := portUnit_facts hp
  unfold patReg
  rw [hkind, hfld]
  rfl

theorem fenceUnit_port {p : Nat} (hp : p < 8) (s : State) (cause part pm : Nat) : PortActed p s (fenceUnit s (portUnit p) cause part pm) := by
  obtain ⟨hkind, hfld, _⟩ := portUnit_facts hp
  have hnone : partOfUnit s (portUnit p) = none := by
    unfold partOfUnit
    rw [hkind]
    rfl
  unfold fenceUnit
  split
  · exact PortActed.refl p s
  · rw [patReg_port hp, hnone]
    extract_lets _ s0 s1 who s2 s3
    have h0 : PortActed p s s0 := ⟨rfl, fun _ _ _ => rfl, rfl, fun _ _ => rfl, rfl⟩
    have h1 : PortActed p s s1 := h0.trans (wFld_patina hp ..)
    have h2 : PortActed p s s2 := by
      have e : s2 = portFence s1 p := by
        show fenceEffect s1 (portUnit p) cause part = _
        unfold fenceEffect
        rw [hkind, hfld]
        rfl
      rw [e]
      exact h1.trans (portFence_port ..)
    exact h2.trans (raiseEvent_port ..)

theorem onLevel_port {p : Nat} (hp : p < 8) (s : State) (lv : Nat) : PortActed p s (onLevel s (portUnit p) lv) := by
  obtain ⟨hkind, _, hid⟩ := portUnit_facts hp
  unfold onLevel
  split
  · exact fenceUnit_port hp s fcPatina 0 noPm
  · split
    · extract_lets n
      have hn : n = p := hid
      rw [hn, if_neg (by rw [hkind]; decide)]
      split
      · exact portDown_port s p
      · rw [if_neg (by rw [hkind]; simp [uHeart])]
        exact PortActed.refl p s
    · exact PortActed.refl p s

theorem addPatina_port {p : Nat} (hp : p < 8) (s : State) (n : Nat) : PortActed p s (addPatina s (portUnit p) n) := by
  unfold addPatina
  rw [patReg_port hp]
  show PortActed p s (let w := wReg s (0x200300 + 4 * p)
    let sc := satTo 65535 (fld w 15 0 + n)
    let s1 := wFld (wFld s (0x200300 + 4 * p) 15 0 sc) (0x200300 + 4 * p) 17 16 (levelOf sc)
    if fld w 17 16 < levelOf sc then onLevel s1 (portUnit p) (levelOf sc) else s1)
  extract_lets w sc s1
  have h1 : PortActed p s s1 := (wFld_patina hp ..).trans (wFld_patina hp ..)
  split
  · exact h1.trans (onLevel_port hp ..)
  · exact h1

theorem portTrain_port {p : Nat} (hp : p < 8) (s : State) : PortActed p s (portTrain s p) := by
  unfold portTrain
  extract_lets st
  split
  · exact (portDown_port s p).trans (addPatina_port hp ..)
  · exact portDown_port s p

theorem PortActed.now {p : Nat} {s t : State} (h : PortActed p s t) : t.now = s.now := by simpa using congrArg State.now h.rest
theorem PortActed.records {p : Nat} {s t : State} (h : PortActed p s t) : t.records = s.records := by simpa using congrArg State.records h.rest
theorem PortActed.since {p : Nat} {s t : State} (h : PortActed p s t) : (t.port p).since = (s.port p).since := by
  simpa [Port.settled] using congrArg Port.since h.own

/-! ### Maps -/

/-- A map stays in order when a key leaves it. -/
theorem merase_keysRising {α : Type} (m : Map α) (k : Nat) (h : mkeysRising m = true) : mkeysRising (merase m k) = true := by
  induction m with
  | nil => rfl
  | cons e t ih =>
    obtain ⟨j, w⟩ := e
    have ht := mkeysRising_tail h
    simp only [merase]
    split
    · exact ht
    · split
      · exact h
      · cases t with
        | nil => rfl
        | cons f u =>
          obtain ⟨i, x⟩ := f
          have hji : j < i := by
            simp only [mkeysRising, Bool.and_eq_true, decide_eq_true_eq] at h
            exact h.1
          have hrest := ih ht
          simp only [merase] at hrest ⊢
          split_ifs at hrest ⊢ with h1 h2
          · cases u with
            | nil => rfl
            | cons g v =>
              obtain ⟨l, y⟩ := g
              simp only [mkeysRising, Bool.and_eq_true, decide_eq_true_eq] at ht ⊢
              exact ⟨by omega, ht.2⟩
          · simp only [mkeysRising, Bool.and_eq_true, decide_eq_true_eq]
            exact ⟨hji, hrest⟩
          · simp only [mkeysRising, Bool.and_eq_true, decide_eq_true_eq]
            exact ⟨hji, hrest⟩

/-! ### Pauses (R472 to R474) -/

/-- The maps of a port's priorities are in order. -/
def Port.ordered (k : Port) : Prop := mkeysRising k.pauses = true ∧ mkeysRising k.txq = true ∧ mkeysRising k.ignored = true

theorem putFrame_ports (s : State) (p len : Nat) : (putFrame s p len).ports = s.ports := rfl

theorem foldl_putFrame_sent (p : Nat) (l : List Nat) (s : State) :
    FramesSent s (l.foldl (fun a n => putFrame a p n) s) ∧ (l.foldl (fun a n => putFrame a p n) s).ports = s.ports := by
  induction l generalizing s with
  | nil => exact ⟨FramesSent.refl s, rfl⟩
  | cons n t ih => exact ⟨(putFrame_sent s p n).trans (ih _).1, (ih _).2⟩

/-- The frames that waited on a priority leave, and nothing else of the port changes. -/
theorem flushPrio_acts (s : State) (p i : Nat) :
    FramesSent s (flushPrio s p i) ∧ (flushPrio s p i).port p = { s.port p with txq := merase (s.port p).txq i } := by
  unfold flushPrio
  extract_lets k
  obtain ⟨hsent, hports⟩ := foldl_putFrame_sent p (mgetD k.txq i []) (s.setPort p { k with txq := merase k.txq i })
  refine ⟨(setPort_sent s p _).trans hsent, ?_⟩
  rw [State.port, hports]
  exact port_setPort_self ..

/-- What work on other priorities keeps of one of them. -/
structure PrioKept (p i : Nat) (s t : State) : Prop where
  now : t.now = s.now
  reg : ∀ o, notSent o → (∀ j, j ≠ i → o ≠ pReg p (0x100 + 8 * j)) → wReg t o = wReg s o
  mode : (t.port p).mode = (s.port p).mode
  ordered : (s.port p).ordered → (t.port p).ordered
  pause : (s.port p).ordered → mget? (t.port p).pauses i = mget? (s.port p).pauses i
  queue : (s.port p).ordered → mget? (t.port p).txq i = mget? (s.port p).txq i
  ignored : mget? (t.port p).ignored i = mget? (s.port p).ignored i

theorem PrioKept.refl (p i : Nat) (s : State) : PrioKept p i s s := ⟨rfl, fun _ _ _ => rfl, rfl, id, fun _ => rfl, fun _ => rfl, rfl⟩

theorem PrioKept.trans {p i : Nat} {s t u : State} (h : PrioKept p i s t) (h2 : PrioKept p i t u) : PrioKept p i s u where
  now := h2.now.trans h.now
  reg o ho hr := (h2.reg o ho hr).trans (h.reg o ho hr)
  mode := h2.mode.trans h.mode
  ordered ho := h2.ordered (h.ordered ho)
  pause ho := (h2.pause (h.ordered ho)).trans (h.pause ho)
  queue ho := (h2.queue (h.ordered ho)).trans (h.queue ho)
  ignored := h2.ignored.trans h.ignored

theorem PrioKept.foldl {p i : Nat} {f : State → Nat → State} (hf : ∀ s j, j ≠ i → PrioKept p i s (f s j)) {l : List Nat} (hl : i ∉ l) (s : State) :
    PrioKept p i s (l.foldl f s) := by
  induction l generalizing s with
  | nil => exact PrioKept.refl p i s
  | cons j t ih =>
    have hj : j ≠ i := fun h => hl (h ▸ List.mem_cons_self ..)
    exact (hf s j hj).trans (ih (fun h => hl (List.mem_cons_of_mem _ h)) _)

theorem notSent_pfc {p j : Nat} (hj : j < 8) (r : Nat) (h1 : 0x60 ≤ r) (h2 : r ≤ 0x104) : notSent (pReg p (r + 8 * j)) := by
  unfold notSent pReg
  omega

/-- A port replaced by one that differs in other priorities alone. -/
theorem setPort_prio {p i : Nat} {s : State} {k : Port} (hmode : k.mode = (s.port p).mode) (hord : (s.port p).ordered → k.ordered)
    (hpause : (s.port p).ordered → mget? k.pauses i = mget? (s.port p).pauses i) (hqueue : (s.port p).ordered → mget? k.txq i = mget? (s.port p).txq i)
    (hign : mget? k.ignored i = mget? (s.port p).ignored i) : PrioKept p i s (s.setPort p k) := by
  have h := port_setPort_self s p k
  exact ⟨rfl, fun _ _ _ => rfl, by rw [h, hmode], fun ho => by rw [h]; exact hord ho, fun ho => by rw [h]; exact hpause ho,
    fun ho => by rw [h]; exact hqueue ho, by rw [h, hign]⟩

theorem flushPrio_other (s : State) (p : Nat) {i j : Nat} (h : j ≠ i) : PrioKept p i s (flushPrio s p j) := by
  obtain ⟨hsent, hport⟩ := flushPrio_acts s p j
  exact ⟨hsent.now, fun q hq _ => hsent.reg q hq, by rw [hport], fun ⟨hp, ht, hi⟩ => by rw [hport]; exact ⟨hp, merase_keysRising _ _ ht, hi⟩,
    fun _ => by rw [hport], fun ⟨_, ht, _⟩ => by rw [hport]; exact mget_merase_ne _ _ _ (Ne.symm h) ht, by rw [hport]⟩

/-- One priority of a PFC frame leaves the others as they are. -/
theorem takePause_other (p : Nat) (quanta : List (BitVec 16)) (s : State) {i j : Nat} (h : j ≠ i) : PrioKept p i s (takePause p quanta s j) := by
  unfold takePause
  extract_lets o s1 k t since
  have h1 : PrioKept p i s s1 :=
    ⟨rfl, fun q _ hq => wReg_wSet_ne _ _ _ _ (hq j h), rfl, id, fun _ => rfl, fun _ => rfl, rfl⟩
  split
  · exact h1
  · split
    · exact h1.trans (setPort_prio rfl (fun ⟨hp, ht, hi⟩ => ⟨hp, ht, mset_keysRising _ _ _ hi⟩) (fun _ => rfl) (fun _ => rfl)
        (mget_mset_ne _ _ _ _ (Ne.symm h)))
    · split
      · have h2 : PrioKept p i s1 (s1.setPort p { k with pauses := merase k.pauses j, heldBy := merase k.heldBy j }) :=
          setPort_prio rfl (fun ⟨hp, ht, hi⟩ => ⟨merase_keysRising _ _ hp, ht, hi⟩) (fun ⟨hp, _, _⟩ => mget_merase_ne _ _ _ (Ne.symm h) hp)
            (fun _ => rfl) rfl
        exact (h1.trans h2).trans (flushPrio_other _ p h)
      · exact h1.trans (setPort_prio rfl (fun ⟨hp, ht, hi⟩ => ⟨mset_keysRising _ _ _ hp, ht, hi⟩)
          (fun _ => mget_mset_ne _ _ _ _ (Ne.symm h)) (fun _ => rfl) rfl)

/-- The end of a pause is one of time and of the port's rate. -/
theorem pauseEnd_of {s t : State} {p : Nat} (hnow : t.now = s.now) (hmode : (t.port p).mode = (s.port p).mode) (q : Nat) : pauseEnd t p q = pauseEnd s p q := by
  unfold pauseEnd portRate
  rw [hnow, hmode]

theorem pauseEnd_zero (s : State) (p : Nat) : pauseEnd s p 0 = s.now := by
  unfold pauseEnd
  have h : (0 * 8192 + 10 * portRate s p - 1) / (10 * portRate s p) = 0 := by
    rcases Nat.eq_zero_or_pos (portRate s p) with h | h
    · simp [h]
    · exact Nat.div_eq_of_lt (by omega)
  omega

/-- What a PFC frame does to a priority that it names. -/
theorem takePause_own (p i : Nat) (quanta : List (BitVec 16)) (s : State) (hi : i < 8) :
    let t := takePause p quanta s i
    let due := pauseEnd s p (quanta.getD i 0#16).toNat
    wReg t (pReg p (0x100 + 8 * i)) = wReg s (pReg p (0x100 + 8 * i)) + 1#32 ∧ t.now = s.now ∧
    ((s.port p).ordered → (t.port p).ordered) ∧
    (pfcOn s p i = false → mget? (t.port p).pauses i = mget? (s.port p).pauses i) ∧
    (pfcOn s p i = true → mget? (s.port p).ignored i = none → s.now < due → mget? (t.port p).pauses i = some due) ∧
    (pfcOn s p i = true → mget? (s.port p).ignored i = none → due ≤ s.now → (s.port p).ordered →
      mget? (t.port p).pauses i = none ∧ mget? (t.port p).txq i = none) := by
  intro t due
  have hset : wReg (wSet s (pReg p (0x100 + 8 * i)) (wReg s (pReg p (0x100 + 8 * i)) + 1#32)) (pReg p (0x100 + 8 * i)) =
      wReg s (pReg p (0x100 + 8 * i)) + 1#32 := wReg_wSet_self ..
  have hdef : t = takePause p quanta s i := rfl
  unfold takePause at hdef
  extract_lets o s1 k since at hdef
  cases hon : pfcOn s p i with
  | false =>
    rw [hon, Bool.not_false, if_pos rfl] at hdef
    rw [hdef]
    exact ⟨hset, rfl, id, fun _ => rfl, fun h => (by cases h), fun h => (by cases h)⟩
  | true =>
    rw [hon, Bool.not_true, if_neg (by decide)] at hdef
    cases hig : mget? (s.port p).ignored i with
    | some v =>
      have hsome : (mget? k.ignored i).isSome = true := congrArg Option.isSome hig
      rw [if_pos hsome] at hdef
      have hport : t.port p = { k with ignored := mset k.ignored i s.now } := by rw [hdef, port_setPort_self]
      refine ⟨by rw [hdef]; exact hset, by rw [hdef]; rfl, ?_, fun h => (by cases h), fun _ h => (by cases h), fun _ h => by cases h⟩
      rw [hport]
      exact fun ⟨hp, ht, hi⟩ => ⟨hp, ht, mset_keysRising _ _ _ hi⟩
    | none =>
      have hnone : ¬ (mget? k.ignored i).isSome = true := by rw [show mget? k.ignored i = none from hig]; decide
      rw [if_neg hnone] at hdef
      by_cases hdue : due ≤ s.now
      · rw [if_pos hdue] at hdef
        obtain ⟨hsent, hflush⟩ := flushPrio_acts (s1.setPort p { k with pauses := merase k.pauses i, heldBy := merase k.heldBy i }) p i
        rw [port_setPort_self] at hflush
        rw [← hdef] at hflush hsent
        refine ⟨(hsent.reg _ (notSent_pfc hi 0x100 (by decide) (by decide))).trans hset, hsent.now, ?_, fun h => (by cases h),
          fun _ _ h => absurd hdue (Nat.not_le.mpr h), fun _ _ _ ho => ?_⟩
        · rw [hflush]
          exact fun ⟨hp, ht, hi⟩ => ⟨merase_keysRising _ _ hp, merase_keysRising _ _ ht, hi⟩
        · rw [hflush]
          obtain ⟨hp, ht, _⟩ := ho
          exact ⟨mget_merase_self _ _ hp, mget_merase_self _ _ ht⟩
      · rw [if_neg hdue] at hdef
        have hport : t.port p = { k with pauses := mset k.pauses i due, heldBy := mset k.heldBy i since } := by rw [hdef, port_setPort_self]
        refine ⟨by rw [hdef]; exact hset, by rw [hdef]; rfl, ?_, fun h => (by cases h), fun _ _ _ => ?_, fun _ _ h => absurd h hdue⟩
        · rw [hport]
          exact fun ⟨hp, ht, hi⟩ => ⟨mset_keysRising _ _ _ hp, ht, hi⟩
        · rw [hport]
          exact mget_mset_self ..

theorem pfcReceive_acts (p : PortId) (i : Fin 8) (s : State) (vec : BitVec 8) (quanta : List (BitVec 16)) :
    let k := s.port p.val
    let rx := pReg p.val (0x100 + 8 * i.val)
    (portState s p.val ≠ poUp → exec (.pfcReceive p vec quanta) s = .next s) ∧
    (portState s p.val = poUp → leads (.pfcReceive p vec quanta) s fun t =>
      wReg t rx = (if vec.getLsbD i.val then wReg s rx + 1#32 else wReg s rx) ∧ t.now = s.now ∧
      (k.ordered → vec.getLsbD i.val = false ∨ pfcOn s p.val i.val = false → mget? (t.port p.val).pauses i.val = mget? k.pauses i.val) ∧
      (k.ordered → vec.getLsbD i.val = true → pfcOn s p.val i.val = true → mget? k.ignored i.val = none →
        s.now < pauseEnd s p.val (quanta.getD i.val 0#16).toNat →
        mget? (t.port p.val).pauses i.val = some (pauseEnd s p.val (quanta.getD i.val 0#16).toNat)) ∧
      (k.ordered → vec.getLsbD i.val = true → pfcOn s p.val i.val = true → mget? k.ignored i.val = none → (quanta.getD i.val 0#16) = 0#16 →
        mget? (t.port p.val).pauses i.val = none ∧ mget? (t.port p.val).txq i.val = none)) := by
  intro k rx
  have hdef : exec (.pfcReceive p vec quanta) s = execPfcReceive p vec quanta s := rfl
  refine ⟨fun h => by rw [hdef, execPfcReceive, if_pos h], fun h => ?_⟩
  rw [execPfcReceive, if_neg (not_not.mpr h)] at hdef
  have hrx : notSent rx := notSent_pfc i.isLt 0x100 (by decide) (by decide)
  have hrxne : ∀ j, j ≠ i.val → rx ≠ pReg p.val (0x100 + 8 * j) := fun j hj => by unfold rx pReg; omega
  have hother (l : List Nat) (hl : i.val ∉ l) (a : State) : PrioKept p.val i.val a (l.foldl (takePause p.val quanta) a) :=
    PrioKept.foldl (fun s j hj => takePause_other p.val quanta s hj) hl a
  cases hvec : vec.getLsbD i.val with
  | false =>
    have hk := hother ((List.range 8).filter vec.getLsbD)
      (fun h => by cases hvec.symm.trans (List.mem_filter.mp h).2) s
    exact leads_of hdef ⟨hk.reg _ hrx hrxne, hk.now, fun ho _ => hk.pause ho, fun _ h => (by cases h), fun _ h => by cases h⟩
  | true =>
    have hmem : i.val ∈ (List.range 8).filter vec.getLsbD := List.mem_filter.mpr ⟨List.mem_range.mpr i.isLt, hvec⟩
    have hnodup : ((List.range 8).filter vec.getLsbD).Nodup := List.nodup_range.filter _
    obtain ⟨before, after, hl⟩ := List.append_of_mem hmem
    rw [hl] at hnodup hdef
    rw [List.foldl_append, List.foldl_cons] at hdef
    have hnb : i.val ∉ before := fun hb => (List.nodup_append.mp hnodup).2.2 _ hb _ (List.mem_cons_self ..) rfl
    have hna : i.val ∉ after := (List.nodup_cons.mp (List.nodup_append.mp hnodup).2.1).1
    have hk1 := hother before hnb s
    generalize before.foldl (takePause p.val quanta) s = a at hdef hk1
    obtain ⟨hreg, hnow, hord, hoff, hset, hend⟩ := takePause_own p.val i.val quanta a i.isLt
    have hk2 := hother after hna (takePause p.val quanta a i.val)
    have hon : pfcOn a p.val i.val = pfcOn s p.val i.val :=
      congrArg (bit · i.val) (hk1.reg (pReg p.val 0x14) (by unfold notSent pReg; omega) fun j _ => by unfold pReg; omega)
    have hdue (q : Nat) : pauseEnd a p.val q = pauseEnd s p.val q := pauseEnd_of hk1.now hk1.mode q
    rw [hdue, hk1.now, hk1.ignored, hon] at hset
    rw [hdue, hk1.now, hk1.ignored, hon] at hend
    refine leads_of hdef ⟨?_, hk2.now.trans (hnow.trans hk1.now), fun ho h => ?_, fun ho _ h1 h2 h3 => ?_, fun ho _ h1 h2 h3 => ?_⟩
    · rw [hk2.reg _ hrx hrxne, hreg, hk1.reg _ hrx hrxne]
      rfl
    · rw [hk2.pause (hord (hk1.ordered ho)), hoff (hon.trans (h.resolve_left (by decide))), hk1.pause ho]
    · rw [hk2.pause (hord (hk1.ordered ho))]
      exact hset h1 h2 h3
    · rw [hk2.pause (hord (hk1.ordered ho)), hk2.queue (hord (hk1.ordered ho))]
      refine hend h1 h2 ?_ (hk1.ordered ho)
      rw [h3]
      exact Nat.le_of_eq (pauseEnd_zero s p.val)

theorem pauseExpire_acts (p : PortId) (i : Fin 8) (s : State) :
    let k := s.port p.val
    (mget? k.pauses i.val = none → exec (.pauseExpire p i) s = .next s) ∧
    (∀ u, mget? k.pauses i.val = some u → leads (.pauseExpire p i) s fun t => t.now = max s.now u ∧
      (k.ordered → mget? (t.port p.val).pauses i.val = none ∧ mget? (t.port p.val).txq i.val = none)) := by
  intro k
  have hdef : exec (.pauseExpire p i) s = execPauseExpire p i s := rfl
  refine ⟨fun h => ?_, fun u hu => ?_⟩
  · rw [hdef, execPauseExpire, show mget? (s.port p.val).pauses i.val = none from h]
  · rw [execPauseExpire, show mget? (s.port p.val).pauses i.val = some u from hu] at hdef
    obtain ⟨hsent, hflush⟩ := flushPrio_acts ((s.reach u).setPort p.val { k with pauses := merase k.pauses i.val, heldBy := merase k.heldBy i.val })
      p.val i.val
    rw [port_setPort_self] at hflush
    refine leads_of hdef ⟨hsent.now, fun ⟨hp, ht, _⟩ => ?_⟩
    rw [hflush]
    exact ⟨mget_merase_self _ _ hp, mget_merase_self _ _ ht⟩

/-- A PFC frame sent is counted for its priority. -/
theorem sendPfc_acts (s : State) (p : Nat) {i : Nat} (hi : i < 8) :
    wReg (sendPfc s p i) (pReg p (0x104 + 8 * i)) = wReg s (pReg p (0x104 + 8 * i)) + 1#32 ∧ (sendPfc s p i).now = s.now ∧
      (sendPfc s p i).ports = s.ports := by
  have hsent := putFrame_sent (wSet s (pReg p (0x104 + 8 * i)) (wReg s (pReg p (0x104 + 8 * i)) + 1#32)) p 64
  rw [sendPfc, hsent.reg _ (notSent_pfc hi 0x104 (by decide) (by decide)), wReg_wSet_self]
  exact ⟨rfl, hsent.now, putFrame_ports ..⟩

theorem pfcRepeat_acts (p : PortId) (i : Fin 8) (s : State) :
    let k := s.port p.val
    (mget? k.pfcNext i.val = none ∨ mgetD k.occ i.val 0 < 131072 → exec (.pfcRepeat p i) s = .next s) ∧
    (∀ u, mget? k.pfcNext i.val = some u → 131072 ≤ mgetD k.occ i.val 0 → leads (.pfcRepeat p i) s fun t => t.now = max s.now u ∧
      wReg t (pReg p.val (0x104 + 8 * i.val)) = wReg s (pReg p.val (0x104 + 8 * i.val)) + 1#32 ∧
      mget? (t.port p.val).pfcNext i.val = some (u + 64000)) := by
  intro k
  have hdef : exec (.pfcRepeat p i) s = execPfcRepeat p i s := rfl
  refine ⟨fun h => ?_, fun u hu hocc => ?_⟩
  · rw [hdef, execPfcRepeat]
    split
    · rfl
    · next u hu => exact if_pos (h.resolve_left (by rw [show mget? k.pfcNext i.val = some u from hu]; simp))
  · rw [execPfcRepeat, show mget? (s.port p.val).pfcNext i.val = some u from hu] at hdef
    dsimp only at hdef
    rw [if_neg (Nat.not_lt.mpr hocc)] at hdef
    obtain ⟨hreg, hnow, _⟩ := sendPfc_acts (s.reach u) p.val i.isLt
    refine leads_of hdef ⟨hnow, hreg, ?_⟩
    rw [port_setPort_self]
    exact mget_mset_self ..

theorem bit_of_or (w m : Word) {i : Nat} (h : bit m i = true) : bit (w ||| m) i = true := by rw [bit_or, h, Bool.or_true]

/-- A 32-bit counter of a port. -/
theorem portErr_counts (s : State) (p : Nat) {c : Nat} (hc : c < 12) (n : Nat) :
    winCounts s (portErr s p c 0 n) (pReg p (0x60 + 4 * c)) 31 0 n ∧
      (portErr s p c 0 n).port p = { s.port p with grown := mset (s.port p).grown (2 * c + 0) (mgetD (s.port p).grown (2 * c + 0) 0 + n) } := by
  have h15 : ¬ c = 15 := by omega
  have h12 : ¬ (c = 12 ∨ c = 13) := by omega
  unfold portErr
  simp only [if_neg h15, if_neg h12]
  exact ⟨winCounts_wCount s (pReg p (0x60 + 4 * c)) 0 n (by decide), port_setPort_self ..⟩

theorem pfcWatchdog_acts (p : PortId) (i : Fin 8) (s : State) :
    let k := s.port p.val
    (mget? k.heldBy i.val = none ∨ mget? k.pauses i.val = none → exec (.pfcWatchdog p i) s = .next s) ∧
    (∀ b u, mget? k.heldBy i.val = some b → mget? k.pauses i.val = some u →
      let due := b + wdCyc s p.val
      (u < max s.now due → exec (.pfcWatchdog p i) s = .next s) ∧
      (max s.now due ≤ u → leads (.pfcWatchdog p i) s fun t => t.now = max s.now due ∧ bit (wReg t (pReg p.val 4)) 3 = true ∧
        winCounts s t (pReg p.val 0x78) 31 0 (mgetD k.txq i.val []).length ∧ (k.ordered → mget? (t.port p.val).txq i.val = none ∧
        mget? (t.port p.val).pauses i.val = none) ∧ mget? (t.port p.val).ignored i.val = some t.now ∧
        t.records = s.records ++ [⟨.watchdog, p.val, [i.val]⟩])) := by
  intro k
  have hdef : exec (.pfcWatchdog p i) s = execPfcWatchdog p i s := rfl
  refine ⟨fun h => ?_, fun b u hb hu => ?_⟩
  · rw [hdef, execPfcWatchdog]
    split
    · next b u hb hu =>
      rcases h with h | h
      · cases h.symm.trans hb
      · cases h.symm.trans hu
    · rfl
  · intro due
    simp only [execPfcWatchdog, show mget? (s.port p.val).heldBy i.val = some b from hb, show mget? (s.port p.val).pauses i.val = some u from hu] at hdef
    refine ⟨fun h => hdef.trans (if_neg (Nat.not_le.mpr h)), fun h => ?_⟩
    rw [if_pos h] at hdef
    obtain ⟨hcount, hport⟩ := portErr_counts ((s.reach due).setPort p.val { k with
      txq := merase k.txq i.val, pauses := merase k.pauses i.val, heldBy := merase k.heldBy i.val, ignored := mset k.ignored i.val (max s.now due) })
      p.val (c := 6) (by decide) (mgetD k.txq i.val []).length
    have hacted := portErr_port ((s.reach due).setPort p.val { k with
      txq := merase k.txq i.val, pauses := merase k.pauses i.val, heldBy := merase k.heldBy i.val, ignored := mset k.ignored i.val (max s.now due) })
      p.val (c := 6) (by decide) 0 (mgetD k.txq i.val []).length
    rw [port_setPort_self] at hport
    refine leads_of hdef ?_
    generalize portErr _ p.val 6 0 _ = e at hcount hport hacted
    refine ⟨hacted.now, bit_wFlag_self e _ _ (by decide), winCounts_of_reg hcount (congrArg (fld · 31 0) (wReg_wFlag_ne _ _ _ _ (by unfold pReg; omega))),
      ?_, ?_, congrArg (· ++ [(⟨.watchdog, p.val, [i.val]⟩ : Rec)]) hacted.records⟩
    · show k.ordered → mget? (e.port p.val).txq i.val = none ∧ mget? (e.port p.val).pauses i.val = none
      rw [hport]
      exact fun ⟨hp, ht, _⟩ => ⟨mget_merase_self _ _ ht, mget_merase_self _ _ hp⟩
    · show mget? (e.port p.val).ignored i.val = some e.now
      rw [hport, hacted.now]
      exact mget_mset_self ..

theorem pfcWdRelease_acts (p : PortId) (i : Fin 8) (s : State) :
    let k := s.port p.val
    (mget? k.ignored i.val = none → exec (.pfcWdRelease p i) s = .next s) ∧
    (∀ u, mget? k.ignored i.val = some u → leads (.pfcWdRelease p i) s fun t => t.now = max s.now (u + wdCyc s p.val) ∧
      (k.ordered → mget? (t.port p.val).ignored i.val = none) ∧ t.win = s.win) := by
  intro k
  have hdef : exec (.pfcWdRelease p i) s = execPfcWdRelease p i s := rfl
  refine ⟨fun h => ?_, fun u hu => ?_⟩
  · rw [hdef, execPfcWdRelease, show mget? (s.port p.val).ignored i.val = none from h]
  · rw [execPfcWdRelease, show mget? (s.port p.val).ignored i.val = some u from hu] at hdef
    refine leads_of hdef ⟨rfl, fun ⟨_, _, hi⟩ => ?_, rfl⟩
    rw [port_setPort_self]
    exact mget_merase_self _ _ hi

/-- A bit of a port's status that no change of its state, of its counts or of its patina sets or clears. -/
theorem PortActed.bit {p : Nat} {s t : State} (h : PortActed p s t) {i : Nat} (h1 : 3 ≤ i) (h2 : i ≤ 15) :
    Machine.bit (wReg t (pReg p 4)) i = Machine.bit (wReg s (pReg p 4)) i := by
  obtain ⟨j, rfl⟩ := Nat.exists_eq_add_of_le h1
  have e := congrArg (·.testBit j) h.status
  simp only [testBit_fld] at e
  have hj : j < 15 + 1 - 3 := by omega
  simpa [hj, Machine.bit] using e

theorem counterRateCheck_acts (p : PortId) (s : State) :
    let k := s.port p.val
    leads (.counterRateCheck p) s fun t => t.now = max s.now (k.since + 1600000000) ∧ (t.port p.val).since = t.now ∧
      ((∀ c ∈ watchedCounters, mgetD k.grown c 0 ≤ 10000) → mgetD k.grown 30 0 ≤ 100 → t.win = s.win ∧ t.records = s.records) ∧
      ((∃ c ∈ watchedCounters, 10000 < mgetD k.grown c 0) → bit (wReg t (pReg p.val 4)) 4 = true ∧
        t.records = s.records ++ [⟨.portRate, p.val, []⟩]) := by
  intro k
  have hdef : exec (.counterRateCheck p) s = execCounterRateCheck p s := rfl
  unfold execCounterRateCheck at hdef
  extract_lets s1 s2 fast s3 at hdef
  have hfast : fast = true ↔ ∃ c ∈ watchedCounters, 10000 < mgetD k.grown c 0 := by simp [fast, k]
  have hsince : (s2.port p.val).since = s1.now := by rw [port_setPort_self]
  have h3 (hf : fast = true) : s3 = addPatina ((wFlag s2 (pReg p.val 4) 0x10#32).record ⟨.portRate, p.val, []⟩) (portUnit p.val) 200 := if_pos hf
  have hacted : PortActed p.val s3 (if 100 < mgetD k.grown 30 0 then portTrain s3 p.val else s3) := by
    split
    · exact portTrain_port p.isLt s3
    · exact PortActed.refl _ _
  have hkept : s3.now = s1.now ∧ (s3.port p.val).since = s1.now := by
    by_cases hf : fast = true
    · have hp := addPatina_port p.isLt ((wFlag s2 (pReg p.val 4) 0x10#32).record ⟨.portRate, p.val, []⟩) 200
      rw [h3 hf]
      exact ⟨hp.now, hp.since.trans hsince⟩
    · have h3no : s3 = s2 := if_neg hf
      rw [h3no]
      exact ⟨rfl, hsince⟩
  refine leads_of hdef ⟨hacted.now.trans hkept.1, hacted.since.trans (hkept.2.trans (hacted.now.trans hkept.1).symm), fun hslow hfew => ?_, fun hex => ?_⟩
  · have hf : ¬ fast = true := fun h => by
      obtain ⟨c, hc, hgt⟩ := hfast.mp h
      exact absurd (hslow c hc) (Nat.not_le.mpr hgt)
    have h3no : s3 = s2 := if_neg hf
    rw [if_neg (Nat.not_lt.mpr hfew), h3no]
    exact ⟨rfl, rfl⟩
  · have hf := hfast.mpr hex
    have hp := addPatina_port p.isLt ((wFlag s2 (pReg p.val 4) 0x10#32).record ⟨.portRate, p.val, []⟩) 200
    rw [← h3 hf] at hp
    refine ⟨?_, hacted.records.trans (hp.records.trans rfl)⟩
    rw [hacted.bit (by decide) (by decide), hp.bit (by decide) (by decide)]
    exact bit_wFlag_self s2 _ _ (by decide)

/-- Settles O38: each command of priority flow control, and the check of the counters. -/
theorem flowControlActs : Obligations.FlowControlActs := by
  intro p i s
  obtain ⟨hnone, hsome⟩ := pauseExpire_acts p i s
  obtain ⟨hnorep, hrep⟩ := pfcRepeat_acts p i s
  obtain ⟨hnodog, hdog⟩ := pfcWatchdog_acts p i s
  obtain ⟨hnorel, hrel⟩ := pfcWdRelease_acts p i s
  exact ⟨fun vec quanta => (pfcReceive_acts p i s vec quanta).1, fun vec quanta => (pfcReceive_acts p i s vec quanta).2, hnone, hsome, hnorep, hrep,
    hnodog, hdog, hnorel, hrel, counterRateCheck_acts p s⟩

end Sys2Proof.Machine
end

section
/-! PROOFS. Frames received, and the states of a port (R456 to R469). -/
namespace Sys2Proof.Machine

/-! ### Frames (R462, R463) -/

/-- What becomes of a frame that the port accepts. -/
def acceptFrame (s s2 : State) (p : Nat) (f : Frame) : State :=
  let st := portState s p
  let udp (n : BitVec 16) : Bool := match f.ip with
    | some h => h.udp == some n
    | none => false
  if st = poQuiet then
    match f.ip with
    | some h =>
      if udp 48112#16 ∧ (h.dst = portIp s p ∨ h.dst = 0xFFFFFFFF#32 ∨ portIp s p = 0#32) then takeBringup s2 p h.src h.brup
      else portErr s2 p 3 0 1
    | none => portErr s2 p 3 0 1
  else if f.etype = 0x8808#16 ∧ f.pause then portErr s2 p 1 0 1
  else if udp 4791#16 then bufferFrame s2 p (framePrio s p f) f.len
  else match f.ip with
    | some h => if udp 48112#16 then takeBringup s2 p h.src h.brup else s2
    | none => s2

theorem receiveFrame_off {s : State} {p : Nat} (f : Frame) (h : ¬ (portState s p = poQuiet ∨ portState s p = poUp)) : receiveFrame s p f = s :=
  if_pos (not_or.mp h)

theorem receiveFrame_judged {s : State} {p : Nat} {f : Frame} {c : Nat} (h : portState s p = poQuiet ∨ portState s p = poUp) (hcorr : f.corr = 0)
    (huncorr : f.uncorr = 0) (hc : judgeFrame s p f = some c) : receiveFrame s p f = portErr s p c 0 1 := by
  unfold receiveFrame
  simp only [hcorr, huncorr, hc, Nat.lt_irrefl, if_false]
  exact if_neg fun ⟨h1, h2⟩ => h.elim h1 h2

theorem receiveFrame_good {s : State} {p : Nat} {f : Frame} (h : portState s p = poQuiet ∨ portState s p = poUp) (hcorr : f.corr = 0)
    (huncorr : f.uncorr = 0) (hc : judgeFrame s p f = none) :
    receiveFrame s p f = acceptFrame s (portCount64 (portCount64 s p 0x40 1) p 0x48 f.len) p f := by
  unfold receiveFrame
  simp only [hcorr, huncorr, hc, Nat.lt_irrefl, if_false]
  exact if_neg fun ⟨h1, h2⟩ => h.elim h1 h2

theorem judgeFrame_fcs {s : State} {p : Nat} {f : Frame} (h : f.fcsOk = false) : judgeFrame s p f = some 0 := by
  unfold judgeFrame
  exact if_pos (Or.inl (by simp [h]))

theorem judgeFrame_size {s : State} {p : Nat} {f : Frame} (hf : f.fcsOk = true) (hu : f.uncorr = 0) (h : ¬ (64 ≤ f.len ∧ f.len ≤ 9216 ∧ f.tags ≤ 1)) :
    judgeFrame s p f = some 1 := by
  unfold judgeFrame
  rw [if_neg (by simp [hf, hu]), if_pos (by omega)]

theorem judgeFrame_dst {s : State} {p : Nat} {f : Frame} (hf : f.fcsOk = true) (hu : f.uncorr = 0) (hz : 64 ≤ f.len ∧ f.len ≤ 9216 ∧ f.tags ≤ 1)
    (h : ¬ (f.dst.toNat = portMac s p ∨ f.dst = 0xFFFFFFFFFFFF#48 ∨ f.dst = 0x01005E000181#48 ∨ f.dst = 0x0180C2000001#48)) : judgeFrame s p f = some 2 := by
  unfold judgeFrame
  rw [if_neg (by simp [hf, hu]), if_neg (by omega), if_pos (by simpa only [not_or] using h)]

/-- A count of a port leaves its other registers. -/
theorem portErr_reg (s : State) (p c n : Nat) {r : Nat} (h : r ≠ 0x60 + 4 * c) (half : Nat) : wReg (portErr s p c half n) (pReg p r) = wReg s (pReg p r) :=
  wReg_wCount_ne _ _ _ _ _ _ (by unfold pReg; omega)

theorem portErr_brup (s : State) (p c half n : Nat) : ((portErr s p c half n).port p).brup = (s.port p).brup := by
  unfold portErr
  extract_lets hi lo k
  rw [port_setPort_self]

/-- The frames and the bytes that a port has received. -/
def count64 (s : State) (p o : Nat) : Nat := (wReg s (pReg p o)).toNat + 2 ^ 32 * (wReg s (pReg p (o + 4))).toNat

theorem portCount64_self (s : State) (p o n : Nat) : count64 (portCount64 s p o n) p o = (count64 s p o + n) % 2 ^ 64 := by
  have hlo : wReg (portCount64 s p o n) (pReg p o) = BitVec.ofNat 32 (count64 s p o + n) := by
    unfold portCount64
    rw [wReg_wSet_ne _ _ _ _ (by unfold pReg; omega)]
    exact wReg_wSet_self ..
  have hhi : wReg (portCount64 s p o n) (pReg p (o + 4)) = BitVec.ofNat 32 ((count64 s p o + n) / 2 ^ 32) := wReg_wSet_self ..
  rw [count64, hlo, hhi]
  simp only [BitVec.toNat_ofNat]
  omega

theorem portCount64_reg (s : State) (p o n : Nat) {r : Nat} (h1 : r ≠ o) (h2 : r ≠ o + 4) : wReg (portCount64 s p o n) (pReg p r) = wReg s (pReg p r) := by
  unfold portCount64
  rw [wReg_wSet_ne _ _ _ _ (by unfold pReg; omega), wReg_wSet_ne _ _ _ _ (by unfold pReg; omega)]

theorem count64_apart (s : State) (p n : Nat) {o q : Nat} (h : q + 4 < o ∨ o + 4 < q) : count64 (portCount64 s p o n) p q = count64 s p q := by
  unfold count64
  rw [portCount64_reg (r := q) _ _ _ _ (by omega) (by omega), portCount64_reg (r := q + 4) _ _ _ _ (by omega) (by omega)]

theorem onlyWin.trans {s t u : State} (h : onlyWin s t) (h2 : onlyWin t u) : onlyWin s u := by
  have e := congrArg (fun x : State => { x with win := s.win }) h2
  exact e.trans h

theorem onlyWin.ports {s t : State} (h : onlyWin s t) : t.ports = s.ports := (congrArg State.ports h :)
theorem onlyWin.now {s t : State} (h : onlyWin s t) : t.now = s.now := (congrArg State.now h :)
theorem onlyWin.reply {s t : State} (h : onlyWin s t) : t.reply = s.reply := (congrArg State.reply h :)
theorem onlyWin.mod {s t : State} (h : onlyWin s t) : t.mod = s.mod := (congrArg State.mod h :)

theorem portCount64_win (s : State) (p o n : Nat) : onlyWin s (portCount64 s p o n) := ((onlyWin_refl s).wSet ..).wSet ..

theorem takeBringup_reg (s : State) (p : Nat) (src : Word) (b : Option (BitVec 8 × Word)) {r : Nat} (h : r < 0x50) :
    wReg (takeBringup s p src b) (pReg p r) = wReg s (pReg p r) := by
  unfold takeBringup
  extract_lets k s1
  split
  · exact portErr_reg _ _ _ _ (by omega) _
  · split
    · exact portErr_reg _ _ _ _ (by omega) _
    · split
      · rfl
      · exact wReg_brupReply _ _ _ _ _ _ (by unfold notSent pReg; omega)

theorem wReg_setPort (s : State) (p : Nat) (k : Port) (o : Nat) : wReg (s.setPort p k) o = wReg s o := rfl

theorem sendPfc_reg (s : State) (p i : Nat) {r : Nat} (h : r < 0x50 ∨ 0x60 ≤ r ∧ r < 0x400) (hr : r ≠ 0x104 + 8 * i) :
    wReg (sendPfc s p i) (pReg p r) = wReg s (pReg p r) := by
  unfold sendPfc
  rw [(putFrame_sent ..).reg _ (by unfold notSent pReg; omega), wReg_wSet_ne _ _ _ _ (by unfold pReg; omega)]

theorem bufferFrame_reg (s : State) (p i len : Nat) {r : Nat} (h : r < 0x50) : wReg (bufferFrame s p i len) (pReg p r) = wReg s (pReg p r) := by
  unfold bufferFrame
  extract_lets k occ s1 s2
  split
  · exact portErr_reg _ _ _ _ (by omega) _
  · split
    · exact (wReg_setPort ..).trans ((sendPfc_reg s1 p i (Or.inl h) (by omega)).trans (wReg_setPort ..))
    · exact wReg_setPort ..

theorem acceptFrame_reg (s s2 : State) (p : Nat) (f : Frame) {r : Nat} (h : r < 0x50) : wReg (acceptFrame s s2 p f) (pReg p r) = wReg s2 (pReg p r) := by
  have herr (c : Nat) (hc : c < 12) : wReg (portErr s2 p c 0 1) (pReg p r) = wReg s2 (pReg p r) := portErr_reg _ _ _ _ (by omega) _
  unfold acceptFrame
  extract_lets st udp
  split
  · split
    · split
      · exact takeBringup_reg _ _ _ _ h
      · exact herr 3 (by decide)
    · exact herr 3 (by decide)
  · split
    · exact herr 1 (by decide)
    · split
      · exact bufferFrame_reg _ _ _ _ h
      · split
        · split
          · exact takeBringup_reg _ _ _ _ h
          · rfl
        · rfl

/-- What a good frame counts. -/
theorem receiveFrame_counts {s : State} {p : Nat} {f : Frame} (h : portState s p = poQuiet ∨ portState s p = poUp) (hcorr : f.corr = 0)
    (huncorr : f.uncorr = 0) (hc : judgeFrame s p f = none) :
    count64 (receiveFrame s p f) p 0x40 = (count64 s p 0x40 + 1) % 2 ^ 64 ∧
      count64 (receiveFrame s p f) p 0x48 = (count64 s p 0x48 + f.len) % 2 ^ 64 := by
  rw [receiveFrame_good h hcorr huncorr hc]
  have hacc (o : Nat) (ho : o + 4 < 0x50) (s2 : State) : count64 (acceptFrame s s2 p f) p o = count64 s2 p o := by
    rw [count64, count64, acceptFrame_reg s s2 p f (by omega), acceptFrame_reg s s2 p f ho]
  rw [hacc 0x40 (by decide), hacc 0x48 (by decide), portCount64_self]
  rw [count64_apart (portCount64 s p 0x40 1) p f.len (o := 0x48) (q := 0x40) (by decide), portCount64_self, count64_apart s p 1 (by decide)]
  exact ⟨rfl, rfl⟩

/-- A count after the frame's own counts is one from before them. -/
theorem portErr_after_counts (s : State) (p len : Nat) {c : Nat} (hc : c < 12) :
    winCounts s (portErr (portCount64 (portCount64 s p 0x40 1) p 0x48 len) p c 0 1) (pReg p (0x60 + 4 * c)) 31 0 1 := by
  have h := (portErr_counts (portCount64 (portCount64 s p 0x40 1) p 0x48 len) p hc 1).1
  rw [winCounts, portCount64_reg _ _ _ _ (by omega) (by omega), portCount64_reg _ _ _ _ (by omega) (by omega)] at h
  exact h

section
variable {s : State} {p : Nat} {f : Frame}

/-- A frame in QUIET that is no bring-up request is dropped. -/
theorem acceptFrame_quiet_other (s2 : State) (hq : portState s p = poQuiet)
    (hno : ∀ h, ¬ (f.ip = some h ∧ h.udp = some 48112#16 ∧ (h.dst = portIp s p ∨ h.dst = 0xFFFFFFFF#32 ∨ portIp s p = 0#32))) :
    acceptFrame s s2 p f = portErr s2 p 3 0 1 := by
  unfold acceptFrame
  extract_lets st udp
  rw [if_pos hq]
  split
  · next h hip =>
    refine if_neg fun ⟨hudp, hdst⟩ => hno h ⟨hip, ?_, hdst⟩
    simpa [udp, hip] using hudp
  · rfl

theorem acceptFrame_quiet_request (s2 : State) (hq : portState s p = poQuiet) {h : Ipv4} (hip : f.ip = some h) (hudp : h.udp = some 48112#16)
    (hdst : h.dst = portIp s p ∨ h.dst = 0xFFFFFFFF#32 ∨ portIp s p = 0#32) : acceptFrame s s2 p f = takeBringup s2 p h.src h.brup := by
  unfold acceptFrame
  extract_lets st udp
  rw [if_pos hq]
  simp only [hip]
  exact if_pos ⟨by simp [udp, hip, hudp], hdst⟩

theorem acceptFrame_pause (s2 : State) (hup : portState s p = poUp) (hty : f.etype = 0x8808#16) (hpause : f.pause = true) :
    acceptFrame s s2 p f = portErr s2 p 1 0 1 := by
  unfold acceptFrame
  extract_lets st udp
  rw [if_neg (by show ¬ portState s p = poQuiet; rw [hup]; decide), if_pos ⟨hty, hpause⟩]

theorem acceptFrame_roce (s2 : State) (hup : portState s p = poUp) (hty : f.etype = 0x0800#16) {h : Ipv4} (hip : f.ip = some h)
    (hudp : h.udp = some 4791#16) : acceptFrame s s2 p f = bufferFrame s2 p (framePrio s p f) f.len := by
  unfold acceptFrame
  extract_lets st udp
  rw [if_neg (by show ¬ portState s p = poQuiet; rw [hup]; decide), if_neg (by rw [hty]; simp), if_pos (by simp [udp, hip, hudp])]

end

theorem takeBringup_full {s : State} {p : Nat} {src : Word} (op : BitVec 8) (xid : Word)
    (h : (s.port p).brup.any (fun e => e.1 == src.toNat) = true ∨ 64 ≤ (s.port p).brup.length) :
    takeBringup s p src (some (op, xid)) = portErr s p 4 0 1 := if_pos h

theorem takeBringup_free {s : State} {p : Nat} {src : Word} (op : BitVec 8) (xid : Word)
    (h : ¬ ((s.port p).brup.any (fun e => e.1 == src.toNat) = true ∨ 64 ≤ (s.port p).brup.length)) :
    takeBringup s p src (some (op, xid)) =
      if rstHeld s ∨ (1 ≤ op.toNat ∧ op.toNat ≤ 4) then s.setPort p { s.port p with brup := (s.port p).brup ++ [(src.toNat, s.now)] }
      else brupReply (s.setPort p { s.port p with brup := (s.port p).brup ++ [(src.toNat, s.now)] }) p src xid 1 [] := if_neg h

theorem frameReceive_acts (p : PortId) (f : Frame) (s : State) :
    let st := portState s p.val
    let on := st = poQuiet ∨ st = poUp
    let clean := f.corr = 0 ∧ f.uncorr = 0
    let sized := 64 ≤ f.len ∧ f.len ≤ 9216 ∧ f.tags ≤ 1
    let ours := f.dst.toNat = portMac s p.val ∨ f.dst = 0xFFFFFFFFFFFF#48 ∨ f.dst = 0x01005E000181#48 ∨ f.dst = 0x0180C2000001#48
    let ctr (t : State) (c : Nat) : Prop := winCounts s t (pReg p.val (0x60 + 4 * c)) 31 0 1
    (¬ on → exec (.frameReceive p f) s = .next s) ∧
    (on → clean → f.fcsOk = false → leads (.frameReceive p f) s fun t => ctr t 0 ∧ count64 t p.val 0x40 = count64 s p.val 0x40) ∧
    (on → clean → f.fcsOk = true → ¬ sized → leads (.frameReceive p f) s fun t => ctr t 1 ∧ count64 t p.val 0x40 = count64 s p.val 0x40) ∧
    (on → clean → f.fcsOk = true → sized → ¬ ours → leads (.frameReceive p f) s fun t => ctr t 2 ∧ count64 t p.val 0x40 = count64 s p.val 0x40) ∧
    (on → judgeFrame s p.val f = none ∧ clean → leads (.frameReceive p f) s fun t => count64 t p.val 0x40 = (count64 s p.val 0x40 + 1) % 2 ^ 64 ∧
      count64 t p.val 0x48 = (count64 s p.val 0x48 + f.len) % 2 ^ 64) := by
  intro st on clean sized ours ctr
  have hdef : exec (.frameReceive p f) s = .next (receiveFrame s p.val f) := rfl
  have hjudged (c : Nat) (hc : c < 12) (hon : on) (hcl : clean) (hj : judgeFrame s p.val f = some c) :
      leads (.frameReceive p f) s fun t => ctr t c ∧ count64 t p.val 0x40 = count64 s p.val 0x40 := by
    obtain ⟨hcorr, huncorr⟩ := hcl
    rw [receiveFrame_judged hon hcorr huncorr hj] at hdef
    refine leads_of hdef ⟨(portErr_counts s p.val hc 1).1, ?_⟩
    rw [count64, portErr_reg _ _ _ _ (by omega), portErr_reg _ _ _ _ (by omega)]
    rfl
  refine ⟨fun h => by rw [hdef, receiveFrame_off f h], fun hon hcl hf => hjudged 0 (by decide) hon hcl (judgeFrame_fcs hf),
    fun hon hcl hf hz => hjudged 1 (by decide) hon hcl (judgeFrame_size hf hcl.2 hz),
    fun hon hcl hf hz hd => hjudged 2 (by decide) hon hcl (judgeFrame_dst hf hcl.2 hz hd),
    fun hon hgood => leads_of hdef (receiveFrame_counts hon hgood.2.1 hgood.2.2 hgood.1)⟩

theorem frameQuiet_acts (p : PortId) (f : Frame) (s : State) (hq : portState s p.val = poQuiet) (hgood : judgeFrame s p.val f = none)
    (hclean : f.corr = 0 ∧ f.uncorr = 0) :
    let ctr (t : State) (c : Nat) : Prop := winCounts s t (pReg p.val (0x60 + 4 * c)) 31 0 1
    let sentHere (h : Ipv4) : Prop := f.ip = some h ∧ h.udp = some 48112#16 ∧ (h.dst = portIp s p.val ∨ h.dst = 0xFFFFFFFF#32 ∨ portIp s p.val = 0#32)
    let full (h : Ipv4) : Prop := (∃ e ∈ (s.port p.val).brup, e.1 = h.src.toNat) ∨ 64 ≤ (s.port p.val).brup.length
    ((∀ h, ¬ sentHere h) → leads (.frameReceive p f) s fun t => ctr t 3 ∧ (t.port p.val).brup = (s.port p.val).brup) ∧
    (∀ h op xid, sentHere h → h.brup = some (op, xid) →
      (full h → leads (.frameReceive p f) s fun t => ctr t 4 ∧ (t.port p.val).brup = (s.port p.val).brup) ∧
      (¬ full h → 1 ≤ op.toNat → op.toNat ≤ 4 → leads (.frameReceive p f) s fun t =>
        (t.port p.val).brup = (s.port p.val).brup ++ [(h.src.toNat, s.now)] ∧ t.reply = s.reply) ∧
      (¬ full h → op.toNat = 0 ∨ 4 < op.toNat → rstHeld s = false → leads (.frameReceive p f) s fun t => t.reply = some ⟨1, [xid]⟩)) := by
  intro ctr sentHere full
  have hdef : exec (.frameReceive p f) s = .next (receiveFrame s p.val f) := rfl
  rw [receiveFrame_good (Or.inl hq) hclean.1 hclean.2 hgood] at hdef
  refine ⟨fun hno => ?_, fun h op xid ⟨hip, hudp, hdst⟩ hb => ?_⟩
  · rw [acceptFrame_quiet_other _ hq hno] at hdef
    exact leads_of hdef ⟨portErr_after_counts s p.val f.len (by decide), (portErr_brup ..).trans rfl⟩
  · rw [acceptFrame_quiet_request _ hq hip hudp hdst, hb] at hdef
    have hcount := portErr_after_counts s p.val f.len (c := 4) (by decide)
    have hwin : onlyWin s (portCount64 (portCount64 s p.val 0x40 1) p.val 0x48 f.len) := (portCount64_win ..).trans (portCount64_win ..)
    generalize portCount64 (portCount64 s p.val 0x40 1) p.val 0x48 f.len = s2 at hdef hcount hwin
    have hport : s2.port p.val = s.port p.val := congrArg (fun m => mgetD m p.val Port.reset) hwin.ports
    have hfull : ((s2.port p.val).brup.any (fun e => e.1 == h.src.toNat) = true ∨ 64 ≤ (s2.port p.val).brup.length) ↔ full h := by
      rw [hport]
      simp [full]
    refine ⟨fun hf => ?_, fun hf h1 h4 => ?_, fun hf hop hrst => ?_⟩
    · rw [takeBringup_full _ _ (hfull.mpr hf)] at hdef
      exact leads_of hdef ⟨hcount, (portErr_brup ..).trans (congrArg Port.brup hport)⟩
    · rw [takeBringup_free _ _ (mt hfull.mp hf), if_pos (Or.inr ⟨h1, h4⟩)] at hdef
      refine leads_of hdef ⟨?_, hwin.reply⟩
      rw [port_setPort_self, hport, hwin.now]
    · have hno : ¬ (rstHeld s2 = true ∨ 1 ≤ op.toNat ∧ op.toNat ≤ 4) := by
        rintro (h | h)
        · rw [rstHeld, sbdState, hwin.mod] at h
          cases hrst.symm.trans h
        · omega
      rw [takeBringup_free _ _ (mt hfull.mp hf), if_neg hno] at hdef
      exact leads_of hdef rfl

theorem framePrio_lt (s : State) (p : Nat) (f : Frame) : framePrio s p f < 8 := by
  unfold framePrio
  split
  · exact f.pcp.isLt
  · exact fld_lt _ 6 4

/-- A RoCEv2 frame in the receive buffer of its priority (R472). -/
theorem bufferFrame_acts (s : State) (p len : Nat) {i : Nat} (hi : i < 8) :
    let occ := mgetD (s.port p).occ i 0
    let t := bufferFrame s p i len
    (pfcOn s p i = false → 262144 < occ + len → t = portErr s p 5 0 1) ∧
    (pfcOn s p i = true ∨ occ + len ≤ 262144 → mgetD (t.port p).occ i 0 = occ + len) ∧
    (pfcOn s p i = true → 196608 ≤ occ + len → mget? (s.port p).pfcNext i = none →
      wReg t (pReg p (0x104 + 8 * i)) = wReg s (pReg p (0x104 + 8 * i)) + 1#32 ∧ mget? (t.port p).pfcNext i = some (s.now + 64000)) := by
  intro occ t
  have hdef : t = bufferFrame s p i len := rfl
  unfold bufferFrame at hdef
  extract_lets k occ2 s1 s2 at hdef
  obtain ⟨hreg, _, hports⟩ := sendPfc_acts s1 p hi
  have hocc1 : mgetD (s1.port p).occ i 0 = occ + len := by
    rw [port_setPort_self]
    exact mgetD_mset_self ..
  have hocc2 : mgetD (s2.port p).occ i 0 = occ + len := by
    rw [State.port, hports]
    exact hocc1
  refine ⟨fun hoff hlen => ?_, fun hfits => ?_, fun hon hlen hnone => ?_⟩
  · exact hdef.trans (if_pos ⟨by simp [hoff], hlen⟩)
  · have hno : ¬ ((!pfcOn s p i) = true ∧ 262144 < occ2 + len) := by
      rintro ⟨h1, h2⟩
      rcases hfits with h | h
      · simp [h] at h1
      · exact absurd h2 (Nat.not_lt.mpr h)
    rw [if_neg hno] at hdef
    rw [hdef]
    split
    · rw [port_setPort_self]
      exact hocc2
    · exact hocc1
  · have hnone' : (mget? k.pfcNext i).isNone = true := by rw [show mget? k.pfcNext i = none from hnone]; rfl
    rw [if_neg (by simp [hon]), if_pos ⟨hon, hlen, hnone'⟩] at hdef
    rw [hdef, port_setPort_self]
    exact ⟨(wReg_setPort ..).trans (hreg.trans (by rw [wReg_setPort])), mget_mset_self ..⟩

theorem frameUp_acts (p : PortId) (f : Frame) (s : State) (hup : portState s p.val = poUp) (hgood : judgeFrame s p.val f = none)
    (hclean : f.corr = 0 ∧ f.uncorr = 0) :
    let ctr (t : State) (c : Nat) : Prop := winCounts s t (pReg p.val (0x60 + 4 * c)) 31 0 1
    (f.etype = 0x8808#16 → f.pause = true → leads (.frameReceive p f) s fun t => ctr t 1) ∧
    (∀ h, f.etype = 0x0800#16 → f.ip = some h → h.udp = some 4791#16 → leads (.frameReceive p f) s fun t =>
      let i := framePrio s p.val f
      let occ := mgetD (s.port p.val).occ i 0
      (pfcOn s p.val i = false → 262144 < occ + f.len → ctr t 5 ∧ mgetD (t.port p.val).occ i 0 = occ) ∧
      (pfcOn s p.val i = true ∨ occ + f.len ≤ 262144 → mgetD (t.port p.val).occ i 0 = occ + f.len) ∧
      (pfcOn s p.val i = true → 196608 ≤ occ + f.len → mget? (s.port p.val).pfcNext i = none →
        wReg t (pReg p.val (0x104 + 8 * i)) = wReg s (pReg p.val (0x104 + 8 * i)) + 1#32 ∧ mget? (t.port p.val).pfcNext i = some (s.now + 64000))) := by
  intro ctr
  have hdef : exec (.frameReceive p f) s = .next (receiveFrame s p.val f) := rfl
  rw [receiveFrame_good (Or.inr hup) hclean.1 hclean.2 hgood] at hdef
  refine ⟨fun hty hpause => ?_, fun h hty hip hudp => ?_⟩
  · rw [acceptFrame_pause _ hup hty hpause] at hdef
    exact leads_of hdef (portErr_after_counts s p.val f.len (by decide))
  · rw [acceptFrame_roce _ hup hty hip hudp] at hdef
    refine leads_of hdef ?_
    have hi := framePrio_lt s p.val f
    generalize framePrio s p.val f = i at hi
    obtain ⟨hdrop, htake, hpfc⟩ := bufferFrame_acts (portCount64 (portCount64 s p.val 0x40 1) p.val 0x48 f.len) p.val f.len hi
    have hon : pfcOn (portCount64 (portCount64 s p.val 0x40 1) p.val 0x48 f.len) p.val i = pfcOn s p.val i := by
      rw [pfcOn, portCount64_reg _ _ _ _ (by decide) (by decide), portCount64_reg _ _ _ _ (by decide) (by decide)]
      rfl
    have hsent : wReg (portCount64 (portCount64 s p.val 0x40 1) p.val 0x48 f.len) (pReg p.val (0x104 + 8 * i)) = wReg s (pReg p.val (0x104 + 8 * i)) := by
      rw [portCount64_reg _ _ _ _ (by omega) (by omega), portCount64_reg _ _ _ _ (by omega) (by omega)]
    rw [hon] at hdrop htake hpfc
    rw [hsent] at hpfc
    refine ⟨fun hoff hlen => ?_, htake, hpfc⟩
    rw [hdrop hoff hlen]
    refine ⟨portErr_after_counts s p.val f.len (by decide), ?_⟩
    rw [(portErr_counts (portCount64 (portCount64 s p.val 0x40 1) p.val 0x48 f.len) p.val (c := 5) (by decide) 1).2]
    rfl

/-! ### The states of a port (R456 to R460) -/

theorem sendReady_sent (s : State) (p : Nat) : FramesSent s (sendReady s p) := by
  unfold sendReady
  extract_lets s1
  split
  · exact sendFrame_sent ..
  · exact (sendFrame_sent ..).trans (sendFrame_sent ..)

theorem portState_setPort (s : State) (p : Nat) (k : Port) (q : Nat) : portState (s.setPort p k) q = portState s q := rfl

theorem setPortState_ports (s : State) (p v : Nat) : (setPortState s p v).ports = s.ports := by
  unfold setPortState
  dsimp only
  split <;> rfl

theorem wReg_setPortState_ne (s : State) (p v : Nat) {o : Nat} (h : o ≠ pReg p 4) : wReg (setPortState s p v) o = wReg s o := by
  have e : wReg (setPortState s p v) o = wReg (wFld s (pReg p 4) 2 0 v) o := by
    unfold setPortState
    dsimp only
    split <;> rfl
  rw [e, wReg_wFld_ne _ _ _ _ _ _ h]

theorem setPortState_self (s : State) (p v : Nat) : portState (setPortState s p v) p = v % 8 := (portState_setPortState ..).trans (if_pos rfl)

/-- A port's first announcement brings it into UP with its repeats due. -/
theorem readyPort_acts (s : State) (p : Nat) :
    portState (readyPort s p) p = poUp ∧ ((readyPort s p).port p).repeats = [s.now + 160000000, s.now + 1600000000] ∧
      ((readyPort s p).port p).mode = (s.port p).mode := by
  unfold readyPort
  extract_lets s1 k
  have hsent := sendReady_sent s p
  have hk : k = (sendReady s p).port p := congrArg (fun m => mgetD m p Port.reset) (setPortState_ports ..)
  have hnow : s1.now = s.now := (setPortState_port ..).now.trans hsent.now
  refine ⟨(portState_setPort ..).trans (setPortState_self ..), ?_, ?_⟩
  · rw [port_setPort_self, hnow]
    rfl
  · rw [port_setPort_self]
    exact (congrArg Port.mode hk).trans (by simpa using congrArg Port.mode (show { (sendReady s p).port p with txq := (s.port p).txq } = s.port p from hsent.port p))

theorem linkLock_acts (p : PortId) (s : State) :
    (portState s p.val ≠ poTraining → exec (.linkLock p) s = .next s) ∧
    (portState s p.val = poTraining → leads (.linkLock p) s fun t => portState t p.val = (if s.hw.ready then poUp else poQuiet) ∧
      (t.port p.val).mode = fld (wReg s (pReg p.val 0)) 2 0 ∧
      (s.hw.ready = true → (s.port p.val).annOwed = true → (t.port p.val).repeats = [s.now + 160000000, s.now + 1600000000])) := by
  have hdef : exec (.linkLock p) s = execLinkLock p s := rfl
  refine ⟨fun h => by rw [hdef, execLinkLock, if_pos h], fun h => ?_⟩
  unfold execLinkLock at hdef
  extract_lets k m e s1 at hdef
  rw [if_neg (not_not.mpr h)] at hdef
  have hmode (v : Nat) : ((setPortState s1 p.val v).port p.val).mode = m := by
    rw [State.port, setPortState_ports]
    exact congrArg Port.mode (port_setPort_self ..)
  cases hready : s.hw.ready with
  | false =>
    rw [if_pos (by simp [hready])] at hdef
    exact leads_of hdef ⟨setPortState_self .., hmode _, fun h => by cases h⟩
  | true =>
    rw [if_neg (by simp [hready])] at hdef
    cases howed : (s.port p.val).annOwed with
    | false =>
      rw [if_neg (by show ¬ (s.port p.val).annOwed = true; simp [howed])] at hdef
      exact leads_of hdef ⟨setPortState_self .., hmode _, fun _ h => by cases h⟩
    | true =>
      rw [if_pos howed] at hdef
      obtain ⟨hstate, hrep, hm⟩ := readyPort_acts (setPortState s1 p.val poUp) p.val
      rw [(setPortState_port ..).now] at hrep
      exact leads_of hdef ⟨hstate, hm.trans (hmode _), fun _ _ => hrep⟩

theorem portErr_drops (s : State) (p n : Nat) : winCounts s (portErr s p 15 1 n) (pReg p 0x9C) 31 24 n := by
  have hreg (o : Nat) : wReg (portErr s p 15 1 n) o = wReg (wCount s (pReg p (0x60 + 4 * 15)) 31 24 n) o := by
    unfold portErr
    simp only [if_true, Nat.mul_one]
    rfl
  rw [winCounts, hreg]
  exact winCounts_wCount s (pReg p (0x60 + 4 * 15)) 24 n (by decide)

theorem wReg_portErr_ne (s : State) (p c half n : Nat) {o : Nat} (h : o ≠ pReg p (0x60 + 4 * c)) : wReg (portErr s p c half n) o = wReg s o := by
  unfold portErr
  dsimp only
  rw [wReg_setPort, wReg_wCount_ne _ _ _ _ _ _ h]

/-- A port that goes down trains; the count of drops follows where it was in use. -/
theorem portDown_acts (s : State) (p : Nat) (h : portState s p ≠ poFenced) :
    portState (portDown s p) p = poTraining ∧
      (portState s p = poQuiet ∨ portState s p = poUp → winCounts s (portDown s p) (pReg p 0x9C) 31 24 1) ∧
      (¬ (portState s p = poQuiet ∨ portState s p = poUp) → wReg (portDown s p) (pReg p 0x9C) = wReg s (pReg p 0x9C)) := by
  have hst (a : State) : portState (wCount a (pReg p 4) 31 16 1) p = portState a p := fld_wCount_apart _ _ _ _ _ (Or.inl (by decide)) _
  have hreg (a : State) : wReg (wCount (setPortState a p poTraining) (pReg p 4) 31 16 1) (pReg p 0x9C) = wReg a (pReg p 0x9C) := by
    rw [wReg_wCount_ne _ _ _ _ _ _ (by unfold pReg; omega)]
    exact wReg_setPortState_ne _ _ _ (by unfold pReg; omega)
  unfold portDown
  extract_lets st s1
  rw [if_neg h]
  split
  · next hin =>
    refine ⟨?_, fun _ => ?_, fun h => (h hin).elim⟩
    · exact (congrArg (fld · 2 0) (portErr_reg s1 p 15 1 (by decide) 1)).trans ((hst _).trans (setPortState_self ..))
    · have h15 := portErr_drops s1 p 1
      rw [winCounts, show wReg s1 (pReg p 0x9C) = wReg s (pReg p 0x9C) from hreg s] at h15
      exact h15
  · next hout => exact ⟨(hst _).trans (setPortState_self ..), fun h => (hout h).elim, fun _ => hreg s⟩

theorem wReg_portDown_patina {p : Nat} (hp : p < 8) (s : State) : wReg (portDown s p) (0x200300 + 4 * p) = wReg s (0x200300 + 4 * p) := by
  unfold portDown
  extract_lets st s1
  have h1 : wReg s1 (0x200300 + 4 * p) = wReg s (0x200300 + 4 * p) := by
    unfold s1
    rw [wReg_wCount_ne _ _ _ _ _ _ (by unfold pReg; omega), wReg_setPortState_ne _ _ _ (by unfold pReg; omega)]
  split
  · rfl
  · split
    · exact (wReg_portErr_ne s1 p 15 1 1 (by unfold pReg; omega)).trans h1
    · exact h1

/-- Patina that does not reach the fence leaves a training port as it is. -/
theorem addPatina_training {p : Nat} (hp : p < 8) {a : State} {n : Nat} (hst : portState a p = poTraining)
    (hsmall : fld (wReg a (0x200300 + 4 * p)) 15 0 + n < 32000) :
    ∃ x y, addPatina a (portUnit p) n = wFld (wFld a (0x200300 + 4 * p) 15 0 x) (0x200300 + 4 * p) 17 16 y := by
  obtain ⟨hkind, _, hid⟩ := portUnit_facts hp
  have hlev : levelOf (satTo 65535 (fld (wReg a (0x200300 + 4 * p)) 15 0 + n)) ≠ 3 := by
    rw [satTo_eq_min]
    unfold levelOf
    split_ifs <;> omega
  have hstay (b : State) (hb : portState b p = poTraining) (lv : Nat) (h3 : lv ≠ 3) : onLevel b (portUnit p) lv = b := by
    unfold onLevel
    rw [if_neg h3]
    split
    · extract_lets m
      have hm : m = p := hid
      rw [hm, if_neg (by rw [hkind]; decide), if_neg (by rw [hb]; simp), if_neg (by rw [hkind]; simp [uHeart])]
    · rfl
  have hkept (x y : Nat) : portState (wFld (wFld a (0x200300 + 4 * p) 15 0 x) (0x200300 + 4 * p) 17 16 y) p = poTraining := by
    rw [portState, wReg_wFld_ne _ _ _ _ _ _ (by unfold pReg; omega), wReg_wFld_ne _ _ _ _ _ _ (by unfold pReg; omega)]
    exact hst
  refine ⟨satTo 65535 (fld (wReg a (0x200300 + 4 * p)) 15 0 + n), levelOf (satTo 65535 (fld (wReg a (0x200300 + 4 * p)) 15 0 + n)), ?_⟩
  unfold addPatina
  rw [patReg_port hp]
  dsimp only
  rw [hstay _ (hkept _ _) _ hlev, ite_self]

theorem portTrain_acts {p : Nat} (hp : p < 8) (s : State) (hlit : portState s p = poQuiet ∨ portState s p = poUp)
    (hsmall : fld (wReg s (0x200300 + 4 * p)) 15 0 + 50 < 32000) :
    portState (portTrain s p) p = poTraining ∧ winCounts s (portTrain s p) (pReg p 0x9C) 31 24 1 := by
  have hne : portState s p ≠ poFenced := by
    rcases hlit with h | h <;> rw [h] <;> decide
  obtain ⟨hst, hcount, _⟩ := portDown_acts s p hne
  obtain ⟨x, y, hadd⟩ := addPatina_training hp (n := 50) hst (by rw [wReg_portDown_patina hp]; exact hsmall)
  have hreg (r : Nat) (hr : r < 0x400) : wReg (portTrain s p) (pReg p r) = wReg (portDown s p) (pReg p r) := by
    unfold portTrain
    dsimp only
    rw [if_pos hlit, hadd, wReg_wFld_ne _ _ _ _ _ _ (by unfold pReg; omega), wReg_wFld_ne _ _ _ _ _ _ (by unfold pReg; omega)]
  exact ⟨(congrArg (fld · 2 0) (hreg 4 (by decide))).trans hst, winCounts_of_reg (hcount hlit) (congrArg (fld · 31 24) (hreg 0x9C (by decide)))⟩

theorem portTrain_fenced {s : State} {p : Nat} (h : portState s p = poFenced) : portTrain s p = s := by
  unfold portTrain portDown
  dsimp only
  rw [if_pos h, if_neg (by rw [h]; decide)]

theorem portTrain_dark {s : State} {p : Nat} (h : portState s p = poDown ∨ portState s p = poTraining) :
    portTrain s p = portDown s p ∧ portState (portDown s p) p = poTraining ∧ wReg (portDown s p) (pReg p 0x9C) = wReg s (pReg p 0x9C) := by
  have hout : ¬ (portState s p = poQuiet ∨ portState s p = poUp) := by
    rcases h with h | h <;> rw [h] <;> decide
  obtain ⟨hst, _, hreg⟩ := portDown_acts s p (by rcases h with h | h <;> rw [h] <;> decide)
  exact ⟨if_neg hout, hst, hreg hout⟩

theorem portDown_fenced (s : State) (p : Nat) : (portDown s p).hw.fenced = s.hw.fenced := by
  have hset (a : State) : (setPortState a p poTraining).hw.fenced = a.hw.fenced := by
    unfold setPortState
    dsimp only
    split <;> rfl
  unfold portDown
  extract_lets st s1
  split
  · rfl
  · split
    · exact hset s
    · exact hset s

theorem portTraining_acts (p : PortId) (s : State) :
    let st := portState s p.val
    let lit := st = poQuiet ∨ st = poUp
    let trains (t : State) : Prop := portState t p.val = poTraining ∧ winCounts s t (pReg p.val 0x9C) 31 24 1
    (st = poFenced → (∀ b, exec (.linkLoss p b) s = .next s) ∧ exec (.retrain p) s = .next s) ∧
    (lit → fld (wReg s (0x200300 + 4 * p.val)) 15 0 + 50 < 32000 → leads (.retrain p) s trains ∧ ∀ b, leads (.linkLoss p b) s trains) ∧
    (st = poDown ∨ st = poTraining → leads (.retrain p) s fun t => portState t p.val = poTraining ∧
      wReg t (pReg p.val 0x9C) = wReg s (pReg p.val 0x9C)) := by
  intro st lit trains
  have hre : exec (.retrain p) s = .next (portTrain s p.val) := rfl
  have hloss (b : Bool) : exec (.linkLoss p b) s = execLinkLoss p b s := rfl
  refine ⟨fun h => ⟨fun b => ?_, by rw [hre, portTrain_fenced h]⟩, fun hlit hsmall => ⟨leads_of hre (portTrain_acts p.isLt s hlit hsmall), fun b => ?_⟩,
    fun h => ?_⟩
  · rw [hloss, execLinkLoss]
    exact if_pos h
  · have hne : ¬ portState s p.val = poFenced := by
      rcases hlit with h | h <;> rw [show portState s p.val = _ from h] <;> decide
    have hdef := hloss b
    rw [execLinkLoss, if_neg hne] at hdef
    refine leads_of hdef ?_
    split
    · have hreg (r : Nat) (hr : r ≠ 0x60) : wReg (portErr s p.val 0 0 1) (pReg p.val r) = wReg s (pReg p.val r) := portErr_reg _ _ _ _ hr _
      have hpat : wReg (portErr s p.val 0 0 1) (0x200300 + 4 * p.val) = wReg s (0x200300 + 4 * p.val) :=
        wReg_portErr_ne _ _ _ _ _ (by unfold pReg; omega)
      have hst : portState (portErr s p.val 0 0 1) p.val = portState s p.val := congrArg (fld · 2 0) (hreg 4 (by decide))
      obtain ⟨htr, hcount⟩ := portTrain_acts p.isLt (portErr s p.val 0 0 1) (by rw [hst]; exact hlit) (by rw [hpat]; exact hsmall)
      rw [winCounts, hreg 0x9C (by decide)] at hcount
      exact ⟨htr, hcount⟩
    · exact portTrain_acts p.isLt s hlit hsmall
  · obtain ⟨hdark, htr, hreg⟩ := portTrain_dark h
    exact leads_of hre (by rw [hdark]; exact ⟨htr, hreg⟩)

theorem portFence_acts (p : PortId) (s : State) :
    leads (.portFence p) s fun t => portState t p.val = poFenced ∧ (t.port p.val).brup = [] ∧ (t.port p.val).txq = [] ∧
      (t.port p.val).pauses = [] ∧ t.net = s.net ∧ ∀ q, q ≠ p.val → t.port q = s.port q := by
  have hdef : exec (.portFence p) s = .next (portFence s p.val) := rfl
  have hacted := portFence_port s p.val
  have hport : (portFence s p.val).port p.val = { s.port p.val with brup := [], txq := [], pauses := [], heldBy := [], ignored := [], pfcNext := [] } := by
    unfold portFence
    exact port_setPort_self ..
  have hnet : (portFence s p.val).net = s.net := by simpa using congrArg State.net hacted.rest
  exact leads_of hdef ⟨(portState_portFence ..).trans (if_pos rfl), by rw [hport], by rw [hport], by rw [hport], hnet, hacted.other⟩

theorem unfence_acts (p : PortId) (s : State) :
    let st := portState s p.val
    (st ≠ poFenced ∨ s.mod.mated = false ∨ sbdLeaves s = true → exec (.unfence p) s = .next s) ∧
    (st = poFenced → s.mod.mated = true → sbdLeaves s = false → leads (.unfence p) s fun t => portState t p.val = poTraining ∧
      t.hw.fenced = s.hw.fenced.erase (portUnit p.val) ∧ bit (wReg t (0x200300 + 4 * p.val)) 18 = false) := by
  intro st
  have hdef : exec (.unfence p) s = .next (portUnfence s p.val) := rfl
  refine ⟨fun h => ?_, fun hst hmate hleave => ?_⟩
  · rw [hdef, portUnfence, if_neg]
    rintro ⟨h1, h2, h3⟩
    rcases h with h | h | h
    · exact h h1
    · cases h.symm.trans h2
    · exact h3 h
  · rw [portUnfence, if_pos ⟨hst, hmate, by rw [hleave]; decide⟩] at hdef
    extract_lets _ s1 at hdef
    have hdown : portState (wFld s1 (pReg p.val 4) 2 0 poDown) p.val = poDown := fld_wFld_self s1 (pReg p.val 4) 0 poDown (by decide)
    obtain ⟨hdark, htr, _⟩ := portTrain_dark (Or.inl hdown)
    rw [hdark] at hdef
    refine leads_of hdef ⟨?_, ?_, (bit_wFld_self _ _ 0 (by decide)).trans rfl⟩
    · rw [portState, wReg_wFld_ne _ _ _ _ _ _ (by unfold pReg; omega)]
      exact htr
    · exact (portDown_fenced _ p.val).trans rfl

/-! ### The announcement of READY (R466, R467) -/

/-- What becomes of one port when the announcement leaves. -/
def readyOne (a : State) (p : Nat) : State :=
  let st := portState a p
  if st = poQuiet ∨ st = poUp then readyPort a p
  else if st = poFenced then a
  else a.setPort p { a.port p with annOwed := true }

/-- A state but for its window, its ports and its events. -/
def State.sameButPorts (s t : State) : Prop := { t with win := s.win, ports := s.ports, hw := { t.hw with events := s.hw.events } } = s

theorem State.sameButPorts.trans {s t u : State} (h : s.sameButPorts t) (h2 : t.sameButPorts u) : s.sameButPorts u := by
  have e := congrArg (fun x : State => { x with win := s.win, ports := s.ports, hw := { x.hw with events := s.hw.events } })
    (show { u with win := t.win, ports := t.ports, hw := { u.hw with events := t.hw.events } } = t from h2)
  exact e.trans h

theorem FramesSent.sameButPorts {s t : State} (h : FramesSent s t) : s.sameButPorts t := by
  have e := congrArg (fun x : State => { x with hw := { x.hw with events := s.hw.events } }) h.rest
  exact e

theorem FramesSent.portState {s t : State} (h : FramesSent s t) (q : Nat) : portState t q = portState s q :=
  congrArg (fld · 2 0) (h.reg _ (by unfold notSent pReg; omega))

theorem FramesSent.annOwed {s t : State} (h : FramesSent s t) (q : Nat) : (t.port q).annOwed = (s.port q).annOwed := by
  simpa using congrArg Port.annOwed (show { t.port q with txq := (s.port q).txq } = s.port q from h.port q)

theorem setPortState_sameButPorts (s : State) (p v : Nat) : s.sameButPorts (setPortState s p v) := by
  unfold setPortState
  dsimp only
  split <;> rfl

theorem readyPort_sameButPorts (s : State) (p : Nat) : s.sameButPorts (readyPort s p) := by
  unfold readyPort
  extract_lets s1 k
  exact ((sendReady_sent s p).sameButPorts.trans (setPortState_sameButPorts ..)).trans rfl

theorem readyOne_sameButPorts (s : State) (p : Nat) : s.sameButPorts (readyOne s p) := by
  unfold readyOne
  dsimp only
  split_ifs
  · exact readyPort_sameButPorts s p
  · rfl
  · rfl

/-- The port q as the announcement finds it. -/
def samePort (q : Nat) (s t : State) : Prop := portState t q = portState s q ∧ (t.port q).annOwed = (s.port q).annOwed

theorem readyPort_other {p q : Nat} (h : q ≠ p) (s : State) : samePort q s (readyPort s p) := by
  unfold readyPort
  extract_lets s1 k
  have hsent := sendReady_sent s p
  refine ⟨?_, ?_⟩
  · rw [portState_setPort, portState_setPortState, if_neg h, hsent.portState]
  · rw [port_setPort_ne _ _ _ _ h, (setPortState_port ..).other q h, hsent.annOwed]

theorem readyOne_other {p q : Nat} (h : q ≠ p) (s : State) : samePort q s (readyOne s p) := by
  unfold readyOne
  dsimp only
  split_ifs
  · exact readyPort_other h s
  · exact ⟨rfl, rfl⟩
  · exact ⟨rfl, congrArg Port.annOwed (port_setPort_ne _ _ _ _ h)⟩

/-- What the announcement makes of port q: UP from QUIET, or owed where it carries nothing yet. -/
def announced (q : Nat) (s t : State) : Prop :=
  (portState s q = poQuiet ∨ portState s q = poUp → portState t q = poUp) ∧
    (¬ (portState s q = poQuiet ∨ portState s q = poUp) → portState t q = portState s q ∧ (portState s q ≠ poFenced → (t.port q).annOwed = true))

theorem readyOne_announced (p : Nat) (s : State) : announced p s (readyOne s p) := by
  unfold announced readyOne
  dsimp only
  split_ifs with hlit hfen
  · exact ⟨fun _ => (readyPort_acts s p).1, fun h => (h hlit).elim⟩
  · exact ⟨fun h => (hlit h).elim, fun _ => ⟨rfl, fun h => (h hfen).elim⟩⟩
  · exact ⟨fun h => (hlit h).elim, fun _ => ⟨rfl, fun _ => congrArg Port.annOwed (port_setPort_self ..)⟩⟩

theorem announced.then_samePort {q : Nat} {s t u : State} (h : announced q s t) (h2 : samePort q t u) : announced q s u := by
  obtain ⟨hstate, howed⟩ := h2
  refine ⟨fun hl => hstate.trans (h.1 hl), fun hl => ?_⟩
  obtain ⟨hst, how⟩ := h.2 hl
  exact ⟨hstate.trans hst, fun hf => howed.trans (how hf)⟩

theorem samePort.then_announced {q : Nat} {s t u : State} (h : samePort q s t) (h2 : announced q t u) : announced q s u := by
  unfold announced at h2
  rw [h.1] at h2
  exact h2

theorem foldl_readyOne_other {q : Nat} {l : List Nat} (h : q ∉ l) (s : State) : samePort q s (l.foldl readyOne s) := by
  induction l generalizing s with
  | nil => exact ⟨rfl, rfl⟩
  | cons p l ih =>
    obtain ⟨hne, hl⟩ := (by simpa using h : q ≠ p ∧ q ∉ l)
    obtain ⟨hst, how⟩ := ih hl (readyOne s p)
    obtain ⟨hst1, how1⟩ := readyOne_other hne s
    exact ⟨hst.trans hst1, how.trans how1⟩

theorem foldl_readyOne_announced {q : Nat} {l : List Nat} (hd : l.Nodup) (h : q ∈ l) (s : State) : announced q s (l.foldl readyOne s) := by
  induction l generalizing s with
  | nil => simp at h
  | cons p l ih =>
    obtain ⟨hp, hl⟩ := List.nodup_cons.mp hd
    by_cases hq : q = p
    · subst hq
      exact (readyOne_announced q s).then_samePort (foldl_readyOne_other hp _)
    · exact (readyOne_other hq s).then_announced (ih hl (List.mem_of_ne_of_mem hq h) _)

theorem foldl_readyOne_sameButPorts (l : List Nat) (s : State) : s.sameButPorts (l.foldl readyOne s) := by
  induction l generalizing s with
  | nil => rfl
  | cons p l ih => exact (readyOne_sameButPorts s p).trans (ih _)

/-- The state in which the announcement leaves. -/
def readyBegun (s : State) : State := { s with hw := { s.hw with annSeq := s.hw.annSeq + 1, ready := true } }

/-- What follows the announcement: its bit and the sideband state. -/
def readyEnded (a : State) : State :=
  let s2 := wFld a 0x0 4 4 1
  if sbdState s2 = 0 ∨ (sbdState s2 = 4 ∧ ¬ s2.hw.fault) then setSbdState s2 1 else s2

theorem announceReady_eq (s : State) : announceReady s = readyEnded ((List.range 8).foldl readyOne (readyBegun s)) := rfl

theorem readyEnded_same (a : State) : readyEnded a = { wFld a 0x0 4 4 1 with mod := (readyEnded a).mod } := by
  unfold readyEnded
  dsimp only
  split <;> rfl

theorem readyEnded_acts (a : State) (q : Nat) :
    (readyEnded a).now = a.now ∧ (readyEnded a).hw = a.hw ∧ bit (wReg (readyEnded a) 0x0) 4 = true ∧ samePort q a (readyEnded a) := by
  have hbit : bit (wReg (wFld a 0x0 4 4 1) 0x0) 4 = true := (bit_wFld_self a 0 1 (by decide)).trans rfl
  have hstate : portState (wFld a 0x0 4 4 1) q = portState a q := by
    rw [portState, wReg_wFld_ne _ _ _ _ _ _ (by unfold pReg; omega), portState]
  rw [readyEnded_same a]
  generalize (readyEnded a).mod = m
  exact ⟨rfl, rfl, hbit, hstate, rfl⟩

/-- The announcement of READY on every port, its bit and the sideband state. -/
theorem announceReady_acts (s : State) {q : Nat} (hq : q < 8) :
    (announceReady s).now = s.now ∧ (announceReady s).hw.ready = true ∧ (announceReady s).hw.annSeq = s.hw.annSeq + 1 ∧
      bit (wReg (announceReady s) 0x0) 4 = true ∧ announced q s (announceReady s) := by
  have hsame := foldl_readyOne_sameButPorts (List.range 8) (readyBegun s)
  have hann : announced q s ((List.range 8).foldl readyOne (readyBegun s)) :=
    samePort.then_announced ⟨rfl, rfl⟩ (foldl_readyOne_announced List.nodup_range (List.mem_range.mpr hq) (readyBegun s))
  rw [announceReady_eq]
  generalize (List.range 8).foldl readyOne (readyBegun s) = a at hsame hann
  have hnow : a.now = s.now := by simpa [readyBegun] using congrArg State.now hsame
  have hready : a.hw.ready = true := by simpa [readyBegun] using congrArg (fun x : State => x.hw.ready) hsame
  have hseq : a.hw.annSeq = s.hw.annSeq + 1 := by simpa [readyBegun] using congrArg (fun x : State => x.hw.annSeq) hsame
  obtain ⟨enow, ehw, ebit, esame⟩ := readyEnded_acts a q
  rw [enow, ehw]
  exact ⟨hnow, hready, hseq, ebit, hann.then_samePort esame⟩

theorem readyAnnouncement_acts (p : PortId) (s : State) :
    (s.hw.ready = true ∨ bit (wReg s 0x8) 13 = false → exec .readyAnnouncement s = .next s) ∧
    (s.hw.ready = false → bit (wReg s 0x8) 13 = true → leads .readyAnnouncement s fun t =>
      t.now = max s.now (s.mod.enAt + 1600000000) ∧ t.hw.ready = true ∧ t.hw.annSeq = s.hw.annSeq + 1 ∧ bit (wReg t 0x0) 4 = true ∧
      announced p.val s t) := by
  have hdef : exec .readyAnnouncement s = execReadyAnnouncement s := rfl
  refine ⟨fun h => ?_, fun hr hb => ?_⟩
  · rw [hdef, execReadyAnnouncement, if_pos (by simpa using h)]
  · rw [execReadyAnnouncement, if_neg (by simp [hr, hb])] at hdef
    exact leads_of hdef (announceReady_acts (s.reach (s.mod.enAt + 1000 * msCyc)) p.isLt)

theorem readyRepeat_acts (p : PortId) (s : State) :
    ((s.port p.val).repeats = [] → exec (.readyRepeat p) s = .next s) ∧
    (∀ u rest, (s.port p.val).repeats = u :: rest → leads (.readyRepeat p) s fun t => t.now = max s.now u ∧ (t.port p.val).repeats = rest) := by
  have hdef : exec (.readyRepeat p) s = execReadyRepeat p s := rfl
  refine ⟨fun h => ?_, fun u rest h => ?_⟩
  · rw [hdef, execReadyRepeat]
    simp only [h]
  · simp only [execReadyRepeat, h] at hdef
    have hself : (((s.reach u).setPort p.val { s.port p.val with repeats := rest }).port p.val).repeats = rest := congrArg Port.repeats (port_setPort_self ..)
    generalize hk : (s.reach u).setPort p.val { s.port p.val with repeats := rest } = k at hdef hself
    have hnow : k.now = max s.now u := by rw [← hk]; rfl
    split at hdef
    · have hsent := sendReady_sent k p.val
      have hrep : ((sendReady k p.val).port p.val).repeats = (k.port p.val).repeats := by
        simpa using congrArg Port.repeats (show { (sendReady k p.val).port p.val with txq := (k.port p.val).txq } = k.port p.val from hsent.port p.val)
      exact leads_of hdef ⟨hsent.now.trans hnow, hrep.trans hself⟩
    · exact leads_of hdef ⟨hnow, hself⟩

theorem bringupRequestExpire_acts (p : PortId) (s : State) (src : Word) :
    ((∀ e ∈ (s.port p.val).brup, e.1 ≠ src.toNat) → exec (.bringupRequestExpire p src) s = .next s) ∧
      ∀ e, (s.port p.val).brup.find? (fun e => e.1 == src.toNat) = some e → leads (.bringupRequestExpire p src) s fun t =>
        t.now = max s.now (e.2 + 16000000) ∧ t.reply = s.reply ∧ ∀ x, x ∈ (t.port p.val).brup ↔ x ∈ (s.port p.val).brup ∧ x.1 ≠ src.toNat := by
  have hdef : exec (.bringupRequestExpire p src) s = execBringupRequestExpire p src s := rfl
  refine ⟨fun h => ?_, fun e he => ?_⟩
  · have hnone : (s.port p.val).brup.find? (fun e => e.1 == src.toNat) = none := List.find?_eq_none.mpr fun e he => by simpa using h e he
    rw [hdef, execBringupRequestExpire]
    simp only [hnone]
  · simp only [execBringupRequestExpire, he] at hdef
    refine leads_of hdef ⟨rfl, rfl, fun x => ?_⟩
    rw [port_setPort_self]
    simp

/-- Settles O37: a frame is judged in the order of R462, a port's state follows its link, its fence and the announcement of READY. -/
theorem portsJudgeAndFollow : Obligations.PortsJudgeAndFollow := by
  unfold Obligations.PortsJudgeAndFollow
  refine ⟨fun p f s => ?_, fun p s => ?_⟩
  · intro st on clean sized ours ctr frames bytes good sentHere full
    obtain ⟨hoff, hfcs, hsize, hdst, hcount⟩ := frameReceive_acts p f s
    refine ⟨hoff, hfcs, hsize, hdst, hcount, fun hq hg hno => (frameQuiet_acts p f s hq hg.1 hg.2).1 hno, fun h op xid hq hg hsent hb =>
      (frameQuiet_acts p f s hq hg.1 hg.2).2 h op xid hsent hb, fun hup hg => (frameUp_acts p f s hup hg.1 hg.2).1,
      fun h hup hg => (frameUp_acts p f s hup hg.1 hg.2).2 h⟩
  · intro st lit trains
    obtain ⟨hlock0, hlock⟩ := linkLock_acts p s
    obtain ⟨hfenced, hlit, hdark⟩ := portTraining_acts p s
    obtain ⟨hun0, hun⟩ := unfence_acts p s
    obtain ⟨hann0, hann⟩ := readyAnnouncement_acts p s
    obtain ⟨hrep0, hrep⟩ := readyRepeat_acts p s
    exact ⟨hlock0, hlock, hfenced, hlit, hdark, portFence_acts p s, hun0, hun, hann0, hann, hrep0, hrep, bringupRequestExpire_acts p s⟩

end Sys2Proof.Machine
end

section
/-! PROOFS. Mailbox commands on the device, on registers and on buffers (R504 to R512, R517 to R521, R524). -/
namespace Sys2Proof.Machine

/-! ### Checks that a command fails or passes -/

theorem judge_true (st : Nat) (l : List (Bool × Nat)) : judge ((true, st) :: l) = st := rfl

theorem judge_false (st : Nat) (l : List (Bool × Nat)) : judge ((false, st) :: l) = judge l := rfl

/-- A command that its checks refuse ends with the code of the first of them. -/
theorem refused_ends {a b : State} {r pos st : Nat} {hd : Word} {rs : List Word} (h : st = csBadArg) :
    ∃ hd2 rs2, (if st ≠ csOk then finishCmd a r pos st hd rs else b) = finishCmd a r pos csBadArg hd2 rs2 :=
  ⟨hd, rs, by rw [if_pos (by rw [h]; decide), h]⟩

theorem passed_goes {a b : State} {r pos st : Nat} {hd : Word} {rs : List Word} (h : st = csOk) :
    (if st ≠ csOk then finishCmd a r pos st hd rs else b) = b := if_neg (not_not.mpr h)

/-! ### NOP and QUERY_DEVICE (R512) -/

theorem nop_acts (r : Fin 16384) (pos : Word) :
    mbxRow (.nop r pos) r.val pos 0x1 anyRec (fun _ _ _ => True) (fun _ _ _ _ st _ _ => st = csOk) :=
  mbxLeads_all (body := fun a _ ws => finishCmd a r.val pos.toNat (if badWord0 ws then csBadArg else csOk) 0#32 [])
    (fun _ => rfl) (fun a k ws h => ⟨0#32, [], by rw [h]; rfl⟩)
    (fun s k ws hs hw _ => cmdDone_finish (beginAt_open hs) (by rw [hw]; rfl)) anyRec

theorem queryDevice_acts (r : Fin 16384) (pos : Word) :
    mbxRow (.queryDevice r pos) r.val pos 0x2 anyRec (fun _ _ _ => True) (fun s _ _ _ st _ res => st = csOk ∧ res = deviceWords s) :=
  mbxLeads_all (body := fun a _ ws =>
      if badWord0 ws then finishCmd a r.val pos.toNat csBadArg 0#32 [] else finishCmd a r.val pos.toNat csOk 0#32 (deviceWords a))
    (fun _ => rfl) (fun a k ws h => ⟨0#32, [], by rw [h]; rfl⟩)
    (fun s k ws hs hw _ => by
      rw [hw]
      exact cmdDone_finish (beginAt_open hs) ⟨rfl, rfl⟩) anyRec

/-! ### READ_REGS (R512) -/

/-- A state with other rings. -/
def State.withRings (s : State) (m : Map Ring) : State := { s with hw := { s.hw with rings := m } }

theorem withRings_ite {c : Prop} [Decidable c] (a b : State) (m : Map Ring) :
    (if c then a else b).withRings m = if c then a.withRings m else b.withRings m := apply_ite (State.withRings · m) c a b

section
variable (s : State) (m : Map Ring) (k : Nat)
theorem clkOn_withRings : clkOn (s.withRings m) k = clkOn s k := rfl
theorem clkNum_withRings : clkNum (s.withRings m) k = clkNum s k := rfl
theorem clkDen_withRings : clkDen (s.withRings m) k = clkDen s k := rfl
theorem clkLines_withRings : clkLines (s.withRings m) k = clkLines s k := rfl
theorem clkPos_withRings : clkPos (s.withRings m) k = clkPos s k := rfl
theorem clkLineNow_withRings : clkLineNow (s.withRings m) k = clkLineNow s k := rfl
theorem putClk_withRings (c : FrameClk) : putClk (s.withRings m) k c = (putClk s k c).withRings m := rfl
theorem wCount_withRings (o hi lo n : Nat) : wCount (s.withRings m) o hi lo n = (wCount s o hi lo n).withRings m := rfl
end

/-- A frame clock brought to line number `n` of its map. -/
def clkStep (b : Bool) (s : State) (k n lines : Nat) (c : FrameClk) : State :=
  if c.frame < n / lines ∨ (c.frame = n / lines ∧ c.line < n % lines) ∨ (c.frame = n / lines ∧ c.line = n % lines ∧ !c.held) then
    if b ∧ c.frame + 1 < n / lines then wCount (putClk s k ⟨n / lines, n % lines, false⟩) (tClk k 0x18) 31 16 (n / lines - c.frame - 1)
    else putClk s k ⟨n / lines, n % lines, false⟩
  else putClk s k { c with held := true }

theorem clkUpdate_step (b : Bool) (s : State) (k : Nat) :
    clkUpdate b s k = if clkOn s k ∧ clkLines s k ≠ 0 ∧ clkNum s k ≠ 0 ∧ clkDen s k ≠ 0 then
      clkStep b s k (clkLineNow s k) (clkLines s k) (clkPos s k) else s := rfl

theorem clkStep_withRings (b : Bool) (s : State) (m : Map Ring) (k n lines : Nat) (c : FrameClk) :
    clkStep b (s.withRings m) k n lines c = (clkStep b s k n lines c).withRings m := by
  unfold clkStep
  generalize n / lines = f
  generalize n % lines = l
  split_ifs
  · rw [putClk_withRings, wCount_withRings]
  · rw [putClk_withRings]
  · rw [putClk_withRings]

theorem clkUpdate_withRings (b : Bool) (s : State) (m : Map Ring) (k : Nat) : clkUpdate b (s.withRings m) k = (clkUpdate b s k).withRings m := by
  rw [clkUpdate_step, clkUpdate_step, withRings_ite, clkOn_withRings, clkLines_withRings, clkNum_withRings, clkDen_withRings, clkLineNow_withRings,
    clkPos_withRings, clkStep_withRings]

theorem clkAll_withRings (b : Bool) (s : State) (m : Map Ring) : clkAll b (s.withRings m) = (clkAll b s).withRings m := by
  unfold clkAll
  induction List.range 16 generalizing s with
  | nil => rfl
  | cons k l ih => rw [List.foldl_cons, clkUpdate_withRings, ih, List.foldl_cons]

theorem putClk_hw (s : State) (k : Nat) (c : FrameClk) : (putClk s k c).hw = s.hw := rfl

theorem clkUpdate_hw (b : Bool) (s : State) (k : Nat) : (clkUpdate b s k).hw = s.hw := by
  obtain h | ⟨c, _, h | ⟨n, h⟩⟩ := clkUpdate_cases b s k
  · rw [h]
  · rw [h, putClk_hw]
  · rw [h, wCount_hw, putClk_hw]

theorem clkAll_hw (b : Bool) (s : State) : (clkAll b s).hw = s.hw := by
  unfold clkAll
  induction List.range 16 generalizing s with
  | nil => rfl
  | cons k l ih => rw [List.foldl_cons, ih, clkUpdate_hw]

/-- The commands in flight, counted ring by ring. -/
theorem foldl_flight_mset (m : Map Ring) (r : Nat) {k k2 : Ring} (h : mget? m r = some k) (hl : k2.flight.length = k.flight.length) (n : Nat) :
    (mset m r k2).foldl (fun n e => n + e.2.flight.length) n = m.foldl (fun n e => n + e.2.flight.length) n := by
  induction m generalizing n with
  | nil => cases h
  | cons e t ih =>
    obtain ⟨j, w⟩ := e
    rw [mget?] at h
    rw [mset]
    split at h
    · next hj =>
      cases h
      rw [if_pos hj, List.foldl_cons, List.foldl_cons, hl]
    · next hj =>
      split at h
      · cases h
      · next hlt => rw [if_neg hj, if_neg hlt, List.foldl_cons, List.foldl_cons, ih h]

/-- No register shows that a command has begun. -/
theorem winBits_begun {s : State} {r pos : Nat} {k : Ring} (h : mget? s.hw.rings r = some k) (off : Nat) :
    winBits (s.withRings (mset s.hw.rings r (k.beginAt pos))) off = winBits s off := by
  have hlen : (k.beginAt pos).flight.length = k.flight.length := List.length_map ..
  have hring (n j : Nat) : ringWord (s.withRings (mset s.hw.rings r (k.beginAt pos))) n j = ringWord s n j := by
    unfold ringWord
    by_cases hn : n = r
    · have e : mget? (s.withRings (mset s.hw.rings r (k.beginAt pos))).hw.rings n = some (k.beginAt pos) := by rw [hn]; exact mget_mset_self ..
      rw [e, hn, h]
      simp only [hlen]
      rfl
    · have e : mget? (s.withRings (mset s.hw.rings r (k.beginAt pos))).hw.rings n = mget? s.hw.rings n := mget_mset_ne _ _ _ _ hn
      rw [e]
      rfl
  have hfly : inFlight (s.withRings (mset s.hw.rings r (k.beginAt pos))) = inFlight s := foldl_flight_mset _ _ h hlen 0
  unfold winBits
  rw [hring, hfly]
  rfl

theorem winRead_begun {s : State} {r pos : Nat} {k : Ring} (h : s.ring r = some k) (off : Nat) :
    (winRead (s.beginAt r pos k) off).1 = (winRead s off).1 := by
  have hk : mget? s.hw.rings r = some k := h
  have hstate : (if decide (0x10100 ≤ off ∧ off < 0x10300) then clkAll false (s.beginAt r pos k) else s.beginAt r pos k) =
      (if decide (0x10100 ≤ off ∧ off < 0x10300) then clkAll false s else s).withRings
        (mset (if decide (0x10100 ≤ off ∧ off < 0x10300) then clkAll false s else s).hw.rings r (k.beginAt pos)) := by
    split
    · rw [clkAll_hw]
      exact clkAll_withRings ..
    · rfl
  have hrings : mget? (if decide (0x10100 ≤ off ∧ off < 0x10300) then clkAll false s else s).hw.rings r = some k := by
    split
    · rw [clkAll_hw, hk]
    · exact hk
  unfold winRead
  rw [hstate]
  generalize (if decide (0x10100 ≤ off ∧ off < 0x10300) then clkAll false s else s) = a at hrings
  dsimp only
  split
  · rfl
  · next d hd =>
    have hshadow : (a.withRings (mset a.hw.rings r (k.beginAt pos))).winShadow = a.winShadow := rfl
    rw [hshadow]
    split
    · rfl
    · rw [winBits_begun hrings]
      rfl

theorem readSpace_begun {s : State} {r pos : Nat} {k : Ring} (h : s.ring r = some k) (kind target off : Nat) :
    (readSpace (s.beginAt r pos k) kind target off).1 = (readSpace s kind target off).1 := by
  unfold readSpace
  split
  · exact winRead_begun h _
  · split
    · rfl
    · split <;> rfl

theorem winRead_hw (s : State) (off : Nat) : (winRead s off).2.hw = s.hw := by
  have hclk : (if decide (0x10100 ≤ off ∧ off < 0x10300) then clkAll false s else s).hw = s.hw := by
    split
    · exact clkAll_hw ..
    · rfl
  unfold winRead
  generalize (if decide (0x10100 ≤ off ∧ off < 0x10300) then clkAll false s else s) = a at hclk
  dsimp only
  split
  · exact hclk
  · split
    · exact hclk
    · split_ifs <;> exact hclk

theorem readSpace_hw (s : State) (kind target off : Nat) : (readSpace s kind target off).2.hw = s.hw := by
  unfold readSpace
  split
  · exact winRead_hw ..
  · split
    · rfl
    · split
      · rfl
      · exact setCore_hw ..

theorem readSpaces_hw (s : State) (kind target off n : Nat) : (readSpaces s kind target off n).2.hw = s.hw := by
  induction n generalizing s off with
  | zero => rfl
  | succ n ih => exact (ih ..).trans (readSpace_hw ..)

theorem readSpaces_length (s : State) (kind target off n : Nat) : (readSpaces s kind target off n).1.length = n := by
  induction n generalizing s off with
  | zero => rfl
  | succ n ih => exact congrArg (· + 1) (ih ..)

theorem regChecks_bad {ws : List Word} (h : badWord0 ws = true) (a : State) (k : Ring) (n : Nat) (l : List (Bool × Nat)) :
    judge (regChecks a k ws n ++ l) = csBadArg := by
  unfold regChecks
  rw [h]
  rfl

theorem readRegs_acts (r : Fin 16384) (pos : Word) :
    mbxRow (.readRegs r pos) r.val pos 0x3 anyRec
      (fun s k ws => (∀ e ∈ regChecks s k ws (fld (arg ws 2) 15 8), e.1 = false) ∧ 1 ≤ fld (arg ws 2) 15 8 ∧ fld (arg ws 2) 15 8 ≤ 12)
      (fun s _ ws _ st _ res => st = csOk ∧ res.length = fld (arg ws 2) 15 8 ∧ (fld (arg ws 2) 15 8 = 1 →
        res = [(readSpace s (fld (arg ws 2) 1 0) (arg ws 3).toNat (arg64 ws 4)).1])) := by
  refine mbxLeads_all (body := _) (fun _ => rfl) (fun a k ws h => ?_) (fun s k ws hs hw hown => ?_) anyRec
  · exact refused_ends (regChecks_bad h ..)
  obtain ⟨hchecks, h1, h12⟩ := hown
  extract_lets n st x
  have hst : st = csOk := judge_ok fun c hc => by
    rcases List.mem_append.mp hc with hc | hc
    · exact hchecks c hc
    · rw [List.mem_singleton.mp hc]
      simp only [Bool.or_eq_false_iff, beq_eq_false_iff_ne, decide_eq_false_iff_not]
      exact ⟨by omega, by omega⟩
  rw [passed_goes hst]
  refine cmdDone_finish (ringOpen_of_rings (beginAt_open hs) (congrArg Heartwood.rings (readSpaces_hw ..))) ⟨rfl, readSpaces_length .., fun hone => ?_⟩
  have hn : n = 1 := hone
  unfold x
  rw [hn, readSpaces, readSpace_begun hs.1]
  rfl

/-! ### WRITE_REGS (R512, R524) -/

theorem PortActed.rings {p : Nat} {s t : State} (h : PortActed p s t) : t.hw.rings = s.hw.rings := by
  simpa using congrArg (fun x : State => x.hw.rings) h.rest

theorem portUnfence_rings {p : Nat} (hp : p < 8) (s : State) : (portUnfence s p).hw.rings = s.hw.rings := by
  unfold portUnfence
  split
  · extract_lets _ s1
    exact (portTrain_port hp (wFld s1 (pReg p 4) 2 0 poDown)).rings
  · rfl

theorem portCfgWrite_rings {p : Nat} (hp : p < 8) (s : State) (val : Word) : (portCfgWrite s p val).hw.rings = s.hw.rings := by
  unfold portCfgWrite
  extract_lets s1 s2
  have h2 : s2.hw.rings = s.hw.rings := by
    show (if bit val 9 then portUnfence s1 p else s1).hw.rings = s.hw.rings
    split
    · exact portUnfence_rings hp s1
    · rfl
  split
  · exact (portFence_port s1 p).rings
  · split
    · exact (portTrain_port hp s2).rings.trans h2
    · exact h2

theorem winPlain_rings (s : State) (o : Nat) (val : Word) : (winPlain s o val).hw.rings = s.hw.rings := by
  unfold winPlain
  split
  · next h =>
    simp only [Bool.and_eq_true, decide_eq_true_eq] at h
    exact portCfgWrite_rings (by omega) s val
  · split <;> rfl

theorem routerWrite_rings (s : State) (n off : Nat) (val : Word) : (routerWrite s n off val).hw.rings = s.hw.rings := by
  unfold routerWrite
  dsimp only
  split <;> rfl

theorem stackWrite_rings (s : State) (n off : Nat) (val : Word) : (stackWrite s n off val).hw.rings = s.hw.rings := by
  unfold stackWrite
  dsimp only
  split
  · rfl
  · split <;> rfl

/-- The register of a port's IPv4 address. -/
theorem regFind_portIp {p : Nat} (hp : p < 8) : ∃ d, regFind windowRegs (pReg p 0x10) = some d ∧ d.rw = 0xFFFFFFFF#32 ∧ d.w1c = 0#32 ∧ d.wo = 0#32 := by
  interval_cases p <;> exact ⟨_, rfl, rfl, rfl, rfl⟩

theorem writable_portIp {p : Nat} (hp : p < 8) : writable 0 (windowBase + pReg p 0x10) = true := by
  interval_cases p <;> decide

theorem portIp_winPlain {p : Nat} (hp : p < 8) (s : State) (val : Word) : portIp (winPlain s (pReg p 0x10) val) p = val := by
  obtain ⟨d, hd, hrw, hw1c, hwo⟩ := regFind_portIp hp
  have hcfg : (decide (0x20000 ≤ pReg p 0x10 ∧ pReg p 0x10 < 0x22000) && pReg p 0x10 % 0x400 == 0) = false := by
    have : pReg p 0x10 % 0x400 = 0x10 := by unfold pReg; omega
    simp [this]
  unfold winPlain portIp
  rw [hcfg, hd, if_neg (by decide)]
  dsimp only
  rw [wReg_wSet_self, regAfterWrite, hrw, hw1c, show (0xFFFFFFFF#32 : Word) = BitVec.allOnes 32 from rfl]
  simp only [BitVec.and_allOnes, BitVec.not_allOnes, BitVec.and_zero, BitVec.zero_or, BitVec.not_zero]

theorem judge_append {l : List (Bool × Nat)} (h : ∀ c ∈ l, c.1 = false) (l2 : List (Bool × Nat)) : judge (l ++ l2) = judge l2 := by
  induction l with
  | nil => rfl
  | cons c t ih =>
    obtain ⟨b, st⟩ := c
    have hb : b = false := h _ (List.mem_cons_self ..)
    rw [List.cons_append, hb, judge_false]
    exact ih fun c hc => h c (List.mem_cons_of_mem _ hc)

theorem judge_last (b : Bool) (st : Nat) : judge [(!b, st)] = if b then csOk else st := by
  cases b <;> rfl

theorem writeRegs_acts (r : Fin 16384) (pos : Word) :
    mbxRow (.writeRegs r pos) r.val pos 0x4 anyRec
      (fun s k ws => k.part = 0 ∧ (∀ e ∈ regChecks s k ws 1, e.1 = false) ∧ fld (arg ws 2) 15 8 = 1)
      (fun _ _ ws t st _ _ => st = (if writable (fld (arg ws 2) 1 0) (arg64 ws 4) then csOk else csDenied) ∧
        ∀ p : Fin 8, fld (arg ws 2) 1 0 = 0 → arg64 ws 4 = windowBase + pReg p.val 0x10 → portIp t p.val = arg ws 6) := by
  refine mbxLeads_all (body := _) (fun _ => rfl) (fun a k ws h => ?_) (fun s k ws hs hw hown => ?_) anyRec
  · exact refused_ends (by rw [h]; rfl)
  obtain ⟨hpart, hchecks, hone⟩ := hown
  extract_lets kind st a1
  have hpre : ∀ c ∈ [(badWord0 ws, csBadArg), notDevice k] ++ regChecks s k ws 1 ++ [(fld (arg ws 2) 15 8 != 1, csBadArg)], c.1 = false := by
    intro c hc
    rcases List.mem_append.mp hc with hc | hc
    · rcases List.mem_append.mp hc with hc | hc
      · simp only [List.mem_cons, List.not_mem_nil, or_false] at hc
        rcases hc with rfl | rfl
        · exact hw
        · simp [notDevice, hpart]
      · exact hchecks c hc
    · simp only [List.mem_singleton] at hc
      rw [hc]
      simpa using hone
  have hst : st = if writable kind (arg64 ws 4) then csOk else csDenied := (judge_append hpre _).trans (judge_last _ _)
  cases hwr : writable kind (arg64 ws 4) with
  | false =>
    rw [hwr] at hst
    rw [if_pos (by rw [hst]; decide)]
    refine cmdDone_finish (beginAt_open hs) ⟨by rw [hst, show writable (fld (arg ws 2) 1 0) (arg64 ws 4) = false from hwr], fun p hk ha => ?_⟩
    rw [show kind = 0 from hk, ha, writable_portIp p.isLt] at hwr
    cases hwr
  | true =>
    rw [hwr] at hst
    rw [passed_goes hst]
    have hrings : a1.hw.rings = (s.beginAt r.val pos.toNat k).hw.rings := by
      show (if kind = 0 then _ else if kind = 1 then _ else _ : State).hw.rings = _
      split_ifs
      · exact winPlain_rings ..
      · exact routerWrite_rings ..
      · exact stackWrite_rings ..
    refine cmdDone_finish (ringOpen_of_rings (beginAt_open hs) hrings) ⟨?_, fun p hk ha => ?_⟩
    · rw [show writable (fld (arg ws 2) 1 0) (arg64 ws 4) = true from hwr, if_pos rfl]
    · obtain ⟨g, hg⟩ := finishCmd_form a1 r.val pos.toNat csOk 0#32 []
      have ha1 : a1 = winPlain (s.beginAt r.val pos.toNat k) (pReg p.val 0x10) (arg ws 6) := by
        show (if kind = 0 then _ else _ : State) = _
        rw [if_pos hk, ha, Nat.add_sub_cancel_left]
      rw [hg, ← portIp_winPlain p.isLt (s.beginAt r.val pos.toNat k) (arg ws 6), ← ha1]
      rfl

/-! ### CREATE_BUFFER and DESTROY_BUFFER (R517) -/

theorem createBuffer_acts (r : Fin 16384) (pos : Word) :
    mbxRow (.createBuffer r pos) r.val pos 0x18 anyRec
      (fun s k ws => hOk s hPart (arg ws 2) ∧ inScope k (hIndex (arg ws 2)) ∧ (badAddr (arg64 ws 3) (arg ws 5).toNat 64).1 = false ∧
        ownsRange s (hIndex (arg ws 2)) (arg64 ws 3) (arg ws 5).toNat = true ∧ (arg ws 5).toNat % 64 = 0 ∧ 128 ≤ (arg ws 5).toNat ∧
        (freeIndex s.hw.bufs 0 65536).isSome = true)
      (fun s _ ws t st h _ => ∃ i, freeIndex s.hw.bufs 0 65536 = some i ∧ st = csOk ∧ h = handleOf s hBuffer i ∧
        mget? t.hw.bufs i = some ⟨hIndex (arg ws 2), arg64 ws 3, (arg ws 5).toNat, none⟩) := by
  refine mbxLeads_all (body := _) (fun _ => rfl) (fun a k ws h => ?_) (fun s k ws hs hw hown => ?_) anyRec
  · dsimp only
    rw [h, judge_true]
    split
    · exact ⟨_, _, rfl⟩
    · exact ⟨_, _, rfl⟩
  obtain ⟨hpart, hscope, haddr, howns, h64, h128, hfree⟩ := hown
  obtain ⟨i, hi⟩ := Option.isSome_iff_exists.mp hfree
  extract_lets p n st b
  have hst : st = csOk := judge_ok fun c hc => by
    simp only [List.mem_cons, List.not_mem_nil, or_false] at hc
    rcases hc with rfl | rfl | rfl | rfl | rfl | rfl
    · exact hw
    · exact badHandle_ok (hOk_beginAt hs hpart)
    · exact outOfScope_ok hscope
    · exact haddr
    · have howns' : ownsRange (s.beginAt r.val pos.toNat k) p (arg64 ws 3) n = true := howns
      simp [foreignRange, howns']
    · have h1 : n % 64 = 0 := h64
      have h2 : ¬ n < 128 := Nat.not_lt.mpr h128
      simp [h1, h2]
  split
  · next hnone => cases hi.symm.trans hnone
  next j hj =>
  obtain rfl : i = j := Option.some.inj (hi.symm.trans hj)
  rw [passed_goes hst]
  extract_lets a1
  have hput (a : State) : (putHeader a b []).hw = a.hw := (putHeader_written a b []).hw
  refine cmdDone_finish (ringOpen_of_rings (beginAt_open hs) ((congrArg Heartwood.rings (hput a1)).trans rfl)) ⟨i, hi, rfl, rfl, ?_⟩
  obtain ⟨g, hg⟩ := finishCmd_form (putHeader a1 b []) r.val pos.toNat csOk (handleOf a1 hBuffer i) []
  rw [hg]
  exact (congrArg (fun x : Heartwood => mget? x.bufs i) (hput a1)).trans (mget_mset_self ..)

/-- The checks that a command on a buffer makes. -/
theorem bufferChecks_ok {s : State} {r : Nat} {pos : Word} {code : Nat} {k : Ring} {ws : List Word} (hs : cmdStands s r pos code k ws)
    (hw : badWord0 ws = false) (hbuf : hOk s hBuffer (arg ws 2)) {b : HostBuf} (hscope : inScope k b.part) :
    judge [(badWord0 ws, csBadArg), badHandle (s.beginAt r pos.toNat k) hBuffer (arg ws 2), outOfScope k b.part] = csOk :=
  judge_ok fun c hc => by
    simp only [List.mem_cons, List.not_mem_nil, or_false] at hc
    rcases hc with rfl | rfl | rfl
    · exact hw
    · exact badHandle_ok (hOk_beginAt hs hbuf)
    · exact outOfScope_ok hscope

theorem onBuffer_bad {ws : List Word} (h : badWord0 ws = true) (a : State) (r : Nat) (pos : Word) (k : Ring) (body : State → Nat → HostBuf → State) :
    ∃ hd rs, onBuffer a r pos k ws body = finishCmd a r pos.toNat csBadArg hd rs := by
  unfold onBuffer
  dsimp only
  rw [h]
  split
  · exact ⟨_, _, rfl⟩
  · exact refused_ends rfl

theorem onBuffer_good {s : State} {r : Nat} {pos : Word} {code : Nat} {k : Ring} {ws : List Word} (hs : cmdStands s r pos code k ws)
    (hw : badWord0 ws = false) (hbuf : hOk s hBuffer (arg ws 2)) {b : HostBuf} (hb : mget? s.hw.bufs (hIndex (arg ws 2)) = some b)
    (hscope : inScope k b.part) (body : State → Nat → HostBuf → State) :
    onBuffer (s.beginAt r pos.toNat k) r pos k ws body = body (s.beginAt r pos.toNat k) (hIndex (arg ws 2)) b := by
  have hb' : mget? (s.beginAt r pos.toNat k).hw.bufs (hIndex (arg ws 2)) = some b := hb
  unfold onBuffer
  dsimp only
  rw [hb']
  exact passed_goes (bufferChecks_ok hs hw hbuf hscope)

/-- The generation of an object that goes advances. -/
theorem genOf_bumpGen (s : State) (ty i : Nat) : genOf (bumpGen s ty i) ty i = genNext (genOf s ty i) := mgetD_mset_self ..

theorem destroyBuffer_acts (r : Fin 16384) (pos : Word) :
    mbxRow (.destroyBuffer r pos) r.val pos 0x19 anyRec
      (fun s k ws => hOk s hBuffer (arg ws 2) ∧ mkeysRising s.hw.bufs = true ∧
        ∃ b, mget? s.hw.bufs (hIndex (arg ws 2)) = some b ∧ inScope k b.part)
      (fun s _ ws t st h _ => ∀ b, mget? s.hw.bufs (hIndex (arg ws 2)) = some b →
        (b.held ≠ none ∨ hdrState (bufHeader s b) = bReady ∨ hdrState (bufHeader s b) = bFailed → st = csInUse ∧ t.hw.bufs = s.hw.bufs) ∧
        (b.held = none → hdrState (bufHeader s b) ≠ bReady → hdrState (bufHeader s b) ≠ bFailed → st = csOk ∧ h = arg ws 2 ∧
          mget? t.hw.bufs (hIndex (arg ws 2)) = none ∧ genOf t hBuffer (hIndex (arg ws 2)) = genNext (genOf s hBuffer (hIndex (arg ws 2))))) := by
  refine mbxLeads_all (body := _) (fun _ => rfl) (fun a k ws h => ?_) (fun s k ws hs hw hown => ?_) anyRec
  · exact onBuffer_bad h ..
  obtain ⟨hbuf, hrise, b, hb, hscope⟩ := hown
  beta_reduce
  rw [onBuffer_good hs hw hbuf hb hscope]
  extract_lets hd _ b1
  have hthis (b2 : HostBuf) (h : mget? s.hw.bufs (hIndex (arg ws 2)) = some b2) : b2 = b := (Option.some.inj (hb.symm.trans h)).symm
  split
  · next hin =>
    refine cmdDone_finish (beginAt_open hs) fun b2 hb2 => ?_
    rw [hthis b2 hb2]
    obtain ⟨g, hg⟩ := finishCmd_form (s.beginAt r.val pos.toNat k) r.val pos.toNat csInUse 0#32 []
    refine ⟨fun _ => ⟨rfl, by rw [hg]; rfl⟩, fun h1 h2 h3 => ?_⟩
    rcases hin with h | h | h
    · rw [h1] at h
      cases h
    · exact (h2 h).elim
    · exact (h3 h).elim
  · next hout =>
    refine cmdDone_finish (ringOpen_of_rings (beginAt_open hs) rfl) fun b2 hb2 => ?_
    rw [hthis b2 hb2]
    obtain ⟨g, hg⟩ := finishCmd_form b1 r.val pos.toNat csOk (arg ws 2) []
    refine ⟨fun h => (hout ?_).elim, fun _ _ _ => ⟨rfl, rfl, ?_⟩⟩
    · rcases h with h | h | h
      · exact Or.inl (Option.isSome_iff_ne_none.mpr h)
      · exact Or.inr (Or.inl h)
      · exact Or.inr (Or.inr h)
    · rw [hg]
      exact ⟨mget_merase_self _ _ hrise, genOf_bumpGen ..⟩

/-! ### RELEASE_BUFFER (R517) -/

theorem touched_block {a : Nat} (h : a % 64 = 0) : touched 64 a 64 = [a / 64] := by
  have hone : (a + 64 - 1) / 64 - a / 64 + 1 = 1 := by omega
  unfold touched
  rw [if_neg (by decide), hone]
  rfl

/-- A write of one whole block of memory (R374). -/
theorem devWrite_block {s : State} {a st off : Nat} {bytes : List Byte} (h : a % 64 = 0) (ha : burmonAddr a = some (st, off)) (hl : bytes.length = 64) :
    devWrite s a bytes = (burmonWrite s st off bytes false 0 true []).1 := by
  have hb : 64 * (a / 64) = a := by omega
  unfold devWrite
  rw [hl, touched_block h, List.foldl_cons, List.foldl_nil, hb]
  dsimp only
  rw [Nat.max_self, ha]
  dsimp only
  rw [Nat.min_self, Nat.sub_self, Nat.add_sub_cancel_left, List.drop_zero, List.take_of_length_le (Nat.le_of_eq hl)]

theorem devRead_block {s : State} {a st off : Nat} (h : a % 64 = 0) (ha : burmonAddr a = some (st, off)) :
    devRead s a 64 = cellGets (s.stack st).mem off 64 := by
  have hb : 64 * (a / 64) = a := by omega
  unfold devRead
  rw [touched_block h, List.flatMap_cons, List.flatMap_nil, List.append_nil, hb]
  dsimp only
  rw [Nat.max_self, ha]
  dsimp only
  rw [Nat.min_self, Nat.add_sub_cancel_left]

theorem writeBlock_mem (st off len : Nat) (tarn : Bool) (s : State) (blk n : Nat) : ((writeBlock st off len tarn [] s blk).stack n).mem = (s.stack n).mem := by
  have hread : readBlock s st blk (errsOf [] blk) false = s := by
    unfold readBlock
    exact if_pos rfl
  unfold writeBlock
  simp only [hread, ite_self]
  by_cases hn : n = st
  · rw [hn, stack_setStack_self]
  · rw [stack_setStack_ne _ _ _ _ hn]

theorem foldl_writeBlock_mem (st off len : Nat) (tarn : Bool) (l : List Nat) (s : State) (n : Nat) :
    ((l.foldl (writeBlock st off len tarn []) s).stack n).mem = (s.stack n).mem := by
  induction l generalizing s with
  | nil => rfl
  | cons b l ih => rw [List.foldl_cons, ih, writeBlock_mem]

/-- What a write of the heartwood's own leaves in memory. -/
theorem burmonWrite_mem {s : State} {st off : Nat} {bytes : List Byte} (h : burmonRange off bytes.length = true) (tarn : Bool) :
    ((burmonWrite s st off bytes tarn 0 true []).1.stack st).mem = cellPuts (s.stack st).mem off bytes := by
  unfold burmonWrite
  rw [if_neg (by simp [h]), if_neg (by simp [ownOk]), if_neg (by decide)]
  dsimp only
  rw [stack_setStack_self, foldl_writeBlock_mem]

theorem wordOfBytes_bytesOfWord (w : Word) : wordOfBytes (bytesOfWord w) = w := by
  have h (j : Nat) : ((w >>> (8 * j)).setWidth 8).toNat = w.toNat / 2 ^ (8 * j) % 256 := by
    rw [BitVec.toNat_setWidth, BitVec.toNat_ushiftRight, Nat.shiftRight_eq_div_pow]
  have h0 : (w.setWidth 8).toNat = w.toNat % 256 := BitVec.toNat_setWidth ..
  have h1 := h 1
  have h2 := h 2
  have h3 := h 3
  have hlt := w.isLt
  refine BitVec.eq_of_toNat_eq ?_
  unfold wordOfBytes bytesOfWord
  simp only [List.getD_cons_zero, List.getD_cons_succ, BitVec.toNat_ofNat, h0]
  simp only [Nat.mul_one, Nat.reduceMul, Nat.reducePow] at h1 h2 h3
  omega

theorem flatMap_bytesOfWord_length (l : List Word) : (l.flatMap bytesOfWord).length = 4 * l.length := by
  induction l with
  | nil => rfl
  | cons w l ih =>
    rw [List.flatMap_cons, List.length_append, ih, List.length_cons]
    show 4 + 4 * l.length = _
    omega

/-- A header as it is written: sixteen words, of which the first are given. -/
theorem header_length (ws : List Word) : (((ws ++ List.replicate 16 0#32).take 16).flatMap bytesOfWord).length = 64 := by
  rw [flatMap_bytesOfWord_length, List.length_take, List.length_append, List.length_replicate]
  omega

theorem bufHeader_putHeader {s : State} {b : HostBuf} {st off : Nat} (h : b.addr % 64 = 0) (ha : burmonAddr b.addr = some (st, off))
    (hr : burmonRange off 64 = true) (hwf : cellsWf (s.stack st).mem = true) (x y : Word) :
    arg (bufHeader (putHeader s b [x, y]) b) 0 = x ∧ arg (bufHeader (putHeader s b [x, y]) b) 1 = y := by
  have hl := header_length [x, y]
  have hmem : devRead (putHeader s b [x, y]) b.addr 64 = (([x, y] ++ List.replicate 16 0#32).take 16).flatMap bytesOfWord := by
    rw [devRead_block h ha]
    unfold putHeader
    rw [devWrite_block h ha hl, burmonWrite_mem (by rw [hl]; exact hr)]
    have := cellGets_cellPuts (s.stack st).mem off ((([x, y] ++ List.replicate 16 0#32).take 16).flatMap bytesOfWord) hwf
    rw [hl] at this
    exact this
  unfold bufHeader
  rw [hmem]
  exact ⟨wordOfBytes_bytesOfWord x, wordOfBytes_bytesOfWord y⟩

theorem releaseBuffer_acts (r : Fin 16384) (pos : Word) :
    mbxRow (.releaseBuffer r pos) r.val pos 0x1A anyRec
      (fun s k ws => hOk s hBuffer (arg ws 2) ∧ ∃ b, mget? s.hw.bufs (hIndex (arg ws 2)) = some b ∧ inScope k b.part)
      (fun s _ ws t st h _ => ∀ b, mget? s.hw.bufs (hIndex (arg ws 2)) = some b →
        let hd := bufHeader s b
        (arg hd 1 ≠ arg ws 3 ∨ hdrState hd = bIdle → st = csStale ∧ t.stks = s.stks) ∧
        (arg hd 1 = arg ws 3 → hdrState hd = bWriting → st = csInUse ∧ t.stks = s.stks) ∧
        (arg hd 1 = arg ws 3 → hdrState hd = bReady ∨ hdrState hd = bFailed → st = csOk ∧ h = arg ws 2 ∧
          ∀ sk off, b.addr % 64 = 0 → burmonAddr b.addr = some (sk, off) → burmonRange off 64 = true → off % 64 = 0 →
            cellsWf (s.stack sk).mem = true → hdrState (bufHeader t b) = bIdle ∧ arg (bufHeader t b) 1 = arg ws 3)) := by
  refine mbxLeads_all (body := _) (fun _ => rfl) (fun a k ws h => ?_) (fun s k ws hs hw hown => ?_) anyRec
  · exact onBuffer_bad h ..
  obtain ⟨hbuf, b, hb, hscope⟩ := hown
  beta_reduce
  rw [onBuffer_good hs hw hbuf hb hscope]
  extract_lets hd st
  have hthis (b2 : HostBuf) (h : mget? s.hw.bufs (hIndex (arg ws 2)) = some b2) : b2 = b := (Option.some.inj (hb.symm.trans h)).symm
  have hstks (c : Nat) : (finishCmd (s.beginAt r.val pos.toNat k) r.val pos.toNat c 0#32 []).stks = s.stks := by
    obtain ⟨g, hg⟩ := finishCmd_form (s.beginAt r.val pos.toNat k) r.val pos.toNat c 0#32 []
    rw [hg]
    rfl
  split
  · next hbad =>
    refine cmdDone_finish (beginAt_open hs) fun b2 hb2 => ?_
    rw [hthis b2 hb2]
    refine ⟨fun h => ⟨?_, hstks _⟩, fun h1 h2 => ⟨?_, hstks _⟩, fun h1 h2 => (hbad ?_).elim⟩
    · have h' : arg hd 1 ≠ arg ws 3 ∨ hdrState hd = bIdle := h
      have : (arg hd 1 != arg ws 3 || hdrState hd == bIdle) = true := by simpa using h'
      unfold st
      rw [this]
      rfl
    · have h1' : arg hd 1 = arg ws 3 := h1
      have h2' : hdrState hd = bWriting := h2
      unfold st
      rw [h1', h2']
      simp [judge, bWriting, bIdle]
    · have h1' : arg hd 1 = arg ws 3 := h1
      unfold st
      rw [h1']
      rcases h2 with h2 | h2 <;> rw [show hdrState hd = _ from h2] <;> simp [judge, bWriting, bIdle, bReady, bFailed]
  · next hgood =>
    have hst : st = csOk := not_not.mp hgood
    have hwritten := putHeader_written (s.beginAt r.val pos.toNat k) b [0#32, arg hd 1]
    refine cmdDone_finish (ringOpen_of_rings (beginAt_open hs) (congrArg Heartwood.rings hwritten.hw)) fun b2 hb2 => ?_
    rw [hthis b2 hb2]
    refine ⟨fun h => ?_, fun h1 h2 => ?_, fun h1 _ => ⟨rfl, rfl, fun sk off ha64 haddr hrange _ hwf => ?_⟩⟩
    · have h' : arg hd 1 ≠ arg ws 3 ∨ hdrState hd = bIdle := h
      have : (arg hd 1 != arg ws 3 || hdrState hd == bIdle) = true := by simpa using h'
      unfold st at hst
      rw [this] at hst
      cases hst
    · have h1' : arg hd 1 = arg ws 3 := h1
      have h2' : hdrState hd = bWriting := h2
      unfold st at hst
      rw [h1', h2'] at hst
      simp [judge, bWriting, bIdle, csInUse, csOk] at hst
    · obtain ⟨g, hg⟩ := finishCmd_form (putHeader (s.beginAt r.val pos.toNat k) b [0#32, arg hd 1]) r.val pos.toNat csOk (arg ws 2) []
      obtain ⟨h0, h1w⟩ := bufHeader_putHeader (s := s.beginAt r.val pos.toNat k) ha64 haddr hrange hwf 0#32 (arg hd 1)
      have hsame : bufHeader (finishCmd (putHeader (s.beginAt r.val pos.toNat k) b [0#32, arg hd 1]) r.val pos.toNat csOk (arg ws 2) []) b =
          bufHeader (putHeader (s.beginAt r.val pos.toNat k) b [0#32, arg hd 1]) b := by
        rw [hg]
        rfl
      rw [hsame, h1w, hdrState, h0]
      exact ⟨rfl, h1⟩

/-! ### SET_FRAME_CLOCK (R443, R525) -/

theorem clkWrite_off {s : State} {c : Nat} (h : clkOn s c = false) (w : Word) :
    clkWrite s c 0 w = wSet s (tClk c 0) (w &&& 0x3FFFF#32) ∧ clkWrite s c 4 w = wSet s (tClk c 4) (w &&& 0xFFFF#32) := by
  unfold clkWrite
  rw [h]
  exact ⟨rfl, rfl⟩

/-- What an enable leaves of a frame clock's rate, and of its lines. -/
theorem clkEnable_rate (s : State) (c : Nat) (val : Word) :
    (clkEnable s c val).hw = s.hw ∧ clkNum (clkEnable s c val) c = clkNum s c ∧ clkDen (clkEnable s c val) c = clkDen s c ∧
      clkLines (clkEnable s c val) c = if clkOn s c then clkLines s c else fld val 13 0 := by
  have hfld (a : State) (hi lo v r : Nat) (h : r ≠ 8) : wReg (wFld a (tClk c 8) hi lo v) (tClk c r) = wReg a (tClk c r) :=
    wReg_wFld_ne _ _ _ _ _ _ (tClk_ne h)
  have hput (a : State) (k : FrameClk) (r : Nat) (h : r < 0xC) : wReg (putClk a c k) (tClk c r) = wReg a (tClk c r) :=
    wReg_putClk _ _ _ (tClk_ne (by omega)) (tClk_ne (by omega)) (tClk_ne (by omega)) (tClk_ne (by omega))
  have hflag (a : State) (r : Nat) (h : r < 0xC) : wReg (wFlag a (tClk c 0x18) 2#32) (tClk c r) = wReg a (tClk c r) :=
    wReg_wFlag_ne _ _ _ _ (tClk_ne (by omega))
  have hset (a : State) : clkLines (wFld a (tClk c 8) 13 0 (fld val 13 0)) c = fld val 13 0 :=
    (fld_wFld_self _ _ _ _ (by decide)).trans (fld_mod val 13 0)
  have hen (a : State) (v : Nat) : clkLines (wFld a (tClk c 8) 31 31 v) c = clkLines a c := fld_wFld_apart _ _ _ _ _ (Or.inl (by decide)) _
  unfold clkEnable
  cases clkOn s c with
  | true =>
    rw [if_pos rfl, if_pos rfl]
    split
    · exact ⟨rfl, rfl, rfl, rfl⟩
    · refine ⟨rfl, ?_, ?_, hen ..⟩
      · rw [clkNum, hfld _ _ _ _ _ (by decide), clkNum]
      · rw [clkDen, hfld _ _ _ _ _ (by decide), clkDen]
  | false =>
    rw [if_neg Bool.false_ne_true, if_neg Bool.false_ne_true]
    extract_lets s1 n d l s2 m
    have hn : clkNum s1 c = clkNum s c := congrArg (fld · 17 0) (hfld _ _ _ _ _ (by decide))
    have hd : clkDen s1 c = clkDen s c := congrArg (fld · 15 0) (hfld _ _ _ _ _ (by decide))
    have hl : clkLines s1 c = fld val 13 0 := hset s
    have hhw : s1.hw = s.hw := rfl
    clear_value s1
    split
    · split
      · refine ⟨(putClk_hw ..).trans hhw, ?_, ?_, ?_⟩
        · rw [clkNum, hput _ _ _ (by decide), hfld _ _ _ _ _ (by decide)]
          exact hn
        · rw [clkDen, hput _ _ _ (by decide), hfld _ _ _ _ _ (by decide)]
          exact hd
        · rw [clkLines, hput _ _ _ (by decide)]
          exact (hen _ _).trans hl
      · refine ⟨hhw, ?_, ?_, ?_⟩
        · rw [clkNum, hflag _ _ (by decide)]
          exact hn
        · rw [clkDen, hflag _ _ (by decide)]
          exact hd
        · rw [clkLines, hflag _ _ (by decide)]
          exact hl
    · exact ⟨hhw, hn, hd, hl⟩

theorem fld_mask {w m : Word} {n : Nat} (hm : m.toNat = 2 ^ n - 1) (h : w.toNat < 2 ^ n) (hn : 0 < n) : fld (w &&& m) (n - 1) 0 = w.toNat := by
  have e : n - 1 + 1 - 0 = n := by omega
  unfold fld
  rw [BitVec.toNat_and, hm, Nat.and_two_pow_sub_one_eq_mod, e, Nat.mod_eq_of_lt h]
  rw [Nat.pow_zero, Nat.div_one, Nat.mod_eq_of_lt h]

/-- The rate of a frame clock as a command sets it: at once where the clock is off. -/
theorem clkWrites_acts (a : State) (c : Nat) (x y : Word) :
    (clkWrite (clkWrite a c 0 x) c 4 y).hw = a.hw ∧ clkOn (clkWrite (clkWrite a c 0 x) c 4 y) c = clkOn a c ∧
      (clkOn a c = true → clkWrite (clkWrite a c 0 x) c 4 y = a) ∧
      (clkOn a c = false → x.toNat < 262144 → y.toNat < 65536 →
        clkNum (clkWrite (clkWrite a c 0 x) c 4 y) c = x.toNat ∧ clkDen (clkWrite (clkWrite a c 0 x) c 4 y) c = y.toNat) := by
  cases hon : clkOn a c with
  | true =>
    have e : clkWrite (clkWrite a c 0 x) c 4 y = a := by
      have h1 : clkWrite a c 0 x = a := if_pos hon
      rw [h1]
      exact if_pos hon
    rw [e]
    exact ⟨rfl, hon, fun _ => rfl, fun h => by cases h⟩
  | false =>
    have hon2 : clkOn (wSet a (tClk c 0) (x &&& 0x3FFFF#32)) c = clkOn a c := congrArg (bit · 31) (wReg_wSet_ne _ _ _ _ (tClk_ne (by decide)))
    rw [(clkWrite_off hon x).1, (clkWrite_off (hon2.trans hon) y).2]
    refine ⟨rfl, ?_, fun h => (Bool.false_ne_true h).elim, fun _ hx hy => ⟨?_, ?_⟩⟩
    · rw [clkOn, wReg_wSet_ne _ _ _ _ (tClk_ne (by decide))]
      exact hon2.trans hon
    · rw [clkNum, wReg_wSet_ne _ _ _ _ (tClk_ne (by decide)), wReg_wSet_self]
      exact fld_mask (n := 18) rfl hx (by decide)
    · rw [clkDen, wReg_wSet_self]
      exact fld_mask (n := 16) rfl hy (by decide)

/-- A rate, lines and an enable, one after another. -/
theorem setClock_acts (a : State) (c : Nat) (x y v : Word) :
    let t := clkEnable (clkWrite (clkWrite a c 0 x) c 4 y) c v
    t.hw = a.hw ∧ (clkOn a c = true → clkNum t c = clkNum a c ∧ clkDen t c = clkDen a c ∧ clkLines t c = clkLines a c) ∧
      (clkOn a c = false → x.toNat < 262144 → y.toNat < 65536 → clkNum t c = x.toNat ∧ clkDen t c = y.toNat ∧ clkLines t c = fld v 13 0) := by
  intro t
  obtain ⟨hhw, hn, hd, hl⟩ := clkEnable_rate (clkWrite (clkWrite a c 0 x) c 4 y) c v
  obtain ⟨hw2, hon2, hsame, hset⟩ := clkWrites_acts a c x y
  refine ⟨hhw.trans hw2, fun hon => ?_, fun hoff hx hy => ?_⟩
  · rw [hsame hon] at hn hd hl
    have ht : t = clkEnable a c v := by
      unfold t
      rw [hsame hon]
    rw [ht]
    exact ⟨hn, hd, hl.trans (if_pos hon)⟩
  · obtain ⟨hn2, hd2⟩ := hset hoff hx hy
    rw [hon2, hoff, if_neg Bool.false_ne_true] at hl
    exact ⟨hn.trans hn2, hd.trans hd2, hl⟩

theorem setFrameClock_acts (r : Fin 16384) (pos : Word) :
    mbxRow (.setFrameClock r pos) r.val pos 0x23 anyRec
      (fun s k ws => k.part = 0 ∧ fld (arg ws 2) 31 4 = 0 ∧ fld (arg ws 5) 30 14 = 0 ∧ (∀ e ∈ s.hw.sessions, e.2.clock ≠ fld (arg ws 2) 3 0) ∧
        (arg ws 3).toNat < 262144 ∧ (arg ws 4).toNat < 65536)
      (fun s _ ws t st _ _ =>
        let c := fld (arg ws 2) 3 0
        st = (if bit (arg ws 5) 31 = true ∧ clkOn t c = false then csBadArg else csOk) ∧
        (clkOn s c = true → clkNum t c = clkNum s c ∧ clkDen t c = clkDen s c ∧ clkLines t c = clkLines s c) ∧
        (clkOn s c = false → clkNum t c = (arg ws 3).toNat ∧ clkDen t c = (arg ws 4).toNat ∧ clkLines t c = fld (arg ws 5) 13 0)) := by
  refine mbxLeads_all (body := _) (fun _ => rfl) (fun a k ws h => ?_) (fun s k ws hs hw hown => ?_) anyRec
  · exact refused_ends (by rw [h]; rfl)
  obtain ⟨hpart, h2, h5, hses, hnum, hden⟩ := hown
  extract_lets c st a1
  have hst : st = csOk := judge_ok fun e he => by
    simp only [List.mem_cons, List.not_mem_nil, or_false] at he
    rcases he with rfl | rfl | rfl | rfl
    · simp [hw, h2, h5]
    · simp [notDevice, hpart]
    · exact List.any_eq_false.mpr fun e he => by simpa using hses e he
    · have h1 : ¬ 262144 ≤ (arg ws 3).toNat := Nat.not_le.mpr hnum
      have h2 : ¬ 65536 ≤ (arg ws 4).toNat := Nat.not_le.mpr hden
      simp [h1, h2]
  rw [passed_goes hst]
  obtain ⟨hhw, hon, hoff⟩ := setClock_acts (s.beginAt r.val pos.toNat k) c (arg ws 3) (arg ws 4) (arg ws 5)
  change a1.hw = _ at hhw
  obtain ⟨g, hg⟩ := finishCmd_form a1 r.val pos.toNat (if bit (arg ws 5) 31 && !clkOn a1 c then csBadArg else csOk) 0#32 []
  refine cmdDone_finish (ringOpen_of_rings (beginAt_open hs) (congrArg Heartwood.rings hhw)) ?_
  rw [hg]
  refine ⟨?_, hon, fun h => hoff h hnum hden⟩
  have hc : clkOn { a1 with hw := { a1.hw with rings := g } } c = clkOn a1 c := rfl
  rw [show fld (arg ws 2) 3 0 = c from rfl, hc]
  cases bit (arg ws 5) 31 <;> cases clkOn a1 c <;> rfl

/-- Settles O41: each command by its checks and by what its effect leaves. -/
theorem deviceCommandsEnd : Obligations.DeviceCommandsEnd :=
  fun r pos => ⟨nop_acts r pos, queryDevice_acts r pos, readRegs_acts r pos, writeRegs_acts r pos, createBuffer_acts r pos, destroyBuffer_acts r pos,
    releaseBuffer_acts r pos, setFrameClock_acts r pos⟩

end Sys2Proof.Machine
end

section
/-! PROOFS. The timebase: PTP, hold-over and the PPS (R431 to R441). -/
namespace Sys2Proof.Machine

/-! ### What frame clocks keep of the timebase -/

/-- A timebase without its frame clocks. -/
def Timebase.unclocked (t : Timebase) : Timebase := { t with clocks := [] }

/-- What bringing frame clocks to the present may change: their positions and their registers. -/
structure ClocksMoved (s t : State) : Prop where
  now : t.now = s.now
  tmb : t.tmb.unclocked = s.tmb.unclocked
  reg : ∀ o, o < 0x10100 → wReg t o = wReg s o

theorem ClocksMoved.refl (s : State) : ClocksMoved s s := ⟨rfl, rfl, fun _ _ => rfl⟩

theorem ClocksMoved.trans {s t u : State} (h : ClocksMoved s t) (h2 : ClocksMoved t u) : ClocksMoved s u where
  now := h2.now.trans h.now
  tmb := h2.tmb.trans h.tmb
  reg o ho := (h2.reg o ho).trans (h.reg o ho)

theorem putClk_moved (s : State) (k : Nat) (c : FrameClk) : ClocksMoved s (putClk s k c) := by
  refine ⟨rfl, rfl, fun o ho => ?_⟩
  exact wReg_putClk s k c (tClk_ne_below k _ ho) (tClk_ne_below k _ ho) (tClk_ne_below k _ ho) (tClk_ne_below k _ ho)

theorem clkUpdate_moved (b : Bool) (s : State) (k : Nat) : ClocksMoved s (clkUpdate b s k) := by
  obtain h | ⟨c, _, h | ⟨n, h⟩⟩ := clkUpdate_cases b s k
  · rw [h]
    exact ClocksMoved.refl s
  · rw [h]
    exact putClk_moved s k c
  · rw [h]
    have hc : ClocksMoved (putClk s k c) (wCount (putClk s k c) (tClk k 0x18) 31 16 n) :=
      ⟨rfl, rfl, fun o ho => wReg_wCount_ne _ _ _ _ _ _ (tClk_ne_below k _ ho)⟩
    exact (putClk_moved s k c).trans hc

theorem clkAll_moved (b : Bool) (s : State) : ClocksMoved s (clkAll b s) := by
  unfold clkAll
  induction List.range 16 generalizing s with
  | nil => exact ClocksMoved.refl s
  | cons k l ih => exact (clkUpdate_moved b s k).trans (ih _)

theorem ClocksMoved.map {s t : State} (h : ClocksMoved s t) (d : Nat) : mapAt t.tmb d = mapAt s.tmb d :=
  (congrArg (fun x : Timebase => mapAt x d) h.tmb :)
theorem ClocksMoved.tState {s t : State} (h : ClocksMoved s t) : tState t = tState s := congrArg (fld · 2 0) (h.reg tStatus (by decide))

/-! ### Corrections of the map (R433) -/

/-- What the time a module keeps is made of, without the map, its samples and the frame clocks. -/
def Timebase.steady (t : Timebase) : Timebase := { t with d0 := 0, p0 := 0, rate := 0, syncs := [], clocks := [] }

/-- What a correction of the map may change. -/
structure Corrected (s t : State) : Prop where
  now : t.now = s.now
  steady : t.tmb.steady = s.tmb.steady
  state : tState t = tState s
  reg : ∀ o, o < 0x10100 → o ≠ tStatus → wReg t o = wReg s o

theorem ClocksMoved.corrected {s t : State} (h : ClocksMoved s t) : Corrected s t where
  now := h.now
  steady := (congrArg Timebase.steady h.tmb :)
  state := h.tState
  reg o ho _ := h.reg o ho

theorem Corrected.trans {s t u : State} (h : Corrected s t) (h2 : Corrected t u) : Corrected s u :=
  ⟨h2.now.trans h.now, h2.steady.trans h.steady, h2.state.trans h.state, fun o ho hs => (h2.reg o ho hs).trans (h.reg o ho hs)⟩

/-- A map moved by an offset. -/
theorem mapAt_moved (t : Timebase) (off : Int) (d : Nat) : mapAt { t with p0 := t.p0 + off } d = mapAt t d + off := by
  unfold mapAt
  dsimp only
  omega

/-- A map that starts anew at a device time has its value there. -/
theorem mapAt_anew (t : Timebase) (d r : Nat) (p : Int) : mapAt { t with d0 := d, p0 := p, rate := r } d = p := by
  unfold mapAt
  simp

theorem correct_acts (s : State) (off ptp : Int) :
    Corrected s (correct s off ptp) ∧
      (stepsMap s off = true → mapAt (correct s off ptp).tmb s.now = mapAt s.tmb s.now + off) ∧
      (stepsMap s off = false → mapAt (correct s off ptp).tmb s.now = mapAt s.tmb s.now) := by
  unfold correct
  extract_lets d _ t0 s1 t1
  cases stepsMap s off with
  | true =>
    rw [if_pos rfl]
    have hmoved := clkAll_moved true (wCount (wFlag s1 tStatus 0x100#32) tStatus 31 16 1)
    have hreg (o : Nat) (h : o ≠ tStatus) : wReg (wCount (wFlag s1 tStatus 0x100#32) tStatus 31 16 1) o = wReg s o := by
      rw [wReg_wCount_ne _ _ _ _ _ _ h, wReg_wFlag_ne _ _ _ _ h]
      rfl
    have hst : tState (wCount (wFlag s1 tStatus 0x100#32) tStatus 31 16 1) = tState s := by
      rw [tState, fld_wCount_apart _ _ _ _ _ (Or.inl (by decide)), fld_wFlag_apart _ _ _ (by decide)]
      rfl
    have hcor : Corrected s (wCount (wFlag s1 tStatus 0x100#32) tStatus 31 16 1) := ⟨rfl, rfl, hst, fun o _ h => hreg o h⟩
    refine ⟨hcor.trans hmoved.corrected, fun _ => ?_, fun h => (Bool.false_ne_true h.symm).elim⟩
    rw [hmoved.map]
    exact mapAt_moved t0 off s.now
  | false =>
    rw [if_neg Bool.false_ne_true]
    have hmoved := clkAll_moved false ({ s with tmb := t1 }.takeFree 1)
    have hcor : Corrected s ({ s with tmb := t1 }.takeFree 1) := ⟨rfl, rfl, rfl, fun _ _ _ => rfl⟩
    refine ⟨hcor.trans hmoved.corrected, fun h => (Bool.false_ne_true h).elim, fun _ => ?_⟩
    rw [hmoved.map]
    exact mapAt_anew t0 d _ _

/-- ERR recomputed changes no other register and nothing of the timebase. -/
theorem recomputeErr_acts (s : State) :
    (recomputeErr s).tmb = s.tmb ∧ (recomputeErr s).now = s.now ∧ wReg (recomputeErr s) tErr = BitVec.ofNat 32 (min (errNow s) 0xFFFFFFFF) ∧
      ∀ o, o ≠ tErr → wReg (recomputeErr s) o = wReg s o :=
  ⟨rfl, rfl, wReg_wSet_self .., fun _ h => wReg_wSet_ne _ _ _ _ h⟩

theorem setGm_acts (s : State) (ident : Nat) :
    (setGm s ident).now = s.now ∧ (setGm s ident).tmb = { s.tmb with gm := some ident } ∧ tState (setGm s ident) = tState s ∧
      wReg (setGm s ident) tThr = wReg s tThr := by
  unfold setGm
  extract_lets _ s1 s2
  have hs2 (o : Nat) (h : o < 0x10044) : wReg s2 o = wReg s o := by
    show wReg (wSet (wSet s1 tGmLo _) tGmHi _) o = _
    exact (wReg_wSet_ne _ _ _ _ (Nat.ne_of_lt (Nat.lt_trans h (by decide)))).trans (wReg_wSet_ne _ _ _ _ (Nat.ne_of_lt h))
  have hst : tState s2 = tState s := congrArg (fld · 2 0) (hs2 tStatus (by decide))
  split
  · refine ⟨rfl, rfl, ?_, ?_⟩
    · rw [tState, fld_wFlag_apart _ _ _ (by decide)]
      exact hst
    · rw [wReg_wFlag_ne _ _ _ _ (by decide)]
      exact hs2 tThr (by decide)
  · exact ⟨rfl, rfl, hst, hs2 tThr (by decide)⟩

/-! ### A valid Sync (R433, R438) -/

/-- The map as a valid Sync leaves it: set to the time it gives, or corrected. -/
def mapSync (s : State) (off40 ptp : Int) : State :=
  if s.tmb.isSet then correct s off40 ptp
  else { s with tmb := { s.tmb with p0 := s.tmb.p0 + off40, isSet := true, syncs := keepSync s.tmb.syncs (devTime s) ptp } }

/-- What a valid Sync notes of itself. -/
def noteSync (s : State) (d run e p : Nat) (off40 : Int) (offs : List Nat) (t1 : Nat) : State :=
  let s2 : State := { s with tmb := { s.tmb with
      small := run, offs := offs, t1 := (t1 : Int), t2 := mapNs s.tmb d, errFrom := d, ppsOn := false, errBase := e } }
  let s3 := (wSet s2 tOffset (satReg32 (roundFree s2.free off40 two40))).takeFree 1
  wFld (wFld s3 tStatus 4 3 1) tStatus 7 5 p

/-- The state that sixteen small offsets lock. -/
def lockSync (s : State) (locks : Prop) [Decidable locks] : State :=
  if locks then { setTState s tLocked with tmb := { s.tmb with held := 0, heldFrom := none } } else s

theorem mapSync_acts (s : State) (off40 ptp : Int) :
    (mapSync s off40 ptp).now = s.now ∧ (mapSync s off40 ptp).tmb.isSet = true ∧
      { (mapSync s off40 ptp).tmb.steady with isSet := s.tmb.isSet } = s.tmb.steady ∧ tState (mapSync s off40 ptp) = tState s ∧
      (s.tmb.isSet = false → mapAt (mapSync s off40 ptp).tmb s.now = mapAt s.tmb s.now + off40) := by
  unfold mapSync
  cases hset : s.tmb.isSet with
  | true =>
    obtain ⟨hcor, _⟩ := correct_acts s off40 ptp
    have hs : (correct s off40 ptp).tmb.isSet = true := (congrArg Timebase.isSet hcor.steady).trans hset
    rw [if_pos rfl]
    refine ⟨hcor.now, hs, ?_, hcor.state, fun h => (Bool.false_ne_true h.symm).elim⟩
    rw [hcor.steady, ← hset]
    rfl
  | false =>
    rw [if_neg Bool.false_ne_true]
    refine ⟨rfl, rfl, ?_, rfl, fun _ => mapAt_moved { s.tmb with isSet := true, syncs := keepSync s.tmb.syncs (devTime s) ptp } off40 s.now⟩
    rw [← hset]
    rfl

theorem noteSync_acts (s : State) (d run e : Nat) {p : Nat} (hp : p < 8) (off40 : Int) (offs : List Nat) (t1 : Nat) :
    let t := noteSync s d run e p off40 offs t1
    fld (wReg t tStatus) 7 5 = p ∧ fld (wReg t tStatus) 4 3 = 1 ∧ tState t = tState s ∧ t.now = s.now ∧ (∀ x, mapAt t.tmb x = mapAt s.tmb x) ∧
      t.tmb.isSet = s.tmb.isSet ∧ t.tmb.serving = s.tmb.serving ∧ t.tmb.gm = s.tmb.gm ∧ t.tmb.twoStep = s.tmb.twoStep := by
  intro t
  unfold t noteSync
  extract_lets _ s2 s3
  have hs3 : tState s3 = tState s := congrArg (fld · 2 0) (wReg_wSet_ne _ _ _ _ (by decide))
  refine ⟨?_, ?_, ?_, rfl, fun d => rfl, rfl, rfl, rfl, rfl⟩
  · rw [fld_wFld_self _ _ _ _ (by decide)]
    exact Nat.mod_eq_of_lt hp
  · rw [fld_wFld_apart _ _ _ _ _ (Or.inl (by decide)), fld_wFld_self _ _ _ _ (by decide)]
    rfl
  · rw [tState, fld_wFld_apart _ _ _ _ _ (Or.inl (by decide)), fld_wFld_apart _ _ _ _ _ (Or.inl (by decide))]
    exact hs3

theorem lockSync_acts (s : State) (locks : Prop) [Decidable locks] :
    let t := lockSync s locks
    fld (wReg t tStatus) 7 5 = fld (wReg s tStatus) 7 5 ∧ fld (wReg t tStatus) 4 3 = fld (wReg s tStatus) 4 3 ∧ t.now = s.now ∧
      (∀ d, mapAt t.tmb d = mapAt s.tmb d) ∧ t.tmb.isSet = s.tmb.isSet ∧ t.tmb.serving = s.tmb.serving ∧ t.tmb.gm = s.tmb.gm ∧
      t.tmb.twoStep = s.tmb.twoStep ∧ (locks → tState t = tLocked) := by
  intro t
  unfold t lockSync
  split
  · exact ⟨fld_wFld_apart _ _ _ _ _ (Or.inr (by decide)) _, fld_wFld_apart _ _ _ _ _ (Or.inr (by decide)) _, rfl, fun d => rfl, rfl, rfl, rfl, rfl,
      fun _ => fld_wFld_self _ _ _ _ (by decide)⟩
  · next h => exact ⟨rfl, rfl, rfl, fun d => rfl, rfl, rfl, rfl, rfl, fun h2 => (h h2).elim⟩

/-- A Sync as it is applied: the frame clocks, the map, its notes, the lock, ERR. -/
theorem applySync_eq (s0 : State) (p t1 : Nat) :
    let s := clkAll false s0
    let ptp : Int := (t1 : Int) + s.tmb.delay
    let off40 := ptp * (two40 : Int) - mapAt s.tmb s.now
    let run := if decide (off40.natAbs ≤ fld (wReg s tThr) 15 0 * two40) then s.tmb.small + 1 else 0
    let e := if tState s = tLocked then maxOf (last16 s.tmb.offs (absNsUp off40)) + portUncertainty s p else s.tmb.errBase
    applySync s0 p t1 = recomputeErr (lockSync (noteSync (mapSync s off40 ptp) s.now run e p off40 (last16 s.tmb.offs (absNsUp off40)) t1)
      (16 ≤ run ∧ (tState s = tAcquiring ∨ tState s = tHoldover ∨ tState s = tAdrift))) := by
  intro s ptp off40 run e
  rfl

theorem applySync_acts (s : State) {p : Nat} (hp : p < 8) (t1 : Nat) :
    let t := applySync s p t1
    let off : Int := ((t1 : Int) + s.tmb.delay) * (two40 : Int) - mapAt s.tmb s.now
    fld (wReg t tStatus) 7 5 = p ∧ fld (wReg t tStatus) 4 3 = 1 ∧ t.tmb.isSet = true ∧ t.now = s.now ∧ t.tmb.serving = s.tmb.serving ∧
      t.tmb.gm = s.tmb.gm ∧ t.tmb.twoStep = s.tmb.twoStep ∧
      (s.tmb.isSet = false → mapAt t.tmb s.now = ((t1 : Int) + s.tmb.delay) * (two40 : Int)) ∧
      (15 ≤ s.tmb.small → off.natAbs ≤ fld (wReg s tThr) 15 0 * two40 → tState s = tAcquiring ∨ tState s = tHoldover ∨ tState s = tAdrift →
        tState t = tLocked) := by
  intro t off
  have hmoved := clkAll_moved false s
  have heq := applySync_eq s p t1
  dsimp only at heq
  generalize clkAll false s = a at hmoved heq
  have hdelay : a.tmb.delay = s.tmb.delay := (congrArg Timebase.delay hmoved.tmb :)
  have hsmall : a.tmb.small = s.tmb.small := (congrArg Timebase.small hmoved.tmb :)
  have hset : a.tmb.isSet = s.tmb.isSet := (congrArg Timebase.isSet hmoved.tmb :)
  rw [hdelay, hmoved.now, hmoved.map, hmoved.tState, hmoved.reg tThr (by decide), hsmall] at heq
  obtain ⟨hmnow, hmset, hmsteady, hmstate, hmmap⟩ := mapSync_acts a off ((t1 : Int) + s.tmb.delay)
  generalize mapSync a off ((t1 : Int) + s.tmb.delay) = b at heq hmnow hmset hmsteady hmstate hmmap
  generalize hrun : (if decide (off.natAbs ≤ fld (wReg s tThr) 15 0 * two40) = true then s.tmb.small + 1 else 0) = run at heq
  generalize (if tState s = tLocked then _ else _ : Nat) = e at heq
  generalize last16 a.tmb.offs (absNsUp off) = offs at heq
  obtain ⟨hport, hsrc, hnstate, hnnow, hnmap, hnset, hnserv, hngm, hntwo⟩ := noteSync_acts b s.now run e hp off offs t1
  generalize noteSync b s.now run e p off offs t1 = c at heq hport hsrc hnstate hnnow hnmap hnset hnserv hngm hntwo
  obtain ⟨hlport, hlsrc, hlnow, hlmap, hlset, hlserv, hlgm, hltwo, hllock⟩ :=
    lockSync_acts c (16 ≤ run ∧ (tState s = tAcquiring ∨ tState s = tHoldover ∨ tState s = tAdrift))
  generalize lockSync c (16 ≤ run ∧ (tState s = tAcquiring ∨ tState s = tHoldover ∨ tState s = tAdrift)) = l at *
  obtain ⟨hrtmb, hrnow, _, hrreg⟩ := recomputeErr_acts l
  have hst : wReg t tStatus = wReg l tStatus := (congrArg (wReg · tStatus) heq).trans (hrreg tStatus (by decide))
  have htmb : t.tmb = l.tmb := (congrArg State.tmb heq).trans hrtmb
  have hnow : t.now = l.now := (congrArg State.now heq).trans hrnow
  have hserv : b.tmb.serving = s.tmb.serving := (congrArg Timebase.serving hmsteady :).trans (congrArg Timebase.serving hmoved.tmb :)
  have hgm : b.tmb.gm = s.tmb.gm := (congrArg Timebase.gm hmsteady :).trans (congrArg Timebase.gm hmoved.tmb :)
  have htwo : b.tmb.twoStep = s.tmb.twoStep := (congrArg Timebase.twoStep hmsteady :).trans (congrArg Timebase.twoStep hmoved.tmb :)
  refine ⟨?_, ?_, ?_, ?_, ?_, ?_, ?_, fun hno => ?_, fun h15 hoff hst2 => ?_⟩
  · rw [hst, hlport, hport]
  · rw [hst, hlsrc, hsrc]
  · rw [htmb, hlset, hnset, hmset]
  · rw [hnow, hlnow, hnnow, hmnow, hmoved.now]
  · rw [htmb, hlserv, hnserv, hserv]
  · rw [htmb, hlgm, hngm, hgm]
  · rw [htmb, hltwo, hntwo, htwo]
  · rw [htmb, hlmap, hnmap, ← hmoved.now, hmmap (hset.trans hno), hmoved.map, hmoved.now]
    unfold off
    omega
  · rw [tState, hst]
    refine hllock ⟨?_, hst2⟩
    rw [← hrun, if_pos (by simpa using hoff)]
    omega

/-- The first port with a master follows the listed ports, the time and the masters alone. -/
theorem firstPort_of_ports {s t : State} (hreg : wReg t tPorts = wReg s tPorts) (hnow : t.now = s.now)
    (htmb : (t.tmb.masters, t.tmb.silent) = (s.tmb.masters, s.tmb.silent)) : firstPort t = firstPort s := by
  obtain ⟨hm, hs⟩ := Prod.mk.inj htmb
  unfold firstPort listedPorts qualified
  rw [hreg, hnow, hm, hs]

/-! ### PTP messages (R435, R436, R439) -/

/-- The state in which a Sync has been heard. -/
def heardSync (s : State) (p ident : Nat) (log : Int) : State :=
  { s with tmb := { updMaster s.tmb p ident (fun m => { m with syncLog := log, lastSync := s.now }) with silent := s.tmb.silent.erase p } }

theorem servePort_acts (s : State) (p ident : Nat) :
    (servePort s p ident).now = s.now ∧ (servePort s p ident).tmb = { s.tmb with gm := some ident, serving := some p } ∧
      tState (servePort s p ident) = tState s ∧ wReg (servePort s p ident) tThr = wReg s tThr := by
  obtain ⟨hnow, htmb, hst, hthr⟩ := setGm_acts s ident
  unfold servePort
  refine ⟨hnow, ?_, hst, hthr⟩
  dsimp only
  rw [htmb]

theorem ptpDrop_acts (s : State) : onlyWin s (ptpDrop s) ∧ winCounts s (ptpDrop s) tCount 15 0 1 := ⟨rfl, winCounts_wCount s tCount 0 1 (by decide)⟩

theorem ptpSync_acts (p : PortId) (dom : BitVec 8) (ident : BitVec 64) (s : State) (here : p.val ∈ listedPorts s)
    (mine : ptpDomain s dom.toNat = true) (best : isBest s p.val ident.toNat = true) (log : Int) (t1 : Nat) (h7 : -7 ≤ log) (h1 : log ≤ -1) :
    (∀ two, firstPort (heardSync s p.val ident.toNat log) ≠ some p.val → s.tmb.serving ≠ some p.val →
      exec (.ptpSync p dom ident log two t1) s = .next (heardSync s p.val ident.toNat log)) ∧
    (firstPort (heardSync s p.val ident.toNat log) = some p.val → leads (.ptpSync p dom ident log true t1) s fun t =>
      t.tmb.serving = some p.val ∧ t.tmb.twoStep = some (p.val, ident.toNat, s.now) ∧ t.tmb.p0 = s.tmb.p0) ∧
    (firstPort (heardSync s p.val ident.toNat log) = some p.val → leads (.ptpSync p dom ident log false t1) s fun t =>
      (fld (wReg t tStatus) 7 5 = p.val ∧ fld (wReg t tStatus) 4 3 = 1 ∧ t.tmb.isSet = true ∧ t.now = s.now) ∧
      t.tmb.serving = some p.val ∧ t.tmb.gm = some ident.toNat ∧
      (s.tmb.isSet = false → mapAt t.tmb s.now = ((t1 : Int) + s.tmb.delay) * (two40 : Int)) ∧
      (15 ≤ s.tmb.small → (((t1 : Int) + s.tmb.delay) * (two40 : Int) - mapAt s.tmb s.now).natAbs ≤ fld (wReg s tThr) 15 0 * two40 →
        tState s = tAcquiring ∨ tState s = tHoldover ∨ tState s = tAdrift → tState t = tLocked)) := by
  have hdef (two : Bool) : exec (.ptpSync p dom ident log two t1) s = execPtpSync p dom ident log two t1 s := rfl
  have hrun (two : Bool) : exec (.ptpSync p dom ident log two t1) s =
      let u := heardSync s p.val ident.toNat log
      if firstPort u ≠ some p.val ∧ u.tmb.serving ≠ some p.val then .next u
      else
        let s2 := if firstPort u = some p.val then servePort u p.val ident.toNat else u
        if two then .next { s2 with tmb := { s2.tmb with twoStep := some (p.val, ident.toNat, s2.now) } } else .next (applySync s2 p.val t1) := by
    rw [hdef, execPtpSync, if_neg (by simpa using here), if_neg (by simp [mine, best]; omega)]
    rfl
  obtain ⟨hnow, htmb, hst, hthr⟩ := servePort_acts (heardSync s p.val ident.toNat log) p.val ident.toNat
  refine ⟨fun two hno hserv => ?_, fun hgoal => ?_, fun hgoal => ?_⟩
  · rw [hrun]
    dsimp only
    rw [if_pos ⟨hno, hserv⟩]
  · have h := hrun true
    dsimp only at h
    rw [if_neg (by simp [hgoal]), if_pos hgoal, if_pos rfl] at h
    refine leads_of h ?_
    dsimp only
    rw [htmb, hnow]
    exact ⟨rfl, rfl, rfl⟩
  · have h := hrun false
    dsimp only at h
    rw [if_neg (by simp [hgoal]), if_pos hgoal, if_neg Bool.false_ne_true] at h
    obtain ⟨aport, asrc, aset, anow, aserv, agm, _, amap, alock⟩ := applySync_acts (servePort (heardSync s p.val ident.toNat log) p.val ident.toNat) p.isLt t1
    rw [htmb, hnow] at amap alock
    rw [hst, hthr] at alock
    rw [htmb] at aserv agm
    exact leads_of h ⟨⟨aport, asrc, aset, anow.trans hnow⟩, aserv, agm, amap, alock⟩

theorem followUp_acts (p : PortId) (dom : BitVec 8) (ident : BitVec 64) (s : State) (here : p.val ∈ listedPorts s)
    (mine : ptpDomain s dom.toNat = true) (best : isBest s p.val ident.toNat = true) (t1 : Nat) :
    (s.tmb.twoStep = none → exec (.followUp p dom ident t1) s = .next s) ∧
    ∀ d, s.tmb.twoStep = some (p.val, ident.toNat, d) → leads (.followUp p dom ident t1) s fun t =>
      (fld (wReg t tStatus) 7 5 = p.val ∧ fld (wReg t tStatus) 4 3 = 1 ∧ t.tmb.isSet = true ∧ t.now = s.now) ∧ t.tmb.twoStep = none := by
  have hdef : exec (.followUp p dom ident t1) s = execFollowUp p dom ident t1 s := rfl
  rw [execFollowUp, if_neg (by simpa using here), if_neg (by simp [mine, best])] at hdef
  refine ⟨fun h => ?_, fun d h => ?_⟩
  · rw [hdef, h]
  · rw [h] at hdef
    dsimp only at hdef
    rw [if_pos ⟨rfl, rfl⟩] at hdef
    obtain ⟨aport, asrc, aset, anow, _, _, atwo, _⟩ := applySync_acts { s with tmb := { s.tmb with twoStep := none } } p.isLt _
    exact leads_of hdef ⟨⟨aport, asrc, aset, anow⟩, atwo⟩

/-- Half of a sum, rounded either way, is within half of one of it. -/
theorem roundFree_half (fr : Nat) (x : Int) : (2 * roundFree fr x 2 - x).natAbs ≤ 1 := by
  unfold roundFree
  split_ifs <;> omega

theorem delayResp_acts (p : PortId) (dom : BitVec 8) (ident : BitVec 64) (s : State) (here : p.val ∈ listedPorts s)
    (mine : ptpDomain s dom.toNat = true) (best : isBest s p.val ident.toNat = true) (t4 : Nat) :
    (s.tmb.serving ≠ some p.val ∨ s.tmb.t3 = none → exec (.delayResp p dom ident t4) s = .next s) ∧
    ∀ t3, s.tmb.serving = some p.val → s.tmb.t3 = some t3 → leads (.delayResp p dom ident t4) s fun t =>
      t.tmb.t3 = none ∧ (2 * t.tmb.delay - ((s.tmb.t2 - s.tmb.t1) + ((t4 : Int) - t3))).natAbs ≤ 1 ∧ t.win = s.win := by
  have hdef : exec (.delayResp p dom ident t4) s = execDelayResp p dom ident t4 s := rfl
  rw [execDelayResp, if_neg (by simpa using here), if_neg (by simp [mine, best])] at hdef
  refine ⟨fun h => ?_, fun t3 hserv ht3 => ?_⟩
  · rw [hdef]
    split
    · rfl
    · next hs => rw [h.resolve_left hs]
  · rw [if_neg (not_not.mpr hserv), ht3] at hdef
    exact leads_of hdef ⟨rfl, roundFree_half .., rfl⟩

theorem announce_acts (p : PortId) (dom : BitVec 8) (s : State) (here : p.val ∈ listedPorts s) (mine : ptpDomain s dom.toNat = true) (a : Announce)
    (h3 : -3 ≤ a.log) (h1 : a.log ≤ 1) :
    leads (.announce p dom a) s fun t =>
      (∃ m ∈ mgetD t.tmb.masters p.val [], m.ident = a.ident.toNat ∧ m.lastAnn = s.now ∧ m.annLog = a.log ∧ m.timeout = max 3 a.timeout) ∧
      (tState s = tUnset → firstPort t ≠ none → tState t = tAcquiring ∧ wReg t tErr = 0xFFFFFFFF#32) ∧
      (tState s ≠ tUnset ∨ firstPort t = none → t.win = s.win) := by
  have hdef : exec (.announce p dom a) s = execAnnounce p dom a s := rfl
  rw [execAnnounce, if_neg (by simpa using here), if_neg (by simp [mine]; omega)] at hdef
  extract_lets l data old m _ s1 at hdef
  have hm : ∃ x ∈ mgetD s1.tmb.masters p.val [], x.ident = a.ident.toNat ∧ x.lastAnn = s.now ∧ x.annLog = a.log ∧ x.timeout = max 3 a.timeout := by
    refine ⟨m, ?_, rfl, rfl, rfl, rfl⟩
    show m ∈ mgetD (mset s.tmb.masters p.val ((l.filter fun q => q.ident != a.ident.toNat) ++ [m])) p.val []
    rw [mgetD_mset_self]
    exact List.mem_append_right _ (List.mem_singleton_self _)
  have hst : tState s1 = tState s := rfl
  have hwin : s1.win = s.win := rfl
  clear_value s1
  split at hdef
  · next hacq =>
    obtain ⟨hunset, hfirst⟩ := hacq
    refine leads_of hdef ⟨hm, fun _ _ => ⟨?_, wReg_wSet_self ..⟩, fun h => ?_⟩
    · rw [tState, wReg_wSet_ne _ _ _ _ (by decide)]
      exact fld_wFld_self _ _ _ _ (by decide)
    · have hkept : firstPort (wSet (setTState s1 tAcquiring) tErr 0xFFFFFFFF#32) = firstPort s1 := by
        have hreg : wReg (wSet (setTState s1 tAcquiring) tErr 0xFFFFFFFF#32) tPorts = wReg s1 tPorts := by
          rw [wReg_wSet_ne _ _ _ _ (by decide)]
          exact wReg_wFld_ne _ _ _ _ _ _ (by decide)
        exact firstPort_of_ports hreg rfl rfl
      rcases h with h | h
      · exact (h (hst.symm.trans hunset)).elim
      · rw [hkept] at h
        rw [h] at hfirst
        cases hfirst
  · next hno =>
    refine leads_of hdef ⟨hm, fun h1 h2 => (hno ⟨hst.trans h1, Option.isSome_iff_ne_none.mpr h2⟩).elim, fun _ => hwin⟩

/-! ### The loss of a master, hold-over and the PPS (R438 to R441) -/

theorem loseMasters_acts (s : State) :
    let t := loseMasters s
    t.now = s.now ∧ t.tmb.masters = s.tmb.masters ∧ t.tmb.silent = s.tmb.silent ∧
      (firstPort t = none → fld (wReg t tStatus) 4 3 = 0 ∧ (tState s = tLocked → tState t = tHoldover ∧ t.tmb.heldFrom = some t.now) ∧
        (tState s ≠ tLocked → tState t = tState s)) := by
  intro t
  unfold t loseMasters
  have hsrc : fld (wReg (wFld s tStatus 4 3 0) tStatus) 4 3 = 0 := fld_wFld_self s tStatus 3 0 (by decide)
  have hst : tState (wFld s tStatus 4 3 0) = tState s := fld_wFld_apart s tStatus 4 3 0 (Or.inl (by decide)) _
  split
  · next h => exact ⟨rfl, rfl, rfl, fun hno => by rw [hno] at h; cases h⟩
  · split
    · next hlocked =>
      extract_lets s1 _
      generalize hx : ({ setTState s1 tHoldover with tmb := _ } : State) = x
      obtain ⟨htmb, hnow, _, hreg⟩ := recomputeErr_acts x
      have hstat : wReg (recomputeErr x) tStatus = wReg (setTState s1 tHoldover) tStatus := by
        rw [hreg tStatus (by decide), ← hx]
        rfl
      have hxnow : x.now = s.now := by
        rw [← hx]
        rfl
      refine ⟨hnow.trans hxnow, by rw [htmb, ← hx]; rfl, by rw [htmb, ← hx]; rfl, fun _ => ⟨?_, fun _ => ⟨?_, ?_⟩, fun h => (h hlocked).elim⟩⟩
      · rw [hstat]
        exact (fld_wFld_apart _ _ _ _ _ (Or.inr (by decide)) _).trans hsrc
      · rw [tState, hstat]
        exact fld_wFld_self _ _ _ _ (by decide)
      · rw [htmb, hnow, hxnow, ← hx]
        rfl
    · next hno => exact ⟨rfl, rfl, rfl, fun _ => ⟨hsrc, fun h => (hno h).elim, fun _ => hst⟩⟩

theorem servingPortMove_acts (s : State) :
    let falls (t : State) : Prop := firstPort t = none → fld (wReg t tStatus) 4 3 = 0 ∧
      (tState s = tLocked → tState t = tHoldover ∧ t.tmb.heldFrom = some t.now) ∧ (tState s ≠ tLocked → tState t = tState s)
    (s.tmb.serving = none → ∀ why, exec (.servingPortMove why) s = .next s) ∧
    (∀ p, s.tmb.serving = some p →
      (leads (.servingPortMove 0) s fun t => t.now = s.now ∧ mgetD t.tmb.masters p [] = [] ∧ falls t) ∧
      ∀ m, bestMaster s p = some m →
        (leads (.servingPortMove 1) s fun t => t.now = max s.now (m.lastAnn + m.timeout * logCyc m.annLog + 1) ∧ falls t) ∧
        (leads (.servingPortMove 2) s fun t => t.now = max s.now (m.lastSync + 3 * logCyc m.syncLog) ∧ p ∈ t.tmb.silent ∧ falls t)) := by
  intro falls
  have hdef (why : Fin 3) : exec (.servingPortMove why) s = execServingPortMove why s := rfl
  refine ⟨fun h why => by rw [hdef, execServingPortMove, h], fun p h => ⟨?_, fun m hm => ⟨?_, ?_⟩⟩⟩
  · have h0 := hdef 0
    rw [execServingPortMove, h] at h0
    dsimp only at h0
    rw [if_pos rfl] at h0
    obtain ⟨hnow, hmas, _, hfall⟩ := loseMasters_acts { s with tmb := { s.tmb with masters := mset s.tmb.masters p [], silent := s.tmb.silent.erase p } }
    exact leads_of h0 ⟨hnow, by rw [hmas]; exact mgetD_mset_self .., hfall⟩
  · have h1 := hdef 1
    rw [execServingPortMove, h] at h1
    dsimp only at h1
    rw [if_neg (by decide), hm] at h1
    dsimp only at h1
    rw [if_pos rfl] at h1
    obtain ⟨hnow, _, _, hfall⟩ := loseMasters_acts (s.reach (m.lastAnn + m.timeout * logCyc m.annLog + 1))
    exact leads_of h1 ⟨hnow, hfall⟩
  · have h2 := hdef 2
    rw [execServingPortMove, h] at h2
    dsimp only at h2
    rw [if_neg (by decide), hm] at h2
    dsimp only at h2
    rw [if_neg (by decide)] at h2
    obtain ⟨hnow, _, hsil, hfall⟩ := loseMasters_acts
      { s.reach (m.lastSync + 3 * logCyc m.syncLog) with tmb := { s.tmb with silent := keyAdd s.tmb.silent p } }
    exact leads_of h2 ⟨hnow, (congrArg (p ∈ ·) hsil).mpr (mem_keyAdd_self ..), hfall⟩

theorem holdoverLimit_acts (s : State) :
    (s.tmb.heldFrom = none ∨ tState s ≠ tHoldover → exec .holdoverLimit s = .next s) ∧
    (∀ f, s.tmb.heldFrom = some f → tState s = tHoldover → leads .holdoverLimit s fun t =>
      t.now = max s.now (f + (fld (wReg s tHold) 15 0 * secondCyc - s.tmb.held)) ∧ tState t = tAdrift ∧ t.tmb.heldFrom = none) := by
  have hdef : exec .holdoverLimit s = execHoldoverLimit s := rfl
  refine ⟨fun h => ?_, fun f hf hst => ?_⟩
  · rw [hdef, execHoldoverLimit]
    rcases h with h | h
    · rw [h]
    · split
      · rfl
      · exact if_pos h
  · rw [execHoldoverLimit, hf] at hdef
    dsimp only at hdef
    rw [if_neg (not_not.mpr hst)] at hdef
    have hreg := fld_wFld_self (s.reach (f + (fld (wReg s tHold) 15 0 * secondCyc - s.tmb.held))) tStatus (hi := 2) 0 tAdrift (by decide)
    refine leads_of hdef ⟨rfl, ?_, rfl⟩
    exact (congrArg (fld · 2 0) ((recomputeErr_acts _).2.2.2 tStatus (by decide))).trans hreg

/-- What an accepted edge notes before the map is corrected. -/
def ppsNoted (s : State) (off40 : Int) : State :=
  { s with tmb := { s.tmb with
    ppsOn := true, ppsLast := s.now, ppsOffs := if s.tmb.ppsOn then last16 s.tmb.ppsOffs (absNsUp off40) else [absNsUp off40]
    held := (match s.tmb.heldFrom with
      | some f => s.tmb.held + (s.now - f)
      | none => s.tmb.held)
    heldFrom := none } }

/-- What it leaves after that. -/
def ppsTaken (s : State) (off40 : Int) : State :=
  let s2 := wFld s tStatus 4 3 2
  let s3 := (wSet s2 tOffset (satReg32 (roundFree s2.free off40 two40))).takeFree 1
  recomputeErr { s3 with tmb := { s3.tmb with errFrom := s3.now } }

theorem ppsTaken_acts (s : State) (off40 : Int) :
    (ppsTaken s off40).now = s.now ∧ (ppsTaken s off40).tmb = { s.tmb with errFrom := s.now } ∧ fld (wReg (ppsTaken s off40) tStatus) 4 3 = 2 ∧
      tState (ppsTaken s off40) = tState s := by
  have hreg : wReg (ppsTaken s off40) tStatus = wReg (wFld s tStatus 4 3 2) tStatus :=
    ((recomputeErr_acts _).2.2.2 tStatus (by decide)).trans (wReg_wSet_ne _ _ _ _ (by decide))
  exact ⟨rfl, rfl, (congrArg (fld · 4 3) hreg).trans (fld_wFld_self _ _ _ _ (by decide)),
    (congrArg (fld · 2 0) hreg).trans (fld_wFld_apart _ _ _ _ _ (Or.inl (by decide)) _)⟩

theorem ppsEdge_acts (s : State) :
    let unit : Int := 1000000000 * (two40 : Int)
    let off40 : Int := (mapAt s.tmb s.now + unit / 2) / unit * unit - mapAt s.tmb s.now
    let fix := bit (wReg s tCfg) 10 = true ∧ (tState s = tHoldover ∨ tState s = tAdrift)
    (¬ fix → exec .ppsEdge s = .next s) ∧
    (fix → fld (wReg s tHold) 31 16 * 1000 * two40 < off40.natAbs → leads .ppsEdge s fun t =>
      onlyWin s t ∧ bit (wReg t tStatus) 10 = true ∧ winCounts s t tCount 31 16 1 ∧ tState t = tState s) ∧
    (fix → off40.natAbs ≤ fld (wReg s tHold) 31 16 * 1000 * two40 → leads .ppsEdge s fun t =>
      t.now = s.now ∧ t.tmb.ppsOn = true ∧ t.tmb.ppsLast = s.now ∧ fld (wReg t tStatus) 4 3 = 2 ∧ tState t = tState s ∧
      (stepsMap s off40 = true → mapAt t.tmb s.now = mapAt s.tmb s.now + off40) ∧
      (stepsMap s off40 = false → mapAt t.tmb s.now = mapAt s.tmb s.now)) := by
  intro unit off40 fix
  have hdef : exec .ppsEdge s = execPpsEdge s := rfl
  have hfix : fix ↔ ¬ (¬ bit (wReg s tCfg) 10 ∨ (tState s ≠ tHoldover ∧ tState s ≠ tAdrift)) := by
    simp only [fix, not_or, not_and_or, not_not, ne_eq]
  refine ⟨fun h => ?_, fun h hfar => ?_, fun h hnear => ?_⟩
  · rw [hdef, execPpsEdge, if_pos (not_not.mp (mt hfix.mpr h))]
  · rw [execPpsEdge, if_neg (hfix.mp h)] at hdef
    refine leads_of (hdef.trans (if_neg (Nat.not_le.mpr hfar))) ⟨rfl, ?_, ?_, ?_⟩
    · rw [wReg_wCount_ne _ _ _ _ _ _ (by decide)]
      exact bit_wFlag_self _ _ _ (by decide)
    · have hcount := winCounts_wCount (wFlag s tStatus 0x400#32) tCount (hi := 31) 16 1 (by decide)
      rw [winCounts, wReg_wFlag_ne _ _ _ _ (by decide)] at hcount
      exact hcount
    · rw [tState, wReg_wCount_ne _ _ _ _ _ _ (by decide)]
      exact fld_wFlag_apart _ _ _ (by decide) _
  · rw [execPpsEdge, if_neg (hfix.mp h)] at hdef
    have hrun : exec .ppsEdge s = .next (ppsTaken (correct (ppsNoted s off40) off40 ((mapAt s.tmb s.now + unit / 2) / unit * 1000000000)) off40) :=
      hdef.trans (if_pos hnear)
    obtain ⟨hcor, hstep, hslew⟩ := correct_acts (ppsNoted s off40) off40 ((mapAt s.tmb s.now + unit / 2) / unit * 1000000000)
    obtain ⟨tnow, ttmb, tsrc, tst⟩ := ppsTaken_acts (correct (ppsNoted s off40) off40 ((mapAt s.tmb s.now + unit / 2) / unit * 1000000000)) off40
    have hon := (congrArg Timebase.ppsOn hcor.steady :)
    have hlast := (congrArg Timebase.ppsLast hcor.steady :)
    refine leads_of hrun ⟨tnow.trans hcor.now, ?_, ?_, tsrc, tst.trans hcor.state, fun h => ?_, fun h => ?_⟩
    · rw [ttmb]
      exact hon
    · rw [ttmb]
      exact hlast
    · rw [ttmb]
      exact hstep h
    · rw [ttmb]
      exact hslew h

theorem ppsLapse_acts (s : State) :
    (s.tmb.ppsOn = false → exec .ppsLapse s = .next s) ∧
    (s.tmb.ppsOn = true → leads .ppsLapse s fun t => t.now = max s.now (s.tmb.ppsLast + 3200000000) ∧ t.tmb.ppsOn = false ∧
      fld (wReg t tStatus) 4 3 = 0 ∧ tState t = tState s) := by
  have hdef : exec .ppsLapse s = execPpsLapse s := rfl
  refine ⟨fun h => by rw [hdef, execPpsLapse, if_pos (by simp [h])], fun h => ?_⟩
  rw [execPpsLapse, if_neg (by simp [h])] at hdef
  extract_lets s1 _ s2 at hdef
  have hreg : wReg (recomputeErr (wFld s2 tStatus 4 3 0)) tStatus = wReg (wFld s2 tStatus 4 3 0) tStatus := (recomputeErr_acts _).2.2.2 tStatus (by decide)
  refine leads_of hdef ⟨rfl, rfl, ?_, ?_⟩
  · rw [hreg]
    exact fld_wFld_self _ _ _ _ (by decide)
  · rw [tState, hreg]
    exact fld_wFld_apart _ _ _ _ _ (Or.inl (by decide)) _

theorem errRecompute_acts (s : State) :
    leads .errRecompute s fun t => t.tmb = s.tmb ∧ t.now = s.now ∧ wReg t tErr = BitVec.ofNat 32 (min (errNow s) 0xFFFFFFFF) := by
  obtain ⟨htmb, hnow, herr, _⟩ := recomputeErr_acts s
  exact leads_of rfl ⟨htmb, hnow, herr⟩

theorem alignmentWord_acts (s : State) (isStack : Bool) (unit : Nat) (skew : Int) :
    leads (.alignmentWord isStack unit skew) s fun t =>
      let u := if isStack then 1000 + unit else unit
      (2 < Int.natAbs skew → bit (wReg t tStatus) 11 = true ∧ u ∈ t.tmb.lost ∧ t.records = s.records ++ [⟨.skew, u, []⟩]) ∧
      (Int.natAbs skew ≤ 2 → t.win = s.win ∧ t.records = s.records ∧ ∀ v, v ∈ t.tmb.lost ↔ v ∈ s.tmb.lost ∧ v ≠ u) := by
  have hdef : exec (.alignmentWord isStack unit skew) s = execAlignmentWord isStack unit skew s := rfl
  rw [execAlignmentWord] at hdef
  split at hdef
  · next h => exact leads_of hdef ⟨fun _ => ⟨bit_wFlag_self _ _ _ (by decide), mem_keyAdd_self .., rfl⟩, fun h2 => (Nat.not_le.mpr h h2).elim⟩
  · next h =>
    refine leads_of hdef ⟨fun h2 => (h h2).elim, fun _ => ⟨rfl, rfl, fun v => ?_⟩⟩
    show v ∈ keyDel s.tmb.lost (alignTarget isStack unit) ↔ _
    simp [keyDel, alignTarget]

/-- Settles O35: the messages of PTP, and the sources of time that stand in for it. -/
theorem timeFollowsPtp : Obligations.TimeFollowsPtp := by
  unfold Obligations.TimeFollowsPtp
  refine ⟨fun p dom ident s => ?_, fun s => ?_⟩
  · intro here mine best counted serves
    have habsent : ∀ x, ¬ here → (¬ (listedPorts s).contains p.val → exec x s = .next s) → exec x s = .next s := fun x h hx => hx (by simpa using h)
    have hcount : ∀ x, exec x s = .next (ptpDrop s) → counted x := fun x hx => leads_of hx (ptpDrop_acts s)
    refine ⟨fun log two t1 h => habsent _ h fun hx => if_pos hx, fun t1 h => ⟨habsent _ h fun hx => if_pos hx, habsent _ h fun hx => if_pos hx⟩,
      fun a h => habsent _ h fun hx => if_pos hx, fun log two t1 h hbad => hcount _ ?_, fun t1 h hbad => ⟨hcount _ ?_, hcount _ ?_⟩,
      fun a h hbad => hcount _ ?_, fun log t1 h hm hb h7 h1 => ptpSync_acts p dom ident s h hm hb log t1 h7 h1,
      fun t1 h hm hb => (followUp_acts p dom ident s h hm hb t1).1, fun t1 d h hm hb => (followUp_acts p dom ident s h hm hb t1).2 d,
      fun t1 h hm hb => (delayResp_acts p dom ident s h hm hb t1).1, fun t4 t3 h hm hb => (delayResp_acts p dom ident s h hm hb t4).2 t3,
      fun h => ?_, fun h => ?_, fun a h hm h3 h1 => announce_acts p dom s h hm a h3 h1⟩
    · exact (if_neg (by simpa using h)).trans (if_pos hbad)
    · exact (if_neg (by simpa using h)).trans (if_pos hbad)
    · exact (if_neg (by simpa using h)).trans (if_pos hbad)
    · exact (if_neg (by simpa using h)).trans (if_pos hbad)
    · show execDelayReq s = _
      rw [execDelayReq, h]
    · show execDelayReq s = _
      obtain ⟨q, hq⟩ := Option.ne_none_iff_exists'.mp h
      rw [execDelayReq, hq]
      rfl
  · intro unit off40 fix falls
    obtain ⟨hmove0, hmove⟩ := servingPortMove_acts s
    obtain ⟨hhold0, hhold⟩ := holdoverLimit_acts s
    obtain ⟨hedge0, hfar, hnear⟩ := ppsEdge_acts s
    obtain ⟨hlapse0, hlapse⟩ := ppsLapse_acts s
    exact ⟨hmove0, hmove, hhold0, hhold, hedge0, hfar, hnear, hlapse0, hlapse, errRecompute_acts s, alignmentWord_acts s⟩

end Sys2Proof.Machine
end

section
/-! PROOFS. Rings (R498 to R508, R531, R538, R720). -/
namespace Sys2Proof.Machine

/-! ### Doorbells (R499 to R502) -/

theorem doorbell_direct {s : State} {r : Nat} {chead : Bool} {val : Nat} (h : ∀ e ∈ s.hw.qps, (r, chead, val) ∉ e.2.bells) :
    doorbell s r chead val = if chead then ringChead s r val else ringTail s r val := by
  have hnone : s.hw.qps.find? (fun e => e.2.bells.contains (r, chead, val)) = none :=
    List.find?_eq_none.mpr fun e he => by simpa using h e he
  unfold doorbell
  rw [hnone]

theorem doorbellBad_acts (s : State) (r : Nat) (k : Ring) :
    winCounts s (doorbellBad s r k) 0x140008 15 0 1 ∧ (doorbellBad s r k).ring r = some { k with dbBad := true } :=
  ⟨winCounts_wCount s 0x140008 0 1 (by decide), ring_setRing_self ..⟩

theorem doorbell_acts (r : Fin 16384) (val : Word) (chead : Bool) (s : State) :
    let x : Instr := if chead then .completionDoorbell r val else .doorbell r val
    (∀ e ∈ s.hw.qps, (r.val, chead, val.toNat) ∉ e.2.bells) →
    (s.ring r.val = none → exec x s = .next s) ∧
    ∀ k, s.ring r.val = some k →
      let ok := if chead then posAhead k.chead val.toNat ≤ posAhead k.chead k.cpos
        else posAhead k.head k.tail ≤ posAhead k.head val.toNat ∧ posAhead k.head val.toNat ≤ 2 ^ k.clog
      (ok → leads x s fun t => t.win = s.win ∧ ∃ k2, t.ring r.val = some k2 ∧ k2.dbBad = k.dbBad ∧
        k2.tail = (if chead then k.tail else val.toNat) ∧ k2.chead = (if chead then val.toNat else k.chead)) ∧
      (¬ ok → leads x s fun t => winCounts s t 0x140008 15 0 1 ∧ t.ring r.val = some { k with dbBad := true }) := by
  intro x hbells
  have hdef : exec x s = .next (if chead then ringChead s r.val val.toNat else ringTail s r.val val.toNat) := by
    rw [← doorbell_direct hbells]
    cases chead <;> rfl
  cases chead with
  | true =>
    refine ⟨fun h => hdef.trans (by rw [if_pos rfl, ringChead, h]), fun k hk => ?_⟩
    rw [if_pos rfl, ringChead, hk] at hdef
    dsimp only at hdef
    refine ⟨fun hok => ?_, fun hno => ?_⟩
    · rw [if_pos (by simpa using hok)] at hdef
      exact leads_of hdef ⟨rfl, _, ring_setRing_self .., rfl, rfl, rfl⟩
    · rw [if_neg (by simpa using hno)] at hdef
      exact leads_of hdef (doorbellBad_acts ..)
  | false =>
    refine ⟨fun h => hdef.trans (by rw [if_neg Bool.false_ne_true, ringTail, h]), fun k hk => ?_⟩
    rw [if_neg Bool.false_ne_true, ringTail, hk] at hdef
    dsimp only at hdef
    refine ⟨fun hok => ?_, fun hno => ?_⟩
    · rw [if_pos (by simpa using hok)] at hdef
      exact leads_of hdef ⟨rfl, _, ring_setRing_self .., rfl, rfl, rfl⟩
    · rw [if_neg (by simpa using hno)] at hdef
      exact leads_of hdef (doorbellBad_acts ..)

/-! ### Records taken (R498, R508, R512) -/

theorem commandTake_acts (s : State) : (nextRing s = none → exec .commandTake s = .next s) ∧
    ∀ r k, nextRing s = some r → s.ring r = some k → leads .commandTake s fun t =>
      let ws := wordsOfBytes (devRead s (k.cmd + 64 * (k.head % 2 ^ k.clog)) 64) 16
      t.hw.lastRing = r ∧ ∃ k2 f, t.ring r = some k2 ∧ k2.head = (k.head + 1) % 4294967296 ∧ k2.flight = k.flight ++ [f] ∧ f.pos = k.head ∧
        f.words = ws ∧ (fld (arg ws 0) 15 0 ∈ mailboxCodes → f.begun = false ∧ f.done = none) ∧
        (fld (arg ws 0) 15 0 ∉ mailboxCodes → f.done = some (csBadCode, 0#32, [])) := by
  have hdef : exec .commandTake s = .next (takeCommand s) := rfl
  refine ⟨fun h => by rw [hdef, takeCommand, h], fun r k hr hk => ?_⟩
  rw [takeCommand, hr] at hdef
  dsimp only at hdef
  rw [hk] at hdef
  refine leads_of hdef ?_
  intro ws
  refine ⟨rfl, _, _, mget_mset_self .., rfl, rfl, rfl, rfl, fun h => ?_, fun h => ?_⟩
  · have hin : mailboxCodes.contains (fld (arg ws 0) 15 0) = true := by simpa using h
    exact ⟨congrArg (! ·) hin, if_pos hin⟩
  · have hout : ¬ mailboxCodes.contains (fld (arg ws 0) 15 0) = true := by simpa using h
    exact if_neg hout

/-! ### Completion records (R503, R504) -/

/-- The words of a completion record. -/
def recordWords (k : Ring) (code status : Nat) (tag pos handle : Word) (res : List Word) : List Word :=
  [BitVec.ofNat 32 (packFields [(16, code), (8, status), (7, 0), (1, (k.cpos / 2 ^ k.qlog + 1) % 2)]), tag, pos, handle] ++
    (res ++ List.replicate 12 0#32).take 12

theorem recordWords_length (k : Ring) (code status : Nat) (tag pos handle : Word) (res : List Word) :
    (recordWords k code status tag pos handle res).length = 16 := by
  unfold recordWords
  rw [List.length_append, List.length_take, List.length_append, List.length_replicate]
  show 4 + _ = 16
  omega

theorem recordWords_head (k : Ring) {code : Nat} (hcode : code < 65536) (status : Nat) (tag pos handle : Word) (res : List Word) :
    fld (arg (recordWords k code status tag pos handle res) 0) 15 0 = code ∧
      fld (arg (recordWords k code status tag pos handle res) 0) 23 16 = status % 256 ∧
      fld (arg (recordWords k code status tag pos handle res) 0) 31 31 = (k.cpos / 2 ^ k.qlog + 1) % 2 := by
  have h0 : arg (recordWords k code status tag pos handle res) 0 =
      BitVec.ofNat 32 (packFields [(16, code), (8, status), (7, 0), (1, (k.cpos / 2 ^ k.qlog + 1) % 2)]) := rfl
  rw [h0]
  generalize k.cpos / 2 ^ k.qlog + 1 = n
  simp only [packFields, fld, BitVec.toNat_ofNat]
  omega

theorem writeRecord_acts {s : State} {k : Ring} {q : Qp} (hq : s.qp k.qp = some q) (he : q.err = false) (r code status : Nat) (tag pos handle : Word)
    (res : List Word) :
    let t := (writeRecord s r k code status tag pos handle res).1
    t.reply = some ⟨status, recordWords k code status tag pos handle res⟩ ∧ t.ring r = some { k with cpos := (k.cpos + 1) % 4294967296 } ∧
      JobsSent (s.setRing r { k with cpos := (k.cpos + 1) % 4294967296 }) t := by
  intro t
  unfold t writeRecord
  rw [hq]
  dsimp only
  rw [he, if_neg Bool.false_ne_true]
  have hsent := (qpSend_sent (s.setRing r { k with cpos := (k.cpos + 1) % 4294967296 }) k.qp 64 16).trans
    (answer_sent _ status (recordWords k code status tag pos handle res))
  refine ⟨rfl, ?_, hsent⟩
  have hrings := (congrArg (fun x : State => x.hw.rings) hsent.rest :)
  exact (congrArg (mget? · r) hrings).trans (ring_setRing_self ..)

theorem settleChannel_none {s : State} (h : ∀ e ∈ s.hw.chans, e.2.ending = none) (i : Nat) : settleChannel s i = s := by
  unfold settleChannel
  split
  · rfl
  · next c hc =>
    have hnone : c.ending = none := h _ (mem_of_mget hc)
    rw [hnone]

theorem foldl_settleChannel {s : State} (h : ∀ e ∈ s.hw.chans, e.2.ending = none) (l : List Nat) : l.foldl settleChannel s = s := by
  induction l with
  | nil => rfl
  | cons i l ih => rw [List.foldl_cons, settleChannel_none h, ih]

theorem settleClosing_none {s : State} (h : ∀ e ∈ s.hw.parts, e.2.closing = none) : settleClosing s = s := by
  have hnil : s.hw.parts.filter (fun e => e.2.closing.isSome && !(s.hw.rings.any fun r => r.2.part == e.1)) = [] :=
    List.filter_eq_nil_iff.mpr fun e he => by rw [h e he]; simp
  unfold settleClosing
  rw [hnil]
  rfl

theorem settleRing_none {s : State} {r : Nat} {k : Ring} (hk : s.ring r = some k) (h : k.ending = none) : settleRing s r = s := by
  unfold settleRing
  rw [hk]
  dsimp only
  rw [h]

theorem completionWrite_acts (r : Fin 16384) (s : State) (hchans : ∀ e ∈ s.hw.chans, e.2.ending = none) (hparts : ∀ e ∈ s.hw.parts, e.2.closing = none) :
    (s.ring r.val = none → exec (.completionWrite r) s = .next s) ∧
    ∀ k, s.ring r.val = some k →
      ((∀ f ∈ k.flight, f.done = none) → exec (.completionWrite r) s = .next s) ∧
      ∀ f d q, k.flight.find? (fun f => f.done.isSome) = some f → f.done = some d → f.sess = none → k.err = false → k.ending = none →
        s.qp k.qp = some q → q.err = false → leads (.completionWrite r) s fun t =>
          ∃ k2 ws, t.ring r.val = some k2 ∧ k2.cpos = (k.cpos + 1) % 4294967296 ∧ k2.flight = k.flight.filter (fun g => g.pos != f.pos) ∧
            t.reply = some ⟨d.1, ws⟩ ∧ fld (arg ws 0) 15 0 = fld (arg f.words 0) 15 0 ∧ fld (arg ws 0) 23 16 = d.1 % 256 ∧
            fld (arg ws 0) 31 31 = (k.cpos / 2 ^ k.qlog + 1) % 2 ∧ arg ws 1 = arg f.words 1 ∧ arg ws 2 = BitVec.ofNat 32 f.pos ∧
            arg ws 3 = d.2.1 ∧ ws.length = 16 := by
  have hdef : exec (.completionWrite r) s = .next (settleClosing (writeCompletion s r.val)) :=
    congrArg (fun x => Host.Outcome.next (settleClosing (writeCompletion x r.val))) (foldl_settleChannel hchans (s.hw.chans.map Prod.fst))
  have hquiet (h : writeCompletion s r.val = s) : exec (.completionWrite r) s = .next s := by rw [hdef, h, settleClosing_none hparts]
  refine ⟨fun h => hquiet (by rw [writeCompletion, h]), fun k hk => ⟨fun h => hquiet ?_, fun f d q hf hd hsess herr hend hq hqe => ?_⟩⟩
  · have hnone : k.flight.find? (fun f => f.done.isSome) = none := List.find?_eq_none.mpr fun f hf => by rw [h f hf]; decide
    rw [writeCompletion, hk]
    dsimp only
    rw [hnone]
  · have hcode : fld (arg f.words 0) 15 0 < 65536 := fld_lt _ 15 0
    obtain ⟨hreply, hring, hsent⟩ := writeRecord_acts (k := { k with flight := k.flight.filter fun g => g.pos != f.pos }) hq hqe r.val
      (fld (arg f.words 0) 15 0) d.1 (arg f.words 1) (BitVec.ofNat 32 f.pos) d.2.1 d.2.2
    rw [writeCompletion, hk] at hdef
    dsimp only at hdef
    rw [hf] at hdef
    dsimp only at hdef
    rw [if_neg (by rw [herr]; decide), hd, hsess] at hdef
    dsimp only [Option.getD_some] at hdef
    rw [settleRing_none hring hend, settleClosing_none] at hdef
    · obtain ⟨h0, h1, h2⟩ := recordWords_head { k with flight := k.flight.filter fun g => g.pos != f.pos } hcode d.1 (arg f.words 1)
        (BitVec.ofNat 32 f.pos) d.2.1 d.2.2
      exact leads_of hdef ⟨_, _, hring, rfl, rfl, hreply, h0, h1, h2, rfl, rfl, rfl, recordWords_length ..⟩
    · rw [hsent.parts]
      exact hparts

/-! ### Events (R531, R538) -/

theorem reportBroken_told {s : State} (h : ∀ e ∈ s.hw.chans, e.2.told = true) : reportBroken s = s := by
  have hnil : s.hw.chans.filter (fun e => !e.2.told && (epState (s.core e.2.src) e.2.sep == chBroken || epState (s.core e.2.dst) e.2.rep == chBroken)) = [] :=
    List.filter_eq_nil_iff.mpr fun e he => by rw [h e he]; simp
  unfold reportBroken
  rw [hnil]
  rfl

/-- No event goes to a ring that takes none. -/
theorem foldl_eventTo_deaf {s : State} (h : ∀ g ∈ s.hw.rings, g.2.events = false) (e : Event) (l : List Nat) : l.foldl (eventTo e) s = s := by
  induction l with
  | nil => rfl
  | cons r l ih =>
    have hr : eventTo e s r = s := by
      unfold eventTo
      split
      · rfl
      · next k hk =>
        have hoff : k.events = false := h _ (mem_of_mget hk)
        exact if_pos (Or.inl (by rw [hoff]; rfl))
    rw [List.foldl_cons, hr, ih]

theorem eventTo_acts {s : State} {r : Nat} {k : Ring} {q : Qp} (e : Event) (hk : s.ring r = some k) (hev : k.events = true) (herr : k.err = false)
    (hpart : k.part = 0 ∨ k.part = e.part) (hat : k.evAt.length < 64) (hlost : k.lost = 0) (hq : s.qp k.qp = some q) (hqe : q.err = false) :
    (eventTo e s r).hw.events = s.hw.events ∧ ∃ ws, (eventTo e s r).reply = some ⟨csOk, ws⟩ ∧
      fld (arg ws 0) 15 0 = 0xFFFF ∧ arg ws 2 = BitVec.ofNat 32 (k.evSeq + 1) ∧ arg ws 3 = e.obj ∧ arg ws 4 = BitVec.ofNat 32 e.kind := by
  obtain ⟨hreply, _, hsent⟩ := writeRecord_acts (k := { k with evSeq := k.evSeq + 1, evAt := k.evAt ++ [k.cpos] }) hq hqe r
    0xFFFF csOk 0#32 (BitVec.ofNat 32 (k.evSeq + 1)) e.obj (BitVec.ofNat 32 e.kind :: e.words)
  have heq : eventTo e s r = (writeRecord s r { k with evSeq := k.evSeq + 1, evAt := k.evAt ++ [k.cpos] } 0xFFFF csOk 0#32
      (BitVec.ofNat 32 (k.evSeq + 1)) e.obj (BitVec.ofNat 32 e.kind :: e.words)).1 := by
    unfold eventTo
    rw [hk]
    dsimp only
    have hgo : ¬ ((!k.events) = true ∨ k.err = true ∨ (k.part ≠ 0 ∧ k.part ≠ e.part)) := by
      rw [hev, herr]
      rintro (h | h | ⟨h1, h2⟩)
      · cases h
      · cases h
      · exact hpart.elim h1 h2
    rw [if_neg hgo, if_neg (Nat.not_le.mpr hat), if_pos hlost, hk]
  rw [heq]
  have hevents := (congrArg (fun x : State => x.hw.events) hsent.rest :)
  obtain ⟨h0, _⟩ := recordWords_head { k with evSeq := k.evSeq + 1, evAt := k.evAt ++ [k.cpos] } (code := 0xFFFF) (by decide) csOk 0#32
    (BitVec.ofNat 32 (k.evSeq + 1)) e.obj (BitVec.ofNat 32 e.kind :: e.words)
  exact ⟨hevents, _, hreply, h0, rfl, rfl, rfl⟩

theorem eventReport_acts (s : State) (htold : ∀ e ∈ s.hw.chans, e.2.told = true) :
    (s.hw.events = [] → exec .eventReport s = .next s) ∧
    ∀ e rest, s.hw.events = e :: rest →
      ((∀ g ∈ s.hw.rings, g.2.events = false) → leads .eventReport s fun t => t.hw.events = rest ∧ t.reply = s.reply) ∧
      ∀ r k q, s.hw.rings = [(r, k)] → k.events = true → k.err = false → k.part = 0 ∨ k.part = e.part → k.evAt.length < 64 → k.lost = 0 →
        s.qp k.qp = some q → q.err = false → leads .eventReport s fun t => t.hw.events = rest ∧ ∃ ws, t.reply = some ⟨csOk, ws⟩ ∧
          fld (arg ws 0) 15 0 = 0xFFFF ∧ arg ws 2 = BitVec.ofNat 32 (k.evSeq + 1) ∧ arg ws 3 = e.obj ∧ arg ws 4 = BitVec.ofNat 32 e.kind := by
  have hdef : exec .eventReport s = .next (reportEvent s) := congrArg (fun x => Host.Outcome.next (reportEvent x)) (reportBroken_told htold)
  refine ⟨fun h => by rw [hdef, reportEvent, h], fun e rest h => ?_⟩
  rw [reportEvent, h] at hdef
  dsimp only at hdef
  refine ⟨fun hdeaf => ?_, fun r k q hrings hev herr hpart hat hlost hq hqe => ?_⟩
  · rw [foldl_eventTo_deaf (s := { s with hw := { s.hw with events := rest } }) hdeaf] at hdef
    exact leads_of hdef ⟨rfl, rfl⟩
  · have hk : ({ s with hw := { s.hw with events := rest } } : State).ring r = some k := by
      show mget? s.hw.rings r = some k
      rw [hrings, mget?, if_pos rfl]
    have hl : s.hw.rings.map Prod.fst = [r] := by rw [hrings]; rfl
    rw [hl] at hdef
    exact leads_of hdef (eventTo_acts (s := { s with hw := { s.hw with events := rest } }) e hk hev herr hpart hat hlost hq hqe)

/-! ### Keys that have had their time (R715, R720) -/

theorem oldKeyErase_acts (p : Nat) (s : State) :
    ((∀ k, s.hpart p = some k → k.oldKey = none) → exec (.oldKeyErase p) s = .next s) ∧
    ∀ k e, s.hpart p = some k → k.oldKey = some e → leads (.oldKeyErase p) s fun t =>
      t.now = max s.now e.2 ∧ t.hpart p = some { k with oldKey := none } := by
  have hdef : exec (.oldKeyErase p) s = execOldKeyErase p s := rfl
  refine ⟨fun h => ?_, fun k e hk he => ?_⟩
  · rw [hdef, execOldKeyErase]
    split
    · rfl
    · next k hk => rw [h k hk]
  · rw [execOldKeyErase, hk] at hdef
    dsimp only at hdef
    rw [he] at hdef
    exact leads_of hdef ⟨rfl, hpart_setPart_self ..⟩

theorem ephemeralKeyExpire_acts (id : Word) (s : State) :
    ((∀ e, mget? s.hw.eph id.toNat = some e → e.used = true) → exec (.ephemeralKeyExpire id) s = .next s) ∧
    ∀ e, mget? s.hw.eph id.toNat = some e → e.used = false → leads (.ephemeralKeyExpire id) s fun t =>
      t.now = max s.now (e.made + 96000000000) ∧ (mkeysRising s.hw.eph = true → mget? t.hw.eph id.toNat = none) := by
  have hdef : exec (.ephemeralKeyExpire id) s = execEphemeralKeyExpire id s := rfl
  refine ⟨fun h => ?_, fun e he hu => ?_⟩
  · rw [hdef, execEphemeralKeyExpire]
    split
    · rfl
    · next e he => exact if_pos (h e he)
  · rw [execEphemeralKeyExpire, he] at hdef
    dsimp only at hdef
    rw [if_neg (by rw [hu]; decide)] at hdef
    exact leads_of hdef ⟨rfl, fun h => mget_merase_self _ _ h⟩

/-- Settles O40: doorbells, records taken and completed, events and keys. -/
theorem ringsMove : Obligations.RingsMove :=
  ⟨doorbell_acts, commandTake_acts, completionWrite_acts, eventReport_acts, fun p s => (oldKeyErase_acts p s).1, fun p s => (oldKeyErase_acts p s).2,
    fun id s => (ephemeralKeyExpire_acts id s).1, fun id s => (ephemeralKeyExpire_acts id s).2⟩

end Sys2Proof.Machine
end

section
/-! PROOFS. Mailbox commands that make and end objects (R325 to R328, R533 to R537). -/
namespace Sys2Proof.Machine

/-! ### Rings in flight -/

theorem mset_length_of_some {α : Type} {m : Map α} {k : Nat} {v : α} (h : mget? m k = some v) (w : α) : (mset m k w).length = m.length := by
  induction m with
  | nil => cases h
  | cons e t ih =>
    obtain ⟨j, x⟩ := e
    rw [mget?] at h
    rw [mset]
    split at h
    · next hj => rw [if_pos hj]; rfl
    · next hj =>
      split at h
      · cases h
      · next hlt => rw [if_neg hj, if_neg hlt, List.length_cons, ih h, List.length_cons]

/-- A free index stays free when a ring that stands is changed. -/
theorem freeIndex_begun {s : State} {r pos : Nat} {k : Ring} (h : s.ring r = some k) (lo hi : Nat) :
    freeIndex (s.beginAt r pos k).hw.rings lo hi = freeIndex s.hw.rings lo hi := by
  have hk : mget? s.hw.rings r = some k := h
  have hlen : (s.beginAt r pos k).hw.rings.length = s.hw.rings.length := mset_length_of_some hk _
  have hnone (i : Nat) : (mget? (s.beginAt r pos k).hw.rings i).isNone = (mget? s.hw.rings i).isNone := by
    by_cases hi : i = r
    · rw [hi, hk]
      exact (congrArg Option.isNone (mget_mset_self s.hw.rings r (k.beginAt pos)) :)
    · exact congrArg Option.isNone (mget_mset_ne _ _ _ _ hi)
  unfold freeIndex
  rw [hlen]
  simp only [hnone]

theorem freeIndex_free {α : Type} {m : Map α} {lo hi i : Nat} (h : freeIndex m lo hi = some i) : mget? m i = none := by
  have hi := List.find?_some h
  simp only [Bool.and_eq_true, Option.isNone_iff_eq_none] at hi
  exact hi.2

theorem ringOpen_of_ring {a b : State} {r pos : Nat} (h : ringOpen a r pos) (he : b.ring r = a.ring r) : ringOpen b r pos := by
  obtain ⟨k, hk, hf⟩ := h
  exact ⟨k, he.trans hk, hf⟩

theorem finishCmd_ring_ne {n r : Nat} (h : n ≠ r) (a : State) (pos st : Nat) (hd : Word) (rs : List Word) :
    (finishCmd a r pos st hd rs).ring n = a.ring n := by
  unfold finishCmd
  split
  · rfl
  · exact mget_mset_ne _ _ _ _ h

theorem scopeCheck_ok {s : State} {w : Word} (h : w = 0#32 ∨ hOk s hPart w) : (scopeCheck s w).1 = false := by
  unfold scopeCheck
  split
  · rfl
  · next hne => exact badHandle_ok (h.resolve_left hne)

/-! ### CREATE_RING and DESTROY_RING (R533) -/

theorem createRing_acts (r : Fin 16384) (pos : Word) :
    mbxRow (.createRing r pos) r.val pos 0x28 anyRec
      (fun s k ws => fld (arg ws 2) 31 9 = 0 ∧ (arg ws 3 = 0#32 ∨ hOk s hPart (arg ws 3)) ∧ hOk s hKey (arg ws 6) ∧ hOk s hQp (arg ws 10) ∧
        k.part = 0 ∧ (badAddr (arg64 ws 4) (64 * 2 ^ fld (arg ws 2) 3 0) 4096).1 = false ∧ arg64 ws 7 % 64 = 0 ∧
        ringSizesOk (fld (arg ws 2) 3 0) (fld (arg ws 2) 7 4) (bit (arg ws 2) 8) = true ∧
        (∃ m q, mget? s.hw.keys (hIndex (arg ws 6)) = some m ∧ s.qp (hIndex (arg ws 10)) = some q ∧ m.part = hIndex (arg ws 3) ∧
          q.part = hIndex (arg ws 3) ∧ m.write = true ∧ m.addr ≤ arg64 ws 4 ∧ arg64 ws 4 + 64 * 2 ^ fld (arg ws 2) 3 0 ≤ m.addr + m.bytes) ∧
        (freeIndex s.hw.rings 1 16384).isSome = true ∧ (freeIndex s.hw.keys 0 65536).isSome = true)
      (fun s _ ws t st h res => ∃ n d g, freeIndex s.hw.rings 1 16384 = some n ∧ freeIndex s.hw.keys 0 65536 = some d ∧
        st = csOk ∧ h = handleOf s hRing n ∧ t.ring n = some g ∧ g.part = hIndex (arg ws 3) ∧ g.cmd = arg64 ws 4 ∧ g.cq = arg64 ws 7 ∧
        g.qp = hIndex (arg ws 10) ∧ g.head = 0 ∧ g.tail = 0 ∧ g.cpos = 0 ∧ g.flight = [] ∧
        res = [BitVec.ofNat 32 (mbxBase + 16 * n), BitVec.ofNat 32 ((mbxBase + 16 * n) / 2 ^ 32), handleOf s hKey d]) := by
  refine mbxLeads_all (body := _) (fun _ => rfl) (fun a k ws h => ?_) (fun s k ws hs hw hown => ?_) anyRec
  · dsimp only
    rw [h]
    split
    · exact refused_ends rfl
    · exact ⟨_, _, rfl⟩
  obtain ⟨hres, hpart, hkey, hqp, hdev, haddr, hcq, hsizes, ⟨m, q, hm, hq, hmp, hqp2, hmw, hlo, hhi⟩, hn, hd⟩ := hown
  obtain ⟨n, hn⟩ := Option.isSome_iff_exists.mp hn
  obtain ⟨d, hd⟩ := Option.isSome_iff_exists.mp hd
  extract_lets clog qlog ev part cmd key qp st
  have hkeyv : key = some m := hm
  have hqpv : qp = some q := hq
  have hst : st = csOk := judge_ok fun c hc => by
    simp only [List.mem_cons, List.not_mem_nil, or_false] at hc
    rcases hc with rfl | rfl | rfl | rfl | rfl | rfl | rfl | rfl | rfl | rfl
    · simp [hw, hres]
    · exact scopeCheck_ok (hpart.imp_right (hOk_beginAt hs))
    · exact badHandle_ok (hOk_beginAt hs hkey)
    · exact badHandle_ok (hOk_beginAt hs hqp)
    · simp [notDevice, hdev]
    · simp [hkeyv, hqpv, hmp, hqp2, part]
    · exact haddr
    · simp [hcq]
    · simp [clog, qlog, ev, hsizes]
    · simp only [hkeyv, hmw, Bool.not_true, Bool.false_or, Bool.not_eq_false', decide_eq_true_eq]
      exact ⟨hlo, hhi⟩
  have hne : n ≠ r.val := fun h => by
    have hfree := freeIndex_free hn
    rw [h, show mget? s.hw.rings r.val = some k from hs.1] at hfree
    cases hfree
  split
  · next n2 d2 hn2 hd2 =>
    obtain rfl : n = n2 := Option.some.inj (hn.symm.trans ((freeIndex_begun hs.1 1 16384).symm.trans hn2))
    obtain rfl : d = d2 := Option.some.inj (hd.symm.trans hd2)
    rw [passed_goes hst]
    extract_lets db k1 mk a1
    have hopen : ringOpen a1 r.val pos.toNat := ringOpen_of_ring (beginAt_open hs) (mget_mset_ne _ _ _ _ (Ne.symm hne))
    refine cmdDone_finish hopen ⟨n, d, k1, hn, hd, rfl, rfl, ?_, rfl, rfl, rfl, rfl, rfl, rfl, rfl, rfl, rfl⟩
    rw [finishCmd_ring_ne hne]
    exact mget_mset_self ..
  · next hno => exact (hno n d ((freeIndex_begun hs.1 1 16384).trans hn) hd).elim

/-- The generation of one object does not follow that of another. -/
theorem genOf_bumpGen_ne (s : State) {ty i ty2 j : Nat} (h : genKey ty i ≠ genKey ty2 j) : genOf (bumpGen s ty2 j) ty i = genOf s ty i :=
  mgetD_mset_ne _ _ _ _ _ h

theorem hIndex_lt (w : Word) : hIndex w < 1048576 := fld_lt w 19 0

/-- A ring that goes, and its generation. -/
theorem dropRing_acts {s : State} {n : Nat} {g : Ring} (hg : s.ring n = some g) (hn : n < 1048576) (hrise : mkeysRising s.hw.rings = true) :
    (dropRing s n).ring n = none ∧ (∀ r, r ≠ n → (dropRing s n).ring r = s.ring r) ∧ genOf (dropRing s n) hRing n = genNext (genOf s hRing n) := by
  unfold dropRing
  rw [hg]
  dsimp only
  refine ⟨mget_merase_self _ _ hrise, fun r hr => mget_merase_ne _ _ _ hr hrise, ?_⟩
  rw [genOf_bumpGen, genOf_bumpGen_ne _ (by unfold genKey hRing hKey; omega)]
  rfl

theorem destroyRing_acts (r : Fin 16384) (pos : Word) :
    mbxRow (.destroyRing r pos) r.val pos 0x29 anyRec
      (fun s k ws => hOk s hRing (arg ws 2) ∧ k.part = 0 ∧ hIndex (arg ws 2) ≠ 0 ∧ hIndex (arg ws 2) ≠ r.val ∧ mkeysRising s.hw.rings = true ∧
        ∃ g, s.ring (hIndex (arg ws 2)) = some g ∧ g.ending = none ∧ g.flight = [])
      (fun s _ ws t st h _ => st = csOk ∧ h = handleOf s hRing (hIndex (arg ws 2)) ∧ t.ring (hIndex (arg ws 2)) = none ∧
        genOf t hRing (hIndex (arg ws 2)) = genNext (genOf s hRing (hIndex (arg ws 2)))) := by
  refine mbxLeads_all (body := _) (fun _ => rfl) (fun a k ws h => ?_) (fun s k ws hs hw hown => ?_) anyRec
  · dsimp only
    rw [h]
    split
    · exact ⟨_, _, rfl⟩
    · exact refused_ends rfl
  obtain ⟨hring, hdev, h0, hne, hrise, g, hg, hend, hfly⟩ := hown
  extract_lets n st
  have hst : st = csOk := judge_ok fun c hc => by
    simp only [List.mem_cons, List.not_mem_nil, or_false] at hc
    rcases hc with rfl | rfl | rfl | rfl
    · exact hw
    · exact badHandle_ok (hOk_beginAt hs hring)
    · simp [notDevice, hdev]
    · simpa using h0
  have hg' : (s.beginAt r.val pos.toNat k).ring n = some g := (ring_setRing_ne _ _ _ _ hne).trans hg
  split
  · next hnone => cases hg'.symm.trans hnone
  next g2 hg2 =>
  obtain rfl : g = g2 := Option.some.inj (hg'.symm.trans hg2)
  rw [passed_goes hst, hend]
  rw [if_neg (by decide)]
  generalize hb : (s.beginAt r.val pos.toNat k).setRing n { g with ending := some (r.val, pos.toNat) } = b
  have hbn : b.ring n = some { g with ending := some (r.val, pos.toNat) } := by rw [← hb]; exact ring_setRing_self ..
  have hbr : b.ring r.val = (s.beginAt r.val pos.toNat k).ring r.val := by rw [← hb]; exact ring_setRing_ne _ _ _ _ (Ne.symm hne)
  have hbrise : mkeysRising b.hw.rings = true := by rw [← hb]; exact mset_keysRising _ _ _ (mset_keysRising _ _ _ hrise)
  have hbgen (ty i : Nat) : genOf b ty i = genOf s ty i := by rw [← hb]; rfl
  have hsettle : settleRing b n = finishCmd (dropRing b n) r.val pos.toNat csOk (handleOf b hRing n) [] := by
    unfold settleRing
    rw [hbn]
    dsimp only
    rw [if_neg (Ne.symm hne), hfly]
    rfl
  obtain ⟨hgone, hother, hgen⟩ := dropRing_acts hbn (hIndex_lt _) hbrise
  rw [hsettle]
  have hopen : ringOpen (dropRing b n) r.val pos.toNat := ringOpen_of_ring (beginAt_open hs) ((hother _ (Ne.symm hne)).trans hbr)
  refine cmdDone_finish hopen ⟨rfl, ?_, ?_, ?_⟩
  · rw [handleOf, hbgen]
    rfl
  · exact (finishCmd_ring_ne hne ..).trans hgone
  · obtain ⟨m, hm⟩ := finishCmd_form (dropRing b n) r.val pos.toNat csOk (handleOf b hRing n) []
    rw [hm]
    exact hgen.trans (congrArg genNext (hbgen ..))

/-! ### Queue pairs (R535) -/

theorem lineRate_port (s : State) {a b : Qp} (h : a.port = b.port) : lineRate s a = lineRate s b := by
  unfold lineRate
  rw [h]

/-- The checks on the scope that a command names. -/
theorem scopes_ok {s : State} {r : Nat} {pos : Word} {code : Nat} {k : Ring} {ws : List Word} (hs : cmdStands s r pos code k ws) {w : Word}
    (h : (w = 0#32 ∧ k.part = 0) ∨ (w ≠ 0#32 ∧ hOk s hPart w)) :
    (scopeCheck (s.beginAt r pos.toNat k) w).1 = false ∧ (scopeDevice k w).1 = false := by
  rcases h with ⟨h0, hk⟩ | ⟨hne, hok⟩
  · exact ⟨scopeCheck_ok (Or.inl h0), by simp [scopeDevice, hk]⟩
  · exact ⟨scopeCheck_ok (Or.inr (hOk_beginAt hs hok)), by simp [scopeDevice, hne]⟩

theorem createQp_acts (r : Fin 16384) (pos : Word) :
    mbxRow (.createQp r pos) r.val pos 0x38 anyRec
      (fun s k ws => qpWordsOk (arg ws 3) (arg ws 5) (arg ws 6) (arg ws 7) = true ∧ fld (arg ws 3) 8 6 ≤ 4 ∧ inScope k (hIndex (arg ws 2)) ∧
        ((arg ws 2 = 0#32 ∧ k.part = 0) ∨ (arg ws 2 ≠ 0#32 ∧ hOk s hPart (arg ws 2))) ∧ (freeIndex s.hw.qps 2 65536).isSome = true)
      (fun s _ ws t st h _ => ∃ q g, freeIndex s.hw.qps 2 65536 = some q ∧ st = csOk ∧ h = handleOf s hQp q ∧ t.qp q = some g ∧
        g.part = hIndex (arg ws 2) ∧ g.port = fld (arg ws 3) 2 0 ∧ g.psn = fld (arg ws 6) 23 0 ∧ g.epsn = fld (arg ws 7) 23 0 ∧
        g.rc = lineRate s g ∧ g.rt = lineRate s g ∧ g.alpha = dNat 1 ∧ g.err = false) := by
  refine mbxLeads_all (body := _) (fun _ => rfl) (fun a k ws h => ?_) (fun s k ws hs hw hown => ?_) anyRec
  · dsimp only
    rw [h]
    split
    · exact ⟨_, _, rfl⟩
    · exact refused_ends rfl
  obtain ⟨hwords, hmtu, hscope, hpart, hfree⟩ := hown
  obtain ⟨q, hq⟩ := Option.isSome_iff_exists.mp hfree
  obtain ⟨hchk, hdev⟩ := scopes_ok hs hpart
  extract_lets part st
  have hst : st = csOk := judge_ok fun c hc => by
    simp only [List.mem_cons, List.not_mem_nil, or_false] at hc
    rcases hc with rfl | rfl | rfl | rfl | rfl
    · simp [hw, hwords]
    · exact hchk
    · exact hdev
    · exact outOfScope_ok hscope
    · simpa using hmtu
  split
  · next hnone => cases hq.symm.trans hnone
  next q2 hq2 =>
  obtain rfl : q = q2 := Option.some.inj (hq.symm.trans hq2)
  rw [passed_goes hst]
  extract_lets a1
  obtain ⟨m, hm⟩ := finishCmd_form a1 r.val pos.toNat csOk (handleOf a1 hQp q) []
  refine cmdDone_finish (ringOpen_of_rings (beginAt_open hs) rfl) ⟨q, _, hq, rfl, rfl, by rw [hm]; exact mget_mset_self .., rfl, rfl, rfl, rfl, ?_, ?_, rfl, rfl⟩
  · exact lineRate_port s rfl
  · exact lineRate_port s rfl

theorem any_qp_begun {m : Map Ring} {r : Nat} {k k2 : Ring} (h : mget? m r = some k) (hqp : k2.qp = k.qp) (q : Nat) :
    (mset m r k2).any (fun e => e.2.qp == q) = m.any (fun e => e.2.qp == q) := by
  induction m with
  | nil => cases h
  | cons e t ih =>
    obtain ⟨j, x⟩ := e
    rw [mget?] at h
    rw [mset]
    split at h
    · next hj =>
      cases h
      rw [if_pos hj, List.any_cons, List.any_cons, hqp]
    · next hj =>
      split at h
      · cases h
      · next hlt => rw [if_neg hj, if_neg hlt, List.any_cons, List.any_cons, ih h]

theorem qpInUse_begun {s : State} {r pos : Nat} {k : Ring} (h : s.ring r = some k) (q : Nat) : qpInUse (s.beginAt r pos k) q = qpInUse s q := by
  have e : (s.beginAt r pos k).hw.rings.any (fun e => e.2.qp == q) = s.hw.rings.any (fun e => e.2.qp == q) := any_qp_begun (k2 := k.beginAt pos) h rfl q
  unfold qpInUse
  rw [e]
  rfl

theorem destroyQp_acts (r : Fin 16384) (pos : Word) :
    mbxRow (.destroyQp r pos) r.val pos 0x39 anyRec
      (fun s k ws => hOk s hQp (arg ws 2) ∧ qpInUse s (hIndex (arg ws 2)) = false ∧ mkeysRising s.hw.qps = true ∧
        ∃ q, s.qp (hIndex (arg ws 2)) = some q ∧ inScope k q.part)
      (fun s _ ws t st h _ => st = csOk ∧ h = arg ws 2 ∧ t.qp (hIndex (arg ws 2)) = none ∧
        genOf t hQp (hIndex (arg ws 2)) = genNext (genOf s hQp (hIndex (arg ws 2)))) := by
  refine mbxLeads_all (body := _) (fun _ => rfl) (fun a k ws h => ?_) (fun s k ws hs hw hown => ?_) anyRec
  · exact refused_ends (by rw [h]; rfl)
  obtain ⟨hqp, huse, hrise, g, hg, hscope⟩ := hown
  extract_lets q part st _ a1
  have hpart : part = g.part := by
    show (((s.beginAt r.val pos.toNat k).qp q).map Qp.part).getD 0 = _
    rw [show (s.beginAt r.val pos.toNat k).qp q = some g from hg]
    rfl
  have hst : st = csOk := judge_ok fun c hc => by
    simp only [List.mem_cons, List.not_mem_nil, or_false] at hc
    rcases hc with rfl | rfl | rfl | rfl | rfl
    · exact hw
    · exact badHandle_ok (hOk_beginAt hs hqp)
    · rw [hpart]
      rcases hscope with h | h
      · simp [h]
      · simp [h]
    · rw [hpart]
      exact outOfScope_ok hscope
    · exact (qpInUse_begun hs.1 _).trans huse
  rw [passed_goes hst]
  obtain ⟨m, hm⟩ := finishCmd_form a1 r.val pos.toNat csOk (arg ws 2) []
  refine cmdDone_finish (ringOpen_of_rings (beginAt_open hs) rfl) ⟨rfl, rfl, ?_⟩
  rw [hm]
  exact ⟨mget_merase_self _ _ hrise, genOf_bumpGen ..⟩

/-! ### Memory keys (R536) -/

theorem registerMemory_acts (r : Fin 16384) (pos : Word) :
    mbxRow (.registerMemory r pos) r.val pos 0x3A anyRec
      (fun s k ws => fld (arg ws 7) 31 2 = 0 ∧ inScope k (hIndex (arg ws 2)) ∧
        ((arg ws 2 = 0#32 ∧ k.part = 0) ∨ (arg ws 2 ≠ 0#32 ∧ hOk s hPart (arg ws 2))) ∧
        (badAddr (arg64 ws 3) (arg64 ws 5) 1).1 = false ∧ ownsRange s (hIndex (arg ws 2)) (arg64 ws 3) (arg64 ws 5) = true ∧
        arg64 ws 5 ≠ 0 ∧ (freeIndex s.hw.keys 0 65536).isSome = true)
      (fun s _ ws t st h _ => ∃ i, freeIndex s.hw.keys 0 65536 = some i ∧ st = csOk ∧ h = handleOf s hKey i ∧
        mget? t.hw.keys i = some ⟨hIndex (arg ws 2), arg64 ws 3, arg64 ws 5, bit (arg ws 7) 0, bit (arg ws 7) 1, none⟩) := by
  refine mbxLeads_all (body := _) (fun _ => rfl) (fun a k ws h => ?_) (fun s k ws hs hw hown => ?_) anyRec
  · dsimp only
    rw [h]
    split
    · exact ⟨_, _, rfl⟩
    · exact refused_ends rfl
  obtain ⟨hres, hscope, hpart, haddr, howns, hn, hfree⟩ := hown
  obtain ⟨i, hi⟩ := Option.isSome_iff_exists.mp hfree
  obtain ⟨hchk, hdev⟩ := scopes_ok hs hpart
  extract_lets part n st mk
  have hst : st = csOk := judge_ok fun c hc => by
    simp only [List.mem_cons, List.not_mem_nil, or_false] at hc
    rcases hc with rfl | rfl | rfl | rfl | rfl | rfl | rfl
    · simp [hw, hres]
    · exact hchk
    · exact hdev
    · exact outOfScope_ok hscope
    · exact haddr
    · have howns' : ownsRange (s.beginAt r.val pos.toNat k) part (arg64 ws 3) n = true := howns
      simp [foreignRange, howns']
    · simpa using hn
  split
  · next hnone => cases hi.symm.trans hnone
  next j hj =>
  obtain rfl : i = j := Option.some.inj (hi.symm.trans hj)
  rw [passed_goes hst]
  extract_lets a1
  obtain ⟨m, hm⟩ := finishCmd_form a1 r.val pos.toNat csOk (handleOf a1 hKey i) []
  exact cmdDone_finish (ringOpen_of_rings (beginAt_open hs) rfl) ⟨i, hi, rfl, rfl, by rw [hm]; exact mget_mset_self ..⟩

theorem deregisterMemory_acts (r : Fin 16384) (pos : Word) :
    mbxRow (.deregisterMemory r pos) r.val pos 0x3B anyRec
      (fun s k ws => hOk s hKey (arg ws 2) ∧ mkeysRising s.hw.keys = true ∧
        ∃ m, mget? s.hw.keys (hIndex (arg ws 2)) = some m ∧ inScope k m.part ∧ m.ring = none)
      (fun s _ ws t st h _ => st = csOk ∧ h = arg ws 2 ∧ mget? t.hw.keys (hIndex (arg ws 2)) = none ∧
        genOf t hKey (hIndex (arg ws 2)) = genNext (genOf s hKey (hIndex (arg ws 2)))) := by
  refine mbxLeads_all (body := _) (fun _ => rfl) (fun a k ws h => ?_) (fun s k ws hs hw hown => ?_) anyRec
  · exact refused_ends (by rw [h]; rfl)
  obtain ⟨hkey, hrise, g, hg, hscope, hfree⟩ := hown
  extract_lets i m part st _ a1
  have hm : m = some g := hg
  have hpart : part = g.part := by
    show (m.map MemKey.part).getD 0 = _
    rw [hm]
    rfl
  have hst : st = csOk := judge_ok fun c hc => by
    simp only [List.mem_cons, List.not_mem_nil, or_false] at hc
    rcases hc with rfl | rfl | rfl | rfl | rfl
    · exact hw
    · exact badHandle_ok (hOk_beginAt hs hkey)
    · rw [hpart]
      rcases hscope with h | h
      · simp [h]
      · simp [h]
    · rw [hpart]
      exact outOfScope_ok hscope
    · simp [hm, hfree]
  rw [passed_goes hst]
  obtain ⟨m2, hm2⟩ := finishCmd_form a1 r.val pos.toNat csOk (arg ws 2) []
  refine cmdDone_finish (ringOpen_of_rings (beginAt_open hs) rfl) ⟨rfl, rfl, ?_⟩
  rw [hm2]
  exact ⟨mget_merase_self _ _ hrise, genOf_bumpGen ..⟩

/-! ### Channels (R325 to R328) -/

theorem epReg_ne {e o p : Nat} (h : o ≠ p) : epReg e o ≠ epReg e p := by
  unfold epReg
  omega

/-- An endpoint set up has the role it is given. -/
theorem epRole_setupEp (k : Core) (e hq base log st peer pe : Nat) (handle : Word) {role : Nat} (h : role < 4) :
    epRole (setupEp k e role hq base log st peer pe handle) e = role := by
  have hcfg : cReg (setupEp k e role hq base log st peer pe handle) (epReg e epCfg) = BitVec.ofNat 32 (packFields [(2, role), (2, 0), (4, hq)]) := by
    unfold setupEp
    extract_lets w k1
    have hk1 : cReg k1 (epReg e epCfg) = BitVec.ofNat 32 (packFields [(2, role), (2, 0), (4, hq)]) := by
      simp only [k1, w]
      rw [cReg_cSet_ne _ _ _ _ (epReg_ne (by decide)), cReg_cSet_ne _ _ _ _ (epReg_ne (by decide)), cReg_cSet_ne _ _ _ _ (epReg_ne (by decide)),
        cReg_cSet_ne _ _ _ _ (epReg_ne (by decide)), cReg_cSet_ne _ _ _ _ (epReg_ne (by decide)), cReg_cSet_self]
    have hend : cReg (cFld (cSet k1 (epReg e epHandle) handle) (epReg e epResult) 31 16 0) (epReg e epCfg) = cReg k1 (epReg e epCfg) := by
      rw [cReg_cFld_ne _ _ _ _ _ _ (epReg_ne (by decide)), cReg_cSet_ne _ _ _ _ (epReg_ne (by decide))]
    exact hend.trans hk1
  rw [epRole, hcfg]
  simp only [packFields, fld, BitVec.toNat_ofNat]
  omega

theorem epRole_kept (k : Core) (e : Nat) : epRole { k with outbox := [], check := false } e = epRole k e := rfl

theorem epRole_writeStatus (k : Core) (e f t st : Nat) : epRole (writeStatus k e t st) f = epRole k f := rfl

theorem openChannel_acts (r : Fin 16384) (pos : Word) :
    mbxRow (.openChannel r pos) r.val pos 0x30 anyRec
      (fun s k ws =>
        let p := hIndex (arg ws 2)
        let src := coreAt (fld (arg ws 3) 6 0) (fld (arg ws 3) 13 7)
        let dst := coreAt (fld (arg ws 3) 20 14) (fld (arg ws 3) 27 21)
        fld (arg ws 3) 31 28 = 0 ∧ fld (arg ws 4) 31 27 = 0 ∧ fld (arg ws 5) 31 26 = 0 ∧ hOk s hPart (arg ws 2) ∧ inScope k p ∧
        fld (arg ws 3) 6 0 < 112 ∧ fld (arg ws 3) 13 7 < 96 ∧ fld (arg ws 3) 20 14 < 112 ∧ fld (arg ws 3) 27 21 < 96 ∧
        partOfRegion s (regionOfCore src) = some p ∧ partOfRegion s (regionOfCore dst) = some p ∧
        ringOk (s.core dst) (fld (arg ws 4) 21 0) (2 ^ fld (arg ws 4) 26 22) (fld (arg ws 5) 21 0) = true ∧
        (freeEp (s.core src)).isSome = true ∧ (freeEp (s.core dst)).isSome = true ∧ src ≠ dst ∧ reaches (channelEdges s p) dst src = false ∧
        (freeIndex s.hw.chans 0 172032).isSome = true)
      (fun s _ ws t st h res =>
        let src := coreAt (fld (arg ws 3) 6 0) (fld (arg ws 3) 13 7)
        let dst := coreAt (fld (arg ws 3) 20 14) (fld (arg ws 3) 27 21)
        ∃ i e1 e2, freeIndex s.hw.chans 0 172032 = some i ∧ freeEp (s.core src) = some e1 ∧ freeEp (s.core dst) = some e2 ∧
          st = csOk ∧ h = handleOf s hChannel i ∧ mget? t.hw.chans i = some ⟨hIndex (arg ws 2), src, e1, dst, e2, none, false⟩ ∧
          epRole (t.core src) e1 = roleSend ∧ epRole (t.core dst) e2 = roleRecv ∧ res = [BitVec.ofNat 32 (packFields [(5, e1), (3, 0), (5, e2)])]) := by
  refine mbxLeads_all (body := _) (fun _ => rfl) (fun a k ws h => ?_) (fun s k ws hs hw hown => ?_) anyRec
  · dsimp only
    rw [h]
    split
    · exact ⟨_, _, rfl⟩
    · exact refused_ends rfl
  obtain ⟨h3, h4, h5, hpart, hscope, hx1, hy1, hx2, hy2, hsrc, hdst, hring, hse, hre, hne, hacyc, hfree⟩ := hown
  obtain ⟨i, hi⟩ := Option.isSome_iff_exists.mp hfree
  obtain ⟨e1, he1⟩ := Option.isSome_iff_exists.mp hse
  obtain ⟨e2, he2⟩ := Option.isSome_iff_exists.mp hre
  extract_lets p src dst inGrid base log stw here se re st f1 f2 _ hq
  have hf1 : f1 = e1 := by
    show se.getD 0 = e1
    rw [show se = some e1 from he1]
    rfl
  have hf2 : f2 = e2 := by
    show re.getD 0 = e2
    rw [show re = some e2 from he2]
    rfl
  have hst : st = csOk := judge_ok fun c hc => by
    simp only [List.mem_cons, List.not_mem_nil, or_false] at hc
    rcases hc with rfl | rfl | rfl | rfl | rfl | rfl | rfl
    · simp [hw, h3, h4, h5]
    · exact badHandle_ok (hOk_beginAt hs hpart)
    · exact outOfScope_ok hscope
    · have hs' : here src = true := beq_iff_eq.mpr hsrc
      have hd' : here dst = true := beq_iff_eq.mpr hdst
      simp [inGrid, hx1, hy1, hx2, hy2, hs', hd']
    · exact congrArg (! ·) hring
    · rw [show se = some e1 from he1, show re = some e2 from he2]
      rfl
    · have hr' : reaches (channelEdges (s.beginAt r.val pos.toNat k) p) dst src = false := hacyc
      simp only [hr', Bool.or_false, beq_eq_false_iff_ne]
      exact hne
  split
  · next hnone => cases hi.symm.trans hnone
  next j hj =>
  obtain rfl : i = j := Option.some.inj (hi.symm.trans hj)
  rw [passed_goes hst]
  extract_lets a1 hd a2 a3
  have hhw : a3.hw = a1.hw := (setCore_hw ..).trans (setCore_hw ..)
  have hne' : src ≠ dst := hne
  have hsend : epRole (a3.core src) f1 = roleSend := by
    show epRole ((a2.setCore dst _).core src) f1 = _
    rw [core_setCore_ne _ _ _ _ hne', core_setCore_self, epRole_kept, epRole_setupEp _ _ _ _ _ _ _ _ _ (by decide)]
  have hrecv : epRole (a3.core dst) f2 = roleRecv := by
    show epRole ((a2.setCore dst _).core dst) f2 = _
    rw [core_setCore_self, epRole_kept, epRole_writeStatus, epRole_setupEp _ _ _ _ _ _ _ _ _ (by decide)]
  have hopen : ringOpen a3 r.val pos.toNat := ringOpen_of_rings (beginAt_open hs) (congrArg Heartwood.rings hhw :)
  have hchan : mget? a3.hw.chans i = some ⟨p, src, f1, dst, f2, none, false⟩ := by
    rw [hhw]
    exact mget_mset_self ..
  have hhd : hd = handleOf s hChannel i := rfl
  clear_value a3 hd f1 f2
  subst hf1 hf2
  obtain ⟨m, hm⟩ := finishCmd_form a3 r.val pos.toNat csOk hd [BitVec.ofNat 32 (packFields [(5, f1), (3, 0), (5, f2)])]
  refine cmdDone_finish hopen ⟨i, f1, f2, hi, he1, he2, rfl, hhd, ?_⟩
  rw [hm]
  exact ⟨hchan, hsend, hrecv, rfl⟩

/-- A channel that goes, and its generation. -/
theorem dropChannel_acts (s : State) (i : Nat) (c : Channel) (hrise : mkeysRising s.hw.chans = true) :
    (dropChannel s i c).hw.rings = s.hw.rings ∧ mget? (dropChannel s i c).hw.chans i = none ∧
      genOf (dropChannel s i c) hChannel i = genNext (genOf s hChannel i) := by
  unfold dropChannel
  extract_lets k1 s1 s2 _
  have hhw : s2.hw = s.hw := (setCore_hw ..).trans (setCore_hw ..)
  refine ⟨(congrArg Heartwood.rings hhw :), ?_, ?_⟩
  · show mget? (merase s2.hw.chans i) i = none
    rw [hhw]
    exact mget_merase_self _ _ hrise
  · have hgens := (congrArg (fun x : Heartwood => genNext (mgetD x.gens (genKey hChannel i) 1)) hhw :)
    exact (genOf_bumpGen ..).trans hgens

theorem closeChannel_acts (r : Fin 16384) (pos : Word) :
    mbxRow (.closeChannel r pos) r.val pos 0x31 anyRec
      (fun s k ws => hOk s hChannel (arg ws 2) ∧ mkeysRising s.hw.chans = true ∧
        ∃ c, mget? s.hw.chans (hIndex (arg ws 2)) = some c ∧ inScope k c.part ∧ c.ending = none ∧ (epOf (s.core c.src) c.sep).posting = none)
      (fun s _ ws t st h _ => st = csOk ∧ h = handleOf s hChannel (hIndex (arg ws 2)) ∧ mget? t.hw.chans (hIndex (arg ws 2)) = none ∧
        genOf t hChannel (hIndex (arg ws 2)) = genNext (genOf s hChannel (hIndex (arg ws 2)))) := by
  refine mbxLeads_all (body := _) (fun _ => rfl) (fun a k ws h => ?_) (fun s k ws hs hw hown => ?_) anyRec
  · dsimp only
    rw [h]
    split
    · exact ⟨_, _, rfl⟩
    · exact refused_ends rfl
  obtain ⟨hchan, hrise, c, hc, hscope, hend, hpost⟩ := hown
  extract_lets i
  split
  · next hnone => cases hc.symm.trans hnone
  next c2 hc2 =>
  obtain rfl : c = c2 := Option.some.inj (hc.symm.trans hc2)
  extract_lets st a1 _ a2
  have hst : st = csOk := judge_ok fun c hc => by
    simp only [List.mem_cons, List.not_mem_nil, or_false] at hc
    rcases hc with rfl | rfl | rfl | rfl
    · exact hw
    · exact badHandle_ok (hOk_beginAt hs hchan)
    · exact outOfScope_ok hscope
    · simp [hend]
  rw [passed_goes hst]
  have hhw1 : a1.hw = (s.beginAt r.val pos.toNat k).hw := by
    show (if _ then _ else _ : State).hw = _
    split
    · rfl
    · exact setCore_hw ..
  have hpost2 : (epOf (a2.core c.src) c.sep).posting = none := by
    show (epOf ((if _ then _ else _ : State).core c.src) c.sep).posting = none
    split
    · exact hpost
    · rw [core_setCore_self]
      exact hpost
  have hsettle : settleChannel a2 i = finishCmd (dropChannel a2 i { c with ending := some (r.val, pos.toNat) }) r.val pos.toNat csOk (handleOf a2 hChannel i) [] := by
    have hget : mget? a2.hw.chans i = some { c with ending := some (r.val, pos.toNat) } := mget_mset_self ..
    unfold settleChannel
    rw [hget]
    dsimp only
    rw [hpost2]
    rfl
  have hgen2 : genOf a2 hChannel i = genOf s hChannel i := (congrArg (fun x : Heartwood => mgetD x.gens (genKey hChannel i) 1) hhw1 :)
  have hrise2 : mkeysRising a2.hw.chans = true := by
    show mkeysRising (mset a1.hw.chans i _) = true
    rw [hhw1]
    exact mset_keysRising _ _ _ hrise
  obtain ⟨hrings, hgone, hgen⟩ := dropChannel_acts a2 i { c with ending := some (r.val, pos.toNat) } hrise2
  rw [hsettle]
  refine cmdDone_finish (ringOpen_of_rings (beginAt_open hs) (hrings.trans (congrArg Heartwood.rings hhw1 :))) ⟨rfl, ?_, ?_⟩
  · rw [handleOf, hgen2]
    rfl
  · obtain ⟨m, hm⟩ := finishCmd_form (dropChannel a2 i { c with ending := some (r.val, pos.toNat) }) r.val pos.toNat csOk (handleOf a2 hChannel i) []
    rw [hm]
    exact ⟨hgone, hgen.trans (congrArg genNext hgen2)⟩

/-! ### Windows (R537) -/

theorem mapContexts_hw {f : State → Nat → Nat → State} (hf : ∀ a st c, (f a st c).hw = a.hw) (s : State) (test : StreamCtx → Bool) :
    (mapContexts s test f).hw = s.hw := by
  unfold mapContexts
  generalize s.stks.flatMap _ = l
  induction l generalizing s with
  | nil => rfl
  | cons x l ih => exact (ih _).trans (hf ..)

theorem mapWindow_acts (r : Fin 16384) (pos : Word) :
    mbxRow (.mapWindow r pos) r.val pos 0x40 anyRec
      (fun s k ws => fld (arg ws 2) 31 6 = 0 ∧ hOk s hQp (arg ws 3) ∧ hOk s hQp (arg ws 4) ∧ mget? s.hw.wins (fld (arg ws 2) 5 0) = none ∧
        ∃ q1 q2, s.qp (hIndex (arg ws 3)) = some q1 ∧ s.qp (hIndex (arg ws 4)) = some q2 ∧ q1.part ≠ 0 ∧ q2.part = q1.part ∧ inScope k q1.part)
      (fun s _ ws t st h _ => st = csOk ∧ h = handleOf s hWindow (fld (arg ws 2) 5 0) ∧ ∃ w, mget? t.hw.wins (fld (arg ws 2) 5 0) = some w ∧
        w.qp = hIndex (arg ws 3) ∧ w.alt = hIndex (arg ws 4) ∧ w.pages = []) := by
  refine mbxLeads_all (body := _) (fun _ => rfl) (fun a k ws h => ?_) (fun s k ws hs hw hown => ?_) anyRec
  · exact refused_ends (by rw [h]; rfl)
  obtain ⟨hres, hq1, hq2, hfree, x1, x2, hx1, hx2, hp, hp2, hscope⟩ := hown
  extract_lets w q1 q2 part st _ a1
  have hq1v : q1 = some x1 := hx1
  have hq2v : q2 = some x2 := hx2
  have hpart : part = x1.part := by
    show (q1.map Qp.part).getD 0 = _
    rw [hq1v]
    rfl
  have hst : st = csOk := judge_ok fun c hc => by
    simp only [List.mem_cons, List.not_mem_nil, or_false] at hc
    rcases hc with rfl | rfl | rfl | rfl | rfl | rfl
    · simp [hw, hres]
    · exact badHandle_ok (hOk_beginAt hs hq1)
    · exact badHandle_ok (hOk_beginAt hs hq2)
    · rw [hpart]
      exact outOfScope_ok hscope
    · simp [hpart, hq2v, hp, hp2]
    · exact congrArg Option.isSome hfree
  rw [passed_goes hst]
  obtain ⟨m, hm⟩ := finishCmd_form a1 r.val pos.toNat csOk (handleOf a1 hWindow w) []
  exact cmdDone_finish (ringOpen_of_rings (beginAt_open hs) rfl) ⟨rfl, rfl, _, by rw [hm]; exact mget_mset_self .., rfl, rfl, rfl⟩

/-- Pages written one after another stand where they were written. -/
theorem mget_foldl_pages {β : Type} (first : Nat) (f : Nat → β) (n : Nat) (m : Map β) {i : Nat} (hi : i < n) :
    mget? ((List.range n).foldl (fun m i => mset m (first + i) (f i)) m) (first + i) = some (f i) := by
  induction n with
  | zero => omega
  | succ n ih =>
    rw [List.range_succ, List.foldl_append, List.foldl_cons, List.foldl_nil]
    by_cases h : i = n
    · rw [h]
      exact mget_mset_self ..
    · rw [mget_mset_ne _ _ _ _ (by omega)]
      exact ih (by omega)

theorem mapPages_acts (r : Fin 16384) (pos : Word) :
    mbxRow (.mapPages r pos) r.val pos 0x41 anyRec
      (fun s k ws => fld (arg ws 3) 31 24 = 0 ∧ hOk s hWindow (arg ws 2) ∧ (badAddr (arg64 ws 5) (16 * (arg ws 4).toNat) 16).1 = false ∧
        1 ≤ (arg ws 4).toNat ∧ (arg ws 4).toNat ≤ 65536 ∧ fld (arg ws 3) 23 0 + (arg ws 4).toNat ≤ 16777216 ∧
        ∃ w, mget? s.hw.wins (hIndex (arg ws 2)) = some w ∧ inScope k w.part ∧ ownsRange s w.part (arg64 ws 5) (16 * (arg ws 4).toNat) = true)
      (fun s _ ws t st h _ => st = csOk ∧ h = arg ws 2 ∧ ∃ w, mget? t.hw.wins (hIndex (arg ws 2)) = some w ∧
        ∀ i, i < (arg ws 4).toNat → mget? w.pages (fld (arg ws 3) 23 0 + i) =
          some (natOfBytes (((devRead s (arg64 ws 5) (16 * (arg ws 4).toNat)).drop (16 * i)).take 16))) := by
  refine mbxLeads_all (body := _) (fun _ => rfl) (fun a k ws h => ?_) (fun s k ws hs hw hown => ?_) anyRec
  · dsimp only
    rw [h]
    split
    · exact ⟨_, _, rfl⟩
    · exact refused_ends rfl
  obtain ⟨hres, hwin, haddr, h1, h2, h3, w0, hw0, hscope, howns⟩ := hown
  extract_lets w first n bytes _ hit
  split
  · next hnone => cases hw0.symm.trans hnone
  next w2 hw2 =>
  obtain rfl : w0 = w2 := Option.some.inj (hw0.symm.trans hw2)
  extract_lets st pages a1
  have hst : st = csOk := judge_ok fun c hc => by
    simp only [List.mem_cons, List.not_mem_nil, or_false] at hc
    rcases hc with rfl | rfl | rfl | rfl | rfl | rfl
    · simp [hw, hres]
    · exact badHandle_ok (hOk_beginAt hs hwin)
    · exact outOfScope_ok hscope
    · exact haddr
    · have howns' : ownsRange (s.beginAt r.val pos.toNat k) w0.part (arg64 ws 5) (16 * n) = true := howns
      simp [foreignRange, howns']
    · simp only [Bool.or_eq_false_iff, beq_eq_false_iff_ne, decide_eq_false_iff_not]
      refine ⟨⟨?_, Nat.not_lt.mpr h2⟩, Nat.not_lt.mpr h3⟩
      exact Nat.ne_of_gt h1
  rw [passed_goes hst]
  have hhw : (mapContexts a1 hit remoteResume).hw = a1.hw := mapContexts_hw (fun a st c => by unfold remoteResume; dsimp only; split <;> rfl) ..
  obtain ⟨m, hm⟩ := finishCmd_form (mapContexts a1 hit remoteResume) r.val pos.toNat csOk (arg ws 2) []
  refine cmdDone_finish (ringOpen_of_rings (beginAt_open hs) (congrArg Heartwood.rings hhw :)) ⟨rfl, rfl, { w0 with pages := pages }, ?_, fun i hi => ?_⟩
  · rw [hm]
    exact (congrArg (fun x : Heartwood => mget? x.wins w) hhw).trans (mget_mset_self ..)
  · exact mget_foldl_pages first (fun i => natOfBytes ((bytes.drop (16 * i)).take 16)) n w0.pages hi

theorem dropWindow_acts (s : State) (w : Nat) (hrise : mkeysRising s.hw.wins = true) :
    (dropWindow s w).hw.rings = s.hw.rings ∧ mget? (dropWindow s w).hw.wins w = none ∧
      genOf (dropWindow s w) hWindow w = genNext (genOf s hWindow w) := by
  unfold dropWindow
  extract_lets on s1 _
  have hhw : s1.hw = s.hw := mapContexts_hw (f := fun a st c => a.setCtx st c { a.ctx st c with state := xStopped }) (fun _ _ _ => rfl) s on
  refine ⟨(congrArg Heartwood.rings hhw :), ?_, ?_⟩
  · show mget? (merase s1.hw.wins w) w = none
    rw [hhw]
    exact mget_merase_self _ _ hrise
  · have hgens := (congrArg (fun x : Heartwood => genNext (mgetD x.gens (genKey hWindow w) 1)) hhw :)
    exact (genOf_bumpGen ..).trans hgens

theorem unmapWindow_acts (r : Fin 16384) (pos : Word) :
    mbxRow (.unmapWindow r pos) r.val pos 0x42 anyRec
      (fun s k ws => hOk s hWindow (arg ws 2) ∧ mkeysRising s.hw.wins = true ∧
        ∃ w, mget? s.hw.wins (hIndex (arg ws 2)) = some w ∧ inScope k w.part)
      (fun s _ ws t st h _ => st = csOk ∧ h = arg ws 2 ∧ mget? t.hw.wins (hIndex (arg ws 2)) = none ∧
        genOf t hWindow (hIndex (arg ws 2)) = genNext (genOf s hWindow (hIndex (arg ws 2)))) := by
  refine mbxLeads_all (body := _) (fun _ => rfl) (fun a k ws h => ?_) (fun s k ws hs hw hown => ?_) anyRec
  · exact refused_ends (by rw [h]; rfl)
  obtain ⟨hwin, hrise, x, hx, hscope⟩ := hown
  extract_lets w part st
  have hpart : part = x.part := by
    show ((mget? (s.beginAt r.val pos.toNat k).hw.wins w).map Window.part).getD 0 = _
    rw [show mget? (s.beginAt r.val pos.toNat k).hw.wins w = some x from hx]
    rfl
  have hst : st = csOk := judge_ok fun c hc => by
    simp only [List.mem_cons, List.not_mem_nil, or_false] at hc
    rcases hc with rfl | rfl | rfl
    · exact hw
    · exact badHandle_ok (hOk_beginAt hs hwin)
    · rw [hpart]
      exact outOfScope_ok hscope
  rw [passed_goes hst]
  obtain ⟨hrings, hgone, hgen⟩ := dropWindow_acts (s.beginAt r.val pos.toNat k) w hrise
  obtain ⟨m, hm⟩ := finishCmd_form (dropWindow (s.beginAt r.val pos.toNat k) w) r.val pos.toNat csOk (arg ws 2) []
  refine cmdDone_finish (ringOpen_of_rings (beginAt_open hs) hrings) ⟨rfl, rfl, ?_⟩
  rw [hm]
  exact ⟨hgone, hgen⟩

/-- Settles O42: each command by its checks and by the object that it makes or ends. -/
theorem objectCommandsEnd : Obligations.ObjectCommandsEnd :=
  fun r pos => ⟨createRing_acts r pos, destroyRing_acts r pos, createQp_acts r pos, destroyQp_acts r pos, registerMemory_acts r pos,
    deregisterMemory_acts r pos, openChannel_acts r pos, closeChannel_acts r pos, mapWindow_acts r pos, mapPages_acts r pos, unmapWindow_acts r pos⟩

end Sys2Proof.Machine
end

section
/-! PROOFS. Mailbox commands on partitions, programs, sessions and requests (R513 to R516, R525 to R528, R554). -/
namespace Sys2Proof.Machine

/-! ### Sessions (R525) -/

theorem openSession_acts (r : Fin 16384) (pos : Word) :
    mbxRow (.openSession r pos) r.val pos 0x20 anyRec
      (fun s k ws => fld (arg ws 4) 31 6 = 0 ∧ hOk s hPart (arg ws 2) ∧ hOk s hProgram (arg ws 3) ∧ inScope k (hIndex (arg ws 2)) ∧
        (∃ g, mget? s.hw.progs (hIndex (arg ws 3)) = some g ∧ g.part = hIndex (arg ws 2)) ∧ 1 ≤ (arg ws 5).toNat ∧ (arg ws 5).toNat ≤ 1024 ∧
        clkOn s (fld (arg ws 4) 3 0) = true ∧ (freeIndex s.hw.sessions 0 4096).isSome = true)
      (fun s _ ws t st h _ => ∃ j, freeIndex s.hw.sessions 0 4096 = some j ∧ st = csOk ∧ h = handleOf s hSession j ∧
        mget? t.hw.sessions j = some ⟨hIndex (arg ws 2), hIndex (arg ws 3), fld (arg ws 4) 3 0, fld (arg ws 4) 5 4, (arg ws 5).toNat, 0, none⟩) := by
  refine mbxLeads_all (body := _) (fun _ => rfl) (fun a k ws h => ?_) (fun s k ws hs hw hown => ?_) anyRec
  · dsimp only
    rw [h]
    split
    · exact ⟨_, _, rfl⟩
    · exact refused_ends rfl
  obtain ⟨hres, hpart, hprog, hscope, ⟨g, hg, hgp⟩, h1, h2, hclk, hfree⟩ := hown
  obtain ⟨j, hj⟩ := Option.isSome_iff_exists.mp hfree
  extract_lets p i c n st q
  have hst : st = csOk := judge_ok fun e he => by
    simp only [List.mem_cons, List.not_mem_nil, or_false] at he
    rcases he with rfl | rfl | rfl | rfl | rfl | rfl
    · simp [hw, hres]
    · exact badHandle_ok (hOk_beginAt hs hpart)
    · exact badHandle_ok (hOk_beginAt hs hprog)
    · exact outOfScope_ok hscope
    · have hget : mget? (s.beginAt r.val pos.toNat k).hw.progs i = some g := hg
      simp [hget, hgp, p]
    · have hn0 : n ≠ 0 := Nat.ne_of_gt h1
      have hn1 : ¬ 1024 < n := Nat.not_lt.mpr h2
      have hc : clkOn (s.beginAt r.val pos.toNat k) c = true := hclk
      simp [hn0, hn1, hc]
  split
  · next hnone => cases hj.symm.trans hnone
  next j2 hj2 =>
  obtain rfl : j = j2 := Option.some.inj (hj.symm.trans hj2)
  rw [passed_goes hst]
  extract_lets a1
  obtain ⟨m, hm⟩ := finishCmd_form a1 r.val pos.toNat csOk (handleOf a1 hSession j) []
  exact cmdDone_finish (ringOpen_of_rings (beginAt_open hs) rfl) ⟨j, hj, rfl, rfl, by rw [hm]; exact mget_mset_self ..⟩

/-- No request of an idle partition is ended. -/
theorem abortUnlaunched_idle {s : State} {p : Nat} (h : ∀ g, s.hpart p = some g → g.reqs = []) (test : Request → Bool) : abortUnlaunched s p test = s := by
  unfold abortUnlaunched
  split
  · rfl
  · next g hg =>
    rw [h g hg]
    rfl

theorem closeSession_acts (r : Fin 16384) (pos : Word) :
    mbxLeads (.closeSession r pos) r.val pos 0x21 anyRec
      (fun s k ws => hOk s hSession (arg ws 2) ∧ mkeysRising s.hw.sessions = true ∧
        ∃ q, mget? s.hw.sessions (hIndex (arg ws 2)) = some q ∧ inScope k q.part ∧ q.ending = none ∧ ∀ g, s.hpart q.part = some g → g.reqs = [])
      (fun s _ ws t => ∀ q, mget? s.hw.sessions (hIndex (arg ws 2)) = some q →
        (q.used = 0 → mget? t.hw.sessions (hIndex (arg ws 2)) = none ∧ cmdDone t r.val pos.toNat fun st h _ => st = csOk ∧ h = arg ws 2) ∧
        (q.used ≠ 0 → mget? t.hw.sessions (hIndex (arg ws 2)) = some { q with ending := some (r.val, pos.toNat) })) := by
  refine mbxLeads_all (body := _) (fun _ => rfl) (fun a k ws h => ?_) (fun s k ws hs hw hown => ?_) anyRec
  · dsimp only
    rw [h]
    split
    · exact ⟨_, _, rfl⟩
    · exact refused_ends rfl
  obtain ⟨hsess, hrise, q, hq, hscope, hend, hidle⟩ := hown
  extract_lets j
  split
  · next hnone => cases hq.symm.trans hnone
  next q2 hq2 =>
  obtain rfl : q = q2 := Option.some.inj (hq.symm.trans hq2)
  have hst : judge [(badWord0 ws, csBadArg), badHandle (s.beginAt r.val pos.toNat k) hSession (arg ws 2), outOfScope k q.part, (q.ending.isSome, csInUse)] = csOk :=
    judge_ok fun c hc => by
      simp only [List.mem_cons, List.not_mem_nil, or_false] at hc
      rcases hc with rfl | rfl | rfl | rfl
      · exact hw
      · exact badHandle_ok (hOk_beginAt hs hsess)
      · exact outOfScope_ok hscope
      · simp [hend]
  dsimp only
  rw [passed_goes hst, abortUnlaunched_idle (s := s.beginAt r.val pos.toNat k) hidle]
  intro q2 hq2
  obtain rfl : q = q2 := Option.some.inj (hq.symm.trans hq2)
  refine ⟨fun h0 => ?_, fun h0 => ?_⟩
  · rw [if_pos h0]
    generalize hb : bumpGen { s.beginAt r.val pos.toNat k with
      hw := { (s.beginAt r.val pos.toNat k).hw with sessions := merase (s.beginAt r.val pos.toNat k).hw.sessions j } } hSession j = b
    obtain ⟨m, hm⟩ := finishCmd_form b r.val pos.toNat csOk (arg ws 2) []
    refine ⟨?_, cmdDone_finish (ringOpen_of_rings (beginAt_open hs) (by rw [← hb]; rfl)) ⟨rfl, rfl⟩⟩
    rw [hm, ← hb]
    exact mget_merase_self _ _ hrise
  · rw [if_neg h0]
    exact mget_mset_self ..

/-! ### SET_CHECKS (R554) -/

/-- Checks that wait for an idle partition take effect, and the command that brought them ends. -/
theorem applyChecks_acts {s : State} {p r pos : Nat} {k : Partn} {c : Checks} (hk : s.hpart p = some k) (hnew : k.newChk = some (c, r, pos))
    (hopen : ringOpen s r pos) :
    cmdDone (applyChecks s p) r pos fun st h _ => st = csOk ∧ h = handleOf s hPart p ∧
      ∃ g, (applyChecks s p).hpart p = some g ∧ g.checks = c ∧ g.newChk = none := by
  unfold applyChecks
  rw [hk]
  dsimp only
  rw [hnew]
  dsimp only
  refine cmdDone_finish (ringOpen_of_rings hopen rfl) ⟨rfl, rfl, ?_⟩
  rw [finishCmd_hpart, hpart_setPart_self]
  exact ⟨_, rfl, rfl, rfl⟩

/-- Checks of the unchecked class name no queue pair. -/
theorem checkQps_unchecked {ws : List Word} {c : Checks} (h : c.cls = 0) : checkQps ws c = [] := by
  unfold checkQps
  rw [h]
  rfl

theorem setChecks_acts (r : Fin 16384) (pos : Word) :
    mbxRow (.setChecks r pos) r.val pos 0x14 anyRec
      (fun s k ws => fld (arg ws 3) 31 16 = 0 ∧ arg ws 15 = 0#32 ∧ (checksOf ws).cls = 0 ∧ (checksOf ws).guard ≠ 3 ∧ (checksOf ws).asyEn = false ∧
        (checksOf ws).serve = false ∧ hOk s hPart (arg ws 2) ∧ inScope k (hIndex (arg ws 2)) ∧
        ∃ g, s.hpart (hIndex (arg ws 2)) = some g ∧ g.newChk = none ∧ g.reqs = [])
      (fun s _ ws t st h _ => st = csOk ∧ h = handleOf s hPart (hIndex (arg ws 2)) ∧
        ∃ g, t.hpart (hIndex (arg ws 2)) = some g ∧ g.checks = checksOf ws ∧ g.newChk = none) := by
  refine mbxLeads_all (body := _) (fun _ => rfl) (fun a k ws h => ?_) (fun s k ws hs hw hown => ?_) anyRec
  · dsimp only
    rw [h]
    split
    · exact ⟨_, _, rfl⟩
    · exact refused_ends rfl
  obtain ⟨h3, h15, hcls, hguard, hasy, hserve, hpart, hscope, g, hg, hnew, hreqs⟩ := hown
  extract_lets p c fleet area
  split
  · next hnone => cases hg.symm.trans hnone
  next g2 hg2 =>
  obtain rfl : g = g2 := Option.some.inj (hg.symm.trans hg2)
  extract_lets st a1
  have hfleet : fleet = false := by simp [fleet, c, hcls]
  have harea : area = false := by simp [area, c, hcls, hserve]
  have hst : st = csOk := judge_ok fun e he => by
    rw [checkQps_unchecked hcls, hfleet, harea] at he
    simp only [List.map_nil, List.append_nil, List.cons_append, List.nil_append, List.mem_cons, List.not_mem_nil, or_false] at he
    rcases he with rfl | rfl | rfl | rfl | rfl | rfl | rfl | rfl | rfl | rfl | rfl | rfl | rfl
    · simp [hw, h3, h15, c, hcls, hguard]
    · exact badHandle_ok (hOk_beginAt hs hpart)
    · exact outOfScope_ok hscope
    · rfl
    · simp [c, hasy]
    · rfl
    · rfl
    · rfl
    · rfl
    · rfl
    · rfl
    · rfl
    · simp [hreqs, hnew]
  rw [passed_goes hst, if_pos (by rw [hreqs]; rfl)]
  exact applyChecks_acts (hpart_setPart_self ..) rfl (ringOpen_of_rings (beginAt_open hs) rfl)

end Sys2Proof.Machine
end

section
/-! PROOFS. Partitions open and close (R513, R514, R526). -/
namespace Sys2Proof.Machine

/-- What every step of a fold keeps, the fold keeps. -/
theorem foldl_keeps {α β : Type} (π : State → β) {f : State → α → State} (h : ∀ a x, π (f a x) = π a) (l : List α) (s : State) : π (l.foldl f s) = π s := by
  induction l generalizing s with
  | nil => rfl
  | cons x l ih => exact (ih _).trans (h ..)

theorem writeXlat_hw (s : State) (ls : List Nat) : (writeXlat s ls).hw = s.hw := by
  unfold writeXlat
  exact foldl_keeps State.hw (fun _ _ => allRouters_hw ..) _ _

theorem writeXlat_regions (s : State) (ls : List Nat) : (writeXlat s ls).regions = s.regions := by
  unfold writeXlat
  exact foldl_keeps State.regions (fun _ _ => allRouters_regions ..) _ _

theorem putOwner_hw (s : State) (unit0 n part : Nat) (valid : Bool) : (putOwner s unit0 n part valid).hw = s.hw := by
  unfold putOwner
  exact foldl_keeps State.hw (fun _ _ => setStack_hw ..) _ _

theorem putOwner_regions (s : State) (unit0 n part : Nat) (valid : Bool) : (putOwner s unit0 n part valid).regions = s.regions := by
  unfold putOwner
  exact foldl_keeps State.regions (fun _ _ => setStack_regions ..) _ _

theorem putRegionReg_hw (s : State) (p l part : Nat) : (putRegionReg s p l part).hw = s.hw := by
  unfold putRegionReg
  exact foldl_keeps State.hw (fun _ _ => setRouter_hw ..) _ _

theorem putRegionReg_regions (s : State) (p l part : Nat) : (putRegionReg s p l part).regions = s.regions := by
  unfold putRegionReg
  exact foldl_keeps State.regions (fun _ _ => setRouter_regions ..) _ _

/-- What giving a region to a partition does to the region. -/
def giveRegion (p : Nat) (a : State) (l : Nat) : State := (putRegionReg a (physOf a l) l p).setRegion l { a.region l with suspect := false, part := p }

theorem giveRegion_part (p : Nat) (a : State) (l m : Nat) : ((giveRegion p a l).region m).part = if m = l then p else (a.region m).part := by
  unfold giveRegion
  split
  · next h => rw [h, region_setRegion_self]
  · next h =>
    rw [region_setRegion_ne _ _ _ _ h]
    unfold State.region
    rw [putRegionReg_regions]

theorem foldl_giveRegion_part (p : Nat) (ls : List Nat) (a : State) {m : Nat} (h : m ∈ ls ∨ (a.region m).part = p) :
    ((ls.foldl (giveRegion p) a).region m).part = p := by
  induction ls generalizing a with
  | nil => exact h.resolve_left List.not_mem_nil
  | cons l ls ih =>
    rw [List.foldl_cons]
    refine ih (giveRegion p a l) ?_
    rw [giveRegion_part]
    by_cases hm : m = l
    · exact Or.inr (if_pos hm)
    · rw [if_neg hm]
      exact h.imp_left fun hmem => (List.mem_cons.mp hmem).resolve_left hm

theorem layPart_eq (s : State) (p : Nat) (k : Partn) : layPart s p k = putOwner (writeXlat ((partRegions k).foldl (giveRegion p)
    ((partRegions k).foldl (fun a l => mapRegion a l (openCore (k.mode == 1))) s)) (partRegions k)) k.unit0 k.units p true := rfl

theorem giveRegion_hw (p : Nat) (a : State) (l : Nat) : (giveRegion p a l).hw = a.hw := by
  unfold giveRegion
  rw [setRegion_hw, putRegionReg_hw]

theorem layPart_hw (s : State) (p : Nat) (k : Partn) : (layPart s p k).hw = s.hw := by
  rw [layPart_eq, putOwner_hw, writeXlat_hw]
  exact (foldl_keeps State.hw (giveRegion_hw p) _ _).trans (foldl_keeps State.hw (fun a l => mapRegion_hw ..) _ _)

/-- Every region of an opened partition bears its number. -/
theorem layPart_part (s : State) (p : Nat) (k : Partn) {l : Nat} (h : l ∈ partRegions k) : ((layPart s p k).region l).part = p := by
  unfold State.region
  rw [layPart_eq, putOwner_regions, writeXlat_regions]
  exact foldl_giveRegion_part p _ _ (Or.inl h)

theorem remapMode_bnat (n : Nat) : bnat (remapMode n) = if n ≤ 12 then 1 else 0 := by
  unfold remapMode bnat
  by_cases h : n ≤ 12 <;> simp [h]

theorem openPartition_acts (r : Fin 16384) (pos : Word) :
    mbxRow (.openPartition r pos) r.val pos 0x10 anyRec
      (fun s k ws =>
        let g := newPart s (fld (arg ws 2) 2 0) (fld (arg ws 2) 5 3) (fld (arg ws 2) 9 6) (fld (arg ws 2) 12 10) 0 (fld (arg ws 3) 7 0) (fld (arg ws 4) 15 0)
        fld (arg ws 2) 31 13 = 0 ∧ fld (arg ws 3) 31 8 = 0 ∧ fld (arg ws 4) 31 16 = 0 ∧ k.part = 0 ∧ lifeCycle s.mod ≠ 0 ∧ lifeCycle s.mod ≠ 4 ∧
        g.col0 + g.ncol ≤ 7 ∧ g.row0 + g.nrow ≤ 6 ∧ g.ncol ≠ 0 ∧ g.nrow ≠ 0 ∧ g.units ≠ 0 ∧ g.horizon ≠ 0 ∧
        (∀ l ∈ partRegions g, partOfRegion s l = none) ∧ (freeUnits s g.units).isSome = true ∧ (freeIndex s.hw.parts 1 43).isSome = true)
      (fun s _ ws t st h res => ∃ u p g, freeUnits s (fld (arg ws 3) 7 0) = some u ∧ freeIndex s.hw.parts 1 43 = some p ∧ st = csOk ∧
        h = handleOf s hPart p ∧ t.hpart p = some g ∧ g.col0 = fld (arg ws 2) 2 0 ∧ g.row0 = fld (arg ws 2) 5 3 ∧ g.ncol = fld (arg ws 2) 9 6 ∧
        g.nrow = fld (arg ws 2) 12 10 ∧ g.unit0 = u ∧ g.units = fld (arg ws 3) 7 0 ∧ g.mode = (if g.ncol * g.nrow ≤ 12 then 1 else 0) ∧
        g.reqs = [] ∧ (∀ l ∈ partRegions g, (t.region l).part = p) ∧
        res = [BitVec.ofNat 32 (unitAddr u), BitVec.ofNat 32 (unitAddr u / 2 ^ 32), BitVec.ofNat 32 (g.ncol * g.nrow + 64 * g.mode)]) := by
  refine mbxLeads_all (body := _) (fun _ => rfl) (fun a k ws h => ?_) (fun s k ws hs hw hown => ?_) anyRec
  · dsimp only
    rw [h]
    split
    · exact refused_ends rfl
    · exact ⟨_, _, rfl⟩
  obtain ⟨h2, h3, h4, hdev, hl0, hl4, hcol, hrow, hncol, hnrow, hunits, hhor, hfree, hu, hp⟩ := hown
  obtain ⟨u, hu⟩ := Option.isSome_iff_exists.mp hu
  obtain ⟨p, hp⟩ := Option.isSome_iff_exists.mp hp
  extract_lets col row ncol nrow n g lc st
  have hst : st = csOk := judge_ok fun e he => by
    simp only [List.mem_cons, List.not_mem_nil, or_false] at he
    rcases he with rfl | rfl | rfl | rfl | rfl
    · simp [hw, h2, h3, h4]
    · simp [notDevice, hdev]
    · have e0 : lc ≠ 0 := hl0
      have e4 : lc ≠ 4 := hl4
      simp [e0, e4]
    · have c1 : ¬ 7 < col + ncol := Nat.not_lt.mpr hcol
      have c2 : ¬ 6 < row + nrow := Nat.not_lt.mpr hrow
      have c3 : ncol ≠ 0 := hncol
      have c4 : nrow ≠ 0 := hnrow
      have c5 : n ≠ 0 := hunits
      have c6 : g.horizon ≠ 0 := hhor
      simp [c1, c2, c3, c4, c5, c6]
    · exact List.any_eq_false.mpr fun l hl => by
        have hl2 : partOfRegion (s.beginAt r.val pos.toNat k) l = none := hfree l hl
        rw [hl2]
        decide
  split
  case h_2 hno => exact absurd hp (hno u p hu)
  next u2 p2 hu2 hp2 =>
  obtain rfl : u = u2 := Option.some.inj (hu.symm.trans hu2)
  obtain rfl : p = p2 := Option.some.inj (hp.symm.trans hp2)
  rw [passed_goes hst]
  extract_lets g1 a1
  have ha1 : a1.hw = ((s.beginAt r.val pos.toNat k).setPart p g1).hw := layPart_hw ..
  have hown1 : ∀ l ∈ partRegions g1, (a1.region l).part = p := fun l hl => layPart_part _ _ _ hl
  clear_value a1
  generalize hres : [BitVec.ofNat 32 (unitAddr u), BitVec.ofNat 32 (unitAddr u / 2 ^ 32), BitVec.ofNat 32 (ncol * nrow + 64 * g1.mode)] = res
  refine cmdDone_finish (ringOpen_of_rings (beginAt_open hs) (congrArg Heartwood.rings ha1 :)) ⟨u, p, g1, hu, hp, rfl, ?_, ?_, rfl, rfl, rfl, rfl, rfl, rfl, ?_, rfl, ?_, hres.symm⟩
  · unfold handleOf genOf
    rw [ha1]
    rfl
  · rw [finishCmd_hpart, State.hpart, ha1]
    exact hpart_setPart_self ..
  · exact remapMode_bnat _
  · obtain ⟨m, hm⟩ := finishCmd_form a1 r.val pos.toNat csOk (handleOf a1 hPart p) res
    rw [hm]
    exact hown1

/-! ### CLOSE_PARTITION -/

/-- The partitions and the rings. -/
def State.seated (s : State) : Map Partn × Map Ring := (s.hw.parts, s.hw.rings)

theorem seated_of_hw {s t : State} (h : t.hw = s.hw) : t.seated = s.seated := congrArg (fun x : Heartwood => (x.parts, x.rings)) h

theorem bumpGen_seated (s : State) (ty i : Nat) : (bumpGen s ty i).seated = s.seated := rfl

theorem setCore_seated (s : State) (c : Nat) (k : Core) : (s.setCore c k).seated = s.seated := seated_of_hw (setCore_hw ..)

theorem takePm_seated (s : State) (c : Nat) : (takePm s c).seated = s.seated := by
  unfold takePm
  split
  · rfl
  · unfold State.seated
    simp

theorem breakChannel_seated (s : State) (c e : Nat) : (breakChannel s c e).seated = s.seated := by
  unfold breakChannel
  dsimp only
  rw [setCore_seated, setCore_seated]

theorem breakOn_seated (s : State) (hit : Nat → Bool) (cause : Nat) : (breakOn s hit cause).seated = s.seated := by
  unfold breakOn
  refine foldl_keeps State.seated (fun a e => ?_) _ _
  exact breakChannel_seated a e.2.src e.2.sep

theorem mapCtxs_seated (s : State) (p : Nat) (f : StreamCtx → StreamCtx) : (mapCtxs s p f).seated = s.seated := rfl

theorem clearBarriers_seated (s : State) (p : Nat) : (clearBarriers s p).seated = s.seated := by
  unfold clearBarriers
  exact seated_of_hw (allRouters_hw ..)

theorem foldl_setRegion_seated (f : State → Nat → Region) (ls : List Nat) (s : State) : (ls.foldl (fun a l => a.setRegion l (f a l)) s).seated = s.seated :=
  foldl_keeps State.seated (fun _ _ => seated_of_hw (setRegion_hw ..)) ls s

theorem resetPart_seated (s : State) (p : Nat) (stays : Bool) : (resetPart s p stays).seated = s.seated := by
  unfold resetPart
  split
  · rfl
  · dsimp only
    rw [seated_of_hw (putOwner_hw ..), foldl_setRegion_seated, clearBarriers_seated, mapCtxs_seated,
      foldl_keeps State.seated fun a l => seated_of_hw (mapRegion_hw ..), breakOn_seated]
    exact foldl_keeps State.seated takePm_seated _ _

theorem putCommit_seated (s : State) : (putCommit s).seated = s.seated := by
  unfold putCommit State.seated
  simp

theorem logAdd_seated (s : State) (kind index : Nat) (digest : List Byte) : (logAdd s kind index digest).seated = s.seated := rfl

/-- A closing partition without a ring is gone, and the command that closed it ends. -/
theorem finishClose_acts {s : State} {p r pos : Nat} {k : Partn} (hk : s.hpart p = some k) (hc : k.closing = some (r, pos)) (hopen : ringOpen s r pos)
    (hrise : mkeysRising s.hw.parts = true) :
    (finishClose s p).hpart p = none ∧ cmdDone (finishClose s p) r pos fun st _ _ => st = csOk := by
  unfold finishClose
  split
  · next hnone => cases hk.symm.trans hnone
  next k2 hk2 =>
  obtain rfl : k = k2 := Option.some.inj (hk.symm.trans hk2)
  extract_lets s1 s2 s3 s4 h ls _ s5 s6 s7
  rw [hc]
  have h1 : s1.seated = s.seated := by
    refine foldl_keeps State.seated (fun a e => ?_) _ _
    exact bumpGen_seated { a with hw := { a.hw with qps := merase a.hw.qps e.1 } } hQp e.1
  have h2 : s2.seated = s1.seated := by
    refine foldl_keeps State.seated (fun a e => ?_) _ _
    exact bumpGen_seated { a with hw := { a.hw with keys := merase a.hw.keys e.1 } } hKey e.1
  have h4 : s4.seated = s.seated := (resetPart_seated ..).trans (h2.trans h1)
  have h7 : s7.seated = s5.seated := by
    rw [bumpGen_seated, logAdd_seated, putCommit_seated, seated_of_hw (writeXlat_hw ..)]
    exact foldl_keeps State.seated (fun a l => seated_of_hw ((setRegion_hw ..).trans (putRegionReg_hw ..))) _ _
  have hparts : s7.hw.parts = merase s.hw.parts p := (congrArg Prod.fst h7).trans (congrArg (merase · p) (congrArg Prod.fst h4))
  have hrings : s7.hw.rings = s.hw.rings := (congrArg Prod.snd h7).trans (congrArg Prod.snd h4)
  refine ⟨?_, cmdDone_finish (ringOpen_of_rings hopen hrings) rfl⟩
  rw [finishCmd_hpart, State.hpart, hparts]
  exact mget_merase_self _ _ hrise

theorem finishClose_none {s : State} {p : Nat} (h : s.hpart p = none) : finishClose s p = s := by
  unfold finishClose
  rw [h]

/-- Closing one partition again and again closes it once. -/
theorem foldl_finishClose {s : State} {p : Nat} (h : (finishClose s p).hpart p = none) {l : List (Nat × Partn)} (hl : ∀ e ∈ l, e.1 = p) (hne : l ≠ []) :
    l.foldl (fun a e => finishClose a e.1) s = finishClose s p := by
  have hrest : ∀ m : List (Nat × Partn), (∀ e ∈ m, e.1 = p) → m.foldl (fun a e => finishClose a e.1) (finishClose s p) = finishClose s p := by
    intro m
    induction m with
    | nil => exact fun _ => rfl
    | cons e m ih =>
      intro hm
      rw [List.foldl_cons, hm e List.mem_cons_self, finishClose_none h]
      exact ih fun x hx => hm x (List.mem_cons_of_mem _ hx)
  cases l with
  | nil => exact absurd rfl hne
  | cons e l =>
    rw [List.foldl_cons, hl e List.mem_cons_self]
    exact hrest l fun x hx => hl x (List.mem_cons_of_mem _ hx)

theorem endRequests_idle {s : State} {p : Nat} {g : Partn} (hg : s.hpart p = some g) (h : g.reqs = []) (status cause : Nat) :
    endRequests s p status cause = s := by
  unfold endRequests
  rw [hg]
  dsimp only
  rw [h]
  rfl

/-- No element of a map that holds nothing of a partition is found for it. -/
theorem filter_apart {α : Type} {m : Map α} {p : Nat} {f : Nat × α → Nat} (h : ∀ e ∈ m, f e ≠ p) : (m.filter fun e => f e == p) = [] :=
  List.filter_eq_nil_iff.mpr fun e he => by
    rw [beq_iff_eq]
    exact h e he

/-- A partition without objects has none to drop. -/
theorem dropObjects_idle {s : State} {p : Nat} (hchans : ∀ e ∈ s.hw.chans, e.2.part ≠ p) (hsess : ∀ e ∈ s.hw.sessions, e.2.part ≠ p)
    (hbufs : ∀ e ∈ s.hw.bufs, e.2.part ≠ p) (hprogs : ∀ e ∈ s.hw.progs, e.2.part ≠ p) (hpours : ∀ e ∈ s.hw.pours, e.1 / 65536 ≠ p)
    (hwins : ∀ e ∈ s.hw.wins, e.2.part ≠ p) : dropObjects s p = s := by
  unfold dropObjects
  rw [filter_apart hchans]
  dsimp only [List.foldl_nil]
  rw [filter_apart hsess]
  dsimp only [List.foldl_nil]
  rw [filter_apart hbufs]
  dsimp only [List.foldl_nil]
  rw [filter_apart hprogs]
  dsimp only [List.foldl_nil]
  rw [filter_apart hpours]
  dsimp only [List.foldl_nil]
  rw [filter_apart hwins]
  rfl

theorem mem_mset {α : Type} {m : Map α} {k : Nat} {v : α} {e : Nat × α} (h : e ∈ mset m k v) : e = (k, v) ∨ e ∈ m := by
  induction m with
  | nil => exact Or.inl (List.mem_singleton.mp h)
  | cons x m ih =>
    unfold mset at h
    split at h
    · exact (List.mem_cons.mp h).imp_right (List.mem_cons_of_mem _)
    · split at h
      · exact List.mem_cons.mp h
      · rcases List.mem_cons.mp h with rfl | h
        · exact Or.inr List.mem_cons_self
        · exact (ih h).imp_right (List.mem_cons_of_mem _)

/-- A partition that a command closes. -/
def Partn.closedBy (g : Partn) (r pos : Nat) : Partn := { g with closing := some (r, pos), newChk := none, joiner := none }

/-- The one partition that is closing, where no ring belongs to it, is closed. -/
theorem settleClosing_acts {s : State} {p : Nat} {k : Partn} (hk : s.hpart p = some k) (hc : k.closing.isSome = true)
    (hone : ∀ e ∈ s.hw.parts, e.1 = p ∨ e.2.closing = none) (hrings : ∀ e ∈ s.hw.rings, e.2.part ≠ p) (hgone : (finishClose s p).hpart p = none) :
    settleClosing s = finishClose s p := by
  refine foldl_finishClose hgone (fun e he => ?_) (List.ne_nil_of_mem (a := (p, k)) ?_)
  · obtain ⟨hmem, htest⟩ := List.mem_filter.mp he
    refine (hone e hmem).resolve_right fun hnone => ?_
    rw [hnone] at htest
    cases htest
  · refine List.mem_filter.mpr ⟨mem_of_mget hk, ?_⟩
    have hno : (s.hw.rings.any fun x => x.2.part == p) = false := List.any_eq_false.mpr fun e he => by
      rw [beq_iff_eq]
      exact hrings e he
    dsimp only
    rw [hc, hno]
    rfl

theorem closePartition_acts (r : Fin 16384) (pos : Word) :
    mbxRow (.closePartition r pos) r.val pos 0x11 anyRec
      (fun s k ws =>
        let p := hIndex (arg ws 2)
        hOk s hPart (arg ws 2) ∧ k.part = 0 ∧ mkeysRising s.hw.parts = true ∧ (∀ e ∈ s.hw.parts, e.2.closing = none) ∧
        (∀ e ∈ s.hw.chans, e.2.part ≠ p) ∧ (∀ e ∈ s.hw.sessions, e.2.part ≠ p) ∧ (∀ e ∈ s.hw.bufs, e.2.part ≠ p) ∧ (∀ e ∈ s.hw.progs, e.2.part ≠ p) ∧
        (∀ e ∈ s.hw.pours, e.1 / 65536 ≠ p) ∧ (∀ e ∈ s.hw.wins, e.2.part ≠ p) ∧ (∀ e ∈ s.hw.rings, e.2.part ≠ p) ∧
        ∃ g, s.hpart p = some g ∧ g.reqs = [] ∧ g.newChk = none ∧ g.joiner = none)
      (fun _ _ ws t st _ _ => st = csOk ∧ t.hpart (hIndex (arg ws 2)) = none) := by
  refine mbxLeads_all (body := _) (fun _ => rfl) (fun a k ws h => ?_) (fun s k ws hs hw hown => ?_) anyRec
  · dsimp only
    rw [h]
    exact refused_ends rfl
  obtain ⟨hpart, hdev, hrise, hopen, hchans, hsess, hbufs, hprogs, hpours, hwins, hrings, g, hg, hreqs, hnew, hjoin⟩ := hown
  extract_lets p st a1 a2 a5
  have hst : st = csOk := judge_ok fun e he => by
    simp only [List.mem_cons, List.not_mem_nil, or_false] at he
    rcases he with rfl | rfl | rfl | rfl
    · exact hw
    · exact badHandle_ok (hOk_beginAt hs hpart)
    · simp [notDevice, hdev]
    · have hb : ((s.beginAt r.val pos.toNat k).hpart p).bind Partn.closing = none := by
        rw [show (s.beginAt r.val pos.toNat k).hpart p = some g from hg]
        exact hopen _ (mem_of_mget hg)
      rw [hb]
      rfl
  rw [passed_goes hst]
  have hpart0 : p ≠ 0 := fun h0 => hrings (r.val, k) (mem_of_mget hs.1) (hdev.trans h0.symm)
  have ha1 : a1 = cancelBooked (s.beginAt r.val pos.toNat k) p := by
    have he : endRequests (s.beginAt r.val pos.toNat k) p csAborted 0 = s.beginAt r.val pos.toNat k :=
      endRequests_idle (s := s.beginAt r.val pos.toNat k) hg hreqs ..
    rw [show a1 = dropObjects (cancelBooked (endRequests (s.beginAt r.val pos.toNat k) p csAborted 0) p) p from rfl, he]
    exact dropObjects_idle hchans hsess hbufs hprogs hpours hwins
  have hg1 : a1.hpart p = some g := by
    rw [ha1]
    exact hg
  have hparts1 : a1.hw.parts = s.hw.parts := by rw [ha1]; rfl
  have hrings1 : a1.hw.rings = (s.beginAt r.val pos.toNat k).hw.rings := by rw [ha1]; rfl
  have ha2 : a2 = a1.setPart p (g.closedBy r.val pos.toNat) := by
    unfold a2
    rw [hg1]
    dsimp only
    rw [hnew]
    dsimp only
    rw [hjoin]
    rfl
  clear_value a1 a2
  have hno : ∀ e ∈ a2.hw.rings, e.2.part ≠ p := fun e he => by
    rw [ha2] at he
    have hmem : e ∈ mset s.hw.rings r.val (k.beginAt pos.toNat) := by
      rw [show (a1.setPart p (g.closedBy r.val pos.toNat)).hw.rings = a1.hw.rings from rfl, hrings1] at he
      exact he
    rcases mem_mset hmem with rfl | hold
    · exact fun h => hpart0 (h.symm.trans hdev)
    · exact hrings e hold
  have ha5 : a5 = a2 := by
    unfold a5
    rw [filter_apart hno]
    rfl
  rw [ha5]
  have hk2 : a2.hpart p = some (g.closedBy r.val pos.toNat) := by rw [ha2, hpart_setPart_self]
  have hone : ∀ e ∈ a2.hw.parts, e.1 = p ∨ e.2.closing = none := fun e he => by
    rw [ha2] at he
    rcases mem_mset he with rfl | hold
    · exact Or.inl rfl
    · exact Or.inr (hopen e (hparts1 ▸ hold))
  have hrise2 : mkeysRising a2.hw.parts = true := by
    rw [ha2]
    exact mset_keysRising _ _ _ (hparts1 ▸ hrise)
  have hringOpen : ringOpen a2 r.val pos.toNat := ringOpen_of_rings (beginAt_open hs) (by rw [ha2]; exact hrings1)
  obtain ⟨hgone, k3, f, d, hring, hf, hpos, hbeg, hdone, hok⟩ := finishClose_acts hk2 rfl hringOpen hrise2
  rw [settleClosing_acts hk2 rfl hone hno hgone]
  exact ⟨k3, f, d, hring, hf, hpos, hbeg, hdone, hok, hgone⟩

end Sys2Proof.Machine
end

section
/-! PROOFS. Programs are loaded and requests submitted (R515, R516, R525, R527, R528). -/
namespace Sys2Proof.Machine

/-! ### LOAD_PROGRAM -/

theorem putCommit_hw (s : State) : (putCommit s).hw = s.hw := by
  unfold putCommit
  simp

theorem bindEp_hw (s : State) (e : Nat × Nat) : (bindEp s e).hw = s.hw := setCore_hw ..

theorem mcBit_hw (s : State) (r g b : Nat) : (mcBit s r g b).hw = s.hw := setRouter_hw ..

theorem makeGroup_hw (s : State) (g part src : Nat) (cores : List Nat) : (makeGroup s g part src cores).hw = s.hw := by
  unfold makeGroup
  refine foldl_keeps State.hw (fun a c => ?_) _ _
  dsimp only
  rw [mcBit_hw]
  exact foldl_keeps State.hw (fun x e => mcBit_hw ..) _ _

/-- The heartwood's tables with other pours. -/
def State.withPours (s : State) (m : Map Pour) : State := { s with hw := { s.hw with pours := m } }

theorem withPours_hw {s t : State} (m : Map Pour) (h : t.hw = s.hw) : (t.withPours m).hw = { s.hw with pours := m } := by
  rw [← h]
  rfl

theorem pourTarget_hw (i : PourInfo) (targets : List Nat) (s : State) (c : Nat) : (pourTarget i targets s c).hw = s.hw := by
  unfold pourTarget
  extract_lets k k1 k2
  exact setCore_hw s c _

/-- What a pour that starts leaves of the heartwood's tables. -/
theorem startPour_tables (part : Nat) (s : State) (e : PourInfo × List Nat) :
    ∃ m, (startPour part s e).hw = { s.hw with pours := m } := by
  unfold startPour
  extract_lets s1 g st s2
  have h1 : s1.hw = s.hw := foldl_keeps State.hw (pourTarget_hw e.1 e.2) _ _
  have h2 : s2.hw = s.hw := by
    unfold s2
    split
    · rw [makeGroup_hw, h1]
    · exact h1
  clear_value s2
  exact ⟨_, withPours_hw _ h2⟩

theorem foldl_startPour_tables (part : Nat) (l : List (PourInfo × List Nat)) (s : State) :
    ∃ m, (l.foldl (startPour part) s).hw = { s.hw with pours := m } := by
  induction l generalizing s with
  | nil => exact ⟨s.hw.pours, rfl⟩
  | cons e l ih =>
    obtain ⟨m, hm⟩ := startPour_tables part s e
    obtain ⟨m2, hm2⟩ := ih (startPour part s e)
    exact ⟨m2, by rw [List.foldl_cons, hm2, hm]⟩

/-- A program that waits for no pour is ready, and its command ends. -/
theorem programReady_acts {s : State} {i r pos : Nat} {q : Program} (hq : mget? s.hw.progs i = some q) (hc : q.cmd = some (r, pos))
    (hopen : ringOpen s r pos) :
    (∃ q2, mget? (programReady s i).hw.progs i = some q2 ∧ q2.part = q.part ∧ q2.img = q.img ∧ q2.digest = q.digest ∧
      (q.waits ≠ [] → q2 = q)) ∧
    (q.waits = [] → cmdDone (programReady s i) r pos fun st h _ => st = csOk ∧ h = handleOf s hProgram i) := by
  unfold programReady
  rw [hq]
  dsimp only
  rw [hc]
  dsimp only
  by_cases hw : q.waits = []
  · rw [if_pos (by rw [hw]; rfl)]
    obtain ⟨m, hm⟩ := finishCmd_form (logAdd { s with hw := { s.hw with progs := mset s.hw.progs i { q with cmd := none } } } 3
      (handleOf { s with hw := { s.hw with progs := mset s.hw.progs i { q with cmd := none } } } hProgram i).toNat q.digest) r pos csOk
      (handleOf { s with hw := { s.hw with progs := mset s.hw.progs i { q with cmd := none } } } hProgram i) []
    refine ⟨⟨{ q with cmd := none }, ?_, rfl, rfl, rfl, fun h => absurd hw h⟩, fun _ => cmdDone_finish (ringOpen_of_rings hopen rfl) ⟨rfl, rfl⟩⟩
    rw [hm]
    exact mget_mset_self ..
  · rw [if_neg (by simpa using hw)]
    exact ⟨⟨q, hq, rfl, rfl, rfl, fun _ => rfl⟩, fun h => absurd h hw⟩

/-- The conditions of LOAD_PROGRAM, on the program that the file holds. -/
def loadOwn (img : ProgImage) (s : State) (k : Ring) (ws : List Word) : Prop :=
  let p := hIndex (arg ws 2)
  hOk s hPart (arg ws 2) ∧ inScope k p ∧ (badAddr (arg64 ws 3) (max 1 (arg ws 5).toNat) 1).1 = false ∧ (arg ws 5).toNat ≠ 0 ∧
  (ownsRange s p (arg64 ws 3) (max 1 (arg ws 5).toNat) = true ∨ ownsRange s 0 (arg64 ws 3) (max 1 (arg ws 5).toNat) = true) ∧
  (freeIndex s.hw.progs 0 256).isSome = true ∧ loadAmps s + progAmps img ≤ 21000 ∧
  935 * (loadAmps s + progAmps img) + 3800000 ≤ 1000 * budgetW s ∧
  ∃ g, s.hpart p = some g ∧ img.regions = g.ncol * g.nrow ∧ img.mode = g.mode ∧ (g.checks.asyEn = true → img.kmin ≤ g.checks.asyK) ∧
    (boundEps g img).any (epHeld s) = false ∧
    hasCycle (channelEdges s p ++ img.edges.map fun e => (coreInPart g e.1, coreInPart g e.2)) = false

theorem loadProgram_acts (r : Fin 16384) (pos : Word) (img : ProgImage) :
    mbxLeads (.loadProgram r pos img) r.val pos 0x12 anyRec (loadOwn img) fun s _ ws t =>
      ∃ i q, freeIndex s.hw.progs 0 256 = some i ∧ mget? t.hw.progs i = some q ∧ q.part = hIndex (arg ws 2) ∧ q.img = img ∧
        q.digest = Config.shake256 (devRead s (arg64 ws 3) (arg ws 5).toNat) 32 ∧
        (img.pours = [] → cmdDone t r.val pos.toNat fun st h _ => st = csOk ∧ h = handleOf s hProgram i) ∧
        (img.pours ≠ [] → q.cmd = some (r.val, pos.toNat) ∧ q.waits = img.pours.map fun x => pourKey q.part x.image) := by
  refine mbxLeads_all (body := _) (fun _ => rfl) (fun a k ws h => ?_) (fun s k ws hs hw hown => ?_) anyRec
  · dsimp only
    rw [h]
    split
    · exact ⟨_, _, rfl⟩
    · split
      · exact ⟨_, _, rfl⟩
      · exact refused_ends rfl
  obtain ⟨hpart, hscope, haddr, hn, howns, hfree, hamps, hbudget, g, hg, hregs, hmode, hk, hheld, hcyc⟩ := hown
  obtain ⟨i, hi⟩ := Option.isSome_iff_exists.mp hfree
  extract_lets p n amps keys q _
  split
  · next hnone => cases hg.symm.trans hnone
  next g2 hg2 =>
  obtain rfl : g = g2 := Option.some.inj (hg.symm.trans hg2)
  extract_lets es st
  have hst : st = csOk := judge_ok fun e he => by
    simp only [List.mem_cons, List.not_mem_nil, or_false] at he
    rcases he with rfl | rfl | rfl | rfl | rfl | rfl | rfl | rfl | rfl | rfl
    · exact hw
    · exact badHandle_ok (hOk_beginAt hs hpart)
    · exact outOfScope_ok hscope
    · exact haddr
    · have ho : ownsRange (s.beginAt r.val pos.toNat k) p (arg64 ws 3) (max 1 n) = true ∨
          ownsRange (s.beginAt r.val pos.toNat k) 0 (arg64 ws 3) (max 1 n) = true := howns
      rcases ho with ho | ho <;> simp [ho]
    · have hn0 : n ≠ 0 := hn
      by_cases ha : g.checks.asyEn = true
      · simp [hn0, hregs, ha, hk ha]
      · simp [hn0, hregs, ha]
    · simp [hmode]
    · exact hheld
    · exact hcyc
    · have h1 : ¬ 21000 < amps := Nat.not_lt.mpr hamps
      have h2 : ¬ 1000 * budgetW (s.beginAt r.val pos.toNat k) < 935 * amps + 3800000 := Nat.not_lt.mpr hbudget
      simp [h1, h2]
  split
  · next hnone => cases hi.symm.trans hnone
  next i2 hi2 =>
  obtain rfl : i = i2 := Option.some.inj (hi.symm.trans hi2)
  rw [passed_goes hst]
  extract_lets a1 a2
  have ha1 : a1.hw = { (s.beginAt r.val pos.toNat k).hw with progs := mset s.hw.progs i q } := foldl_keeps State.hw bindEp_hw _ _
  obtain ⟨m, hm⟩ := foldl_startPour_tables p (img.pours.map fun x => (x, x.cores.map (coreInPart g))) (putCommit a1)
  have ha2 : a2.hw = { a1.hw with pours := m } := by rw [← putCommit_hw a1]; exact hm
  clear_value a2
  have hprogs : mget? a2.hw.progs i = some q := by
    rw [ha2, ha1]
    exact mget_mset_self ..
  have hrings : a2.hw.rings = (s.beginAt r.val pos.toNat k).hw.rings := by rw [ha2, ha1]
  have hgens : a2.hw.gens = s.hw.gens := by
    rw [ha2, ha1]
    rfl
  obtain ⟨⟨q2, hq2, hqp, hqi, hqd, hqw⟩, hdone⟩ := programReady_acts hprogs rfl (ringOpen_of_rings (beginAt_open hs) hrings)
  have hh : handleOf a2 hProgram i = handleOf s hProgram i := by
    unfold handleOf genOf
    rw [hgens]
  rw [hh] at hdone
  refine ⟨i, q2, hi, hq2, hqp, hqi, hqd, fun hnil => hdone (List.map_eq_nil_iff.mpr hnil), fun hne => ?_⟩
  rw [hqw fun hnil => hne (List.map_eq_nil_iff.mp hnil)]
  exact ⟨rfl, rfl⟩

/-! ### SUBMIT -/

theorem bookEvent_hw (s : State) (k : BookKind) (time : Nat) : (bookEvent s k time).hw = s.hw := by
  unfold bookEvent
  split <;> rfl

theorem bookNotices_hw (s : State) (k : Partn) (x : SectionInfo) (t : Nat) : (bookNotices s k x t).hw = s.hw := by
  unfold bookNotices
  refine foldl_keeps State.hw (fun a e => ?_) _ _
  split
  · rfl
  · dsimp only
    split
    · exact bookEvent_hw ..
    · rfl

theorem bookAhead_hw (s : State) (p : Nat) : (bookAhead s p).hw = s.hw := by
  unfold bookAhead
  split
  · rfl
  · split
    · rfl
    · refine foldl_keeps State.hw (fun a e => ?_) _ _
      dsimp only
      split
      · rfl
      · split
        · rfl
        · rw [bookNotices_hw, bookEvent_hw]

theorem finished_shed {s : State} {r pos status lo : Nat} (hlo : lo + 15 < 32) (hopen : ringOpen s r pos) (res : List Word) :
    cmdDone (finishCmd (wCount s 0x140004 (lo + 15) lo 1) r pos status 0#32 res) r pos (fun st _ _ => st = status) ∧
    winCounts s (finishCmd (wCount s 0x140004 (lo + 15) lo 1) r pos status 0#32 res) 0x140004 (lo + 15) lo 1 ∧
    ∀ p, (finishCmd (wCount s 0x140004 (lo + 15) lo 1) r pos status 0#32 res).hpart p = s.hpart p := by
  obtain ⟨m, hm⟩ := finishCmd_form (wCount s 0x140004 (lo + 15) lo 1) r pos status 0#32 res
  refine ⟨cmdDone_finish (ringOpen_of_rings hopen (congrArg Heartwood.rings (wCount_hw ..) :)) rfl, ?_, fun p => ?_⟩
  · rw [hm]
    exact winCounts_of_reg (winCounts_wCount s 0x140004 lo 1 hlo) rfl
  · rw [finishCmd_hpart]
    exact (congrArg (fun x : Heartwood => mget? x.parts p) (wCount_hw ..) :)

/-- What a shed request leaves: its command ended, its cause counted, its partition as it was. -/
theorem shed_acts {s : State} {r pos status lo : Nat} (h : status = csBusy ∧ lo = 0 ∨ status = csLate ∧ lo = 16) (ready : Option Nat)
    (hopen : ringOpen s r pos) :
    cmdDone (shed s r pos status ready) r pos (fun st _ _ => st = status) ∧ winCounts s (shed s r pos status ready) 0x140004 (lo + 15) lo 1 ∧
      ∀ p, (shed s r pos status ready).hpart p = s.hpart p := by
  unfold shed
  extract_lets s1
  have hs1 : s1 = wCount s 0x140004 (lo + 15) lo 1 := by
    rcases h with ⟨rfl, rfl⟩ | ⟨rfl, rfl⟩
    · exact if_pos rfl
    · exact if_neg (by decide)
  have hlo : lo + 15 < 32 := by omega
  clear_value s1
  subst hs1
  exact finished_shed hlo hopen _

/-- What an admitted request leaves: a credit and its buffer taken, the request behind those of its partition. -/
theorem admitReq_acts {s : State} {p r pos j b : Nat} {q : Session} {x : HostBuf} {k : Partn} (ws : List Word) (plan dead : Nat)
    (times : List Nat × List Nat × Nat) (hb : mget? s.hw.bufs b = some x) :
    mget? (admitReq s p r pos j b q k ws plan dead times).hw.sessions j = some { q with used := q.used + 1 } ∧
    mget? (admitReq s p r pos j b q k ws plan dead times).hw.bufs b = some { x with held := some (r, pos) } ∧
    ∃ g e, (admitReq s p r pos j b q k ws plan dead times).hpart p = some g ∧ g.reqs = k.reqs ++ [e] ∧ g.free = times.2.2 ∧ e.ring = r ∧ e.pos = pos ∧
      e.sess = j ∧ e.buf = b ∧ e.launches = times.1 ∧ e.barriers = times.2.1 ∧ e.started = false := by
  unfold admitReq State.hpart
  extract_lets req s1 _ s2 _ s3 mark s4
  have h3 : s3 = { s2 with hw := { s2.hw with bufs := mset s2.hw.bufs b { x with held := some (r, pos) } } } := by
    unfold s3
    rw [show mget? s2.hw.bufs b = some x from hb]
  have h4 : ∃ m, s4 = s3.withRings m := by
    unfold s4
    split
    · exact ⟨_, rfl⟩
    · exact ⟨s3.hw.rings, rfl⟩
  obtain ⟨m, hm⟩ := h4
  rw [bookAhead_hw, hm, h3]
  exact ⟨mget_mset_self .., mget_mset_self .., _, req, mget_mset_self .., rfl, rfl, rfl, rfl, rfl, rfl, rfl, rfl, rfl⟩

theorem judgeSubmit_acts {s : State} {r pos : Nat} {ws : List Word} {q : Session} {b : HostBuf} {k : Partn} {pl : PlanInfo} {secs : List SectionInfo}
    (hidle : hdrState (bufHeader s b) = bIdle) (hheld : b.held = none) (hbytes : 64 + pl.bytes ≤ b.bytes) (hopen : ringOpen s r pos)
    (hpart : s.hpart q.part = some k) (hbuf : mget? s.hw.bufs (hIndex (arg ws 3)) = some b) :
    let t := judgeSubmit s r pos ws q b k pl secs
    let times := planTimes secs (earliestLaunch s k q.clock ws)
    let shed (status lo : Nat) : Prop := cmdDone t r pos (fun st _ _ => st = status) ∧ winCounts s t 0x140004 (lo + 15) lo 1 ∧ t.hpart q.part = some k
    (q.credits ≤ q.used ∨ inRecovery k = true → shed csBusy 0) ∧
    (q.used < q.credits → inRecovery k = false → s.now + k.horizon * 4096 * (4 - q.cls) / 4 ≤ times.1.headD 0 → shed csBusy 0) ∧
    (q.used < q.credits → inRecovery k = false → times.1.headD 0 < s.now + k.horizon * 4096 * (4 - q.cls) / 4 →
      lineDev s q.clock (arg64 ws 8) (fld (arg ws 10) 13 0) ≤ times.2.1.getLastD 0 → shed csLate 16) ∧
    (q.used < q.credits → inRecovery k = false → times.1.headD 0 < s.now + k.horizon * 4096 * (4 - q.cls) / 4 →
      times.2.1.getLastD 0 < lineDev s q.clock (arg64 ws 8) (fld (arg ws 10) 13 0) →
      mget? t.hw.sessions (hIndex (arg ws 2)) = some { q with used := q.used + 1 } ∧
      mget? t.hw.bufs (hIndex (arg ws 3)) = some { b with held := some (r, pos) } ∧
      ∃ g e, t.hpart q.part = some g ∧ g.reqs = k.reqs ++ [e] ∧ g.free = times.2.2 ∧ e.ring = r ∧ e.pos = pos ∧
        e.sess = hIndex (arg ws 2) ∧ e.buf = hIndex (arg ws 3) ∧ e.launches = times.1 ∧ e.barriers = times.2.1 ∧ e.started = false) := by
  intro t times sheds
  have hshed : ∀ status lo ready, (status = csBusy ∧ lo = 0 ∨ status = csLate ∧ lo = 16) → t = shed s r pos status ready → sheds status lo := by
    intro status lo ready h ht
    obtain ⟨h1, h2, h3⟩ := shed_acts h ready hopen
    unfold sheds
    rw [ht, h3, hpart]
    exact ⟨h1, h2, rfl⟩
  have ht : t = if q.credits ≤ q.used then shed s r pos csBusy none
      else if inRecovery k then shed s r pos csBusy none
      else if s.now + k.horizon * 4096 * (4 - q.cls) / 4 ≤ times.1.headD 0 then shed s r pos csBusy (some (times.2.1.getLastD 0))
      else if lineDev s q.clock (arg64 ws 8) (fld (arg ws 10) 13 0) ≤ times.2.1.getLastD 0 then shed s r pos csLate (some (times.2.1.getLastD 0))
      else admitReq s q.part r pos (hIndex (arg ws 2)) (hIndex (arg ws 3)) q k ws (fld (arg ws 14) 7 0)
        (lineDev s q.clock (arg64 ws 8) (fld (arg ws 10) 13 0)) times := by
    unfold t judgeSubmit
    rw [if_neg (by simp [hidle, hheld]), if_neg (Nat.not_lt.mpr hbytes)]
  refine ⟨fun h => ?_, fun hu hr h => ?_, fun hu hr h h2 => ?_, fun hu hr h h2 => ?_⟩
  · by_cases hu : q.credits ≤ q.used
    · exact hshed _ _ none (Or.inl ⟨rfl, rfl⟩) (by rw [ht, if_pos hu])
    · exact hshed _ _ none (Or.inl ⟨rfl, rfl⟩) (by rw [ht, if_neg hu, if_pos (h.resolve_left hu)])
  · exact hshed _ _ _ (Or.inl ⟨rfl, rfl⟩) (by rw [ht, if_neg (Nat.not_le.mpr hu), if_neg (by simp [hr]), if_pos h])
  · exact hshed _ _ _ (Or.inr ⟨rfl, rfl⟩) (by rw [ht, if_neg (Nat.not_le.mpr hu), if_neg (by simp [hr]), if_neg (Nat.not_le.mpr h), if_pos h2])
  · rw [ht, if_neg (Nat.not_le.mpr hu), if_neg (by simp [hr]), if_neg (Nat.not_le.mpr h), if_neg (Nat.not_le.mpr h2)]
    exact admitReq_acts ws _ _ times hbuf

/-- The conditions of SUBMIT, on a request without inputs and without a time to wait for. -/
def submitOwn (s : State) (k : Ring) (ws : List Word) (q : Session) (b : HostBuf) (g : Partn) (d : Program) (pl : PlanInfo) : Prop :=
  mget? s.hw.sessions (hIndex (arg ws 2)) = some q ∧ mget? s.hw.bufs (hIndex (arg ws 3)) = some b ∧ s.hpart q.part = some g ∧
    mget? s.hw.progs q.prog = some d ∧ d.img.plans[fld (arg ws 14) 7 0]? = some pl ∧ b.part = q.part ∧ inScope k q.part ∧ q.ending = none ∧
    planSecs d.img (fld (arg ws 14) 7 0) ≠ [] ∧ fld (arg ws 10) 13 0 < clkLines s q.clock ∧ g.expelled = false ∧
    hdrState (bufHeader s b) = bIdle ∧ b.held = none ∧ 64 + pl.bytes ≤ b.bytes

/-- What SUBMIT leaves of its session, its buffer and its partition. -/
def submitPost (r pos : Nat) (s : State) (ws : List Word) (t : State) (q : Session) (b : HostBuf) (g : Partn) (d : Program) : Prop :=
  let times := planTimes (planSecs d.img (fld (arg ws 14) 7 0)) (roundUp4096 (max (s.now + 16384) g.free))
  let shed (status lo : Nat) : Prop := cmdDone t r pos (fun st _ _ => st = status) ∧ winCounts s t 0x140004 (lo + 15) lo 1 ∧
    t.hpart q.part = some g
  (q.credits ≤ q.used ∨ inRecovery g = true → shed csBusy 0) ∧
  (q.used < q.credits → inRecovery g = false → s.now + g.horizon * 4096 * (4 - q.cls) / 4 ≤ times.1.headD 0 → shed csBusy 0) ∧
  (q.used < q.credits → inRecovery g = false → times.1.headD 0 < s.now + g.horizon * 4096 * (4 - q.cls) / 4 →
    lineDev s q.clock (arg64 ws 8) (fld (arg ws 10) 13 0) ≤ times.2.1.getLastD 0 → shed csLate 16) ∧
  (q.used < q.credits → inRecovery g = false → times.1.headD 0 < s.now + g.horizon * 4096 * (4 - q.cls) / 4 →
    times.2.1.getLastD 0 < lineDev s q.clock (arg64 ws 8) (fld (arg ws 10) 13 0) →
    mget? t.hw.sessions (hIndex (arg ws 2)) = some { q with used := q.used + 1 } ∧
    mget? t.hw.bufs (hIndex (arg ws 3)) = some { b with held := some (r, pos) } ∧
    ∃ g2 e, t.hpart q.part = some g2 ∧ g2.reqs = g.reqs ++ [e] ∧ g2.free = times.2.2 ∧ e.ring = r ∧ e.pos = pos ∧
      e.sess = hIndex (arg ws 2) ∧ e.buf = hIndex (arg ws 3) ∧ e.launches = times.1 ∧ e.barriers = times.2.1 ∧ e.started = false)

theorem earliestLaunch_now (s : State) (g : Partn) (c : Nat) {ws : List Word} (h : bit (arg ws 13) 31 = false) :
    earliestLaunch s g c ws = roundUp4096 (max (s.now + 16384) g.free) := by
  unfold earliestLaunch
  rw [h]
  exact congrArg roundUp4096 (Nat.max_zero _)

/-- A request that SUBMIT judges is shed or admitted, and what it named is otherwise as it was. -/
theorem submitPost_of_judge {s : State} {r : Nat} {pos : Word} {code : Nat} {k : Ring} {ws : List Word} {q : Session} {b : HostBuf} {g : Partn} {d : Program}
    {pl : PlanInfo} {t : State} (hs : cmdStands s r pos code k ws) (hown : submitOwn s k ws q b g d pl) (hbit : bit (arg ws 13) 31 = false)
    (ht : t = judgeSubmit (s.beginAt r pos.toNat k) r pos.toNat ws q b g pl (planSecs d.img (fld (arg ws 14) 7 0))) :
    ∀ q b g d, mget? s.hw.sessions (hIndex (arg ws 2)) = some q → mget? s.hw.bufs (hIndex (arg ws 3)) = some b →
      s.hpart q.part = some g → mget? s.hw.progs q.prog = some d → submitPost r pos.toNat s ws t q b g d := by
  obtain ⟨hq, hb, hg, hd, hpl, hbq, hscope, hend, hsecs, hlines, hexp, hidle, hheld, hbytes⟩ := hown
  intro q2 b2 g2 d2 hq2 hb2 hg2 hd2
  obtain rfl : q = q2 := Option.some.inj (hq.symm.trans hq2)
  obtain rfl : b = b2 := Option.some.inj (hb.symm.trans hb2)
  obtain rfl : g = g2 := Option.some.inj (hg.symm.trans hg2)
  obtain rfl : d = d2 := Option.some.inj (hd.symm.trans hd2)
  rw [ht]
  have h := judgeSubmit_acts (s := s.beginAt r pos.toNat k) (secs := planSecs d.img (fld (arg ws 14) 7 0)) hidle hheld hbytes (beginAt_open hs) hg hb
  rw [earliestLaunch_now _ _ _ hbit] at h
  exact h

theorem submit_acts (r : Fin 16384) (pos : Word) :
    mbxLeads (.submit r pos) r.val pos 0x22 anyRec
      (fun s k ws => fld (arg ws 10) 31 14 = 0 ∧ fld (arg ws 13) 30 14 = 0 ∧ fld (arg ws 14) 31 8 = 0 ∧ hOk s hSession (arg ws 2) ∧ hOk s hBuffer (arg ws 3) ∧
        arg ws 4 = 0#32 ∧ arg ws 5 = 0#32 ∧ arg ws 6 = 0#32 ∧ arg ws 7 = 0#32 ∧ bit (arg ws 13) 31 = false ∧ s.hw.fault = false ∧
        ∃ q b g d pl, submitOwn s k ws q b g d pl)
      (fun s _ ws t => ∀ q b g d, mget? s.hw.sessions (hIndex (arg ws 2)) = some q → mget? s.hw.bufs (hIndex (arg ws 3)) = some b →
        s.hpart q.part = some g → mget? s.hw.progs q.prog = some d → submitPost r.val pos.toNat s ws t q b g d) := by
  refine mbxLeads_all (body := _) (fun _ => rfl) (fun a k ws h => ?_) (fun s k ws hs hw hown => ?_) anyRec
  · dsimp only
    rw [h]
    split
    · exact refused_ends rfl
    · exact ⟨_, _, rfl⟩
  obtain ⟨h10, h13, h14, hsess, hbuf, h4, h5, h6, h7, hbit, hfault, q, b, g, d, pl, hown⟩ := hown
  refine submitPost_of_judge hs hown hbit ?_
  obtain ⟨hq, hb, hg, hd, hpl, hbq, hscope, hend, hsecs, hlines, hexp, hidle, hheld, hbytes⟩ := hown
  extract_lets ins st0 part
  have hins : ins = [] := by
    unfold ins
    rw [show List.range 4 = [0, 1, 2, 3] from rfl]
    simp [h4, h5, h6, h7]
  have hst0 : st0 = csOk := judge_ok fun e he => by
    rw [hins] at he
    simp only [List.map_nil, List.append_nil, List.mem_cons, List.not_mem_nil, or_false] at he
    rcases he with rfl | rfl | rfl
    · simp [hw, h10, h13, h14]
    · exact badHandle_ok (hOk_beginAt hs hsess)
    · exact badHandle_ok (hOk_beginAt hs hbuf)
  split
  case h_2 hno => exact absurd hb (hno q b hq)
  next q2 b2 hq2 hb2 =>
  obtain rfl : q = q2 := Option.some.inj (hq.symm.trans hq2)
  obtain rfl : b = b2 := Option.some.inj (hb.symm.trans hb2)
  extract_lets st1
  have hst1 : st1 = csOk := judge_ok fun e he => by
    rw [hst0, hins] at he
    simp only [List.mem_cons, List.not_mem_nil, or_false] at he
    rcases he with rfl | rfl | rfl | rfl
    · rfl
    · exact outOfScope_ok hscope
    · simp [hbq]
    · simp [hend]
  rw [passed_goes hst1]
  have hplan : ((mget? (s.beginAt r.val pos.toNat k).hw.progs q.prog).bind fun g =>
      (g.img.plans[fld (arg ws 14) 7 0]?).map fun pl => (g.img, pl)) = some (d.img, pl) := by
    rw [show mget? (s.beginAt r.val pos.toNat k).hw.progs q.prog = some d from hd, Option.bind_some, hpl]
    rfl
  rw [hplan, show (s.beginAt r.val pos.toNat k).hpart q.part = some g from hg]
  have hfit : ¬ ((planSecs d.img (fld (arg ws 14) 7 0)).isEmpty = true ∨ clkLines (s.beginAt r.val pos.toNat k) q.clock ≤ fld (arg ws 10) 13 0 ∨
      bit (arg ws 13) 31 = true ∧ clkLines (s.beginAt r.val pos.toNat k) q.clock ≤ fld (arg ws 13) 13 0) := by
    rintro (hnil | hle | ⟨hset, _⟩)
    · exact hsecs (List.isEmpty_iff.mp hnil)
    · exact absurd hle (Nat.not_le.mpr hlines)
    · exact absurd (hbit.symm.trans hset) (by decide)
  have hfaultless : ¬ (s.beginAt r.val pos.toNat k).hw.fault = true := by
    rw [show (s.beginAt r.val pos.toNat k).hw.fault = false from hfault]
    decide
  have hkept : ¬ g.expelled = true := by
    rw [hexp]
    decide
  dsimp only
  rw [if_neg hfit, if_neg hkept, if_neg hfaultless]

/-- Settles O43: each command is begun and judged on its record; a partition that closes and a program that loads keep the tables that its
result is read from. -/
theorem partitionCommandsEnd : Obligations.PartitionCommandsEnd := fun r pos =>
  ⟨openPartition_acts r pos, closePartition_acts r pos, fun img => loadProgram_acts r pos img, setChecks_acts r pos, openSession_acts r pos,
    closeSession_acts r pos, submit_acts r pos⟩

end Sys2Proof.Machine
end

section
/-! PROOFS. Job messages between modules (R611 to R624). -/
namespace Sys2Proof.Machine

/-! ### A message is dropped or taken -/

/-- A message of a job that passes its checks: its queue pair, its partition, its tag, its type, its job, its number and its sender. -/
def jobGood (s : State) (q : Nat) (m : List Byte) (ty : Nat) (x : Qp) (k : Partn) : Prop :=
  s.qp q = some x ∧ s.hpart x.part = some k ∧ tagOk s k m 96 juJob = true ∧ msgNat m 0 1 = ty ∧ msgNat m 4 4 = k.checks.job ∧ x.seqRx < msgNat m 8 8 ∧ q ∉ k.dead

/-- The partition that has heard a peer. -/
def Partn.hears (k : Partn) (q now : Nat) : Partn := { k with heard := mset k.heard q now }

/-- The state in which a message has been heard. -/
def State.hears (s : State) (q : Nat) (m : List Byte) (x : Qp) (k : Partn) : State :=
  (s.setQp q { x with seqRx := msgNat m 8 8 }).setPart x.part (k.hears q s.now)

theorem onJob_bad {s : State} {q ty : Nat} {m : List Byte} (h : ∀ x k, ¬ jobGood s q m ty x k) (eff : State → Nat → Partn → State) :
    onJob s q ty m eff = dropJob s q ty := by
  unfold onJob
  split
  · rfl
  · next x hx =>
    split
    · rfl
    · next k hk =>
      refine if_pos ?_
      by_contra hno
      refine h x k ⟨hx, hk, ?_⟩
      simpa using hno

theorem onJob_good {s : State} {q ty : Nat} {m : List Byte} {x : Qp} {k : Partn} (h : jobGood s q m ty x k) (eff : State → Nat → Partn → State) :
    onJob s q ty m eff = eff (s.hears q m x k) x.part (k.hears q s.now) := by
  obtain ⟨hx, hk, htag, hty, hjob, hseq, hdead⟩ := h
  unfold onJob
  rw [hx]
  dsimp only
  rw [hk]
  exact if_neg (by simpa using ⟨htag, hty, hjob, hseq, hdead⟩)

theorem hears_hpart (s : State) (q : Nat) (m : List Byte) (x : Qp) (k : Partn) : (s.hears q m x k).hpart x.part = some (k.hears q s.now) :=
  hpart_setPart_self ..

theorem hears_heard (k : Partn) (q now : Nat) : mget? (k.hears q now).heard q = some now := mget_mset_self ..

theorem dropJob_quench (s : State) (q : Nat) :
    winCounts s (dropJob s q 0x10) (pReg (((s.qp q).map Qp.port).getD 0) 0x8C) 31 0 1 ∧ (dropJob s q 0x10).hw = s.hw :=
  ⟨(portErr_counts s _ (c := 11) (by decide) 1).1, rfl⟩

theorem dropJob_other (s : State) (q : Nat) {ty : Nat} (h : ty ≠ 0x10) : onlyWin s (dropJob s q ty) ∧ winCounts s (dropJob s q ty) iAuth 15 0 1 := by
  unfold dropJob
  rw [if_neg h]
  exact iAuth_counted s

/-! ### What a halt, a hold and a release leave of a partition -/

/-- A halt that is asked for leads to a recovery. -/
theorem haltFor_recov {s : State} {p next : Nat} {k : Partn} (hk : s.hpart p = some k) : ∃ g, (haltFor s p next).hpart p = some g ∧ g.recov = max k.recov next := by
  unfold haltFor
  rw [hk]
  dsimp only
  split
  · exact ⟨_, hpart_setPart_self .., rfl⟩
  · exact ⟨_, hpart_setPart_self .., rfl⟩

theorem quenchHold_recov {s : State} {p : Nat} {k : Partn} (hk : s.hpart p = some k) :
    ∃ g, (quenchHold s p).hpart p = some g ∧ g.calm = k.calm ∧ g.heldJob = true ∧ g.recov ≠ 0 := by
  obtain ⟨rs, hrs⟩ := (endRequests_reqs s p csAborted 0).hpart hk
  obtain ⟨g, hg, hrec⟩ := haltFor_recov (next := 1) hrs
  obtain ⟨g1, hg1, hcalm, _⟩ := (haltFor_acted _ p 1).part p _ hrs
  obtain rfl : g = g1 := Option.some.inj (hg.symm.trans hg1)
  refine ⟨{ g with heldJob := true }, ?_, hcalm, rfl, ?_⟩
  · unfold quenchHold
    rw [updPart, hg]
    exact hpart_setPart_self ..
  · show g.recov ≠ 0
    rw [hrec]
    exact Nat.ne_of_gt (Nat.lt_of_lt_of_le Nat.one_pos (Nat.le_max_right ..))

theorem updPart_hpart {s : State} {p : Nat} {k : Partn} (hk : s.hpart p = some k) (f : Partn → Partn) : (updPart s p f).hpart p = some (f k) := by
  unfold updPart
  rw [hk]
  exact hpart_setPart_self ..

theorem bookAhead_hpart (s : State) (p n : Nat) : (bookAhead s p).hpart n = s.hpart n := congrArg (fun x : Heartwood => mget? x.parts n) (bookAhead_hw s p)

/-- Requests that are timed anew leave the rest of their partition. -/
theorem retime_hpart {s : State} {p : Nat} {k : Partn} (hk : s.hpart p = some k) : ∃ rs free, (retime s p).hpart p = some { k with reqs := rs, free := free } := by
  unfold retime
  exact ⟨_, _, updPart_hpart hk _⟩

/-- A partition without a hold. -/
def Partn.released (k : Partn) : Partn := { k with holdAt := none, holdFor := none, partner := none }

theorem releaseHold_eq (s : State) (p : Nat) : releaseHold s p = bookAhead (retime (updPart s p Partn.released) p) p := rfl

theorem releaseHold_acts {s : State} {p : Nat} {k : Partn} (hk : s.hpart p = some k) :
    ∃ g, (releaseHold s p).hpart p = some g ∧ g.heard = k.heard ∧ g.holdAt = none ∧ g.holdFor = none ∧ g.partner = none := by
  obtain ⟨rs, free, h⟩ := retime_hpart (updPart_hpart hk Partn.released)
  rw [releaseHold_eq]
  exact ⟨_, (bookAhead_hpart ..).trans h, rfl, rfl, rfl, rfl⟩

theorem endAdmission_acts {s : State} {p : Nat} {k : Partn} (hk : s.hpart p = some k) (d : Admission) (status : Nat) :
    (endAdmission s p d status).hpart p = some { k with joiner := none } ∧ fld (wReg (endAdmission s p d status) 0x200008) 3 0 = 0 := by
  unfold endAdmission
  have h1 : (updPart s p fun k => { k with joiner := none }).hpart p = some { k with joiner := none } := updPart_hpart hk fun k => { k with joiner := none }
  generalize (updPart s p fun k => { k with joiner := none }) = a at h1 ⊢
  have h2 := (finishCmd_hpart a d.ring d.pos status 0#32 [] p).trans h1
  generalize finishCmd a d.ring d.pos status 0#32 [] = b at h2 ⊢
  exact ⟨h2, fld_wFld_self b 0x200008 0 0 (by decide)⟩

/-! ### The messages -/

theorem foldl_devWrite_hw (l : List (Nat × Nat)) (a : State × List Byte) :
    ((l.foldl (fun (a : State × List Byte) e => (devWrite a.1 e.1 (a.2.take e.2), a.2.drop e.2)) a).1).hw = a.1.hw := by
  induction l generalizing a with
  | nil => rfl
  | cons e l ih => exact (ih _).trans (devWrite_written ..).hw

theorem placeState_hpart (s : State) (p : Nat) (k : Partn) (data : List Byte) (n : Nat) : (placeState s p k data).hpart n = s.hpart n := by
  have hw : (placeState s p k data).hw = s.hw := by
    unfold placeState
    dsimp only
    exact (foldl_devWrite_hw ..).trans (devWrite_written ..).hw
  exact congrArg (fun x : Heartwood => mget? x.parts n) hw

theorem takeState_acts {s : State} {p : Nat} {k : Partn} (hk : s.hpart p = some k) (d : Admission) (m data : List Byte) :
    (data.length ≠ msgNat m 40 8 ∨ Config.shake256 data 32 ≠ (m.drop 64).take 32 → (takeState s p k d m data).hpart p = some { k with joiner := none }) ∧
    (data.length = msgNat m 40 8 → Config.shake256 data 32 = (m.drop 64).take 32 → ∃ g, (takeState s p k d m data).hpart p = some g ∧
      g.heard = k.heard ∧ g.joiner = none ∧ g.committed = msgNat m 24 8 ∧ g.step = msgNat m 24 8 + 1) := by
  unfold takeState
  refine ⟨fun h => ?_, fun hl hd => ?_⟩
  · dsimp only
    rw [if_pos h]
    exact (endAdmission_acts hk ..).1
  · dsimp only
    rw [if_neg (by simp [hl, hd])]
    have h1 : (placeState s p k data).hpart p = some k := (placeState_hpart ..).trans hk
    have h2 := updPart_hpart h1 fun x => { x with step := msgNat m 24 8 + 1, committed := msgNat m 24 8, sealed := msgNat m 24 8, runs := 1 }
    have h3 := ((sendJob_sent (updPart (placeState s p k data) p fun x =>
      { x with step := msgNat m 24 8 + 1, committed := msgNat m 24 8, sealed := msgNat m 24 8, runs := 1 }) p (livePeers k)
        ⟨0x14, 0, 0, s.mod.serial, msgNat m 24 8, 0, 0, 0, []⟩).hpart p).trans h2
    obtain ⟨rs, free, h5⟩ := retime_hpart (endAdmission_acts h3 d csOk).1
    exact ⟨_, (bookAhead_hpart ..).trans h5, rfl, rfl, rfl, rfl⟩

theorem takeQuench_acts {s : State} {p : Nat} {k : Partn} (q : Nat) {m : List Byte}
    (hnew : (msgNat m 16 8, msgNat m 48 8) ∉ k.quenches) :
    ∃ g, (takeQuench s p k q m).hpart p = some g ∧ g.heard = k.heard ∧ g.heldJob = true ∧ g.recov ≠ 0 := by
  unfold takeQuench
  extract_lets origin qid s1 s2
  rw [if_neg (by simpa using hnew)]
  have h1 : s1.hpart p = some { k with quenches := noteQuench k.quenches (origin, qid) } := hpart_setPart_self ..
  have h2 := ((sendJob_sent s1 p ((quenchPeers k).filter fun x => x != q) ⟨0x10, 2, msgNat m 2 1, origin, msgNat m 24 8, 0, 0, qid, []⟩).hpart p).trans h1
  obtain ⟨g, hg, hcalm, hheld, hrec⟩ := quenchHold_recov h2
  exact ⟨g, hg, (congrArg Partn.heard hcalm :), hheld, hrec⟩

theorem takeQuench_known {s : State} {p : Nat} {k : Partn} (q : Nat) {m : List Byte} (hold : (msgNat m 16 8, msgNat m 48 8) ∈ k.quenches) :
    takeQuench s p k q m = s := by
  unfold takeQuench
  exact if_pos (by simpa using hold)

theorem takeLive_hold {s : State} {p : Nat} {k : Partn} (q : Nat) {m : List Byte} (hflag : msgNat m 1 1 % 2 = 1)
    (hcls : k.checks.cls ≠ 1) (hhold : k.holdAt = none) (hstep : k.committed ≤ msgNat m 24 8) :
    takeLive s p k q m = takeHold (s.setPart p { k with holdFor := some (q, msgNat m 24 8) }) p := by
  unfold takeLive
  dsimp only
  rw [if_neg hcls, if_pos hflag, if_neg (by simpa [hhold] using hstep)]

/-- A partition that is asked to hold at a step still ahead waits for it. -/
theorem takeLive_ahead {s : State} {p : Nat} {k : Partn} (q : Nat) {m : List Byte} (hflag : msgNat m 1 1 % 2 = 1)
    (hcls : k.checks.cls ≠ 1) (hhold : k.holdAt = none) (hstep : k.committed < msgNat m 24 8) :
    (takeLive s p k q m).hpart p = some { k with holdFor := some (q, msgNat m 24 8) } := by
  rw [takeLive_hold q hflag hcls hhold (Nat.le_of_lt hstep), takeHold, hpart_setPart_self]
  dsimp only
  rw [if_neg (Nat.ne_of_lt hstep), hpart_setPart_self]

/-- A partition that is asked to hold at the step it has committed holds. -/
theorem takeLive_at {s : State} {p : Nat} {k : Partn} (q : Nat) {m : List Byte} (hflag : msgNat m 1 1 % 2 = 1)
    (hcls : k.checks.cls ≠ 1) (hhold : k.holdAt = none) (hstep : k.committed = msgNat m 24 8) :
    (takeLive s p k q m).hpart p = some { k with holdFor := none, holdAt := some (q, s.now) } := by
  rw [takeLive_hold q hflag hcls hhold (Nat.le_of_eq hstep), takeHold, hpart_setPart_self]
  dsimp only
  rw [if_pos hstep]
  exact updPart_hpart (s := cancelBooked (s.setPart p { k with holdFor := some (q, msgNat m 24 8) }) p) (hpart_setPart_self ..) _

theorem takeLive_plain {s : State} {p : Nat} {k : Partn} (q : Nat) {m : List Byte} (h : msgNat m 1 1 % 2 = 0 ∨ k.checks.cls = 1)
    (hhold : k.holdAt = none) (hfor : k.holdFor = none) : takeLive s p k q m = s := by
  unfold takeLive
  by_cases hcls : k.checks.cls = 1
  · exact if_pos hcls
  · dsimp only
    rw [if_neg hcls, if_neg (by rw [h.resolve_right hcls]; decide), if_neg (by simp [hhold, hfor])]

theorem jobMessages_act (q : BitVec 16) (m data : List Byte) (s : State) :
    let good (ty : Nat) (x : Qp) (k : Partn) : Prop := jobGood s q.toNat m ty x k
    let dropped (c : Instr) : Prop := leads c s fun t => onlyWin s t ∧ winCounts s t iAuth 15 0 1
    let heard (c : Instr) (x : Qp) (post : State → Partn → Prop) : Prop := leads c s fun t => ∃ g, t.hpart x.part = some g ∧
      mget? g.heard q.toNat = some s.now ∧ post t g
    ((∀ x k, ¬ good 0x10 x k) → leads (.quench q m) s fun t =>
      winCounts s t (pReg (((s.qp q.toNat).map Qp.port).getD 0) 0x8C) 31 0 1 ∧ t.hw = s.hw) ∧
    ((∀ x k, ¬ good 0x11 x k) → dropped (.live q m)) ∧ ((∀ x k, ¬ good 0x12 x k) → dropped (.join q m)) ∧
    ((∀ x k, ¬ good 0x13 x k) → dropped (.state q m data)) ∧ ((∀ x k, ¬ good 0x14 x k) → dropped (.joined q m)) ∧
    ∀ x k,
      (good 0x10 x k → k.checks.cls ≠ 1 → (msgNat m 16 8, msgNat m 48 8) ∉ k.quenches → heard (.quench q m) x fun _ g => g.heldJob = true ∧ g.recov ≠ 0) ∧
      (good 0x10 x k → k.checks.cls ≠ 1 → (msgNat m 16 8, msgNat m 48 8) ∈ k.quenches → heard (.quench q m) x fun t g =>
        g.heldJob = k.heldJob ∧ t.net = s.net ∧ t.reply = s.reply) ∧
      (good 0x11 x k → msgNat m 1 1 % 2 = 0 ∨ k.checks.cls = 1 → k.holdAt = none → k.holdFor = none → heard (.live q m) x fun t g =>
        g.holdAt = none ∧ ∃ y, t.qp q.toNat = some y ∧ y.seqRx = msgNat m 8 8) ∧
      (good 0x11 x k → msgNat m 1 1 % 2 = 1 → k.checks.cls ≠ 1 → k.holdAt = none → k.committed < msgNat m 24 8 → heard (.live q m) x fun _ g =>
        g.holdFor = some (q.toNat, msgNat m 24 8)) ∧
      (good 0x11 x k → msgNat m 1 1 % 2 = 1 → k.checks.cls ≠ 1 → k.holdAt = none → k.committed = msgNat m 24 8 → heard (.live q m) x fun _ g =>
        g.holdAt = some (q.toNat, s.now)) ∧
      (good 0x12 x k → heard (.join q m) x fun _ g => g.partner = some q.toNat) ∧
      (good 0x13 x k → (∀ d, k.joiner = some d → d.qp ≠ q.toNat) → heard (.state q m data) x fun _ g => g.committed = k.committed) ∧
      (∀ d, good 0x13 x k → k.joiner = some d → d.qp = q.toNat →
        (data.length ≠ msgNat m 40 8 ∨ Config.shake256 data 32 ≠ (m.drop 64).take 32 → heard (.state q m data) x fun _ g =>
          g.joiner = none ∧ g.committed = k.committed) ∧
        (data.length = msgNat m 40 8 → Config.shake256 data 32 = (m.drop 64).take 32 → heard (.state q m data) x fun _ g =>
          g.joiner = none ∧ g.committed = msgNat m 24 8 ∧ g.step = msgNat m 24 8 + 1)) ∧
      (good 0x14 x k → heard (.joined q m) x fun _ g => g.holdAt = none ∧ g.holdFor = none) := by
  intro good dropped heard
  have hdropped : ∀ (c : Instr) {ty : Nat} {eff : State → Nat → Partn → State}, exec c s = .next (onJob s q.toNat ty m eff) → ty ≠ 0x10 →
      (∀ x k, ¬ good ty x k) → dropped c := fun c ty eff hdef hty hbad => by
    rw [onJob_bad hbad] at hdef
    exact leads_of hdef (dropJob_other s q.toNat hty)
  have hheard : ∀ (c : Instr) {ty : Nat} {eff : State → Nat → Partn → State} {x : Qp} {k : Partn} {post : State → Partn → Prop},
      exec c s = .next (onJob s q.toNat ty m eff) → good ty x k →
      (∃ g, (eff (s.hears q.toNat m x k) x.part (k.hears q.toNat s.now)).hpart x.part = some g ∧ g.heard = (k.hears q.toNat s.now).heard ∧
        post (eff (s.hears q.toNat m x k) x.part (k.hears q.toNat s.now)) g) → heard c x post := fun c ty eff x k post hdef hgood hpost => by
    rw [onJob_good hgood] at hdef
    obtain ⟨g, hg, hhe, hp⟩ := hpost
    exact leads_of hdef ⟨g, hg, hhe ▸ hears_heard k q.toNat s.now, hp⟩
  refine ⟨fun hbad => ?_, hdropped _ rfl (by decide), hdropped _ rfl (by decide), hdropped _ rfl (by decide), hdropped _ rfl (by decide), fun x k =>
    ⟨fun hg hcls hnew => hheard _ rfl hg ?_, fun hg hcls hold => hheard _ rfl hg ?_, fun hg hplain hat hfor => hheard _ rfl hg ?_,
      fun hg hflag hcls hat hstep => hheard _ rfl hg ?_, fun hg hflag hcls hat hstep => hheard _ rfl hg ?_, fun hg => hheard _ rfl hg ?_,
      fun hg hother => hheard _ rfl hg ?_, fun d hg hjoin hd => ⟨fun hwrong => hheard _ rfl hg ?_, fun hlen hdig => hheard _ rfl hg ?_⟩,
      fun hg => hheard _ rfl hg ?_⟩⟩
  · have hdef : exec (.quench q m) s = .next (onJob s q.toNat 0x10 m _) := rfl
    rw [onJob_bad hbad] at hdef
    exact leads_of hdef (dropJob_quench s q.toNat)
  · rw [if_neg (show ¬ (k.hears q.toNat s.now).checks.cls = 1 from hcls)]
    exact takeQuench_acts q.toNat hnew
  · rw [if_neg (show ¬ (k.hears q.toNat s.now).checks.cls = 1 from hcls), takeQuench_known (k := k.hears q.toNat s.now) q.toNat hold]
    exact ⟨_, hears_hpart .., rfl, rfl, rfl, rfl⟩
  · rw [takeLive_plain (k := k.hears q.toNat s.now) q.toNat hplain hat hfor]
    exact ⟨_, hears_hpart .., rfl, hat, _, mget_mset_self .., rfl⟩
  · exact ⟨_, takeLive_ahead (k := k.hears q.toNat s.now) q.toNat hflag hcls hat hstep, rfl, rfl⟩
  · exact ⟨_, takeLive_at (k := k.hears q.toNat s.now) q.toNat hflag hcls hat hstep, rfl, rfl⟩
  · exact ⟨_, hpart_setPart_self .., rfl, rfl⟩
  · split
    · next d hd =>
      rw [if_neg (hother d hd)]
      exact ⟨_, hears_hpart .., rfl, rfl⟩
    · exact ⟨_, hears_hpart .., rfl, rfl⟩
  · rw [show (k.hears q.toNat s.now).joiner = some d from hjoin]
    dsimp only
    rw [if_pos hd]
    exact ⟨_, (takeState_acts (hears_hpart ..) d m data).1 hwrong, rfl, rfl, rfl⟩
  · rw [show (k.hears q.toNat s.now).joiner = some d from hjoin]
    dsimp only
    rw [if_pos hd]
    exact (takeState_acts (hears_hpart ..) d m data).2 hlen hdig
  · split
    · obtain ⟨g, hgp, hhe, hat, hfor, _⟩ := releaseHold_acts (hears_hpart s q.toNat m x k)
      exact ⟨g, hgp, hhe, hat, hfor⟩
    · next hno =>
      obtain ⟨hat, hfor⟩ := not_or.mp hno
      exact ⟨_, hears_hpart .., rfl, Option.not_isSome_iff_eq_none.mp hat, Option.not_isSome_iff_eq_none.mp hfor⟩

/-! ### Times -/

theorem liveSend_acts {s : State} {part : Nat} {k : Partn} (hk : s.hpart part = some k) :
    leads (.liveSend part) s fun t => t.now = max s.now (k.liveAt + k.liveMs * 1600000 / 5) ∧ t.hpart part = some { k with liveAt := t.now } := by
  have hdef : exec (.liveSend part) s = execLiveSend part s := rfl
  unfold execLiveSend at hdef
  rw [hk] at hdef
  dsimp only at hdef
  refine leads_of hdef ?_
  generalize hs2 : ((s.reach (k.liveAt + k.liveMs * msCyc / 5)).setPart part { k with liveAt := (s.reach (k.liveAt + k.liveMs * msCyc / 5)).now }) = s2
  have h := sendJob_sent s2 part (livePeers k) ⟨0x11, bnat k.holdAt.isSome, 0, s.mod.serial, k.committed, 0, 0, 0, []⟩
  have hnow : s2.now = max s.now (k.liveAt + k.liveMs * 1600000 / 5) := by rw [← hs2]; rfl
  refine ⟨h.now.trans hnow, ?_⟩
  rw [h.hpart, h.now, ← hs2]
  exact hpart_setPart_self ..

theorem unit_peer (s : State) {q : Nat} (hq : q < 65536) :
    unitKind (peerUnit s q) = 7 ∧ unitId (peerUnit s q) % 1048576 = q := by
  have hid : fld (handleOf s hQp q) 27 0 % 1048576 = q := by
    simp only [fld, handleOf, BitVec.toNat_ofNat]
    omega
  have hlt : fld (handleOf s hQp q) 27 0 < 268435456 := fld_lt _ 27 0
  unfold unitKind unitId peerUnit unitWord uPeer
  generalize fld (handleOf s hQp q) 27 0 = i at hid hlt
  simp only [fld, BitVec.toNat_ofNat]
  omega

theorem qpFail_parts (s : State) (q synd : Nat) : (qpFail s q synd).hw.parts = s.hw.parts := by
  unfold qpFail
  split
  · rfl
  · split <;> rfl

/-- A peer that is fenced is dead to its partition. -/
theorem fenceUnit_peer {s : State} {part q : Nat} {k : Partn} (hk : s.hpart part = some k) (hq : q < 65536) (hunf : unitFenced s (peerUnit s q) = false)
    (cause pm : Nat) : (fenceUnit s (peerUnit s q) cause part pm).hpart part = some { k with dead := keyAdd k.dead q } := by
  obtain ⟨hkind, hid⟩ := unit_peer s hq
  generalize peerUnit s q = u at hkind hid hunf
  have hreg : patReg u = none := by
    unfold patReg
    rw [hkind]
    rfl
  have hpart : partOfUnit s u = none := by
    unfold partOfUnit
    rw [hkind]
    rfl
  unfold fenceUnit
  rw [if_neg (by rw [hunf]; decide), hreg, hpart]
  dsimp only
  have heff : ∀ a : State, fenceEffect a u cause part = updPart (qpFail a q 0xFF) part fun k => { k with dead := keyAdd k.dead q } := by
    intro a
    unfold fenceEffect
    rw [hkind, hid]
    rfl
  rw [heff]
  refine (updPart_hpart (s := qpFail { s with hw := { s.hw with fenced := s.hw.fenced ++ [u] } } q 0xFF) (k := k) ?_ _ :)
  exact (congrArg (mget? · part) (qpFail_parts ..)).trans hk

theorem peerDead_acts {s : State} {part : Nat} {k : Partn} (hk : s.hpart part = some k) (q : BitVec 16) (hq : q.toNat ∈ livePeers k)
    (hunf : unitFenced s (peerUnit s q.toNat) = false) :
    leads (.peerDead part q) s fun t =>
      mgetD k.heard q.toNat s.now + k.liveMs * 1600000 ≤ t.now ∧ peerUnit s q.toNat ∈ t.hw.fenced ∧
      ∃ g, t.hpart part = some g ∧ q.toNat ∈ g.dead ∧ (k.checks.cls ≠ 1 → g.heldJob = true) := by
  have hdef : exec (.peerDead part q) s = execPeerDead part q s := rfl
  unfold execPeerDead at hdef
  rw [hk] at hdef
  dsimp only at hdef
  rw [if_neg (by simpa using hq)] at hdef
  generalize hs1 : s.reach (mgetD k.heard q.toNat s.now + k.liveMs * msCyc) = s1 at hdef
  have hnow : mgetD k.heard q.toNat s.now + k.liveMs * 1600000 ≤ s1.now := by
    rw [← hs1]
    exact Nat.le_max_right ..
  have hpeer : peerUnit s1 q.toNat = peerUnit s q.toNat := by
    rw [← hs1]
    rfl
  have hdead := fenceUnit_peer (s := s1) (part := part) (k := k) (by rw [← hs1]; exact hk) q.isLt (by rw [hpeer, ← hs1]; exact hunf) fcPeerDead noPm
  have hfenced := fenceUnit_fenced s1 (peerUnit s1 q.toNat) fcPeerDead part noPm
  have hnow2 := fenceUnit_now s1 (peerUnit s1 q.toNat) fcPeerDead part noPm
  rw [hpeer] at hdef hdead hfenced hnow2
  generalize fenceUnit s1 (peerUnit s q.toNat) fcPeerDead part noPm = s2 at hdef hdead hfenced hnow2
  by_cases hcls : k.checks.cls = 1
  · rw [if_pos hcls] at hdef
    exact leads_of hdef ⟨hnow2 ▸ hnow, List.contains_iff_mem.mp hfenced, _, hdead, mem_keyAdd_self .., fun h => absurd hcls h⟩
  · rw [if_neg hcls] at hdef
    obtain ⟨g, hg, hcalm, _⟩ := (originateQuench_acted s2 part quPeerDead).part part _ hdead
    obtain ⟨g2, hg2, hcalm2, hheld, _⟩ := quenchHold_recov hg
    have hact := (originateQuench_acted s2 part quPeerDead).trans (quenchHold_acted _ part)
    have hd : g2.dead = keyAdd k.dead q.toNat := (congrArg Partn.dead (hcalm2.trans hcalm) :)
    refine leads_of hdef ⟨?_, ?_, g2, hg2, hd ▸ mem_keyAdd_self .., fun _ => hheld⟩
    · rw [hact.now, hnow2]
      exact hnow
    · rw [quenchHold_fenced, originateQuench_fenced]
      exact List.contains_iff_mem.mp hfenced

theorem admitTimeout_joiner {s : State} {part : Nat} {k : Partn} (hk : s.hpart part = some k) {d : Admission} (hd : k.joiner = some d) :
    leads (.admitTimeout part) s fun t => t.now = max s.now d.until_ ∧ t.hpart part = some { k with joiner := none } ∧ fld (wReg t 0x200008) 3 0 = 0 := by
  have hdef : exec (.admitTimeout part) s = execAdmitTimeout part s := rfl
  unfold execAdmitTimeout at hdef
  rw [hk] at hdef
  dsimp only at hdef
  rw [hd] at hdef
  refine leads_of hdef ⟨?_, endAdmission_acts (s := s.reach d.until_) hk d csFailed⟩
  rw [endAdmission_now]
  rfl

theorem admitTimeout_hold {s : State} {part : Nat} {k : Partn} (hk : s.hpart part = some k) (hd : k.joiner = none) {h : Nat × Nat} (hh : k.holdAt = some h) :
    leads (.admitTimeout part) s fun t => t.now = max s.now (h.2 + 3200000000) ∧
      ∃ g, t.hpart part = some g ∧ g.holdAt = none ∧ g.holdFor = none ∧ g.partner = none := by
  have hdef : exec (.admitTimeout part) s = execAdmitTimeout part s := rfl
  unfold execAdmitTimeout at hdef
  rw [hk] at hdef
  dsimp only at hdef
  rw [hd, hh] at hdef
  obtain ⟨g, hg, _, hat, hfor, hpar⟩ := releaseHold_acts (s := s.reach (h.2 + 2000 * msCyc)) hk
  refine leads_of hdef ⟨?_, g, hg, hat, hfor, hpar⟩
  rw [releaseHold_now]
  rfl

/-- Settles O51: a message is dropped or heard, and what it asks for is read from its partition; the times of LIVE, of a silent peer and of an
admission follow. -/
theorem jobMessagesAct : Obligations.JobMessagesAct := by
  refine ⟨fun q m data s => jobMessages_act q m data s, fun part s => ⟨fun hnone => ?_, fun k hk => ?_⟩⟩
  · have hlive : exec (.liveSend part) s = execLiveSend part s := rfl
    have hadmit : exec (.admitTimeout part) s = execAdmitTimeout part s := rfl
    unfold execLiveSend at hlive
    unfold execAdmitTimeout at hadmit
    rw [hnone] at hlive hadmit
    refine ⟨hlive, hadmit, fun q => ?_⟩
    have hdead : exec (.peerDead part q) s = execPeerDead part q s := rfl
    unfold execPeerDead at hdead
    rw [hnone] at hdead
    exact hdead
  · refine ⟨liveSend_acts hk, fun q hq => ?_, fun q hq hunf => peerDead_acts hk q hq hunf, fun hjoin hhold => ?_, fun d hd => admitTimeout_joiner hk hd,
      fun h hd hh => admitTimeout_hold hk hd hh⟩
    · have hdead : exec (.peerDead part q) s = execPeerDead part q s := rfl
      unfold execPeerDead at hdead
      rw [hk] at hdead
      exact hdead.trans (if_pos (by simpa using hq))
    · have hadmit : exec (.admitTimeout part) s = execAdmitTimeout part s := rfl
      unfold execAdmitTimeout at hadmit
      rw [hk] at hadmit
      dsimp only at hadmit
      rw [hjoin, hhold] at hadmit
      exact hadmit

end Sys2Proof.Machine
end

section
/-! PROOFS. Heat of regions and stacks, pollarding and coolant (R653 to R664). -/
namespace Sys2Proof.Machine

/-! ### The registers of a region and of a row -/

theorem rg_ne {p a b : Nat} (h : a ≠ b) : rg p a ≠ rg p b := by
  unfold rg
  omega

theorem rowReg_ne_rg {p q a : Nat} (h : q < 6) : rg p a ≠ rowReg q := by
  unfold rg rowReg
  omega

theorem rg_apart {p q a b : Nat} (hp : p ≠ q) (ha : a < 0x100) (hb : b < 0x100) : rg p a ≠ rg q b := by
  unfold rg
  omega

/-- The registers of regions count nothing that is sent. -/
theorem notSent_rg {p a : Nat} (ha : a < 0x50) : notSent (rg p a) := by
  unfold notSent rg
  omega

theorem rg_ne_recoveries {p a : Nat} (hp : p < 48) (ha : a < 0x100) : rg p a ≠ 0x200008 := by
  unfold rg
  omega

theorem thermal_of_win {s t : State} (h : t.win = s.win) (p : Nat) : thermal t p = thermal s p :=
  congrArg (fun m => fld (regRaw windowRegs m (rg p 0x38)) 2 0) h

theorem thermal_setThermal (s : State) (p : Nat) {v : Nat} (h : v < 8) : thermal (setThermal s p v) p = v :=
  (fld_wFld_self s (rg p 0x38) 0 v (by decide)).trans (Nat.mod_eq_of_lt h)

theorem thermal_setTmax (s : State) (p : Nat) (temp : BitVec 8) : thermal (setTmax s p temp) p = thermal s p :=
  congrArg (fld · 2 0) (wReg_wFld_ne _ _ _ _ _ _ (rg_ne (by decide)))

theorem tmax_setTmax (s : State) (p : Nat) (temp : BitVec 8) : fld (wReg (setTmax s p temp) (rg p 0x30)) 7 0 = temp.toNat :=
  (fld_wFld_self s (rg p 0x30) 0 temp.toNat (by decide)).trans (Nat.mod_eq_of_lt temp.isLt)

theorem tmax_setThermal (s : State) (p v : Nat) : wReg (setThermal s p v) (rg p 0x30) = wReg s (rg p 0x30) :=
  wReg_wFld_ne _ _ _ _ _ _ (rg_ne (by decide))

theorem onlyWin_setThermal (s : State) (p v : Nat) (temp : BitVec 8) : onlyWin s (setThermal (setTmax s p temp) p v) := rfl

/-- The rows' places of regions stand in no register of a region. -/
theorem partOfPhys_of_rows {s t : State} {p : Nat} (hrow : wReg t (rowReg (p / 8)) = wReg s (rowReg (p / 8))) (hparts : t.hw.parts = s.hw.parts) :
    partOfPhys t p = partOfPhys s p := by
  have hlog : logOf t p = logOf s p := by
    unfold logOf rstkCol rowWord
    rw [hrow]
  unfold partOfPhys partOfRegion
  rw [hlog, hparts]

theorem partOfPhys_setTmax (s : State) (p : Fin 48) (temp : BitVec 8) : partOfPhys (setTmax s p.val temp) p.val = partOfPhys s p.val :=
  partOfPhys_of_rows (wReg_wFld_ne _ _ _ _ _ _ (rowReg_ne_rg (by omega)).symm) rfl

theorem partOfPhys_setThermal (s : State) (p : Fin 48) (v : Nat) : partOfPhys (setThermal s p.val v) p.val = partOfPhys s p.val :=
  partOfPhys_of_rows (wReg_wFld_ne _ _ _ _ _ _ (rowReg_ne_rg (by omega)).symm) rfl

/-! ### Rails -/

/-- A region without its rail: the register of its rail says which, and nothing else of the window has changed. -/
theorem railDown_win (s : State) (p rail : Nat) : (railDown s p rail).win = (wFld (wFld s (rg p 4) 2 1 rail) (rg p 4) 0 0 0).win := by
  unfold railDown
  extract_lets s1 _ _ s2
  split <;> rfl

theorem railDown_reg (s : State) (p rail : Nat) {o : Nat} (h : o ≠ rg p 4) : wReg (railDown s p rail) o = wReg s o := by
  have e : wReg (railDown s p rail) o = wReg (wFld (wFld s (rg p 4) 2 1 rail) (rg p 4) 0 0 0) o :=
    congrArg (fun m => regRaw windowRegs m o) (railDown_win s p rail)
  rw [e, wReg_wFld_ne _ _ _ _ _ _ h, wReg_wFld_ne _ _ _ _ _ _ h]

theorem railOf_railDown (s : State) (p : Nat) {rail : Nat} (h : rail < 4) : railOf (railDown s p rail) p = rail := by
  have e : railOf (railDown s p rail) p = railOf (wFld (wFld s (rg p 4) 2 1 rail) (rg p 4) 0 0 0) p :=
    congrArg (fun m => fld (regRaw windowRegs m (rg p 4)) 2 1) (railDown_win s p rail)
  rw [e, railOf, fld_wFld_apart _ _ _ _ _ (by decide), fld_wFld_self _ _ _ _ (by decide)]
  exact Nat.mod_eq_of_lt h

theorem railDown_hw (s : State) (p rail : Nat) : (railDown s p rail).hw = { s.hw with prefDue := true } := by
  unfold railDown
  extract_lets s1 _ _ s2
  split <;> rfl

theorem railDown_mod (s : State) (p rail : Nat) : (railDown s p rail).mod = { s.mod with boost := merase s.mod.boost p } := by
  unfold railDown
  extract_lets s1 _ _ s2
  split <;> rfl

theorem railDown_records (s : State) (p rail : Nat) : (railDown s p rail).records = s.records := by
  unfold railDown
  extract_lets s1 _ _ s2
  split <;> rfl

/-- A region that is off in t: its rail, its state and the count of its pollardings from s on. -/
def offSince (s t : State) (p : Nat) : Prop :=
  railOn t p = false ∧ thermal t p = tPollarded ∧ fld (wReg t (rg p 0x38)) 31 16 = (fld (wReg s (rg p 0x38)) 31 16 + 1) % 65536

theorem offSince_of_reg {s t u : State} {p : Nat} (h : offSince s t p) (h4 : wReg u (rg p 4) = wReg t (rg p 4)) (h38 : wReg u (rg p 0x38) = wReg t (rg p 0x38)) :
    offSince s u p := by
  unfold offSince railOn railOf thermal at *
  rw [h4, h38]
  exact h

theorem pollarded_off (s : State) (p : Nat) : offSince s (pollarded s p) p := by
  unfold pollarded
  extract_lets s1
  have hcount : fld (wReg s1 (rg p 0x38)) 31 16 = fld (wReg s (rg p 0x38)) 31 16 := by
    refine (fld_wFld_apart _ _ _ _ _ (by decide) _).trans ?_
    rw [railDown_reg _ _ _ (rg_ne (by decide))]
  refine ⟨?_, ?_, ?_⟩
  · have hrail : railOf s1 p = 0 := by
      refine Eq.trans ?_ (railOf_railDown s p (rail := 0) (by decide))
      exact congrArg (fld · 2 1) (wReg_wFld_ne _ _ _ _ _ _ (rg_ne (by decide)))
    have h : railOf (wFld s1 (rg p 0x38) 31 16 (fld (wReg s1 (rg p 0x38)) 31 16 + 1)) p = 0 :=
      (congrArg (fld · 2 1) (wReg_wFld_ne _ _ _ _ _ _ (rg_ne (by decide)))).trans hrail
    unfold railOn
    rw [h]
    rfl
  · exact (fld_wFld_apart _ _ _ _ _ (by decide) _).trans (thermal_setThermal _ _ (by decide))
  · rw [fld_wFld_self _ _ _ _ (by decide), hcount]
    rfl

theorem pollarded_reg (s : State) (p : Nat) {o : Nat} (h4 : o ≠ rg p 4) (h38 : o ≠ rg p 0x38) : wReg (pollarded s p) o = wReg s o := by
  unfold pollarded
  dsimp only
  rw [wReg_wFld_ne _ _ _ _ _ _ h38]
  exact (wReg_wFld_ne _ _ _ _ _ _ h38).trans (railDown_reg _ _ _ h4)

theorem pollardNow_off (s : State) {p : Nat} (hp : p < 48) : offSince s (pollardNow s p) p := by
  unfold pollardNow
  extract_lets s1
  split
  · exact offSince_of_reg (pollarded_off s p) (wReg_wFld_ne _ _ _ _ _ _ (rowReg_ne_rg (by omega))) (wReg_wFld_ne _ _ _ _ _ _ (rowReg_ne_rg (by omega)))
  · exact pollarded_off s p

theorem pollarded_pollard (s : State) (p : Nat) : (pollarded s p).hw.pollard = s.hw.pollard := by
  have h : (pollarded s p).hw = (railDown s p 0).hw := rfl
  rw [h, railDown_hw]

theorem pollardNow_pollard (s : State) (p : Nat) : (pollardNow s p).hw.pollard = s.hw.pollard := by
  unfold pollardNow
  extract_lets s1
  split
  · exact pollarded_pollard s p
  · exact pollarded_pollard s p

/-- A count that is set from a register with the same state before. -/
theorem offSince_from {s s2 t : State} {p : Nat} (h : offSince s2 t p) (hcount : fld (wReg s2 (rg p 0x38)) 31 16 = fld (wReg s (rg p 0x38)) 31 16) :
    offSince s t p := by
  unfold offSince at *
  rw [← hcount]
  exact h

/-! ### Warm, requested, hard and tripped regions -/

theorem askPollard_pollard (s : State) (p q : Nat) : p ∈ (askPollard s p q).hw.pollard := by
  unfold askPollard
  extract_lets s1
  split
  · next h => exact List.contains_iff_mem.mp h
  · exact List.mem_append_right _ (List.mem_singleton.mpr rfl)

theorem askPollard_win (s : State) (p q : Nat) : (askPollard s p q).win = s.win := by
  unfold askPollard
  extract_lets s1 _
  have h1 : s1.win = s.win := updPart_win ..
  split
  · exact h1
  · exact h1

theorem askPollard_hpart {s : State} {q : Nat} {k : Partn} (hk : s.hpart q = some k) (p : Nat) :
    (askPollard s p q).hpart q = some { k with standing := true } := by
  unfold askPollard
  extract_lets s1
  have h1 : s1.hpart q = some { k with standing := true } := updPart_hpart (s := cancelBooked s q) hk fun k => { k with standing := true }
  split
  · exact h1
  · exact h1

theorem warm_acts (p : PhysId) (temp : BitVec 8) (s : State) :
    (tpOf s p.val ≤ temp.toNat + 10 → thermal s p.val = tNormal → leads (.warm p temp) s fun t => fld (wReg t (rg p.val 0x30)) 7 0 = temp.toNat ∧ thermal t p.val = tWarm ∧
      bit (regRaw sidebandRegs t.mod.sbd 8) 3 = true) ∧
    (tpOf s p.val ≤ temp.toNat + 10 → thermal s p.val ≠ tNormal → leads (.warm p temp) s fun t => onlyWin s t ∧ fld (wReg t (rg p.val 0x30)) 7 0 = temp.toNat ∧ thermal t p.val = thermal s p.val) ∧
    (temp.toNat + 10 < tpOf s p.val → leads (.warm p temp) s fun t => onlyWin s t ∧ fld (wReg t (rg p.val 0x30)) 7 0 = temp.toNat ∧
      thermal t p.val = if thermal s p.val = tWarm then tNormal else thermal s p.val) := by
  have hdef : exec (.warm p temp) s = execWarm p temp s := rfl
  unfold execWarm at hdef
  dsimp only at hdef
  have htmax : ∀ v, fld (wReg (setThermal (setTmax s p.val temp) p.val v) (rg p.val 0x30)) 7 0 = temp.toNat := fun v =>
    (congrArg (fld · 7 0) (tmax_setThermal ..)).trans (tmax_setTmax ..)
  refine ⟨fun ht hs => ?_, fun ht hs => ?_, fun ht => ?_⟩
  · rw [if_pos ht, if_pos hs] at hdef
    refine leads_of hdef ⟨htmax tWarm, thermal_setThermal _ _ (by decide), ?_⟩
    rw [show regRaw sidebandRegs (sbdFlag (setThermal (setTmax s p.val temp) p.val tWarm) 8#32).mod.sbd 8 =
      sbReg (setThermal (setTmax s p.val temp) p.val tWarm) 8 ||| 8#32 from sbReg_sbdFlag_self ..]
    exact bit_of_or _ _ (by decide)
  · rw [if_pos ht, if_neg hs] at hdef
    exact leads_of hdef ⟨rfl, tmax_setTmax .., thermal_setTmax ..⟩
  · rw [if_neg (Nat.not_le.mpr ht)] at hdef
    refine leads_of hdef ?_
    by_cases hw : thermal s p.val = tWarm
    · rw [if_pos hw, if_pos hw]
      exact ⟨rfl, htmax tNormal, thermal_setThermal _ _ (by decide)⟩
    · rw [if_neg hw, if_neg hw]
      exact ⟨rfl, tmax_setTmax .., thermal_setTmax ..⟩

theorem pollardRequest_acts (p : PhysId) (temp : BitVec 8) (s : State) :
    (temp.toNat < tpOf s p.val ∨ tRequest ≤ thermal s p.val → leads (.pollardRequest p temp) s fun t => onlyWin s t ∧ fld (wReg t (rg p.val 0x30)) 7 0 = temp.toNat ∧ thermal t p.val = thermal s p.val) ∧
    (tpOf s p.val ≤ temp.toNat → thermal s p.val < tRequest → partOfPhys s p.val = none → leads (.pollardRequest p temp) s fun t => offSince s t p.val) ∧
    (∀ q k, tpOf s p.val ≤ temp.toNat → thermal s p.val < tRequest → partOfPhys s p.val = some q → s.hpart q = some k → leads (.pollardRequest p temp) s fun t =>
      thermal t p.val = tRequest ∧ p.val ∈ t.hw.pollard ∧ ∃ g, t.hpart q = some g ∧ g.standing = true) := by
  have hdef : exec (.pollardRequest p temp) s = execPollardRequest p temp s := rfl
  unfold execPollardRequest at hdef
  dsimp only at hdef
  have hasks : tpOf s p.val ≤ temp.toNat → thermal s p.val < tRequest → ¬ (temp.toNat < tpOf s p.val ∨ tRequest ≤ thermal s p.val) := fun h1 h2 =>
    not_or.mpr ⟨Nat.not_lt.mpr h1, Nat.not_le.mpr h2⟩
  refine ⟨fun h => ?_, fun h1 h2 hnone => ?_, fun q k h1 h2 hq hk => ?_⟩
  · rw [if_pos h] at hdef
    exact leads_of hdef ⟨rfl, tmax_setTmax .., thermal_setTmax ..⟩
  · rw [if_neg (hasks h1 h2), partOfPhys_setTmax, hnone] at hdef
    refine leads_of hdef (offSince_from (pollardNow_off _ p.isLt) ?_)
    exact congrArg (fld · 31 16) (wReg_wFld_ne _ _ _ _ _ _ (rg_ne (by decide)))
  · rw [if_neg (hasks h1 h2), partOfPhys_setTmax, hq] at hdef
    refine leads_of hdef ⟨?_, askPollard_pollard .., _, askPollard_hpart (s := setThermal (setTmax s p.val temp) p.val tRequest) hk p.val, rfl⟩
    exact (thermal_of_win (askPollard_win ..) _).trans (thermal_setThermal _ _ (by decide))

theorem thermalHard_acts (p : PhysId) (temp : BitVec 8) (s : State) :
    (temp.toNat < fld (wReg s (rg p.val 0x34)) 15 8 ∨ thermal s p.val = tTripped ∨ thermal s p.val = tPollarded →
      leads (.thermalHard p temp) s fun t => onlyWin s t ∧ fld (wReg t (rg p.val 0x30)) 7 0 = temp.toNat ∧ thermal t p.val = thermal s p.val) ∧
    (fld (wReg s (rg p.val 0x34)) 15 8 ≤ temp.toNat → thermal s p.val ≠ tTripped → thermal s p.val ≠ tPollarded →
      (partOfPhys s p.val = none → railOn s p.val = true → leads (.thermalHard p temp) s fun t => offSince s t p.val) ∧
      (partOfPhys s p.val = none → railOn s p.val = false → leads (.thermalHard p temp) s fun t => onlyWin s t ∧ thermal t p.val = tHard) ∧
      ∀ q k, partOfPhys s p.val = some q → s.hpart q = some k → leads (.thermalHard p temp) s fun t => thermal t p.val = tHard ∧ p.val ∈ t.hw.pollard ∧
        ∃ g, t.hpart q = some g ∧ g.heldJob = true ∧ g.standing = true) := by
  have hdef : exec (.thermalHard p temp) s = execThermalHard p temp s := rfl
  unfold execThermalHard at hdef
  dsimp only at hdef
  refine ⟨fun h => ?_, fun h1 h2 h3 => ?_⟩
  · rw [if_pos h] at hdef
    exact leads_of hdef ⟨rfl, tmax_setTmax .., thermal_setTmax ..⟩
  rw [if_neg (not_or.mpr ⟨Nat.not_lt.mpr h1, not_or.mpr ⟨h2, h3⟩⟩)] at hdef
  have hplace : partOfPhys (setThermal (setTmax s p.val temp) p.val tHard) p.val = partOfPhys s p.val :=
    (partOfPhys_setThermal ..).trans (partOfPhys_setTmax ..)
  have hstate : thermal (setThermal (setTmax s p.val temp) p.val tHard) p.val = tHard := thermal_setThermal _ _ (by decide)
  have hrail : railOn (setThermal (setTmax s p.val temp) p.val tHard) p.val = railOn s p.val := by
    unfold railOn railOf
    rw [show wReg (setThermal (setTmax s p.val temp) p.val tHard) (rg p.val 4) = wReg s (rg p.val 4) from
      (wReg_wFld_ne _ _ _ _ _ _ (rg_ne (by decide))).trans (wReg_wFld_ne _ _ _ _ _ _ (rg_ne (by decide)))]
  have hcount : fld (wReg (setThermal (setTmax s p.val temp) p.val tHard) (rg p.val 0x38)) 31 16 = fld (wReg s (rg p.val 0x38)) 31 16 :=
    (fld_wFld_apart _ _ _ _ _ (by decide) _).trans (congrArg (fld · 31 16) (wReg_wFld_ne _ _ _ _ _ _ (rg_ne (by decide))))
  have honly : onlyWin s (setThermal (setTmax s p.val temp) p.val tHard) := onlyWin_setThermal ..
  have hparts : (setThermal (setTmax s p.val temp) p.val tHard).hw = s.hw := rfl
  generalize setThermal (setTmax s p.val temp) p.val tHard = a at hdef hplace hstate hrail hcount honly hparts
  unfold onHard at hdef
  rw [hplace] at hdef
  refine ⟨fun hnone hon => ?_, fun hnone hoff => ?_, fun q k hq hk => ?_⟩
  · rw [hnone] at hdef
    dsimp only at hdef
    rw [if_pos (hrail.trans hon)] at hdef
    exact leads_of hdef (offSince_from (pollardNow_off _ p.isLt) hcount)
  · rw [hnone] at hdef
    dsimp only at hdef
    rw [if_neg (by rw [hrail, hoff]; decide)] at hdef
    exact leads_of hdef ⟨honly, hstate⟩
  · rw [hq] at hdef
    dsimp only at hdef
    have hk2 : (dropRequest a p.val).hpart q = some k := (congrArg (fun x : Heartwood => mget? x.parts q) hparts).trans hk
    obtain ⟨g, hg, _⟩ := (originateQuench_acted (dropRequest a p.val) q quThermal).part q k hk2
    obtain ⟨g2, hg2, hheld⟩ := quenchHold_held hg
    have hact := (originateQuench_acted (dropRequest a p.val) q quThermal).trans (quenchHold_acted _ q)
    refine leads_of hdef ⟨?_, askPollard_pollard .., _, askPollard_hpart hg2 _, hheld, rfl⟩
    refine (thermal_of_win (askPollard_win ..) _).trans (Eq.trans ?_ hstate)
    exact congrArg (fld · 2 0) (hact.reg _ (notSent_rg (by decide)) (rg_ne_recoveries p.isLt (by decide)))

theorem thermalTrip_acts (p : PhysId) (temp : BitVec 8) (s : State) :
    (temp.toNat < fld (wReg s (rg p.val 0x34)) 23 16 → leads (.thermalTrip p temp) s fun t => onlyWin s t ∧ fld (wReg t (rg p.val 0x30)) 19 12 = temp.toNat ∧ thermal t p.val = thermal s p.val) ∧
    (fld (wReg s (rg p.val 0x34)) 23 16 ≤ temp.toNat → leads (.thermalTrip p temp) s fun t => fld (wReg t (rg p.val 0x30)) 19 12 = temp.toNat ∧ thermal t p.val = tTripped ∧
      fld (wReg t (rg p.val 4)) 2 1 = 3 ∧ t.records = s.records ++ [⟨.thermal, p.val, []⟩]) := by
  have hdef : exec (.thermalTrip p temp) s = execThermalTrip p temp s := rfl
  unfold execThermalTrip at hdef
  dsimp only at hdef
  have htemp : fld (wReg (wFld s (rg p.val 0x30) 19 12 temp.toNat) (rg p.val 0x30)) 19 12 = temp.toNat :=
    (fld_wFld_self s (rg p.val 0x30) 12 temp.toNat (by decide)).trans (Nat.mod_eq_of_lt temp.isLt)
  refine ⟨fun h => ?_, fun h => ?_⟩
  · rw [if_pos h] at hdef
    exact leads_of hdef ⟨rfl, htemp, congrArg (fld · 2 0) (wReg_wFld_ne _ _ _ _ _ _ (rg_ne (by decide)))⟩
  · rw [if_neg (Nat.not_lt.mpr h)] at hdef
    have hrecords : (wFld s (rg p.val 0x30) 19 12 temp.toNat).records = s.records := rfl
    generalize wFld s (rg p.val 0x30) 19 12 temp.toNat = a at hdef htemp hrecords
    refine leads_of hdef ⟨?_, thermal_setThermal _ _ (by decide), ?_, ?_⟩
    · have e : wReg (setThermal (railDown a p.val 3) p.val tTripped) (rg p.val 0x30) = wReg a (rg p.val 0x30) :=
        (tmax_setThermal ..).trans (railDown_reg _ _ _ (rg_ne (by decide)))
      exact (congrArg (fld · 19 12) e).trans htemp
    · have e : wReg (setThermal (railDown a p.val 3) p.val tTripped) (rg p.val 4) = wReg (railDown a p.val 3) (rg p.val 4) :=
        wReg_wFld_ne _ _ _ _ _ _ (rg_ne (by decide))
      exact (congrArg (fld · 2 1) e).trans (railOf_railDown a p.val (by decide))
    · have e : (setThermal (railDown a p.val 3) p.val tTripped).records = (railDown a p.val 3).records := rfl
      exact congrArg (· ++ _) (e.trans ((railDown_records ..).trans hrecords))

/-! ### What grafts and recoveries leave of the window -/

theorem foldl_win {α : Type} {f : State → α → State} (h : ∀ a x, (f a x).win = a.win) (l : List α) (s : State) : (l.foldl f s).win = s.win :=
  foldl_keeps State.win h l s

theorem reloadImages_win (s : State) (p : Nat) (hit : Nat → Bool) : (reloadImages s p hit).win = s.win := by
  unfold reloadImages
  split
  · rfl
  · refine foldl_win (fun a e => foldl_win (fun b c => ?_) _ _) _ _
    dsimp only
    split
    · rfl
    · exact setCore_win ..

theorem moveCores_win (s0 s : State) (cs : List Nat) : (moveCores s0 s cs).win = s.win := foldl_win (fun _ _ => setCore_win ..) _ _

theorem rollChannel_win (step : Nat) (s : State) (e : Nat × Channel) : (rollChannel step s e).win = s.win := by
  unfold rollChannel
  extract_lets c ok s1 s2 s3 _
  split
  · rfl
  · have h : s2.win = s.win := (setCore_win ..).trans (setCore_win ..)
    split
    · exact h
    · exact h

theorem mapPart_win (s : State) (k : Partn) (f : Core → Core) : (mapPart s k f).win = s.win := foldl_win (fun _ _ => mapRegion_win ..) _ _

theorem rollback_win (s : State) (p : Nat) : (rollback s p).win = s.win := by
  unfold rollback
  split
  · rfl
  · extract_lets s1 s2 e s3 s4 back
    have h1 : s1.win = s.win := reloadImages_win ..
    have h2 : s2.win = s1.win := foldl_win (rollChannel_win _) _ _
    have h3 : s3.win = s2.win := mapPart_win ..
    have h4 : s4.win = s3.win := foldl_win (fun a l => setRegion_win ..) _ _
    exact h4.trans (h3.trans (h2.trans h1))

theorem bookEvent_win (s : State) (k : BookKind) (time : Nat) : (bookEvent s k time).win = s.win := by
  unfold bookEvent
  split <;> rfl

theorem bookNotices_win (s : State) (k : Partn) (x : SectionInfo) (t : Nat) : (bookNotices s k x t).win = s.win := by
  unfold bookNotices
  refine foldl_win (fun a e => ?_) _ _
  split
  · rfl
  · dsimp only
    split
    · exact bookEvent_win ..
    · rfl

theorem bookAhead_win (s : State) (p : Nat) : (bookAhead s p).win = s.win := by
  unfold bookAhead
  split
  · rfl
  · split
    · rfl
    · refine foldl_win (fun a e => ?_) _ _
      dsimp only
      split
      · rfl
      · split
        · rfl
        · rw [bookNotices_win, bookEvent_win]

theorem retime_win (s : State) (p : Nat) : (retime s p).win = s.win := updPart_win ..

theorem endWaiters_win (s : State) (p : Nat) (ok : Bool) : (endWaiters s p ok).win = s.win := by
  unfold endWaiters
  split
  · rfl
  · exact foldl_win (fun a w => (finishCmd_reqs ..).win) _ _

/-- A partition that resumes changes the register of recoveries alone. -/
theorem resume_reg (s : State) (p : Nat) {o : Nat} (h : o ≠ 0x200008) : wReg (resume s p) o = wReg s o := by
  unfold resume
  extract_lets s1
  rw [wReg_wFld_ne _ _ _ _ _ _ h]
  refine congrArg (fun m => regRaw windowRegs m o) ?_
  exact (bookAhead_win ..).trans ((retime_win ..).trans ((updPart_win ..).trans (endWaiters_win ..)))

theorem endRecovery_reg (s : State) (q : Nat) {done : State → State} (hdone : ∀ a, (done a).win = a.win) {o : Nat} (h : o ≠ 0x200008) :
    wReg (endRecovery s q done) o = wReg s o := by
  unfold endRecovery
  split
  · rfl
  · refine (congrArg (fun m => regRaw windowRegs m o) (hdone _)).trans ((resume_reg _ _ h).trans ?_)
    exact congrArg (fun m => regRaw windowRegs m o) (rollback_win ..)

theorem fenceRegion_reg (s : State) (p : Nat) {o : Nat} (h : o ≠ rowReg (p / 8)) (h2 : o ≠ 0x200100 + 4 * p) :
    wReg (fenceRegion s p) o = wReg s o := by
  unfold fenceRegion
  extract_lets u s1
  have h0 : wReg (setPhysFenced s p true) o = wReg s o := wReg_wFld_ne s (rowReg (p / 8)) _ _ _ o h
  have h1 : wReg s1 o = wReg s o := (wReg_wFld_ne (setPhysFenced s p true) (0x200100 + 4 * p) 18 18 1 o h2).trans h0
  clear_value s1
  split
  · exact h1
  · exact h1

/-- The word of a row whose spare a region becomes. -/
def spareWord (w : Word) (p : Nat) : Word :=
  setFld (setFld (setFld (setFld w 2 0 (p % 8)) 4 3 rstkPending) (8 + p % 8) (8 + p % 8) 1) 23 16 (satTo 255 (fld w 23 16 + 1))

theorem spareWord_facts (w : Word) (p : Nat) : bit (spareWord w p) (8 + p % 8) = true ∧ fld (spareWord w p) 2 0 = p % 8 := by
  have h8 : p % 8 < 8 := Nat.mod_lt _ (by decide)
  unfold spareWord
  refine ⟨?_, ?_⟩
  · rw [bit_setFld _ _ _ _ _ (by omega), bit_setFld_one _ _ _ (by omega)]
    rfl
  · rw [fld_setFld_ne _ _ _ _ _ _ (by omega), fld_setFld_ne _ _ _ _ _ _ (by omega), fld_setFld_ne _ _ _ _ _ _ (by omega),
      fld_setFld_self _ _ _ _ (by decide)]
    exact Nat.mod_eq_of_lt h8

theorem writeXlat_win (s : State) (ls : List Nat) : (writeXlat s ls).win = s.win := by
  unfold writeXlat
  exact foldl_win (fun _ _ => allRouters_win ..) _ _

theorem putRegionReg_win (s : State) (p l part : Nat) : (putRegionReg s p l part).win = s.win := by
  unfold putRegionReg
  exact foldl_win (fun _ _ => setRouter_win ..) _ _

theorem memWritten.win {s t : State} (h : memWritten s t) : t.win = s.win := by simpa using congrArg State.win h

theorem writeDist_reg (s : State) {o : Nat} (h : o ≠ 0x1124) : wReg (writeDist s) o = wReg s o := by
  unfold writeDist
  extract_lets a s1
  rw [wReg_wSet_ne _ _ _ _ h]
  exact congrArg (fun m => regRaw windowRegs m o) (devWrite_written ..).win

theorem retarget_reg (s : State) (p : Nat) {o : Nat} (h : o ≠ 0x1124) :
    wReg (retarget s p).1 o = if o = rowReg (p / 8) then spareWord (rowWord s (p / 8)) p else wReg s o := by
  unfold retarget
  extract_lets q w w1 s1 moved s2
  have h2 : s2.win = s1.win := (foldl_win (fun a l => putRegionReg_win ..) _ _).trans (putRegionReg_win ..)
  have h1 : wReg (writeDist (writeXlat s2 moved)) o = wReg s1 o :=
    (writeDist_reg _ h).trans (congrArg (fun m => regRaw windowRegs m o) ((writeXlat_win ..).trans h2))
  rw [h1]
  by_cases ho : o = rowReg (p / 8)
  · rw [if_pos ho, ho]
    exact wReg_wSet_self ..
  · rw [if_neg ho]
    exact wReg_wSet_ne _ _ _ _ ho

theorem graftMove_win (s : State) (p : Nat) (part : Option Nat) : (graftMove s p part).win = (retarget (fenceRegion s p) p).1.win := by
  unfold graftMove
  extract_lets s0 r cs s2
  have h2 : s2.win = r.1.win := moveCores_win ..
  cases part with
  | none => exact h2
  | some q => exact (updPart_win ..).trans ((reloadImages_win ..).trans h2)

/-- A region that has become its row's spare: the row's register, and which registers are as before. -/
theorem graftMove_row (s : State) {p : Nat} (hp : p < 48) (part : Option Nat) :
    physFenced (graftMove s p part) p = true ∧ rstkCol (graftMove s p part) (p / 8) = p % 8 ∧
      ∀ o, o < 0x1100 ∨ 0x1130 ≤ o → o ≠ 0x200100 + 4 * p → wReg (graftMove s p part) o = wReg s o := by
  have hreg : ∀ o, wReg (graftMove s p part) o = wReg (retarget (fenceRegion s p) p).1 o := fun o =>
    congrArg (fun m => regRaw windowRegs m o) (graftMove_win s p part)
  have hrow : rowWord (graftMove s p part) (p / 8) = spareWord (rowWord (fenceRegion s p) (p / 8)) p := by
    have hne : rowReg (p / 8) ≠ 0x1124 := by
      unfold rowReg
      omega
    unfold rowWord
    rw [hreg, retarget_reg _ _ hne, if_pos rfl]
    rfl
  obtain ⟨hbit, hcol⟩ := spareWord_facts (rowWord (fenceRegion s p) (p / 8)) p
  refine ⟨?_, ?_, fun o ho h2 => ?_⟩
  · unfold physFenced
    rw [hrow]
    exact hbit
  · unfold rstkCol
    rw [hrow]
    exact hcol
  · have hne : o ≠ rowReg (p / 8) := by
      unfold rowReg
      omega
    rw [hreg, retarget_reg _ _ (by omega), if_neg hne, fenceRegion_reg _ _ hne h2]

end Sys2Proof.Machine
end

section
/-! PROOFS. Pollarding of regions, hot stacks and coolant (R656 to R664). -/
namespace Sys2Proof.Machine

/-! ### Regions that are pollarded and return -/

theorem pollard_waits {p : PhysId} {s : State} (h : ¬ s.hw.pollard.find? (fun x => x / 8 == p.val / 8) = some p.val) : exec (.pollard p) s = .next s :=
  (show exec (.pollard p) s = execPollard p s from rfl).trans (if_pos h)

theorem pollard_free {p : PhysId} {s : State} (h : s.hw.pollard.find? (fun x => x / 8 == p.val / 8) = some p.val) (hnone : partOfPhys s p.val = none) :
    leads (.pollard p) s fun t => offSince s t p.val ∧ p.val ∉ t.hw.pollard := by
  have hdef : exec (.pollard p) s = execPollard p s := rfl
  unfold execPollard at hdef
  rw [if_neg (not_not.mpr h), hnone] at hdef
  refine leads_of hdef ⟨offSince_from (pollardNow_off _ p.isLt) rfl, ?_⟩
  rw [pollardNow_pollard]
  intro hmem
  exact absurd (List.mem_filter.mp hmem).2 (by simp)

theorem graftEvent_win (s : State) (p q col done : Nat) : (graftEvent s p q col done).win = s.win := rfl

/-- A region that moves onto its row's spare is off, fenced and the spare of its row from then on. -/
theorem pollardMove_acts (s : State) (p : PhysId) (q : Nat) (hstate : thermal s p.val < tHard) :
    thermal (pollardMove s p.val q) p.val = tPollarded ∧ physFenced (pollardMove s p.val q) p.val = true ∧
      rstkCol (pollardMove s p.val q) (p.val / 8) = p.val % 8 := by
  unfold pollardMove
  extract_lets col tripped s1 s2 s3 s4 s5 s6
  have h5 : s5.win = s4.win := rfl
  have h6 : s6.win = s4.win := (updPart_win s5 q _).trans h5
  clear_value s6
  have hreg : ∀ o, o ≠ 0x200008 → wReg (endRecovery s6 q fun a => graftEvent a p.val q col 1) o = wReg s4 o := fun o ho =>
    (endRecovery_reg s6 q (fun a => graftEvent_win a p.val q col 1) ho).trans (congrArg (fun m => regRaw windowRegs m o) h6)
  have h4 : s4 = pollarded s3 p.val := if_neg fun htrip => absurd (htrip ▸ hstate) (by decide)
  have hrow : wReg (endRecovery s6 q fun a => graftEvent a p.val q col 1) (rowReg (p.val / 8)) = wReg s3 (rowReg (p.val / 8)) := by
    rw [hreg _ (by unfold rowReg; omega), h4, pollarded_reg _ _ (rowReg_ne_rg (by omega)).symm (rowReg_ne_rg (by omega)).symm]
  obtain ⟨hfenced, hcol, _⟩ := graftMove_row s2 p.isLt (some q)
  obtain ⟨_, hth, _⟩ := pollarded_off s3 p.val
  refine ⟨?_, ?_, ?_⟩
  · unfold thermal
    rw [hreg _ (rg_ne_recoveries p.isLt (by decide)), h4]
    exact hth
  · unfold physFenced rowWord
    rw [hrow]
    exact hfenced
  · unfold rstkCol rowWord
    rw [hrow]
    exact hcol

theorem pollard_part {p : PhysId} {s : State} (h : s.hw.pollard.find? (fun x => x / 8 == p.val / 8) = some p.val) {q : Nat} {k : Partn}
    (hq : partOfPhys s p.val = some q) (hk : s.hpart q = some k) (hstate : thermal s p.val < tHard) :
    (running s k = true → exec (.pollard p) s = .next s) ∧
    (running s k = false → canGraft s p.val = false → exec (.pollard p) s = .next (s.setPart q { k with heat := true })) ∧
    (running s k = false → canGraft s p.val = true → leads (.pollard p) s fun t => thermal t p.val = tPollarded ∧ physFenced t p.val = true ∧
      rstkCol t (p.val / 8) = p.val % 8) := by
  have hdef : exec (.pollard p) s = execPollard p s := rfl
  unfold execPollard at hdef
  have hfound : ((partOfPhys s p.val).bind fun q => (s.hpart q).map fun k => (q, k)) = some (q, k) := by
    rw [hq, Option.bind_some, hk]
    rfl
  have hcool : decide (tHard ≤ thermal s p.val) = false := decide_eq_false (Nat.not_le.mpr hstate)
  rw [if_neg (not_not.mpr h), hfound] at hdef
  dsimp only at hdef
  rw [hcool] at hdef
  refine ⟨fun hrun => ?_, fun hrun hno => ?_, fun hrun hcan => ?_⟩
  · rw [hdef, hrun]
    rfl
  · rw [hdef, hrun]
    refine (if_neg (show ¬ (!false && false) = true by decide)).trans ((if_neg ?_).trans ?_)
    · rw [if_neg (by decide), hno]
      decide
    · rw [if_neg (by decide), updPart, hk]
  · rw [hrun, if_neg (show ¬ (!false && false) = true by decide), if_neg (show ¬ false = true by decide), if_pos hcan] at hdef
    exact leads_of hdef (pollardMove_acts s p q hstate)

theorem railUp_win (s : State) (p : Nat) :
    (railUp s p).win = (wFld (wFld (wFld (wFld s (rg p 4) 2 1 2) (rg p 4) 0 0 1) (rg p 0x20) 11 10 0) (rg p 0x20) 12 12 1).win := by
  unfold railUp
  extract_lets s1 s2 _ s3
  split <;> rfl

theorem railUp_reg (s : State) (p : Nat) {o : Nat} (h : o ≠ rg p 4) (h2 : o ≠ rg p 0x20) : wReg (railUp s p) o = wReg s o := by
  refine (congrArg (fun m => regRaw windowRegs m o) (railUp_win s p)).trans ?_
  exact (wReg_wFld_ne _ _ _ _ _ _ h2).trans ((wReg_wFld_ne _ _ _ _ _ _ h2).trans ((wReg_wFld_ne _ _ _ _ _ _ h).trans (wReg_wFld_ne _ _ _ _ _ _ h)))

theorem railOn_railUp (s : State) (p : Nat) : railOn (railUp s p) p = true := by
  have e : railOf (railUp s p) p = 2 := by
    refine (congrArg (fun m => fld (regRaw windowRegs m (rg p 4)) 2 1) (railUp_win s p)).trans ?_
    refine (fld_wFld_apart _ _ _ _ _ (by decide) _).trans ?_
    refine (fld_wFld_apart _ _ _ _ _ (by decide) _).trans ?_
    refine (fld_wFld_apart _ _ _ _ _ (by decide) _).trans ?_
    exact fld_wFld_self s (rg p 4) 1 2 (by decide)
  unfold railOn
  rw [e]
  rfl

theorem pollardReturn_acts (p : PhysId) (s : State) :
    (∀ pass, thermal s p.val ≠ tPollarded → thermal s p.val ≠ tTripped → exec (.pollardReturn p pass) s = .next s) ∧
    (thermal s p.val = tPollarded ∨ thermal s p.val = tTripped →
      (∀ pass, rstkCol s (p.val / 8) ≠ p.val % 8 → leads (.pollardReturn p pass) s fun t => thermal t p.val = tNormal ∧ railOn t p.val = true) ∧
      (rstkCol s (p.val / 8) = p.val % 8 → rstkState s (p.val / 8) = rstkPending → leads (.pollardReturn p false) s fun t =>
        thermal t p.val = tNormal ∧ rstkState t (p.val / 8) = rstkAbsent)) := by
  have hdef : ∀ pass, exec (.pollardReturn p pass) s = execPollardReturn p pass s := fun _ => rfl
  unfold execPollardReturn at hdef
  refine ⟨fun pass h1 h2 => (hdef pass).trans (if_pos ⟨h1, h2⟩), fun h => ?_⟩
  have hgo : ¬ (thermal s p.val ≠ tPollarded ∧ thermal s p.val ≠ tTripped) := fun hno => h.elim hno.1 hno.2
  have hrow : rowWord (setThermal (railUp s p.val) p.val tNormal) (p.val / 8) = rowWord s (p.val / 8) :=
    (wReg_wFld_ne _ _ _ _ _ _ (rowReg_ne_rg (by omega)).symm).trans
      (railUp_reg _ _ (rowReg_ne_rg (by omega)).symm (rowReg_ne_rg (by omega)).symm)
  have hstate : thermal (setThermal (railUp s p.val) p.val tNormal) p.val = tNormal := thermal_setThermal _ _ (by decide)
  have hrail : railOn (setThermal (railUp s p.val) p.val tNormal) p.val = true := by
    have e : railOf (setThermal (railUp s p.val) p.val tNormal) p.val = railOf (railUp s p.val) p.val :=
      congrArg (fld · 2 1) (wReg_wFld_ne _ _ _ _ _ _ (rg_ne (by decide)))
    unfold railOn
    rw [e]
    exact railOn_railUp s p.val
  generalize setThermal (railUp s p.val) p.val tNormal = a at hdef hrow hstate hrail
  have hcol : rstkCol a (p.val / 8) = rstkCol s (p.val / 8) := congrArg (fld · 2 0) hrow
  have hst : rstkState a (p.val / 8) = rstkState s (p.val / 8) := congrArg (fld · 4 3) hrow
  refine ⟨fun pass hother => ?_, fun hown hpend => ?_⟩
  · refine leads_of ((hdef pass).trans (if_neg hgo)) ?_
    unfold regionTested
    rw [if_pos (Or.inl (by rw [hcol]; exact hother))]
    exact ⟨hstate, hrail⟩
  · refine leads_of ((hdef false).trans (if_neg hgo)) ?_
    unfold regionTested
    rw [if_neg (by rw [hcol, hst]; exact not_or.mpr ⟨not_not.mpr hown, not_not.mpr hpend⟩)]
    dsimp only
    rw [if_neg (by rintro ⟨hf, _⟩; cases hf)]
    refine ⟨Eq.trans ?_ hstate, ?_⟩
    · exact congrArg (fld · 2 0) (wReg_wFld_ne _ _ _ _ _ _ (rowReg_ne_rg (by omega)))
    · exact fld_wFld_self a (rowReg (p.val / 8)) 3 rstkAbsent (by decide)

/-! ### The end of a hold for heat -/

theorem endWaiters_hpart {s : State} {p : Nat} {k : Partn} (hk : s.hpart p = some k) (ok : Bool) : (endWaiters s p ok).hpart p = some { k with waiters := [] } := by
  unfold endWaiters
  rw [hk]
  exact (foldl_keeps (fun a => a.hpart p) (fun a w => finishCmd_hpart ..) _ _).trans (hpart_setPart_self ..)

/-- A partition that resumes is in no recovery, and its state is otherwise as it was but for its requests. -/
theorem resume_hpart {s : State} {p : Nat} {k : Partn} (hk : s.hpart p = some k) :
    ∃ rs free, (resume s p).hpart p =
      some { k with waiters := [], haltAt := none, halted := false, recov := 0, restarts := 0, reqs := rs, free := free } := by
  unfold resume
  extract_lets s1
  have h1 : s1.hpart p = some { k with waiters := [], haltAt := none, halted := false, recov := 0, restarts := 0 } :=
    updPart_hpart (endWaiters_hpart hk true) fun k => { k with haltAt := none, halted := false, recov := 0, restarts := 0 }
  obtain ⟨rs, free, h2⟩ := retime_hpart h1
  have h3 := (bookAhead_hpart (retime s1 p) p p).trans h2
  exact ⟨rs, free, h3⟩

theorem rollback_hpart {s : State} {p : Nat} {k : Partn} (hk : s.hpart p = some k) :
    ∃ g, (rollback s p).hpart p = some g ∧ g.heat = k.heat ∧ g.standing = k.standing ∧ g.step = k.committed + 1 := by
  unfold rollback
  split
  · next hnone => cases hk.symm.trans hnone
  next k2 hk2 =>
  obtain rfl : k = k2 := Option.some.inj (hk.symm.trans hk2)
  extract_lets s1 s2 e s3 s4 back
  exact ⟨_, mget_mset_self .., rfl, rfl, rfl⟩

theorem pollardHoldEnd_acts (part : Nat) (s : State) :
    ((∀ k, s.hpart part = some k → k.heat = false) → exec (.pollardHoldEnd part) s = .next s) ∧
    ∀ k, s.hpart part = some k → k.heat = true → leads (.pollardHoldEnd part) s fun t => ∃ g, t.hpart part = some g ∧ g.heat = false ∧
      g.standing = false ∧ g.recov = 0 ∧ g.step = k.committed + 1 := by
  have hdef : exec (.pollardHoldEnd part) s = execPollardHoldEnd part s := rfl
  unfold execPollardHoldEnd at hdef
  refine ⟨fun h => ?_, fun k hk hheat => ?_⟩
  · rw [hdef]
    split
    · rfl
    · next k hk => exact if_pos (by rw [h k hk]; rfl)
  · rw [hk] at hdef
    dsimp only at hdef
    rw [if_neg (by rw [hheat]; decide)] at hdef
    generalize hl : s.hw.pollard.filter (fun p => partOfPhys s p == some part) = l at hdef
    have h1 : (l.foldl (fun a p => setThermal (dropRequest a p) p tNormal) s).hpart part = some k :=
      (foldl_keeps (f := fun a p => setThermal (dropRequest a p) p tNormal) (fun a => a.hpart part) (fun _ _ => rfl) l s).trans hk
    have h2 := updPart_hpart h1 fun x => { x with heat := false, standing := false }
    obtain ⟨g, hg, hh, hstand, hstep⟩ := rollback_hpart h2
    obtain ⟨rs, free, h3⟩ := resume_hpart hg
    exact leads_of hdef ⟨_, h3, hh, hstand, rfl, hstep⟩

/-! ### Hot stacks -/

theorem alert_sbdFlag (s : State) (m : Word) {i : Nat} (h : bit m i = true) : bit (regRaw sidebandRegs (sbdFlag s m).mod.sbd 8) i = true :=
  (congrArg (bit · i) (sbReg_sbdFlag_self s m)).trans (bit_of_or _ _ h)

theorem stackOverheat_acts (st : StackId) (temp : BitVec 8) (s : State) :
    (temp.toNat ≤ 95 → leads (.stackOverheat st temp) s fun t => fld (kReg (t.stack st.val) 0x28) 7 0 = temp.toNat ∧ t.win = s.win ∧ t.mod = s.mod) ∧
    (95 < temp.toNat → leads (.stackOverheat st temp) s fun t => fld (kReg (t.stack st.val) 0x28) 7 0 = temp.toNat ∧
      bit (kReg (t.stack st.val) kStatus) 3 = true ∧ bit (wReg t 0x30010) 3 = true ∧ bit (regRaw sidebandRegs t.mod.sbd 8) 2 = true) := by
  have hdef : exec (.stackOverheat st temp) s = execStackOverheat st temp s := rfl
  unfold execStackOverheat at hdef
  dsimp only at hdef
  have htemp : fld (kReg (kFld (s.stack st.val) 0x28 7 0 temp.toNat) 0x28) 7 0 = temp.toNat := by
    rw [kReg_kFld_self, fld_setFld_self _ _ _ _ (by decide)]
    exact Nat.mod_eq_of_lt temp.isLt
  generalize kFld (s.stack st.val) 0x28 7 0 temp.toNat = k at hdef htemp
  refine ⟨fun h => ?_, fun h => ?_⟩
  · rw [if_pos h] at hdef
    exact leads_of hdef ⟨(congrArg (fun x => fld (kReg x 0x28) 7 0) (stack_setStack_self s st.val k)).trans htemp, rfl, rfl⟩
  · rw [if_neg (Nat.not_le.mpr h), stack_setStack_self] at hdef
    have hstack : (sbdFlag (wFlag ((s.setStack st.val k).setStack st.val (kFlag k kStatus 8#32)) 0x30010 8#32) 4#32).stack st.val = kFlag k kStatus 8#32 :=
      stack_setStack_self ..
    refine leads_of hdef ⟨?_, ?_, bit_wFlag_self _ 0x30010 8#32 (by decide), alert_sbdFlag _ _ (by decide)⟩
    · rw [hstack, kReg_kFlag_ne _ _ _ (by decide)]
      exact htemp
    · rw [hstack, kReg_kFlag_self]
      exact bit_of_or _ _ (by decide)

/-- A module fault is flagged, raises the lowest alert and leaves held what was held. -/
theorem moduleFault_acts (s : State) :
    (moduleFault s).hw.fault = true ∧ bit (regRaw sidebandRegs (moduleFault s).mod.sbd 8) 0 = true ∧
      ∀ q k, s.hpart q = some k → k.heldJob = true → ∃ g, (moduleFault s).hpart q = some g ∧ g.heldJob = true := by
  unfold moduleFault
  extract_lets s1 _ s2
  have h1 : PartsActed s s1 := PartsActed.foldl (fun a e =>
    ((endRequests_reqs ..).acted.trans (originateQuench_acted ..)).trans (quenchHold_acted ..)) _ _
  have hfault : s2.hw.fault = true := rfl
  have halert : bit (sbReg s2 8) 0 = true := alert_sbdFlag _ 1#32 (by decide)
  have hheld : ∀ q k, s.hpart q = some k → k.heldJob = true → ∃ g, s2.hpart q = some g ∧ g.heldJob = true := fun q k hk hheld => by
    obtain ⟨g, hg, _, hgh⟩ := h1.part q k hk
    exact ⟨g, hg, hgh hheld⟩
  clear_value s2
  split
  · exact ⟨hfault, halert, hheld⟩
  · refine ⟨hfault, ?_, hheld⟩
    rw [show regRaw sidebandRegs (setSbdState s2 4).mod.sbd 8 = sbReg s2 8 from sbReg_setSbdState_ne s2 4 (by decide)]
    exact halert

theorem stackCritical_acts (st : StackId) (s : State) :
    leads (.stackCritical st) s fun t => t.hw.fault = true ∧ bit (regRaw sidebandRegs t.mod.sbd 8) 0 = true ∧
      ∀ q k, s.hpart q = some k → ∃ g, t.hpart q = some g ∧ g.heldJob = true := by
  have hdef : exec (.stackCritical st) s = .next (moduleFault (quenchAll s quThermal)) := rfl
  obtain ⟨hfault, halert, hheld⟩ := moduleFault_acts (quenchAll s quThermal)
  refine leads_of hdef ⟨hfault, halert, fun q k hk => ?_⟩
  obtain ⟨g, hg, hgh⟩ := quenchAll_held quThermal hk
  exact hheld q g hg hgh

/-! ### Coolant -/

/-- Regions whose rails are cut: their rails, and what is kept. -/
theorem railsDown_acts (s : State) (n : Nat) :
    (∀ p, p < n → railOf ((List.range n).foldl (fun a p => railDown a p 0) s) p = 0) ∧
      (∀ o, (∀ p, p < n → o ≠ rg p 4) → wReg ((List.range n).foldl (fun a p => railDown a p 0) s) o = wReg s o) ∧
      ((List.range n).foldl (fun a p => railDown a p 0) s).mod.sbd = s.mod.sbd := by
  induction n with
  | zero => exact ⟨fun _ h => absurd h (Nat.not_lt_zero _), fun _ _ => rfl, rfl⟩
  | succ n ih =>
    obtain ⟨hrails, hregs, hsbd⟩ := ih
    rw [List.range_succ, List.foldl_append]
    generalize (List.range n).foldl (fun a p => railDown a p 0) s = a at hrails hregs hsbd
    refine ⟨fun p hp => ?_, fun o ho => ?_, ?_⟩
    · by_cases hpn : p = n
      · rw [hpn]
        exact railOf_railDown a n (by decide)
      · refine Eq.trans ?_ (hrails p (by omega))
        exact congrArg (fld · 2 1) (railDown_reg a n 0 (rg_apart hpn (by decide) (by decide)))
    · exact (railDown_reg a n 0 (ho n (Nat.lt_succ_self n))).trans (hregs o fun p hp => ho p (Nat.lt_succ_of_lt hp))
    · exact (congrArg Module.sbd (railDown_mod a n 0)).trans hsbd

theorem cool_acts (tin : BitVec 8) (flow : BitVec 16) (s : State) :
    let read (t : State) : Prop := fld (wReg t 0x3000C) 7 0 = tin.toNat ∧ fld (wReg t 0x3000C) 31 16 = flow.toNat
    (tin.toNat ≤ 42 → 130 ≤ flow.toNat → leads (.cool tin flow) s fun t => onlyWin s t ∧ read t) ∧
    (42 < tin.toNat ∨ flow.toNat < 130 → leads (.cool tin flow) s fun t => read t ∧ bit (wReg t 0x30010) 2 = true ∧
      bit (regRaw sidebandRegs t.mod.sbd 8) 2 = true ∧ bit (regRaw sidebandRegs t.mod.sbd 8) 6 = true ∧ t.mod.coolTrip = true ∧
      (∀ p : Fin 48, railOn t p.val = false) ∧ fld (wReg t 8) 13 8 = 0) := by
  intro read
  have hdef : exec (.cool tin flow) s = execCool tin flow s := rfl
  unfold execCool at hdef
  have hread : read (wFld (wFld s 0x3000C 7 0 tin.toNat) 0x3000C 31 16 flow.toNat) := by
    refine ⟨?_, ?_⟩
    · refine (fld_wFld_apart _ _ _ _ _ (by decide) _).trans ((fld_wFld_self _ _ _ _ (by decide)).trans ?_)
      exact Nat.mod_eq_of_lt tin.isLt
    · exact (fld_wFld_self _ _ _ _ (by decide)).trans (Nat.mod_eq_of_lt flow.isLt)
  have honly : onlyWin s (wFld (wFld s 0x3000C 7 0 tin.toNat) 0x3000C 31 16 flow.toNat) := rfl
  generalize wFld (wFld s 0x3000C 7 0 tin.toNat) 0x3000C 31 16 flow.toNat = a at hdef hread honly
  have hbad : coolBad a = decide (42 < tin.toNat ∨ flow.toNat < 130) := by
    unfold coolBad
    rw [hread.1, hread.2]
  dsimp only at hdef
  rw [hbad] at hdef
  refine ⟨fun h1 h2 => ?_, fun h => ?_⟩
  · rw [if_pos (by rw [decide_eq_false (not_or.mpr ⟨Nat.not_lt.mpr h1, Nat.not_lt.mpr h2⟩)]; rfl)] at hdef
    exact leads_of hdef ⟨honly, hread⟩
  · rw [if_neg (by rw [decide_eq_true h]; decide)] at hdef
    have hact := quenchAll_acted (wFlag a 0x30010 4#32) quThermal
    generalize quenchAll (wFlag a 0x30010 4#32) quThermal = b at hdef hact
    obtain ⟨hrails, hregs, hsbd⟩ := railsDown_acts (sbdFlag b 0x44#32) 48
    generalize (List.range 48).foldl (fun a p => railDown a p 0) (sbdFlag b 0x44#32) = c at hdef hrails hregs hsbd
    have hcb : ∀ o, o < 0x40000 → wReg c o = wReg b o := fun o ho => hregs o fun p _ => by
      unfold rg
      omega
    have hb2 : ∀ o, o < 0x20050 ∨ 0x30000 ≤ o ∧ o < 0x30050 → wReg b o = wReg (wFlag a 0x30010 4#32) o := fun o ho =>
      hact.reg o (by unfold notSent; omega) (by omega)
    have hreg3 : wReg (wFld { c with mod := { c.mod with coolTrip := true } } 0x8 13 8 0) 0x3000C = wReg a 0x3000C := by
      refine (wReg_wFld_ne _ _ _ _ _ _ (by decide)).trans ?_
      exact (hcb _ (by decide)).trans ((hb2 _ (by decide)).trans (wReg_wFlag_ne _ _ _ _ (by decide)))
    refine leads_of hdef ⟨?_, ?_, ?_, ?_, rfl, fun p => ?_, fld_wFld_self _ _ _ _ (by decide)⟩
    · exact ⟨(congrArg (fld · 7 0) hreg3).trans hread.1, (congrArg (fld · 31 16) hreg3).trans hread.2⟩
    · have e : wReg (wFld { c with mod := { c.mod with coolTrip := true } } 0x8 13 8 0) 0x30010 = wReg (wFlag a 0x30010 4#32) 0x30010 :=
        (wReg_wFld_ne _ _ _ _ _ _ (by decide)).trans ((hcb _ (by decide)).trans (hb2 _ (by decide)))
      rw [e]
      exact bit_wFlag_self _ _ _ (by decide)
    · exact (congrArg (fun m => bit (regRaw sidebandRegs m 8) 2) hsbd).trans (alert_sbdFlag b 0x44#32 (by decide))
    · exact (congrArg (fun m => bit (regRaw sidebandRegs m 8) 6) hsbd).trans (alert_sbdFlag b 0x44#32 (by decide))
    · have e : railOf (wFld { c with mod := { c.mod with coolTrip := true } } 0x8 13 8 0) p.val = railOf c p.val :=
        congrArg (fld · 2 1) (wReg_wFld_ne _ _ _ _ _ _ (by unfold rg; omega))
      unfold railOn
      rw [e, hrails p.val p.isLt]
      rfl

/-- Settles O53: each reading is compared with its bound, and the region, its row's spare, its partition and its rail follow; a hot stack and bad
coolant raise their alerts. -/
theorem heatActs : Obligations.HeatActs := by
  refine ⟨fun p s => ?_, pollardHoldEnd_acts, stackOverheat_acts, stackCritical_acts, cool_acts⟩
  intro state tmax tp hard trip only off turn
  refine ⟨fun temp => ?_, pollard_waits, pollard_free, fun q k hturn hq hk hstate => pollard_part hturn hq hk hstate,
    (pollardReturn_acts p s).1, (pollardReturn_acts p s).2⟩
  obtain ⟨hw1, hw2, hw3⟩ := warm_acts p temp s
  obtain ⟨hr1, hr2, hr3⟩ := pollardRequest_acts p temp s
  obtain ⟨hh1, hh2⟩ := thermalHard_acts p temp s
  obtain ⟨ht1, ht2⟩ := thermalTrip_acts p temp s
  exact ⟨hw1, hw2, hw3, hr1, hr2, hr3, hh1, hh2, ht1, ht2⟩

end Sys2Proof.Machine
end

section
/-! PROOFS. Queue pairs, their rates and their RoCEv2 packets (R475 to R487). -/
namespace Sys2Proof.Machine

/-! ### Rates and timers -/

/-- The counters of 16 bits of a port: congestion notifications and repeats (R488). -/
theorem portErr_half (s : State) (p n : Nat) {c half : Nat} (hc : c = 12 ∨ c = 13) (hh : half < 2) :
    winCounts s (portErr s p c half n) (pReg p (0x60 + 4 * c)) (16 * half + 15) (16 * half) n := by
  have h15 : ¬ c = 15 := by omega
  unfold portErr
  simp only [if_neg h15, if_pos hc]
  exact winCounts_wCount s (pReg p (0x60 + 4 * c)) (16 * half) n (by omega)

theorem qp_none_or_err {q : Nat} {s : State} (h : s.qp q = none ∨ ∃ k, s.qp q = some k ∧ k.err = true) (k : Qp) (hk : s.qp q = some k) : k.err = true := by
  rcases h with h | ⟨k2, hk2, he⟩
  · cases h.symm.trans hk
  · rw [Option.some.inj (hk.symm.trans hk2)]
    exact he

theorem qpEnded_still (q : BitVec 16) (s : State) (h : ∀ k, s.qp q.toNat = some k → k.err = true) :
    exec (.cnpReceive q) s = .next s ∧ exec (.rateRecovery q) s = .next s ∧ exec (.ackTimeout q) s = .next s ∧ exec (.rnrTimerExpire q) s = .next s := by
  have h1 : exec (.cnpReceive q) s = execCnpReceive q s := rfl
  have h2 : exec (.rateRecovery q) s = execRateRecovery q s := rfl
  have h3 : exec (.ackTimeout q) s = execAckTimeout q s := rfl
  have h4 : exec (.rnrTimerExpire q) s = execRnrTimerExpire q s := rfl
  unfold execCnpReceive at h1
  unfold execRateRecovery at h2
  unfold execAckTimeout at h3
  unfold execRnrTimerExpire at h4
  rw [h1, h2, h3, h4]
  cases hq : s.qp q.toNat with
  | none => exact ⟨rfl, rfl, rfl, rfl⟩
  | some k =>
    have herr := h k hq
    refine ⟨if_pos herr, if_pos herr, if_pos (Or.inl herr), ?_⟩
    dsimp only
    split
    · rfl
    · exact if_pos herr

theorem cnpReceive_acts {q : BitVec 16} {s : State} {k : Qp} (hk : s.qp q.toNat = some k) (herr : k.err = false) :
    leads (.cnpReceive q) s fun t => winCounts s t (pReg k.port 0x94) 15 0 1 ∧ t.now = s.now ∧ ∃ k2, t.qp q.toNat = some k2 ∧ k2.rt = k.rc ∧
      k2.rc = dyMax ⟨k.rc.num * (2 ^ (k.alpha.exp + 1) - k.alpha.num), k.rc.exp + k.alpha.exp + 1⟩ (dNat 100) ∧
      k2.alpha = ⟨15 * k.alpha.num + 2 ^ k.alpha.exp, k.alpha.exp + 4⟩ ∧ k2.quiet = 0 ∧ k2.rateDue = s.now + 88000 := by
  have hdef : exec (.cnpReceive q) s = execCnpReceive q s := rfl
  unfold execCnpReceive at hdef
  rw [hk] at hdef
  dsimp only at hdef
  rw [if_neg (by rw [herr]; decide)] at hdef
  have hcount := portErr_half (s.setQp q.toNat (cutRate k s.now)) k.port 1 (c := 13) (half := 0) (Or.inr rfl) (by decide)
  have hqp : (portErr (s.setQp q.toNat (cutRate k s.now)) k.port 13 0 1).qp q.toNat = some (cutRate k s.now) := qp_setQp_self ..
  exact leads_of hdef ⟨hcount, rfl, _, hqp, rfl, rfl, rfl, rfl, rfl⟩

theorem rateRecovery_acts {q : BitVec 16} {s : State} {k : Qp} (hk : s.qp q.toNat = some k) (herr : k.err = false) :
    leads (.rateRecovery q) s fun t => t.now = max s.now k.rateDue ∧ t.win = s.win ∧ ∃ k2, t.qp q.toNat = some k2 ∧ k2.quiet = k.quiet + 1 ∧
      k2.alpha = ⟨15 * k.alpha.num, k.alpha.exp + 4⟩ ∧ k2.rateDue = k.rateDue + 88000 ∧ (k.quiet < 5 → k2.rt = k.rt) ∧
      (5 ≤ k.quiet → k2.rt = dyMin (dyAdd k.rt (dNat 4000)) (lineRate s k)) ∧
      k2.rc = ⟨(dyAdd k.rc k2.rt).num, (dyAdd k.rc k2.rt).exp + 1⟩ := by
  have hdef : exec (.rateRecovery q) s = execRateRecovery q s := rfl
  unfold execRateRecovery at hdef
  rw [hk] at hdef
  dsimp only at hdef
  rw [if_neg (by rw [herr]; decide)] at hdef
  exact leads_of hdef ⟨rfl, rfl, _, qp_setQp_self .., rfl, rfl, rfl, fun h => if_neg (by omega), fun h => if_pos (by omega), rfl⟩

theorem FramesSent.foldl {α : Type} {f : State → α → State} (hf : ∀ s x, FramesSent s (f s x)) (l : List α) (s : State) : FramesSent s (l.foldl f s) := by
  induction l generalizing s with
  | nil => exact FramesSent.refl s
  | cons x t ih => exact (hf s x).trans (ih _)

/-- Frames that are sent again are counted, and their queue pair waits from now on. -/
theorem resendAll_acts (s : State) (q : Nat) (k : Qp) :
    winCounts s (resendAll s q k) (pReg k.port 0x94) 31 16 1 ∧ (resendAll s q k).now = s.now ∧
      (resendAll s q k).qp q = some { k with sentAt := s.now, rnrAt := none } := by
  unfold resendAll
  extract_lets s1
  have hsent : FramesSent s1 (k.una.foldl (fun a x => sendFrame a k.port k.prio x.len) s1) := FramesSent.foldl (fun a x => sendFrame_sent ..) _ _
  have hcount := portErr_half (s.setQp q { k with sentAt := s.now, rnrAt := none }) k.port 1 (c := 13) (half := 1) (Or.inr rfl) (by decide)
  refine ⟨?_, hsent.now, ?_⟩
  · exact winCounts_of_reg (t := s1) hcount (congrArg (fld · 31 16) (hsent.reg _ (by unfold notSent pReg; omega)))
  · rw [State.qp, hsent.hw]
    exact qp_setQp_self ..

theorem qpFail_acts {s : State} {q : Nat} {k : Qp} (hk : s.qp q = some k) (herr : k.err = false) (synd : Nat) :
    (∃ k2, (qpFail s q synd).qp q = some k2 ∧ k2.err = true ∧ k2.synd = synd) ∧ (qpFail s q synd).net = s.net ∧ (qpFail s q synd).win = s.win := by
  unfold qpFail
  rw [show mget? s.hw.qps q = some k from hk]
  dsimp only
  rw [if_neg (by rw [herr]; decide)]
  exact ⟨⟨_, mget_mset_self .., rfl, rfl⟩, rfl, rfl⟩

theorem ackTimeout_acts {q : BitVec 16} {s : State} {k : Qp} (hk : s.qp q.toNat = some k) (herr : k.err = false) :
    (k.una = [] → exec (.ackTimeout q) s = .next s) ∧
    (k.una ≠ [] → k.left = 0 → leads (.ackTimeout q) s fun t => ∃ k2, t.qp q.toNat = some k2 ∧ k2.err = true ∧ k2.synd = 0xFF ∧
      t.now = max s.now (k.sentAt + (65536 * 2 ^ k.timeout + 9) / 10)) ∧
    (k.una ≠ [] → k.left ≠ 0 → leads (.ackTimeout q) s fun t => winCounts s t (pReg k.port 0x94) 31 16 1 ∧
      t.now = max s.now (k.sentAt + (65536 * 2 ^ k.timeout + 9) / 10) ∧
      t.qp q.toNat = some { k with left := k.left - 1, sentAt := t.now, rnrAt := none }) := by
  have hdef : exec (.ackTimeout q) s = execAckTimeout q s := rfl
  unfold execAckTimeout at hdef
  rw [hk] at hdef
  dsimp only at hdef
  refine ⟨fun hnil => hdef.trans (if_pos (Or.inr (List.isEmpty_iff.mpr hnil))), fun hne h0 => ?_, fun hne h0 => ?_⟩
  all_goals
    rw [if_neg (by rw [herr, List.isEmpty_iff]; rintro (h | h); exacts [Bool.false_ne_true h, hne h]), retryQp,
      show (s.reach (k.sentAt + (65536 * 2 ^ k.timeout + 9) / 10)).qp q.toNat = some k from hk] at hdef
    dsimp only at hdef
  · rw [if_pos h0] at hdef
    obtain ⟨⟨k2, hk2, he, hs⟩, _⟩ := qpFail_acts (s := s.reach (k.sentAt + (65536 * 2 ^ k.timeout + 9) / 10)) hk herr 0xFF
    exact leads_of hdef ⟨k2, hk2, he, hs, qpFail_now ..⟩
  · rw [if_neg h0] at hdef
    obtain ⟨hcount, hnow, hqp⟩ := resendAll_acts (s.reach (k.sentAt + (65536 * 2 ^ k.timeout + 9) / 10)) q.toNat { k with left := k.left - 1 }
    refine leads_of hdef ⟨hcount, hnow, ?_⟩
    rw [hqp, hnow]

theorem rnrTimerExpire_acts {q : BitVec 16} {s : State} {k : Qp} (hk : s.qp q.toNat = some k) (herr : k.err = false) :
    (k.rnrAt = none → exec (.rnrTimerExpire q) s = .next s) ∧
    (∀ u, k.rnrAt = some u → leads (.rnrTimerExpire q) s fun t => t.now = max s.now u ∧ winCounts s t (pReg k.port 0x94) 31 16 1 ∧
      t.qp q.toNat = some { k with sentAt := t.now, rnrAt := none }) := by
  have hdef : exec (.rnrTimerExpire q) s = execRnrTimerExpire q s := rfl
  unfold execRnrTimerExpire at hdef
  rw [hk] at hdef
  dsimp only at hdef
  refine ⟨fun hnone => ?_, fun u hu => ?_⟩
  · rw [hdef, hnone]
  · rw [hu] at hdef
    dsimp only at hdef
    rw [if_neg (by rw [herr]; decide)] at hdef
    obtain ⟨hcount, hnow, hqp⟩ := resendAll_acts (s.reach u) q.toNat k
    refine leads_of hdef ⟨hnow, hcount, ?_⟩
    rw [hqp, hnow]

/-! ### Packets -/

theorem FramesSent.net {s t : State} (h : FramesSent s t) : t.net = s.net := by simpa using congrArg State.net h.rest

/-- What the place that a packet takes in its port's receive buffer keeps: the tables, the packets of the fabric, the counts of what was received. -/
structure Drained (p : Nat) (s t : State) : Prop where
  hw : t.hw = s.hw
  net : t.net = s.net
  now : t.now = s.now
  reg : ∀ r, r < 0x50 ∨ 0x60 ≤ r ∧ r < 0x100 → wReg t (pReg p r) = wReg s (pReg p r)

theorem Drained.sent {p : Nat} {s t u : State} (h : Drained p s t) (hu : FramesSent t u) : Drained p s u where
  hw := hu.hw.trans h.hw
  net := hu.net.trans h.net
  now := hu.now.trans h.now
  reg r hr := (hu.reg _ (by unfold notSent pReg; omega)).trans (h.reg r hr)

theorem Drained.setPort {p : Nat} {s t : State} (h : Drained p s t) (n : Nat) (k : Port) : Drained p s (t.setPort n k) := ⟨h.hw, h.net, h.now, h.reg⟩

theorem drainBuffer_drained (s : State) (p : Nat) {i : Nat} (hi : i < 8) (len : Nat) : Drained p s (drainBuffer s p i len) := by
  have hpfc : ∀ t, Drained p s t → Drained p s (sendPfc t p i) := fun t h => by
    unfold sendPfc
    have h2 : Drained p s (wSet t (pReg p (0x104 + 8 * i)) (wReg t (pReg p (0x104 + 8 * i)) + 1#32)) :=
      ⟨h.hw, h.net, h.now, fun r hr => (wReg_wSet_ne _ _ _ _ (by unfold pReg; omega)).trans (h.reg r hr)⟩
    exact h2.sent (putFrame_sent ..)
  unfold drainBuffer
  extract_lets k occ s1 s2
  have h1 : Drained p s s1 := ⟨rfl, rfl, rfl, fun _ _ => rfl⟩
  split
  · exact (hpfc s1 h1).setPort ..
  · exact h1

theorem Drained.qp {p : Nat} {s t : State} (h : Drained p s t) (q : Nat) : t.qp q = s.qp q := congrArg (fun x : Heartwood => mget? x.qps q) h.hw

theorem Drained.keyOk {p : Nat} {s t : State} (h : Drained p s t) (k : Qp) (rkey : Word) (a n : Nat) (write : Bool) :
    keyOk t k rkey a n write = keyOk s k rkey a n write := by
  unfold Machine.keyOk handleCheck genOf objectAt
  rw [h.hw]

theorem Drained.counts {p c : Nat} {s t u : State} (h : Drained p s t) (hc : c < 12) (hu : winCounts t u (pReg p (0x60 + 4 * c)) 31 0 1) :
    winCounts s u (pReg p (0x60 + 4 * c)) 31 0 1 := by
  unfold winCounts at *
  rw [← h.reg (0x60 + 4 * c) (by omega)]
  exact hu

/-- A packet of a queue pair of this port. -/
def rocMine (s : State) (p : Nat) (x : RocePkt) (k : Qp) : Prop := s.qp x.qpn.toNat = some k ∧ k.err = false ∧ k.port = p ∧ x.src.toNat = k.remote

theorem rocePacket_other {s : State} {p : Nat} {x : RocePkt} (hup : portState s p = poUp) (h1 : x.qpn.toNat ≠ 1) (hno : ∀ k, ¬ rocMine s p x k) :
    rocePacket s p x = portErr (drainBuffer s p x.prio.toNat x.len) p 7 0 1 := by
  unfold rocePacket
  rw [if_neg (not_not.mpr hup)]
  dsimp only
  rw [if_neg h1, (drainBuffer_drained s p x.prio.isLt x.len).qp]
  split
  · rfl
  · next k hk =>
    refine if_pos ?_
    by_contra hcon
    refine hno k ⟨hk, ?_⟩
    simpa using hcon

/-- What becomes of a packet of a queue pair of this port with a good ICRC, after its congestion mark. -/
def roceTaken (s1 : State) (p : Nat) (x : RocePkt) (k : Qp) : State :=
  if 13 ≤ x.op.toNat ∧ x.op.toNat ≤ 18 then
    (if x.op.toNat = 17 then takeAck s1 x.qpn.toNat k x.psn.toNat x.aeth.toNat else ackUpTo s1 x.qpn.toNat k x.psn.toNat)
  else if x.psn.toNat = k.epsn then roceExecute s1 p x.qpn.toNat k x
  else if psnAhead x.psn.toNat k.epsn < 8388608 then roceDuplicate s1 p x.qpn.toNat k x
  else if k.nakSent then portErr s1 p 9 0 1 else sendAck ((portErr s1 p 9 0 1).setQp x.qpn.toNat { k with nakSent := true }) k k.epsn 96

theorem rocePacket_mine {s : State} {p : Nat} {x : RocePkt} {k : Qp} (hup : portState s p = poUp) (h1 : x.qpn.toNat ≠ 1) (hk : rocMine s p x k) :
    rocePacket s p x =
      if !x.icrcOk then portErr (drainBuffer s p x.prio.toNat x.len) p 8 0 1
      else match (if x.ce then noteCe (drainBuffer s p x.prio.toNat x.len) p x.qpn.toNat k else drainBuffer s p x.prio.toNat x.len).qp x.qpn.toNat with
        | none => if x.ce then noteCe (drainBuffer s p x.prio.toNat x.len) p x.qpn.toNat k else drainBuffer s p x.prio.toNat x.len
        | some k1 => roceTaken (if x.ce then noteCe (drainBuffer s p x.prio.toNat x.len) p x.qpn.toNat k else drainBuffer s p x.prio.toNat x.len) p x k1 := by
  obtain ⟨hq, herr, hport, hsrc⟩ := hk
  unfold rocePacket
  rw [if_neg (not_not.mpr hup)]
  dsimp only
  rw [if_neg h1, (drainBuffer_drained s p x.prio.isLt x.len).qp, hq]
  dsimp only
  rw [if_neg (by simp [herr, hport, hsrc])]
  rfl

/-- A packet without a congestion mark. -/
theorem rocePacket_plain {s : State} {p : Nat} {x : RocePkt} {k : Qp} (hup : portState s p = poUp) (h1 : x.qpn.toNat ≠ 1) (hk : rocMine s p x k)
    (hicrc : x.icrcOk = true) (hce : x.ce = false) : rocePacket s p x = roceTaken (drainBuffer s p x.prio.toNat x.len) p x k := by
  rw [rocePacket_mine hup h1 hk, hicrc, hce, if_neg (by decide)]
  rw [if_neg (by decide), (drainBuffer_drained s p x.prio.isLt x.len).qp, hk.1]

end Sys2Proof.Machine
end

section
/-! PROOFS. What RoCEv2 packets do to their queue pairs (R475 to R483). -/
namespace Sys2Proof.Machine

theorem sendAck_hw (s : State) (k : Qp) (psn synd : Nat) : (sendAck s k psn synd).hw = s.hw :=
  (sendFrame_sent s k.port k.prio (roceFrame 4 0)).hw

theorem sendAck_net (s : State) (k : Qp) (psn synd : Nat) : (sendAck s k psn synd).net = s.net :=
  (sendFrame_sent s k.port k.prio (roceFrame 4 0)).net

theorem sendAck_qp (s : State) (k : Qp) (psn synd q : Nat) : (sendAck s k psn synd).qp q = s.qp q :=
  congrArg (fun x : Heartwood => mget? x.qps q) (sendAck_hw ..)

theorem sendAck_reg (s : State) (k : Qp) (psn synd p : Nat) {r : Nat} (hr : 0x60 ≤ r) (hr2 : r < 0x400) :
    wReg (sendAck s k psn synd) (pReg p r) = wReg s (pReg p r) :=
  (sendFrame_sent s k.port k.prio (roceFrame 4 0)).reg _ (by unfold notSent pReg; omega)

/-! ### The registers a packet leaves -/

/-- The count of congestion marks of a port is another than the counts of its errors. -/
theorem portErr_marks (s : State) (p c half n m : Nat) (hc : c < 16) (hne : c ≠ 12) : wReg (portErr s m c half n) (pReg p 0x90) = wReg s (pReg p 0x90) :=
  wReg_wCount_ne _ _ _ _ _ _ (by unfold pReg; omega)

/-- A step that leaves the count of congestion marks of a port. -/
def marksKept (p : Nat) (s t : State) : Prop := wReg t (pReg p 0x90) = wReg s (pReg p 0x90)

theorem marksKept_of_win {p : Nat} {s t : State} (h : t.win = s.win) : marksKept p s t := congrArg (fun m => regRaw windowRegs m (pReg p 0x90)) h

theorem marksKept.trans {p : Nat} {s t u : State} (h : marksKept p s t) (h2 : marksKept p t u) : marksKept p s u := Eq.trans h2 h

theorem FramesSent.marks {s t : State} (h : FramesSent s t) (p : Nat) : marksKept p s t := h.reg _ (by unfold notSent pReg; omega)

theorem sendAck_marks (s : State) (k : Qp) (psn synd p : Nat) : marksKept p s (sendAck s k psn synd) := sendAck_reg s k psn synd p (by decide) (by decide)

theorem qpFail_marks (s : State) (q synd p : Nat) : marksKept p s (qpFail s q synd) := by
  refine marksKept_of_win ?_
  unfold qpFail
  split
  · rfl
  · split <;> rfl

theorem resendAll_marks (s : State) (q : Nat) (k : Qp) (p : Nat) : marksKept p s (resendAll s q k) := by
  have h1 : marksKept p s (portErr (s.setQp q { k with sentAt := s.now, rnrAt := none }) k.port 13 1 1) :=
    portErr_marks (s.setQp q { k with sentAt := s.now, rnrAt := none }) p 13 1 1 k.port (by decide) (by decide)
  exact h1.trans ((FramesSent.foldl (fun a x => sendFrame_sent ..) _ _).marks p)

theorem retryQp_marks (s : State) (q synd p : Nat) : marksKept p s (retryQp s q synd) := by
  unfold retryQp
  split
  · rfl
  · split
    · exact qpFail_marks ..
    · exact resendAll_marks ..

theorem takeAck_marks (s : State) (q : Nat) (k : Qp) (psn aeth p : Nat) : marksKept p s (takeAck s q k psn aeth) := by
  unfold takeAck
  split
  · rfl
  · split
    · rfl
    · split
      · exact qpFail_marks ..
      · rfl
  · split
    · exact retryQp_marks (ackUpTo s q k ((psn + 16777215) % 16777216)) q aeth p
    · exact qpFail_marks ..
  · rfl

theorem nakFatal_marks (s : State) (q : Nat) (k : Qp) (psn code p : Nat) : marksKept p s (nakFatal s q k psn code) :=
  (sendAck_marks s k psn (96 + code) p).trans (qpFail_marks ..)

theorem accepted_marks (s : State) (q n psn : Nat) (ackReq : Bool) (p : Nat) : marksKept p s (accepted s q n psn ackReq) := by
  unfold accepted
  split
  · rfl
  · next k _ =>
    extract_lets k1
    split
    · rfl
    · split
      · rfl
      · exact sendAck_marks (s.setQp q k1) k1 psn 31 p

theorem portRequest_win (s : State) (p q what : Nat) (k : Qp) (pk : Packet) : (portRequest s p q what k pk).win = s.win := rfl

theorem portWrite_win (s : State) (p q : Nat) (k : Qp) (a : Nat) (bytes : List Byte) : (portWrite s p q k a bytes).win = s.win := by
  unfold portWrite
  refine foldl_win (fun b e => ?_) _ _
  exact portRequest_win ..

theorem startRead_win (s : State) (p q : Nat) (k : Qp) (psn a n : Nat) : (startRead s p q k psn a n).win = s.win := by
  unfold startRead
  dsimp only
  split <;> rfl

theorem placeWrite_win (s : State) (p q : Nat) (k : Qp) (a : Nat) (bytes : List Byte) : (placeWrite s p q k a bytes).win = s.win := by
  unfold placeWrite
  dsimp only
  split
  · split <;> rfl
  · exact portWrite_win ..

theorem roceExecute_marks (s : State) (p q : Nat) (k : Qp) (x : RocePkt) (m : Nat) : marksKept m s (roceExecute s p q k x) := by
  have hdenied : ∀ a, marksKept m s a → marksKept m s (portErr a p 10 0 1) := fun a h => h.trans (portErr_marks a m 10 0 1 p (by decide) (by decide))
  unfold roceExecute
  extract_lets op psn s1 first w n
  clear_value w
  split
  · exact nakFatal_marks ..
  · split
    · split
      · exact sendAck_marks ..
      · exact accepted_marks ..
    · split
      · split
        · exact hdenied _ (nakFatal_marks ..)
        · split
          · exact accepted_marks ..
          · have h1 : marksKept m s s1 := marksKept_of_win (startRead_win ..)
            split
            · exact h1
            · exact h1
      · split
        · exact hdenied _ (nakFatal_marks ..)
        · split
          · exact nakFatal_marks ..
          · split
            · exact nakFatal_marks ..
            · dsimp only
              exact (marksKept_of_win (placeWrite_win ..) : marksKept m s (placeWrite (s.setQp q _) p q _ _ x.payload)).trans (accepted_marks ..)

theorem roceDuplicate_marks (s : State) (p q : Nat) (k : Qp) (x : RocePkt) (m : Nat) : marksKept m s (roceDuplicate s p q k x) := by
  unfold roceDuplicate
  split
  · exact marksKept_of_win (startRead_win ..)
  · exact sendAck_marks ..

theorem roceTaken_marks (s : State) (p : Nat) (x : RocePkt) (k : Qp) (m : Nat) : marksKept m s (roceTaken s p x k) := by
  have h9 : marksKept m s (portErr s p 9 0 1) := portErr_marks s m 9 0 1 p (by decide) (by decide)
  unfold roceTaken
  split
  · split
    · exact takeAck_marks ..
    · exact marksKept_of_win rfl
  · split
    · exact roceExecute_marks ..
    · split
      · exact roceDuplicate_marks ..
      · split
        · exact h9
        · exact h9.trans (sendAck_marks ((portErr s p 9 0 1).setQp x.qpn.toNat { k with nakSent := true }) k k.epsn 96 m)

/-- A congestion mark is counted. -/
theorem noteCe_counts (s : State) (p q : Nat) (k : Qp) : winCounts s (noteCe s p q k) (pReg p 0x90) 15 0 1 := by
  unfold noteCe
  extract_lets s1 due
  have h1 : winCounts s s1 (pReg p 0x90) 15 0 1 := portErr_half s p 1 (c := 12) (half := 0) (Or.inl rfl) (by decide)
  split
  · have hsent := sendFrame_sent (s1.setQp q { k with cnpAt := some s.now }) p k.prio 78
    generalize sendFrame (s1.setQp q { k with cnpAt := some s.now }) p k.prio 78 = s2 at hsent ⊢
    have h2 : wReg s2 (pReg p 0x90) = wReg s1 (pReg p 0x90) := hsent.marks p
    refine winCounts_of_reg h1 ((fld_wCount_apart s2 (pReg p 0x90) 31 16 1 (by decide) _).trans ?_)
    rw [h2]
  · exact h1

end Sys2Proof.Machine
end

section
/-! PROOFS. Writes, answers and ends of queue pairs (R478 to R483, R488). -/
namespace Sys2Proof.Machine

theorem accepted_acts {s : State} {q : Nat} {k : Qp} (hk : s.qp q = some k) (psn : Nat) (ackReq : Bool) :
    (accepted s q 1 psn ackReq).net = s.net ∧
      ∃ k2, (accepted s q 1 psn ackReq).qp q = some k2 ∧ k2.epsn = (k.epsn + 1) % 16777216 ∧ k2.err = k.err := by
  unfold accepted
  rw [hk]
  dsimp only
  split
  · exact ⟨rfl, _, qp_setQp_self .., rfl, rfl⟩
  · split
    · exact ⟨rfl, _, qp_setQp_self .., rfl, rfl⟩
    · exact ⟨sendAck_net .., _, (sendAck_qp ..).trans (qp_setQp_self ..), rfl, rfl⟩

theorem portRequest_net (s : State) (p q what : Nat) (k : Qp) (pk : Packet) : (portRequest s p q what k pk).net.length = s.net.length + 1 :=
  List.length_append

theorem portRequest_hw (s : State) (p q what : Nat) (k : Qp) (pk : Packet) : (portRequest s p q what k pk).hw = s.hw := rfl

/-- A write that goes inward is one packet for each range of 512 bytes. -/
theorem portWrite_acts (s : State) (p q : Nat) (k : Qp) (a : Nat) (bytes : List Byte) :
    (portWrite s p q k a bytes).net.length = s.net.length + (pieces512 a bytes.length).length ∧ (portWrite s p q k a bytes).hw = s.hw := by
  unfold portWrite
  generalize pieces512 a bytes.length = l
  induction l generalizing s with
  | nil => exact ⟨rfl, rfl⟩
  | cons e l ih =>
    obtain ⟨hlen, hhw⟩ := ih (portRequest s p q 0 k { Packet.blank with
      type := tWR, addr := BitVec.ofNat 64 e.1, payload := (bytes.drop (e.1 - a)).take e.2
      pcrc0 := (pcrcOf ((bytes.drop (e.1 - a)).take e.2)).1, pcrc1 := (pcrcOf ((bytes.drop (e.1 - a)).take e.2)).2 })
    rw [portRequest_net] at hlen
    rw [portRequest_hw] at hhw
    refine ⟨hlen.trans ?_, hhw⟩
    rw [List.length_cons]
    omega

theorem placeWrite_inward {a : Nat} (h : ¬ (mbxBase ≤ a ∧ a < mbxBase + 0x40000)) (s : State) (p q : Nat) (k : Qp) (bytes : List Byte) :
    placeWrite s p q k a bytes = portWrite s p q k a bytes := if_neg h

theorem nakFatal_acts {s : State} {q : Nat} {k : Qp} (hk : s.qp q = some k) (herr : k.err = false) (psn code : Nat) :
    (nakFatal s q k psn code).net = s.net ∧ ∃ k2, (nakFatal s q k psn code).qp q = some k2 ∧ k2.err = true := by
  obtain ⟨⟨k2, hk2, he, _⟩, hnet, _⟩ := qpFail_acts ((sendAck_qp s k psn (96 + code) q).trans hk) herr (96 + code)
  exact ⟨hnet.trans (sendAck_net ..), k2, hk2, he⟩

section
variable {s : State} {p q : Nat} {k : Qp} {x : RocePkt}

theorem roceExecute_denied (hop : x.op = 10#8) (hkey : keyOk s k x.rkey x.va.toNat x.dmaLen.toNat true = false) :
    roceExecute s p q k x = portErr (nakFatal s q k x.psn.toNat 2) p 10 0 1 := by
  have h10 : x.op.toNat = 10 := by rw [hop]; rfl
  unfold roceExecute
  dsimp only
  rw [h10, if_neg (by decide), if_neg (by decide), if_neg (by decide), if_pos ⟨by decide, by rw [hkey]; rfl⟩]

theorem roceExecute_write (hop : x.op = 10#8) (hkey : keyOk s k x.rkey x.va.toNat x.dmaLen.toNat true = true) (hlen : x.payload.length = x.dmaLen.toNat) :
    roceExecute s p q k x =
      accepted (placeWrite (s.setQp q { k with wrAt := none }) p q { k with wrAt := none } x.va.toNat x.payload) q 1 x.psn.toNat x.ackReq := by
  have h10 : x.op.toNat = 10 := by rw [hop]; rfl
  unfold roceExecute
  dsimp only
  rw [h10, if_neg (by decide), if_neg (by decide), if_neg (by decide), if_neg (by rw [hkey]; rintro ⟨_, h⟩; cases h), if_pos (by decide)]
  dsimp only
  rw [if_neg (by omega), if_neg (by decide)]

theorem roceTaken_ack (hop : x.op = 17#8) (haeth : x.aeth.toNat < 32) : roceTaken s p x k = ackUpTo s x.qpn.toNat k x.psn.toNat := by
  have h17 : x.op.toNat = 17 := by rw [hop]; rfl
  unfold roceTaken
  rw [h17, if_pos (by decide), if_pos rfl, takeAck, Nat.div_eq_of_lt haeth]
  rfl

theorem roceTaken_write (hop : x.op = 10#8) : roceTaken s p x k =
    if x.psn.toNat = k.epsn then roceExecute s p x.qpn.toNat k x
    else if psnAhead x.psn.toNat k.epsn < 8388608 then roceDuplicate s p x.qpn.toNat k x
    else if k.nakSent then portErr s p 9 0 1 else sendAck ((portErr s p 9 0 1).setQp x.qpn.toNat { k with nakSent := true }) k k.epsn 96 := by
  have h10 : x.op.toNat = 10 := by rw [hop]; rfl
  unfold roceTaken
  rw [h10, if_neg (by decide)]

theorem roceDuplicate_write (hop : x.op = 10#8) : roceDuplicate s p q k x = sendAck s k ((k.epsn + 16777215) % 16777216) 31 := by
  have h10 : x.op.toNat = 10 := by rw [hop]; rfl
  unfold roceDuplicate
  rw [h10, if_neg (by rintro ⟨h, _⟩; revert h; decide)]

end

theorem noteCe_qp {s : State} {p q : Nat} {k : Qp} (hk : s.qp q = some k) : ∃ k1, (noteCe s p q k).qp q = some k1 := by
  unfold noteCe
  extract_lets s1 due
  split
  · have hsent := sendFrame_sent (s1.setQp q { k with cnpAt := some s.now }) p k.prio 78
    have hq : (sendFrame (s1.setQp q { k with cnpAt := some s.now }) p k.prio 78).qp q = some { k with cnpAt := some s.now } :=
      (congrArg (fun x : Heartwood => mget? x.qps q) hsent.hw).trans (qp_setQp_self ..)
    exact ⟨_, hq⟩
  · exact ⟨k, hk⟩

theorem rocePackets_act (p : PortId) (x : RocePkt) (s : State) {k : Qp} (hup : portState s p.val = poUp) (h1 : x.qpn.toNat ≠ 1)
    (hk : rocMine s p.val x k) :
    let q := x.qpn.toNat
    let ctr (t : State) (c : Nat) : Prop := winCounts s t (pReg p.val (0x60 + 4 * c)) 31 0 1
    let key (k : Qp) : Bool := keyOk s k x.rkey x.va.toNat x.dmaLen.toNat true
    (x.icrcOk = false → leads (.rocePacket p x) s fun t => ctr t 8 ∧ t.hw.qps = s.hw.qps ∧ t.net = s.net) ∧
    (x.icrcOk = true → x.ce = true → leads (.rocePacket p x) s fun t => winCounts s t (pReg p.val 0x90) 15 0 1) ∧
    (x.icrcOk = true → x.ce = false → x.op = 10#8 → x.psn.toNat = k.epsn → key k = true → x.payload.length = x.dmaLen.toNat →
      ¬ (mbxBase ≤ x.va.toNat ∧ x.va.toNat < mbxBase + 0x40000) → leads (.rocePacket p x) s fun t =>
        t.net.length = s.net.length + (pieces512 x.va.toNat x.payload.length).length ∧
        ∃ k2, t.qp q = some k2 ∧ k2.epsn = (k.epsn + 1) % 16777216 ∧ k2.err = false) ∧
    (x.icrcOk = true → x.ce = false → x.op = 10#8 → x.psn.toNat = k.epsn → key k = false → leads (.rocePacket p x) s fun t =>
      ctr t 10 ∧ t.net = s.net ∧ ∃ k2, t.qp q = some k2 ∧ k2.err = true) ∧
    (x.icrcOk = true → x.ce = false → x.op = 10#8 → x.psn.toNat ≠ k.epsn → psnAhead x.psn.toNat k.epsn < 8388608 →
      leads (.rocePacket p x) s fun t => t.net = s.net ∧ t.hw.qps = s.hw.qps ∧
        t.reply = some ⟨31, [17#32, BitVec.ofNat 32 k.rqp, BitVec.ofNat 32 ((k.epsn + 16777215) % 16777216)]⟩) ∧
    (x.icrcOk = true → x.ce = false → x.op = 10#8 → x.psn.toNat ≠ k.epsn → 8388608 ≤ psnAhead x.psn.toNat k.epsn →
      leads (.rocePacket p x) s fun t => ctr t 9 ∧ t.net = s.net ∧ ∃ k2, t.qp q = some k2 ∧ k2.epsn = k.epsn) ∧
    (x.icrcOk = true → x.ce = false → x.op = 17#8 → x.aeth.toNat < 32 → leads (.rocePacket p x) s fun t =>
      t.net = s.net ∧ ∃ k2, t.qp q = some k2 ∧ k2.epsn = k.epsn ∧
        ∀ y, y ∈ k2.una ↔ y ∈ k.una ∧ psnAhead x.psn.toNat y.psn ≠ 0 ∧ psnAhead x.psn.toNat y.psn < 8388608) := by
  intro q ctr key
  have hdef : exec (.rocePacket p x) s = .next (rocePacket s p.val x) := rfl
  have hd := drainBuffer_drained s p.val x.prio.isLt x.len
  have hplain := rocePacket_plain hup h1 hk (x := x)
  have hmine := rocePacket_mine hup h1 hk
  generalize drainBuffer s p.val x.prio.toNat x.len = a at hd hplain hmine
  have hak : a.qp q = some k := (hd.qp _).trans hk.1
  have hqps : a.hw.qps = s.hw.qps := congrArg Heartwood.qps hd.hw
  have hkey : keyOk a k x.rkey x.va.toNat x.dmaLen.toNat true = key k := hd.keyOk ..
  refine ⟨fun hic => ?_, fun hic hce => ?_, fun hic hce hop hpsn hkk hlen hmbx => ?_, fun hic hce hop hpsn hkk => ?_, fun hic hce hop hpsn hold => ?_,
    fun hic hce hop hpsn hgap => ?_, fun hic hce hop haeth => ?_⟩
  · rw [hmine, if_pos (by rw [hic]; rfl)] at hdef
    exact leads_of hdef ⟨hd.counts (by decide) (portErr_counts a p.val (by decide) 1).1, hqps, hd.net⟩
  · rw [hmine, if_neg (by rw [hic]; decide), if_pos hce] at hdef
    obtain ⟨k1, hk1⟩ := noteCe_qp (p := p.val) hak
    rw [hk1] at hdef
    refine leads_of hdef ?_
    have hcount : winCounts s (noteCe a p.val q k) (pReg p.val 0x90) 15 0 1 := by
      have h := noteCe_counts a p.val q k
      unfold winCounts at *
      rw [← hd.reg 0x90 (by decide)]
      exact h
    exact winCounts_of_reg hcount (congrArg (fld · 15 0) (roceTaken_marks ..))
  · rw [hplain hic hce, roceTaken_write hop, if_pos hpsn, roceExecute_write hop (hkey.trans hkk) hlen, placeWrite_inward hmbx] at hdef
    obtain ⟨hnet, hhw⟩ := portWrite_acts (a.setQp q { k with wrAt := none }) p.val q { k with wrAt := none } x.va.toNat x.payload
    generalize portWrite (a.setQp q { k with wrAt := none }) p.val q { k with wrAt := none } x.va.toNat x.payload = b at hdef hnet hhw
    have hbk : b.qp q = some { k with wrAt := none } := (congrArg (fun x : Heartwood => mget? x.qps q) hhw).trans (qp_setQp_self ..)
    obtain ⟨hnet2, k2, hk2, hepsn, herr⟩ := accepted_acts hbk x.psn.toNat x.ackReq
    refine leads_of hdef ⟨?_, k2, hk2, hepsn, herr.trans hk.2.1⟩
    rw [hnet2, hnet, ← hd.net]
    rfl
  · rw [hplain hic hce, roceTaken_write hop, if_pos hpsn, roceExecute_denied hop (hkey.trans hkk)] at hdef
    obtain ⟨hnet, k2, hk2, he⟩ := nakFatal_acts hak hk.2.1 x.psn.toNat 2
    have hreg : wReg (nakFatal a q k x.psn.toNat 2) (pReg p.val (0x60 + 4 * 10)) = wReg a (pReg p.val (0x60 + 4 * 10)) := by
      exact (congrArg (fun m => regRaw windowRegs m (pReg p.val (0x60 + 4 * 10))) (qpFail_acts ((sendAck_qp ..).trans hak) hk.2.1 _).2.2).trans
        (sendAck_reg a k x.psn.toNat (96 + 2) p.val (r := 0x60 + 4 * 10) (by decide) (by decide))
    have hcount := (portErr_counts (nakFatal a q k x.psn.toNat 2) p.val (c := 10) (by decide) 1).1
    refine leads_of hdef ⟨hd.counts (by decide) ?_, hnet.trans hd.net, k2, hk2, he⟩
    unfold winCounts at *
    rw [← hreg]
    exact hcount
  · rw [hplain hic hce, roceTaken_write hop, if_neg hpsn, if_pos hold, roceDuplicate_write hop] at hdef
    exact leads_of hdef ⟨(sendAck_net ..).trans hd.net, (congrArg Heartwood.qps (sendAck_hw ..)).trans hqps, rfl⟩
  · rw [hplain hic hce, roceTaken_write hop, if_neg hpsn, if_neg (Nat.not_lt.mpr hgap)] at hdef
    have hcount := hd.counts (by decide) (portErr_counts a p.val (c := 9) (by decide) 1).1
    refine leads_of hdef ?_
    split
    · exact ⟨hcount, hd.net, k, hak, rfl⟩
    · refine ⟨winCounts_of_reg hcount ?_, (sendAck_net ..).trans hd.net, { k with nakSent := true }, ?_, rfl⟩
      · exact congrArg (fld · 31 0) (sendAck_reg ((portErr a p.val 9 0 1).setQp q { k with nakSent := true }) k k.epsn 96 p.val (r := 0x60 + 4 * 9) (by decide) (by decide))
      · rw [sendAck_qp]
        exact qp_setQp_self ..
  · rw [hplain hic hce, roceTaken_ack hop haeth] at hdef
    refine leads_of hdef ⟨hd.net, _, qp_setQp_self .., rfl, fun y => ?_⟩
    rw [List.mem_filter, decide_eq_true_eq]

/-- Settles O39: the timers of a queue pair act on its rates and its packets that wait; a packet takes its place in the receive buffer, is counted
or taken, and a write goes inward by ranges of 512 bytes. -/
theorem queuePairsCarryPackets : Obligations.QueuePairsCarryPackets := by
  refine ⟨fun q s => ⟨fun hnone => qpEnded_still q s (qp_none_or_err hnone), fun k hk herr => ?_⟩, fun p x s => ⟨fun hdown => ?_, fun hup h1 hno => ?_,
    fun k hup h1 hk => rocePackets_act p x s hup h1 hk⟩⟩
  · obtain ⟨ha1, ha2, ha3⟩ := ackTimeout_acts hk herr
    obtain ⟨hr1, hr2⟩ := rnrTimerExpire_acts hk herr
    exact ⟨cnpReceive_acts hk herr, rateRecovery_acts hk herr, ha1, ha2, ha3, hr1, hr2⟩
  · exact congrArg Host.Outcome.next (if_pos hdown : rocePacket s p.val x = s)
  · have hdef : exec (.rocePacket p x) s = .next (rocePacket s p.val x) := rfl
    rw [rocePacket_other hup h1 hno] at hdef
    have hd := drainBuffer_drained s p.val x.prio.isLt x.len
    refine leads_of hdef ⟨hd.counts (by decide) (portErr_counts (drainBuffer s p.val x.prio.toNat x.len) p.val (by decide) 1).1, ?_, hd.net⟩
    exact congrArg Heartwood.qps hd.hw

end Sys2Proof.Machine
end

section
/-! PROOFS. Power-up, its end, and the bring-up engine (R655, R681 to R690). -/
namespace Sys2Proof.Machine

/-! ### Power-up and its end -/

theorem foldl_bumpGen_frame (ty : Nat) (l : List Nat) (s : State) :
    ∃ m, l.foldl (fun b i => bumpGen b ty i) s = { s with hw := { s.hw with gens := m } } := by
  induction l generalizing s with
  | nil => exact ⟨s.hw.gens, rfl⟩
  | cons i l ih =>
    obtain ⟨m, hm⟩ := ih (bumpGen s ty i)
    exact ⟨m, hm⟩

/-- The generations of every object move on; nothing else does. -/
theorem bumpAll_frame (s : State) : ∃ m, bumpAll s = { s with hw := { s.hw with gens := m } } := by
  unfold bumpAll
  dsimp only
  obtain ⟨m1, h1⟩ := foldl_bumpGen_frame hPart (s.hw.parts.map Prod.fst) s
  obtain ⟨m2, h2⟩ := foldl_bumpGen_frame hSession (s.hw.sessions.map Prod.fst) { s with hw := { s.hw with gens := m1 } }
  obtain ⟨m3, h3⟩ := foldl_bumpGen_frame hRing (s.hw.rings.map Prod.fst) { s with hw := { s.hw with gens := m2 } }
  obtain ⟨m4, h4⟩ := foldl_bumpGen_frame hChannel (s.hw.chans.map Prod.fst) { s with hw := { s.hw with gens := m3 } }
  obtain ⟨m5, h5⟩ := foldl_bumpGen_frame hBuffer (s.hw.bufs.map Prod.fst) { s with hw := { s.hw with gens := m4 } }
  obtain ⟨m6, h6⟩ := foldl_bumpGen_frame hQp (s.hw.qps.map Prod.fst) { s with hw := { s.hw with gens := m5 } }
  obtain ⟨m7, h7⟩ := foldl_bumpGen_frame hKey (s.hw.keys.map Prod.fst) { s with hw := { s.hw with gens := m6 } }
  obtain ⟨m8, h8⟩ := foldl_bumpGen_frame hProgram (s.hw.progs.map Prod.fst) { s with hw := { s.hw with gens := m7 } }
  obtain ⟨m9, h9⟩ := foldl_bumpGen_frame hWindow (s.hw.wins.map Prod.fst) { s with hw := { s.hw with gens := m8 } }
  exact ⟨m9, by rw [h1, h2, h3, h4, h5, h6, h7, h8, h9]⟩

theorem coldState_acts (s : State) :
    (coldState s).now = s.now ∧ (coldState s).net = [] ∧ (coldState s).hw.parts = [] ∧ (coldState s).hw.fenced = s.hw.fenced ∧
      (coldState s).mod = coldModule s.mod := by
  obtain ⟨m, hm⟩ := bumpAll_frame s
  unfold coldState
  rw [hm]
  exact ⟨rfl, rfl, rfl, rfl, rfl⟩

/-- Every port trains once power is up. -/
theorem foldl_train (s : State) (n : Nat) (p : Nat) (hp : p < n) :
    portState ((List.range n).foldl (fun a p => wCount (wFld a (pReg p 4) 2 0 poTraining) (pReg p 4) 31 16 1) s) p = poTraining := by
  induction n with
  | zero => exact absurd hp (Nat.not_lt_zero _)
  | succ n ih =>
    rw [List.range_succ, List.foldl_append]
    generalize (List.range n).foldl (fun a p => wCount (wFld a (pReg p 4) 2 0 poTraining) (pReg p 4) 31 16 1) s = a at ih
    have hlast : portState ([n].foldl (fun a p => wCount (wFld a (pReg p 4) 2 0 poTraining) (pReg p 4) 31 16 1) a) p =
        portState (wFld a (pReg n 4) 2 0 poTraining) p := fld_wCount_apart _ _ _ _ _ (by decide) _
    rw [hlast]
    by_cases hpn : p = n
    · rw [hpn]
      exact fld_wFld_self a (pReg n 4) 0 poTraining (by decide)
    · refine Eq.trans ?_ (ih (by omega))
      exact congrArg (fld · 2 0) (wReg_wFld_ne _ _ _ _ _ _ (by unfold pReg; omega))

theorem enable_acts (broken mated : Bool) (slot : Fin 4) (s : State) :
    (s.mod.enabled = true → exec (.enable broken mated slot) s = .next s) ∧
    (s.mod.enabled = false → leads (.enable broken mated slot) s fun t => t.mod.enabled = true ∧ t.now = 0 ∧ t.mod.slot = slot.val ∧
      t.mod.mated = mated ∧ t.mod.tamper = (s.mod.tamper || broken) ∧ t.mod.boots = (s.mod.boots + 1) % 2 ^ 32 ∧ t.hw.parts = [] ∧
      t.hw.fenced = s.hw.fenced ∧ ∀ p : Fin 8, portState t p.val = poTraining) := by
  have hdef : exec (.enable broken mated slot) s = execEnable broken mated slot s := rfl
  unfold execEnable at hdef
  refine ⟨fun h => hdef.trans (if_pos h), fun h => ?_⟩
  rw [if_neg (by rw [h]; decide)] at hdef
  obtain ⟨_, _, hparts, hfenced, hmod⟩ := coldState_acts s
  generalize coldState s = c at hdef hparts hfenced hmod
  have hrest : ∀ b : State, ∃ m, (List.range 8).foldl (fun a p => wCount (wFld a (pReg p 4) 2 0 poTraining) (pReg p 4) 31 16 1) b = { b with win := m } :=
    fun b => by
      generalize List.range 8 = l
      induction l generalizing b with
      | nil => exact ⟨b.win, rfl⟩
      | cons p l ih =>
        obtain ⟨m, hm⟩ := ih (wCount (wFld b (pReg p 4) 2 0 poTraining) (pReg p 4) 31 16 1)
        exact ⟨m, hm⟩
  refine leads_of hdef ?_
  have htrain := foldl_train { c with now := 0, mod := { c.mod with
    enabled := true, enAt := 0, boots := (c.mod.boots + 1) % 2 ^ 32, hotJoin := true, mated := mated, slot := slot.val, tamper := c.mod.tamper || broken } } 8
  obtain ⟨m, hm⟩ := hrest { c with now := 0, mod := { c.mod with
    enabled := true, enAt := 0, boots := (c.mod.boots + 1) % 2 ^ 32, hotJoin := true, mated := mated, slot := slot.val, tamper := c.mod.tamper || broken } }
  dsimp only
  rw [hm] at htrain ⊢
  exact ⟨rfl, rfl, rfl, rfl, by rw [hmod]; rfl, by rw [hmod]; rfl, hparts, hfenced, fun p => htrain p.val p.isLt⟩

theorem disable_acts (s : State) :
    (s.mod.enabled = false → exec .disable s = .next s) ∧ (s.mod.enabled = true → leads .disable s fun t => t.mod.enabled = false ∧
      t.now = s.now ∧ t.hw.parts = [] ∧ t.net = [] ∧ t.hw.fenced = s.hw.fenced ∧ t.mod.store = s.mod.store) := by
  have hdef : exec .disable s = .next (if s.mod.enabled then coldState s else s) := rfl
  refine ⟨fun h => ?_, fun h => ?_⟩
  · rw [hdef, if_neg (by rw [h]; decide)]
  · rw [if_pos h] at hdef
    obtain ⟨hnow, hnet, hparts, hfenced, hmod⟩ := coldState_acts s
    exact leads_of hdef ⟨by rw [hmod]; rfl, hnow, hparts, hnet, hfenced, by rw [hmod]; rfl⟩

/-! ### The engine -/

/-- The end of a step is written to the window alone. -/
theorem brgEnd_frame (s : State) (cause : Nat) : ∃ m, brgEnd s cause = { s with win := m } := by
  unfold brgEnd
  extract_lets k ticks s1
  split
  · exact ⟨_, rfl⟩
  · exact ⟨_, rfl⟩

theorem brgEnd_onlyWin (s : State) (cause : Nat) : onlyWin s (brgEnd s cause) := by
  obtain ⟨m, hm⟩ := brgEnd_frame s cause
  rw [hm]
  rfl

theorem brgEnd_hw (s : State) (cause : Nat) : (brgEnd s cause).hw = s.hw := by
  obtain ⟨m, hm⟩ := brgEnd_frame s cause
  rw [hm]

theorem brgEnd_mod (s : State) (cause : Nat) : (brgEnd s cause).mod = s.mod := by
  obtain ⟨m, hm⟩ := brgEnd_frame s cause
  rw [hm]

theorem brgEnd_stks (s : State) (cause : Nat) : (brgEnd s cause).stks = s.stks := by
  obtain ⟨m, hm⟩ := brgEnd_frame s cause
  rw [hm]

theorem brgEnd_core (s : State) (cause c : Nat) : (brgEnd s cause).core c = s.core c := by
  obtain ⟨m, hm⟩ := brgEnd_frame s cause
  rw [hm]
  rfl

theorem brgEnd_nowIs (s : State) (cause : Nat) : (brgEnd s cause).now = s.now := by
  obtain ⟨m, hm⟩ := brgEnd_frame s cause
  rw [hm]

theorem brgEnd_reg (s : State) (cause : Nat) {o : Nat} (h : o ≠ 8) : wReg (brgEnd s cause) o = wReg s o := by
  have h3 : ∀ v w x, wReg (wFld (wFld (wFld s brgStep 6 4 v) brgStep 23 16 w) brgStep 31 24 x) o = wReg s o := fun v w x =>
    (wReg_wFld_ne _ _ _ _ _ _ h).trans ((wReg_wFld_ne _ _ _ _ _ _ h).trans (wReg_wFld_ne _ _ _ _ _ _ h))
  unfold brgEnd
  dsimp only
  split
  · exact (wReg_wFld_ne _ _ _ _ _ _ h).trans (h3 ..)
  · exact h3 ..

/-- A step's outcome and its cause, once it has ended. -/
theorem brgEnd_ends (s : State) {cause : Nat} (h : cause < 256) : stepEnds (brgEnd s cause) cause := by
  have h6 : ∀ a : State, ∀ v w x, fld (wReg (wFld (wFld (wFld a brgStep 6 4 v) brgStep 23 16 w) brgStep 31 24 x) 8) 6 4 = v % 8 := fun a v w x =>
    (fld_wFld_apart _ _ _ _ _ (by decide) _).trans ((fld_wFld_apart _ _ _ _ _ (by decide) _).trans (fld_wFld_self a brgStep 4 v (by decide)))
  have h23 : ∀ a : State, ∀ v w x, fld (wReg (wFld (wFld (wFld a brgStep 6 4 v) brgStep 23 16 w) brgStep 31 24 x) 8) 23 16 = w % 256 := fun a v w x =>
    (fld_wFld_apart _ _ _ _ _ (by decide) _).trans (fld_wFld_self _ brgStep 16 w (by decide))
  have hstate : (if cause = 0 then bsDone else bsFailed) % 8 = if cause = 0 then 2 else 3 := by split <;> rfl
  unfold brgEnd stepEnds
  dsimp only
  split
  · next hc =>
    have hk : 6 < 7 + brgCur s := by omega
    have hk2 : 7 + brgCur s < 16 := by omega
    exact ⟨(fld_wFld_apart _ _ _ _ _ (Or.inl hk) _).trans ((h6 ..).trans hstate),
      (fld_wFld_apart _ _ _ _ _ (Or.inr hk2) _).trans ((h23 ..).trans (Nat.mod_eq_of_lt h))⟩
  · exact ⟨(h6 ..).trans hstate, (h23 ..).trans (Nat.mod_eq_of_lt h)⟩

theorem brgEnd_done (s : State) {k : Nat} (hk : brgCur s = k) (h1 : 1 ≤ k) (h6 : k ≤ 6) :
    stepEnds (brgEnd s 0) 0 ∧ bit (wReg (brgEnd s 0) 8) (7 + k) = true := by
  refine ⟨brgEnd_ends s (by decide), ?_⟩
  unfold brgEnd
  rw [hk]
  dsimp only
  rw [if_pos ⟨rfl, h1, h6⟩]
  exact bit_wFld_self _ 8 1 (by omega)

/-- A step that runs is the current one. -/
theorem brgCur_of_runs {s : State} {k : Nat} (h : stepRuns s k = true) : brgCur s = k := by
  unfold stepRuns at h
  simpa using (Bool.and_eq_true_iff.mp h).2

theorem runStep_goes {s : State} {k : Nat} (h : stepGoes s k) (body : State → State) : runStep s k body = body s := by
  unfold runStep
  rw [h.1, if_neg (by decide), if_neg (Nat.not_lt.mpr h.2)]

theorem runStep_guards {x : Instr} {k : Nat} {body : State → State} (hdef : ∀ s, exec x s = .next (runStep s k body)) : stepGuards x k := by
  intro s
  refine ⟨fun h => ?_, fun h hlate => ?_⟩
  · rw [hdef, runStep, h]
    rfl
  · have e : runStep s k body = brgEnd s 1 := by
      rw [runStep, h, if_neg (by decide), if_pos hlate]
    exact leads_of ((hdef s).trans (congrArg _ e)) ⟨brgEnd_onlyWin .., brgEnd_ends _ (by decide)⟩

/-! ### The steps of stacks, ports and rails -/

theorem powerAll_acts (s : State) (n : Nat) :
    (∀ p, p < n → railOn ((List.range n).foldl railUp s) p = true) ∧
      (∀ o, (∀ p, p < n → o ≠ rg p 4 ∧ o ≠ rg p 0x20) → wReg ((List.range n).foldl railUp s) o = wReg s o) := by
  induction n with
  | zero => exact ⟨fun _ h => absurd h (Nat.not_lt_zero _), fun _ _ => rfl⟩
  | succ n ih =>
    obtain ⟨hrails, hregs⟩ := ih
    rw [List.range_succ, List.foldl_append]
    generalize (List.range n).foldl railUp s = a at hrails hregs
    refine ⟨fun p hp => ?_, fun o ho => ?_⟩
    · by_cases hpn : p = n
      · rw [hpn]
        exact railOn_railUp a n
      · have e : railOf (railUp a n) p = railOf a p :=
          congrArg (fld · 2 1) (railUp_reg a n (rg_apart hpn (by decide) (by decide)) (rg_apart hpn (by decide) (by decide)))
        refine Eq.trans ?_ (hrails p (by omega))
        exact congrArg (· == 2) e
    · exact (railUp_reg a n (ho n (Nat.lt_succ_self n)).1 (ho n (Nat.lt_succ_self n)).2).trans (hregs o fun p hp => ho p (Nat.lt_succ_of_lt hp))

theorem railOn_brgEnd (s : State) (cause p : Nat) : railOn (brgEnd s cause) p = railOn s p := by
  unfold railOn railOf
  rw [brgEnd_reg s cause (by unfold rg; omega)]

theorem brgCur_of_reg {s t : State} (h : wReg t 8 = wReg s 8) : brgCur t = brgCur s := congrArg (fld · 3 0) h

theorem power_acts {s : State} (h : stepGoes s 1) (ok : Bool) :
    (ok = true ∧ coolBad s = false → leads (.power ok) s fun t => (stepEnds t 0 ∧ bit (wReg t 8) (7 + 1) = true) ∧ ∀ p : Fin 48, railOn t p.val = true) ∧
    (ok = false ∨ coolBad s = true → leads (.power ok) s fun t => onlyWin s t ∧ stepEnds t 8) := by
  have hdef : exec (.power ok) s = execPower ok s := rfl
  unfold execPower at hdef
  rw [runStep_goes h] at hdef
  refine ⟨fun ⟨hok, hcool⟩ => ?_, fun hno => ?_⟩
  · rw [if_neg (by simp [hok, hcool])] at hdef
    obtain ⟨hrails, hregs⟩ := powerAll_acts s 48
    have hcur : brgCur (powerAll s) = 1 :=
      (brgCur_of_reg (hregs 8 fun p _ => by unfold rg; omega)).trans (brgCur_of_runs h.1)
    exact leads_of hdef ⟨brgEnd_done _ hcur (by decide) (by decide), fun p => (railOn_brgEnd ..).trans (hrails p.val p.isLt)⟩
  · rw [if_pos (by simpa using hno)] at hdef
    exact leads_of hdef ⟨brgEnd_onlyWin .., brgEnd_ends _ (by decide)⟩

/-- What is done to each of the stacks is done to every one. -/
theorem foldl_stacks (f : Stack → Stack) (s : State) (n : Nat) {st : Nat} (h : st < n) :
    ∃ k, ((List.range n).foldl (fun a i => a.setStack i (f (a.stack i))) s).stack st = f k := by
  induction n with
  | zero => exact absurd h (Nat.not_lt_zero _)
  | succ n ih =>
    rw [List.range_succ, List.foldl_append]
    generalize (List.range n).foldl (fun a i => a.setStack i (f (a.stack i))) s = a at ih
    by_cases hs : st = n
    · rw [hs]
      exact ⟨_, stack_setStack_self a n _⟩
    · obtain ⟨k, hk⟩ := ih (by omega)
      exact ⟨k, (stack_setStack_ne a n st _ hs).trans hk⟩

theorem kReg_kSet_self (k : Stack) (o : Nat) (w : Word) : kReg (kSet k o w) o = w := regRaw_mset_self ..

theorem kOwn_put (w : Word) (k : Stack) : kReg ((List.range 1).foldl (fun x i => kSet x (kOwn (159 + i)) w) k) (kOwn 159) = w := kReg_kSet_self ..

theorem putOwner_win (s : State) (unit0 n part : Nat) (valid : Bool) : (putOwner s unit0 n part valid).win = s.win := by
  unfold putOwner
  exact foldl_win (fun a i => setStack_win a i _) _ _

theorem putOwner_kOwn (s : State) {st : Nat} (hst : st < 56) : kReg ((putOwner s 159 1 0 true).stack st) (kOwn 159) = 0x3000#32 := by
  have hw : BitVec.ofNat 32 (packFields [(12, 0), (1, bnat true), (1, bnat true)]) = 0x3000#32 := by decide
  unfold putOwner
  dsimp only
  rw [hw]
  obtain ⟨k, hk⟩ := foldl_stacks (fun k => (List.range 1).foldl (fun x i => kSet x (kOwn (159 + i)) 0x3000#32) k) s 56 hst
  rw [hk]
  exact kOwn_put ..

theorem trainStacks_goes {s : State} (h : stepGoes s 3) :
    exec (.trainStacks true) s = .next (brgEnd (putOwner s 159 1 0 true) 0) ∧ exec (.trainStacks false) s = .next (brgEnd s 3) := by
  have hdef : ∀ ok, exec (.trainStacks ok) s = execTrainStacks ok s := fun _ => rfl
  unfold execTrainStacks at hdef
  simp only [runStep_goes h] at hdef
  exact ⟨hdef true, hdef false⟩

theorem trainedStacks_end {s b : State} (hb : brgCur b = 3) (hown : ∀ st, st < 56 → kReg (b.stack st) (kOwn 159) = 0x3000#32)
    (hdef : exec (.trainStacks true) s = .next (brgEnd b 0)) :
    leads (.trainStacks true) s fun t => (stepEnds t 0 ∧ bit (wReg t 8) (7 + 3) = true) ∧ ∀ st : Fin 56, kReg (t.stack st.val) (kOwn 159) = 0x3000#32 := by
  refine leads_of hdef ⟨brgEnd_done b hb (by decide) (by decide), fun st => ?_⟩
  have e : (brgEnd b 0).stack st.val = b.stack st.val := by unfold State.stack; rw [brgEnd_stks]
  rw [e]
  exact hown st.val st.isLt

theorem trainStacks_acts {s : State} (h : stepGoes s 3) :
    (leads (.trainStacks true) s fun t => (stepEnds t 0 ∧ bit (wReg t 8) (7 + 3) = true) ∧ ∀ st : Fin 56, kReg (t.stack st.val) (kOwn 159) = 0x3000#32) ∧
      leads (.trainStacks false) s fun t => onlyWin s t ∧ stepEnds t 3 := by
  have hreg : wReg (putOwner s 159 1 0 true) 8 = wReg s 8 := by unfold wReg; rw [putOwner_win]
  have hcur := (brgCur_of_reg hreg).trans (brgCur_of_runs h.1)
  exact ⟨trainedStacks_end hcur (fun st hst => putOwner_kOwn s hst) (trainStacks_goes h).1,
    leads_of (trainStacks_goes h).2 ⟨brgEnd_onlyWin .., brgEnd_ends _ (by decide)⟩⟩

end Sys2Proof.Machine
end

section
/-! PROOFS. The steps that retrain and reset, the bound of a step, and the second boot (R683, R684, R749). -/
namespace Sys2Proof.Machine

/-! ### Ports and stacks -/

theorem portState_apart {p q : Nat} {s t : State} (hq : p ≠ q) (hp8 : p < 8) (h : PortActed q s t) : portState t p = portState s p :=
  congrArg (fld · 2 0) (h.reg (pReg p 4) (by unfold pReg; omega) (by unfold pReg; omega))

theorem portTrain_keepsTraining {p q : Nat} {s : State} (hp : p < 8) (hq : q < 8) (h : portState s p = poTraining) :
    portState (portTrain s q) p = poTraining := by
  by_cases hpq : p = q
  · obtain ⟨hdark, htr, _⟩ := portTrain_dark (Or.inr (hpq ▸ h) : portState s q = poDown ∨ portState s q = poTraining)
    rw [hpq, hdark]
    exact htr
  · exact (portState_apart hpq hp (portTrain_port hq s)).trans h

theorem foldl_portTrain_training {l : List Nat} (hl : ∀ q ∈ l, q < 8) {p : Nat} (hp : p < 8) {s : State} (h : portState s p = poTraining) :
    portState (l.foldl portTrain s) p = poTraining := by
  induction l generalizing s with
  | nil => exact h
  | cons q l ih =>
    exact ih (fun x hx => hl x (List.mem_cons_of_mem _ hx)) (portTrain_keepsTraining hp (hl q List.mem_cons_self) h)

/-- Each of the ports that are told to trains, where it was down. -/
theorem foldl_portTrain_down {l : List Nat} (hl : ∀ q ∈ l, q < 8) {p : Nat} (hp : p ∈ l) {s : State} (h : portState s p = poDown) :
    portState (l.foldl portTrain s) p = poTraining := by
  induction l generalizing s with
  | nil => exact absurd hp List.not_mem_nil
  | cons q l ih =>
    have hp8 := hl p hp
    have htail : ∀ x ∈ l, x < 8 := fun x hx => hl x (List.mem_cons_of_mem _ hx)
    by_cases hpq : p = q
    · obtain ⟨hdark, htr, _⟩ := portTrain_dark (Or.inl (hpq ▸ h) : portState s q = poDown ∨ portState s q = poTraining)
      refine foldl_portTrain_training htail hp8 ?_
      rw [hpq, hdark]
      exact htr
    · have hmem : p ∈ l := (List.mem_cons.mp hp).resolve_left hpq
      exact ih htail hmem ((portState_apart hpq hp8 (portTrain_port (hl q List.mem_cons_self) s)).trans h)

theorem foldl_portTrain_step {l : List Nat} (hl : ∀ q ∈ l, q < 8) (s : State) : wReg (l.foldl portTrain s) 8 = wReg s 8 := by
  induction l generalizing s with
  | nil => rfl
  | cons q l ih =>
    exact (ih (fun x hx => hl x (List.mem_cons_of_mem _ hx)) _).trans
      ((portTrain_port (hl q List.mem_cons_self) s).reg 8 (by have := hl q List.mem_cons_self; omega) (by omega))

theorem portState_brgEnd (s : State) (cause p : Nat) : portState (brgEnd s cause) p = portState s p := by
  unfold portState
  rw [brgEnd_reg s cause (by unfold pReg; omega)]

theorem trainPorts_acts {s : State} (h : stepGoes s 4) (m : BitVec 8) :
    (fld (wReg s 4) 15 8 ≠ m.toNat → exec (.trainPorts m) s = .next s) ∧
      (fld (wReg s 4) 15 8 = m.toNat → leads (.trainPorts m) s fun t => (stepEnds t 0 ∧ bit (wReg t 8) (7 + 4) = true) ∧
        ∀ p : Fin 8, m.getLsbD p.val = true → portState s p.val = poDown → portState t p.val = poTraining) := by
  have hdef : exec (.trainPorts m) s = execTrainPorts m s := rfl
  unfold execTrainPorts at hdef
  rw [runStep_goes h] at hdef
  refine ⟨fun hno => hdef.trans (congrArg _ (if_pos hno)), fun hyes => ?_⟩
  have hl : ∀ q ∈ (List.range 8).filter m.getLsbD, q < 8 := fun q hq => List.mem_range.mp (List.mem_filter.mp hq).1
  have hgo := hdef.trans (congrArg _ (if_neg (not_not_intro hyes)))
  have hcur := (brgCur_of_reg (foldl_portTrain_step hl s)).trans (brgCur_of_runs h.1)
  exact leads_of hgo ⟨brgEnd_done _ hcur (by decide) (by decide), fun p hset hdown =>
    (portState_brgEnd ..).trans (foldl_portTrain_down hl (List.mem_filter.mpr ⟨List.mem_range.mpr p.isLt, hset⟩) hdown)⟩

theorem retrainPort_acts {s : State} (h : stepGoes s 8) (p : PortId) :
    (fld (wReg s 4) 31 8 ≠ p.val → exec (.retrainPort p) s = .next s) ∧
      (fld (wReg s 4) 31 8 = p.val → leads (.retrainPort p) s fun t => stepEnds t 0 ∧ (portState s p.val = poDown → portState t p.val = poTraining)) := by
  have hdef : exec (.retrainPort p) s = execRetrainPort p s := rfl
  unfold execRetrainPort at hdef
  rw [runStep_goes h] at hdef
  refine ⟨fun hno => hdef.trans (congrArg _ (if_pos hno)), fun hyes => ?_⟩
  refine leads_of (hdef.trans (congrArg _ (if_neg (not_not_intro hyes)))) ⟨brgEnd_ends _ (by decide), fun hdown => ?_⟩
  obtain ⟨hdark, htr, _⟩ := portTrain_dark (Or.inl hdown)
  rw [portState_brgEnd, hdark]
  exact htr

theorem retrainAll_acts (s : State) (st : Nat) : (retrainAll s st).now = s.now ∧
    fld (kReg ((retrainAll s st).stack st) kRetrain) 31 16 = (fld (kReg (s.stack st) kRetrain) 31 16 + 16) % 65536 := by
  unfold retrainAll
  extract_lets k k1
  have hnow := foldl_keeps State.now (f := fun (a : State) p => a.record ⟨.retrain, st, [p]⟩) (fun _ _ => rfl) (List.range 16)
    (s.setStack st (kFld k1 kRetrain 3 0 15))
  have hstks := foldl_keeps State.stks (f := fun (a : State) p => a.record ⟨.retrain, st, [p]⟩) (fun _ _ => rfl) (List.range 16)
    (s.setStack st (kFld k1 kRetrain 3 0 15))
  refine ⟨hnow, ?_⟩
  refine (congrArg (fun m => fld (kReg (mgetD m st Stack.reset) kRetrain) 31 16) hstks).trans ?_
  refine (congrArg (fun x => fld (kReg x kRetrain) 31 16) (stack_setStack_self s st (kFld k1 kRetrain 3 0 15))).trans ?_
  rw [kReg_kFld_self, fld_setFld_ne _ _ _ _ _ _ (by decide), kReg_kFld_ne _ _ _ _ _ (by decide), kReg_kFld_self,
    fld_setFld_self _ _ _ _ (by decide)]
  rfl

theorem retrainStack_acts {s : State} (h : stepGoes s 7) (st : StackId) :
    (fld (wReg s 4) 31 8 ≠ st.val → exec (.retrainStack st) s = .next s) ∧
      (fld (wReg s 4) 31 8 = st.val → leads (.retrainStack st) s fun t => stepEnds t 0 ∧ t.now = max s.now (s.mod.stepAt + 65536) ∧
        fld (kReg (t.stack st.val) kRetrain) 31 16 = (fld (kReg (s.stack st.val) kRetrain) 31 16 + 16) % 65536) := by
  have hdef : exec (.retrainStack st) s = execRetrainStack st s := rfl
  unfold execRetrainStack at hdef
  rw [runStep_goes h] at hdef
  refine ⟨fun hno => hdef.trans (congrArg _ (if_pos hno)), fun hyes => ?_⟩
  have hgo := hdef.trans (congrArg _ (if_neg (not_not_intro hyes)))
  obtain ⟨hnow, hcount⟩ := retrainAll_acts (s.reach (s.mod.stepAt + 65536)) st.val
  refine leads_of hgo ⟨brgEnd_ends _ (by decide), (brgEnd_nowIs ..).trans hnow, ?_⟩
  have e : (brgEnd (retrainAll (s.reach (s.mod.stepAt + 65536)) st.val) 0).stack st.val = (retrainAll (s.reach (s.mod.stepAt + 65536)) st.val).stack st.val :=
    congrArg (fun m => mgetD m st.val Stack.reset) (brgEnd_stks ..)
  rw [e]
  exact hcount

/-! ### Regions -/

theorem mget_map_values {α : Type} (g : Nat → α → α) (m : Map α) (k : Nat) : mget? (m.map fun e => (e.1, g e.1 e.2)) k = (mget? m k).map (g k) := by
  induction m with
  | nil => rfl
  | cons e m ih =>
    obtain ⟨j, v⟩ := e
    simp only [List.map_cons, mget?]
    split
    · next hj => rw [hj]; rfl
    · split
      · rfl
      · exact ih

/-- What a region does to its cores it does to each one. -/
theorem mapRegion_core (s : State) (l : Nat) (f : Core → Core) {c : Nat} (h : regionOfCore c = l) : (mapRegion s l f).core c = f (s.core c) := by
  have hmap : (s.cores.map fun e => if regionOfCore e.1 = l then (e.1, f e.2) else e) =
      s.cores.map fun e => (e.1, (fun k v => if regionOfCore k = l then f v else v) e.1 e.2) :=
    List.map_congr_left fun e _ => by dsimp only; split <;> rfl
  have hget : mget? (mapRegion s l f).cores c = (mget? s.cores c).map f := by
    refine (congrArg (mget? · c) hmap).trans ((mget_map_values (fun k v => if regionOfCore k = l then f v else v) s.cores c).trans ?_)
    simp only [h, if_true]
  have hreg : (mapRegion s l f).region l = { s.region l with tmpl := f (s.region l).tmpl } := by
    unfold State.region
    exact mgetD_mset_self ..
  unfold State.core
  rw [hget, h, hreg]
  cases mget? s.cores c <;> rfl

theorem logOf_of_row {s t : State} {p : Nat} (h : wReg t (rowReg (p / 8)) = wReg s (rowReg (p / 8))) : logOf t p = logOf s p := by
  have e : rstkCol t (p / 8) = rstkCol s (p / 8) := congrArg (fld · 2 0) h
  unfold logOf
  rw [e]

theorem core_of_maps {s t : State} (hcores : t.cores = s.cores) (hregions : t.regions = s.regions) (c : Nat) : t.core c = s.core c := by
  unfold State.core State.region
  rw [hcores, hregions]

theorem rowReg_ne_own {p : Nat} (hp : p < 48) (a : Nat) : rowReg (p / 8) ≠ rg p a := (rowReg_ne_rg (by omega)).symm

theorem railDown_core {s : State} {p l c : Nat} (hp : p < 48) (rail : Nat) (hl : logOf s p = some l) (hc : regionOfCore c = l) :
    (railDown s p rail).core c = darkCore (s.core c) := by
  have hne := rowReg_ne_own hp 4
  unfold railDown
  extract_lets s1 h2 m2 s2
  have hrow : wReg s2 (rowReg (p / 8)) = wReg s (rowReg (p / 8)) := (wReg_wFld_ne _ _ _ _ _ _ hne).trans (wReg_wFld_ne _ _ _ _ _ _ hne)
  rw [(logOf_of_row hrow).trans hl]
  exact mapRegion_core s2 l darkCore hc

/-- A core whose region has its power again. -/
def wokenCore (k : Core) : Core := { k with inReset := k.fenced }

theorem railUp_core {s : State} {p l c : Nat} (hp : p < 48) (hl : logOf s p = some l) (hc : regionOfCore c = l) :
    (railUp s p).core c = wokenCore (s.core c) := by
  have hne := rowReg_ne_own hp 4
  have hne2 := rowReg_ne_own hp 0x20
  unfold railUp
  extract_lets s1 s2 h3 s3
  have hrow : wReg s3 (rowReg (p / 8)) = wReg s (rowReg (p / 8)) :=
    (wReg_wFld_ne _ _ _ _ _ _ hne2).trans ((wReg_wFld_ne _ _ _ _ _ _ hne2).trans ((wReg_wFld_ne _ _ _ _ _ _ hne).trans (wReg_wFld_ne _ _ _ _ _ _ hne)))
  rw [(logOf_of_row hrow).trans hl]
  have hcore : s3.core c = s.core c := core_of_maps (by simp only [s3, s2, s1, wFld_cores]) (by simp only [s3, s2, s1, wFld_regions]) c
  clear_value s3
  rw [← hcore]
  exact mapRegion_core s3 l wokenCore hc

theorem railUp_logOf {s : State} {p : Nat} (hp : p < 48) : logOf (railUp s p) p = logOf s p :=
  logOf_of_row (railUp_reg s p (rowReg_ne_own hp 4) (rowReg_ne_own hp 0x20))

theorem railDown_logOf {s : State} {p : Nat} (hp : p < 48) (rail : Nat) : logOf (railDown s p rail) p = logOf s p :=
  logOf_of_row (railDown_reg s p rail (rowReg_ne_own hp 4))

theorem resetRegion_acts {s : State} (h : stepGoes s 9) (p : PhysId) :
    (fld (wReg s 4) 31 8 ≠ p.val → exec (.resetRegion p) s = .next s) ∧
      (fld (wReg s 4) 31 8 = p.val → leads (.resetRegion p) s fun t => stepEnds t 0 ∧ railOn t p.val = true ∧
        ∀ l c, logOf s p.val = some l → regionOfCore c = l → (t.core c).spad = Spad.reset ∧ (t.core c).idle = true ∧ (t.core c).flitQ = []) := by
  have hdef : exec (.resetRegion p) s = execResetRegion p s := rfl
  unfold execResetRegion at hdef
  rw [runStep_goes h] at hdef
  refine ⟨fun hno => hdef.trans (congrArg _ (if_pos hno)), fun hyes => ?_⟩
  have hgo := hdef.trans (congrArg _ (if_neg (not_not_intro hyes)))
  dsimp only at hgo
  have hlog : logOf (railUp (railDown s p.val 0) p.val) p.val = logOf s p.val := (railUp_logOf p.isLt).trans (railDown_logOf p.isLt 0)
  rw [hlog] at hgo
  refine leads_of hgo ⟨brgEnd_ends _ (by decide), (railOn_brgEnd ..).trans ?_, fun l c hl hc => ?_⟩
  · cases logOf s p.val with
    | none => exact railOn_railUp _ _
    | some l => exact railOn_railUp _ _
  · rw [hl, brgEnd_core]
    have hcore : (mapRegion (railUp (railDown s p.val 0) p.val) l zeroSpad).core c =
        zeroSpad (wokenCore (darkCore (s.core c))) := by
      rw [mapRegion_core _ l zeroSpad hc, railUp_core p.isLt ((railDown_logOf p.isLt 0).trans hl) hc, railDown_core p.isLt 0 hl hc]
    exact ⟨congrArg Core.spad hcore, congrArg Core.idle hcore, congrArg Core.flitQ hcore⟩

end Sys2Proof.Machine
end

section
/-! PROOFS. RESET_ALL, the bound of a step, the second boot, and the self-test (R26, R679, R682, R684, R695). -/
namespace Sys2Proof.Machine

/-! ### RESET_ALL and the engine's own ends -/

/-- Keys below the one that is read may go. -/
theorem mget_filter_below {α : Type} (P : Nat × α → Bool) {k : Nat} (m : Map α) (h : ∀ e ∈ m, k ≤ e.1 → P e = true) : mget? (m.filter P) k = mget? m k := by
  induction m with
  | nil => rfl
  | cons e m ih =>
    have hm := ih fun x hx => h x (List.mem_cons_of_mem _ hx)
    obtain ⟨j, v⟩ := e
    by_cases hP : P (j, v) = true
    · rw [List.filter_cons_of_pos hP]
      simp only [mget?, hm]
    · have hj : ¬ k ≤ j := fun hle => hP (h (j, v) List.mem_cons_self hle)
      rw [List.filter_cons_of_neg hP, hm, mget?, if_neg (by omega), if_neg (by omega)]

theorem brgClear_reg (s : State) {o : Nat} (h : 0x94 ≤ o) : wReg (brgClear s) o = wReg s o := by
  unfold brgClear
  dsimp only
  refine (wReg_wFld_ne _ _ _ _ _ _ (by omega)).trans ((wReg_wSet_ne _ _ _ _ (by unfold brgStep; omega)).trans ?_)
  unfold wReg regRaw mgetD
  dsimp only
  rw [mget_filter_below _ s.win fun e _ he => by
    have h1 : (e.1 == 0xC) = false := by simpa using (by omega : e.1 ≠ 0xC)
    have h2 : decide (0x80 ≤ e.1 ∧ e.1 < 0x94) = false := decide_eq_false (by omega)
    rw [h1, h2]
    rfl]

theorem fld_stepWord {k st : Nat} (hk : k < 16) (hst : st < 8) :
    fld (BitVec.ofNat 32 (packFields [(4, k), (3, st)])) 3 0 = k ∧ fld (BitVec.ofNat 32 (packFields [(4, k), (3, st)])) 13 8 = 0 := by
  have hw : packFields [(4, k), (3, st)] = k + 16 * st := by
    simp only [packFields]
    omega
  rw [hw]
  have hn : (BitVec.ofNat 32 (k + 16 * st)).toNat = k + 16 * st := by
    rw [BitVec.toNat_ofNat]
    omega
  unfold fld
  rw [hn]
  omega

theorem brgClear_step {s : State} (h : stepRuns s 10 = true) : brgCur (brgClear s) = 10 ∧ fld (wReg (brgClear s) 8) 13 8 = 0 := by
  have hcur : fld (wReg s brgStep) 3 0 = 10 := brgCur_of_runs h
  have hst : fld (wReg s brgStep) 6 4 < 8 := fld_lt _ 6 4
  obtain ⟨h1, h2⟩ := fld_stepWord (k := 10) (by decide) hst
  have hw : wReg (brgClear s) 8 = BitVec.ofNat 32 (packFields [(4, fld (wReg s brgStep) 3 0), (3, fld (wReg s brgStep) 6 4)]) := by
    unfold brgClear
    dsimp only
    exact (wReg_wFld_ne _ _ _ _ _ _ (by decide)).trans (wReg_wSet_self _ _ _)
  rw [hcur] at hw
  refine ⟨(congrArg (fld · 3 0) hw).trans h1, (congrArg (fld · 13 8) hw).trans h2⟩

theorem brgEnd_keeps_done (s : State) {cause : Nat} (h : 6 < brgCur s) : fld (wReg (brgEnd s cause) 8) 13 8 = fld (wReg s 8) 13 8 := by
  unfold brgEnd
  dsimp only
  rw [if_neg (by omega)]
  exact (fld_wFld_apart _ _ _ _ _ (by decide) _).trans ((fld_wFld_apart _ _ _ _ _ (by decide) _).trans (fld_wFld_apart _ _ _ _ _ (by decide) _))

theorem resetAll_acts {s : State} (h : stepGoes s 10) : leads .resetAll s fun t => stepEnds t 0 ∧ fld (wReg t 8) 13 8 = 0 ∧ t.mod.loaded = [] ∧
    t.hw.ready = false ∧ ∀ p : Fin 48, railOn t p.val = false := by
  have hdef : exec .resetAll s = execResetAll s := rfl
  unfold execResetAll at hdef
  rw [runStep_goes h] at hdef
  dsimp only at hdef
  obtain ⟨hrails, hregs, _⟩ := railsDown_acts s 48
  generalize (List.range 48).foldl (fun x p => railDown x p 0) s = a at hdef hrails hregs
  have hrun : stepRuns a 10 = true := by
    have e : stepRuns a 10 = stepRuns s 10 := congrArg (fun w => fld w 6 4 == bsRunning && fld w 3 0 == 10) (hregs brgStep fun p _ => by unfold rg brgStep; omega)
    exact e.trans h.1
  obtain ⟨hcur, hdone⟩ := brgClear_step hrun
  have hreg : ∀ o, 0x94 ≤ o → wReg (brgClear a) o = wReg a o := fun o ho => brgClear_reg a ho
  generalize brgClear a = b at hdef hcur hdone hreg
  have hcur2 : brgCur { b with hw := { b.hw with ready := false }, mod := { b.mod with loaded := [], auto := false } } = 10 := hcur
  refine leads_of hdef ⟨brgEnd_ends _ (by decide), (brgEnd_keeps_done _ (by rw [hcur2]; decide)).trans hdone, ?_, ?_, fun p => ?_⟩
  · rw [brgEnd_mod]
  · rw [brgEnd_hw]
  · rw [railOn_brgEnd]
    have e : railOf b p.val = 0 := (congrArg (fld · 2 1) (hreg (rg p.val 4) (by unfold rg; omega))).trans (hrails p.val p.isLt)
    exact congrArg (· == 2) e

theorem stepTimeout_acts (s : State) : (brgState s ≠ 1 → exec .stepTimeout s = .next s) ∧
    (brgState s = 1 → leads .stepTimeout s fun t => t.now = max s.now (stepDue s) ∧ stepEnds t 1 ∧ t.mod.auto = false) := by
  have hdef : exec .stepTimeout s = execStepTimeout s := rfl
  unfold execStepTimeout at hdef
  refine ⟨fun h => hdef.trans (if_pos h), fun h => ?_⟩
  rw [if_neg (not_not_intro h : ¬ brgState s ≠ bsRunning)] at hdef
  exact leads_of hdef ⟨brgEnd_nowIs .., brgEnd_ends (s.reach (stepDue s)) (by decide), rfl⟩

theorem fld_full_of_bits {w : Word} (h : ∀ i, 8 ≤ i → i ≤ 11 → bit w i = true) : fld w 11 8 = 15 := by
  refine Nat.eq_of_testBit_eq fun i => ?_
  rw [testBit_fld]
  by_cases hi : i < 4
  · have h15 : (15 : Nat).testBit i = true := by
      interval_cases i <;> rfl
    have hb : w.getLsbD (8 + i) = true := h (8 + i) (by omega) (by omega)
    rw [h15, hb]
    simpa using hi
  · have h15 : (15 : Nat).testBit i = false := Nat.testBit_lt_two_pow (Nat.lt_of_lt_of_le (by decide : 15 < 2 ^ 4) (Nat.pow_le_pow_right (by decide) (by omega)))
    rw [h15]
    simpa using fun h4 : i < 4 => absurd h4 hi

theorem autoRestart_acts (s : State) :
    (s.mod.auto = false ∨ rstHeld s = true ∨ brgState s = 1 ∨ fld (wReg s 8) 11 8 ≠ 15 → exec .autoRestart s = .next s) ∧
    (s.mod.auto = true → rstHeld s = false → brgState s ≠ 1 → fld (wReg s 8) 11 8 = 15 → leads .autoRestart s fun t =>
      stepRuns t 5 = true ∧ t.mod.stepAt = s.now) := by
  have hdef : exec .autoRestart s = .next (autoStart s) := rfl
  refine ⟨fun h => hdef.trans (congrArg _ (if_pos ?_)), fun hauto hheld hrun hdone => ?_⟩
  · rcases h with h | h | h | h
    · exact Or.inl (by rw [h]; rfl)
    · exact Or.inr (Or.inl h)
    · exact Or.inr (Or.inr (Or.inl h))
    · refine Or.inr (Or.inr (Or.inr fun hall => h (fld_full_of_bits fun i h8 h11 => ?_)))
      rw [List.all_eq_true] at hall
      have hi := hall (i - 7) (by simp only [List.mem_cons, List.not_mem_nil, or_false]; omega)
      unfold brgDone at hi
      rwa [show 7 + (i - 7) = i by omega] at hi
  · have hbit (k : Nat) (h1 : 1 ≤ k) (h4 : k ≤ 4) : brgDone s k = true := bit_of_fld_full hdone (by omega) (by omega)
    have hgo : autoStart s = startStep s 5#32 true := by
      refine if_neg ?_
      have hidle : ¬ brgState s = bsRunning := hrun
      simp [hauto, hheld, hidle, hbit]
    exact leads_of (hdef.trans (congrArg _ hgo)) (startStep_runs s 5#32 true)

end Sys2Proof.Machine
end

section
/-! PROOFS. The self-test and LOAD_FW: recorded defects, lost rows, packages (R26, R682, R694, R708, R709). -/
namespace Sys2Proof.Machine

/-! ### Recorded defects -/

theorem mem_keyAdd_iff (l : List Nat) (k x : Nat) : x ∈ keyAdd l k ↔ x = k ∨ x ∈ l := by
  induction l with
  | nil => simp [keyAdd]
  | cons j l ih =>
    unfold keyAdd
    split
    · next h =>
      subst h
      simp
    · split
      · simp
      · rw [List.mem_cons, ih, List.mem_cons]
        exact or_left_comm

theorem mem_foldl_keyAdd (l m : List Nat) (x : Nat) : x ∈ l.foldl keyAdd m ↔ x ∈ l ∨ x ∈ m := by
  induction l generalizing m with
  | nil => simp
  | cons k l ih =>
    rw [List.foldl_cons, ih, mem_keyAdd_iff, List.mem_cons]
    exact or_left_comm.trans or_assoc.symm

theorem physFenced_of_row {s t : State} {p : Nat} (h : rowWord t (p / 8) = rowWord s (p / 8)) : physFenced t p = physFenced s p :=
  congrArg (bit · (8 + p % 8)) h

theorem rowReg_apart {q r : Nat} (h : q ≠ r) : rowReg q ≠ rowReg r := by
  unfold rowReg
  omega

/-- The judgement of a row changes its two fields alone. -/
theorem judgeRow_acts (s : State) (q : Nat) : (judgeRow s q).mod = s.mod ∧ (∀ o, o ≠ rowReg q → wReg (judgeRow s q) o = wReg s o) ∧
    ∀ i, 8 ≤ i → bit (rowWord (judgeRow s q) q) i = bit (rowWord s q) i := by
  have hput : ∀ col st, (wSet s (rowReg q) (setFld (setFld (rowWord s q) 2 0 col) 4 3 st)).mod = s.mod ∧
      (∀ o, o ≠ rowReg q → wReg (wSet s (rowReg q) (setFld (setFld (rowWord s q) 2 0 col) 4 3 st)) o = wReg s o) ∧
      ∀ i, 8 ≤ i → bit (rowWord (wSet s (rowReg q) (setFld (setFld (rowWord s q) 2 0 col) 4 3 st)) q) i = bit (rowWord s q) i := fun col st => by
    refine ⟨rfl, fun o ho => wReg_wSet_ne _ _ _ _ ho, fun i hi => ?_⟩
    refine (congrArg (bit · i) (wReg_wSet_self _ _ _)).trans ?_
    rw [bit_setFld _ _ _ _ _ (Or.inr (by omega)), bit_setFld _ _ _ _ _ (Or.inr (by omega))]
  unfold judgeRow
  dsimp only
  split
  · exact hput _ _
  · exact hput _ _
  · exact hput _ _

theorem judgeRow_physFenced (s : State) (q p : Nat) : physFenced (judgeRow s q) p = physFenced s p := by
  obtain ⟨_, hreg, hbit⟩ := judgeRow_acts s q
  by_cases hq : p / 8 = q
  · have h := hbit (8 + p % 8) (Nat.le_add_right 8 _)
    rw [← hq] at h ⊢
    exact h
  · exact physFenced_of_row (hreg _ (rowReg_apart hq))

theorem foldl_judgeRow_acts (s : State) (n : Nat) : ((List.range n).foldl judgeRow s).mod = s.mod ∧
    (∀ o, (∀ q, q < n → o ≠ rowReg q) → wReg ((List.range n).foldl judgeRow s) o = wReg s o) ∧
    ∀ p, physFenced ((List.range n).foldl judgeRow s) p = physFenced s p := by
  induction n with
  | zero => exact ⟨rfl, fun _ _ => rfl, fun _ => rfl⟩
  | succ n ih =>
    obtain ⟨hmod, hregs, hfenced⟩ := ih
    rw [List.range_succ, List.foldl_append]
    generalize (List.range n).foldl judgeRow s = a at hmod hregs hfenced
    obtain ⟨hm, hr, _⟩ := judgeRow_acts a n
    exact ⟨hm.trans hmod, fun o ho => (hr o (ho n (Nat.lt_succ_self n))).trans (hregs o fun q hq => ho q (Nat.lt_succ_of_lt hq)),
      fun p => (judgeRow_physFenced a n p).trans (hfenced p)⟩

theorem fenceRegion_mod (s : State) (p : Nat) : (fenceRegion s p).mod = s.mod := by
  unfold fenceRegion
  extract_lets u s1
  split <;> rfl

theorem fenceRegion_win (s : State) (p : Nat) : (fenceRegion s p).win = (wFld (setPhysFenced s p true) (0x200100 + 4 * p) 18 18 1).win := by
  unfold fenceRegion
  dsimp only
  split <;> rfl

theorem fenceRegion_row {s : State} {p q : Nat} (hq : q < 6) : rowWord (fenceRegion s p) q = rowWord (setPhysFenced s p true) q := by
  have hne : rowReg q ≠ 0x200100 + 4 * p := by
    unfold rowReg
    omega
  have e : rowWord (fenceRegion s p) q = rowWord (wFld (setPhysFenced s p true) (0x200100 + 4 * p) 18 18 1) q :=
    congrArg (fun m => regRaw windowRegs m (rowReg q)) (fenceRegion_win s p)
  exact e.trans (wReg_wFld_ne _ _ _ _ _ _ hne)

theorem fenceRegion_physFenced (s : State) {p x : Nat} (hx : x < 48) (h : x = p ∨ physFenced s x = true) : physFenced (fenceRegion s p) x = true := by
  have e : physFenced (fenceRegion s p) x = physFenced (setPhysFenced s p true) x := physFenced_of_row (fenceRegion_row (by omega))
  rw [e]
  by_cases hxp : x = p
  · rw [hxp]
    exact bit_wFld_self s (rowReg (p / 8)) 1 (by omega)
  · refine Eq.trans ?_ (h.resolve_left hxp)
    by_cases hrow : x / 8 = p / 8
    · exact bit_wFld_apart _ _ _ _ _ (by omega) _
    · exact physFenced_of_row (wReg_wFld_ne _ _ _ _ _ _ (rowReg_apart hrow))

theorem foldl_fenceRegion_acts (l : List Nat) (s : State) : (l.foldl fenceRegion s).mod = s.mod ∧
    (∀ o, (∀ p ∈ l, o ≠ rowReg (p / 8) ∧ o ≠ 0x200100 + 4 * p) → wReg (l.foldl fenceRegion s) o = wReg s o) ∧
    ∀ x, x < 48 → (x ∈ l ∨ physFenced s x = true) → physFenced (l.foldl fenceRegion s) x = true := by
  induction l generalizing s with
  | nil => exact ⟨rfl, fun _ _ => rfl, fun x _ h => h.resolve_left List.not_mem_nil⟩
  | cons p l ih =>
    obtain ⟨hmod, hregs, hfenced⟩ := ih (fenceRegion s p)
    refine ⟨hmod.trans (fenceRegion_mod s p), fun o ho => ?_, fun x hx h => hfenced x hx ?_⟩
    · obtain ⟨h1, h2⟩ := ho p List.mem_cons_self
      exact (hregs o fun y hy => ho y (List.mem_cons_of_mem _ hy)).trans (fenceRegion_reg s p h1 h2)
    · rw [List.mem_cons] at h
      rcases h with (h | h) | h
      · exact Or.inr (fenceRegion_physFenced s hx (Or.inl h))
      · exact Or.inl h
      · exact Or.inr (fenceRegion_physFenced s hx (Or.inr h))

theorem recordDefects_acts (s : State) (cores regions : List Nat) : (recordDefects s cores regions).mod = { s.mod with bad := cores.foldl keyAdd s.mod.bad } ∧
    (∀ o, o < 0x100 → wReg (recordDefects s cores regions) o = wReg s o) ∧
    ∀ p ∈ regions, p < 48 → physFenced (recordDefects s cores regions) p = true := by
  unfold recordDefects
  extract_lets bad s1 lost
  obtain ⟨hmod1, hregs1, hfenced1⟩ := foldl_fenceRegion_acts lost s1
  obtain ⟨hmod2, hregs2, hfenced2⟩ := foldl_judgeRow_acts (lost.foldl fenceRegion s1) 6
  refine ⟨hmod2.trans hmod1, fun o ho => ?_, fun p hp h48 => ?_⟩
  · have h1 : ∀ q, o ≠ rowReg q := fun q => by
      unfold rowReg
      omega
    exact (hregs2 o fun q _ => h1 q).trans (hregs1 o fun p _ => ⟨h1 _, by omega⟩)
  · have hlost : p ∈ lost := List.mem_filter.mpr ⟨List.mem_range.mpr h48, by rw [List.contains_iff_mem.mpr hp]; rfl⟩
    exact (hfenced2 p).trans (hfenced1 p h48 (Or.inl hlost))

theorem rowLost_of_rows {s t : State} (h : ∀ q, q < 6 → rowWord t q = rowWord s q) {q : Nat} (hq : q < 6) : rowLost t q = rowLost s q := by
  have e : (List.range 8).filter (fun c => physFenced t (8 * q + c)) = (List.range 8).filter fun c => physFenced s (8 * q + c) :=
    List.filter_congr fun c hc => by
      have := List.mem_range.mp hc
      exact physFenced_of_row (h _ (by omega))
  unfold rowLost
  rw [e]

/-- Some row is lost. -/
theorem any_rowLost_iff {s t : State} (h : ∀ q, q < 6 → rowWord t q = rowWord s q) :
    (∃ q < 6, rowLost t q = true) ↔ (List.range 6).any (rowLost s) = true := by
  rw [List.any_eq_true]
  exact ⟨fun ⟨q, hq, hl⟩ => ⟨q, List.mem_range.mpr hq, (rowLost_of_rows h hq) ▸ hl⟩,
    fun ⟨q, hq, hl⟩ => ⟨q, List.mem_range.mp hq, (rowLost_of_rows h (List.mem_range.mp hq)).trans hl⟩⟩

theorem rowWord_brgEnd (s : State) (cause q : Nat) : rowWord (brgEnd s cause) q = rowWord s q := brgEnd_reg s cause (by unfold rowReg; omega)

/-! ### BIST -/

theorem zeroSpads_win (s : State) : (zeroSpads s).win = s.win := foldl_keeps State.win (fun _ _ => mapRegion_win ..) _ _
theorem zeroSpads_mod (s : State) : (zeroSpads s).mod = s.mod := foldl_keeps State.mod (fun _ _ => mapRegion_mod ..) _ _
theorem zeroStacks_win (s : State) (lo hi : Nat) : (zeroStacks s lo hi).win = s.win := rfl
theorem zeroStacks_mod (s : State) (lo hi : Nat) : (zeroStacks s lo hi).mod = s.mod := rfl

/-- What the self-test leaves but for its result word. -/
def bistLeft (s : State) (f : BistFindings) : State :=
  zeroStacks (zeroSpads (recordDefects s (f.cores.map fun e => 272 * e.1 + 17 * e.2.1 + e.2.2) f.regions)) 0 171798691840

theorem bistResult_eq (s : State) (f : BistFindings) : ∃ w, bistResult s f = (wSet (bistLeft s f) 0xC w,
    if (List.range 6).any (rowLost (bistLeft s f)) then 2 else if f.stks.isEmpty then 0 else 3) := by
  unfold bistResult bistLeft
  exact ⟨_, rfl⟩

theorem bistLeft_acts (s : State) (f : BistFindings) : (bistLeft s f).mod.stage = s.mod.stage ∧
    (∀ e ∈ f.cores, 272 * e.1 + 17 * e.2.1 + e.2.2 ∈ (bistLeft s f).mod.bad) ∧
    (∀ p ∈ f.regions, p < 48 → physFenced (bistLeft s f) p = true) ∧ wReg (bistLeft s f) 8 = wReg s 8 := by
  have hwin : (bistLeft s f).win = (recordDefects s (f.cores.map fun e => 272 * e.1 + 17 * e.2.1 + e.2.2) f.regions).win :=
    (zeroStacks_win _ _ _).trans (zeroSpads_win _)
  have hmod1 : (bistLeft s f).mod = (recordDefects s (f.cores.map fun e => 272 * e.1 + 17 * e.2.1 + e.2.2) f.regions).mod :=
    (zeroStacks_mod _ _ _).trans (zeroSpads_mod _)
  obtain ⟨hmod, hregs, hfenced⟩ := recordDefects_acts s (f.cores.map fun e => 272 * e.1 + 17 * e.2.1 + e.2.2) f.regions
  generalize recordDefects s (f.cores.map fun e => 272 * e.1 + 17 * e.2.1 + e.2.2) f.regions = r at hwin hmod1 hmod hregs hfenced
  generalize bistLeft s f = t at hwin hmod1
  have hreg : ∀ o, wReg t o = wReg r o := fun o => congrArg (fun m => regRaw windowRegs m o) hwin
  rw [hmod1, hmod]
  exact ⟨rfl, fun e he => (mem_foldl_keyAdd _ _ _).mpr (Or.inl (List.mem_map.mpr ⟨e, he, rfl⟩)),
    fun p hp h48 => (physFenced_of_row (hreg _)).trans (hfenced p hp h48), (hreg 8).trans (hregs 8 (by decide))⟩

theorem bist_acts {s : State} (h : stepGoes s 2) (l : Fin 4) (f : BistFindings) : (fld (wReg s 4) 5 4 ≠ l.val → exec (.bist l f) s = .next s) ∧
    (fld (wReg s 4) 5 4 = l.val → leads (.bist l f) s fun t =>
      let lost := ∃ q < 6, rowLost t q = true
      t.mod.stage = [] ∧ (∀ e ∈ f.cores, 272 * e.1 + 17 * e.2.1 + e.2.2 ∈ t.mod.bad) ∧ (∀ p ∈ f.regions, p < 48 → physFenced t p = true) ∧
      (lost → stepEnds t 2) ∧ (¬ lost → f.stks ≠ [] → stepEnds t 3) ∧
      (¬ lost → f.stks = [] → stepEnds t 0 ∧ bit (wReg t 8) (7 + 2) = true)) := by
  have hdef : exec (.bist l f) s = execBist l f s := rfl
  unfold execBist at hdef
  rw [runStep_goes h] at hdef
  refine ⟨fun hno => hdef.trans (congrArg _ (if_pos hno)), fun hyes => ?_⟩
  have hgo := hdef.trans (congrArg _ (if_neg (not_not_intro hyes)))
  dsimp only at hgo
  obtain ⟨w, hw⟩ := bistResult_eq { s with mod := { s.mod with stage := [] } } f
  obtain ⟨hstage, hbad, hfenced, hstep⟩ := bistLeft_acts { s with mod := { s.mod with stage := [] } } f
  have hcur0 : brgCur { s with mod := { s.mod with stage := [] } } = 2 := brgCur_of_runs h.1
  rw [hw] at hgo
  generalize bistLeft { s with mod := { s.mod with stage := [] } } f = r at hgo hstage hbad hfenced hstep
  clear hw
  dsimp only at hgo hstage
  have hcur : brgCur (wSet r 0xC w) = 2 := (brgCur_of_reg (wReg_wSet_ne _ _ _ _ (by decide))).trans ((brgCur_of_reg hstep).trans hcur0)
  have hcause : ∃ c, c = if (List.range 6).any (rowLost r) then 2 else if f.stks.isEmpty then 0 else 3 := ⟨_, rfl⟩
  obtain ⟨c, hcause⟩ := hcause
  rw [← hcause] at hgo
  have hmod : (brgEnd (wSet r 0xC w) c).mod = r.mod := brgEnd_mod ..
  have hrow : ∀ q, rowWord (brgEnd (wSet r 0xC w) c) q = rowWord r q := fun q =>
    (rowWord_brgEnd ..).trans (wReg_wSet_ne _ _ _ _ (by unfold rowReg; omega))
  have hlost := any_rowLost_iff (s := r) (t := brgEnd (wSet r 0xC w) c) fun q _ => hrow q
  refine leads_of hgo ?_
  intro lost
  refine ⟨(congrArg Module.stage hmod).trans hstage, fun e he => ?_, fun p hp h48 => (physFenced_of_row (hrow _)).trans (hfenced p hp h48), ?_, ?_, ?_⟩
  · rw [hmod]
    exact hbad e he
  · intro hl
    rw [hcause, if_pos (hlost.mp hl)]
    exact brgEnd_ends _ (by decide)
  · intro hl hstk
    rw [hcause, if_neg (fun hany => hl (hlost.mpr hany)), if_neg (by simpa using hstk)]
    exact brgEnd_ends _ (by decide)
  · intro hl hstk
    rw [hcause, if_neg (fun hany => hl (hlost.mpr hany)), if_pos (by rw [hstk]; rfl)]
    exact brgEnd_done _ hcur (by decide) (by decide)

/-! ### LOAD_FW -/

theorem stepFails_mod (s : State) (cause : Nat) : (stepFails s cause).mod = { s.mod with auto := false } := by
  unfold stepFails
  dsimp only
  rw [brgEnd_mod]

theorem stepFails_hw (s : State) (cause : Nat) : (stepFails s cause).hw = s.hw := brgEnd_hw s cause

theorem stepFails_ends (s : State) {cause : Nat} (h : cause < 256) : stepEnds (stepFails s cause) cause := brgEnd_ends s h

theorem loadFw_refused {s : State} (h : ∀ b, pkgSource s = some b → pkgForm b.1 = false ∨ pkgGenuine s.mod b.1 = false) (bad : List (Nat × Nat × Nat)) :
    loadFw s bad = stepFails { s with mod := { s.mod with loaded := [] } } 4 := by
  unfold loadFw
  split
  · rfl
  · next b staged hsrc =>
    rw [if_pos (by rcases h _ hsrc with hb | hb <;> simp [hb])]

/-- What a LOAD_FW that goes on leaves. -/
def fwLoaded (s t : State) (b : List Byte) : Prop :=
  let lost := ∃ q < 6, rowLost t q = true
  t.mod.package = b ∧ t.mod.loaded = [0, 1] ∧ (lost → stepEnds t 5) ∧
    (¬ lost → s.mod.auto = false → stepEnds t 0 ∧ bit (wReg t 8) (7 + 5) = true) ∧ (¬ lost → s.mod.auto = true → stepRuns t 6 = true)

theorem startStep_acts (s : State) {w : Word} {auto : Bool} (h : brgState s ≠ bsRunning) :
    (startStep s w auto).mod = { s.mod with stepAt := s.now, auto := auto } ∧ ∀ q, rowWord (startStep s w auto) q = rowWord s q := by
  unfold startStep
  rw [if_neg h]
  exact ⟨rfl, fun q => (wReg_wSet_ne _ _ _ _ (by unfold rowReg brgGo; omega)).trans (wReg_wSet_ne _ _ _ _ (by unfold rowReg brgStep; omega))⟩

theorem loadFw_acts {s : State} (hcur : brgCur s = 5) {b : List Byte × Bool} (hsrc : pkgSource s = some b) (hform : pkgForm b.1 = true)
    (hgen : pkgGenuine s.mod b.1 = true) (bad : List (Nat × Nat × Nat)) : fwLoaded s (loadFw s bad) b.1 := by
  obtain ⟨b, staged⟩ := b
  unfold loadFw
  rw [hsrc]
  dsimp only
  rw [if_neg (by simp [hform, hgen])]
  obtain ⟨hmod, hregs, _⟩ := recordDefects_acts { s with mod := { s.mod with package := b, staged := staged, loaded := [0, 1] } }
    (bad.map fun e => 272 * e.1 + 17 * e.2.1 + e.2.2) []
  generalize recordDefects { s with mod := { s.mod with package := b, staged := staged, loaded := [0, 1] } }
    (bad.map fun e => 272 * e.1 + 17 * e.2.1 + e.2.2) [] = s2 at hmod hregs
  have hcur2 : brgCur s2 = 5 := (brgCur_of_reg (hregs 8 (by decide))).trans hcur
  have hpkg : s2.mod.package = b := by rw [hmod]
  have hloaded : s2.mod.loaded = [0, 1] := by rw [hmod]
  have hauto : s2.mod.auto = s.mod.auto := by rw [hmod]
  clear hmod
  split
  · next hl =>
    have hlost := any_rowLost_iff (s := s2) (t := stepFails s2 5) fun q _ => rowWord_brgEnd ..
    have hm := stepFails_mod s2 5
    refine ⟨(congrArg Module.package hm).trans hpkg, (congrArg Module.loaded hm).trans hloaded, fun _ => stepFails_ends _ (by decide), fun hno => ?_, fun hno => ?_⟩
    · exact absurd (hlost.mpr hl) hno
    · exact absurd (hlost.mpr hl) hno
  · next hl =>
    have hm := brgEnd_mod s2 0
    have hauto3 : (brgEnd s2 0).mod.auto = s.mod.auto := (congrArg Module.auto hm).trans hauto
    have hend := brgEnd_done s2 hcur2 (by decide) (by decide)
    have hrow := fun q => rowWord_brgEnd s2 0 q
    have hpkg3 : (brgEnd s2 0).mod.package = b := (congrArg Module.package hm).trans hpkg
    have hloaded3 : (brgEnd s2 0).mod.loaded = [0, 1] := (congrArg Module.loaded hm).trans hloaded
    generalize brgEnd s2 0 = s3 at hm hauto3 hend hrow hpkg3 hloaded3
    split
    · next ha =>
      have hidle : brgState s3 ≠ bsRunning := fun hrun => by
        have h2 : brgState s3 = 2 := hend.1.1
        rw [h2] at hrun
        exact absurd hrun (by decide)
      obtain ⟨hm4, hrow4⟩ := startStep_acts s3 (w := 6#32) (auto := true) hidle
      have hlost := any_rowLost_iff (s := s2) (t := startStep s3 6#32 true) fun q _ => (hrow4 q).trans (hrow q)
      refine ⟨(congrArg Module.package hm4).trans hpkg3, (congrArg Module.loaded hm4).trans hloaded3, fun hyes => absurd (hlost.mp hyes) hl, fun _ hno => ?_,
        fun _ _ => (startStep_runs s3 6#32 true).1⟩
      rw [hauto3] at ha
      exact absurd (ha.symm.trans hno) (by decide)
    · next ha =>
      have hlost := any_rowLost_iff (s := s2) (t := s3) fun q _ => hrow q
      refine ⟨hpkg3, hloaded3, fun hyes => absurd (hlost.mp hyes) hl, fun _ _ => hend, fun _ hyes => ?_⟩
      rw [hauto3] at ha
      exact absurd hyes ha

theorem loadFwStep_acts {s : State} (h : stepGoes s 5) (bad : List (Nat × Nat × Nat)) :
    ((∀ b, pkgSource s = some b → pkgForm b.1 = false ∨ pkgGenuine s.mod b.1 = false) → leads (.loadFw bad) s fun t =>
      stepEnds t 4 ∧ t.mod.loaded = [] ∧ t.mod.auto = false) ∧
    ∀ b, pkgSource s = some b → pkgForm b.1 = true → pkgGenuine s.mod b.1 = true → leads (.loadFw bad) s fun t => fwLoaded s t b.1 := by
  have hdef : exec (.loadFw bad) s = execLoadFw bad s := rfl
  unfold execLoadFw at hdef
  rw [runStep_goes h] at hdef
  refine ⟨fun hno => ?_, fun b hsrc hform hgen => leads_of hdef (loadFw_acts (brgCur_of_runs h.1) hsrc hform hgen bad)⟩
  rw [loadFw_refused hno] at hdef
  have hm := stepFails_mod { s with mod := { s.mod with loaded := [] } } 4
  exact leads_of hdef ⟨stepFails_ends _ (by decide), congrArg Module.loaded hm, congrArg Module.auto hm⟩

end Sys2Proof.Machine
end

section
/-! PROOFS. START: checks, ring 0, normal service (R534, R683, R710 to R713), and the bring-up steps together. -/
namespace Sys2Proof.Machine

/-! ### Laying out normal service -/

/-- The outs of ring 0 and the distance table's place, in the window. -/
def startReg (o : Nat) : Prop := o = 0x80 ∨ o = 0x84 ∨ o = 0x88 ∨ o = 0x8C ∨ o = 0x90 ∨ o = 0x1120 ∨ o = 0x1124

/-- What laying out ring 0 and the distance table keeps. -/
structure LaidOut (s t : State) : Prop where
  mod : t.mod = s.mod
  logN : t.hw.logN = s.hw.logN
  reg : ∀ o, ¬ startReg o → wReg t o = wReg s o

theorem LaidOut.trans {s t u : State} (h : LaidOut s t) (h2 : LaidOut t u) : LaidOut s u :=
  ⟨h2.mod.trans h.mod, h2.logN.trans h.logN, fun o ho => (h2.reg o ho).trans (h.reg o ho)⟩

theorem openRing0_laid (s : State) : LaidOut s (openRing0 s) := by
  unfold openRing0
  split
  · exact ⟨rfl, rfl, fun _ _ => rfl⟩
  · extract_lets w cmd
    split
    · extract_lets m keys
      split
      · exact ⟨rfl, rfl, fun _ _ => rfl⟩
      · exact ⟨rfl, rfl, fun _ _ => rfl⟩
    · exact ⟨rfl, rfl, fun _ _ => rfl⟩

theorem wSet_laid (s : State) {o : Nat} (w : Word) (h : startReg o) : LaidOut s (wSet s o w) :=
  ⟨rfl, rfl, fun _ hp => wReg_wSet_ne _ _ _ _ fun hpo => hp (hpo ▸ h)⟩

theorem putOuts_laid (s : State) : LaidOut s (putOuts s) := by
  unfold putOuts
  split
  · exact ⟨rfl, rfl, fun _ _ => rfl⟩
  · next r _ =>
    dsimp only
    exact ((((wSet_laid s _ (by simp [startReg])).trans (wSet_laid _ _ (by simp [startReg]))).trans (wSet_laid _ _ (by simp [startReg]))).trans
      (wSet_laid _ _ (by simp [startReg]))).trans (wSet_laid _ _ (by simp [startReg]))

theorem memWritten_mod {s t : State} (h : memWritten s t) : t.mod = s.mod := by simpa using congrArg State.mod h

theorem writeDist_laid (s : State) : LaidOut s (writeDist s) := by
  unfold writeDist
  extract_lets a s1
  have h1 : memWritten s s1 := devWrite_written ..
  clear_value s1
  have h2 : LaidOut s s1 := ⟨memWritten_mod h1, congrArg Heartwood.logN h1.hw, fun o _ => congrArg (fun m => regRaw windowRegs m o) h1.win⟩
  exact h2.trans (wSet_laid _ _ (by simp [startReg]))

theorem layDist_laid (s : State) : LaidOut s (layDist s) := by
  unfold layDist
  extract_lets a
  clear_value a
  have h1 := wSet_laid s (o := 0x1120) (BitVec.ofNat 32 a) (by simp [startReg])
  have h2 : LaidOut (wSet s 0x1120 (BitVec.ofNat 32 a)) (wFld (wSet s 0x1120 (BitVec.ofNat 32 a)) 0x1124 19 0 (a / 2 ^ 32)) :=
    ⟨rfl, rfl, fun p hp => wReg_wFld_ne _ _ _ _ _ _ fun hpo => hp (by simp [startReg, hpo])⟩
  exact (h1.trans h2).trans (writeDist_laid _)

theorem settleStore_acts (s : State) : (settleStore s).hw = s.hw ∧ (settleStore s).win = s.win ∧
    (settleStore s).mod.svn = max s.mod.svn (pkgMinSvn s.mod.package) := by
  unfold settleStore
  dsimp only
  refine ⟨rfl, rfl, ?_⟩
  split <;> rfl

/-- A faulty unit raises the sideband's alert; nothing but the module's own state changes. -/
theorem sbdAlert_acts (s : State) (bad : Bool) : let t := if bad then setSbdState (sbdFlag s 1#32) 4 else s
    t.win = s.win ∧ t.hw = s.hw ∧ t.now = s.now ∧ t.mod.svn = s.mod.svn := by
  dsimp only
  split <;> exact ⟨rfl, rfl, rfl, rfl⟩

/-- What normal service begins with. -/
theorem beginService_acts {s : State} (hcur : brgCur s = 6) {act : Nat} (hact : act < 2) (standby : Bool) :
    (stepEnds (beginService s act standby) 0 ∧ bit (wReg (beginService s act standby) 8) (7 + 6) = true) ∧
    activeHw (beginService s act standby) = act ∧ (beginService s act standby).hw.turned = false ∧
    (beginService s act standby).hw.beatAt = (beginService s act standby).now ∧ (beginService s act standby).hw.logN = s.hw.logN ∧
    (beginService s act standby).mod.svn = max s.mod.svn (pkgMinSvn s.mod.package) := by
  unfold beginService
  extract_lets s1 s2 bad h3 m3 s3
  have h1 : LaidOut s1 (layDist (putOuts (openRing0 s1))) := ((openRing0_laid s1).trans (putOuts_laid _)).trans (layDist_laid _)
  obtain ⟨hhw, hwin, hsvn⟩ := settleStore_acts (layDist (putOuts (openRing0 s1)))
  have hstep : wReg s2 8 = wReg s 8 := (congrArg (fun m => regRaw windowRegs m 8) hwin).trans
    ((h1.reg 8 (by simp [startReg])).trans ((wReg_wFld_ne _ _ _ _ _ _ (by decide)).trans (wReg_wFld_ne _ _ _ _ _ _ (by decide))))
  have hheart : wReg s2 0x200000 = wReg s1 0x200000 := (congrArg (fun m => regRaw windowRegs m 0x200000) hwin).trans (h1.reg _ (by simp [startReg]))
  have hlogN : s2.hw.logN = s.hw.logN := (congrArg Heartwood.logN hhw).trans h1.logN
  have hsvn2 : s2.mod.svn = max s.mod.svn (pkgMinSvn s.mod.package) := hsvn.trans (congrArg (fun m : Module => max m.svn (pkgMinSvn m.package)) h1.mod)
  have hactive : fld (wReg s1 0x200000) 0 0 = act :=
    (fld_wFld_apart _ _ _ _ _ (by decide) _).trans ((fld_wFld_self s 0x200000 0 act (by decide)).trans (Nat.mod_eq_of_lt hact))
  have hwin3 : s3.win = s2.win := rfl
  have hturned : s3.hw.turned = false := rfl
  have hbeat : s3.hw.beatAt = s3.now := rfl
  have hlogN3 : s3.hw.logN = s2.hw.logN := rfl
  have hsvn3 : s3.mod.svn = s2.mod.svn := rfl
  clear_value bad s3 s2 s1
  obtain ⟨hwin4, hhw4, hnow4, hsvn4⟩ := sbdAlert_acts s3 bad
  generalize (if bad then setSbdState (sbdFlag s3 1#32) 4 else s3) = u at hwin4 hhw4 hnow4 hsvn4
  have hreg : ∀ o, wReg u o = wReg s2 o := fun o => congrArg (fun m => regRaw windowRegs m o) (hwin4.trans hwin3)
  have hcur4 : brgCur u = 6 := (brgCur_of_reg ((hreg 8).trans hstep)).trans hcur
  have hheart4 : wReg (brgEnd u 0) 0x200000 = wReg s1 0x200000 := (brgEnd_reg u 0 (by decide)).trans ((hreg _).trans hheart)
  refine ⟨brgEnd_done u hcur4 (by decide) (by decide), ?_, ?_, ?_, ?_, ?_⟩
  · unfold activeHw
    rw [hheart4]
    exact hactive
  · rw [brgEnd_hw, hhw4, hturned]
  · rw [brgEnd_hw, brgEnd_nowIs, hhw4, hbeat, hnow4]
  · rw [brgEnd_hw, hhw4, hlogN3, hlogN]
  · rw [brgEnd_mod, hsvn4, hsvn3, hsvn2]

/-! ### START -/

/-- A heartwood that may serve: its package is loaded, its test passed, it is not fenced. -/
def heartFit (s : State) (h : Nat) (pass : Bool) : Prop := pass = true ∧ h ∈ s.mod.loaded ∧ unitFenced s (heartUnit h) = false

theorem heartFit_iff (s : State) (h : Nat) (pass : Bool) :
    (pass && s.mod.loaded.contains h && !unitFenced s (heartUnit h)) = true ↔ heartFit s h pass := by
  unfold heartFit
  simp [and_assoc]

/-- The log entries of a START (R713). -/
def startLogged (s : State) : State :=
  let s0 : State := { s with hw := { s.hw with events := [] } }
  let s1 := if s0.hw.logN = 0 then logAdd s0 1 0 (Config.shake256 Config.bootRom 32) else s0
  logAdd s1 2 (pkgSvn s1.mod.package) (Config.shake256 s1.mod.package 32)

theorem startLogged_acts (s : State) : (startLogged s).mod = s.mod ∧ (startLogged s).win = s.win ∧
    (startLogged s).hw.logN = s.hw.logN + (if s.hw.logN = 0 then 2 else 1) := by
  unfold startLogged
  extract_lets h0 s0 s1
  have h1 : s1.mod = s.mod ∧ s1.win = s.win ∧ s1.hw.logN + 1 = s.hw.logN + (if s.hw.logN = 0 then 2 else 1) := by
    by_cases hz : s.hw.logN = 0
    · have e : s1 = logAdd s0 1 0 (Config.shake256 Config.bootRom 32) := if_pos hz
      rw [e, if_pos hz]
      exact ⟨rfl, rfl, rfl⟩
    · have e : s1 = s0 := if_neg hz
      rw [e, if_neg hz]
      exact ⟨rfl, rfl, rfl⟩
  exact h1

theorem startService_eq (s : State) (west east fuses : Bool) :
    let ok0 := west && s.mod.loaded.contains 0 && !unitFenced s (heartUnit 0)
    let ok1 := east && s.mod.loaded.contains 1 && !unitFenced s (heartUnit 1)
    startService s west east fuses =
      if !ring0Ok s then stepFails s 9
      else if !ok0 && !ok1 then stepFails s 6
      else if (transit (startLogged s) fuses).2 then beginService (transit (startLogged s) fuses).1 (if ok0 then 0 else 1) (ok0 && ok1)
      else stepFails (transit (startLogged s) fuses).1 4 := rfl

theorem transit_refuses {s : State} (htok : pkgToken s.mod.package = true) (hbad : tokenOk s.mod s.mod.package (tokenOf s.mod.package) = false)
    (fuses : Bool) : transit s fuses = (s, false) := by
  unfold transit
  dsimp only
  rw [if_pos htok, if_neg (by simp [hbad])]

theorem transit_passes {s : State} (htok : pkgToken s.mod.package = false) (hno : lifeCycle s.mod ≠ 0 ∨ pkgMask s.mod.package ≠ 1)
    (fuses : Bool) : transit s fuses = (s, true) := by
  unfold transit
  dsimp only
  rw [if_neg (by simp [htok]), if_neg (fun ⟨h0, h1⟩ => hno.elim (absurd h0) (absurd h1))]

theorem startStepSix_acts {s : State} (h : stepGoes s 6) (west east fuses : Bool) :
    (ring0Ok s = false → leads (.start west east fuses) s fun t => stepEnds t 9 ∧ t.hw = s.hw) ∧
    (ring0Ok s = true → ¬ heartFit s 0 west → ¬ heartFit s 1 east → leads (.start west east fuses) s fun t => stepEnds t 6 ∧ t.hw = s.hw) ∧
    (ring0Ok s = true → heartFit s 0 west ∨ heartFit s 1 east → pkgToken s.mod.package = true →
      tokenOk s.mod s.mod.package (tokenOf s.mod.package) = false → leads (.start west east fuses) s fun t => stepEnds t 4) ∧
    (ring0Ok s = true → heartFit s 0 west ∨ heartFit s 1 east → pkgToken s.mod.package = false →
      lifeCycle s.mod ≠ 0 ∨ pkgMask s.mod.package ≠ 1 → leads (.start west east fuses) s fun t =>
        (stepEnds t 0 ∧ bit (wReg t 8) (7 + 6) = true) ∧ (heartFit s 0 west → activeHw t = 0) ∧ (¬ heartFit s 0 west → activeHw t = 1) ∧
          t.hw.turned = false ∧ t.hw.beatAt = t.now ∧ t.hw.logN = s.hw.logN + (if s.hw.logN = 0 then 2 else 1) ∧
          t.mod.svn = max s.mod.svn (pkgMinSvn s.mod.package)) := by
  have hdef : exec (.start west east fuses) s = execStart west east fuses s := rfl
  unfold execStart at hdef
  rw [runStep_goes h, startService_eq] at hdef
  have h0 := heartFit_iff s 0 west
  have h1 := heartFit_iff s 1 east
  generalize hok0 : (west && s.mod.loaded.contains 0 && !unitFenced s (heartUnit 0)) = ok0 at hdef h0
  generalize hok1 : (east && s.mod.loaded.contains 1 && !unitFenced s (heartUnit 1)) = ok1 at hdef h1
  obtain ⟨hmod, hwin, hlogN⟩ := startLogged_acts s
  have hany : heartFit s 0 west ∨ heartFit s 1 east → ¬ ((!ok0 && !ok1) = true) := by
    rintro (hf | hf)
    · simp [h0.mpr hf]
    · simp [h1.mpr hf]
  refine ⟨fun hring => ?_, fun hring hw he => ?_, fun hring hfit htok hbad => ?_, fun hring hfit htok hno => ?_⟩
  · rw [if_pos (by rw [hring]; rfl)] at hdef
    exact leads_of hdef ⟨stepFails_ends _ (by decide), stepFails_hw ..⟩
  · have e0 : ok0 = false := Bool.eq_false_iff.mpr fun hyes => hw (h0.mp hyes)
    have e1 : ok1 = false := Bool.eq_false_iff.mpr fun hyes => he (h1.mp hyes)
    rw [if_neg (by rw [hring]; decide), if_pos (by rw [e0, e1]; rfl)] at hdef
    exact leads_of hdef ⟨stepFails_ends _ (by decide), stepFails_hw ..⟩
  · rw [if_neg (by rw [hring]; decide), if_neg (hany hfit), transit_refuses (by rw [hmod]; exact htok) (by rw [hmod]; exact hbad)] at hdef
    exact leads_of (hdef.trans (congrArg _ (if_neg Bool.false_ne_true))) (stepFails_ends _ (by decide))
  · rw [if_neg (by rw [hring]; decide), if_neg (hany hfit), transit_passes (by rw [hmod]; exact htok) (by rw [hmod]; exact hno)] at hdef
    have hcur : brgCur (startLogged s) = 6 := (brgCur_of_reg (congrArg (fun m => regRaw windowRegs m 8) hwin)).trans (brgCur_of_runs h.1)
    have hact : (if ok0 then 0 else 1) < 2 := by split <;> decide
    obtain ⟨hend, hactive, hturned, hbeat, hlog, hsvn⟩ := beginService_acts hcur hact (ok0 && ok1)
    refine leads_of (hdef.trans (congrArg _ (if_pos rfl))) ⟨hend, fun hf => ?_, fun hf => ?_, hturned, hbeat, hlog.trans hlogN, ?_⟩
    · exact hactive.trans (if_pos (h0.mpr hf))
    · exact hactive.trans (if_neg fun hyes => hf (h0.mp hyes))
    · exact hsvn.trans (by rw [hmod])

/-! ### The obligation -/

/-- Settles O54: power-up starts time and trains the ports, its end drops what stood; each step goes within its bound and ends as its parts do. -/
theorem bringUpStepsAct : Obligations.BringUpStepsAct := by
  unfold Obligations.BringUpStepsAct
  refine ⟨enable_acts, disable_acts, ⟨fun _ => runStep_guards fun _ => rfl, fun _ _ => runStep_guards fun _ => rfl, fun _ => runStep_guards fun _ => rfl,
    fun _ => runStep_guards fun _ => rfl, fun _ => runStep_guards fun _ => rfl, fun _ _ _ => runStep_guards fun _ => rfl,
    fun _ => runStep_guards fun _ => rfl, fun _ => runStep_guards fun _ => rfl, fun _ => runStep_guards fun _ => rfl, runStep_guards fun _ => rfl⟩,
    fun s => ?_⟩
  intro word done
  obtain ⟨htimeIdle, htime⟩ := stepTimeout_acts s
  obtain ⟨hautoIdle, hauto⟩ := autoRestart_acts s
  exact ⟨fun ok h => power_acts h ok, fun l f h => bist_acts h l f, trainStacks_acts, fun m h => trainPorts_acts h m, fun bad h => loadFwStep_acts h bad,
    fun west east fuses h => startStepSix_acts h west east fuses, fun st h => retrainStack_acts h st, fun p h => retrainPort_acts h p,
    fun p h => resetRegion_acts h p, resetAll_acts, htimeIdle, htime, hautoIdle, hauto⟩

end Sys2Proof.Machine
end

section
/-! PROOFS. The mailbox commands of health and recovery: the actions on a partition (R601, R619 to R623, R626). -/
namespace Sys2Proof.Machine

/-! ### A reset-partition record -/

/-- The checks that every ACTION of `reset-partition` shares. -/
def resetChecks (handles : List Word → List Word) (a : State) (k : Ring) (ws : List Word) : List (Bool × Nat) :=
  [(badWord0 ws || fld (arg ws 3) 7 4 != 0 || fld (arg ws 3) 31 16 != 0, csBadArg), badHandle a hPart (arg ws 2)] ++
    (handles ws).map (badHandle a hQp) ++ [outOfScope k (hIndex (arg ws 2)), (decide (6 ≤ fld (arg ws 3) 3 0), csBadArg)]

/-- What `reset-partition` does with a record that has been begun. -/
def resetBody (r : Nat) (pos : Word) (own : State → Partn → List Word → List (Bool × Nat)) (handles : List Word → List Word)
    (eff : State → Nat → Partn → List Word → State) (a : State) (k : Ring) (ws : List Word) : State :=
  match a.hpart (hIndex (arg ws 2)) with
  | none => finishCmd a r pos.toNat (judge (resetChecks handles a k ws)) 0#32 []
  | some g =>
    if judge ((judge (resetChecks handles a k ws) != csOk, judge (resetChecks handles a k ws)) :: own a g ws) ≠ csOk then
      finishCmd a r pos.toNat (judge ((judge (resetChecks handles a k ws) != csOk, judge (resetChecks handles a k ws)) :: own a g ws)) 0#32 []
    else eff a (hIndex (arg ws 2)) g ws

theorem onReset_eq (s : State) (r : Nat) (pos : Word) (n : Nat) (own : State → Partn → List Word → List (Bool × Nat)) (handles : List Word → List Word)
    (eff : State → Nat → Partn → List Word → State) :
    onReset s r pos n own handles eff = commandIf s r pos 0x13 (isAction n) (resetBody r pos own handles eff) := rfl

section
variable {r : Nat} {pos : Word} {own : State → Partn → List Word → List (Bool × Nat)} {handles : List Word → List Word}
  {eff : State → Nat → Partn → List Word → State}

theorem resetBody_bad (a : State) (k : Ring) {ws : List Word} (h : badWord0 ws = true) :
    ∃ hd rs, resetBody r pos own handles eff a k ws = finishCmd a r pos.toNat csBadArg hd rs := by
  have hst : judge (resetChecks handles a k ws) = csBadArg := by
    unfold resetChecks
    simp only [h, Bool.true_or, List.cons_append, judge, if_true]
  refine ⟨0#32, [], ?_⟩
  unfold resetBody
  rw [hst]
  split
  · rfl
  · rfl

/-- The conditions that every ACTION shares. -/
def resetOwn (s : State) (k : Ring) (ws : List Word) : Prop := fld (arg ws 3) 7 4 = 0 ∧ fld (arg ws 3) 31 16 = 0 ∧ fld (arg ws 3) 3 0 < 6 ∧
  hOk s hPart (arg ws 2) ∧ inScope k (hIndex (arg ws 2))

theorem resetChecks_ok {s : State} {code : Nat} {k : Ring} {ws : List Word} (hs : cmdStands s r pos code k ws) (hw : badWord0 ws = false)
    (h : resetOwn s k ws) (hqps : ∀ w ∈ handles ws, hOk s hQp w) : judge (resetChecks handles (s.beginAt r pos.toNat k) k ws) = csOk := by
  obtain ⟨h7, h31, hact, hpart, hscope⟩ := h
  refine judge_ok fun c hc => ?_
  unfold resetChecks at hc
  simp only [List.mem_append, List.mem_cons, List.not_mem_nil, or_false, List.mem_map] at hc
  rcases hc with ((rfl | rfl) | ⟨w, hwm, rfl⟩) | rfl | rfl
  · simp [hw, h7, h31]
  · exact badHandle_ok (hOk_beginAt hs hpart)
  · exact badHandle_ok (hOk_beginAt hs (hqps w hwm))
  · exact outOfScope_ok hscope
  · simpa using hact

theorem resetBody_good {s : State} {code : Nat} {k : Ring} {ws : List Word} {g : Partn} (hs : cmdStands s r pos code k ws) (hw : badWord0 ws = false)
    (h : resetOwn s k ws) (hqps : ∀ w ∈ handles ws, hOk s hQp w) (hg : s.hpart (hIndex (arg ws 2)) = some g)
    (hown : ∀ c ∈ own (s.beginAt r pos.toNat k) g ws, c.1 = false) :
    resetBody r pos own handles eff (s.beginAt r pos.toNat k) k ws = eff (s.beginAt r pos.toNat k) (hIndex (arg ws 2)) g ws := by
  have hchecks := resetChecks_ok hs hw h hqps
  have hst : judge ((judge (resetChecks handles (s.beginAt r pos.toNat k) k ws) != csOk, judge (resetChecks handles (s.beginAt r pos.toNat k) k ws)) ::
      own (s.beginAt r pos.toNat k) g ws) = csOk := by
    refine judge_ok fun c hc => ?_
    rcases List.mem_cons.mp hc with rfl | hc
    · simp [hchecks]
    · exact hown c hc
  have hg' : (s.beginAt r pos.toNat k).hpart (hIndex (arg ws 2)) = some g := hg
  unfold resetBody
  rw [hg']
  exact if_neg (not_not.mpr hst)

/-- A row of `reset-partition`, from what its body does with a begun command. -/
theorem mbxLeads_reset {x : Instr} {n : Nat} {own0 : State → Ring → List Word → Prop} {post : State → Ring → List Word → State → Prop}
    (hdef : ∀ s, exec x s = .next (onReset s r pos n own handles eff))
    (hgood : ∀ s k ws, cmdStands s r pos 0x13 k ws → badWord0 ws = false → own0 s k ws →
      post s k ws (resetBody r pos own handles eff (s.beginAt r pos.toNat k) k ws)) : mbxLeads x r pos 0x13 (isAction n) own0 post :=
  mbxLeads_of (body := resetBody r pos own handles eff) (fun s => (hdef s).trans (congrArg _ (onReset_eq ..))) (fun a k _ => resetBody_bad a k)
    fun s k ws hs _ => hgood s k ws hs

end

theorem noChecks : ∀ c ∈ ([] : List (Bool × Nat)), c.1 = false := fun _ h => absurd h List.not_mem_nil

theorem noHandles (s : State) : ∀ w ∈ ([] : List Word), hOk s hQp w := fun _ h => absurd h List.not_mem_nil

theorem finishCmd_part {a : State} {p : Nat} {g : Partn} (h : a.hpart p = some g) (r pos st : Nat) (hd : Word) (rs : List Word) :
    (finishCmd a r pos st hd rs).hpart p = some g := (finishCmd_hpart ..).trans h

/-! ### ROLLBACK and RESET -/

theorem resetPartitionRollback_acts (r : Fin 16384) (pos : Word) :
    mbxLeads (.resetPartitionRollback r pos) r.val pos 0x13 (isAction 0)
      (fun s k ws => resetOwn s k ws ∧ ∃ g, s.hpart (hIndex (arg ws 2)) = some g ∧ g.recov = 0 ∧ g.restarts < 4 ∧ g.halted = false ∧ g.haltAt = none)
      (fun s _ ws t => fld (wReg t 0x200008) 3 0 = 1 ∧ ∃ g, t.hpart (hIndex (arg ws 2)) = some g ∧ g.haltAt = some (s.now + 16384) ∧ g.recov = 1 ∧
        (r.val, pos.toNat, csFailed) ∈ g.waiters) := by
  refine mbxLeads_reset (fun _ => rfl) fun s k ws hs hw ⟨hown, g, hg, hrec, hrest, hhalt, hat⟩ => ?_
  rw [resetBody_good hs hw hown (noHandles s) hg noChecks]
  have hset : ((s.beginAt r.val pos.toNat k).setPart (hIndex (arg ws 2)) { g with waiters := g.waiters ++ [(r.val, pos.toNat, csFailed)] }).hpart
      (hIndex (arg ws 2)) = some { g with waiters := g.waiters ++ [(r.val, pos.toNat, csFailed)] } := hpart_setPart_self ..
  have hnow : ((s.beginAt r.val pos.toNat k).setPart (hIndex (arg ws 2)) { g with waiters := g.waiters ++ [(r.val, pos.toNat, csFailed)] }).now = s.now := rfl
  generalize (s.beginAt r.val pos.toNat k).setPart (hIndex (arg ws 2)) { g with waiters := g.waiters ++ [(r.val, pos.toNat, csFailed)] } = b at hset hnow
  rw [startRecovery_first hset hrec hhalt hat hrest, hnow]
  exact ⟨fld_wFld_self _ 0x200008 0 1 (by decide), _, hpart_setPart_self .., rfl, rfl, List.mem_append_right _ List.mem_cons_self⟩

/-- The partition that a RESET leaves. -/
def Partn.cleared (k : Partn) : Partn :=
  { k with step := k.committed + 1, sealed := k.committed, runs := 1, seals := [], sealAt := none, later := [], touch := none
           now_ := Findings.none, before := Findings.none, haltAt := none, halted := false, recov := 0, restarts := 0 }

theorem cancelBooked_seated (s : State) (p : Nat) : (cancelBooked s p).seated = s.seated := rfl

theorem endWaiters_idle {s : State} {p : Nat} {k : Partn} (hk : s.hpart p = some k) (h : k.waiters = []) (ok : Bool) :
    endWaiters s p ok = s.setPart p { k with waiters := [] } := by
  unfold endWaiters
  rw [hk]
  dsimp only
  rw [h]
  rfl

theorem hpart_of_seated {s t : State} (h : t.seated = s.seated) (p : Nat) : t.hpart p = s.hpart p := congrArg (fun x : Map Partn × Map Ring => mget? x.1 p) h

theorem rings_of_seated {s t : State} (h : t.seated = s.seated) : t.hw.rings = s.hw.rings := congrArg Prod.snd h

theorem updPart_rings (s : State) (p : Nat) (f : Partn → Partn) : (updPart s p f).hw.rings = s.hw.rings := by
  unfold updPart
  split <;> rfl

theorem resetPartitionReset_acts (r : Fin 16384) (pos : Word) :
    mbxRow (.resetPartitionReset r pos) r.val pos 0x13 (isAction 1)
      (fun s k ws => resetOwn s k ws ∧ ∃ g, s.hpart (hIndex (arg ws 2)) = some g ∧ g.reqs = [] ∧ g.waiters = [])
      (fun s _ ws t st _ _ => st = csOk ∧ ∀ g, s.hpart (hIndex (arg ws 2)) = some g → ∃ g2, t.hpart (hIndex (arg ws 2)) = some g2 ∧
        g2.committed = g.committed ∧ g2.step = g.committed + 1 ∧ g2.runs = 1 ∧ g2.recov = 0 ∧ g2.haltAt = none ∧ g2.halted = false) := by
  refine mbxLeads_reset (fun _ => rfl) fun s k ws hs hw ⟨hown, g, hg, hreqs, hwait⟩ => ?_
  rw [resetBody_good hs hw hown (noHandles s) hg noChecks]
  have hg' : (s.beginAt r.val pos.toNat k).hpart (hIndex (arg ws 2)) = some g := hg
  have hopen := beginAt_open hs
  generalize s.beginAt r.val pos.toNat k = a at hg' hopen
  have h1 : (a.setPart (hIndex (arg ws 2)) { g with waiters := [] }).hpart (hIndex (arg ws 2)) = some { g with waiters := [] } := hpart_setPart_self ..
  dsimp only
  rw [endWaiters_idle hg' hwait, endRequests_idle h1 hreqs]
  have hseat : (resetPart (cancelBooked (a.setPart (hIndex (arg ws 2)) { g with waiters := [] }) (hIndex (arg ws 2))) (hIndex (arg ws 2)) true).seated = (a.setPart (hIndex (arg ws 2)) { g with waiters := [] }).seated :=
    (resetPart_seated ..).trans (cancelBooked_seated ..)
  generalize resetPart (cancelBooked (a.setPart (hIndex (arg ws 2)) { g with waiters := [] }) (hIndex (arg ws 2))) (hIndex (arg ws 2)) true = b at hseat
  have hb : b.hpart (hIndex (arg ws 2)) = some { g with waiters := [] } := (hpart_of_seated hseat (hIndex (arg ws 2))).trans h1
  have hrings : (updPart b (hIndex (arg ws 2)) Partn.cleared).hw.rings = a.hw.rings := (updPart_rings ..).trans (rings_of_seated hseat :)
  have hupd := updPart_hpart hb Partn.cleared
  refine cmdDone_finish (ringOpen_of_rings hopen hrings) ⟨rfl, fun g1 hg1 => ?_⟩
  rw [← Option.some.inj (hg.symm.trans hg1)]
  refine ⟨Partn.cleared { g with waiters := [] }, finishCmd_part ?_ .., rfl, rfl, rfl, rfl, rfl, rfl⟩
  exact hupd

/-! ### QUENCH, PEERS, ADMIT and RESUME -/

theorem JobsSent.rings {s t : State} (h : JobsSent s t) : t.hw.rings = s.hw.rings := by simpa using congrArg (fun x : State => x.hw.rings) h.rest

/-- A quench that is originated leaves a partition's requests, and every ring. -/
theorem originateQuench_reqs {s : State} {p : Nat} {k : Partn} (hk : s.hpart p = some k) (cause : Nat) :
    (∃ g, (originateQuench s p cause).hpart p = some g ∧ g.reqs = k.reqs) ∧ (originateQuench s p cause).hw.rings = s.hw.rings := by
  unfold originateQuench
  rw [hk]
  dsimp only
  split
  · exact ⟨⟨k, hk, rfl⟩, rfl⟩
  · have h := sendJob_sent (({ s with hw := { s.hw with qid := s.hw.qid + 1 } }).setPart p { k with quenches := noteQuench k.quenches (s.mod.serial, s.hw.qid + 1) }) p
      (quenchPeers k) ⟨0x10, 0, cause, s.mod.serial, k.committed, 0, 0, s.hw.qid + 1, []⟩
    exact ⟨⟨_, (h.hpart p).trans (hpart_setPart_self ..), rfl⟩, h.rings⟩

theorem haltFor_rings (s : State) (p next : Nat) : (haltFor s p next).hw.rings = s.hw.rings := by
  unfold haltFor
  split
  · rfl
  · extract_lets again s1 k1 s2
    split <;> rfl

theorem quenchHold_rings {s : State} {p : Nat} {k : Partn} (hk : s.hpart p = some k) (h : k.reqs = []) : (quenchHold s p).hw.rings = s.hw.rings := by
  unfold quenchHold
  rw [endRequests_idle hk h]
  exact (updPart_rings ..).trans (haltFor_rings ..)

theorem resetPartitionQuench_acts (r : Fin 16384) (pos : Word) :
    mbxRow (.resetPartitionQuench r pos) r.val pos 0x13 (isAction 2)
      (fun s k ws => resetOwn s k ws ∧ ∃ g, s.hpart (hIndex (arg ws 2)) = some g ∧ g.reqs = [])
      (fun _ _ ws t st _ _ => st = csOk ∧ ∃ g, t.hpart (hIndex (arg ws 2)) = some g ∧ g.heldJob = true ∧ g.recov ≠ 0) := by
  refine mbxLeads_reset (fun _ => rfl) fun s k ws hs hw ⟨hown, g, hg, hreqs⟩ => ?_
  rw [resetBody_good hs hw hown (noHandles s) hg noChecks]
  have hg' : (s.beginAt r.val pos.toNat k).hpart (hIndex (arg ws 2)) = some g := hg
  obtain ⟨⟨g1, hg1, hreqs1⟩, hrings1⟩ := originateQuench_reqs hg' quHost
  obtain ⟨g2, hg2, _, hheld, hrec⟩ := quenchHold_recov hg1
  have hrings2 := quenchHold_rings hg1 (hreqs1.trans hreqs)
  exact cmdDone_finish (ringOpen_of_rings (beginAt_open hs) (hrings2.trans hrings1)) ⟨rfl, g2, finishCmd_part hg2 .., hheld, hrec⟩

theorem resetPartitionPeers_acts (r : Fin 16384) (pos : Word) :
    mbxRow (.resetPartitionPeers r pos) r.val pos 0x13 (isAction 3)
      (fun s k ws => resetOwn s k ws ∧ fld (arg ws 12) 31 16 = 0 ∧
        (fld (arg ws 12) 15 0 = 0 ∨ (10 ≤ fld (arg ws 12) 15 0 ∧ fld (arg ws 12) 15 0 ≤ 60000)) ∧
        (s.hpart (hIndex (arg ws 2))).isSome = true ∧ ∀ w ∈ peerWords ws, hOk s hQp w ∧ ∃ q, s.qp (hIndex w) = some q ∧ q.part = hIndex (arg ws 2))
      (fun _ _ ws t st _ _ => st = csOk ∧ ∃ g, t.hpart (hIndex (arg ws 2)) = some g ∧ g.peers = (peerWords ws).map hIndex ∧
        g.liveMs = if fld (arg ws 12) 15 0 = 0 then 50 else fld (arg ws 12) 15 0) := by
  refine mbxLeads_reset (fun _ => rfl) fun s k ws hs hw ⟨hown, hres, hms, hsome, hpeers⟩ => ?_
  obtain ⟨g, hg⟩ := Option.isSome_iff_exists.mp hsome
  rw [resetBody_good hs hw hown (fun w hwm => (hpeers w hwm).1) hg fun c hc => ?_]
  · exact cmdDone_finish (ringOpen_of_rings (beginAt_open hs) rfl) ⟨rfl, _, finishCmd_part (hpart_setPart_self ..) .., rfl, rfl⟩
  · simp only [List.mem_cons, List.not_mem_nil, or_false] at hc
    rcases hc with rfl | rfl | rfl
    · simp [hres]
    · refine List.any_eq_false.mpr fun w hwm => ?_
      obtain ⟨_, q, hq, hqp⟩ := hpeers w hwm
      have e : (((s.beginAt r.val pos.toNat k).qp (hIndex w)).bind fun q => (s.beginAt r.val pos.toNat k).hpart q.part) = some g := by
        have hq' : (s.beginAt r.val pos.toNat k).qp (hIndex w) = some q := hq
        rw [hq', Option.bind_some, hqp]
        exact hg
      rw [e]
      simp
    · rcases hms with h0 | h1
      · simp [h0]
      · simp [h1]

theorem resetPartitionAdmit_acts (r : Fin 16384) (pos : Word) :
    mbxLeads (.resetPartitionAdmit r pos) r.val pos 0x13 (isAction 4)
      (fun s k ws => resetOwn s k ws ∧ hOk s hQp (arg ws 4) ∧ fld (arg ws 5) 31 16 = 0 ∧
        ∃ g, s.hpart (hIndex (arg ws 2)) = some g ∧ hIndex (arg ws 4) ∈ livePeers g ∧ g.reqs = [] ∧ g.joiner = none)
      (fun s _ ws t => fld (wReg t 0x200008) 3 0 = 8 ∧ ∃ g d, t.hpart (hIndex (arg ws 2)) = some g ∧ g.joiner = some d ∧ d.ring = r.val ∧ d.pos = pos.toNat ∧
        d.qp = hIndex (arg ws 4) ∧ d.until_ = s.now + (if fld (arg ws 5) 15 0 = 0 then 2000 else fld (arg ws 5) 15 0) * 1600000) := by
  refine mbxLeads_reset (fun _ => rfl) fun s k ws hs hw ⟨hown, hqp, hres, g, hg, hpeer, hreqs, hjoin⟩ => ?_
  rw [resetBody_good hs hw hown (fun w hwm => by rw [List.mem_singleton.mp hwm]; exact hqp) hg fun c hc => ?_]
  · extract_lets w q d a1
    have h1 : a1.hpart (hIndex (arg ws 2)) = some { g with joiner := some d } := ((sendJob_sent ..).hpart _).trans (hpart_setPart_self ..)
    exact ⟨fld_wFld_self a1 0x200008 0 8 (by decide), _, d, h1, rfl, rfl, rfl, rfl, rfl⟩
  · simp only [List.mem_cons, List.not_mem_nil, or_false] at hc
    rcases hc with rfl | rfl
    · simp [hres, hpeer]
    · simp [hreqs, hjoin]

theorem resetPartitionResume_acts (r : Fin 16384) (pos : Word) :
    mbxRow (.resetPartitionResume r pos) r.val pos 0x13 (isAction 5) (fun s k ws => resetOwn s k ws ∧ (s.hpart (hIndex (arg ws 2))).isSome = true)
      (fun s _ ws t st _ _ => ∀ g, s.hpart (hIndex (arg ws 2)) = some g → st = (if g.heldJob then csOk else csDenied) ∧
        ∃ g2, t.hpart (hIndex (arg ws 2)) = some g2 ∧ g2.heldJob = false) := by
  refine mbxLeads_reset (fun _ => rfl) fun s k ws hs hw ⟨hown, hsome⟩ => ?_
  obtain ⟨g, hg⟩ := Option.isSome_iff_exists.mp hsome
  have hthis (g2 : Partn) (h : s.hpart (hIndex (arg ws 2)) = some g2) : g = g2 := Option.some.inj (hg.symm.trans h)
  cases hheld : g.heldJob with
  | true =>
    rw [resetBody_good hs hw hown (noHandles s) hg fun c hc => by rw [List.mem_singleton.mp hc, hheld]; rfl]
    have h1 : ((s.beginAt r.val pos.toNat k).setPart (hIndex (arg ws 2)) { g with heldJob := false }).hpart (hIndex (arg ws 2)) =
      some { g with heldJob := false } := hpart_setPart_self ..
    obtain ⟨rs, free, h2⟩ := retime_hpart h1
    extract_lets a1
    have hrings : (bookAhead (retime a1 (hIndex (arg ws 2))) (hIndex (arg ws 2))).hw.rings = (s.beginAt r.val pos.toNat k).hw.rings :=
      (congrArg Heartwood.rings (bookAhead_hw ..)).trans (updPart_rings ..)
    refine cmdDone_finish (ringOpen_of_rings (beginAt_open hs) hrings) fun g2 hg2 => ?_
    rw [← hthis g2 hg2, hheld]
    exact ⟨rfl, _, finishCmd_part ((bookAhead_hpart ..).trans h2) .., rfl⟩
  | false =>
    have hg' : (s.beginAt r.val pos.toNat k).hpart (hIndex (arg ws 2)) = some g := hg
    have hdenied : resetBody r.val pos (fun _ g _ => [(!g.heldJob, csDenied)]) (fun _ => []) (fun a p k _ =>
        let a1 := a.setPart p { k with heldJob := false }
        finishCmd (bookAhead (retime a1 p) p) r.val pos.toNat csOk 0#32 []) (s.beginAt r.val pos.toNat k) k ws =
        finishCmd (s.beginAt r.val pos.toNat k) r.val pos.toNat csDenied 0#32 [] := by
      unfold resetBody
      rw [hg', resetChecks_ok hs hw hown (noHandles s)]
      have hst : judge [(csOk != csOk, csOk), (!g.heldJob, csDenied)] = csDenied := by
        rw [hheld]
        rfl
      dsimp only
      rw [if_pos (by rw [hst]; decide), hst]
    rw [hdenied]
    refine cmdDone_finish (beginAt_open hs) fun g2 hg2 => ?_
    rw [← hthis g2 hg2, hheld]
    exact ⟨rfl, g, finishCmd_part hg' .., hheld⟩

end Sys2Proof.Machine
end

section
/-! PROOFS. Units fenced and tested by the host, and what the device hands out about them (R580, R601, R627, R628). -/
namespace Sys2Proof.Machine

/-! ### What a begun command leaves of the checks -/

theorem unitOk_beginAt {s : State} {r : Nat} {pos : Word} {code : Nat} {k : Ring} {ws : List Word} (h : cmdStands s r pos code k ws) (u : Word) :
    unitOk (s.beginAt r pos.toNat k) u = unitOk s u := by
  unfold unitOk
  simp only [handleCheck_beginAt h]

theorem unitInUse_beginAt (s : State) (r pos : Nat) (k : Ring) (u : Word) : unitInUse (s.beginAt r pos k) u = unitInUse s u := rfl

/-! ### FENCE_UNIT -/

theorem partOfUnit_port (s : State) {u : Word} (h : unitKind u = uPort) : partOfUnit s u = none := by
  have h4 : unitKind u = 4 := h
  unfold partOfUnit
  rw [h4]
  rfl

theorem portState_finishCmd (a : State) (r pos st : Nat) (hd : Word) (rs : List Word) (p : Nat) : portState (finishCmd a r pos st hd rs) p = portState a p := by
  obtain ⟨g, hg⟩ := finishCmd_form a r pos st hd rs
  rw [hg]
  rfl

/-- A port that the host fences. -/
theorem fenceUnit_portState {s : State} {u : Word} (h : unitKind u = uPort) (hunf : unitFenced s u = false) (cause part pm : Nat) :
    portState (fenceUnit s u cause part pm) (fld u 6 4) = poFenced ∧ (fenceUnit s u cause part pm).hw.rings = s.hw.rings := by
  have h4 : unitKind u = 4 := h
  have hwho : partOfUnit s u = none := partOfUnit_port s h
  have hpat : patReg u = some (0x200300 + 4 * fld u 6 4) := by
    unfold patReg
    rw [h4]
    rfl
  have heff (a : State) : fenceEffect a u cause part = portFence a (fld u 6 4) := by
    unfold fenceEffect
    rw [h4]
    rfl
  unfold fenceUnit
  rw [if_neg (by rw [hunf]; decide), hwho, hpat]
  dsimp only
  rw [heff]
  refine ⟨?_, ?_⟩
  · exact (portState_portFence ..).trans (if_pos rfl)
  · exact (portFence_port ..).rings

theorem fenceUnitHost_acts (r : Fin 16384) (pos : Word) :
    mbxLeads (.fenceUnit r pos) r.val pos 0x48 anyRec
      (fun s k ws => k.part = 0 ∧ unitKind (arg ws 2) ≠ uPeer ∧ arg ws 3 = 0#32 ∧ unitOk s (arg ws 2) = true ∧ lastHeart s (arg ws 2) = false)
      (fun s _ ws t => arg ws 2 ∈ t.hw.fenced ∧ (unitKind (arg ws 2) = uPort → unitFenced s (arg ws 2) = false →
        portState t (fld (arg ws 2) 6 4) = poFenced ∧ cmdDone t r.val pos.toNat fun st _ _ => st = csOk)) := by
  refine mbxLeads_all (body := _) (fun _ => rfl) (fun a k ws h => ?_) (fun s k ws hs hw ⟨hdev, hpeer, harg, hok, hheart⟩ => ?_) anyRec
  · dsimp only
    rw [h]
    exact ⟨_, _, rfl⟩
  · have hnopeer : (unitKind (arg ws 2) == uPeer) = false := by simpa using hpeer
    dsimp only
    rw [hnopeer]
    simp only [Bool.false_eq_true, if_false, Bool.not_false, Bool.true_and, Bool.false_and, Bool.or_false]
    have hst : judge [(badWord0 ws || arg ws 3 != 0#32, csBadArg), (false, csOk), notDevice k, (!unitOk (s.beginAt r.val pos.toNat k) (arg ws 2), csBadArg),
        (lastHeart (s.beginAt r.val pos.toNat k) (arg ws 2), csDenied)] = csOk := judge_ok fun c hc => by
      simp only [List.mem_cons, List.not_mem_nil, or_false] at hc
      rcases hc with rfl | rfl | rfl | rfl | rfl
      · simp [hw, harg]
      · rfl
      · simp [notDevice, hdev]
      · simp [unitOk_beginAt hs, hok]
      · exact hheart
    rw [passed_goes hst]
    have hin : arg ws 2 ∈ (fenceUnit (s.beginAt r.val pos.toNat k) (arg ws 2) fcHost 0 noPm).hw.fenced := List.contains_iff_mem.mp (fenceUnit_fenced ..)
    refine ⟨?_, fun hport hunf => ?_⟩
    · split
      · split
        · rw [finishCmd_fenced]
          exact hin
        · exact hin
      · rw [finishCmd_fenced]
        exact hin
    · have hnone : partOfUnit (s.beginAt r.val pos.toNat k) (arg ws 2) = none := partOfUnit_port _ hport
      rw [hnone]
      obtain ⟨hstate, hrings⟩ := fenceUnit_portState (s := s.beginAt r.val pos.toNat k) hport hunf fcHost 0 noPm
      exact ⟨(portState_finishCmd ..).trans hstate, cmdDone_finish (ringOpen_of_rings (beginAt_open hs) hrings) rfl⟩

/-! ### TEST_UNIT: the test and the end of a fence -/

theorem testClears_hw (s : State) (u : Word) : (testClears s u).hw = s.hw := by
  unfold testClears
  split
  · split
    · exact setCore_hw ..
    · rfl
  · exact foldl_keeps State.hw (fun a c => setCore_hw ..) _ _
  · split
    · exact mapRegion_hw ..
    · rfl
  · rfl
  · rfl

/-- A fence's end leaves every ring. -/
theorem readmit_rings (s : State) (u : Word) : (readmit s u).hw.rings = s.hw.rings := by
  unfold readmit
  extract_lets h0 s0 s1
  have h1 : s1.hw.rings = s.hw.rings := by
    unfold s1
    split <;> rfl
  clear_value s1
  split
  · split
    · exact (congrArg Heartwood.rings (setCore_hw ..)).trans h1
    · exact h1
  · exact (congrArg Heartwood.rings (foldl_keeps State.hw (fun a c => setCore_hw ..) _ s1)).trans h1
  · split
    · exact h1
    · split
      · exact h1
      · exact h1
  · exact portUnfence_rings (fld_lt u 6 4) s
  · next h hw2 s2 _ _ =>
    have h2 : s2.hw.rings = s.hw.rings := h1
    clear_value s2
    split
    · exact h2
    · exact h2
  · exact h1

theorem readmit_core {s : State} {u : Word} (h : unitKind u = uCore) : (readmit s u).hw.fenced = s.hw.fenced.erase u := by
  have hzero : ∀ n, unitKind u = n → n = 0 := fun n hn => hn.symm.trans h
  unfold readmit
  extract_lets h0 s0 s1
  have h1 : s1.hw.fenced = s.hw.fenced.erase u := by
    unfold s1
    split <;> rfl
  clear_value s1
  split
  · split
    · exact (congrArg Heartwood.fenced (setCore_hw ..)).trans h1
    · exact h1
  · next hk => exact absurd (hzero _ hk) (by decide)
  · next hk => exact absurd (hzero _ hk) (by decide)
  · next hk => exact absurd (hzero _ hk) (by decide)
  · next hk => exact absurd (hzero _ hk) (by decide)
  · exact h1

/-- What a test of a unit asks for. -/
def testOwn (s : State) (k : Ring) (ws : List Word) : Prop := fld (arg ws 3) 31 2 = 0 ∧ k.part = 0 ∧ unitKind (arg ws 2) < 7 ∧
  unitOk s (arg ws 2) = true ∧ (unitInUse s (arg ws 2) = false ∨ unitFenced s (arg ws 2) = true)

/-- The words that a test answers with. -/
def testFound (x : TestResult) : List Word := [BitVec.ofNat 32 (bnat (!x.pass)), BitVec.ofNat 32 x.us, BitVec.ofNat 32 (if x.pass then 0 else x.item)]

/-- A row that tests a unit, from what follows a test that passes. -/
theorem testUnit_acts {x : Instr} {r : Nat} {pos : Word} {act : Nat} {res : TestResult} {after : State → Word → State}
    (hdef : ∀ s, exec x s = .next (testUnit s r pos act res after)) (hrings : ∀ s u, (after s u).hw.rings = s.hw.rings)
    {post : State → List Word → State → Prop}
    (hpost : ∀ s k ws, post s ws (finishCmd (if res.pass then after (testClears (s.beginAt r pos.toNat k) (arg ws 2)) (arg ws 2)
      else testClears (s.beginAt r pos.toNat k) (arg ws 2)) r pos.toNat csOk 0#32 (testFound res))) :
    mbxRow x r pos 0x49 (fun ws => fld (arg ws 3) 1 0 == act) testOwn (fun s _ ws t st _ rs => st = csOk ∧ rs = testFound res ∧ post s ws t) := by
  refine mbxLeads_of (body := _) hdef (fun a k ws h => ?_) fun s k ws hs _ hw ⟨hres, hdev, hkind, hok, huse⟩ => ?_
  · dsimp only
    rw [h]
    exact ⟨_, _, rfl⟩
  · have hst : judge [(badWord0 ws || fld (arg ws 3) 31 2 != 0, csBadArg), notDevice k,
        (decide (7 ≤ unitKind (arg ws 2)) || !unitOk (s.beginAt r pos.toNat k) (arg ws 2), csBadArg),
        (unitInUse (s.beginAt r pos.toNat k) (arg ws 2) && !unitFenced (s.beginAt r pos.toNat k) (arg ws 2), csInUse)] = csOk := judge_ok fun c hc => by
      simp only [List.mem_cons, List.not_mem_nil, or_false] at hc
      rcases hc with rfl | rfl | rfl | rfl
      · simp [hw, hres]
      · simp [notDevice, hdev]
      · simp [unitOk_beginAt hs, hok, hkind]
      · rw [unitInUse_beginAt]
        rcases huse with hu | hu
        · rw [hu]
          rfl
        · have hf : unitFenced (s.beginAt r pos.toNat k) (arg ws 2) = true := hu
          rw [hf]
          exact Bool.and_false _
    dsimp only
    rw [passed_goes hst]
    refine cmdDone_finish (ringOpen_of_rings (beginAt_open hs) ?_) ⟨rfl, rfl, hpost s k ws⟩
    have hclear := congrArg Heartwood.rings (testClears_hw (s.beginAt r pos.toNat k) (arg ws 2))
    split
    · exact (hrings ..).trans hclear
    · exact hclear

end Sys2Proof.Machine
end

section
/-! PROOFS. What the device hands out about its units, and the commands of health and recovery together (R601, R626 to R628). -/
namespace Sys2Proof.Machine

theorem cmdDone_mono {t : State} {r pos : Nat} {post post2 : Nat → Word → List Word → Prop} (h : cmdDone t r pos post)
    (hp : ∀ st hd rs, post st hd rs → post2 st hd rs) : cmdDone t r pos post2 := by
  obtain ⟨k, f, d, hk, hf, hpos, hb, hd, hpost⟩ := h
  exact ⟨k, f, d, hk, hf, hpos, hb, hd, hp _ _ _ hpost⟩

theorem mbxRow_mono {x : Instr} {r : Nat} {pos : Word} {code : Nat} {sel : List Word → Bool} {own : State → Ring → List Word → Prop}
    {res res2 : State → Ring → List Word → State → Nat → Word → List Word → Prop} (h : mbxRow x r pos code sel own res)
    (hres : ∀ s k ws t st hd rs, res s k ws t st hd rs → res2 s k ws t st hd rs) : mbxRow x r pos code sel own res2 := fun s => by
  obtain ⟨hidle, hstands⟩ := h s
  refine ⟨hidle, fun k ws hs hsel => ?_⟩
  obtain ⟨hbad, hgood⟩ := hstands k ws hs hsel
  refine ⟨hbad, fun hw hown => ?_⟩
  obtain ⟨t, ht, hdone⟩ := hgood hw hown
  exact ⟨t, ht, cmdDone_mono hdone fun st hd rs => hres s k ws t st hd rs⟩

theorem testUnitTest_acts (r : Fin 16384) (pos : Word) (x : TestResult) :
    mbxRow (.testUnitTest r pos x) r.val pos 0x49 (fun ws => fld (arg ws 3) 1 0 == 0) testOwn (fun _ _ _ _ st _ res => st = csOk ∧ res = testFound x) :=
  mbxRow_mono (testUnit_acts (post := fun _ _ _ => True) (fun _ => rfl) (fun _ _ => rfl) fun _ _ _ => trivial) fun _ _ _ _ _ _ _ ⟨h1, h2, _⟩ => ⟨h1, h2⟩

theorem testUnitReadmit_acts (r : Fin 16384) (pos : Word) (x : TestResult) :
    mbxRow (.testUnitReadmit r pos x) r.val pos 0x49 (fun ws => fld (arg ws 3) 1 0 == 1) testOwn (fun s _ ws t st _ res => st = csOk ∧ res = testFound x ∧
      (unitKind (arg ws 2) = uCore → t.hw.fenced = if x.pass then s.hw.fenced.erase (arg ws 2) else s.hw.fenced)) := by
  refine testUnit_acts (post := fun s ws t => unitKind (arg ws 2) = uCore → t.hw.fenced = if x.pass then s.hw.fenced.erase (arg ws 2) else s.hw.fenced)
    (fun _ => rfl) readmit_rings fun s k ws hcore => ?_
  have hclear : (testClears (s.beginAt r.val pos.toNat k) (arg ws 2)).hw.fenced = s.hw.fenced :=
    (congrArg Heartwood.fenced (testClears_hw (s.beginAt r.val pos.toNat k) (arg ws 2)) :)
  rw [finishCmd_fenced]
  split
  · rw [readmit_core hcore, hclear]
  · exact hclear

theorem testUnitReadPm_acts (r : Fin 16384) (pos : Word) :
    mbxRow (.testUnitReadPm r pos) r.val pos 0x49 (fun ws => fld (arg ws 3) 1 0 == 2)
      (fun s k ws => fld (arg ws 3) 31 2 = 0 ∧ hOk s hBuffer (arg ws 5) ∧ k.part = 0 ∧ ∃ b m, mget? s.hw.bufs (hIndex (arg ws 5)) = some b ∧
        mget? s.hw.pms (arg ws 4).toNat = some m ∧ hdrState (bufHeader s b) = bIdle ∧ b.held = none ∧ 64 + (pmBytes m).length ≤ b.bytes)
      (fun _ _ _ _ st _ res => st = csOk ∧ res = [0#32, 0#32, 0#32]) := by
  refine mbxLeads_of (body := _) (fun _ => rfl) (fun a k ws h => ?_) fun s k ws hs _ hw ⟨hres, hbuf, hdev, b, m, hb, hm, hidle, hheld, hbytes⟩ => ?_
  · dsimp only
    rw [h]
    split
    · exact ⟨_, _, rfl⟩
    · exact ⟨_, _, rfl⟩
  · have hb' : mget? (s.beginAt r.val pos.toNat k).hw.bufs (hIndex (arg ws 5)) = some b := hb
    have hm' : mget? (s.beginAt r.val pos.toNat k).hw.pms (arg ws 4).toNat = some m := hm
    have hst0 : judge [(badWord0 ws || fld (arg ws 3) 31 2 != 0, csBadArg), badHandle (s.beginAt r.val pos.toNat k) hBuffer (arg ws 5), notDevice k,
        ((mget? (s.beginAt r.val pos.toNat k).hw.pms (arg ws 4).toNat).isNone, csBadArg)] = csOk := judge_ok fun c hc => by
      simp only [List.mem_cons, List.not_mem_nil, or_false] at hc
      rcases hc with rfl | rfl | rfl | rfl
      · simp [hw, hres]
      · exact badHandle_ok (hOk_beginAt hs hbuf)
      · simp [notDevice, hdev]
      · simp [hm']
    have hidle' : hdrState (bufHeader (s.beginAt r.val pos.toNat k) b) = bIdle := hidle
    have hst : judge ((csOk != csOk, csOk) :: outBuffer (s.beginAt r.val pos.toNat k) b (pmBytes m).length) = csOk := judge_ok fun c hc => by
      unfold outBuffer at hc
      simp only [List.mem_cons, List.not_mem_nil, or_false] at hc
      rcases hc with rfl | rfl | rfl
      · rfl
      · simp [hidle', hheld]
      · simpa using hbytes
    dsimp only
    rw [hst0, hb', hm']
    dsimp only
    rw [passed_goes hst]
    exact cmdDone_finish (ringOpen_of_rings (beginAt_open hs) (congrArg Heartwood.rings (fillBuffer_written ..).hw)) ⟨rfl, rfl⟩

theorem testUnitSamples_acts (r : Fin 16384) (pos : Word) :
    mbxRow (.testUnitSamples r pos) r.val pos 0x49 (fun ws => fld (arg ws 3) 1 0 == 3)
      (fun s k ws => fld (arg ws 3) 31 2 = 0 ∧ hOk s hBuffer (arg ws 5) ∧ k.part = 0 ∧ unitOk s (arg ws 2) = true ∧ (arg ws 4).toNat ≤ 32 ∧
        ∃ b, mget? s.hw.bufs (hIndex (arg ws 5)) = some b ∧ ∀ i ∈ sampleRows s b (arg ws 4).toNat, i < 24576)
      (fun s _ ws t st _ _ => st = csOk ∧ ∀ b g, mget? s.hw.bufs (hIndex (arg ws 5)) = some b → s.hpart b.part = some g →
        ∃ g2, t.hpart b.part = some g2 ∧ ∀ i ∈ sampleRows s b (arg ws 4).toNat,
          ((if unitKind (arg ws 2) = uCore then unitCore (arg ws 2) else 13056), i) ∈ g2.samples) := by
  refine mbxLeads_of (body := _) (fun _ => rfl) (fun a k ws h => ?_) fun s k ws hs _ hw ⟨hres, hbuf, hdev, hok, hcount, b, hb, hrows⟩ => ?_
  · dsimp only
    rw [h]
    split
    · exact ⟨_, _, rfl⟩
    · exact ⟨_, _, rfl⟩
  · have hb' : mget? (s.beginAt r.val pos.toNat k).hw.bufs (hIndex (arg ws 5)) = some b := hb
    have hst0 : judge [(badWord0 ws || fld (arg ws 3) 31 2 != 0, csBadArg), badHandle (s.beginAt r.val pos.toNat k) hBuffer (arg ws 5), notDevice k,
        (!unitOk (s.beginAt r.val pos.toNat k) (arg ws 2), csBadArg), (decide (32 < (arg ws 4).toNat), csBadArg)] = csOk := judge_ok fun c hc => by
      simp only [List.mem_cons, List.not_mem_nil, or_false] at hc
      rcases hc with rfl | rfl | rfl | rfl | rfl
      · simp [hw, hres]
      · exact badHandle_ok (hOk_beginAt hs hbuf)
      · simp [notDevice, hdev]
      · simp [unitOk_beginAt hs, hok]
      · simpa using hcount
    have hsame : sampleRows (s.beginAt r.val pos.toNat k) b (arg ws 4).toNat = sampleRows s b (arg ws 4).toNat := rfl
    have hst : judge [(csOk != csOk, csOk), ((sampleRows s b (arg ws 4).toNat).any fun i => decide (24576 ≤ i), csBadArg)] = csOk := judge_ok fun c hc => by
      simp only [List.mem_cons, List.not_mem_nil, or_false] at hc
      rcases hc with rfl | rfl
      · rfl
      · exact List.any_eq_false.mpr fun i hi => by simpa using hrows i hi
    dsimp only
    rw [hst0, hb']
    dsimp only
    rw [Nat.min_eq_left hcount, hsame, passed_goes hst]
    refine cmdDone_finish (ringOpen_of_rings (beginAt_open hs) (updPart_rings ..)) ⟨rfl, fun b2 g hb2 hg => ?_⟩
    obtain rfl : b = b2 := Option.some.inj (hb.symm.trans hb2)
    have hg' : (s.beginAt r.val pos.toNat k).hpart b.part = some g := hg
    refine ⟨_, finishCmd_part (updPart_hpart hg' _) .., fun i hi => ?_⟩
    exact List.mem_eraseDups.mpr (List.mem_append_right _ (List.mem_map.mpr ⟨i, hi, rfl⟩))

/-- Settles O44: the actions on a partition, a unit fenced by the host, and the actions on a unit under test. -/
theorem healthCommandsEnd : Obligations.HealthCommandsEnd :=
  fun r pos => ⟨resetPartitionRollback_acts r pos, resetPartitionReset_acts r pos, resetPartitionQuench_acts r pos, resetPartitionPeers_acts r pos,
    resetPartitionAdmit_acts r pos, resetPartitionResume_acts r pos, fenceUnitHost_acts r pos, fun x => testUnitTest_acts r pos x,
    fun x => testUnitReadmit_acts r pos x, testUnitReadPm_acts r pos, testUnitSamples_acts r pos⟩

end Sys2Proof.Machine
end

section
/-! PROOFS. Halts, recoveries and the reset of a partition (R597 to R600). -/
namespace Sys2Proof.Machine

/-! ### What is done to a partition's cores -/

theorem mapRegion_core_ne (s : State) {l : Nat} (f : Core → Core) {c : Nat} (h : regionOfCore c ≠ l) : (mapRegion s l f).core c = s.core c := by
  have hmap : (s.cores.map fun e => if regionOfCore e.1 = l then (e.1, f e.2) else e) =
      s.cores.map fun e => (e.1, (fun k v => if regionOfCore k = l then f v else v) e.1 e.2) :=
    List.map_congr_left fun e _ => by dsimp only; split <;> rfl
  have hget : mget? (mapRegion s l f).cores c = mget? s.cores c := by
    refine (congrArg (mget? · c) hmap).trans ((mget_map_values (fun k v => if regionOfCore k = l then f v else v) s.cores c).trans ?_)
    simp only [h, if_false]
    cases mget? s.cores c <;> rfl
  have hreg : (mapRegion s l f).region (regionOfCore c) = s.region (regionOfCore c) := mgetD_mset_ne _ _ _ _ _ h
  unfold State.core
  rw [hget, hreg]

/-- What a change of a region's cores always gives, every core of the regions changed has. -/
theorem foldl_mapRegion_core {P : Core → Prop} {f : Core → Core} (hf : ∀ k, P (f k)) (ls : List Nat) (s : State) {c : Nat} (h : regionOfCore c ∈ ls) :
    P ((ls.foldl (fun a l => mapRegion a l f) s).core c) := by
  induction ls generalizing s with
  | nil => exact absurd h List.not_mem_nil
  | cons l ls ih =>
    by_cases hin : regionOfCore c ∈ ls
    · exact ih (mapRegion s l f) hin
    · have hl : regionOfCore c = l := (List.mem_cons.mp h).resolve_right hin
      have hrest : ∀ (ms : List Nat) (a : State), regionOfCore c ∉ ms → (ms.foldl (fun a l => mapRegion a l f) a).core c = a.core c := fun ms => by
        induction ms with
        | nil => exact fun _ _ => rfl
        | cons m ms ihm =>
          intro a hno
          rw [List.mem_cons, not_or] at hno
          exact (ihm (mapRegion a m f) hno.2).trans (mapRegion_core_ne a f hno.1)
      rw [List.foldl_cons, hrest ls _ hin, mapRegion_core s l f hl]
      exact hf _

/-! ### Halts -/

theorem applyHalt_none {s : State} {p : Nat} {k : Partn} (hk : s.hpart p = some k) (h : k.haltAt = none) : applyHalt s p = s := by
  unfold applyHalt
  rw [hk]
  dsimp only
  rw [h]

/-- A halt that is applied: its time, its partition, its cores. -/
theorem applyHalt_acts {s : State} {p u : Nat} {k : Partn} (hk : s.hpart p = some k) (h : k.haltAt = some u) (hno : k.halted = false) :
    (applyHalt s p).now = max s.now u ∧ (applyHalt s p).hpart p = some { k with halted := true } ∧
      ∀ c, regionOfCore c ∈ partRegions k → ((applyHalt s p).core c).idle = true := by
  unfold applyHalt
  rw [hk]
  dsimp only
  rw [h]
  dsimp only
  rw [if_neg (by rw [hno]; decide)]
  refine ⟨?_, hpart_setPart_self .., fun c hc => ?_⟩
  · have h1 := mapPart_now (s.reach u) k fun c => { (if c.awaiting then c else barrierCore (s.reach u).now c) with idle := true }
    exact h1
  · exact foldl_mapRegion_core (P := fun x => x.idle = true)
      (f := fun c => { (if c.awaiting then c else barrierCore (s.reach u).now c) with idle := true }) (fun _ => rfl) (partRegions k) (s.reach u) hc

/-- A partition that has been rolled back and resumes. -/
theorem rolled_hpart {s : State} {p : Nat} {k : Partn} (hk : s.hpart p = some k) : ∃ g, (resume (rollback s p) p).hpart p = some g ∧ g.haltAt = none ∧
    g.halted = false ∧ g.recov = 0 ∧ g.step = k.committed + 1 ∧ g.committed = k.committed := by
  have hback : ∃ g, (rollback s p).hpart p = some g ∧ g.step = k.committed + 1 ∧ g.committed = k.committed := by
    unfold rollback
    rw [hk]
    exact ⟨_, mget_mset_self .., rfl, rfl⟩
  obtain ⟨g, hg, hstep, hcom⟩ := hback
  obtain ⟨rs, free, hres⟩ := resume_hpart hg
  exact ⟨_, hres, rfl, rfl, rfl, hstep, hcom⟩

theorem halt_acts {s : State} {part : Nat} {k : Partn} (hk : s.hpart part = some k) :
    (k.haltAt = none → k.halted = false → exec (.halt part) s = .next s) ∧
    (∀ u, k.haltAt = some u → k.halted = false → k.recov ≠ 1 → leads (.halt part) s fun t => t.now = max s.now u ∧
      (∃ g, t.hpart part = some g ∧ g.halted = true ∧ g.committed = k.committed) ∧ ∀ c, regionOfCore c ∈ partRegions k → (t.core c).idle = true) ∧
    (∀ u, k.haltAt = some u → k.halted = false → k.recov = 1 → leads (.halt part) s fun t => ∃ g, t.hpart part = some g ∧ g.haltAt = none ∧
      g.halted = false ∧ g.recov = 0 ∧ g.step = k.committed + 1 ∧ g.committed = k.committed) := by
  have hdef : exec (.halt part) s = .next (haltNow s part) := rfl
  refine ⟨fun hat hno => ?_, fun u hat hno hrec => ?_, fun u hat hno hrec => ?_⟩
  · rw [hdef, haltNow, applyHalt_none hk hat, hk]
    dsimp only
    rw [if_neg (by rw [hno]; exact fun h => Bool.false_ne_true h.1)]
  · obtain ⟨hnow, hpart, hidle⟩ := applyHalt_acts hk hat hno
    have hgo : haltNow s part = applyHalt s part := by
      unfold haltNow
      dsimp only
      rw [hpart]
      exact if_neg fun h => hrec h.2
    exact leads_of (hdef.trans (congrArg _ hgo)) ⟨hnow, ⟨_, hpart, rfl, rfl⟩, hidle⟩
  · obtain ⟨_, hpart, _⟩ := applyHalt_acts hk hat hno
    have hgo : haltNow s part = resume (rollback (applyHalt s part) part) part := by
      unfold haltNow
      dsimp only
      rw [hpart]
      exact if_pos ⟨rfl, hrec⟩
    obtain ⟨g, hg, hhalt, hrun, hover, hstep, hcom⟩ := rolled_hpart hpart
    exact leads_of (hdef.trans (congrArg _ hgo)) ⟨g, hg, hhalt, hrun, hover, hstep, hcom⟩

/-! ### Recoveries that begin again -/

theorem haltFor_again {s : State} {p next : Nat} {k : Partn} (hk : s.hpart p = some k) (hrec : k.recov ≠ 0) :
    winCounts s (haltFor s p next) 0x200008 31 16 1 ∧
      ∃ g, (haltFor s p next).hpart p = some g ∧ g.recov = max k.recov next ∧ g.restarts = k.restarts + 1 := by
  unfold haltFor
  rw [hk]
  dsimp only
  rw [decide_eq_true hrec, if_pos rfl]
  refine ⟨?_, _, hpart_setPart_self .., rfl, rfl⟩
  refine (fld_wCount_self _ 0x200008 16 1 (by decide)).trans ?_
  rw [fld_wFld_apart _ _ _ _ _ (by decide)]
  rfl

/-- A partition that fails is held, and starts to count its recoveries again. -/
theorem failPartition_hpart {s : State} {p : Nat} {k : Partn} (hk : s.hpart p = some k) (cause : Nat) :
    ∃ g, (failPartition s p cause).hpart p = some g ∧ g.heldJob = true ∧ g.restarts = 0 := by
  have hacted := ((((endWaiters_acted s p false).trans (endRequests_reqs _ p csFailed cause).acted).trans (originateQuench_acted _ p quFailed)).trans
    (haltFor_acted _ p 1))
  obtain ⟨g, hg, _⟩ := hacted.part p k hk
  unfold failPartition
  rw [if_neg (by simp [hk])]
  exact ⟨_, updPart_hpart hg _, rfl, rfl⟩

theorem recoveryRestart_acts {s : State} {part : Nat} {k : Partn} (hk : s.hpart part = some k) :
    (k.recov = 0 → exec (.recoveryRestart part) s = .next s) ∧
    (k.recov ≠ 0 → k.restarts < 3 → leads (.recoveryRestart part) s fun t => winCounts s t 0x200008 31 16 1 ∧
      ∃ g, t.hpart part = some g ∧ g.recov = k.recov ∧ g.restarts = k.restarts + 1) ∧
    (k.recov ≠ 0 → 3 ≤ k.restarts → leads (.recoveryRestart part) s fun t => ∃ g, t.hpart part = some g ∧ g.heldJob = true ∧ g.restarts = 0) := by
  have hdef : exec (.recoveryRestart part) s = execRecoveryRestart part s := rfl
  unfold execRecoveryRestart at hdef
  rw [hk] at hdef
  dsimp only at hdef
  refine ⟨fun h => hdef.trans (congrArg _ (if_pos h)), fun hrec hfew => ?_, fun hrec hmany => ?_⟩
  · obtain ⟨hcount, g, hg, hgr, hgn⟩ := haltFor_again (next := k.recov) hk hrec
    have hgo : startRecovery s part k.recov = haltFor s part k.recov := by
      unfold startRecovery
      dsimp only
      rw [hg, Option.map_some, Option.getD_some, hgn]
      exact if_neg (by rw [decide_eq_true_eq]; omega)
    rw [if_neg hrec, hgo] at hdef
    exact leads_of hdef ⟨hcount, g, hg, hgr.trans (Nat.max_self _), hgn⟩
  · obtain ⟨_, g, hg, _, hgn⟩ := haltFor_again (next := k.recov) hk hrec
    have hgo : startRecovery s part k.recov = failPartition (haltFor s part k.recov) part 0 := by
      unfold startRecovery
      dsimp only
      rw [hg, Option.map_some, Option.getD_some, hgn]
      exact if_pos (decide_eq_true (by omega))
    rw [if_neg hrec, hgo] at hdef
    exact leads_of hdef (failPartition_hpart hg 0)

/-! ### The reset of a partition -/

theorem core_setRegion {s : State} {l : Nat} {g : Region} (h : g.tmpl = (s.region l).tmpl) (c : Nat) : (s.setRegion l g).core c = s.core c := by
  have e : ((s.setRegion l g).region (regionOfCore c)).tmpl = (s.region (regionOfCore c)).tmpl := by
    by_cases hc : regionOfCore c = l
    · rw [hc]
      refine Eq.trans ?_ h
      exact congrArg Region.tmpl (mgetD_mset_self s.regions l g Region.reset)
    · exact congrArg Region.tmpl (mgetD_mset_ne s.regions l (regionOfCore c) g Region.reset hc)
  unfold State.core
  rw [e]
  rfl

theorem putOwner_core (s : State) (unit0 n part : Nat) (valid : Bool) (c : Nat) : (putOwner s unit0 n part valid).core c = s.core c := by
  refine core_of_maps ?_ (putOwner_regions ..) c
  unfold putOwner
  exact foldl_keeps State.cores (fun a st => setStack_cores a st _) _ _

theorem clearBarriers_core (s : State) (p c : Nat) : (clearBarriers s p).core c = s.core c := by
  unfold clearBarriers
  exact core_of_maps (allRouters_cores ..) (allRouters_regions ..) c

/-- Regions marked clean keep their cores. -/
theorem foldl_clean_core (ls : List Nat) (s : State) (c : Nat) :
    (ls.foldl (fun a l => a.setRegion l { a.region l with suspect := false }) s).core c = s.core c := by
  induction ls generalizing s with
  | nil => rfl
  | cons l ls ih => exact (ih _).trans (core_setRegion (g := { s.region l with suspect := false }) rfl c)

theorem resetPart_core {s : State} {p : Nat} {k : Partn} (hk : s.hpart p = some k) (stays : Bool) {c : Nat} (hc : regionOfCore c ∈ partRegions k) :
    ((resetPart s p stays).core c).idle = true ∧ ((resetPart s p stays).core c).awaiting = true := by
  unfold resetPart
  rw [hk]
  dsimp only
  rw [putOwner_core, foldl_clean_core, clearBarriers_core]
  exact foldl_mapRegion_core (P := fun x => x.idle = true ∧ x.awaiting = true) (f := resetCore false) (fun _ => ⟨rfl, rfl⟩) (partRegions k) _ hc

theorem partitionReset_acts {s : State} {part : Nat} {k : Partn} (hk : s.hpart part = some k) : leads (.partitionReset part) s fun t =>
    t.hpart part = some k ∧ t.now = s.now ∧ ∀ c, regionOfCore c ∈ partRegions k → (t.core c).idle = true ∧ (t.core c).awaiting = true := by
  have hdef : exec (.partitionReset part) s = .next (resetPart s part true) := rfl
  exact leads_of hdef ⟨(hpart_of_seated (resetPart_seated s part true) part).trans hk, resetPart_now .., fun c hc => resetPart_core hk true hc⟩

theorem noPart_acts {s : State} {part : Nat} (h : s.hpart part = none) :
    exec (.halt part) s = .next s ∧ exec (.recoveryRestart part) s = .next s ∧ exec (.partitionReset part) s = .next s := by
  have hhalt : exec (.halt part) s = .next (haltNow s part) := rfl
  have hrec : exec (.recoveryRestart part) s = execRecoveryRestart part s := rfl
  have hreset : exec (.partitionReset part) s = .next (resetPart s part true) := rfl
  have happly : applyHalt s part = s := by
    unfold applyHalt
    rw [h]
  refine ⟨?_, ?_, ?_⟩
  · rw [hhalt, haltNow, happly, h]
  · rw [hrec, execRecoveryRestart, h]
  · rw [hreset, resetPart, h]

end Sys2Proof.Machine
end

section
/-! PROOFS. Resets of cores, clusters and the whole device (R599 to R602, R625). -/
namespace Sys2Proof.Machine

/-! ### What breaking channels and taking post-mortems leave -/

theorem takePm_core (s : State) (x c : Nat) : (takePm s x).core c = s.core c := by
  unfold takePm
  split
  · rfl
  · exact core_of_maps rfl rfl c

theorem takePm_reg (s : State) (x : Nat) {o : Nat} (h : o ≠ rPm) : wReg (takePm s x) o = wReg s o := by
  unfold takePm
  split
  · rfl
  · exact (wReg_wFld_ne _ _ _ _ _ _ h).trans (wReg_wFld_ne _ _ _ _ _ _ h)

theorem takePm_chans (s : State) (x : Nat) : (takePm s x).hw.chans = s.hw.chans := by
  unfold takePm
  split <;> rfl

theorem takePm_fenced (s : State) (x : Nat) : (takePm s x).hw.fenced = s.hw.fenced := by
  unfold takePm
  split <;> rfl

theorem breakOn_win (s : State) (hit : Nat → Bool) (cause : Nat) : (breakOn s hit cause).win = s.win := by
  unfold breakOn
  refine foldl_win (fun a e => ?_) _ _
  exact (setCore_win ..).trans (setCore_win ..)

theorem breakOn_noChans {s : State} (h : s.hw.chans = []) (hit : Nat → Bool) (cause : Nat) : breakOn s hit cause = s := by
  unfold breakOn
  rw [h]
  rfl

theorem wCount_core (s : State) (o hi lo n c : Nat) : (wCount s o hi lo n).core c = s.core c := core_of_maps rfl rfl c

/-! ### Cores reset together -/

theorem foldl_takePm_reg (cs : List Nat) (s : State) {o : Nat} (h : o ≠ rPm) : wReg (cs.foldl takePm s) o = wReg s o :=
  foldl_keeps (fun a => wReg a o) (fun a x => takePm_reg a x h) cs s

/-- What the reset of a core keeps and clears, as it is written back. -/
theorem resetCore_acts (k : Core) : ({ resetCore true k with outbox := [], check := false } : Core).spad = k.spad ∧
    ({ resetCore true k with outbox := [], check := false } : Core).slots = k.slots := ⟨rfl, rfl⟩

/-- The cores that are reset together each are as a reset leaves a core. -/
theorem foldl_resetCore_core (keep : Bool) (cs : List Nat) (s : State) {c : Nat} (h : c ∈ cs) :
    ((cs.foldl (fun a c => a.setCore c (resetCore keep (a.core c))) s).core c).idle = true ∧
      ((cs.foldl (fun a c => a.setCore c (resetCore keep (a.core c))) s).core c).awaiting = true := by
  induction cs generalizing s with
  | nil => exact absurd h List.not_mem_nil
  | cons x cs ih =>
    by_cases hin : c ∈ cs
    · exact ih _ hin
    · have hx : c = x := (List.mem_cons.mp h).resolve_right hin
      have hrest : ∀ (ys : List Nat) (a : State), c ∉ ys → (ys.foldl (fun a c => a.setCore c (resetCore keep (a.core c))) a).core c = a.core c := fun ys => by
        induction ys with
        | nil => exact fun _ _ => rfl
        | cons y ys ihy =>
          intro a hno
          rw [List.mem_cons, not_or] at hno
          exact (ihy _ hno.2).trans (core_setCore_ne _ _ _ _ hno.1)
      rw [List.foldl_cons, hrest cs _ hin, hx, core_setCore_self]
      exact ⟨rfl, rfl⟩

theorem countAbsorbed_core (s : State) (n c : Nat) : (countAbsorbed s n).core c = s.core c := wCount_core ..

theorem countAbsorbed_field (s : State) (n : Nat) {hi : Nat} (lo : Nat) (h : hi < 24) :
    fld (wReg (countAbsorbed s n) 0x200004) hi lo = fld (wReg s 0x200004) hi lo := fld_wCount_apart _ _ _ _ _ (Or.inl h) _

theorem resetCores_acts (s : State) (cs : List Nat) (keep : Bool) :
    (∀ c ∈ cs, ((resetCores s cs keep).core c).idle = true ∧ ((resetCores s cs keep).core c).awaiting = true) ∧
      (∀ hi lo, hi < 24 → fld (wReg (resetCores s cs keep) 0x200004) hi lo = fld (wReg s 0x200004) hi lo) ∧
      (resetCores s cs keep).hw.fenced = s.hw.fenced := by
  unfold resetCores
  extract_lets s1 s2 n
  have hwin2 : s2.win = s1.win := breakOn_win s1 (fun c => cs.contains c) 2
  have hfenced2 : s2.hw.fenced = s.hw.fenced :=
    (breakOn_fenced s1 (fun c => cs.contains c) 2).trans (foldl_keeps (fun a => a.hw.fenced) takePm_fenced cs s)
  have hreg2 : wReg s2 0x200004 = wReg s 0x200004 := by
    unfold wReg
    rw [hwin2]
    exact foldl_takePm_reg cs s (by decide)
  clear_value n s2
  have hwin3 := foldl_win (f := fun (a : State) c => a.setCore c (resetCore keep (a.core c))) (fun a c => setCore_win ..) cs s2
  have hhw3 := foldl_keeps State.hw (f := fun (a : State) c => a.setCore c (resetCore keep (a.core c))) (fun a c => setCore_hw ..) cs s2
  have hcore3 := fun c hc => foldl_resetCore_core keep cs s2 (c := c) hc
  generalize cs.foldl (fun a c => a.setCore c (resetCore keep (a.core c))) s2 = s3 at hwin3 hhw3 hcore3
  have hreg3 : wReg s3 0x200004 = wReg s 0x200004 := by
    unfold wReg at hreg2 ⊢
    rw [hwin3]
    exact hreg2
  refine ⟨fun c hc => ?_, fun hi lo h => ?_, ?_⟩
  · rw [countAbsorbed_core]
    exact hcore3 c hc
  · rw [countAbsorbed_field _ _ _ h, hreg3]
  · exact (congrArg Heartwood.fenced hhw3).trans hfenced2

theorem clusterReset_acts (s : State) (p cx cy : Nat) : winCounts s (clusterReset s p cx cy) 0x200004 15 8 1 ∧
    (∀ c ∈ clusterCores s p cx cy, ((clusterReset s p cx cy).core c).idle = true ∧ ((clusterReset s p cx cy).core c).awaiting = true) ∧
    fld (wReg (clusterReset s p cx cy) 0x200004) 23 16 = fld (wReg s 0x200004) 23 16 ∧ (clusterReset s p cx cy).hw.fenced = s.hw.fenced := by
  obtain ⟨hcores, hfields, hfenced⟩ := resetCores_acts s (clusterCores s p cx cy) true
  unfold clusterReset
  extract_lets s1 r
  have hreg : wReg (s1.setRouter r (clearLocal (s1.router r))) 0x200004 = wReg s1 0x200004 := by
    unfold wReg
    rw [setRouter_win]
  have hcore : ∀ c, (s1.setRouter r (clearLocal (s1.router r))).core c = s1.core c :=
    core_of_maps (setRouter_cores s1 r (clearLocal (s1.router r))) (setRouter_regions s1 r (clearLocal (s1.router r)))
  have hhw : (s1.setRouter r (clearLocal (s1.router r))).hw = s1.hw := setRouter_hw s1 r (clearLocal (s1.router r))
  generalize s1.setRouter r (clearLocal (s1.router r)) = v at hreg hcore hhw
  refine ⟨?_, fun c hc => ?_, ?_, ?_⟩
  · refine (fld_wCount_self _ 0x200004 8 1 (by decide)).trans ?_
    rw [hreg, hfields 15 8 (by decide)]
  · have e : (wCount v 0x200004 15 8 1).core c = s1.core c := (wCount_core ..).trans (hcore c)
    rw [e]
    exact hcores c hc
  · refine (fld_wCount_apart _ _ _ _ _ (by decide) _).trans ?_
    rw [hreg, hfields 23 16 (by decide)]
  · exact (congrArg Heartwood.fenced hhw).trans hfenced

theorem coreReset_acts (c : CoreId) {s : State} (h : s.hw.chans = []) : leads (.coreReset c) s fun t => winCounts s t 0x200004 7 0 1 ∧
    (t.core c.val).idle = true ∧ (t.core c.val).awaiting = true ∧ (t.core c.val).flitQ = [] ∧ (t.core c.val).spad = (s.core c.val).spad ∧
    (t.core c.val).slots = (s.core c.val).slots ∧ ∀ d, d ≠ c.val → t.core d = s.core d := by
  have hdef : exec (.coreReset c) s = .next (wCount (resetCores s [c.val] true) 0x200004 7 0 1) := rfl
  obtain ⟨_, hfields, _⟩ := resetCores_acts s [c.val] true
  have hcores : ∀ d, (resetCores s [c.val] true).core d = ((takePm s c.val).setCore c.val (resetCore true (s.core c.val))).core d := fun d => by
    have hchans : (takePm s c.val).hw.chans = [] := (takePm_chans ..).trans h
    unfold resetCores
    dsimp only [List.foldl_cons, List.foldl_nil]
    rw [breakOn_noChans hchans, countAbsorbed_core]
    have e : (mapAllCtxs (takePm s c.val) (stopStream fun x => [c.val].contains x)).core c.val = s.core c.val :=
      (core_of_maps rfl rfl c.val).trans (takePm_core ..)
    rw [e]
    by_cases hd : d = c.val
    · rw [hd, core_setCore_self, core_setCore_self]
    · rw [core_setCore_ne _ _ _ _ hd, core_setCore_ne _ _ _ _ hd]
      exact core_of_maps rfl rfl d
  have hwc : ∀ d, (wCount (resetCores s [c.val] true) 0x200004 7 0 1).core d = (resetCores s [c.val] true).core d := fun d => wCount_core ..
  have hown : (wCount (resetCores s [c.val] true) 0x200004 7 0 1).core c.val = { resetCore true (s.core c.val) with outbox := [], check := false } :=
    (hwc _).trans ((hcores _).trans (core_setCore_self ..))
  obtain ⟨hspad, hslots⟩ := resetCore_acts (s.core c.val)
  refine leads_of hdef ⟨?_, congrArg Core.idle hown, congrArg Core.awaiting hown, congrArg Core.flitQ hown, (congrArg Core.spad hown).trans hspad, (congrArg Core.slots hown).trans hslots,
    fun d hd => ?_⟩
  · refine (fld_wCount_self _ 0x200004 0 1 (by decide)).trans ?_
    rw [hfields 7 0 (by decide)]
  · exact (hwc d).trans ((hcores d).trans ((core_setCore_ne _ _ _ _ hd).trans (takePm_core ..)))

/-! ### The reset of the device -/

theorem foldl_bump {α : Type} (π : State → α) (h : ∀ a (m : Map Nat), π { a with hw := { a.hw with gens := m } } = π a) (ty : Nat) (l : List Nat) (s : State) :
    π (l.foldl (fun a i => bumpGen a ty i) s) = π s := foldl_keeps π (fun _ _ => h _ _) l s

theorem resetObjects_acts (s : State) : (resetObjects s).hw.parts = [] ∧ (resetObjects s).hw.chans = [] ∧ (resetObjects s).hw.fenced = s.hw.fenced ∧
    (resetObjects s).win = s.win ∧ (resetObjects s).now = s.now := by
  unfold resetObjects
  extract_lets h r0 keepQp keepKey bump s1 s2 s3 s4 s5 s6 s7 s8 s9 g rings qps keys
  have h9 : (s9.hw.fenced, s9.win, s9.now) = (s.hw.fenced, s.win, s.now) := by
    have step := fun ty l a => foldl_bump (fun x : State => (x.hw.fenced, x.win, x.now)) (fun _ _ => rfl) ty l a
    exact (step ..).trans ((step ..).trans ((step ..).trans ((step ..).trans ((step ..).trans ((step ..).trans ((step ..).trans ((step ..).trans (step ..))))))))
  clear_value s9
  exact ⟨rfl, rfl, congrArg Prod.fst h9, congrArg (fun x => x.2.1) h9, congrArg (fun x => x.2.2) h9⟩

end Sys2Proof.Machine
end

section
/-! PROOFS. The reset of the device and resets that escalate (R602, R603, R625). -/
namespace Sys2Proof.Machine

/-! ### The ports of a device that is reset -/

/-- Nothing but the window and the ports has changed. -/
def portsOnly (s t : State) : Prop := { t with win := s.win, ports := s.ports } = s

theorem portsOnly.trans {s t u : State} (h : portsOnly s t) (h2 : portsOnly t u) : portsOnly s u := by
  have e := congrArg (fun x : State => { x with win := s.win, ports := s.ports }) h2
  exact e.trans h

theorem resetPort_only (s : State) (p : Nat) : portsOnly s (resetPort s p) := by
  unfold resetPort
  extract_lets st s1 s2
  have h1 : portsOnly s s1 := rfl
  have h2 : portsOnly s s2 := by
    unfold s2
    split
    · exact rfl
    · exact h1
  clear_value s2
  exact h2.trans (u := s2.setPort p _) rfl

theorem resetPort_other {p q : Nat} (h : q ≠ p) (s : State) : portState (resetPort s p) q = portState s q := by
  have hne : pReg q 4 ≠ pReg p 4 := by
    unfold pReg
    omega
  unfold resetPort
  extract_lets st s1 s2
  have h1 : wReg s1 (pReg q 4) = wReg s (pReg q 4) := wReg_wFld_ne _ _ _ _ _ _ hne
  have h2 : wReg s2 (pReg q 4) = wReg s (pReg q 4) := by
    unfold s2
    split
    · exact (wReg_wCount_ne _ _ _ _ _ _ hne).trans h1
    · exact h1
  exact congrArg (fld · 2 0) h2

theorem resetPort_up {s : State} {p : Nat} (h : portState s p = poUp) : portState (resetPort s p) p = poQuiet := by
  unfold resetPort
  rw [h]
  dsimp only
  rw [if_neg (by decide : ¬ poUp = poFenced), if_pos rfl, if_neg (fun hno => absurd hno.1 (by decide))]
  exact fld_wFld_self s (pReg p 4) 0 poQuiet (by decide)

theorem foldl_resetPort_acts (s : State) (n : Nat) : portsOnly s ((List.range n).foldl resetPort s) ∧
    (∀ q, n ≤ q → portState ((List.range n).foldl resetPort s) q = portState s q) ∧
    ∀ q, q < n → portState s q = poUp → portState ((List.range n).foldl resetPort s) q = poQuiet := by
  induction n with
  | zero => exact ⟨rfl, fun _ _ => rfl, fun _ h => absurd h (Nat.not_lt_zero _)⟩
  | succ n ih =>
    obtain ⟨honly, hrest, hup⟩ := ih
    rw [List.range_succ, List.foldl_append]
    generalize (List.range n).foldl resetPort s = a at honly hrest hup
    refine ⟨honly.trans (resetPort_only a n), fun q hq => ?_, fun q hq hst => ?_⟩
    · exact (resetPort_other (by omega) a).trans (hrest q (by omega))
    · by_cases hqn : q = n
      · rw [hqn] at hst ⊢
        exact resetPort_up ((hrest n (Nat.le_refl n)).trans hst)
      · exact (resetPort_other hqn a).trans (hup q (by omega) hst)

/-! ### The window of a device that is reset -/

theorem keptBits_port (s : State) {p : Nat} (hp : p < 8) : keptBits s (pReg p 4) = 7#32 := by
  unfold keptBits pReg
  dsimp only
  rw [if_neg (by omega), if_neg (by omega), if_neg (by omega), if_neg (by omega), if_neg (by omega), if_neg (by omega), if_pos (by omega),
    if_neg (by omega), if_pos (by omega)]

theorem fld_keep_low (w d : Word) : fld ((w &&& 7#32) ||| (d &&& ~~~7#32)) 2 0 = fld w 2 0 := by
  refine Nat.eq_of_testBit_eq fun i => ?_
  rw [testBit_fld, testBit_fld]
  by_cases h : i < 3
  · have h7 : (7#32).getLsbD (0 + i) = true := by
      interval_cases i <;> rfl
    simp only [BitVec.getLsbD_or, BitVec.getLsbD_and, BitVec.getLsbD_not, h7, Bool.and_true, Bool.not_true, Bool.and_false, Bool.or_false]
  · have h0 : decide (i < 2 + 1 - 0) = false := decide_eq_false (by omega)
    rw [h0, Bool.false_and, Bool.false_and]

theorem portState_resetWindow (s : State) {p : Nat} (hp : p < 8) : fld (regRaw windowRegs (resetWindow s) (pReg p 4)) 2 0 = portState s p := by
  have hget : mget? (resetWindow s) (pReg p 4) = (mget? s.win (pReg p 4)).map fun w =>
      (w &&& keptBits s (pReg p 4)) ||| (regRaw windowRegs [] (pReg p 4) &&& ~~~ keptBits s (pReg p 4)) :=
    mget_map_values (fun o w => (w &&& keptBits s o) ||| (regRaw windowRegs [] o &&& ~~~ keptBits s o)) s.win (pReg p 4)
  unfold portState wReg regRaw mgetD
  rw [hget, keptBits_port s hp]
  cases mget? s.win (pReg p 4) with
  | none => rfl
  | some w => exact fld_keep_low w _

/-! ### The reset of the device -/

theorem foldl_finishCmd_keeps {α β : Type} (π : State → β) (h : ∀ a (m : Map Ring), π { a with hw := { a.hw with rings := m } } = π a)
    (r : Nat) (l : List α) (f : State → α → State) (hf : ∀ a x, ∃ pos st hd rs, f a x = finishCmd a r pos st hd rs) (s : State) : π (l.foldl f s) = π s :=
  foldl_keeps π (fun a x => by
    obtain ⟨pos, st, hd, rs, e⟩ := hf a x
    obtain ⟨g, hg⟩ := finishCmd_form a r pos st hd rs
    rw [e, hg]
    exact h a g) l s

theorem abortFlights_acts (s : State) : (abortFlights s).hw.fenced = s.hw.fenced ∧ (abortFlights s).win = s.win ∧ (abortFlights s).now = s.now := by
  unfold abortFlights
  split
  · exact ⟨rfl, rfl, rfl⟩
  · next r _ =>
    have h := foldl_finishCmd_keeps (fun x : State => (x.hw.fenced, x.win, x.now)) (fun _ _ => rfl) 0 (r.flight.filter fun f => f.done.isNone)
      (fun a f => finishCmd a 0 f.pos csAborted 0#32 []) (fun _ _ => ⟨_, _, _, _, rfl⟩) s
    exact ⟨congrArg Prod.fst h, congrArg (fun x => x.2.1) h, congrArg (fun x => x.2.2) h⟩

/-- What a device holds once it is reset, but for its ports. -/
structure Restarted (s u : State) : Prop where
  now : u.now = s.now
  net : u.net = []
  records : u.records = []
  parts : u.hw.parts = []
  chans : u.hw.chans = []
  events : u.tmb.events = []
  ready : u.hw.ready = false
  fenced : u.hw.fenced = s.hw.fenced
  ports : ∀ p, p < 8 → portState u p = portState s p

theorem Restarted.of_core {s v u : State} (h : Restarted s v) (hnow : u.now = v.now) (hnet : u.net = v.net) (hrec : u.records = v.records) (hhw : u.hw = v.hw)
    (htmb : u.tmb = v.tmb) (hwin : u.win = v.win) : Restarted s u := by
  obtain ⟨h1, h2, h3, h4, h5, h6, h7, h8, h9⟩ := h
  refine ⟨hnow.trans h1, hnet.trans h2, hrec.trans h3, ?_, ?_, ?_, ?_, ?_, fun p hp => ?_⟩
  · rw [hhw, h4]
  · rw [hhw, h5]
  · rw [htmb, h6]
  · rw [hhw, h7]
  · rw [hhw, h8]
  · rw [← h9 p hp]
    unfold portState wReg
    rw [hwin]

theorem deviceReset_form (s : State) : ∃ u, deviceReset s = (List.range 8).foldl resetPort u ∧ Restarted s u := by
  obtain ⟨hparts, hchans, hfenced, hwin, hnow⟩ := resetObjects_acts (abortFlights s)
  obtain ⟨hfenced0, hwin0, hnow0⟩ := abortFlights_acts s
  unfold deviceReset
  extract_lets s1 s2 _ s3 s4
  have hwin2 : s2.win = s.win := hwin.trans hwin0
  have h3 : Restarted s s3 :=
    ⟨hnow.trans hnow0, rfl, rfl, hparts, hchans, rfl, rfl, hfenced.trans hfenced0, fun p hp => (portState_resetWindow s2 hp).trans (by
      unfold portState wReg
      rw [hwin2])⟩
  clear_value s3
  have h4 : Restarted s s4 := by
    unfold s4
    split
    · exact h3.of_core rfl rfl rfl rfl rfl rfl
    · exact h3
  clear_value s4
  exact ⟨_, rfl, h4.of_core rfl rfl rfl rfl rfl rfl⟩

theorem deviceReset_acts (s : State) : (deviceReset s).now = s.now ∧ (deviceReset s).net = [] ∧ (deviceReset s).records = [] ∧
    (deviceReset s).hw.parts = [] ∧ (deviceReset s).hw.chans = [] ∧ (deviceReset s).tmb.events = [] ∧ (deviceReset s).hw.ready = false ∧
    (deviceReset s).hw.fenced = s.hw.fenced ∧ ∀ p : Fin 8, portState s p.val = poUp → portState (deviceReset s) p.val = poQuiet := by
  obtain ⟨u, hu, h1, h2, h3, h4, h5, h6, h7, h8, h9⟩ := deviceReset_form s
  rw [hu]
  obtain ⟨honly, _, hup⟩ := foldl_resetPort_acts u 8
  have hhw : ((List.range 8).foldl resetPort u).hw = u.hw := (congrArg State.hw honly :)
  have htmb : ((List.range 8).foldl resetPort u).tmb = u.tmb := (congrArg State.tmb honly :)
  refine ⟨(congrArg State.now honly :).trans h1, (congrArg State.net honly :).trans h2, (congrArg State.records honly :).trans h3, ?_, ?_, ?_, ?_, ?_, fun p hp => ?_⟩
  · rw [hhw, h4]
  · rw [hhw, h5]
  · rw [htmb, h6]
  · rw [hhw, h7]
  · rw [hhw, h8]
  · exact hup p.val p.isLt ((h9 p.val p.isLt).trans hp)

/-! ### Resets that escalate -/

theorem afterFence_reg (s : State) (u : Word) (p : Nat) {o : Nat} (h : notSent o) (h8 : o ≠ 0x200008) : wReg (afterFence s u p) o = wReg s o := by
  unfold afterFence
  split
  · rfl
  · split
    · exact (startRecovery_acted s p 2).reg o h h8
    · split
      · exact (startRecovery_acted s p 2).reg o h h8
      · exact (failPartition_acted s p 0).reg o h h8

theorem fenceEffect_core (a : State) {u : Word} (h : unitKind u = 0) (cause part : Nat) : fenceEffect a u cause part =
    match logCore a (unitCore u) with
    | some c => (breakOn a (fun x => x == c) 2).setCore c (holdCore ((breakOn a (fun x => x == c) 2).core c))
    | none => a := by
  unfold fenceEffect
  rw [h]
  rfl

theorem fenceEffect_cluster (a : State) {u : Word} (h : unitKind u = 1) (cause part : Nat) : fenceEffect a u cause part =
    (clusterCores a (fld u 9 4) (fld u 11 10) (fld u 13 12)).foldl (fun a c => a.setCore c (holdCore (a.core c)))
      (breakOn a (fun x => (clusterCores a (fld u 9 4) (fld u 11 10) (fld u 13 12)).contains x) 2) := by
  unfold fenceEffect
  rw [h]
  rfl

theorem clearBarriers_win (s : State) (p : Nat) : (clearBarriers s p).win = s.win := by
  unfold clearBarriers
  exact allRouters_win ..

theorem clearBarriers_hw (s : State) (p : Nat) : (clearBarriers s p).hw = s.hw := by
  unfold clearBarriers
  exact allRouters_hw ..

/-- A core or a cluster that is fenced leaves the register of resets. -/
theorem fenceUnit_resets (s : State) {u : Word} (h : unitKind u = uCore ∨ unitKind u = uCluster) (cause part pm : Nat) :
    wReg (fenceUnit s u cause part pm) 0x200004 = wReg s 0x200004 := by
  have heff : ∀ a : State, (fenceEffect a u cause part).win = a.win := fun a => by
    rcases h with h | h
    · have h0 : unitKind u = 0 := h
      rw [fenceEffect_core a h0]
      split
      · exact (setCore_win ..).trans (breakOn_win ..)
      · rfl
    · have h1 : unitKind u = 1 := h
      rw [fenceEffect_cluster a h1]
      exact (foldl_win (fun a c => setCore_win ..) _ _).trans (breakOn_win ..)
  have hpat : ∀ o, patReg u = some o → 0x200004 ≠ o := fun o ho => by
    unfold patReg at ho
    rcases h with h | h
    · have h0 : unitKind u = 0 := h
      rw [h0] at ho
      have := Option.some.inj ho
      omega
    · have h1 : unitKind u = 1 := h
      rw [h1] at ho
      cases ho
  have hns : notSent 0x200004 := Or.inr (Or.inl (by decide))
  unfold fenceUnit
  split
  · rfl
  · extract_lets h0 s0 s1 who s2 s3
    have hreg1 : wReg s1 0x200004 = wReg s 0x200004 := by
      unfold s1
      split
      · next o ho => exact wReg_wFld_ne _ _ _ _ _ _ (hpat o ho)
      · rfl
    clear_value s1
    have hwin2 : s2.win = s1.win := heff s1
    clear_value s2
    have hreg3 : wReg s3 0x200004 = wReg s 0x200004 := by
      refine Eq.trans ?_ hreg1
      unfold wReg
      exact congrArg (fun m => regRaw windowRegs m 0x200004) hwin2
    clear_value s3
    split
    · exact (afterFence_reg _ _ _ hns (by decide)).trans hreg3
    · exact hreg3

theorem unitKind_coreUnit (n : Nat) : unitKind (coreUnit n) = uCore := by
  unfold unitKind coreUnit unitWord fld
  rw [BitVec.toNat_ofNat]
  unfold uCore
  omega

theorem resetPart_regs (s : State) (p : Nat) (stays : Bool) : wReg (resetPart s p stays) 0x200004 = wReg s 0x200004 ∧
    (resetPart s p stays).hw.fenced = s.hw.fenced := by
  unfold resetPart
  split
  · exact ⟨rfl, rfl⟩
  · next k _ =>
    extract_lets ls s1 s2 s3 _ s4 s5 s6
    have hr1 : wReg s1 0x200004 = wReg s 0x200004 := foldl_takePm_reg _ s (by decide)
    have hf1 : s1.hw.fenced = s.hw.fenced := foldl_keeps (fun a => a.hw.fenced) takePm_fenced _ s
    have hw2 : s2.win = s1.win := breakOn_win ..
    have hf2 : s2.hw.fenced = s1.hw.fenced := breakOn_fenced ..
    have hw3 : s3.win = s2.win := foldl_win (fun a l => mapRegion_win ..) _ _
    have hh3 : s3.hw = s2.hw := foldl_keeps State.hw (fun a l => mapRegion_hw ..) _ _
    have hw5 : s5.win = s3.win := clearBarriers_win s4 p
    have hh5 : s5.hw = s3.hw := clearBarriers_hw s4 p
    have hw6 : s6.win = s5.win := foldl_win (fun a l => setRegion_win ..) _ _
    have hh6 : s6.hw = s5.hw := foldl_keeps State.hw (fun a l => setRegion_hw ..) _ _
    have hw7 := putOwner_win s6 k.unit0 k.units (if stays = true then p else 0) stays
    have hh7 := putOwner_hw s6 k.unit0 k.units (if stays = true then p else 0) stays
    refine ⟨Eq.trans ?_ hr1, ?_⟩
    · exact congrArg (fun m => regRaw windowRegs m 0x200004) (hw7.trans (hw6.trans (hw5.trans (hw3.trans hw2))))
    · exact (congrArg Heartwood.fenced (hh7.trans (hh6.trans (hh5.trans hh3)))).trans (hf2.trans hf1)

end Sys2Proof.Machine
end

section
/-! PROOFS. Escalation, grafts, tested regions and bypasses (R603 to R608, R625). -/
namespace Sys2Proof.Machine

/-! ### Resets that escalate -/

theorem resets_counted (s : State) : winCounts s (wCount s 0x200004 23 16 1) 0x200004 23 16 1 := winCounts_wCount s 0x200004 16 1 (by decide)

theorem unitKind_clusterUnit (n : Nat) : unitKind (unitWord uCluster n) = uCluster := by
  unfold unitKind unitWord fld
  rw [BitVec.toNat_ofNat]
  unfold uCluster
  omega

theorem portFence_fault (s : State) (p : Nat) : (portFence s p).hw.fault = s.hw.fault := by
  unfold portFence setPortState
  dsimp only
  split <;> rfl

theorem fencePorts_fault (s : State) : (fencePorts s).hw.fault = s.hw.fault := by
  unfold fencePorts
  exact foldl_keeps (fun a => a.hw.fault) portFence_fault _ s

theorem resetEscalate_acts (unit : Nat) (s : State) :
    (leads (.resetEscalate 0 unit) s fun t => winCounts s t 0x200004 23 16 1 ∧ coreUnit (physCore s (unit % 10752)) ∈ t.hw.fenced) ∧
    (leads (.resetEscalate 1 unit) s fun t => winCounts s t 0x200004 23 16 1 ∧
      unitWord uCluster (packFields [(6, unit / 16 % 48), (2, unit % 4), (2, unit / 4 % 4)]) ∈ t.hw.fenced) ∧
    (leads (.resetEscalate 2 unit) s fun t => t.hw.parts = [] ∧ t.net = []) ∧
    (leads (.resetEscalate 3 unit) s fun t => t.hw.fault = true ∧ ∀ p : Fin 8, portState t p.val = poFenced) := by
  have hcount := resets_counted s
  have hdef : ∀ dom, exec (.resetEscalate dom unit) s = execResetEscalate dom unit s := fun _ => rfl
  unfold execResetEscalate at hdef
  dsimp only at hdef
  generalize wCount s 0x200004 23 16 1 = s1 at hcount hdef
  have hns : notSent 0x200004 := Or.inr (Or.inl (by decide))
  refine ⟨?_, ?_, ?_, ?_⟩
  · have hkind := unitKind_coreUnit (physCore s (unit % 10752))
    have hreg := fenceUnit_resets s1 (Or.inl hkind) fcHung 0 noPm
    have hin : coreUnit (physCore s (unit % 10752)) ∈ (fenceUnit s1 (coreUnit (physCore s (unit % 10752))) fcHung 0 noPm).hw.fenced :=
      List.contains_iff_mem.mp (fenceUnit_fenced ..)
    have hgo := hdef 0
    dsimp only [Fin.val_zero] at hgo
    generalize fenceUnit s1 (coreUnit (physCore s (unit % 10752))) fcHung 0 noPm = s2 at hreg hin hgo
    generalize physCore s (unit % 10752) / 272 = a at hgo
    obtain ⟨_, _, hfield, hfenced⟩ := clusterReset_acts s2 a (min (physCore s (unit % 10752) % 17 / 4) 3) (physCore s (unit % 10752) % 272 / 17 / 4)
    refine leads_of hgo ⟨winCounts_of_reg hcount (hfield.trans (by rw [hreg])), ?_⟩
    rw [hfenced]
    exact hin
  · have hkind := unitKind_clusterUnit (packFields [(6, unit / 16 % 48), (2, unit % 4), (2, unit / 4 % 4)])
    have hreg := fenceUnit_resets s1 (Or.inr hkind) fcHung 0 noPm
    have hgo := hdef 1
    dsimp only [Fin.val_one] at hgo
    generalize hu : unitWord uCluster (packFields [(6, unit / 16 % 48), (2, unit % 4), (2, unit / 4 % 4)]) = u at hreg hgo ⊢
    have hin : u ∈ (fenceUnit s1 u fcHung 0 noPm).hw.fenced := List.contains_iff_mem.mp (fenceUnit_fenced ..)
    generalize fenceUnit s1 u fcHung 0 noPm = s2 at hreg hin hgo
    have hcount2 : winCounts s s2 0x200004 23 16 1 := winCounts_of_reg hcount (by rw [hreg])
    cases hp : partOfPhys s (unit / 16 % 48) with
    | none =>
      rw [hp] at hgo
      exact leads_of hgo ⟨hcount2, hin⟩
    | some q =>
      rw [hp] at hgo
      obtain ⟨hreg3, hfenced3⟩ := resetPart_regs s2 q true
      have hreg4 := (failPartition_acted (resetPart s2 q true) q 0).reg 0x200004 hns (by decide)
      refine leads_of hgo ⟨winCounts_of_reg hcount2 (by rw [hreg4, hreg3]), ?_⟩
      rw [failPartition_fenced, hfenced3]
      exact hin
  · have hgo := hdef 2
    obtain ⟨_, hnet, _, hparts, _⟩ := deviceReset_acts (if (s1.hpart unit).isSome then
      fenceUnit s1 (unitWord uPart (fld (handleOf s1 hPart unit) 27 0)) fcHung unit noPm else s1)
    exact leads_of hgo ⟨hparts, hnet⟩
  · have hgo := hdef 3
    obtain ⟨hfault, _⟩ := moduleFault_acts s1
    exact leads_of hgo ⟨(fencePorts_fault (moduleFault s1)).trans hfault, fencePorts_fenced (moduleFault s1)⟩

/-! ### Grafts -/

theorem graftMove_state (s : State) {p : Nat} (hp : p < 48) (part : Option Nat) : rstkState (graftMove s p part) (p / 8) = rstkPending := by
  have hne : rowReg (p / 8) ≠ 0x1124 := by
    unfold rowReg
    omega
  have hrow : rowWord (graftMove s p part) (p / 8) = spareWord (rowWord (fenceRegion s p) (p / 8)) p := by
    have hreg : wReg (graftMove s p part) (rowReg (p / 8)) = wReg (retarget (fenceRegion s p) p).1 (rowReg (p / 8)) :=
      congrArg (fun m => regRaw windowRegs m (rowReg (p / 8))) (graftMove_win s p part)
    unfold rowWord
    rw [hreg, retarget_reg _ _ hne, if_pos rfl]
    rfl
  unfold rstkState spareWord at *
  rw [hrow, fld_setFld_ne _ _ _ _ _ _ (by omega), fld_setFld_ne _ _ _ _ _ _ (by omega), fld_setFld_self _ _ _ _ (by decide)]
  rfl

/-- A row that has been moved onto its spare. -/
def graftedRow (p : Nat) (t : State) : Prop := rstkCol t (p / 8) = p % 8 ∧ rstkState t (p / 8) = rstkPending ∧ physFenced t p = true

theorem graftMove_grafted (s : State) {p : Nat} (hp : p < 48) (part : Option Nat) : graftedRow p (graftMove s p part) := by
  obtain ⟨hfenced, hcol, _⟩ := graftMove_row s hp part
  exact ⟨hcol, graftMove_state s hp part, hfenced⟩

theorem graftedRow_of_row {p : Nat} {s t : State} (h : rowWord t (p / 8) = rowWord s (p / 8)) (hs : graftedRow p s) : graftedRow p t := by
  unfold graftedRow rstkCol rstkState physFenced at *
  rw [h]
  exact hs

theorem graft_acts (p : PhysId) (s : State) :
    (canGraft s p.val = false → exec (.graft p) s = .next s) ∧
    (canGraft s p.val = true → partOfPhys s p.val = none → (regionActs s p.val = false → exec (.graft p) s = .next s) ∧
      (regionActs s p.val = true → leads (.graft p) s (graftedRow p.val))) ∧
    (∀ q k, canGraft s p.val = true → partOfPhys s p.val = some q → s.hpart q = some k → deadRegion s p.val = true → k.recov = 2 →
      leads (.graft p) s (graftedRow p.val)) := by
  have hdef : exec (.graft p) s = execGraft p s := rfl
  unfold execGraft at hdef
  refine ⟨fun h => hdef.trans (if_pos (by rw [h]; rfl)), fun h hnone => ?_, fun q k h hq hk hdead hrec => ?_⟩
  · dsimp only at hdef
    rw [if_neg (by rw [h]; decide), hnone] at hdef
    dsimp only at hdef
    refine ⟨fun hno => hdef.trans (congrArg _ (if_neg (by rw [hno]; decide))), fun hyes => ?_⟩
    exact leads_of (hdef.trans (congrArg _ (if_pos hyes))) (graftMove_grafted _ p.isLt none)
  · dsimp only at hdef
    rw [if_neg (by rw [h]; decide), hq] at hdef
    dsimp only at hdef
    rw [hk] at hdef
    dsimp only at hdef
    rw [if_pos ⟨hdead, hrec⟩] at hdef
    refine leads_of hdef (graftedRow_of_row ?_ (graftMove_grafted (applyHalt s q) p.isLt (some q)))
    exact endRecovery_reg _ q (fun a => graftEvent_win ..) (by unfold rowReg; omega)

/-! ### Tested regions -/

/-- A region that is its row's spare again. -/
theorem replenish_acts (s : State) {p : Nat} (hp : p < 48) : rstkState (replenish s p) (p / 8) = rstkIntact ∧ physFenced (replenish s p) p = false ∧
    (replenish s p).hw.fenced = s.hw.fenced.erase (regionUnit p) := by
  have hne : rowReg (p / 8) ≠ 0x200100 + 4 * p := by
    unfold rowReg
    omega
  have hrow : rowWord (replenish s p) (p / 8) = setFld (setFld (rowWord s (p / 8)) 4 3 rstkIntact) (8 + p % 8) (8 + p % 8) 0 := by
    unfold replenish rowWord
    refine (wReg_wFld_ne (setPhysFenced (wFld s (rowReg (p / 8)) 4 3 rstkIntact) p false) (0x200100 + 4 * p) 18 18 0 (rowReg (p / 8)) hne).trans ?_
    unfold setPhysFenced
    rw [wReg_wFld_self, wReg_wFld_self]
    rfl
  refine ⟨?_, ?_, rfl⟩
  · unfold rstkState
    rw [hrow, fld_setFld_ne _ _ _ _ _ _ (by omega), fld_setFld_self _ _ _ _ (by decide)]
    rfl
  · unfold physFenced
    rw [hrow]
    exact bit_setFld_zero _ (by omega)

theorem regionTestDone_acts (p : PhysId) (s : State) :
    (∀ pass, rstkCol s (p.val / 8) ≠ p.val % 8 ∨ rstkState s (p.val / 8) ≠ rstkPending → exec (.regionTestDone p pass) s = .next s) ∧
    (rstkCol s (p.val / 8) = p.val % 8 → rstkState s (p.val / 8) = rstkPending →
      (leads (.regionTestDone p false) s fun t => rstkState t (p.val / 8) = rstkAbsent) ∧
      (breaksR26 (regionBad s p.val) p.val = false → bit (wReg s (0x40008 + 0x100 * p.val)) 3 = false → leads (.regionTestDone p true) s fun t =>
        rstkState t (p.val / 8) = rstkIntact ∧ physFenced t p.val = false ∧ t.hw.fenced = s.hw.fenced.erase (regionUnit p.val))) := by
  have hdef : ∀ pass, exec (.regionTestDone p pass) s = .next (regionTested s p.val pass) := fun _ => rfl
  unfold regionTested at hdef
  refine ⟨fun pass h => (hdef pass).trans (congrArg _ (if_pos h)), fun hcol hst => ?_⟩
  have hgo : ¬ (rstkCol s (p.val / 8) ≠ p.val % 8 ∨ rstkState s (p.val / 8) ≠ rstkPending) := not_or.mpr ⟨not_not.mpr hcol, not_not.mpr hst⟩
  simp only [if_neg hgo] at hdef
  refine ⟨?_, fun hbad hcrack => ?_⟩
  · exact leads_of ((hdef false).trans (congrArg _ (if_neg fun h => Bool.false_ne_true h.1))) (fld_wFld_self s (rowReg (p.val / 8)) 3 rstkAbsent (by decide))
  · have hrun := (hdef true).trans (congrArg _ (if_pos ⟨rfl, by rw [hbad]; rfl, by rw [hcrack]; rfl⟩))
    have hfenced : (putBypasses s (regionBad s p.val)).hw.fenced = s.hw.fenced := rfl
    generalize putBypasses s (regionBad s p.val) = a at hrun hfenced
    obtain ⟨hintact, hclear, herase⟩ := replenish_acts a p.isLt
    exact leads_of hrun ⟨hintact, hclear, herase.trans (by rw [hfenced])⟩

end Sys2Proof.Machine
end

section
/-! PROOFS. Bypassed cores, and resets and moves together (R597 to R608, R625). -/
namespace Sys2Proof.Machine

/-! ### The repair record through a recovery -/

/-- The bypasses of the device and its module's state. -/
def State.repairs (s : State) : Map Nat × Module := (s.bypass, s.mod)

theorem setCore_repairs (s : State) (c : Nat) (k : Core) : (s.setCore c k).repairs = s.repairs := by
  unfold State.repairs
  rw [setCore_bypass, setCore_mod]

theorem allRouters_repairs (s : State) (f : Router → Router) : (s.allRouters f).repairs = s.repairs := rfl

theorem setRegion_repairs (s : State) (l : Nat) (g : Region) : (s.setRegion l g).repairs = s.repairs := rfl

theorem withHw_repairs (s : State) (h : Heartwood) : ({ s with hw := h } : State).repairs = s.repairs := rfl

theorem raiseEvent_repairs (s : State) (kind part : Nat) (obj : Word) (ws : List Word) : (raiseEvent s kind part obj ws).repairs = s.repairs := rfl

theorem writeXlat_repairs (s : State) (ls : List Nat) : (writeXlat s ls).repairs = s.repairs := by
  unfold writeXlat
  exact foldl_keeps State.repairs (fun _ _ => allRouters_repairs ..) _ _

theorem moveCores_repairs (s0 s : State) (cs : List Nat) : (moveCores s0 s cs).repairs = s.repairs :=
  foldl_keeps State.repairs (fun _ _ => setCore_repairs ..) _ _

theorem reloadImages_repairs (s : State) (p : Nat) (hit : Nat → Bool) : (reloadImages s p hit).repairs = s.repairs := by
  unfold reloadImages
  split
  · rfl
  · refine foldl_keeps State.repairs (fun a e => foldl_keeps State.repairs (fun b c => ?_) _ _) _ _
    dsimp only
    split
    · rfl
    · exact setCore_repairs ..

theorem rollChannel_repairs (step : Nat) (s : State) (e : Nat × Channel) : (rollChannel step s e).repairs = s.repairs := by
  unfold rollChannel
  extract_lets c ok s1 s2 s3 _
  split
  · rfl
  · have h : s2.repairs = s.repairs := (setCore_repairs ..).trans (setCore_repairs ..)
    split
    · exact h
    · exact (withHw_repairs s3 _).trans ((raiseEvent_repairs ..).trans h)

theorem mapRegion_repairs (s : State) (l : Nat) (f : Core → Core) : (mapRegion s l f).repairs = s.repairs := by
  unfold State.repairs
  rw [mapRegion_bypass, mapRegion_mod]

theorem rollback_repairs (s : State) (p : Nat) : (rollback s p).repairs = s.repairs := by
  unfold rollback
  split
  · rfl
  · extract_lets s1 s2 e s3 s4 back
    have h1 : s1.repairs = s.repairs := reloadImages_repairs ..
    have h2 : s2.repairs = s1.repairs := foldl_keeps State.repairs (rollChannel_repairs _) _ _
    have h3 : s3.repairs = s2.repairs := foldl_keeps State.repairs (fun a l => mapRegion_repairs ..) _ _
    have h4 : s4.repairs = s3.repairs := foldl_keeps State.repairs (fun _ _ => setRegion_repairs ..) _ _
    exact h4.trans (h3.trans (h2.trans h1))

theorem bookEvent_repairs (s : State) (k : BookKind) (time : Nat) : (bookEvent s k time).repairs = s.repairs := by
  unfold bookEvent
  split <;> rfl

theorem bookNotices_repairs (s : State) (k : Partn) (x : SectionInfo) (t : Nat) : (bookNotices s k x t).repairs = s.repairs := by
  unfold bookNotices
  refine foldl_keeps State.repairs (fun a e => ?_) _ _
  split
  · rfl
  · dsimp only
    split
    · exact bookEvent_repairs ..
    · rfl

theorem bookAhead_repairs (s : State) (p : Nat) : (bookAhead s p).repairs = s.repairs := by
  unfold bookAhead
  split
  · rfl
  · split
    · rfl
    · refine foldl_keeps State.repairs (fun a e => ?_) _ _
      dsimp only
      split
      · rfl
      · split
        · rfl
        · rw [bookNotices_repairs, bookEvent_repairs]

theorem updPart_repairs (s : State) (p : Nat) (f : Partn → Partn) : (updPart s p f).repairs = s.repairs := by
  unfold updPart
  split <;> rfl

theorem finishCmd_repairs (s : State) (r pos st : Nat) (hd : Word) (rs : List Word) : (finishCmd s r pos st hd rs).repairs = s.repairs := by
  obtain ⟨g, hg⟩ := finishCmd_form s r pos st hd rs
  rw [hg]
  rfl

theorem endWaiters_repairs (s : State) (p : Nat) (ok : Bool) : (endWaiters s p ok).repairs = s.repairs := by
  unfold endWaiters
  split
  · rfl
  · exact foldl_keeps State.repairs (fun a w => finishCmd_repairs ..) _ _

theorem resume_repairs (s : State) (p : Nat) : (resume s p).repairs = s.repairs := by
  unfold resume
  extract_lets s1
  have h1 : s1.repairs = s.repairs := (updPart_repairs ..).trans (endWaiters_repairs ..)
  have h2 : (bookAhead (retime s1 p) p).repairs = s1.repairs := (bookAhead_repairs ..).trans (updPart_repairs ..)
  exact h2.trans h1

theorem endRecovery_repairs (s : State) (q : Nat) {done : State → State} (hdone : ∀ a, (done a).repairs = a.repairs) :
    (endRecovery s q done).repairs = s.repairs := by
  unfold endRecovery
  split
  · rfl
  · exact (hdone _).trans ((resume_repairs ..).trans (rollback_repairs ..))

/-! ### Bypasses -/

theorem inPlaceBypass_acts (p : PhysId) (s : State) (row : Fin 16) (col : Fin 17) :
    (unitFenced s (coreUnit (272 * p.val + 17 * row.val + col.val)) = false ∨ canGraft s p.val = true ∨ bypassOf s p.val row.val ≠ 17 →
      exec (.inPlaceBypass p row col) s = .next s) ∧
    ∀ l q k, logOf s p.val = some l → partOfPhys s p.val = some q → s.hpart q = some k → k.recov = 2 →
      unitFenced s (coreUnit (272 * p.val + 17 * row.val + col.val)) = true → canGraft s p.val = false → bypassOf s p.val row.val = 17 →
      leads (.inPlaceBypass p row col) s fun t => bypassOf t p.val row.val = col.val ∧ 272 * p.val + 17 * row.val + col.val ∈ t.mod.bad := by
  have hdef : exec (.inPlaceBypass p row col) s = execInPlaceBypass p row col s := rfl
  unfold execInPlaceBypass at hdef
  generalize 272 * p.val + 17 * row.val + col.val = n at hdef ⊢
  refine ⟨fun h => ?_, fun l q k hl hq hk hrec hdead hno hby => ?_⟩
  · rw [hdef]
    dsimp only
    split
    · refine if_pos ?_
      rcases h with h | h | h
      · exact Or.inl (by rw [h]; rfl)
      · exact Or.inr (Or.inl h)
      · exact Or.inr (Or.inr (Or.inl h))
    · rfl
  · rw [hl, hq] at hdef
    dsimp only at hdef
    have hstay : ¬ ((!unitFenced s (coreUnit n)) = true ∨ canGraft s p.val = true ∨ bypassOf s p.val row.val ≠ 17 ∨
        ((s.hpart q).map Partn.recov).getD 0 ≠ 2) := by
      rw [hdead, hno, hby, hk]
      simp [hrec]
    rw [if_neg hstay] at hdef
    refine leads_of hdef ?_
    have hrep := endRecovery_repairs (reloadImages (moveCores (applyHalt s q) (writeXlat { applyHalt s q with
      bypass := mset (applyHalt s q).bypass (16 * p.val + row.val) col.val, mod := { (applyHalt s q).mod with bad := keyAdd (applyHalt s q).mod.bad n } } [l])
      ((List.range 16).filterMap fun x => if col.val ≤ x then some (coreAt (16 * (l % 7) + x) (16 * (l / 7) + row.val)) else none)) q
      fun c => ((List.range 16).filterMap fun x => if col.val ≤ x then some (coreAt (16 * (l % 7) + x) (16 * (l / 7) + row.val)) else none).contains c) q
      (done := id) (fun _ => rfl)
    rw [reloadImages_repairs, moveCores_repairs, writeXlat_repairs] at hrep
    generalize endRecovery _ q id = t at hrep ⊢
    have hmap : t.bypass = mset (applyHalt s q).bypass (16 * p.val + row.val) col.val := congrArg Prod.fst hrep
    have hbad : t.mod.bad = keyAdd (applyHalt s q).mod.bad n := congrArg (fun x : Map Nat × Module => x.2.bad) hrep
    refine ⟨?_, ?_⟩
    · unfold bypassOf
      rw [hmap, Nat.mul_comm p.val 16]
      exact mgetD_mset_self ..
    · rw [hbad]
      exact (mem_keyAdd_iff ..).mpr (Or.inl rfl)

/-- Settles O50: halts, recoveries and resets leave what they should; rows move onto their spares, cores out of their rows, and spares return. -/
theorem resetsAndMovesAct : Obligations.ResetsAndMovesAct := by
  unfold Obligations.ResetsAndMovesAct
  refine ⟨fun part s => ⟨noPart_acts, fun k hk => ?_⟩, fun c s h => coreReset_acts c h, fun p cx cy s => ?_, fun s => leads_of rfl (deviceReset_acts s),
    resetEscalate_acts, fun p s => ?_⟩
  · intro mine
    obtain ⟨hidle, happly, hback⟩ := halt_acts hk
    obtain ⟨hnone, hagain, hfail⟩ := recoveryRestart_acts hk
    exact ⟨hidle, happly, hback, hnone, hagain, hfail, partitionReset_acts hk⟩
  · obtain ⟨hcount, hcores, _⟩ := clusterReset_acts s p.val cx.val cy.val
    exact leads_of rfl ⟨hcount, hcores⟩
  · intro after
    obtain ⟨hstay, hfree, hdead⟩ := graft_acts p s
    obtain ⟨hother, hown⟩ := regionTestDone_acts p s
    exact ⟨hstay, hfree, hdead, hother, hown, fun row col => inPlaceBypass_acts p s row col⟩

end Sys2Proof.Machine
end
